-- ==== Sys2Proof/Word.lean ====
section
/-! DEFINITION. The plain word types of the model (R17-R24): bytes, words, and the two floating-point
formats as the bit patterns the spec's objects carry. -/

namespace Sys2Proof

/-- A byte. -/
abbrev Byte := BitVec 8
/-- A 32-bit object value, identifier or event parameter. -/
abbrev Word := BitVec 32
/-- An FP32 value, held as its IEEE 754 bit pattern. -/
abbrev F32 := BitVec 32
/-- An FP64 value, held as its IEEE 754 bit pattern. -/
abbrev F64 := BitVec 64
/-- A source or destination address, IPv4 in its IPv4-mapped IPv6 form (R585). -/
abbrev Addr := BitVec 128

/-- One nanosecond, microsecond, millisecond and second in nanoseconds. -/
abbrev us : Nat := 1000
/-- One millisecond in nanoseconds. -/
abbrev ms : Nat := 1000000
/-- One second in nanoseconds. -/
abbrev second : Nat := 1000000000

end Sys2Proof
end

