-- ==== Sys2Proof/Syntax.lean ====
section
/-! DEFINITION. The commands of the block: one constructor of `Instr` for each row of spec/opcode_table.json, in the
table's order, and the types of their operands. The first operand `t` of every command is the reading of TB0, in
nanoseconds, at which it happens (log 1). -/

namespace Sys2Proof

/-- Where a host command came from, and its identity in the response cache (R559, R563, R564, R585). -/
structure Request where
  src : Addr := 0
  /-- Source UDP port. -/
  port : BitVec 16 := 0
  /-- Ingress port, instance 0x10-0x13 of R523. -/
  ingress : BitVec 8 := 0x10
  /-- Module port, 47000 or 47002. -/
  modPort : BitVec 16 := 47000
  /-- The DTLS association the frame came through, or none. -/
  dtls : Option Nat := none
  seq : Word := 0
  crc : Word := 0
  deriving DecidableEq, Repr, Inhabited

/-- A measurement entry of a GNSS epoch (R145). -/
structure Meas where
  system : BitVec 8 := 0
  sv : BitVec 8 := 0
  signal : BitVec 8 := 0
  antenna : BitVec 8 := 0
  channel : BitVec 8 := 0
  flags : BitVec 16 := 0
  pseudorange : F64 := 0
  carrierPhase : F64 := 0
  doppler : F32 := 0
  cn0 : BitVec 16 := 0
  lockTime : BitVec 16 := 0
  prSigma : F32 := 0
  cpSigma : F32 := 0
  gloK : BitVec 8 := 0
  deriving DecidableEq, Repr, Inhabited

/-- A GNSS measurement epoch: the header of R144 and its measurement entries. -/
structure Epoch where
  flags : BitVec 8 := 0
  seq : BitVec 32 := 0
  rxt : Nat := 0
  tb2 : Nat := 0
  tb3 : Nat := 0
  jam : List (BitVec 8) := [0, 0, 0, 0]
  notchActive : BitVec 16 := 0
  meas : List Meas := []
  deriving DecidableEq, Repr, Inhabited

/-- The position, velocity and time solution (R154). -/
structure Pvt where
  tb3 : Nat := 0
  tb2 : Nat := 0
  fixType : BitVec 8 := 0
  sats : BitVec 8 := 0
  antenna : BitVec 8 := 0
  systems : BitVec 8 := 0
  lat : F64 := 0
  lon : F64 := 0
  height : F64 := 0
  vn : F32 := 0
  ve : F32 := 0
  vd : F32 := 0
  hSigma : F32 := 0
  vSigma : F32 := 0
  pdop : F32 := 0
  clockBias : F64 := 0
  clockDrift : F32 := 0
  deriving DecidableEq, Repr, Inhabited

/-- The dual-antenna heading (R159). -/
structure GnssHeading where
  tb3 : Nat := 0
  heading : F64 := 0
  elevation : F32 := 0
  sigma : F32 := 0
  length : F32 := 0
  state : BitVec 8 := 0
  sats : BitVec 8 := 0
  deriving DecidableEq, Repr, Inhabited

/-- An entry of SYSTEM_OFFSETS (R157). -/
structure SysOffset where
  offset : F64 := 0
  sigma : F32 := 0
  source : BitVec 8 := 0
  sats : BitVec 8 := 0
  deriving DecidableEq, Repr, Inhabited

/-- A satellite whose orbit a navigation message gives, with its GLONASS frequency channel, signed (R126, R136). -/
structure Orbit where
  system : BitVec 8 := 0
  sv : BitVec 8 := 0
  gloK : BitVec 8 := 0
  deriving DecidableEq, Repr, Inhabited

/-- What the correlators of a channel yield at an epoch, before the receiver forms its measurement entry (R140, R145, R146). -/
structure MeasInput where
  channel : BitVec 8 := 0
  /-- Transmit time of the code received, in the satellite's own system time: whole ns, and a fraction of one. -/
  txTime : Nat := 0
  txFrac : F64 := 0
  /-- Bit or secondary-code synchronisation reached. -/
  bitSync : Bool := false
  /-- Carrier phase as the loop counts it, cycles, rising with range. -/
  phase : F64 := 0
  doppler : F32 := 0
  cn0 : BitVec 16 := 0
  halfCycle : Bool := false
  /-- A cycle slip was detected since the previous epoch. -/
  slip : Bool := false
  /-- The satellite's own message flags it; SBAS says not to use it (R127). -/
  unhealthy : Bool := false
  doNotUse : Bool := false
  prSigma : F32 := 0
  cpSigma : F32 := 0
  deriving DecidableEq, Repr, Inhabited

/-- A broadcast offset of a system to another, decoded from a message: system time minus reference time after the nominal offsets,
ns (R157). -/
structure BroadcastOffset where
  system : BitVec 2 := 0
  reference : BitVec 2 := 0
  offset : F64 := 0
  sigma : F32 := 0
  deriving DecidableEq, Repr, Inhabited

/-- UTC parameters of a system's navigation message (R97, R155). -/
structure UtcParams where
  system : BitVec 2 := 0
  taiUtc : Int := 0
  leapNext : Int := 0
  leapAt : Nat := 0
  deriving DecidableEq, Repr, Inhabited

/-- The solved vector from ANT_A to ANT_B (R158): azimuth, elevation, its sigma, its length, and whether integer ambiguities came
with it. -/
structure BaselineInput where
  azimuth : F64 := 0
  elevation : F32 := 0
  sigma : F32 := 0
  length : F32 := 0
  ambiguities : Bool := false
  deriving DecidableEq, Repr, Inhabited

/-- What the receiver's correlators, message decoders and navigation filter yield at an epoch: physical measurements
(R133-R159). -/
structure EpochInput where
  meas : List MeasInput := []
  /-- The navigation filter has a solution; `pvt` holds its position, velocity, sigmas, PDOP, clock bias and drift. -/
  solved : Bool := false
  pvt : Pvt := {}
  baseline : Option BaselineInput := none
  /-- Offset and sigma of each system to the reference system as the filter estimates them, GPS first (R157). -/
  estimated : List (F64 × F32) := []
  broadcast : List BroadcastOffset := []
  /-- UTC parameters decoded since the last epoch (R155, R97). -/
  utc : List UtcParams := []
  /-- Ephemerides decoded since the last epoch with the time in ns each stays valid, and almanacs (R136). -/
  ephemerides : List (Orbit × Nat) := []
  almanacs : List Orbit := []
  /-- Satellites' elevations as the receiver predicts them from the orbits held (R137, R141). -/
  elevations : List (BitVec 8 × BitVec 8 × F32) := []
  deriving DecidableEq, Repr, Inhabited

/-- One return of a reference datagram (R232). -/
structure Return where
  range : F32 := 0
  bearing : F32 := 0
  elevation : F32 := 0
  quality : BitVec 8 := 0
  deriving DecidableEq, Repr, Inhabited

/-- A drive's feedback record (R534). -/
structure Feedback where
  seqEcho : BitVec 16 := 0
  flags : BitVec 8 := 0
  source : BitVec 8 := 0
  azimuth : F32 := 0
  pitch : F32 := 0
  speed : F32 := 0
  power : F32 := 0
  deriving DecidableEq, Repr, Inhabited

/-- What one entry of the alignment buffer holds (R199). -/
inductive SampleVal where
  /-- An AI value with its status byte (R183). -/
  | ai (value : F32) (status : BitVec 8)
  /-- A value of a sentence, a CAN frame or a U input, in its SI unit; `valid` as R194 and R550 judge it. -/
  | scalar (value : F64) (valid : Bool)
  /-- A whole GGA or GNS sentence (R550): fix quality, latitude, longitude, height, HDOP. -/
  | fix (quality : Nat) (lat lon height : F64) (hdop : F32) (valid : Bool)
  /-- A GNSS epoch with the solution and the heading that go with it. -/
  | epoch (e : Epoch) (pvt : Pvt) (heading : GnssHeading)
  /-- A reference datagram; `none` when malformed (R232). With it, the reflector of each return, 0xFF for none, as R233
  associated them when it came. -/
  | datagram (d : Option (Bool × List Return)) (assoc : List (BitVec 8))
  /-- A thruster feedback record; `valid` as R536 judges it. -/
  | feedback (f : Feedback) (valid : Bool)
  deriving DecidableEq, Repr, Inhabited

/-- An entry of the alignment buffer: one value of one point, or one epoch (R199). -/
structure Sample where
  point : Nat := 0
  member : Nat := 0
  /-- TB3 stamp (R191). -/
  stamp : Nat := 0
  val : SampleVal := .scalar 0 false
  deriving DecidableEq, Repr, Inhabited

/-- A thruster set-point (R310, R468). -/
structure ThrusterSet where
  slice : Nat := 0
  thrust : F32 := 0
  azimuth : F32 := 0
  pitch : F32 := 0
  speed : F32 := 0
  fx : F32 := 0
  fy : F32 := 0
  deriving DecidableEq, Repr, Inhabited

/-- A frame of a PFB channel: position, stamp, the error and warning bits, the CRC, and what the receiver saw (R429, R431). -/
structure PfbFrame where
  raw : Nat := 0
  stamp : Nat := 0
  error : Bool := false
  warning : Bool := false
  crc : BitVec 6 := 0
  timeout : Bool := false
  quadrature : Bool := false
  line : Bool := false
  supply : Bool := false
  z : Bool := false
  deriving DecidableEq, Repr, Inhabited

/-- The identity of a PTP port (R116, R117): clockIdentity and port number. -/
structure PtpPort where
  clock : BitVec 64 := 0
  number : BitVec 16 := 0
  deriving DecidableEq, Repr, Inhabited

/-- The key of a two-step residence (R116). -/
structure PtpKey where
  domain : BitVec 8 := 0
  port : PtpPort := {}
  seq : BitVec 16 := 0
  deriving DecidableEq, Repr, Inhabited

/-- An Announce message (R117): what the best master clock algorithm compares. -/
structure PtpAnnounce where
  domain : BitVec 8 := 0
  sender : PtpPort := {}
  port : Nat := 0
  priority1 : BitVec 8 := 0
  clockClass : BitVec 8 := 0
  accuracy : BitVec 8 := 0
  variance : BitVec 16 := 0
  priority2 : BitVec 8 := 0
  grandmaster : BitVec 64 := 0
  stepsRemoved : BitVec 16 := 0
  ptpTimescale : Bool := true
  /-- announceReceiptTimeout as the grandmaster states it, or none (3 is then used). -/
  receiptTimeout : Option Nat := none
  /-- logAnnounceInterval. -/
  logInterval : Int := 1
  /-- TB0 of its reception. -/
  rxAt : Nat := 0
  deriving DecidableEq, Repr, Inhabited

/-- A Sync message as received: ingress stamp on TB1 (R117). -/
structure PtpSync where
  domain : BitVec 8 := 0
  sender : PtpPort := {}
  seq : BitVec 16 := 0
  twoStep : Bool := false
  /-- Origin timestamp, PTP nanoseconds. -/
  origin : Int := 0
  /-- correctionField in nanoseconds. -/
  correction : Int := 0
  /-- TB1 reading at ingress. -/
  rx : Int := 0
  logInterval : Int := 0
  deriving DecidableEq, Repr, Inhabited

/-- A PTP message that reaches the slave clock (R117). -/
inductive PtpMessage where
  | announce (a : PtpAnnounce)
  | sync (m : PtpSync)
  | followUp (domain : BitVec 8) (sender : PtpPort) (seq : BitVec 16) (origin correction : Int)
  | delayResp (domain : BitVec 8) (sender : PtpPort) (seq : BitVec 16) (rxTime correction logInterval : Int)
  deriving DecidableEq, Repr, Inhabited

/-- A PTP event or follow-up message inside an Ethernet frame, for the transparent clock (R115, R116). -/
inductive PtpKind where
  | none
  | sync (twoStep : Bool) (key : PtpKey)
  | delayReq
  | followUp (key : PtpKey)
  /-- An event message of another kind, which R526 gives priority 7. -/
  | event
  | other
  deriving DecidableEq, Repr, Inhabited

/-- The kinds of the module's own traffic that R526 gives a priority. -/
inductive OwnTraffic where
  | delayReq | backupHello | command | qcp | events | update
  deriving DecidableEq, Repr, Inhabited

/-- The transports of PTP messages (R14, R115). -/
inductive PtpTransport where
  | layer2 | udp4 | udp6
  deriving DecidableEq, Repr, Inhabited

/-- An Ethernet frame at a switch port (R524-R530). -/
structure SwitchFrame where
  src : BitVec 48 := 0
  dst : BitVec 48 := 0
  /-- The 802.1Q tag: VID and PCP, or none when untagged. -/
  tag : Option (BitVec 12 × BitVec 3) := none
  length : Nat := 64
  /-- EtherType 0x88B5: a lane-link frame. -/
  llp : Bool := false
  crcOk : Bool := true
  ptp : PtpKind := .none
  /-- The correctionField of a PTP message, ns. -/
  correction : Int := 0
  /-- The transport of a PTP message, and its UDP checksum (R115). -/
  transport : PtpTransport := .layer2
  udpChecksum : BitVec 16 := 0
  /-- For the module's own frames from HPT: their row of R526. -/
  own : Option OwnTraffic := none
  /-- A thruster command datagram with AUTHORITY 1 (R499, R534). -/
  authority : Bool := false
  /-- TB0 at the ingress timestamp point. -/
  ingressAt : Nat := 0
  deriving DecidableEq, Repr, Inhabited

/-- A CAN frame (R537, R543, R544). -/
structure CanFrame where
  id : BitVec 29 := 0
  extended : Bool := false
  fd : Bool := true
  brs : Bool := true
  data : List (BitVec 8) := []
  /-- TB3 at the sample point of SOF (R531). -/
  stamp : Nat := 0
  deriving DecidableEq, Repr, Inhabited

/-- The body of a HELLO frame (R489). -/
structure Hello where
  role : BitVec 8 := 3
  mode : BitVec 8 := 0
  inStep : BitVec 8 := 0
  /-- QCP, LLP and SIF: majors and highest minors, in turn. -/
  versions : List (BitVec 8) := [3, 2, 2, 3, 4, 1]
  options : Word := 0
  digest : List (BitVec 8) := []
  granted : Nat := 0
  serial : BitVec 64 := 0
  deriving DecidableEq, Repr, Inhabited

/-- The two-way transfer stamps of a TIME frame (R90, R489): the sender's TB3 at sending, and what it last received. -/
structure TimeBody where
  /-- Sender's TB3 at transmission. -/
  tx : Int := 0
  /-- TB3 of this member's last TIME frame, as the sender received it and as it was sent. -/
  echoTx : Int := 0
  echoRx : Int := 0
  /-- This member's TB3 at reception. -/
  rx : Int := 0
  deriving DecidableEq, Repr, Inhabited

/-- A released set (R493): the member's samples and its SAF_STATUS. -/
structure ReleasedSet where
  cycle : Nat := 0
  member : Nat := 0
  samples : List Sample := []
  late : List Sample := []
  safStatus : Word := 0
  deriving DecidableEq, Repr, Inhabited

/-- A write that takes effect at a release (R202, R313, R495). -/
structure SettingWrite where
  object : Word := 0
  value : List (BitVec 8) := []
  req : Request := {}
  deriving DecidableEq, Repr, Inhabited

/-- The body of a CLOSE frame (R489, R493). -/
structure LlpClose where
  cycle : Nat := 0
  epoch : Word := 0
  sender : Nat := 0
  mask : BitVec 3 := 0
  writes : List SettingWrite := []
  mode : BitVec 4 := 0
  deriving DecidableEq, Repr, Inhabited

/-- A solver stop report (R344). -/
structure SolveReport where
  iLast : Nat := 0
  reason : BitVec 4 := 0
  conv : Nat := 0
  deriving DecidableEq, Repr, Inhabited

/-- A lane-link frame as this module sends it (R488, R489). -/
inductive LlpFrame where
  | hello (h : Hello)
  | time (b : TimeBody)
  | set (s : ReleasedSet)
  | close (c : LlpClose)
  | solveReport (cycle : Nat) (r : SolveReport)
  | commit (cycle : Nat) (digest : Word) (result : BitVec 8)
  | yield_ (instant : Nat) (successor : Nat)
  | takeover (epoch : Word) (instant : Nat) (cause : BitVec 8)
  | resyncRequest
  | copyPlan (j : Nat) (total : Nat)
  | copyChunk (offset : Nat) (data : List (BitVec 8))
  deriving DecidableEq, Repr, Inhabited

/-- A frame of a lane link as it is sent: the fields of its header that this member fills (R488). -/
structure LlpSent where
  minor : BitVec 8 := 0
  sender : BitVec 8 := 0
  epoch : Word := 0
  cycle : BitVec 32 := 0
  frame : LlpFrame
  deriving DecidableEq, Repr

/-- The header fields of a received lane-link frame (R488). -/
structure LlpHeader where
  sender : Fin 3 := 0
  epoch : Word := 0
  cycle : Nat := 0
  /-- The lane link it came on, or none for the backup path (R487). -/
  link : Option (Fin 2) := some 0
  /-- Its CRC-32C, over the header and the payload, matches (R488). -/
  crcOk : Bool := true
  deriving DecidableEq, Repr, Inhabited

/-- A peak of a front end's spectrum (R147): centre in 10 Hz steps, and dB above the median bin. -/
structure Peak where
  centre : Int := 0
  level : Nat := 0
  deriving DecidableEq, Repr, Inhabited

/-- What the physical self-tests and measurements of a cold start or a restart yield (R474, R476, R638). -/
structure StartFacts where
  /-- SAF's self-test (R450): 0 passes, 1 to 5 is the failing test. -/
  safOutcome : Fin 6 := 0
  /-- The CHECK job passes (R331). -/
  checkOk : Bool := true
  /-- Read-back of every U and AO output in its safe state passes (R474 step 6). -/
  readbackOk : Bool := true
  /-- Every piece of code matches the measurement the Caldera recorded (R476). -/
  codeOk : Bool := true
  /-- The factory block passes its check (R176, R615). -/
  factoryOk : Bool := true
  /-- A gate fault is still present on these enables (R449). -/
  gateFaults : BitVec 16 := 0
  /-- The entropy source passes (R612). -/
  entropyOk : Bool := true
  deriving DecidableEq, Repr, Inhabited

/-- The commands of the block. -/
inductive Instr where
  -- The station-keeping cycle (R32-R37, R216-R223, R266, R333-R351, R384, R493-R494)
  | cycleTick (t : Nat)
  | sampleArrival (t : Nat) (sample : Sample)
  | waitLimitExpiry (t : Nat)
  | exchangeLimit (t : Nat)
  | closeMissing (t : Nat)
  | drDelayExpiry (t : Nat)
  | estimateOverrun (t : Nat)
  | refTimeoutExpiry (t : Nat) (ref : Fin 24)
  | refQuarantined (t : Nat) (ref : Fin 24)
  | refAdmitted (t : Nat) (ref : Fin 24)
  | autoReadmit (t : Nat) (ref : Fin 24)
  | solverJobStart (t : Nat)
  | solveStop (t : Nat)
  | solverDeadline (t : Nat) (iterations : Nat) (inFactorisation : Bool)
  | solveReportTimeout (t : Nat)
  | allocationDegraded (t : Nat)
  | fallbackOn (t : Nat)
  | fallbackOff (t : Nat)
  | commandLate (t : Nat)
  | commandInstant (t : Nat)
  | commandStale (t : Nat)
  -- Faults and clock (R39, R53, R451)
  | faultHandled (t : Nat) (cls : Fin 3)
  | clockLoss (t : Nat)
  | clockLossRelease (t : Nat)
  -- The structure image (R61, R85, R565, R572)
  | imageCommit (t : Nat) (req : Request) (slot : BitVec 8)
  | imageVerifyDone (t : Nat)
  | deferredTimeout (t : Nat) (attest : Bool)
  -- Time bases (R89-R123)
  | ptpMessageReceived (t : Nat) (port : Fin 5) (msg : PtpMessage)
  | tbSourceLost (t : Nat) (base : Fin 4)
  | tb3SourceChange (t : Nat) (source : Fin 2)
  | holdoverLimitExceeded (t : Nat) (base : Fin 4)
  | timeStep (t : Nat) (base : Fin 4)
  | leapSecond (t : Nat)
  | captureEdge (t : Nat) (unit : Fin 16) (rising : Bool)
  | captureDataRead (t : Nat) (req : Request) (unit : Fin 16)
  | captureDrain (t : Nat)
  | compareFire (t : Nat) (unit : Fin 8)
  | ppsInEdge (t : Nat)
  | ppsInLost (t : Nat)
  -- The GNSS receiver (R131-R161)
  | gnssEpoch (t : Nat) (input : EpochInput)
  | searchPassDone (t : Nat) (engine : Fin 8) (detected : Option (BitVec 8))
  | handoverDone (t : Nat) (started : Bool)
  | lossOfLock (t : Nat) (channel : Fin 256)
  | reacqWindowExpiry (t : Nat) (channel : Fin 256)
  | notchSpectrum (t : Nat) (frontEnd : Fin 4) (peaks : List Peak)
  | jamUpdate (t : Nat) (frontEnd : Fin 4) (power : F32)
  | antSupplyShort (t : Nat) (antenna : Fin 2) (current : BitVec 16)
  | antSupplyRetry (t : Nat) (antenna : Fin 2) (current : BitVec 16)
  | gnbRestart (t : Nat) (req : Request) (kind : BitVec 8)
  -- Analog acquisition (R169-R186)
  | aiOutput (t : Nat) (channel : Fin 24) (stream : List Bool)
  | userCommit (t : Nat) (req : Request) (channel : Fin 16)
  | userDiscard (t : Nat) (req : Request) (channel : Fin 16)
  | dcPreset (t : Nat) (req : Request) (channel : Fin 16) (freeze : Bool)
  | dcFreeze (t : Nat) (req : Request) (channel : Fin 16) (freeze : Bool)
  -- References (R223, R231, R235, R239)
  | refReadmit (t : Nat) (req : Request) (inst : BitVec 8)
  | refEnable (t : Nat) (req : Request) (inst : BitVec 8) (enable : BitVec 8)
  | twDepth (t : Nat) (req : Request) (inst : BitVec 8) (depth : F32)
  | targetPose (t : Nat) (req : Request) (inst : BitVec 8) (n e : F64) (rot : F32)
  | refineReset (t : Nat) (req : Request) (inst : BitVec 8) (freeze : Bool)
  -- The law (R294-R312)
  | setpointGeo (t : Nat) (req : Request) (lat lon : F64)
  | setpointMove (t : Nat) (req : Request) (frame : BitVec 8) (d1 d2 : F32)
  | setpointHeading (t : Nat) (req : Request) (psi : F64)
  | joyDemand (t : Nat) (req : Request) (x y mz : F32)
  | joyTimeoutExpiry (t : Nat)
  | trackCommit (t : Nat) (req : Request)
  | trackDiscard (t : Nat) (req : Request)
  | targetState (t : Nat) (req : Request) (stamp : BitVec 64) (n e : F64) (vn ve : F32) (psi : F64) (yawRate : F32)
  | trackTargetLost (t : Nat)
  | powerAvailable (t : Nat) (req : Request) (watts : F32)
  | powerTimeoutExpiry (t : Nat)
  | powerLimitActive (t : Nat)
  | thrustSaturated (t : Nat)
  | checkStart (t : Nat) (req : Request)
  | checkDone (t : Nat) (pass : Bool)
  -- Servo loops and motion (R367-R395)
  | slotSample (t : Nat) (slot : Fin 32) (latency : Nat)
  | loopLimit (t : Nat) (slot : Fin 32)
  | followingError (t : Nat) (slot : Fin 32)
  | coefficientWrite (t : Nat) (req : Request) (slot : Fin 32) (number : BitVec 16) (value : F32)
  | slotHold (t : Nat) (req : Request) (slot : Fin 32) (samples : BitVec 16)
  | slotHoldEnd (t : Nat) (slot : Fin 32)
  | slotSetpoint (t : Nat) (req : Request) (slot : Fin 32) (value : F32)
  | pgMove (t : Nat) (req : Request) (generator : Fin 16) (axis : BitVec 8) (target : F64)
  | gearRatioWrite (t : Nat) (req : Request) (group : Fin 8) (slave : Fin 4) (p : BitVec 32) (q : BitVec 32)
  | gearMasterLost (t : Nat) (group : Fin 8)
  | gearReengage (t : Nat) (group : Fin 8)
  | latched (t : Nat) (unit : Fin 8) (falling : Bool) (stamp : Nat) (count : Int)
  | stepperStall (t : Nat) (drive : Fin 4)
  | stallResume (t : Nat) (drive : Fin 4)
  | stepperCurrentStep (t : Nat) (drive : Fin 4) (angle : BitVec 8) (emf : BitVec 8)
  | stepperThermal (t : Nat) (drive : Fin 4) (current : BitVec 16)
  | stpClear (t : Nat) (req : Request) (drive : Fin 4)
  | stpZero (t : Nat) (req : Request) (drive : Fin 4)
  | stpSupply (t : Nat) (out : Bool)
  | injStart (t : Nat) (req : Request)
  | injStop (t : Nat) (req : Request)
  | injectionDone (t : Nat)
  | capArm (t : Nat) (req : Request)
  | capStop (t : Nat) (req : Request)
  | captureDone (t : Nat)
  | capDataRead (t : Nat) (req : Request)
  -- Field channels (R406-R429)
  | inputTransition (t : Nat) (channel : Fin 32) (level : Bool)
  | chatterQuiet (t : Nat) (channel : Fin 32)
  | inputStuck (t : Nat) (channel : Fin 32)
  | inputDelivery (t : Nat) (channel : Fin 32)
  | uSet (t : Nat) (req : Request) (channel : Fin 32) (value : BitVec 8)
  | uClear (t : Nat) (req : Request) (channel : Fin 32)
  | countReset (t : Nat) (req : Request) (channel : Fin 32)
  | outputOverload (t : Nat) (channel : Fin 32)
  | outputReadback (t : Nat) (channel : Fin 32)
  | openLoad (t : Nat) (channel : Fin 32)
  | fieldSupply (t : Nat) (bank : Fin 2) (out : Bool) (millivolt : BitVec 16)
  | uvlo (t : Nat) (bank : Fin 2) (low : Bool) (millivolt : BitVec 16)
  | eventLinePulseEnd (t : Nat) (line : Fin 8)
  | watchdogRetrigger (t : Nat)
  | watchdogExpired (t : Nat)
  | aoSet (t : Nat) (req : Request) (channel : Fin 16) (value : F32)
  | aoFault (t : Nat) (channel : Fin 16) (present : Bool) (measured : F32)
  | pfbFrame (t : Nat) (channel : Fin 8) (frame : PfbFrame)
  -- Safety functions (R441-R452)
  | safetyDemand (t : Nat) (input : Fin 8)
  | testPulseMismatch (t : Nat) (tp : Fin 4)
  | patternFault (t : Nat) (input : Fin 8)
  | sfCmd (t : Nat)
  | darkPulse (t : Nat) (thr : Fin 16) (fell : Bool)
  | heldOffCheckFail (t : Nat) (thr : Fin 16)
  | safPeriodicSelftest (t : Nat) (outcome : Fin 6)
  | safSelftest (t : Nat) (req : Request) (outcome : Fin 6)
  | safReset (t : Nat) (req : Request)
  -- Modes, start and restart (R465-R482)
  | modeRequest (t : Nat) (req : Request) (mode : BitVec 8)
  | restartCold (t : Nat) (req : Request) (facts : StartFacts) (ends : Nat)
  | restartWithHandover (t : Nat) (req : Request)
  | powerGood (t : Nat) (facts : StartFacts)
  | lockstepMismatch (t : Nat)
  | supRamEcc (t : Nat)
  | handoverReady (t : Nat) (facts : StartFacts)
  | abort (t : Nat) (req : Request) (object : Word)
  -- The group (R484-R515)
  | llpHello (t : Nat) (hdr : LlpHeader) (body : Hello)
  | linkDown (t : Nat) (link : Fin 2)
  | llpTime (t : Nat) (hdr : LlpHeader) (body : TimeBody)
  | llpSet (t : Nat) (hdr : LlpHeader) (set : ReleasedSet)
  | llpClose (t : Nat) (hdr : LlpHeader) (body : LlpClose)
  | llpSolveReport (t : Nat) (hdr : LlpHeader) (report : SolveReport)
  | llpCommit (t : Nat) (hdr : LlpHeader) (digest : Word) (result : BitVec 8)
  | llpYield (t : Nat) (hdr : LlpHeader) (instant : Nat) (successor : BitVec 8)
  | llpTakeover (t : Nat) (hdr : LlpHeader) (epoch : Word) (instant : Nat) (cause : BitVec 8)
  | llpResyncRequest (t : Nat) (hdr : LlpHeader)
  | llpCopyPlan (t : Nat) (hdr : LlpHeader) (j : Nat) (total : Nat)
  | llpCopyChunk (t : Nat) (hdr : LlpHeader) (offset : Nat) (data : List (BitVec 8))
  | copyFail (t : Nat)
  | resyncRetry (t : Nat)
  | stepDone (t : Nat)
  | missingCommit (t : Nat)
  | contactLost (t : Nat)
  | roleElectionTimeout (t : Nat)
  | transfer (t : Nat) (req : Request) (member : BitVec 8)
  | resync (t : Nat) (req : Request)
  | memberIndex (t : Nat) (req : Request) (value : BitVec 8)
  | lnkCreditStall (t : Nat) (link : Fin 2)
  -- Networks (R524-R554)
  | switchFrameIngress (t : Nat) (port : Fin 7) (frame : SwitchFrame)
  | ethLink (t : Nat) (port : Fin 4) (status : BitVec 8)
  | datagramReceived (t : Nat) (port : Fin 4) (dst : Addr) (udpPort : BitVec 16) (stamp : Nat) (payload : Option (List Byte))
  | iec450Datagram (t : Nat) (port : Fin 4) (dst : Addr) (udpPort : BitVec 16) (stamp : Nat) (payload : List (BitVec 8))
  | feedbackTimeout (t : Nat) (slice : Fin 16)
  | canFrameReceived (t : Nat) (ctl : Fin 4) (frame : CanFrame)
  | canFrameTransmitted (t : Nat) (ctl : Fin 4)
  | canTxAttemptFailed (t : Nat) (ctl : Fin 4) (error : BitVec 4) (dataPhase : Bool)
  | canRecoveryDone (t : Nat) (ctl : Fin 4)
  | canRecover (t : Nat) (req : Request) (ctl : Fin 4)
  | canTx (t : Nat) (req : Request) (ctl : Fin 4) (value : List (BitVec 8))
  | canTimingWrite (t : Nat) (req : Request) (ctl : Fin 4) (data : Bool) (value : Word)
  | serialCharacter (t : Nat) (port : Fin 8) (char : BitVec 8) (stamp : Nat) (lineError : Bool)
  | sentenceParse (t : Nat) (port : Fin 8)
  | serTx (t : Nat) (req : Request) (port : Fin 8) (value : List (BitVec 8))
  -- The command protocol (R556-R589)
  | qcpFrameReceived (t : Nat) (req : Request) (frame : List (BitVec 8))
  | ping (t : Nat) (req : Request)
  | read (t : Nat) (req : Request) (object : Word) (offset : BitVec 32) (max : BitVec 16)
  | write (t : Nat) (req : Request) (object : Word) (value : List (BitVec 8))
  | subscribe (t : Nat) (req : Request) (stream : BitVec 8) (destPort lease divider : BitVec 16) (select : List (BitVec 8))
  | unsubscribe (t : Nat) (req : Request) (stream : BitVec 8) (destPort : BitVec 16)
  | leaseExpiry (t : Nat) (handle : Fin 16)
  | recRead (t : Nat) (req : Request) (first : Word) (count : BitVec 8)
  | attest (t : Nat) (req : Request) (nonce : List (BitVec 8))
  | attestDone (t : Nat)
  | enrol (t : Nat) (req : Request) (body : List (BitVec 8))
  | telemetrySend (t : Nat)
  | dtlsHandshake (t : Nat) (req : Request) (ok : Bool)
  | qcpSettingEffect (t : Nat)
  -- The recorder and the Caldera (R596-R612)
  | flushDone (t : Nat)
  | flushWindowEnd (t : Nat)
  | recControlFlush (t : Nat) (req : Request)
  | sealSigned (t : Nat)
  | recFull (t : Nat)
  | recRearm (t : Nat) (req : Request) (hash : List (BitVec 8))
  | powerFail (t : Nat)
  | geyserDone (t : Nat)
  | supplyReturn (t : Nat)
  | holdupExhausted (t : Nat)
  | entropyFail (t : Nat)
  -- Ageing and update (R616-R642)
  | fumaroleSample (t : Nat) (slacks : List (Option F32)) (others : List (Option F32))
  | ledgerDaily (t : Nat)
  | binRaise (t : Nat) (island : Fin 12) (slack : F32)
  | binLower (t : Nat) (island : Fin 12) (slack : F32)
  | binEnvelope (t : Nat) (req : Request) (island : Fin 12) (value : BitVec 16)
  | mramRefresh (t : Nat)
  | updateOpen (t : Nat) (req : Request) (target : BitVec 8) (id length crc : Word)
  | updateChunk (t : Nat) (req : Request) (id chunk : Word) (part parts : BitVec 8) (crc : Word) (data : List (BitVec 8))
  | chunkWritten (t : Nat) (target : Bool) (chunk : Nat)
  | chunkPartsExpiry (t : Nat)
  | updateQuery (t : Nat) (req : Request) (target : BitVec 8) (first : Word)
  | updateActivate (t : Nat) (req : Request) (target source when_ : BitVec 8) (id crc : Word)
  -- The panel (R643-R661)
  | pnlDraw (t : Nat) (req : Request) (value : List (BitVec 8))
  | waveformStart (t : Nat) (index : Fin 18)
  | waveformEnd (t : Nat) (index : Fin 4)
  | railsOn (t : Nat)
  | railsOff (t : Nat)
  | railFault (t : Nat)
  | railRetry (t : Nat)
  | panelTemperature (t : Nat) (centi : Int)
  | pnlRefresh (t : Nat) (req : Request)
  | pnlCheck (t : Nat) (req : Request) (value : Word)
  | panelCrcCheck (t : Nat)
  | pnlVcom (t : Nat) (req : Request) (value : BitVec 16)
  -- Supplies and rows added at the end of the table
  | pwrInputCut (t : Nat) (inputB : Bool)
  | overtemp (t : Nat) (hot : Bool)
  | antSupplyOpen (t : Nat) (antenna : Fin 2) (current : BitVec 16)
  | channelLock (t : Nat) (channel : Fin 256) (locked : Bool)
  | canRxError (t : Nat) (ctl : Fin 4) (error : BitVec 4) (dataPhase : Bool)
  | safetyInputHealthy (t : Nat) (input : Fin 8)
  | stpClamping (t : Nat) (on : Bool)
  | stepperAtRest (t : Nat) (drive : Fin 4)
  | entropyPass (t : Nat)
  | ovenStatus (t : Nat) (status : BitVec 8)
  | holdupCharged (t : Nat) (charged : Bool)
  | pwrInputLevel (t : Nat) (inputB : Bool) (ok : Bool)
  | llpPeriodicSend (t : Nat)
  | ptpDelayReq (t : Nat)
  deriving DecidableEq, Repr

end Sys2Proof
end

