-- ==== Sys2Proof/Config.lean ====
section
/-! DEFINITION. What the spec leaves open: the free values. Each is an opaque constant or an opaque function
without a body, so nothing can be proved from a particular value of it. The counter that picks a fresh value
is the field `free` of State (log 2). -/

namespace Sys2Proof.Config

/-- The payload of a NaN that an FP32 operation makes: R23 names the format, no rule gives the payload (log 22). -/
opaque nanPayload32 : BitVec 22
/-- The payload of a NaN that an FP64 operation makes (log 22). -/
opaque nanPayload64 : BitVec 51

/-! Elementary functions. The spec names them; it states no rounding of their results (log 22). -/
/-- Sine of an FP64 angle. -/
opaque sin : F64 → F64
/-- Cosine of an FP64 angle. -/
opaque cos : F64 → F64
/-- Tangent of an FP64 angle. -/
opaque tan : F64 → F64
/-- `atan2 y x`. -/
opaque atan2 : F64 → F64 → F64
/-- Arc sine. -/
opaque asin : F64 → F64
/-- The exponential function. -/
opaque exp : F64 → F64

/-! The Caldera. -/
/-- The per-signature value of a signature of the device key, fresh from the entropy source (R603): the signature's number, and
which draw of it (log 23). -/
opaque signNonce : Nat → Nat → BitVec 384

/-- The check value of an image key, of which ENROLMENT carries eight bytes; no rule says what it is (log 23). -/
opaque imageKeyCheck : List Byte → BitVec 64

/-! Time bases. -/
/-- The uncertainty of a base at the moment it becomes LOCKED, cut to the bound of R99; no rule gives it (log 5). -/
opaque lockUncertainty : Nat → BitVec 32
/-- The reported uncertainty of a base that has never been LOCKED; no rule gives it (log 5). -/
opaque neverLockedUncertainty : Nat → BitVec 32

/-- The rate a base is disciplined to at a measurement, in 1e-9; no rule gives the loop that sets it (log 5). -/
opaque disciplinedRate : Nat → BitVec 16

/-! Events. -/
/-- A parameter of an assertion that no chapter gives its source (R593): the assertion's number, and which parameter
(log 27). -/
opaque eventParam : Nat → Nat → BitVec 32

/-! The receiver. -/
/-- The predicted elevation of a satellite, from the almanac or ephemeris held: system and number (log 6). -/
opaque predictedElevation : Nat → Nat → Nat → F32

/-- The factory-calibrated delay of a GNSS front end, ns (R146; log 3). -/
opaque frontEndDelay : Nat → F64
/-- The group delay of an active notch on a signal, ns (R146, R147): the notch's distance from the carrier in Hz, and its depth in
dB; R147 gives the filter no structure (log 38). -/
opaque notchDelay : Int → Nat → F64

/-- Parameter 0 of ANT_SUPPLY: R131 says it carries the antenna and the new STATUS, and gives no bits (log 6). -/
opaque antSupplyParam : Nat → Nat → BitVec 32

/-! Fusion. -/
/-- The parameters of REFINEMENT_MOVED: R230 says they carry the slice and the new value, and gives no bits (log 8). The
reference instance, the value, and which parameter. -/
opaque refinementParam : Nat → List F64 → Nat → BitVec 32

/-! The observer. -/
/-- A satellite's Earth-centred position at transmit time, turned for the Earth's rotation while the signal travels
(R260): from the broadcast ephemeris, whose content and arithmetic the spec does not give. System, number, TB2 reading of
the epoch, pseudorange (log 9). -/
opaque satPosition : Nat → Nat → Nat → F64 → List F64
/-- A satellite's velocity on the same axes (R262; log 9). -/
opaque satVelocity : Nat → Nat → Nat → F64 → List F64
/-- The broadcast satellite clock with its relativistic term, s (R260; log 9). -/
opaque satClock : Nat → Nat → Nat → F64 → F64
/-- The GPS broadcast ionospheric delay at 1 575.42 MHz, m (R260): latitude, longitude, azimuth, elevation, TB2 (log 9). -/
opaque ionosphere : F64 → F64 → F64 → F64 → Nat → F64
/-- The variance at start of an observer state for which R257 gives none: WAVE_FREQ, WAVE_DAMPING, WAVE_SIGMA, the state's
index (log 9). -/
opaque initialVariance : F32 → F32 → F32 → Nat → F64
/-- The ellipsoidal height at start; no rule gives it (log 9). -/
opaque initialHeight : F64

/-! The solver. -/
/-- START_TIME_MAX in ns: R355 names it and no rule gives its formula; NVAR, NCON, NNZ (log 11). -/
opaque startTime : Nat → Nat → Nat → Nat

/-! Servo and motion. -/
/-- Bit k of the maximal-length sequence of an order, seeded with all ones (R393): the taps are not given (log 12). -/
opaque prbsBit : Nat → Nat → Bool
/-- AMAX and JMAX of a gear group's re-engagement, counts/s² and counts/s³ (R387 names them; R395 gives a group neither):
the group (log 12). -/
opaque gearAccel : Nat → F64
/-- See `gearAccel`. -/
opaque gearJerk : Nat → F64

/-! Field channels. -/
/-- The current of a U output in mA: a measurement no command brings; channel, TB0 (log 13). -/
opaque outputCurrent : Nat → Nat → BitVec 16
/-- Where the periods of a PWM output begin: R413 gives the period and the duty and no phase; the U channel, ns (log 13). -/
opaque pwmPhase : Nat → Nat
/-- Does the last sample of an input's pin differ from its accepted level, as while a run too short to be accepted lasts? No
command brings such a run; U channel, or 32 and the safety input; TB0 (log 13). -/
opaque sampleApart : Nat → Nat → Bool

/-! The structure image. -/
/-- Does a layout FORMAT suit an OBJECT (R655)? No rule says which do (log 28): the object, the format. -/
opaque formatSuits : Nat → Nat → Bool

/-! Networks. -/
/-- A height or an HDOP whose field a GGA or GNS sentence leaves empty: no rule gives a value (log 17). -/
opaque missingField : Nat → F64
/-- Parameter 1 of CAN_PASSIVE and CAN_BUS_OFF: R542 says it carries TEC and REC, and gives no bits (log 17). -/
opaque canErrorParam : Nat → Nat → BitVec 32
/-- REC after a good reception at 128 or more: ISO 11898-1 leaves a value from 119 to 127 (log 17); the free number. -/
opaque canRecAfter : Nat → Fin 9

/-! Analog acquisition. -/
/-- The taps of the fixed symmetric FIR of R165, as 32-bit signed fractions: taps 0 to 3, taps 4 to 6 mirror 2 to 0 (log 7). -/
opaque firTap : Nat → BitVec 32
/-- The nominal G_f of R176 in units a code, by range (log 7). -/
opaque nominalGain : Nat → F32
/-- The nominal d_fe of R176 by range, in ns above the 1 200 ns from which R162 has it run to 2 000 ns (log 7). -/
opaque nominalDelay : Nat → Fin 801
/-- The factory calibration of a channel and range: G_f, O_f, k_G, k_O (R176; log 3). -/
opaque factoryCoeff : Nat → Nat → Nat → F32
/-- Its front-end delay, in ns above 1 200 ns (R162; log 3). -/
opaque factoryDelay : Nat → Nat → Fin 801

/-! Ageing. -/
/-- The baseline of a ledger entry (R640): no rule says what it is; the monitor and its first daily mean (log 20). -/
opaque ledgerBaseline : Nat → F32 → F32
/-- The bin an island starts at when none in its envelope has a measured slack of 12 % (R622 names none; log 20). -/
opaque startBin : Nat → Fin 16
/-- BUILD, SEC_VERSION and LENGTH of the extension image of manufacture (log 3). -/
opaque deliveredBuild : BitVec 32
/-- The factory MAC address (R557; log 3). -/
opaque factoryMac : BitVec 48
/-- See `deliveredBuild`. -/
opaque deliveredVersion : BitVec 32
/-- See `deliveredBuild`. -/
opaque deliveredLength : BitVec 32

/-! Starts and self-tests that no command brings the outcome of. -/
/-- The outcome of a SAF self-test that a WRITE of SAF_SELFTEST runs: 0 passes, 1 to 5 the failing test of R450 (log 14). -/
opaque selftestOutcome : Nat → Fin 6
/-- What the physical tests of a cold start yield when a WRITE of RESTART causes it: SAF's self-test as `selftestOutcome`,
then the CHECK job, the read-back, the code, the factory block and the entropy source in bits 0 to 4 (log 15). -/
opaque startChecks : Nat → BitVec 5
/-- The enables whose gate fault is still present at such a start (log 15). -/
opaque startGateFaults : Nat → BitVec 16
/-- How long such a start takes, in ns: at most 6 s (R474; log 15). -/
opaque startDuration : Nat → Fin 6000000001
/-- SHA-384 of the extension image of manufacture (R611; log 3). -/
opaque deliveredMeasure : BitVec 384
/-- Which input holds the module at a POWER_GOOD before which no command reported the level of either: true for PWR_A (log 15). -/
opaque powerGoodInput : Nat → Bool
/-- How long an ABORT takes, in us, before it is held to the bound of R482 (log 15). -/
opaque abortTime : Nat → Nat

end Sys2Proof.Config
end

