-- ==== Sys2Proof/Machine/Float.lean ====
section
/-! DEFINITION. IEEE 754 arithmetic on bit patterns, rounding to nearest with ties to even (R23 names FP32 and FP64;
the rounding and the order of operations are log 22). Every operation computes the exact value and rounds once. -/

namespace Sys2Proof.Fp

/-- A binary format: exponent bits, fraction bits, and the bits of the NaN it makes. -/
structure Fmt where
  eb : Nat
  mb : Nat
  nan : Nat

/-- FP32. -/
def fmt32 : Fmt := ⟨8, 23, 0x7FC00000 + Config.nanPayload32.toNat⟩
/-- FP64. -/
def fmt64 : Fmt := ⟨11, 52, 0x7FF8000000000000 + Config.nanPayload64.toNat⟩

/-- The exact reading of a bit pattern: `fin s m e` is (-1)^s * m * 2^e. -/
inductive Val where
  | nan
  | inf (neg : Bool)
  | fin (neg : Bool) (m : Nat) (e : Int)
  deriving DecidableEq, Repr

/-- Exponent bias. -/
def Fmt.bias (f : Fmt) : Int := (2 : Int) ^ (f.eb - 1) - 1

/-- The exponent of the last place of a subnormal. -/
def Fmt.emin (f : Fmt) : Int := 1 - f.bias - f.mb

/-- Read a bit pattern. -/
def unpack (f : Fmt) (x : Nat) : Val :=
  let frac := x % 2 ^ f.mb
  let ex := (x / 2 ^ f.mb) % 2 ^ f.eb
  let neg := (x / 2 ^ (f.mb + f.eb)) % 2 == 1
  if ex = 2 ^ f.eb - 1 then (if frac = 0 then .inf neg else .nan)
  else if ex = 0 then .fin neg frac f.emin
  else .fin neg (2 ^ f.mb + frac) (f.emin + ex - 1)

/-- The sign bit in place. -/
def signBit (f : Fmt) (neg : Bool) : Nat := if neg then 2 ^ (f.mb + f.eb) else 0

/-- The pattern of an infinity. -/
def infBits (f : Fmt) (neg : Bool) : Nat := signBit f neg + (2 ^ f.eb - 1) * 2 ^ f.mb

/-- Round (-1)^neg * (m + a little when `sticky`) * 2^e to the format. With `sticky`, `m` has at least two bits more
than the format keeps. -/
def round (f : Fmt) (neg : Bool) (m : Nat) (e : Int) (sticky : Bool) : Nat :=
  if m = 0 then signBit f neg
  else
    let len : Int := (Nat.log2 m + 1 : Nat)
    let e' := max (e + len - (f.mb + 1)) f.emin
    let q :=
      if e' ≤ e then m * 2 ^ (e - e').toNat
      else
        let sh := (e' - e).toNat
        let q0 := m / 2 ^ sh
        let rem := m % 2 ^ sh
        let half := 2 ^ (sh - 1)
        if rem > half ∨ (rem = half ∧ (sticky ∨ q0 % 2 = 1)) then q0 + 1 else q0
    let bits := if q < 2 ^ f.mb then q
      else (e' - f.emin).toNat * 2 ^ f.mb + q
    if bits ≥ (2 ^ f.eb - 1) * 2 ^ f.mb then infBits f neg else signBit f neg + bits

/-- Pack a value. -/
def pack (f : Fmt) : Val → Nat
  | .nan => f.nan
  | .inf n => infBits f n
  | .fin n m e => round f n m e false

/-- The signed integer m * 2^(e - lo). -/
def scaled (neg : Bool) (m : Nat) (e lo : Int) : Int :=
  let v : Int := (m : Int) * 2 ^ (e - lo).toNat
  if neg then -v else v

/-- Exact sum, rounded. A zero sum is +0 unless both operands are negative. -/
def add (f : Fmt) (a b : Val) : Nat :=
  match a, b with
  | .nan, _ => f.nan
  | _, .nan => f.nan
  | .inf x, .inf y => if x = y then infBits f x else f.nan
  | .inf x, .fin .. => infBits f x
  | .fin .., .inf y => infBits f y
  | .fin n m e, .fin n' m' e' =>
    let lo := min e e'
    let v := scaled n m e lo + scaled n' m' e' lo
    if v = 0 then signBit f (n && n')
    else round f (decide (v < 0)) v.natAbs lo false

/-- Exact product, rounded. -/
def mul (f : Fmt) (a b : Val) : Nat :=
  match a, b with
  | .nan, _ => f.nan
  | _, .nan => f.nan
  | .inf x, .inf y => infBits f (x != y)
  | .inf x, .fin n m _ => if m = 0 then f.nan else infBits f (x != n)
  | .fin n m _, .inf y => if m = 0 then f.nan else infBits f (n != y)
  | .fin n m e, .fin n' m' e' => round f (n != n') (m * m') (e + e') false

/-- Quotient, rounded. -/
def div (f : Fmt) (a b : Val) : Nat :=
  match a, b with
  | .nan, _ => f.nan
  | _, .nan => f.nan
  | .inf _, .inf _ => f.nan
  | .inf x, .fin n _ _ => infBits f (x != n)
  | .fin n _ _, .inf y => signBit f (n != y)
  | .fin n m e, .fin n' m' e' =>
    if m' = 0 then (if m = 0 then f.nan else infBits f (n != n'))
    else
      let k := f.mb + 4 + Nat.log2 m'
      let num := m * 2 ^ k
      round f (n != n') (num / m') (e - e' - k) (num % m' != 0)

/-- Integer square root, one result bit per unit of fuel. -/
def isqrtGo (n : Nat) : Nat → Nat → Nat
  | 0, r => r
  | k + 1, r =>
    let r' := r + 2 ^ k
    isqrtGo n k (if r' * r' ≤ n then r' else r)

/-- Integer square root. -/
def isqrt (n : Nat) : Nat := isqrtGo n (Nat.log2 n / 2 + 1) 0

/-- Square root, rounded. -/
def sqrt (f : Fmt) (a : Val) : Nat :=
  match a with
  | .nan => f.nan
  | .inf n => if n then f.nan else infBits f false
  | .fin n m e =>
    if m = 0 then signBit f n
    else if n then f.nan
    else
      let k : Nat := 2 * (f.mb + 4)
      let odd : Bool := e % 2 != 0
      let m2 := (if odd then 2 * m else m) * 2 ^ k
      let e2 := (if odd then e - 1 else e) - k
      let r := isqrt m2
      round f false r (e2 / 2) (r * r != m2)

/-- Order of two values; none when either is a NaN. -/
def compare (a b : Val) : Option Ordering :=
  match a, b with
  | .nan, _ => none
  | _, .nan => none
  | .inf x, .inf y => some (if x = y then .eq else if x then .lt else .gt)
  | .inf x, .fin .. => some (if x then .lt else .gt)
  | .fin .., .inf y => some (if y then .gt else .lt)
  | .fin n m e, .fin n' m' e' =>
    let lo := min e e'
    some (Ord.compare (scaled n m e lo) (scaled n' m' e' lo))

/-- The value of an integer times 2^e. -/
def ofInt (f : Fmt) (v : Int) (e : Int := 0) : Nat := round f (decide (v < 0)) v.natAbs e false

/-- The nearest value of the quotient of two integers. -/
def ofRat (f : Fmt) (v : Int) (d : Nat) : Nat := div f (.fin (decide (v < 0)) v.natAbs 0) (.fin false d 0)

/-- Round a finite value down to an integer; 0 for the rest. -/
def floor : Val → Int
  | .fin n m e =>
    let v : Int := if n then -(m : Int) else m
    if e ≥ 0 then v * 2 ^ e.toNat else v / 2 ^ (-e).toNat
  | _ => 0

/-- Round a finite value to the nearest integer, ties to even; 0 for the rest. -/
def nearest : Val → Int
  | .fin n m e =>
    let v : Int := if n then -(m : Int) else m
    if e ≥ 0 then v * 2 ^ e.toNat
    else
      let d : Int := 2 ^ (-e).toNat
      let q := v / d
      let r := v % d
      if 2 * r > d ∨ (2 * r = d ∧ q % 2 = 1) then q + 1 else q
  | _ => 0

end Sys2Proof.Fp

namespace Sys2Proof

/-! FP32 operations. -/
namespace F32

/-- The exact reading. -/
def val (x : F32) : Fp.Val := Fp.unpack Fp.fmt32 x.toNat
/-- Sum. -/
def add (x y : F32) : F32 := BitVec.ofNat 32 (Fp.add Fp.fmt32 (val x) (val y))
/-- Negation flips the sign bit. -/
def neg (x : F32) : F32 := x ^^^ 0x80000000
/-- Difference. -/
def sub (x y : F32) : F32 := add x (neg y)
/-- Product. -/
def mul (x y : F32) : F32 := BitVec.ofNat 32 (Fp.mul Fp.fmt32 (val x) (val y))
/-- Quotient. -/
def div (x y : F32) : F32 := BitVec.ofNat 32 (Fp.div Fp.fmt32 (val x) (val y))
/-- Square root. -/
def sqrt (x : F32) : F32 := BitVec.ofNat 32 (Fp.sqrt Fp.fmt32 (val x))
/-- Magnitude. -/
def abs (x : F32) : F32 := x &&& 0x7FFFFFFF
/-- x < y; false with a NaN. -/
def lt (x y : F32) : Bool := Fp.compare (val x) (val y) == some .lt
/-- x ≤ y; false with a NaN. -/
def le (x y : F32) : Bool := match Fp.compare (val x) (val y) with | some .lt => true | some .eq => true | _ => false
/-- x = y as numbers. -/
def eq (x y : F32) : Bool := Fp.compare (val x) (val y) == some .eq
/-- Neither an infinity nor a NaN. -/
def finite (x : F32) : Bool := match val x with | .fin .. => true | _ => false
/-- The larger of two numbers. -/
def max (x y : F32) : F32 := if lt x y then y else x
/-- The smaller of two numbers. -/
def min (x y : F32) : F32 := if lt y x then y else x
/-- lo ≤ x ≤ hi. -/
def within (lo hi x : F32) : Bool := le lo x && le x hi
/-- Clamp into lo..hi. -/
def clamp (x lo hi : F32) : F32 := if lt x lo then lo else if lt hi x then hi else x
/-- The nearest FP32 of an integer. -/
def ofInt (v : Int) : F32 := BitVec.ofNat 32 (Fp.ofInt Fp.fmt32 v)
/-- The nearest FP32 of a natural number. -/
def ofNat (v : Nat) : F32 := ofInt v
/-- The integer nearest to a finite value. -/
def nearest (x : F32) : Int := Fp.nearest (val x)
/-- +infinity. -/
def inf : F32 := 0x7F800000
/-- 1.0. -/
def one : F32 := 0x3F800000

end F32

/-- The nearest FP32 of n/d. -/
def f32OfRat (n : Int) (d : Nat) : F32 := BitVec.ofNat 32 (Fp.ofRat Fp.fmt32 n d)

/-! FP64 operations. -/
namespace F64

/-- The exact reading. -/
def val (x : F64) : Fp.Val := Fp.unpack Fp.fmt64 x.toNat
/-- Sum. -/
def add (x y : F64) : F64 := BitVec.ofNat 64 (Fp.add Fp.fmt64 (val x) (val y))
/-- Negation flips the sign bit. -/
def neg (x : F64) : F64 := x ^^^ 0x8000000000000000
/-- Difference. -/
def sub (x y : F64) : F64 := add x (neg y)
/-- Product. -/
def mul (x y : F64) : F64 := BitVec.ofNat 64 (Fp.mul Fp.fmt64 (val x) (val y))
/-- Quotient. -/
def div (x y : F64) : F64 := BitVec.ofNat 64 (Fp.div Fp.fmt64 (val x) (val y))
/-- Square root. -/
def sqrt (x : F64) : F64 := BitVec.ofNat 64 (Fp.sqrt Fp.fmt64 (val x))
/-- Magnitude. -/
def abs (x : F64) : F64 := x &&& 0x7FFFFFFFFFFFFFFF
/-- x < y; false with a NaN. -/
def lt (x y : F64) : Bool := Fp.compare (val x) (val y) == some .lt
/-- x ≤ y; false with a NaN. -/
def le (x y : F64) : Bool := match Fp.compare (val x) (val y) with | some .lt => true | some .eq => true | _ => false
/-- x = y as numbers. -/
def eq (x y : F64) : Bool := Fp.compare (val x) (val y) == some .eq
/-- Neither an infinity nor a NaN. -/
def finite (x : F64) : Bool := match val x with | .fin .. => true | _ => false
/-- The larger of two numbers. -/
def max (x y : F64) : F64 := if lt x y then y else x
/-- The smaller of two numbers. -/
def min (x y : F64) : F64 := if lt y x then y else x
/-- lo ≤ x ≤ hi. -/
def within (lo hi x : F64) : Bool := le lo x && le x hi
/-- Clamp into lo..hi. -/
def clamp (x lo hi : F64) : F64 := if lt x lo then lo else if lt hi x then hi else x
/-- The nearest FP64 of an integer. -/
def ofInt (v : Int) : F64 := BitVec.ofNat 64 (Fp.ofInt Fp.fmt64 v)
/-- The nearest FP64 of a natural number. -/
def ofNat (v : Nat) : F64 := ofInt v
/-- The FP64 of an FP32 (exact). -/
def of32 (x : F32) : F64 := BitVec.ofNat 64 (Fp.pack Fp.fmt64 (F32.val x))
/-- The nearest FP32 of an FP64. -/
def to32 (x : F64) : F32 := BitVec.ofNat 32 (Fp.pack Fp.fmt32 (val x))
/-- The integer nearest to a finite value. -/
def nearest (x : F64) : Int := Fp.nearest (val x)
/-- The largest integer not above a finite value. -/
def floor (x : F64) : Int := Fp.floor (val x)
/-- 1.0. -/
def one : F64 := 0x3FF0000000000000
/-- 0.5. -/
def half : F64 := 0x3FE0000000000000
/-- 2.0. -/
def two : F64 := 0x4000000000000000
/-- +infinity. -/
def inf : F64 := 0x7FF0000000000000
/-- The FP64 nearest to pi. -/
def pi : F64 := 0x400921FB54442D18
/-- The FP64 nearest to 2 pi. -/
def twoPi : F64 := 0x401921FB54442D18

end F64

/-- The nearest FP64 of n/d. -/
def f64OfRat (n : Int) (d : Nat) : F64 := BitVec.ofNat 64 (Fp.ofRat Fp.fmt64 n d)

/-- A time in nanoseconds as seconds, FP64. -/
def secondsOf (ns : Int) : F64 := f64OfRat ns 1000000000

/-- Wrap an angle into (-pi, pi] by whole turns of the FP64 2 pi. -/
def F64.wrapPi (x : F64) : F64 :=
  if !F64.finite x then x
  else
    -- turns = ceil((x - pi) / (2 pi))
    let turns := - Fp.floor (F64.val (F64.div (F64.sub F64.pi x) F64.twoPi))
    if turns = 0 then x else F64.sub x (F64.mul (F64.ofInt turns) F64.twoPi)

/-! ## Elementary functions

The spec names them and states no rounding of a result (log 22). Where the exact value is representable nothing is
rounded, and that value is the result; elsewhere the result is the free value of Config. -/

/-- The sine of an angle. -/
def F64.sin (x : F64) : F64 := if F64.eq x 0 then x else Config.sin x
/-- The cosine of an angle. -/
def F64.cos (x : F64) : F64 := if F64.eq x 0 then F64.one else Config.cos x
/-- The tangent of an angle. -/
def F64.tan (x : F64) : F64 := if F64.eq x 0 then x else Config.tan x
/-- The angle of the point (x, y), in [-pi, pi]. -/
def F64.atan2 (y x : F64) : F64 := if F64.eq y 0 && F64.lt 0 x then y else Config.atan2 y x
/-- The arc sine. -/
def F64.asin (x : F64) : F64 := if F64.eq x 0 then x else Config.asin x
/-- The exponential. -/
def F64.exp (x : F64) : F64 := if F64.eq x 0 then F64.one else Config.exp x

end Sys2Proof
end

