-- ==== Sys2Proof/Machine/Matrix.lean ====
section
/-! DEFINITION. Vectors and matrices of FP64 as lists, rotations of R207 and the WGS 84 transformation of R208. Sums run
in index order (log 22). -/

namespace Sys2Proof.Machine

/-- A vector. -/
abbrev Vec := List F64
/-- A matrix, by rows. -/
abbrev Mat := List (List F64)

/-- Component `i`; 0 outside the vector. -/
def Vec.at (v : Vec) (i : Nat) : F64 := v.getD i 0
/-- Entry (i, j); 0 outside the matrix. -/
def Mat.at (m : Mat) (i j : Nat) : F64 := (m.getD i []).getD j 0
/-- The vector of `f` at 0 to n - 1. -/
def mkVec (n : Nat) (f : Nat → F64) : Vec := (List.range n).map f
/-- The n by m matrix of `f`. -/
def mkMat (n m : Nat) (f : Nat → Nat → F64) : Mat := (List.range n).map fun i => mkVec m (f i)
/-- A sum in index order. -/
def sumTo (n : Nat) (f : Nat → F64) : F64 := (List.range n).foldl (fun a i => F64.add a (f i)) 0
/-- Sum of vectors. -/
def Vec.plus (a b : Vec) : Vec := mkVec (max a.length b.length) fun i => F64.add (a.at i) (b.at i)
/-- Difference of vectors. -/
def Vec.minus (a b : Vec) : Vec := mkVec (max a.length b.length) fun i => F64.sub (a.at i) (b.at i)
/-- A vector times a number. -/
def Vec.scale (k : F64) (a : Vec) : Vec := a.map (F64.mul k)
/-- Inner product. -/
def Vec.dot (a b : Vec) : F64 := sumTo (max a.length b.length) fun i => F64.mul (a.at i) (b.at i)
/-- Matrix times vector. -/
def Mat.app (m : Mat) (v : Vec) : Vec := m.map fun r => sumTo r.length fun j => F64.mul (r.getD j 0) (v.at j)
/-- Product of an n by k and a k by m matrix. -/
def Mat.mul (n k m : Nat) (a b : Mat) : Mat := mkMat n m fun i j => sumTo k fun l => F64.mul (a.at i l) (b.at l j)
/-- Transpose to n by m. -/
def Mat.tr (n m : Nat) (a : Mat) : Mat := mkMat n m fun i j => a.at j i
/-- Sum of n by m matrices. -/
def Mat.plus (n m : Nat) (a b : Mat) : Mat := mkMat n m fun i j => F64.add (a.at i j) (b.at i j)
/-- A matrix times a number. -/
def Mat.scale (k : F64) (a : Mat) : Mat := a.map (Vec.scale k)
/-- The n by n identity. -/
def Mat.one (n : Nat) : Mat := mkMat n n fun i j => if i = j then F64.one else 0
/-- Rows of a flat list. -/
def Mat.ofFlat (n m : Nat) (l : List F64) : Mat := mkMat n m fun i j => l.getD (i * m + j) 0
/-- Flatten by rows. -/
def Mat.flat (m : Mat) : List F64 := m.flatten

/-- The inverse of a matrix by Gauss-Jordan elimination without pivoting, column by column. -/
def Mat.inv (n : Nat) (a : Mat) : Mat :=
  let aug := mkMat n (2 * n) fun i j => if j < n then a.at i j else if j = i + n then F64.one else 0
  let red := (List.range n).foldl (fun m c =>
    let p := m.at c c
    let row := (m.getD c []).map fun x => F64.div x p
    m.mapIdx fun i r => if i = c then row
      else
        let f := m.at i c
        mkVec (2 * n) fun j => F64.sub (r.getD j 0) (F64.mul f (row.getD j 0))) aug
  mkMat n n fun i j => red.at i (j + n)

/-- The determinant and inverse of a 2 by 2 symmetric matrix serve R254. -/
def Mat.quad (n : Nat) (s : Mat) (v : Vec) : F64 := Vec.dot v ((Mat.inv n s).app v)

/-- Angle in [0, 2 pi) (R19). -/
def F64.wrap2Pi (x : F64) : F64 :=
  let w := F64.wrapPi x
  if F64.lt w 0 then F64.add w F64.twoPi else w

/-- Rotation from body to NED, in the order heading, pitch, roll (R207). -/
def rotBody (phi theta psi : F64) : Mat :=
  let cf := F64.cos phi
  let sf := F64.sin phi
  let ct := F64.cos theta
  let st := F64.sin theta
  let cp := F64.cos psi
  let sp := F64.sin psi
  let m := F64.mul
  [[m cp ct, F64.sub (m (m cp st) sf) (m sp cf), F64.add (m (m cp st) cf) (m sp sf)],
   [m sp ct, F64.add (m (m sp st) sf) (m cp cf), F64.sub (m (m sp st) cf) (m cp sf)],
   [F64.neg st, m ct sf, m ct cf]]

/-- Rotation about z from body to NED (R245). -/
def rotZ (psi : F64) : Mat :=
  let c := F64.cos psi
  let s := F64.sin psi
  [[c, F64.neg s, 0], [s, c, 0], [0, 0, F64.one]]

/-! ## WGS 84 (R208): a = 6 378 137 m, 1/f = 298.257223563 -/

/-- Semi-major axis, m. -/
def wgsA : F64 := F64.ofNat 6378137
/-- Flattening. -/
def wgsF : F64 := F64.div F64.one (f64OfRat 298257223563 1000000000)
/-- Eccentricity squared, f (2 - f). -/
def wgsE2 : F64 := F64.mul wgsF (F64.sub F64.two wgsF)

/-- Geodetic to Earth-centred coordinates. -/
def ecefOf (lat lon h : F64) : Vec :=
  let sl := F64.sin lat
  let cl := F64.cos lat
  let n := F64.div wgsA (F64.sqrt (F64.sub F64.one (F64.mul wgsE2 (F64.mul sl sl))))
  let r := F64.mul (F64.add n h) cl
  [F64.mul r (F64.cos lon), F64.mul r (F64.sin lon),
   F64.mul (F64.add (F64.mul n (F64.sub F64.one wgsE2)) h) sl]

/-- Rotation from Earth-centred axes to NED axes at a geodetic point. -/
def nedAxes (lat lon : F64) : Mat :=
  let sl := F64.sin lat
  let cl := F64.cos lat
  let so := F64.sin lon
  let co := F64.cos lon
  [[F64.neg (F64.mul sl co), F64.neg (F64.mul sl so), cl], [F64.neg so, co, 0],
   [F64.neg (F64.mul cl co), F64.neg (F64.mul cl so), F64.neg sl]]

/-- A geodetic point in the NED frame about an origin (R208). -/
def nedOf (oLat oLon oH lat lon h : F64) : Vec :=
  (nedAxes oLat oLon).app (Vec.minus (ecefOf lat lon h) (ecefOf oLat oLon oH))

/-- One step of the fixed-point iteration from Earth-centred coordinates to latitude and height. -/
def geodeticStep (p z : F64) (lat : F64) : F64 :=
  let sl := F64.sin lat
  let n := F64.div wgsA (F64.sqrt (F64.sub F64.one (F64.mul wgsE2 (F64.mul sl sl))))
  F64.atan2 (F64.add z (F64.mul (F64.mul wgsE2 n) sl)) p

/-- Earth-centred to geodetic coordinates: latitude by eight fixed-point steps. -/
def geodeticOf (v : Vec) : F64 × F64 × F64 :=
  let p := F64.sqrt (F64.add (F64.mul (v.at 0) (v.at 0)) (F64.mul (v.at 1) (v.at 1)))
  let lat := (List.range 8).foldl (fun l _ => geodeticStep p (v.at 2) l)
    (F64.atan2 (v.at 2) (F64.mul p (F64.sub F64.one wgsE2)))
  let sl := F64.sin lat
  let n := F64.div wgsA (F64.sqrt (F64.sub F64.one (F64.mul wgsE2 (F64.mul sl sl))))
  (lat, F64.atan2 (v.at 1) (v.at 0), F64.sub (F64.div p (F64.cos lat)) n)

/-- A NED point about an origin as a geodetic point. -/
def geodeticAt (oLat oLon oH : F64) (ned : Vec) : F64 × F64 × F64 :=
  geodeticOf (Vec.plus (ecefOf oLat oLon oH) ((Mat.tr 3 3 (nedAxes oLat oLon)).app ned))

end Sys2Proof.Machine
end

