-- ==== Sys2Proof/Machine/Operands.lean ====
section
/-! DEFINITION. Operand forms: big-endian fields (R15), two's complement, object identifiers (R24), and the two CRCs of
R14. -/

namespace Sys2Proof.Machine

/-- One byte as a list. -/
def be8 (x : BitVec 8) : List Byte := [x]
/-- Two bytes, big-endian. -/
def be16 (x : BitVec 16) : List Byte := [x.extractLsb' 8 8, x.extractLsb' 0 8]
/-- Four bytes, big-endian. -/
def be32 (x : BitVec 32) : List Byte := be16 (x.extractLsb' 16 16) ++ be16 (x.extractLsb' 0 16)
/-- Eight bytes, big-endian. -/
def be64 (x : BitVec 64) : List Byte := be32 (x.extractLsb' 32 32) ++ be32 (x.extractLsb' 0 32)
/-- Any width of whole bytes, big-endian: the low `n` bytes of a number. -/
def beNat (n : Nat) (v : Nat) : List Byte := (List.range n).map fun i => BitVec.ofNat 8 (v >>> (8 * (n - 1 - i)))
/-- A natural number as 8, 16, 32 or 64 bits, cut to the width. -/
def nat8 (v : Nat) : List Byte := be8 (BitVec.ofNat 8 v)
/-- See `nat8`. -/
def nat16 (v : Nat) : List Byte := be16 (BitVec.ofNat 16 v)
/-- See `nat8`. -/
def nat32 (v : Nat) : List Byte := be32 (BitVec.ofNat 32 v)
/-- See `nat8`. -/
def nat64 (v : Nat) : List Byte := be64 (BitVec.ofNat 64 v)
/-- A signed number in two's complement. -/
def int8 (v : Int) : List Byte := be8 (BitVec.ofInt 8 v)
/-- See `int8`. -/
def int16 (v : Int) : List Byte := be16 (BitVec.ofInt 16 v)
/-- See `int8`. -/
def int32 (v : Int) : List Byte := be32 (BitVec.ofInt 32 v)
/-- See `int8`. -/
def int64 (v : Int) : List Byte := be64 (BitVec.ofInt 64 v)
/-- Zero bytes. -/
def zeros (n : Nat) : List Byte := List.replicate n 0

/-- The big-endian number a byte string spells. -/
def beVal (bs : List Byte) : Nat := bs.foldl (fun a b => a * 256 + b.toNat) 0
/-- `n` bytes from offset `o`; zeros past the end. -/
def sliceAt (bs : List Byte) (o n : Nat) : List Byte :=
  let p := (bs.drop o).take n
  p ++ zeros (n - p.length)
/-- The number of `n` bytes at offset `o`. -/
def fieldAt (bs : List Byte) (o n : Nat) : Nat := beVal (sliceAt bs o n)
/-- The FP32 at offset `o`. -/
def f32At (bs : List Byte) (o : Nat) : F32 := BitVec.ofNat 32 (fieldAt bs o 4)
/-- The FP64 at offset `o`. -/
def f64At (bs : List Byte) (o : Nat) : F64 := BitVec.ofNat 64 (fieldAt bs o 8)
/-- The signed number of `n` bytes at offset `o`. -/
def intAt (bs : List Byte) (o n : Nat) : Int :=
  let v := fieldAt bs o n
  if v < 2 ^ (8 * n - 1) then v else (v : Int) - 2 ^ (8 * n)
/-- Are all bytes of a range zero? -/
def zeroAt (bs : List Byte) (o n : Nat) : Bool := (sliceAt bs o n).all (· == 0)
/-- Pad with zero bytes to a multiple of `n`. -/
def padTo (n : Nat) (bs : List Byte) : List Byte := bs ++ zeros ((n - bs.length % n) % n)

/-- Set a flag bit of a number. -/
def flagBit (b : Bool) (i : Nat) : Nat := if b then 2 ^ i else 0
/-- Bit `i` of a number. -/
def bitOf (v i : Nat) : Bool := v.testBit i
/-- `n` bits of a number from bit `i`. -/
def bitsOf (v i n : Nat) : Nat := (v >>> i) % 2 ^ n
/-- A mask from a list of flags, the first at bit 0. -/
def maskOf (bs : List Bool) : Nat := (bs.zipIdx.map fun (b, i) => flagBit b i).sum

/-- Add, saturating at a limit. -/
def satAdd (limit a b : Nat) : Nat := min limit (a + b)
/-- The saturating 32-bit increment of the counters. -/
def sat32 (a : Nat) : Nat := satAdd 0xFFFFFFFF a 1

/-! ## Object identifiers (R24) -/

/-- The island of an object. -/
def objIsland (o : Word) : Nat := (o >>> 24).toNat
/-- The instance of an object. -/
def objInst (o : Word) : Nat := ((o >>> 16) &&& 0xFF).toNat
/-- The number of an object within its instance. -/
def objNum (o : Word) : Nat := (o &&& 0xFFFF).toNat
/-- The object island.instance.number. -/
def objId (island inst num : Nat) : Word := BitVec.ofNat 32 (island * 2 ^ 24 + inst * 2 ^ 16 + num)

/-! ## CRCs (R14): reflected, initial and final value 0xFFFFFFFF -/

/-- One bit of a reflected CRC. -/
def crcBit (poly : Word) (c : Word) : Word := if c.getLsbD 0 then (c >>> 1) ^^^ poly else c >>> 1
/-- One byte of a reflected CRC. -/
def crcByte (poly : Word) (c : Word) (b : Byte) : Word :=
  let x := c ^^^ b.setWidth 32
  crcBit poly (crcBit poly (crcBit poly (crcBit poly (crcBit poly (crcBit poly (crcBit poly (crcBit poly x)))))))
/-- A reflected CRC over a byte string. -/
def crcOf (poly : Word) (bs : List Byte) : Word := bs.foldl (crcByte poly) 0xFFFFFFFF ^^^ 0xFFFFFFFF
/-- CRC-32C (Castagnoli): polynomial 0x1EDC6F41, reflected 0x82F63B78. -/
def crc32c (bs : List Byte) : Word := crcOf 0x82F63B78 bs
/-- CRC-32 of IEEE 802.3: polynomial 0x04C11DB7, reflected 0xEDB88320. -/
def crc32 (bs : List Byte) : Word := crcOf 0xEDB88320 bs

/-- Change one entry of a vector. -/
def upd {α : Type} {n : Nat} (v : Vector α n) (i : Nat) (f : α → α) : Vector α n :=
  if h : i < n then v.set i (f v[i]) else v
/-- Read an entry of a vector; the default outside it. -/
def at? {α : Type} {n : Nat} [Inhabited α] (v : Vector α n) (i : Nat) : α := if h : i < n then v[i] else default
/-- Change one entry of a list. -/
def updL {α : Type} (l : List α) (i : Nat) (f : α → α) : List α := l.modify i f

/-- R113: extend a 32-bit stamp against a 64-bit reference of the same base. -/
def extend (low : BitVec 32) (ref : Nat) : Nat :=
  let d := (low.toNat + 2 ^ 32 - ref % 2 ^ 32) % 2 ^ 32
  if d ≥ 2 ^ 31 then ref + d - 2 ^ 32 else ref + d

end Sys2Proof.Machine
end

