-- ==== Sys2Proof/Machine/Cipher.lean ====
section
/-! DEFINITION. The published algorithms that R14 names for the Caldera: SHA-384 (FIPS 180-4), ECDSA on curve P-384 (FIPS 186-5)
and AES-256-GCM (FIPS 197, NIST SP 800-38D), with the Diffie-Hellman product of R609. Their arithmetic is the named standards'
(PRESUMED, log 23). -/

namespace Sys2Proof.Machine

/-! ## SHA-384 -/

/-- The 80 round constants of SHA-384 (FIPS 180-4), 64 bits each, the first highest. -/
def shaK : Nat :=
  0x428A2F98D728AE227137449123EF65CDB5C0FBCFEC4D3B2FE9B5DBA58189DBBC3956C25BF348B53859F111F1B605D019 * 2 ^ 4736 +
  0x923F82A4AF194F9BAB1C5ED5DA6D8118D807AA98A303024212835B0145706FBE243185BE4EE4B28C550C7DC3D5FFB4E2 * 2 ^ 4352 +
  0x72BE5D74F27B896F80DEB1FE3B1696B19BDC06A725C71235C19BF174CF692694E49B69C19EF14AD2EFBE4786384F25E3 * 2 ^ 3968 +
  0x0FC19DC68B8CD5B5240CA1CC77AC9C652DE92C6F592B02754A7484AA6EA6E4835CB0A9DCBD41FBD476F988DA831153B5 * 2 ^ 3584 +
  0x983E5152EE66DFABA831C66D2DB43210B00327C898FB213FBF597FC7BEEF0EE4C6E00BF33DA88FC2D5A79147930AA725 * 2 ^ 3200 +
  0x06CA6351E003826F142929670A0E6E7027B70A8546D22FFC2E1B21385C26C9264D2C6DFC5AC42AED53380D139D95B3DF * 2 ^ 2816 +
  0x650A73548BAF63DE766A0ABB3C77B2A881C2C92E47EDAEE692722C851482353BA2BFE8A14CF10364A81A664BBC423001 * 2 ^ 2432 +
  0xC24B8B70D0F89791C76C51A30654BE30D192E819D6EF5218D69906245565A910F40E35855771202A106AA07032BBD1B8 * 2 ^ 2048 +
  0x19A4C116B8D2D0C81E376C085141AB532748774CDF8EEB9934B0BCB5E19B48A8391C0CB3C5C95A634ED8AA4AE3418ACB * 2 ^ 1664 +
  0x5B9CCA4F7763E373682E6FF3D6B2B8A3748F82EE5DEFB2FC78A5636F43172F6084C87814A1F0AB728CC702081A6439EC * 2 ^ 1280 +
  0x90BEFFFA23631E28A4506CEBDE82BDE9BEF9A3F7B2C67915C67178F2E372532BCA273ECEEA26619CD186B8C721C0C207 * 2 ^ 896 +
  0xEADA7DD6CDE0EB1EF57D4F7FEE6ED17806F067AA72176FBA0A637DC5A2C898A6113F9804BEF90DAE1B710B35131C471B * 2 ^ 512 +
  0x28DB77F523047D8432CAAB7B40C724933C9EBE0A15C9BEBC431D67C49C100D4C4CC5D4BECB3E42B6597F299CFC657E2A * 2 ^ 128 +
  0x5FCB6FAB3AD6FAEC6C44198C4A475817
/-- The eight initial hash words of SHA-384, the first highest. -/
def shaInit : Nat :=
  0xCBBB9D5DC1059ED8629A292A367CD5079159015A3070DD17152FECD8F70E593967332667FFC00B318EB44A8768581511 * 2 ^ 128 +
  0xDB0C2E0D64F98FA747B5481DBEFA4FA4

/-- Word `i` of a table of `n` 64-bit words, the first highest. -/
def tableWord (table n i : Nat) : BitVec 64 := BitVec.ofNat 64 (table >>> (64 * (n - 1 - i)))

/-- The eight working words of a hash. -/
structure Sha where
  a : BitVec 64
  b : BitVec 64
  c : BitVec 64
  d : BitVec 64
  e : BitVec 64
  f : BitVec 64
  g : BitVec 64
  h : BitVec 64
  deriving DecidableEq, Repr

/-- Rotate right, within 64 bits. -/
def ror64 (x : BitVec 64) (n : Nat) : BitVec 64 := (x >>> n) ||| (x <<< (64 - n))

/-- One round with its constant and its message word. -/
def Sha.round (x : Sha) (k w : BitVec 64) : Sha :=
  let s1 := ror64 x.e 14 ^^^ ror64 x.e 18 ^^^ ror64 x.e 41
  let ch := (x.e &&& x.f) ^^^ (~~~x.e &&& x.g)
  let t1 := x.h + s1 + ch + k + w
  let s0 := ror64 x.a 28 ^^^ ror64 x.a 34 ^^^ ror64 x.a 39
  let maj := (x.a &&& x.b) ^^^ (x.a &&& x.c) ^^^ (x.b &&& x.c)
  { a := t1 + (s0 + maj), b := x.a, c := x.b, d := x.c, e := x.d + t1, f := x.e, g := x.f, h := x.g }

/-- The message word that follows sixteen others. -/
def shaNext (ws : List (BitVec 64)) : BitVec 64 :=
  let w (i : Nat) := ws.getD i 0
  let s0 := ror64 (w 1) 1 ^^^ ror64 (w 1) 8 ^^^ (w 1 >>> 7)
  let s1 := ror64 (w 14) 19 ^^^ ror64 (w 14) 61 ^^^ (w 14 >>> 6)
  s1 + w 9 + s0 + w 0

/-- The rounds from round `80 - n` on, with the next sixteen message words. -/
def Sha.rounds (x : Sha) (ws : List (BitVec 64)) : Nat → Sha
  | 0 => x
  | n + 1 => (x.round (tableWord shaK 80 (79 - n)) (ws.headD 0)).rounds (ws.drop 1 ++ [shaNext ws]) n

/-- One block of 128 bytes. -/
def Sha.block (x : Sha) (b : List Byte) : Sha :=
  let y := x.rounds ((List.range 16).map fun i => BitVec.ofNat 64 (fieldAt b (8 * i) 8)) 80
  { a := x.a + y.a, b := x.b + y.b, c := x.c + y.c, d := x.d + y.d, e := x.e + y.e, f := x.f + y.f, g := x.g + y.g, h := x.h + y.h }

/-- `n` blocks. -/
def Sha.blocks (x : Sha) (bs : List Byte) : Nat → Sha
  | 0 => x
  | n + 1 => (x.block (bs.take 128)).blocks (bs.drop 128) n

/-- The hash before any block. -/
def shaStart : Sha :=
  let w := tableWord shaInit 8
  { a := w 0, b := w 1, c := w 2, d := w 3, e := w 4, f := w 5, g := w 6, h := w 7 }

/-- SHA-384 of a byte string, 48 bytes. -/
def sha384 (bs : List Byte) : List Byte :=
  let fill := (239 - bs.length % 128) % 128
  let padded := bs ++ [0x80] ++ zeros fill ++ beNat 16 (8 * bs.length)
  let x := shaStart.blocks padded (padded.length / 128)
  be64 x.a ++ be64 x.b ++ be64 x.c ++ be64 x.d ++ be64 x.e ++ be64 x.f

/-! ## The curve P-384 -/

/-- The prime of the field. -/
def p384P : Nat := 2 ^ 384 - 2 ^ 128 - 2 ^ 96 + 2 ^ 32 - 1
/-- The order of its base point. -/
def p384N : Nat :=
  0xFFFFFFFFFFFFFFFFFFFFFFFFFFFFFFFFFFFFFFFFFFFFFFFFC7634D81F4372DDF581A0DB248B0A77AECEC196ACCC52973
/-- The curve coefficient b. -/
def p384B : Nat :=
  0xB3312FA7E23EE7E4988E056BE3F82D19181D9C6EFE8141120314088F5013875AC656398D8A2ED19D2A85C8EDD3EC2AEF
/-- The base point. -/
def p384Gx : Nat :=
  0xAA87CA22BE8B05378EB1C71EF320AD746E1D3B628BA79B9859F741E082542A385502F25DBF55296C3A545E3872760AB7
/-- See `p384Gx`. -/
def p384Gy : Nat :=
  0x3617DE4A96262C6F5D9E98BF9292DC29F8F41DBD289A147CE9DA3113B5F0B8C00A60B1CE1D7E819D7A431D7C90EA0E5F

/-- `a ^ e` modulo `m`, over the low `n` bits of `e`. -/
def powMod (a e m : Nat) : Nat → Nat
  | 0 => 1 % m
  | n + 1 =>
    let h := powMod a (e / 2) m n
    let q := h * h % m
    if e % 2 = 1 then q * a % m else q

/-- The inverse modulo a prime below 2^384. -/
def invMod (a m : Nat) : Nat := powMod (a % m) (m - 2) m 384

/-- A point in Jacobian form: (x/z², y/z³); z = 0 for the point at infinity. -/
structure CurvePoint where
  x : Nat
  y : Nat
  z : Nat
  deriving DecidableEq, Repr

/-- The point at infinity. -/
def CurvePoint.zero : CurvePoint := { x := 1, y := 1, z := 0 }
/-- The base point. -/
def CurvePoint.base : CurvePoint := { x := p384Gx, y := p384Gy, z := 1 }

/-- Subtraction in the field. -/
def subP (a b : Nat) : Nat := (a + (p384P - b % p384P)) % p384P

/-- Twice a point; the curve's a is -3. -/
def CurvePoint.double (u : CurvePoint) : CurvePoint :=
  let p := p384P
  let delta := u.z * u.z % p
  let gamma := u.y * u.y % p
  let beta := u.x * gamma % p
  let alpha := 3 * subP u.x delta * (u.x + delta) % p
  let x := subP (alpha * alpha) (8 * beta)
  { x := x, y := subP (alpha * subP (4 * beta) x) (8 * gamma * gamma), z := 2 * u.y * u.z % p }

/-- The sum of two points. -/
def CurvePoint.add (u v : CurvePoint) : CurvePoint :=
  let p := p384P
  if u.z = 0 then v
  else if v.z = 0 then u
  else
    let uu := u.z * u.z % p
    let vv := v.z * v.z % p
    let u1 := u.x * vv % p
    let u2 := v.x * uu % p
    let s1 := u.y * vv * v.z % p
    let s2 := v.y * uu * u.z % p
    if u1 = u2 then (if s1 = s2 then u.double else .zero)
    else
      let h := subP u2 u1
      let r := subP s2 s1
      let hh := h * h % p
      let hhh := h * hh % p
      let q := u1 * hh % p
      let x := subP (r * r) (hhh + 2 * q)
      { x := x, y := subP (r * subP q x) (s1 * hhh), z := h * u.z * v.z % p }

/-- `k` times a point, over the low `n` bits of `k`. -/
def CurvePoint.times (u : CurvePoint) (k : Nat) : Nat → CurvePoint
  | 0 => .zero
  | n + 1 =>
    let h := (u.times (k / 2) n).double
    if k % 2 = 1 then h.add u else h

/-- The affine coordinates; none at infinity. -/
def CurvePoint.affine (u : CurvePoint) : Option (Nat × Nat) :=
  if u.z = 0 then none
  else
    let i := invMod u.z p384P
    let ii := i * i % p384P
    some (u.x * ii % p384P, u.y * ii * i % p384P)

/-- The uncompressed form of a point, 97 bytes (R607). -/
def CurvePoint.bytes (u : CurvePoint) : List Byte :=
  match u.affine with
  | some (x, y) => [0x04] ++ beNat 48 x ++ beNat 48 y
  | none => zeros 97

/-- The point that 97 bytes spell in uncompressed form; none where they name no point of the curve (R609). -/
def curvePointOf (bs : List Byte) : Option CurvePoint :=
  let x := fieldAt bs 1 48
  let y := fieldAt bs 49 48
  if bs.length = 97 ∧ fieldAt bs 0 1 = 4 ∧ x < p384P ∧ y < p384P ∧
      y * y % p384P = (x * x * x + (p384P - 3) * x + p384B) % p384P then some { x := x, y := y, z := 1 }
  else none

/-- The public key of a private key. -/
def publicKey (d : Nat) : List Byte := (CurvePoint.base.times d 384).bytes

/-- ECDSA: does the signature, r then s, over a SHA-384 verify with the public key? -/
def ecdsaVerify (key hash sig : List Byte) : Bool :=
  match curvePointOf key with
  | none => false
  | some q =>
    let r := fieldAt sig 0 48
    let s := fieldAt sig 48 48
    if r = 0 ∨ p384N ≤ r ∨ s = 0 ∨ p384N ≤ s then false
    else
      let w := invMod s p384N
      let a := beVal hash * w % p384N
      let b := r * w % p384N
      match ((CurvePoint.base.times a 384).add (q.times b 384)).affine with
      | some (x, _) => x % p384N == r
      | none => false

/-- ECDSA: the signature of a SHA-384 with private key `d` and the per-signature value of the first of `n` draws that the
standard accepts; `nonce i` is the i-th. -/
def ecdsaSign (d : Nat) (hash : List Byte) (nonce : Nat → BitVec 384) : Nat → List Byte
  | 0 => zeros 96
  | n + 1 =>
    let k := (nonce n).toNat
    let r := ((CurvePoint.base.times k 384).affine.map (·.1)).getD 0 % p384N
    let s := invMod k p384N * (beVal hash + r * d) % p384N
    if k = 0 ∨ p384N ≤ k ∨ r = 0 ∨ s = 0 then ecdsaSign d hash nonce n else beNat 48 r ++ beNat 48 s

/-- Z of R609: the X coordinate of the product of a private key and a public point. -/
def sharedX (d : Nat) (key : List Byte) : List Byte :=
  beNat 48 ((((curvePointOf key).bind fun q => (q.times d 384).affine).map (·.1)).getD 0)

/-! ## AES-256-GCM -/

/-- The substitution box of AES: the entry of byte `b` at bits 8b to 8b + 7. -/
def aesSbox : Nat :=
  0x16BB54B00F2D99416842E6BF0D89A18CDF2855CEE9871E9B948ED9691198F8E19E1DC186B95735610EF6034866B53E70 * 2 ^ 1664 +
  0x8A8BBD4B1F74DDE8C6B4A61C2E2578BA08AE7A65EAF4566CA94ED58D6D37C8E779E4959162ACD3C25C2406490A3A32E0 * 2 ^ 1280 +
  0xDB0B5EDE14B8EE4688902A22DC4F816073195D643D7EA7C41744975FEC130CCDD2F3FF1021DAB6BCF5389D928F40A351 * 2 ^ 896 +
  0xA89F3C507F02F94585334D43FBAAEFD0CF584C4A39BECB6A5BB1FC20ED00D153842FE329B3D63B52A05A6E1B1A2C8309 * 2 ^ 512 +
  0x75B227EBE28012079A059618C323C7041531D871F1E5A534CCF73F362693FDB7C072A49CAFA2D4ADF04759FA7DC982CA * 2 ^ 128 +
  0x76ABD7FE2B670130C56F6BF27B777C63

/-- The substitution of one byte. -/
def aesSub (b : Byte) : Byte := BitVec.ofNat 8 (aesSbox >>> (8 * b.toNat))
/-- Multiplication by x in AES's field of 256 elements. -/
def aesTwice (b : Byte) : Byte := (b <<< 1) ^^^ (if b.getLsbD 7 then 0x1B else 0)
/-- Two byte strings added bit by bit. -/
def xorBytes (a b : List Byte) : List Byte := List.zipWith (· ^^^ ·) a b

/-- The words of the key schedule from word `i` on, `n` of them; `last` holds the eight words before. -/
def aesWords (last : List (List Byte)) (i : Nat) (rcon : Byte) : Nat → List (List Byte)
  | 0 => []
  | n + 1 =>
    let t := last.getD 7 []
    let t := if i % 8 = 0 then xorBytes ((t.drop 1 ++ t.take 1).map aesSub) [rcon, 0, 0, 0]
      else if i % 8 = 4 then t.map aesSub else t
    let w := xorBytes (last.getD 0 []) t
    w :: aesWords (last.drop 1 ++ [w]) (i + 1) (if i % 8 = 0 then aesTwice rcon else rcon) n

/-- The 15 round keys of a 32-byte key. -/
def aesRoundKeys (key : List Byte) : List (List Byte) :=
  let first := (List.range 8).map fun i => sliceAt key (4 * i) 4
  let ws := first ++ aesWords first 8 1 52
  (List.range 15).map fun r => (ws.drop (4 * r)).take 4 |>.flatten

/-- ShiftRows: byte `4c + r` comes from column c + r. -/
def aesShift (b : List Byte) : List Byte := (List.range 16).map fun i => b.getD ((i + 4 * (i % 4)) % 16) 0

/-- MixColumns on one column. -/
def aesMixColumn (c : List Byte) : List Byte :=
  let x (i : Nat) : Byte := c.getD (i % 4) 0
  (List.range 4).map fun i => aesTwice (x i) ^^^ (aesTwice (x (i + 1)) ^^^ x (i + 1)) ^^^ x (i + 2) ^^^ x (i + 3)
/-- MixColumns. -/
def aesMix (b : List Byte) : List Byte := (List.range 4).flatMap fun i => aesMixColumn ((b.drop (4 * i)).take 4)

/-- The rounds after the first key addition. -/
def aesRounds (b : List Byte) : List (List Byte) → List Byte
  | [] => b
  | [k] => xorBytes (aesShift (b.map aesSub)) k
  | k :: ks => aesRounds (xorBytes (aesMix (aesShift (b.map aesSub))) k) ks

/-- One block of AES-256 under its round keys. -/
def aesBlock (keys : List (List Byte)) (b : List Byte) : List Byte := aesRounds (xorBytes b (keys.headD [])) (keys.drop 1)

/-- Multiplication in the field of GHASH: `z` takes `v` for each of the `n` remaining bits of `x`, the leftmost first. -/
def ghashMul (x : Nat) (z v : Nat) : Nat → Nat
  | 0 => z
  | n + 1 =>
    let z := if x.testBit n then z ^^^ v else z
    ghashMul x z (v / 2 ^^^ (if v % 2 = 1 then 0xE1 * 2 ^ 120 else 0)) n

/-- GHASH over `n` blocks of 16 bytes. -/
def ghash (h y : Nat) (bs : List Byte) : Nat → Nat
  | 0 => y
  | n + 1 => ghash h (ghashMul (y ^^^ fieldAt bs 0 16) 0 h 128) (bs.drop 16) n

/-- Counter mode over `n` blocks, from counter `c`. -/
def gcmStream (keys : List (List Byte)) (nonce : List Byte) (c : Nat) (bs : List Byte) : Nat → List Byte
  | 0 => []
  | n + 1 => xorBytes (bs.take 16) (aesBlock keys (nonce ++ nat32 c)) ++ gcmStream keys nonce (c + 1) (bs.drop 16) n

/-- AES-256-GCM decryption with a 12-byte nonce: the plaintext, or none where the tag does not verify. -/
def gcmDecrypt (key nonce aad cipher tag : List Byte) : Option (List Byte) :=
  let keys := aesRoundKeys key
  let text := padTo 16 aad ++ padTo 16 cipher ++ nat64 (8 * aad.length) ++ nat64 (8 * cipher.length)
  let sum := ghash (beVal (aesBlock keys (zeros 16))) 0 text (text.length / 16)
  if xorBytes (beNat 16 sum) (aesBlock keys (nonce ++ nat32 1)) == tag then
    some (gcmStream keys nonce 2 cipher ((cipher.length + 15) / 16))
  else none

/-- The image key that OP 3 of ENROL carries (R609): the device's private key, the sender's public key, the serial number, the
wrapped key with its tag, and bytes 0-107 of the request. -/
def unwrapImageKey (d : Nat) (key serial wrapped tag aad : List Byte) : Option (List Byte) :=
  let label : List Byte := [0x51, 0x53, 0x52, 0x2D, 0x49, 0x4D, 0x41, 0x47, 0x45, 0x2D, 0x4B, 0x45, 0x59]
  gcmDecrypt ((sha384 (sharedX d key ++ label ++ serial)).take 32) (zeros 12) aad wrapped tag

end Sys2Proof.Machine
end

