-- ==== Sys2Proof/Machine/Structure.lean ====
section
/-! DEFINITION. A structure image as the module holds it once loaded: the records of R72-R83 (spec/02_structure_image.md),
field for field. Nothing here changes between one load and the next (R57). -/

namespace Sys2Proof.Machine

/-- A POINTS record (R73). -/
structure PointRec where
  id : Nat := 0
  member : Nat := 0
  kind : Nat := 0
  channel : Nat := 0
  mode : Nat := 0
  /-- NOMINAL_PERIOD, ns. -/
  period : Nat := 0
  selector : BitVec 32 := 0
  deriving DecidableEq, Repr, Inhabited

/-- A SLICES record (R75). -/
structure SliceRec where
  /-- 0 THR, 1 PRS, 2 HDG, 3 MRU, 4 WND. -/
  kind : Nat := 0
  index : Nat := 0
  principle : Nat := 0
  /-- The points of the slice in order, unused entries left out. -/
  points : List Nat := []
  /-- x, y, z from the VRP. -/
  lever : List F32 := [0, 0, 0]
  deriving DecidableEq, Repr, Inhabited

/-- A row of the wind table (R76): angle, Cx, Cy, Cn. -/
structure WindRow where
  angle : F32 := 0
  cx : F32 := 0
  cy : F32 := 0
  cn : F32 := 0
  deriving DecidableEq, Repr, Inhabited

/-- The VESSEL body (R76); matrices row-major. -/
structure VesselRec where
  lengthPp : F64 := 0
  vrpX : F64 := 0
  mass : List F64 := []
  damping : List F64 := []
  aFrontal : F64 := 0
  aLateral : F64 := 0
  wind : List WindRow := []
  deriving DecidableEq, Repr, Inhabited

/-- A row of a thruster map (R77): thrust, pitch ratio, shaft speed. -/
structure MapRow where
  thrust : F32 := 0
  pitch : F32 := 0
  speed : F32 := 0
  deriving DecidableEq, Repr, Inhabited

/-- A THRUSTERS record (R77). -/
structure ThrusterRec where
  slice : Nat := 0
  /-- 0 tunnel, 1 azimuth, 2 retractable azimuth, 3 propeller with rudder. -/
  type_ : Nat := 0
  x : F64 := 0
  y : F64 := 0
  rated : F32 := 0
  ratedPower : F32 := 0
  azRateMax : F32 := 0
  azSlot : Nat := 0xFF
  pitchSlot : Nat := 0xFF
  speedSlot : Nat := 0xFF
  generator : Nat := 0xFF
  region : List (F32 × F32) := []
  sectors : List (F32 × F32) := []
  power : List (F32 × F32) := []
  map : List MapRow := []
  deriving DecidableEq, Repr, Inhabited

/-- A FILTERS record (R78). -/
structure FilterRec where
  point : Nat := 0
  rateCode : BitVec 4 := 5
  dcBlock : Bool := false
  scs : Bool := false
  dcCutoff : F32 := 0
  deriving DecidableEq, Repr, Inhabited

/-- A LOOPS record (R78). -/
structure LoopRec where
  slot : Nat := 0
  /-- The slot whose output is this slot's set-point, 0xFF none. -/
  outer : Nat := 0xFF
  feedback : Nat := 0
  output : Nat := 0xFFFF
  rate : Nat := 1000
  kp : F32 := 0
  ki : F32 := 0
  kd : F32 := 0
  bq1 : List F32 := []
  bq2 : List F32 := []
  ffGain : F32 := 0
  outMin : F32 := 0
  outMax : F32 := 0
  deriving DecidableEq, Repr, Inhabited

/-- A FUSION record (R78). -/
structure FusionRec where
  kind : Nat := 1
  index : Nat := 0
  level : Nat := 2
  gate : F32 := 0
  sigma : F32 := 0
  leverBound : F32 := 0
  angleBound : F32 := 0
  /-- Reflector positions x, y, z in the target frame. -/
  reflectors : List (F32 × F32 × F32) := []
  deriving DecidableEq, Repr, Inhabited

/-- A variable descriptor (R79). -/
structure VarDesc where
  kind : Nat := 0
  slice : Nat := 0xFF
  step : Nat := 0
  comp : Nat := 0
  deriving DecidableEq, Repr, Inhabited

/-- A SOLVER_VARIANT section (R79). -/
structure VariantRec where
  number : Nat := 0
  horizon : Nat := 5
  /-- Bit 0 JOYSTICK, 1 AUTOHEAD, 2 STATION, 3 TRACK. -/
  modes : BitVec 8 := 0
  thrusters : BitVec 16 := 0
  vars : List VarDesc := []
  ncon : Nat := 0
  nnz : Nat := 0
  colptr : List Nat := []
  rows : List Nat := []
  order : List Nat := []
  schedule : List (BitVec 64) := []
  deriving DecidableEq, Repr, Inhabited

/-- A map of VARIABLE_MAP (R80). -/
structure VarMap where
  from_ : Nat := 0
  dest : Nat := 0
  entries : List Nat := []
  deriving DecidableEq, Repr, Inhabited

/-- An entry of PARAMETERS or PARAMETERS_LONG: the object and its value at its own length (R81). -/
structure ParamRec where
  object : Word := 0
  value : List Byte := []
  deriving DecidableEq, Repr, Inhabited

/-- A SAFE_STATES record (R81): 0 off, 1 on, 2 hold, 3 value. -/
structure SafeRec where
  point : Nat := 0
  state : Nat := 0
  value : F32 := 0
  deriving DecidableEq, Repr, Inhabited

/-- A SAFETY record (R81, R440); `raw` is its 8 bytes as loaded (R455). -/
structure SafRecord where
  channel : Nat := 24
  /-- 0 unused, 1 SF-ESD, 2 SF-THR. -/
  function : Nat := 0
  thr : Nat := 0xFF
  tp : Nat := 0
  filterUs : Nat := 0
  raw : List Byte := []
  deriving DecidableEq, Repr, Inhabited

/-- A DISPLAY_LAYOUT record (R81). -/
structure LayoutRec where
  x : Nat := 0
  y : Nat := 0
  w : Nat := 0
  h : Nat := 0
  object : Word := 0
  /-- 0 value, 1 bar, 2 mode, 3 role, 4 alarm list. -/
  format : Nat := 0
  font : Nat := 0
  strip : Bool := false
  deriving DecidableEq, Repr, Inhabited

/-- The CYCLE body (R72), times in ns. -/
structure CycleRec where
  period : Nat := 20000000
  waitLimit : Nat := 2000000
  deadline : Nat := 12000000
  commandAt : Nat := 16000000
  samples : Nat := 1
  lateWindow : Nat := 0
  groupSize : Nat := 1
  iterCap : Nat := 1
  netLimit : Nat := 3
  tolerance : F64 := 0
  defaultVariant : Nat := 0
  deriving DecidableEq, Repr, Inhabited

/-- A loaded structure (R57, R63, R64). -/
structure Structure where
  serial : Word := 0
  fmtMajor : Byte := 4
  fmtMinor : Byte := 1
  vessel : List Byte := []
  cyc : CycleRec := {}
  points : List PointRec := []
  slices : List SliceRec := []
  hull : VesselRec := {}
  thrusters : List ThrusterRec := []
  filters : List FilterRec := []
  loops : List LoopRec := []
  fusion : List FusionRec := []
  variants : List VariantRec := []
  maps : List VarMap := []
  params : List ParamRec := []
  paramsLong : List ParamRec := []
  routes : List Word := []
  /-- Output watchdog period, ms. -/
  watchdog : Nat := 100
  safe : List SafeRec := []
  layout : List LayoutRec := []
  safety : List SafRecord := []
  deriving DecidableEq, Repr, Inhabited

end Sys2Proof.Machine
end

