-- ==== Sys2Proof/Machine/State.lean ====
section
/-! DEFINITION. The state of the block, as plain data: every register, queue, buffer, counter, mode and pin the spec
gives it, each with its reset value as the default of its field. INVENTORY.md lists each with its rule and width; the
log entries named there mark the values the spec does not give. -/

namespace Sys2Proof.Machine

/-- A signal of a satellite on an antenna (R135). -/
structure SignalId where
  system : BitVec 8 := 0
  sv : BitVec 8 := 0
  signal : BitVec 8 := 0
  antenna : BitVec 1 := 0
  deriving DecidableEq, Repr, Inhabited

/-- One calibration range of the factory block: gain, offset, their temperature coefficients and the front-end delay
in ns (R184 FACTORY_CAL). -/
structure RangeCal where
  gain : F32 := 0
  offset : F32 := 0
  kGain : F32 := 0
  kOffset : F32 := 0
  delay : F32 := 0
  deriving DecidableEq, Repr, Inhabited

/-- FACTORY_CAL of one analog channel: the voltage range, then the current range (R184). -/
structure FactoryCal where
  volt : RangeCal := {}
  amp : RangeCal := {}
  deriving DecidableEq, Repr, Inhabited

/-- What manufacture wrote for a channel and a range: free values, the delay within the 1.2 to 2.0 us of R162 (log 3). -/
def RangeCal.made (ch range : Nat) : RangeCal :=
  { gain := Config.factoryCoeff ch range 0, offset := Config.factoryCoeff ch range 1, kGain := Config.factoryCoeff ch range 2,
    kOffset := Config.factoryCoeff ch range 3, delay := F32.ofNat (1200 + (Config.factoryDelay ch range).val) }
/-- FACTORY_CAL of a channel as manufactured (log 3). -/
def FactoryCal.made (ch : Nat) : FactoryCal := { volt := RangeCal.made ch 0, amp := RangeCal.made ch 1 }

/-- A commit being verified: the slot named and the request that asked (R61, R565). -/
structure CommitJob where
  slot : BitVec 8 := 0
  req : Request := {}
  /-- TB0 at which verification began. -/
  startedAt : Nat := 0
  deriving DecidableEq, Repr, Inhabited

/-- A change entry of a solver job (R326). -/
structure ChangeEntry where
  target : Nat := 0
  index : Nat := 0
  value : F64 := 0
  deriving DecidableEq, Repr, Inhabited

/-- A datagram that waits in switch memory while the parser is stopped (R44): for points, or of IEC 61162-450 (R552). -/
structure EthIn where
  port : Nat := 0
  stamp : Nat := 0
  /-- Destination UDP port of a datagram for points; none for an IEC 61162-450 datagram. -/
  udp : Option (BitVec 16) := none
  payload : List Byte := []
  /-- The lines of an IEC 61162-450 datagram still to be judged. -/
  lines : List (List Byte) := []
  deriving DecidableEq, Repr, Inhabited

/-- A frame in an egress queue of the switch, with its priority (R526). -/
structure EgressFrame where
  priority : Nat := 0
  frame : SwitchFrame := {}
  deriving DecidableEq, Repr, Inhabited

/-- A character in a serial receive FIFO: its stamp, and whether it broke framing or parity (R44, R549). -/
structure SerByte where
  char : Byte := 0
  stamp : Nat := 0
  lineError : Bool := false
  /-- A byte was dropped between the one stored before it and this one. -/
  lostBefore : Bool := false
  deriving DecidableEq, Repr, Inhabited

/-- A command record (R534), with the point it is for. -/
structure CommandRecord where
  point : Nat := 0
  slice : Nat := 0
  seq : BitVec 16 := 0
  authority : Bool := false
  armed : Bool := false
  member : Byte := 0
  thrust : F32 := 0
  azimuth : F32 := 0
  pitch : F32 := 0
  speed : F32 := 0
  time : Word := 0
  deriving DecidableEq, Repr, Inhabited

/-- A CAN transmit buffer: a host frame, or the frame of a command record (R543). -/
structure CanTx where
  frame : CanFrame := {}
  record : Option CommandRecord := none
  /-- Attempts made, each a lost arbitration or a transmit error. -/
  attempts : Nat := 0
  deriving DecidableEq, Repr, Inhabited

/-- A record of an AI telemetry frame (R581). -/
structure AiRecord where
  channel : Byte := 0
  status : Byte := 0
  stamp : Word := 0
  value : F32 := 0
  deriving DecidableEq, Repr, Inhabited

/-- QCP_ADDRESS (R588). -/
structure QcpAddress where
  v4 : Word := 0xC0A8600A
  prefix4 : Byte := 24
  gateway4 : Word := 0
  v6 : BitVec 128 := 0
  prefix6 : Byte := 0
  gateway6 : BitVec 96 := 0
  deriving DecidableEq, Repr, Inhabited

/-- The status codes of R575. -/
inductive Status where
  | ok | busy | badObject | badValue | wrongMode | notSigned | aborted | timeout | version | notLead | noSpace
  deriving DecidableEq, Repr, Inhabited

/-- The modes of R462. -/
inductive Mode where
  | idle | config | joystick | autohead | station | track | test | safe
  deriving DecidableEq, Repr, Inhabited

/-- The roles of R490. -/
inductive Role where
  | lead | spare | resync | alone
  deriving DecidableEq, Repr, Inhabited

/-- Where the module stands in its life: unpowered, in a cold start's aftermath or running, stopped for a restart with
state handover (R479), or stopped by a power failure (R671). -/
inductive Phase where
  | off | running | restarting | stopped
  deriving DecidableEq, Repr, Inhabited

/-- What a restart in preparation is (R478, R637): a cold one, a RESTART 2 write, an update, or a fault's. -/
inductive RestartKind where
  | cold | handover | update | fault
  deriving DecidableEq, Repr, Inhabited

/-- An extension image in a bank of the extension store (R630, R636): the image of manufacture, whose bytes the spec
does not give, or one transferred. -/
inductive ExtImage where
  | delivered
  | bytes (b : List Byte)
  deriving DecidableEq, Repr, Inhabited

/-- What manufacture fixes (R3, R150, R176, R569): sealed, read by no write. -/
structure FactoryBlock where
  /-- R4. -/
  build : BitVec 8 := 1
  /-- R2, R4. -/
  optG : Bool := true
  /-- R2, R4. -/
  optT : Bool := true
  /-- R2, R4. -/
  optS : Bool := true
  /-- R2, R4. -/
  optP : Bool := true
  /-- R569. -/
  serial : BitVec 64 := 1
  /-- R176, R615. -/
  valid : Bool := true
  /-- R607. -/
  deviceSecret : Nat := 1
  /-- R607, R613. -/
  deviceKey : List Byte := publicKey 1
  /-- R611. -/
  romMeas : List Byte := List.replicate 48 0
  /-- R611. -/
  factoryMeas : List Byte := List.replicate 48 0
  /-- R636, R638. -/
  releaseKey : List Byte := publicKey 2
  /-- R98, R99. -/
  oscF : F32 := 0x2EDBE6FF
  /-- R98, R99. -/
  oscA : F32 := 0x29CAA978
  /-- R660. -/
  vcom : Int := -1500
  /-- R150. -/
  jamP0 : Vector F32 4 := .replicate 4 0
  /-- R162, R176, R184. -/
  cal : Vector FactoryCal 24 := .ofFn fun c => FactoryCal.made c
  /-- R146. -/
  feDelay : Vector F64 4 := .ofFn fun f => Config.frontEndDelay f
  deriving DecidableEq, Repr, Inhabited

/-- EVT_ROUTE[n], one event route register (R48). -/
structure Route where
  /-- R48. -/
  cls : BitVec 2 := 0
  /-- R48. -/
  line : BitVec 3 := 0
  /-- R48. -/
  lineEn : Bool := false
  /-- R48, R51. -/
  fault : Bool := false
  /-- R48, R51 REC. -/
  toRec : Bool := false
  /-- R48. -/
  host : Bool := false
  /-- R48, R50. -/
  merged : Nat := 0
  /-- R48, R50. -/
  pending : Bool := false
  /-- R55 assertions merged into the fault in hand. -/
  mergedNow : Nat := 0
  deriving DecidableEq, Repr, Inhabited

/-- A fault in a queue or in a handler context (R54, R55). -/
structure FaultEntry where
  /-- R55. -/
  source : Nat := 0
  /-- R55. -/
  arrivalClass : Nat := 0
  /-- R55. -/
  handledClass : Nat := 0
  /-- R55. -/
  deferred : Bool := false
  /-- R55. -/
  forcedSafe : Bool := false
  /-- R55. -/
  depth : Nat := 0
  /-- R54, R56 its handler has run. -/
  started : Bool := false
  /-- R596 an EVENT record already carries TRIGGER. -/
  marked : Bool := false
  /-- R55. -/
  time : Nat := 0
  deriving DecidableEq, Repr, Inhabited

/-- The event router and the SUP fault handler (R48-R56). -/
structure EventState where
  /-- R48. -/
  routes : Vector Route 128 := .replicate 128 {}
  /-- R54. -/
  f1 : Option FaultEntry := none
  /-- R54. -/
  f2 : Option FaultEntry := none
  /-- R54. -/
  f3 : Option FaultEntry := none
  /-- R54. -/
  q1 : List FaultEntry := []
  /-- R54. -/
  q2 : List FaultEntry := []
  /-- R54. -/
  q3 : List FaultEntry := []
  /-- R654 sources in their raised state, newest first. -/
  raised : List Nat := []
  deriving DecidableEq, Repr, Inhabited

/-- A hardware event line (R414). -/
structure LineState where
  /-- R414. -/
  latch : Bool := false
  /-- R414. -/
  pulseUntil : Option Nat := none
  deriving DecidableEq, Repr, Inhabited

/-- One copy of SRV's command snapshot (R36, R42, R445). -/
structure Snapshot where
  /-- R445. -/
  seq : BitVec 16 := 0
  /-- R445. -/
  armed : Bool := false
  /-- R36. -/
  cycle : Nat := 0
  /-- R311, R534. -/
  setpoints : List ThrusterSet := []
  deriving DecidableEq, Repr, Inhabited

/-- The settings and the refinement of one reference (R228-R239). -/
structure RefSettings where
  /-- R239 REF_ENABLE. -/
  enable : Bool := true
  /-- R239. -/
  latency : Nat := 0
  /-- R239. -/
  sigma : F32 := 0
  /-- R239. -/
  gate : F32 := 0
  /-- R239 REFINE_CONTROL. -/
  freeze : Bool := false
  /-- R228, R239 REFINEMENT b or beta. -/
  b : List F64 := [0, 0, 0]
  /-- R228 the constant NED offset of the fit. -/
  c : F64 × F64 := (0, 0)
  /-- R230 last reported refinement. -/
  reported : List F64 := [0, 0, 0]
  /-- R228 the LEVER estimate of a SATELLITE HDG slice. -/
  lever : List F64 := [0, 0, 0]
  /-- R230 the LEVER estimate last reported. -/
  leverReported : List F64 := [0, 0, 0]
  /-- R228. -/
  headings : List (Nat × F64) := []
  /-- R239 REF_OFFSET. -/
  offset : F64 × F64 := (0, 0)
  /-- R239. -/
  twDepth : F32 := 0x42C80000
  /-- R235, R239. -/
  targetPose : F64 × F64 × F32 := (0, 0, 0)
  /-- R239 ASSOC_RESULT. -/
  assocCount : Nat := 0
  /-- R239 ASSOC_RESULT. -/
  assocN : Nat := 0
  /-- R239 ASSOC_RESULT. -/
  assoc : List (BitVec 8) := List.replicate 16 0xFF
  /-- R256 the first sample is checked. -/
  gateFirst : Bool := false
  /-- R254. -/
  rejectRun : Nat := 0
  deriving DecidableEq, Repr, Inhabited

/-- One history entry of the observer (R258). -/
structure HistoryEntry where
  /-- R258 t_j. -/
  at_ : Nat := 0
  /-- R258. -/
  x : List F64 := []
  /-- R258. -/
  p : List F64 := []
  /-- R258. -/
  phi : List F64 := []
  /-- R258 inputs used at the time. -/
  thrust : List (Nat × List F64) := []
  /-- R258. -/
  wind : List F64 := [0, 0, 0]
  deriving DecidableEq, Repr, Inhabited

/-- The observer's state, dead reckoning and status (R244-R279). -/
structure ObserverState where
  /-- R274 STATE. -/
  state : BitVec 2 := 0
  /-- R250 time of the state. -/
  at_ : Nat := 0
  /-- R244. -/
  x : List F64 := []
  /-- R246, R276. -/
  p : List F64 := []
  /-- R249. -/
  thrust : List F64 := [0, 0, 0]
  /-- R247. -/
  wind : List F64 := [0, 0, 0]
  /-- R248, R274. -/
  windMissing : Bool := false
  /-- R248 fusion has supplied a wind since the start. -/
  windSeen : Bool := false
  /-- R266, R274. -/
  posDr : Bool := false
  /-- R266, R274. -/
  hdgDr : Bool := false
  /-- R269, R274. -/
  limitReached : Bool := false
  /-- R252, R274. -/
  overrun : Bool := false
  /-- R274. -/
  tight : Bool := false
  /-- R263, R274. -/
  clockActive : Bool := false
  /-- R263. -/
  deltaInit : List Bool := [false, false, false]
  /-- R255, R274. -/
  rejectRunPos : Nat := 0
  /-- R255. -/
  rejectRunHdg : Nat := 0
  /-- R265. -/
  rejectRunRaw : Nat := 0
  /-- R277 the next estimate follows a restart. -/
  resume : Bool := false
  /-- R268, R276. -/
  sigmaP0 : F64 := 0
  /-- R268, R276. -/
  sigmaV0 : F64 := 0
  /-- R268, R276. -/
  drA : F64 := 0
  /-- R266, R268, R276. -/
  lastPosAt : Nat := 0
  /-- R266. -/
  lastHdgAt : Nat := 0
  /-- R263. -/
  lastRawAt : Nat := 0
  /-- R204. -/
  entered : List (Nat × Nat) := []
  deriving DecidableEq, Repr, Inhabited

/-- What R262 takes from an earlier epoch of a receiver. -/
structure EpochTrack where
  /-- R262 whose receiver. -/
  member : Nat := 0
  /-- R262 RXT. -/
  rxt : Nat := 0
  /-- R262 the channels with CP_VALID. -/
  phases : List (Nat × F64) := []
  deriving DecidableEq, Repr, Inhabited

/-- What the observer publishes (R271-R273). -/
structure ObsOutput where
  /-- R273 t_k + C. -/
  estAt : Nat := 0
  /-- R271, R273. -/
  estX : List F64 := []
  /-- R271. -/
  estP : List F64 := []
  /-- R268, R273. -/
  posSigmaMajor : F64 := 0
  /-- R273. -/
  posSigmaMinor : F64 := 0
  /-- R273. -/
  majorDir : F64 := 0
  /-- R273. -/
  hdgSigma : F64 := 0
  /-- R273. -/
  velSigma : F64 := 0
  /-- R273. -/
  yawSigma : F64 := 0
  /-- R268, R273. -/
  biasSigmaNow : F64 := 0
  /-- R269. -/
  timeToLimit : F32 := 0x7F800000
  /-- R273. -/
  posUpdates : Nat := 0
  /-- R273. -/
  hdgUpdates : Nat := 0
  /-- R273. -/
  rawUpdates : Nat := 0
  /-- R254, R273. -/
  gateRejects : Nat := 0
  /-- R255, R273. -/
  resets : Nat := 0
  /-- R258, R273. -/
  delayedUpdates : Nat := 0
  /-- R273 OBS_FORCES t_k. -/
  forcesAt : Nat := 0
  /-- R249, R274. -/
  commandMask : BitVec 16 := 0
  /-- R249. -/
  zeroMask : BitVec 16 := 0
  /-- R273. -/
  forces : List (F32 × F32) := List.replicate 16 (0, 0)
  /-- R269 LIMIT_REACHED event raised. -/
  raised : Bool := false
  /-- R262. -/
  epochs : List EpochTrack := []
  deriving DecidableEq, Repr, Inhabited

/-- The law's RW parameters of R313. -/
structure LawParams where
  /-- R313. -/
  joyTimeout : Nat := 500
  /-- R313 JOY_FLAGS. -/
  windComp : Bool := true
  /-- R313. -/
  qPosAlong : F32 := 0x3F800000
  /-- R313. -/
  qPosAcross : F32 := 0x3F800000
  /-- R313. -/
  qHdg : F32 := 0x43C80000
  /-- R313. -/
  qVel : F32 := 0x40000000
  /-- R313. -/
  qYawrate : F32 := 0x44FA0000
  /-- R313. -/
  wEffort : F32 := 0x3C23D70A
  /-- R313. -/
  wChange : F32 := 0x40A00000
  /-- R313. -/
  wForce : F32 := 0x42C80000
  /-- R313. -/
  terminalFactor : F32 := 0x41200000
  /-- R313. -/
  powerSlackWeight : F32 := 0x3A83126F
  /-- R313. -/
  stepMult : Nat := 25
  /-- R313. -/
  preferredHorizon : Vector Nat 4 := .replicate 4 40
  /-- R313. -/
  refSpeed : F32 := 0x3E99999A
  /-- R313. -/
  refAccel : F32 := 0x3CA3D70A
  /-- R313. -/
  refYawRate : F32 := 0x3C8B4396
  /-- R313. -/
  refYawAccel : F32 := 0x3B03126F
  /-- R313. -/
  windFfTau : F32 := 0x40000000
  /-- R313. -/
  setpointStepMax : F32 := 0x42480000
  /-- R313. -/
  posAlarmRadius : F32 := 0x40400000
  /-- R313. -/
  hdgAlarmAngle : F32 := 0x3D4CCCCD
  /-- R313. -/
  azHoldFraction : F32 := 0x3C23D70A
  deriving DecidableEq, Repr, Inhabited

/-- The available-power objects and their state (R294, R295, R313). -/
structure LawPower where
  /-- R294, R313. -/
  available : F32 := 0
  /-- R294. -/
  writtenAt : Option Nat := none
  /-- R313. -/
  point : BitVec 16 := 0xFFFF
  /-- R313. -/
  timeout : Nat := 2000
  /-- R313. -/
  fallback : F32 := 0xBF800000
  /-- R313. -/
  margin : F32 := 0x3D4CCCCD
  /-- R294, R313 P_lim used. -/
  pLim : F32 := 0x7F800000
  /-- R293, R313. -/
  truePower : F32 := 0
  /-- R313. -/
  linPower : F32 := 0
  /-- R313 s_0. -/
  slack0 : F32 := 0
  /-- R313 POWER_STATE t_k + C. -/
  stateAt : Nat := 0
  /-- R294 newest valid sample of each point, of which POWER_POINT names one. -/
  heard : List (Nat × Nat × F32) := []
  /-- R293 the power lines of step 0 in the last Build. -/
  lines : List (Nat × F64 × (F64 × F64) × F64) := []
  /-- R294, R314. -/
  stale : Bool := false
  /-- R295, R314. -/
  active : Bool := false
  /-- R295 the constraint binds in the last cycle. -/
  bindingNow : Bool := false
  /-- R295. -/
  releasedCycles : Nat := 0
  /-- R295 releasedCycles before the present cycle. -/
  releasedBase : Nat := 0
  deriving DecidableEq, Repr, Inhabited

/-- A waypoint record (R304). -/
structure Waypoint where
  /-- R304. -/
  north : F64 := 0
  /-- R304. -/
  east : F64 := 0
  /-- R304. -/
  speed : F32 := 0
  /-- R304. -/
  heading : F32 := 0
  /-- R304. -/
  flags : BitVec 8 := 0
  deriving DecidableEq, Repr, Inhabited

/-- The tracked target (R306). -/
structure TargetState where
  /-- R306, R313. -/
  stamp : Nat := 0
  /-- R306. -/
  n : F64 := 0
  /-- R306. -/
  e : F64 := 0
  /-- R306. -/
  vn : F32 := 0
  /-- R306. -/
  ve : F32 := 0
  /-- R306. -/
  psi : F64 := 0
  /-- R306. -/
  yawRate : F32 := 0
  deriving DecidableEq, Repr, Inhabited

/-- TRACK: paths, target and progress (R303-R307). -/
structure TrackState where
  /-- R303, R313 TRACK_SOURCE. -/
  source : Bool := false
  /-- R304. -/
  staged : List Waypoint := []
  /-- R304 COUNT. -/
  stagedCount : BitVec 8 := 0
  /-- R304, R317. -/
  path : Option (List Waypoint) := none
  /-- R306, R317. -/
  target : Option TargetState := none
  /-- R313. -/
  targetTimeout : Nat := 5000
  /-- R313 TRACK_OFFSET. -/
  offset : List F32 := [0, 0, 0]
  /-- R313. -/
  xteLimit : F32 := 0x40A00000
  /-- R313 TRACK_PROGRESS. -/
  leg : Nat := 0
  /-- R313. -/
  reached : Nat := 0
  /-- R313. -/
  along : F64 := 0
  /-- R304 where the reference leaves toward waypoint 0. -/
  startN : F64 := 0
  /-- R304. -/
  startE : F64 := 0
  /-- R307, R314. -/
  lost : Bool := false
  /-- R305, R314. -/
  paused : Bool := false
  /-- R305, R314. -/
  ended : Bool := false
  deriving DecidableEq, Repr, Inhabited

/-- The law's per-thruster objects (R315, R316). -/
structure ThrusterLaw where
  /-- R315. -/
  enable : Bool := true
  /-- R315. -/
  limit : F32 := 0x3F800000
  /-- R316. -/
  inVariant : Bool := false
  /-- R316. -/
  available : Bool := false
  /-- R316. -/
  safOff : Bool := false
  /-- R316, R290 FEEDBACK_LOST active. -/
  noFeedback : Bool := false
  /-- R292, R316. -/
  inSector : Bool := false
  /-- R316. -/
  azHeld : Bool := false
  /-- R316. -/
  atEdge : Bool := false
  /-- R312. -/
  edgeCycles : Nat := 0
  /-- R315 THR_COMMAND. -/
  cmdAt : Nat := 0
  /-- R315. -/
  fx : F32 := 0
  /-- R315. -/
  fy : F32 := 0
  /-- R310, R315. -/
  cmd : ThrusterSet := {}
  /-- R315. -/
  power : F32 := 0
  /-- R315. -/
  result : BitVec 8 := 0
  /-- R249 the instant a safety function removed the enable. -/
  offAt : Option Nat := none
  /-- R291 measured azimuth. -/
  measured : Option (Nat × F32) := none
  /-- R249. -/
  shaft : Option (Nat × F32) := none
  /-- R249. -/
  pitchRatio : Option (Nat × F32) := none
  deriving DecidableEq, Repr, Inhabited

/-- The station-keeping law (R280-R317). -/
structure LawState where
  /-- R313. -/
  params : LawParams := {}
  /-- R313. -/
  power : LawPower := {}
  /-- R303. -/
  track : TrackState := {}
  /-- R315. -/
  thr : Vector ThrusterLaw 16 := .replicate 16 {}
  /-- R314 LAW_MODE. -/
  lawMode : BitVec 4 := 0
  /-- R314 VARIANT. -/
  variant : Option Nat := none
  /-- R299, R313. -/
  setN : F64 := 0
  /-- R299, R313. -/
  setE : F64 := 0
  /-- R299, R313. -/
  setPsi : F64 := 0
  /-- R313 SETPOINT t_k + C. -/
  setAt : Nat := 0
  /-- R298, R313. -/
  originLat : F64 := 0
  /-- R298, R313. -/
  originLon : F64 := 0
  /-- R298, R313. -/
  originH : F64 := 0
  /-- R298, R314. -/
  originValid : Bool := false
  /-- R309, R313. -/
  joy : List F32 := [0, 0, 0]
  /-- R309 last write. -/
  joyAt : Nat := 0
  /-- R309, R314. -/
  joyStale : Bool := false
  /-- R313. -/
  pending : List SettingWrite := []
  /-- R302, R314. -/
  posAlarm : Bool := false
  /-- R302, R314. -/
  hdgAlarm : Bool := false
  /-- R300, R314. -/
  settled : Bool := false
  /-- R312, R314. -/
  saturated : Bool := false
  /-- R285 first cycle after an entry, variant change or reset. -/
  freshEntry : Bool := false
  /-- R308 first problem of a positioning mode. -/
  entered : Bool := false
  deriving DecidableEq, Repr, Inhabited

/-- The reference model, filters and kept trajectories (R285-R308). -/
structure LawDynamics where
  /-- R300, R313 REFERENCE. -/
  refN : F64 := 0
  /-- R300. -/
  refE : F64 := 0
  /-- R300. -/
  refPsi : F64 := 0
  /-- R300, R313. -/
  refVn : F64 := 0
  /-- R300, R313. -/
  refVe : F64 := 0
  /-- R300, R313. -/
  refR : F64 := 0
  /-- R286, R287. -/
  windFilter : Option (List F64) := none
  /-- R285 linearisation trajectory of the last Build. -/
  lin : List (List F64) := []
  /-- R285, R342 predicted state trajectory of the last plan. -/
  trajectory : List (List F64) := []
  deriving DecidableEq, Repr, Inhabited

/-- A job of the solver queue (R326). -/
structure SolverJob where
  /-- R326 JOB_TYPE. -/
  check : Bool := false
  /-- R326. -/
  variant : Nat := 0
  /-- R326. -/
  full : Bool := false
  /-- R326. -/
  startCold : Bool := false
  /-- R326. -/
  startMapped : Bool := false
  /-- R326. -/
  fromVariant : Nat := 0xFF
  /-- R326. -/
  cycle : Nat := 0
  /-- R326. -/
  deadline : Nat := 0
  /-- R326. -/
  entries : List ChangeEntry := []
  deriving DecidableEq, Repr, Inhabited

/-- An interior-point iterate (R333, R337). -/
structure Iterate where
  /-- R333. -/
  x : List F64 := []
  /-- R333. -/
  y : List F64 := []
  /-- R333. -/
  s : List F64 := []
  /-- R333. -/
  z : List F64 := []
  /-- R337. -/
  merit : F64 := 0
  /-- R337. -/
  ratios : List F64 := [0, 0, 0]
  deriving DecidableEq, Repr, Inhabited

/-- The plan applied by a cycle (R346). -/
structure Plan where
  /-- R346. -/
  variant : Nat := 0
  /-- R346. -/
  thrust : List (List (F64 × F64)) := []
  /-- R342. -/
  states : List (List F64) := []
  deriving DecidableEq, Repr, Inhabited

/-- The resident values of the variant in use (R318, R327). -/
structure ProblemValues where
  /-- R318, R327. -/
  kkt : List (Nat × F64) := []
  /-- R318. -/
  q : List (Nat × F64) := []
  /-- R318. -/
  rhs : List (Nat × F64) := []
  /-- R318. -/
  lower : List (Nat × F64) := []
  /-- R318. -/
  upper : List (Nat × F64) := []
  /-- R326 TARGET 5. -/
  start : List (Nat × F64) := []
  deriving DecidableEq, Repr, Inhabited

/-- SOL: its queue, its job and its result (R318-R361). -/
structure SolverState where
  /-- R44. -/
  queue : List SolverJob := []
  /-- R359 BUSY. -/
  running : Option SolverJob := none
  /-- R360 SOLVE_TIME. -/
  startedAt : Nat := 0
  /-- R333. -/
  cur : Iterate := {}
  /-- R359 ITERATIONS. -/
  iter : Nat := 0
  /-- R337 best of 1 to i_last. -/
  best : Option Iterate := none
  /-- R337 best of 1 to i_last - 1. -/
  bestBefore : Option Iterate := none
  /-- R337. -/
  startIterate : Option Iterate := none
  /-- R327. -/
  values : ProblemValues := {}
  /-- R359 VARIANT. -/
  resident : Option Nat := none
  /-- R359. -/
  valuesInvalid : Bool := true
  /-- R339. -/
  kept : Option (Nat × Iterate × Bool) := none
  /-- R346. -/
  plan : Option Plan := none
  /-- R343. -/
  stopped : Option SolveReport := none
  /-- R344. -/
  peers : List (Nat × SolveReport) := []
  /-- R328 values last sent. -/
  lastSent : ProblemValues := {}
  /-- R328. -/
  needFull : Bool := true
  deriving DecidableEq, Repr, Inhabited

/-- What an estimate step begins from, to which an overrun returns (R252). -/
structure EstEntry where
  /-- R252. -/
  obs : ObserverState := {}
  /-- R252. -/
  obsOut : ObsOutput := {}
  /-- R252. -/
  history : List HistoryEntry := []
  /-- R252, R254 the runs of rejections. -/
  sets : Vector RefSettings 24 := .replicate 24 {}
  /-- R252. -/
  law : LawState := {}
  /-- R252. -/
  dyn : LawDynamics := {}
  /-- R252. -/
  sol : SolverState := {}
  deriving DecidableEq, Repr, Inhabited

/-- The station-keeping cycle, its alignment buffer and the command snapshot (R29-R45). -/
structure CycleState where
  /-- R30 CYCLE_COUNT. -/
  count : Nat := 0
  /-- R474 step 7. -/
  ticking : Bool := false
  /-- R31. -/
  tk : Nat := 0
  /-- R31, R104, R479. -/
  nextTick : Nat := 0
  /-- R32. -/
  released : Bool := true
  /-- R35. -/
  releasedAt : Nat := 0
  /-- R44 alignment buffer. -/
  buffer : List Sample := []
  /-- R203 held late samples. -/
  held : List Sample := []
  /-- R44. -/
  slots : List Sample := []
  /-- R44 samples of the parsers that wait in their stores. -/
  waiting : List Sample := []
  /-- R44 parsers stopped. -/
  stopped : Bool := false
  /-- R35 input frame. -/
  frame : List Sample := []
  /-- R203, R205 folded late samples. -/
  late : List Sample := []
  /-- R35. -/
  frameDone : Bool := true
  /-- R250, R252. -/
  estDone : Bool := true
  /-- R252 what the estimate step of this cycle began from. -/
  estEntry : Option EstEntry := none
  /-- R36, R42. -/
  front : Snapshot := {}
  /-- R36, R37, R42. -/
  back : Option Snapshot := none
  /-- R445. -/
  seqWritten : BitVec 16 := 0
  /-- R384. -/
  flipsMissed : Nat := 0
  /-- R384. -/
  staleRaised : Bool := false
  /-- R37. -/
  commandLate : Bool := false
  /-- R36 Accept. -/
  acceptDone : Bool := true
  /-- R36 the command instant of the cycle has passed. -/
  instantDone : Bool := true
  /-- R249, R468 last applied set-points. -/
  applied : List ThrusterSet := []
  /-- R246, R291 command instant at which they took effect. -/
  appliedAt : Nat := 0
  /-- R246 set-points in force before that instant. -/
  appliedBefore : List ThrusterSet := []
  deriving DecidableEq, Repr, Inhabited

/-- One slot of the structure store (R59). -/
structure SlotImage where
  /-- R59, R60. -/
  bytes : List Byte := []
  deriving DecidableEq, Repr, Inhabited

/-- The structure store and the loaded structure (R57-R85). -/
structure ImageState where
  /-- R59. -/
  pending : SlotImage := {}
  /-- R59. -/
  active : SlotImage := {}
  /-- R59. -/
  previous : SlotImage := {}
  /-- R57, R63. -/
  loaded : Option Structure := none
  /-- R63. -/
  digest : List Byte := List.replicate 48 0
  /-- R61, R63, R565. -/
  verifying : Option CommitJob := none
  /-- R63, R82. -/
  inactive : List (BitVec 32) := []
  deriving DecidableEq, Repr, Inhabited

/-- One disciplined time base TB1-TB3, or TB0 with its discipline unused (R86-R102). -/
structure TimeBase where
  /-- R22, R86. -/
  count : Nat := 0
  /-- R87. -/
  frac : Int := 0
  /-- R92, R98 last disciplined rate over the oscillator. -/
  rate : Int := 0
  /-- R92, R94 STATE. -/
  state : BitVec 2 := 0
  /-- R94 SOURCE. -/
  source : BitVec 8 := 0
  /-- R94 DOMAIN. -/
  domain : BitVec 8 := 0
  /-- R94. -/
  neverLocked : Bool := true
  /-- R94, R101. -/
  stepPending : Bool := false
  /-- R94, R101. -/
  slewing : Bool := false
  /-- R95 TBn_OFFSET. -/
  offset : Int := 0
  /-- R101 offset still to slew or step. -/
  remaining : Int := 0
  /-- R98. -/
  u0 : Nat := 0
  /-- R98 tau. -/
  lossAt : Option Nat := none
  /-- R98, R621 coefficients of the holdover in progress. -/
  f : F32 := 0
  /-- R98, R621. -/
  a : F32 := 0
  /-- R95. -/
  holdoverLimit : BitVec 32 := 1000000
  /-- R93 measurements in the lock window. -/
  goodRun : Nat := 0
  /-- R89 TB3 has a source. -/
  sourced : Bool := false
  /-- R89, R93. -/
  lockedSince : Option Nat := none
  deriving DecidableEq, Repr, Inhabited

/-- A capture unit CAPm (R106-R108). -/
structure CaptureUnit where
  /-- R107. -/
  input : BitVec 8 := 0
  /-- R107. -/
  base : BitVec 2 := 0
  /-- R107. -/
  edge : BitVec 2 := 0
  /-- R107. -/
  en : Bool := false
  /-- R108, R112 raw stamps in the hardware FIFO. -/
  hw : List (BitVec 32) := []
  /-- R108, R112 stamps extended. -/
  stamps : List Nat := []
  /-- R108. -/
  overrun : Nat := 0
  deriving DecidableEq, Repr, Inhabited

/-- A compare unit CMPm (R109-R111). -/
structure CompareUnit where
  /-- R110. -/
  target : Nat := 0
  /-- R110. -/
  width : BitVec 8 := 0
  /-- R110. -/
  line : BitVec 3 := 0
  /-- R110. -/
  action : BitVec 2 := 0
  /-- R110. -/
  period : BitVec 12 := 0
  /-- R110. -/
  base : BitVec 2 := 0
  /-- R110. -/
  fired : Bool := false
  /-- R110. -/
  en : Bool := false
  /-- R111 TARGET last acted at. -/
  actedAt : Option Nat := none
  /-- R87, R111 grid edge of the last action. -/
  edgeAt : Option Nat := none
  deriving DecidableEq, Repr, Inhabited

/-- A two-step residence of the transparent clock (R116). -/
structure ResidenceEntry where
  /-- R116. -/
  key : PtpKey := default
  /-- R116. -/
  residence : Int := 0
  /-- R116. -/
  madeAt : Nat := 0
  deriving DecidableEq, Repr, Inhabited

/-- TB1's slave-only ordinary clock (R117). -/
structure PtpSlave where
  /-- R117. -/
  candidates : List PtpAnnounce := []
  /-- R93, R117. -/
  master : Option PtpAnnounce := none
  /-- R117. -/
  syncPort : BitVec 8 := 0xFF
  /-- R93. -/
  lastSync : Option Nat := none
  /-- R93, R117 logSyncInterval of the last Sync. -/
  syncLog : Int := 0
  /-- R93. -/
  lastAnnounce : Option Nat := none
  /-- R117. -/
  twoStep : Option PtpSync := none
  /-- R117. -/
  syncRx : Option (Int × Int) := none
  /-- R117. -/
  delaySent : Option (BitVec 16 × Int) := none
  /-- R117 logMinDelayReqInterval. -/
  delayLog : Int := 0
  /-- R117 last Delay_Req. -/
  delayAt : Option Nat := none
  /-- R117. -/
  delayReqSeq : BitVec 16 := 0
  /-- R117. -/
  pathDelay : Int := 0
  /-- R117. -/
  sentDelayReqs : Nat := 0
  deriving DecidableEq, Repr, Inhabited

/-- TIM: the four bases, PTP, PPS, capture and compare (R86-R123). -/
structure TimeState where
  /-- R86. -/
  tb : Vector TimeBase 4 := .replicate 4 {}
  /-- R117. -/
  ptp : PtpSlave := {}
  /-- R116. -/
  residences : List ResidenceEntry := []
  /-- R95. -/
  ptpDomain : BitVec 8 := 0
  /-- R95. -/
  ptpPorts : BitVec 5 := 0x1F
  /-- R95. -/
  tb2Source : BitVec 8 := 0
  /-- R95. -/
  tb2Sentence : BitVec 16 := 0xFFFF
  /-- R95. -/
  ppsInDelay : Int := 0
  /-- R95. -/
  taiUtc : Int := 37
  /-- R95. -/
  leapNext : Int := 0
  /-- R95. -/
  leapAt : Nat := 0
  /-- R97, R155. -/
  utcProvided : Bool := false
  /-- R95. -/
  linkAsym : Vector Int 2 := .replicate 2 0
  /-- R119. -/
  ppsWidth : BitVec 16 := 100
  /-- R119. -/
  ppsPolarity : Bool := false
  /-- R119. -/
  ppsMode : BitVec 2 := 2
  /-- R120. -/
  lastPulse : Option Nat := none
  /-- R119, R120 on-time edge of the last pulse emitted. -/
  ppsOn : Option Nat := none
  /-- R119 width of that pulse. -/
  ppsOnWidth : Nat := 0
  /-- R120, R122. -/
  lastPulseSecond : Nat := 0
  /-- R122 STEPPED. -/
  tb2Stepped : Bool := false
  /-- R95 OVEN_STATUS. -/
  ovenStatus : BitVec 8 := 0
  /-- R109. -/
  compares : Vector CompareUnit 8 := .replicate 8 {}
  /-- R123 last accepted edge. -/
  ppsEdge : Option Nat := none
  /-- R123. -/
  ppsRun : Nat := 0
  /-- R93 consecutive labelled edges. -/
  ppsLabelled : Nat := 0
  /-- R93, R123 the edge labelled last. -/
  ppsLabelledEdge : Option Nat := none
  /-- R93, R123 last valid time sentence. -/
  lastSentence : Option Nat := none
  /-- R123. -/
  ppsLostRaised : Bool := false
  /-- R93, R153. -/
  timeSolutionSince : Option Nat := none
  deriving DecidableEq, Repr, Inhabited

/-- An antenna supply (R131). -/
structure AntSupply where
  /-- R131. -/
  en : Bool := true
  /-- R131. -/
  status : BitVec 2 := 0
  /-- R131. -/
  current : BitVec 16 := 0
  /-- R131 last switched on, off or tried. -/
  switchedAt : Nat := 0
  deriving DecidableEq, Repr, Inhabited

/-- A tracking channel (R139-R142). -/
structure Channel where
  /-- R142. -/
  system : BitVec 8 := 0
  /-- R142. -/
  sv : BitVec 8 := 0
  /-- R142. -/
  signal : BitVec 8 := 0
  /-- R142. -/
  antenna : BitVec 1 := 0
  /-- R139. -/
  state : BitVec 2 := 0
  /-- R142. -/
  cn0 : BitVec 8 := 0
  /-- R142 lock time. -/
  lockedAt : Nat := 0
  /-- R139, R141. -/
  enteredAt : Nat := 0
  /-- R141, R145. -/
  slip : Bool := false
  /-- R137, R142. -/
  elevation : F32 := 0
  /-- R142 passes the masks. -/
  pass : Bool := false
  /-- R125, R145. -/
  gloK : BitVec 8 := 0
  deriving DecidableEq, Repr, Inhabited

/-- A job of the carousel (R135-R138). -/
structure SearchJob where
  /-- R136 0 reacq 1 HOT 2 WARM 3 COLD. -/
  kind : BitVec 2 := 0
  /-- R135. -/
  target : SignalId := default
  /-- R137. -/
  elevation : F32 := 0
  /-- R137. -/
  channel : Option Nat := none
  /-- R135. -/
  confirming : Bool := false
  /-- R138. -/
  failures : Nat := 0
  /-- R135, R136 passes left of the search. -/
  passes : Nat := 1
  /-- R135 GLONASS frequency channel. -/
  gloK : BitVec 8 := 0
  deriving DecidableEq, Repr, Inhabited

/-- An adaptive notch (R147-R152). -/
structure Notch where
  /-- R152. -/
  active : Bool := false
  /-- R152. -/
  atLimit : Bool := false
  /-- R152. -/
  depth : BitVec 6 := 0
  /-- R152. -/
  centre : Int := 0
  /-- R147. -/
  belowSince : Option Nat := none
  /-- R147 where its peak was last seen. -/
  peakAt : Int := 0
  deriving DecidableEq, Repr, Inhabited

/-- A GNSS front end (R124, R147-R152). -/
structure FrontEnd where
  /-- R152. -/
  jamThreshold : BitVec 8 := 0x28
  /-- R152. -/
  notchThreshold : BitVec 8 := 0x0F
  /-- R152. -/
  notchMax : BitVec 3 := 4
  /-- R152. -/
  windowLo : Int := -2500
  /-- R152. -/
  windowHi : Int := 2500
  /-- R152. -/
  notches : Vector Notch 4 := .replicate 4 {}
  /-- R150, R152. -/
  jam : Nat := 0
  /-- R151. -/
  jamHigh : Bool := false
  /-- R149 peaks without a notch, reported. -/
  refused : List Int := []
  deriving DecidableEq, Repr, Inhabited

/-- The internal GNSS receiver (R124-R161). -/
structure GnssState where
  /-- R129. -/
  config : BitVec 32 := 0x0000033F
  /-- R128. -/
  elevMask : F32 := 0x3E32B021
  /-- R128. -/
  cn0Mask : F32 := 0x41F00000
  /-- R128. -/
  epochOffset : BitVec 8 := 5
  /-- R133. -/
  offsetWritten : Bool := false
  /-- R128. -/
  searchBin : BitVec 16 := 250
  /-- R128. -/
  searchDwell : BitVec 16 := 0x010A
  /-- R128. -/
  coldSpan : BitVec 16 := 6000
  /-- R128. -/
  reacqWindow : BitVec 8 := 10
  /-- R128. -/
  antBaseline : Vector F32 3 := .replicate 3 0
  /-- R131. -/
  supplies : Vector AntSupply 2 := .replicate 2 {}
  /-- R132. -/
  rxt : Nat := 0
  /-- R132 first fix made. -/
  rxtFixed : Bool := false
  /-- R144. -/
  epochSeq : Nat := 0
  /-- R133. -/
  lastEpoch : Option Nat := none
  /-- R133. -/
  epochAt : Option Nat := none
  /-- R132, R144 flags of the next header. -/
  jumpFlags : BitVec 3 := 0
  /-- R132 milliseconds RXT has moved since GNB start. -/
  msShift : Int := 0
  /-- R143. -/
  dropped : Bool := false
  /-- R144. -/
  tb2SteppedSince : Bool := false
  /-- R44, R143. -/
  fifo : List Sample := []
  /-- R139. -/
  channels : Vector Channel 256 := .replicate 256 {}
  /-- R137. -/
  jobs : List SearchJob := []
  /-- R135. -/
  engines : Vector (Option SearchJob) 8 := .replicate 8 none
  /-- R137 this sweep uses the other antenna. -/
  sweepOther : Bool := false
  /-- R138. -/
  handovers : List SearchJob := []
  /-- R130 CHANNEL_SHORTAGE, R142. -/
  wanting : List SearchJob := []
  /-- R161. -/
  predictions : List SearchJob := []
  /-- R130, R156. -/
  timeSystemInUse : BitVec 2 := 0
  /-- R156. -/
  heldOffset : F64 := 0
  /-- R153 last 3D height. -/
  height3d : F64 := 0
  /-- R130. -/
  satsInFix : Nat := 0
  /-- R130, R153. -/
  fixType : BitVec 3 := 0
  /-- R153. -/
  last3d : Option Nat := none
  /-- R93, R153 last epoch with a time solution. -/
  lastSolution : Option Nat := none
  /-- R154. -/
  pvt : Pvt := default
  /-- R159. -/
  heading : GnssHeading := default
  /-- R157. -/
  sysOffsets : Vector SysOffset 4 := .replicate 4 default
  /-- R136, R161. -/
  ephemerides : List (Orbit × Nat) := []
  /-- R136, R161. -/
  almanacs : List Orbit := []
  /-- R137, R141. -/
  elevations : List (BitVec 8 × BitVec 8 × F32) := []
  /-- R157. -/
  broadcast : List (BroadcastOffset × Nat) := []
  /-- R155, R161. -/
  utcHeld : List (UtcParams × Nat) := []
  /-- R97, R155. -/
  utcFrom : Option (BitVec 2) := none
  /-- R124. -/
  frontEnds : Vector FrontEnd 4 := .replicate 4 {}
  deriving DecidableEq, Repr, Inhabited

/-- A user calibration copy: gain, offset, table (R177, R178). -/
structure UserCal where
  /-- R178, R184. -/
  gain : F32 := 0x3F800000
  /-- R178, R184. -/
  offset : F32 := 0
  /-- R177, R184 N. -/
  count : BitVec 8 := 0
  /-- R184. -/
  pairs : List (F32 × F32) := List.replicate 8 (0, 0)
  deriving DecidableEq, Repr, Inhabited

/-- The CIC decimator and FIR of one channel (R163-R168). -/
structure AinChain where
  /-- R163, R164. -/
  integ : Vector (BitVec 80) 4 := .replicate 4 0
  /-- R163, R164. -/
  comb : Vector (BitVec 80) 4 := .replicate 4 0
  /-- R163 modulator samples since the last decimation. -/
  phase : Nat := 0
  /-- R165. -/
  fir : List (BitVec 32) := []
  /-- R168 outputs still to carry SETTLING. -/
  settling : Nat := 6
  deriving DecidableEq, Repr, Inhabited

/-- An analog channel AI0-AI15 or AUX0-AUX7 (R162-R186). -/
structure AinChannel where
  /-- R185. -/
  pointId : BitVec 16 := 0xFFFF
  /-- R185. -/
  rate : BitVec 4 := 5
  /-- R185. -/
  range : BitVec 2 := 0
  /-- R185. -/
  scs : Bool := false
  /-- R185. -/
  dcEn : Bool := false
  /-- R78, R181. -/
  dcCutoff : F32 := 0
  /-- R185. -/
  active : Bool := false
  /-- R163. -/
  chain : AinChain := {}
  /-- R169, R184. -/
  stamp : Nat := 0
  /-- R169. -/
  stamp0 : Nat := 0
  /-- R171 the two previous stamps. -/
  prevStamps : List Nat := []
  /-- R184. -/
  value : F32 := 0
  /-- R183. -/
  status : BitVec 8 := 0
  /-- R184. -/
  outputs : BitVec 24 := 0
  /-- R171, R172 last multiple delivered. -/
  deliveredM : Option Nat := none
  /-- R172 the delivery grid starts after it. -/
  gridFrom : Nat := 0
  /-- R181, R182. -/
  dcE : F32 := 0
  /-- R182. -/
  dcSet : Bool := false
  /-- R186. -/
  freeze : Bool := false
  /-- R182, R186 a preset is awaited. -/
  preset : Bool := false
  /-- R184 AI_COUNTERS. -/
  overRange : Nat := 0
  /-- R184 AI_COUNTERS. -/
  openWire : Nat := 0
  /-- R178. -/
  staged : UserCal := {}
  /-- R178. -/
  activeCal : UserCal := {}
  deriving DecidableEq, Repr, Inhabited

/-- AIN: the 24 channels and the two scanning AUX modulators. -/
structure AinState where
  /-- R184. -/
  channels : Vector AinChannel 24 := .replicate 24 {}
  /-- R174. -/
  auxAt : Vector (Fin 4) 2 := .replicate 2 0
  deriving DecidableEq, Repr, Inhabited

/-- A sample of a reference carried to the VRP (R191, R195, R207). -/
structure RefSample where
  /-- R191. -/
  stamp : Nat := 0
  /-- R207; the heading for a heading reference. -/
  n : F64 := 0
  /-- R207. -/
  e : F64 := 0
  /-- R195 sigma_eff. -/
  sigma : F32 := 0
  /-- R203. -/
  late : Bool := false
  deriving DecidableEq, Repr, Inhabited

/-- One reference PRS0-11, HDG0-3, MRU0-3 or WND0-3 (R215-R243). -/
structure RefState where
  /-- R215, R240. -/
  state : BitVec 4 := 1
  /-- R240. -/
  cause : BitVec 3 := 0
  /-- R240 CONSEC. -/
  consec : Nat := 0
  /-- R210, R240. -/
  noMotion : Bool := false
  /-- R196, R240. -/
  atEnvelope : Bool := false
  /-- R229, R240. -/
  refineAtBound : Bool := false
  /-- R229, R240 the LEVER estimate of a heading slice. -/
  leverAtBound : Bool := false
  /-- R240. -/
  lateInFrame : Bool := false
  /-- R224, R240. -/
  copySplit : Bool := false
  /-- R217 newest valid sample. -/
  newest : Option RefSample := none
  /-- R216. -/
  lastValidAt : Nat := 0
  /-- R203, R239. -/
  cntLate : Nat := 0
  /-- R203, R239. -/
  cntLateDropped : Nat := 0
  /-- R201, R239. -/
  cntSuperseded : Nat := 0
  /-- R200, R239. -/
  cntFuture : Nat := 0
  /-- R194, R239. -/
  cntInvalid : Nat := 0
  /-- R239 REF_RESIDUAL. -/
  resN : F32 := 0
  /-- R239 REF_RESIDUAL. -/
  resE : F32 := 0
  /-- R239 REF_RESIDUAL. -/
  resDist : F32 := 0
  /-- R239 REF_RESIDUAL. -/
  sigmaEff : F32 := 0
  /-- R222 valid samples in a row since it entered ADMITTING. -/
  validRun : Nat := 0
  /-- R222 CONSEC counts samples inside a consensus. -/
  inRun : Bool := false
  /-- R222 sum of m minus position. -/
  admitSum : F64 × F64 := (0, 0)
  /-- R222 ready for admission, with the offset it takes. -/
  admission : Option (F64 × F64) := none
  /-- R224 the copy last used. -/
  chosen : Nat := 0
  deriving DecidableEq, Repr, Inhabited

/-- Reference alignment and fusion (R189-R243). -/
structure FusionState where
  /-- R239. -/
  refs : Vector RefState 24 := .replicate 24 {}
  /-- R239. -/
  sets : Vector RefSettings 24 := .replicate 24 {}
  /-- R202, R275. -/
  pending : List SettingWrite := []
  /-- R242. -/
  posVoters : Nat := 0
  /-- R242. -/
  posGroups : Nat := 0
  /-- R242. -/
  posInside : Nat := 0
  /-- R242. -/
  posSole : Bool := false
  /-- R242. -/
  posValid : Bool := false
  /-- R242. -/
  hdgVoters : Nat := 0
  /-- R242. -/
  hdgGroups : Nat := 0
  /-- R242. -/
  hdgSole : Bool := false
  /-- R242. -/
  hdgValid : Bool := false
  /-- R221 cycles without a valid consensus. -/
  posNoConsensus : Nat := 0
  /-- R221. -/
  hdgNoConsensus : Nat := 0
  /-- R241 CONSENSUS. -/
  consensusAt : Nat := 0
  /-- R241. -/
  mN : F64 := 0
  /-- R241. -/
  mE : F64 := 0
  /-- R241. -/
  mPsi : F64 := 0
  /-- R241. -/
  quarantineCount : Nat := 3
  /-- R241. -/
  readmitCount : Nat := 100
  /-- R241. -/
  autoReadmit : Bool := true
  /-- R241. -/
  sigmaEnvelope : F32 := 0x41200000
  /-- R241. -/
  refineTau : Nat := 600
  /-- R241. -/
  admitCount : Nat := 10
  /-- R241. -/
  assocGate : F32 := 0x3F800000
  /-- R201. -/
  held : List Sample := []
  /-- R237, R241. -/
  windSelect : BitVec 8 := 0xFF
  deriving DecidableEq, Repr, Inhabited

/-- The wind that fusion supplies (R237, R247). -/
structure WindState where
  /-- R237. -/
  wind : Option (F32 × F32) := none
  /-- R237 no valid slice for 2 s. -/
  lastAt : Nat := 0
  /-- R210, R236. -/
  motion : List (Nat × Nat × F64 × F64) := []
  /-- R236. -/
  heave : F64 := 0
  /-- R237. -/
  windSamples : List (Nat × Nat × F64 × F64) := []
  deriving DecidableEq, Repr, Inhabited

/-- The observer's parameters 0x0210-0x0220 (R273). -/
structure ObsParams where
  /-- R273. -/
  waveFreq : F32 := 0x3F4CCCCD
  /-- R273. -/
  waveDamping : F32 := 0x3DCCCCCD
  /-- R273. -/
  waveSigma : F32 := 0x3F000000
  /-- R273. -/
  accelSigma : F32 := 0x3B03126F
  /-- R273. -/
  biasSigma : F32 := 0x469C4000
  /-- R273. -/
  biasTau : F32 := 0x447A0000
  /-- R273. -/
  gatePos : F32 := 0x415CCCCD
  /-- R273. -/
  gateScalar : F32 := 0x412CCCCD
  /-- R273. -/
  rejectLimit : Nat := 10
  /-- R273. -/
  drDelay : Nat := 1000
  /-- R273. -/
  drAccel : F32 := 0x3A03126F
  /-- R273. -/
  uncertaintyLimit : F32 := 0x40A00000
  /-- R273. -/
  airDensity : F32 := 0x3F9CCCCD
  /-- R273. -/
  tropoZenith : F32 := 0x4019999A
  /-- R273. -/
  dopplerSigma : F32 := 0x3D4CCCCD
  /-- R273. -/
  heightNoise : F32 := 0x3F000000
  /-- R273. -/
  clockNoise : F32 := 0x3DCCCCCD
  deriving DecidableEq, Repr, Inhabited

/-- The solver's objects and run counters (R349-R360). -/
structure SolverResult where
  /-- R359. -/
  result : BitVec 4 := 0xF
  /-- R359. -/
  stopReason : BitVec 4 := 0
  /-- R359. -/
  startKind : BitVec 2 := 0
  /-- R359. -/
  fallback : Bool := false
  /-- R359. -/
  degraded : Bool := false
  /-- R359. -/
  successRun : Nat := 0
  /-- R349. -/
  consecNet : Nat := 0
  /-- R349. -/
  netRun : Nat := 0
  /-- R360. -/
  time : Nat := 0
  /-- R360. -/
  cycle : Nat := 0
  /-- R360. -/
  flags : BitVec 8 := 0
  /-- R360. -/
  iterations : Nat := 0
  /-- R360. -/
  agreed : Nat := 0
  /-- R360. -/
  solveTime : Nat := 0
  /-- R360. -/
  residuals : List F32 := [0, 0, 0]
  /-- R360. -/
  violation : F32 := 0
  /-- R360. -/
  truePower : F32 := 0
  /-- R360. -/
  powerBound : F32 := 0
  /-- R360. -/
  objective : F64 := 0
  /-- R334, R360. -/
  staticPivots : Nat := 0
  /-- R358 SOL_COUNTERS. -/
  counters : Vector Nat 8 := .replicate 8 0
  /-- R358 CHECK_RESULT. -/
  checkAt : Nat := 0
  /-- R358. -/
  checkResult : BitVec 8 := 0
  deriving DecidableEq, Repr, Inhabited

/-- The solver's RW objects (R358). -/
structure SolverParams where
  /-- R358. -/
  fbBandwidth : F32 := 0x3D4CCCCD
  /-- R358. -/
  fbYawBandwidth : F32 := 0x3DA3D70A
  /-- R358. -/
  warmFloor : F64 := 0x3F1A36E2EB1C432D
  deriving DecidableEq, Repr, Inhabited

/-- A loop slot's coefficient objects (R374, R395). -/
structure SlotCoeffs where
  /-- R395. -/
  kp : F32 := 0
  /-- R395. -/
  ki : F32 := 0
  /-- R395. -/
  kd : F32 := 0
  /-- R369, R395. -/
  bq1 : List F32 := [0x3F800000, 0, 0, 0, 0]
  /-- R369, R395. -/
  bq2 : List F32 := [0x3F800000, 0, 0, 0, 0]
  /-- R395. -/
  ffGain : F32 := 0
  /-- R395. -/
  outMin : F32 := 0
  /-- R395. -/
  outMax : F32 := 0
  /-- R395. -/
  faultOutput : F32 := 0
  /-- R371, R395. -/
  followingLimit : F32 := 0
  /-- R371, R395. -/
  followingTime : Nat := 100
  deriving DecidableEq, Repr, Inhabited

/-- The running state of a loop slot (R362-R379). -/
structure LoopSlot where
  /-- R396 STATE. -/
  state : BitVec 3 := 0
  /-- R372 FEEDBACK_LOST is active for the slot. -/
  faulted : Bool := false
  /-- R396 SP_SOURCE. -/
  spSource : BitVec 4 := 0
  /-- R396. -/
  injecting : Bool := false
  /-- R396. -/
  outAtLimit : Bool := false
  /-- R367. -/
  clampSide : Bool := false
  /-- R370, R396. -/
  iAtLimit : Bool := false
  /-- R396. -/
  fbInvalid : Bool := false
  /-- R367 I. -/
  integ : F32 := 0
  /-- R369. -/
  d1 : F32 × F32 := (0, 0)
  /-- R369. -/
  d2 : F32 × F32 := (0, 0)
  /-- R367. -/
  fbPrev : F32 := 0
  /-- R395 SLOT_SIGNALS. -/
  lastAt : Nat := 0
  /-- R395. -/
  sp : F32 := 0
  /-- R368 last set-point. -/
  spPrev : F32 × Nat := (0, 0)
  /-- R368. -/
  spRate : F32 := 0
  /-- R395. -/
  fb : F32 := 0
  /-- R395. -/
  err : F32 := 0
  /-- R394 output before clamp. -/
  preClamp : F32 := 0
  /-- R395. -/
  out : F32 := 0
  /-- R378. -/
  hostSp : Option (F32 × Nat) := none
  /-- R376, R395 SLOT_HOLD. -/
  holdLeft : Nat := 0
  /-- R376 a hold whose end has not been reported. -/
  holding : Bool := false
  /-- R379 output at which the next running sample releases. -/
  release : Option F32 := none
  /-- R364 outer output before the newest. -/
  outPrev : F32 := 0
  deriving DecidableEq, Repr, Inhabited

/-- The run counters of a loop slot (R366-R372). -/
structure LoopCounts where
  /-- R370. -/
  clampedRun : Nat := 0
  /-- R370. -/
  unclampedRun : Nat := 0
  /-- R370 entered. -/
  loopLimit : Bool := false
  /-- R371. -/
  aboveRun : Nat := 0
  /-- R371. -/
  belowRun : Nat := 0
  /-- R371 entered. -/
  following : Bool := false
  /-- R372. -/
  invalidRun : Nat := 0
  /-- R372. -/
  validRun : Nat := 0
  /-- R395 SLOT_COUNTERS. -/
  overruns : Nat := 0
  /-- R395. -/
  clamped : Nat := 0
  /-- R395. -/
  invalid : Nat := 0
  /-- R366 previous sample still running. -/
  busyUntil : Nat := 0
  deriving DecidableEq, Repr, Inhabited

/-- An axis of a profile generator (R380-R383). -/
structure ProfileAxis where
  /-- R395 PG_STATE. -/
  pos : F64 := 0
  /-- R395. -/
  vel : F32 := 0
  /-- R395. -/
  acc : F32 := 0
  /-- R395. -/
  target : F64 := 0
  /-- R381, R395. -/
  vmax : F32 := 0
  /-- R395. -/
  amax : F32 := 0
  /-- R395. -/
  jmax : F32 := 0
  /-- R383 a PG_MOVE in progress. -/
  moving : Bool := false
  /-- R382. -/
  sectorHeld : Bool := false
  /-- R382 where the motion ends, the wrapped path included. -/
  goal : F64 := 0
  /-- R383 the target came from PG_MOVE. -/
  host : Bool := false
  deriving DecidableEq, Repr, Inhabited

/-- A gear slave (R385-R387). -/
structure GearSlave where
  /-- R395 GEAR_SLAVES. -/
  slot : BitVec 8 := 0xFF
  /-- R395. -/
  p : Int := 1
  /-- R395. -/
  q : Nat := 1
  /-- R395 GEAR_NEXT. -/
  nextP : Int := 0
  /-- R395. -/
  nextQ : Nat := 0
  /-- R395. -/
  nextAt : Int := 0
  /-- R395. -/
  armed : Bool := false
  /-- R385. -/
  s0 : Int := 0
  /-- R385. -/
  m0 : Int := 0
  /-- R395. -/
  vmax : F32 := 0x461C4000
  /-- R387 target when the fall-back began. -/
  from_ : Int := 0
  /-- R387. -/
  moveTo : Int := 0
  /-- R387 the move to the geared target. -/
  axis : ProfileAxis := {}
  /-- R387. -/
  engaged : Bool := true
  /-- R386 master at the last trigger. -/
  lastMaster : Int := 0
  deriving DecidableEq, Repr, Inhabited

/-- A gear group (R385-R387, R397). -/
structure GearGroup where
  /-- R397. -/
  master : BitVec 3 := 0
  /-- R397. -/
  en : Bool := false
  /-- R397. -/
  fbSource : Bool := false
  /-- R397. -/
  fallback : Bool := false
  /-- R385. -/
  slaves : Vector GearSlave 4 := .replicate 4 {}
  /-- R395. -/
  fallbackCount : Int := 0
  /-- R395 GEAR_MASTER. -/
  count : Int := 0
  /-- R395. -/
  lastValidAt : Nat := 0
  /-- R387. -/
  moveStart : Nat := 0
  /-- R387 T_L. -/
  moveTime : Nat := 0
  /-- R387 master valid since. -/
  validSince : Option Nat := none
  /-- R387 moving to the geared target. -/
  engaging : Bool := false
  deriving DecidableEq, Repr, Inhabited

/-- A latch unit (R388, R398). -/
structure LatchUnit where
  /-- R398. -/
  config : BitVec 32 := 0
  /-- R395 LATCH_DATA. -/
  stamp : Nat := 0
  /-- R395. -/
  count : Int := 0
  /-- R395. -/
  position : F64 := 0
  /-- R395 FLAGS. -/
  valid : Bool := false
  /-- R395 FLAGS. -/
  overwritten : Bool := false
  /-- R395 FLAGS. -/
  falling : Bool := false
  deriving DecidableEq, Repr, Inhabited

/-- A stepper drive STP0-3 (R389-R392, R399). -/
structure Stepper where
  /-- R399. -/
  current : F32 := 0
  /-- R399. -/
  loadAngle : Nat := 0
  /-- R399. -/
  posValid : Bool := false
  /-- R399. -/
  locked : Bool := false
  /-- R399. -/
  atImax : Bool := false
  /-- R399. -/
  thermal : Bool := false
  /-- R399. -/
  moving : Bool := false
  /-- R395. -/
  iMin : F32 := 0x3F000000
  /-- R395. -/
  iMax : F32 := 0x40400000
  /-- R395. -/
  vmax : F32 := 0x44FA0000
  /-- R395. -/
  amax : F32 := 0x469C4000
  /-- R395. -/
  stallMinRate : F32 := 0x42C80000
  /-- R395 STP_POSITION. -/
  count : Int := 0
  /-- R395. -/
  target : Int := 0
  /-- R391. -/
  stalls : List Nat := []
  /-- R391. -/
  stopped : Bool := false
  /-- R391. -/
  stalledAt : Option Nat := none
  /-- R390. -/
  limitRaised : Bool := false
  /-- R389 the last full step. -/
  stepAt : Nat := 0
  /-- R389, R391 the step rate. -/
  rate : F32 := 0
  /-- R388 the count before the last step. -/
  countBefore : Int := 0
  /-- R391 consecutive full steps of a back-EMF below 25 %. -/
  weakSteps : Nat := 0
  deriving DecidableEq, Repr, Inhabited

/-- Injection and capture (R393, R394). -/
structure InjCap where
  /-- R393, R395. -/
  injConfig : List Byte := List.replicate 32 0
  /-- R393. -/
  injRunning : Bool := false
  /-- R393 n. -/
  injN : Nat := 0
  /-- R394 injected signal. -/
  injSignal : F32 := 0
  /-- R395. -/
  capConfig : List Byte := List.replicate 16 0
  /-- R394. -/
  capSignals : List Byte := List.replicate 16 0
  /-- R395 CAP_STATUS. -/
  capState : BitVec 8 := 0
  /-- R394. -/
  capData : List (List F32) := []
  /-- R394 PRE. -/
  capPre : List (Nat × List F32) := []
  /-- R395. -/
  capT0 : Nat := 0
  /-- R395. -/
  capInterval : Nat := 0
  /-- R395 CAP_READ_AT. -/
  capReadAt : Nat := 0
  /-- R394 triggers since the last sample. -/
  capDiv : Nat := 0
  /-- R394 signal 0 at the last sample. -/
  capLast0 : Option F32 := none
  deriving DecidableEq, Repr, Inhabited

/-- SRV: slots, generators, gears, latches, steppers (R362-R401). -/
structure ServoState where
  /-- R395. -/
  coeffs : Vector SlotCoeffs 32 := .replicate 32 {}
  /-- R362. -/
  slots : Vector LoopSlot 32 := .replicate 32 {}
  /-- R370. -/
  counts : Vector LoopCounts 32 := .replicate 32 {}
  /-- R380. -/
  axes : Vector (Vector ProfileAxis 3) 16 := .replicate 16 (.replicate 3 {})
  /-- R395. -/
  gears : Vector GearGroup 8 := .replicate 8 {}
  /-- R388. -/
  latches : Vector LatchUnit 8 := .replicate 8 {}
  /-- R389. -/
  steppers : Vector Stepper 4 := .replicate 4 {}
  /-- R393. -/
  ic : InjCap := {}
  /-- R392. -/
  stpVoltageOff : Bool := false
  deriving DecidableEq, Repr, Inhabited

/-- The fields of U_CONFIG and U_TIMING of a U channel (R432, R433). -/
structure UConfig where
  /-- R433. -/
  filterUs : Nat := 1000
  /-- R433. -/
  countEdge : BitVec 2 := 0
  /-- R433. -/
  source : BitVec 2 := 0
  /-- R433. -/
  line : BitVec 3 := 0
  /-- R433. -/
  slew : BitVec 2 := 0
  /-- R433. -/
  invert : Bool := false
  /-- R402, R433 DIRECTION. -/
  output : Bool := false
  /-- R402, R404 input type. -/
  type3 : Bool := false
  /-- R432. -/
  onMax : Nat := 0
  /-- R432. -/
  chatterWindow : Nat := 1000
  /-- R432. -/
  chatterCount : Nat := 0
  /-- R432. -/
  ovlTime : Nat := 10
  /-- R432. -/
  pwmPeriod : Nat := 1000
  deriving DecidableEq, Repr, Inhabited

/-- A universal channel U0-U31 (R402-R419, R434). -/
structure UChannel where
  /-- R433. -/
  cfg : UConfig := {}
  /-- R434. -/
  reported : Bool := false
  /-- R434. -/
  filtered : Bool := false
  /-- R434. -/
  raw : Bool := false
  /-- R410, R434. -/
  frozen : Bool := false
  /-- R409, R434. -/
  stuck : Bool := false
  /-- R415, R434. -/
  overload : Bool := false
  /-- R416, R434. -/
  readbackFail : Bool := false
  /-- R416, R434. -/
  openLoad : Bool := false
  /-- R408, R432. -/
  count : BitVec 32 := 0
  /-- R432 U_COUNT. -/
  countStamp : Nat := 0
  /-- R410. -/
  transitions : List (Nat × Bool) := []
  /-- R409. -/
  activeSince : Option Nat := none
  /-- R406 when the level was accepted. -/
  acceptedAt : Nat := 0
  /-- R407 the last multiple delivered. -/
  deliveredM : Option Nat := none
  /-- R413 the duty of the running period. -/
  dutyNow : F32 := 0
  /-- R413 the duty loaded for the next. -/
  dutyNext : F32 := 0
  /-- R413 the period that dutyNow is of. -/
  dutyPeriod : Nat := 0
  /-- R412 U_SET accepted since the image load. -/
  setTo : Option Bool := none
  /-- R419 a hold: the value presented when its rank took effect. -/
  held : F32 := 0
  deriving DecidableEq, Repr, Inhabited

/-- An analog output AO0-AO15 (R425-R427, R432). -/
structure AoChannel where
  /-- R426 AO_SET accepted since the image load. -/
  setTo : Option F32 := none
  /-- R419 a hold: the value presented when its rank took effect. -/
  held : F32 := 0
  /-- R432. -/
  measured : F32 := 0
  /-- R427, R432. -/
  open_ : Bool := false
  /-- R427, R432. -/
  short : Bool := false
  deriving DecidableEq, Repr, Inhabited

/-- A position-feedback interface PFB0-PFB7 (R428-R432). -/
structure PfbChannel where
  /-- R428. -/
  mode : BitVec 4 := 0
  /-- R428. -/
  nbits : BitVec 6 := 0
  /-- R428. -/
  clock_ : BitVec 4 := 3
  /-- R428. -/
  gray : Bool := false
  /-- R428. -/
  zEn : Bool := false
  /-- R428. -/
  monoflop : BitVec 8 := 0x14
  /-- R428. -/
  dir : Bool := false
  /-- R428. -/
  errBits : BitVec 2 := 0
  /-- R432 PFB_POSITION. -/
  stamp : Nat := 0
  /-- R430, R432. -/
  count : Int := 0
  /-- R388 the good frame before the last. -/
  prev : Option (Nat × Int) := none
  /-- R432. -/
  scale : F64 := 0x3FF0000000000000
  /-- R432. -/
  offset : F64 := 0
  /-- R431, R432. -/
  cause : BitVec 8 := 0
  /-- R429, R432. -/
  zSeen : Bool := false
  /-- R431, R432. -/
  warning : Bool := false
  /-- R431 a run of faulty frames. -/
  faultRun : Bool := false
  /-- R387 a warning with the count unchanged. -/
  warnedStill : Bool := false
  /-- R432. -/
  faults : Nat := 0
  /-- R432. -/
  rate : Nat := 1000
  deriving DecidableEq, Repr, Inhabited

/-- A field supply bank (R403, R417, R432). -/
structure FieldBank where
  /-- R432 FIELD_STATUS. -/
  millivolt : BitVec 16 := 0
  /-- R417, R432. -/
  outOfRange : Bool := false
  /-- R417, R432. -/
  uvlo : Bool := false
  deriving DecidableEq, Repr, Inhabited

/-- FIO: field pins, event lines and the output watchdog (R402-R434). -/
structure FieldState where
  /-- R106. -/
  captures : Vector CaptureUnit 16 := .replicate 16 {}
  /-- R108 overruns of a line that the router asserted, not yet reported (log 5). -/
  overrunDue : Nat := 0
  /-- R402. -/
  u : Vector UChannel 32 := .replicate 32 {}
  /-- R425. -/
  ao : Vector AoChannel 16 := .replicate 16 {}
  /-- R428. -/
  pfb : Vector PfbChannel 8 := .replicate 8 {}
  /-- R403. -/
  banks : Vector FieldBank 2 := .replicate 2 {}
  /-- R414. -/
  lines : Vector LineState 8 := .replicate 8 {}
  /-- R432 EVT_LINE_WIDTH. -/
  lineWidth : Nat := 100
  /-- R422. -/
  watchdog : Nat := 100
  /-- R422. -/
  retriggeredAt : Nat := 0
  /-- R423, R432. -/
  handover : Bool := false
  /-- R422, R432. -/
  expired : Bool := false
  /-- R476 active program bank of FIO. -/
  programBank : Bool := false
  deriving DecidableEq, Repr, Inhabited

/-- A safety input U24-U31 (R441-R444, R457). -/
structure SafInput where
  /-- R457. -/
  thr : BitVec 8 := 0xFF
  /-- R457. -/
  tp : BitVec 2 := 0
  /-- R457. -/
  function : BitVec 2 := 0
  /-- R443. -/
  filterUs : Nat := 0
  /-- R457. -/
  raw : Bool := false
  /-- R457. -/
  filtered : Bool := false
  /-- R457. -/
  demand : Bool := false
  /-- R457. -/
  patternFail : Bool := false
  /-- R457. -/
  latched : Bool := false
  /-- R452 has read 1 since. -/
  highSince : Option Nat := none
  deriving DecidableEq, Repr, Inhabited

/-- What holds one thruster enable removed (R438, R449, R452). -/
structure GateCauses where
  /-- R439 START. -/
  start : Bool := true
  /-- R452 demand or pattern fault of input i. -/
  inputs : BitVec 8 := 0
  /-- R445. -/
  cmd : Bool := false
  /-- R451. -/
  clock_ : Bool := false
  /-- R450. -/
  selftest : Bool := false
  /-- R447, R448. -/
  gateFault : Bool := false
  /-- R448 removed since. -/
  offSince : Nat := 0
  /-- R456 ENABLE_REMOVED. -/
  removed : Bool := true
  deriving DecidableEq, Repr, Inhabited

/-- SAF: gates, safety inputs, command-path monitor (R435-R457). -/
structure SafState where
  /-- R436, R456. -/
  gates : Vector GateCauses 16 := .replicate 16 {}
  /-- R457. -/
  inputs : Vector SafInput 8 := .replicate 8 {}
  /-- R442 a TP pin differs from its pattern. -/
  tpFault : Vector Bool 4 := .replicate 4 false
  /-- R451, R456. -/
  clockLost : Bool := false
  /-- R451. -/
  clockReleasable : Bool := false
  /-- R445, R456. -/
  cmdTripped : Bool := false
  /-- R452 changes of the sequence since the trip. -/
  cmdChanges : Nat := 0
  /-- R445 last sequence read. -/
  cmdLast : BitVec 16 := 0
  /-- R445, R446. -/
  cmdChangedAt : Nat := 0
  /-- R456 CMD_ARMED. -/
  cmdArmed : Bool := false
  /-- R446 counted afresh from the next change. -/
  cmdFresh : Bool := false
  /-- R450, R456. -/
  selftestFail : Bool := false
  /-- R445, R455 SAF_CONFIG. -/
  cmdLimitUs : BitVec 32 := 0
  /-- R455. -/
  records : List SafRecord := []
  /-- R450, R455. -/
  crc : BitVec 32 := 0
  /-- R455 SAF_COUNTERS. -/
  trips : Nat := 0
  /-- R455. -/
  patternFaults : Nat := 0
  /-- R455. -/
  darkPulses : Nat := 0
  /-- R455. -/
  selftestsPassed : Nat := 0
  /-- R455 SAF_LAST_TRIP. -/
  lastTripAt : Nat := 0
  /-- R455. -/
  lastTripSource : BitVec 8 := 0
  /-- R455. -/
  lastTripChannel : BitVec 8 := 0
  /-- R455. -/
  lastTripMask : BitVec 16 := 0
  /-- R451 the last missing edge. -/
  clockLostAt : Nat := 0
  /-- R447 the last dark pulse. -/
  darkAt : Vector (Option Nat) 16 := .replicate 16 none
  /-- R450 the last timed self-test. -/
  testedAt : Nat := 0
  /-- R447 the next pulse is a driver pulse. -/
  darkDriver : Vector Bool 16 := .replicate 16 false
  deriving DecidableEq, Repr, Inhabited

/-- SAFE_CAUSE (R472). -/
structure SafeCause where
  /-- R472 bit 0. -/
  requested : Bool := false
  /-- R472 bit 1. -/
  f1Overflow : Bool := false
  /-- R472 bit 2. -/
  watchdog : Bool := false
  /-- R472 bit 3. -/
  esd : Bool := false
  /-- R472 bit 4. -/
  cmd : Bool := false
  /-- R472 bit 5. -/
  clock_ : Bool := false
  /-- R472 bit 6. -/
  safSelftest : Bool := false
  /-- R472 bit 7. -/
  startCheck : Bool := false
  /-- R472 bit 8. -/
  handoverFailed : Bool := false
  /-- R472 bit 9. -/
  supRepeat : Bool := false
  deriving DecidableEq, Repr, Inhabited

/-- START_REPORT (R477). -/
structure StartReport where
  /-- R477. -/
  kind : BitVec 8 := 0
  /-- R477. -/
  outcome : BitVec 8 := 0
  /-- R477. -/
  step : BitVec 8 := 0
  /-- R477. -/
  duration : BitVec 32 := 0
  /-- R477. -/
  tb0At : Nat := 0
  deriving DecidableEq, Repr, Inhabited

/-- Modes, SAFE, start and restart (R462-R483). -/
structure ModeState where
  /-- R464 MODE. -/
  mode : Mode := .idle
  /-- R464 PENDING. -/
  pendingMode : Option Mode := none
  /-- R464 PREVIOUS. -/
  previous : Mode := .idle
  /-- R464 START_KIND. -/
  startKind : BitVec 2 := 0
  /-- R464 ARMED. -/
  armed : Bool := false
  /-- R472. -/
  cause : SafeCause := {}
  /-- R474, R479, R671. -/
  phase : Phase := .off
  /-- R478. -/
  restartPending : Option RestartKind := none
  /-- R478, R481 trigger of the last restart. -/
  restartAt : Nat := 0
  /-- R478, R511 command instant at which a requested restart begins. -/
  restartInstant : Nat := 0
  /-- R481 last fault restart. -/
  faultRestartAt : Option Nat := none
  /-- R479 cycle of the trigger. -/
  restartCycle : Nat := 0
  /-- R479 samples at or before are discarded. -/
  discardUpTo : Nat := 0
  /-- R477. -/
  report : StartReport := {}
  /-- R474. -/
  powerGoodAt : Nat := 0
  /-- R469 loop slots in HOLD by mode. -/
  gatheredHold : Bool := true
  deriving DecidableEq, Repr, Inhabited

/-- A lane link LNK0-1 (R486, R519). -/
structure LinkState where
  /-- R486, R519. -/
  up : Bool := false
  /-- R519. -/
  peer : BitVec 8 := 0xFF
  /-- R519. -/
  validFrames : Nat := 0
  /-- R519. -/
  crcFailures : Nat := 0
  /-- R486. -/
  helloRun : Nat := 0
  /-- R486. -/
  lastValid : Option Nat := none
  /-- R44. -/
  credits : Nat := 64
  /-- R44, R489 credits held by HELLO and TIME. -/
  quick : Nat := 0
  /-- R90 the peer's last TIME: as it was sent, and as this member received it. -/
  lastTime : Option (Int × Int) := none
  /-- R489 ordinary frame waiting. -/
  waitingSince : Option Nat := none
  /-- R489. -/
  stallRaised : Bool := false
  /-- R44, R489. -/
  waiting : List (Nat × LlpSent) := []
  /-- R489. -/
  sent : List LlpSent := []
  deriving DecidableEq, Repr, Inhabited

/-- What this member knows of a peer (R487, R519). -/
structure Peer where
  /-- R487. -/
  lastValid : Option Nat := none
  /-- R487, R510. -/
  lastBackup : Option Nat := none
  /-- R519 link mask. -/
  linkMask : BitVec 3 := 0
  /-- R519. -/
  role : BitVec 2 := 3
  /-- R519. -/
  mode : BitVec 4 := 0
  /-- R519. -/
  epoch : BitVec 32 := 0
  /-- R505, R519. -/
  granted : Nat := 0
  /-- R510 grant seen on the backup path. -/
  grantedBackup : Nat := 0
  /-- R489, R519. -/
  digest : List Byte := List.replicate 48 0
  /-- R489, R516 majors and minors. -/
  versions : List (BitVec 8) := []
  /-- R489. -/
  options : BitVec 32 := 0
  /-- R489. -/
  serial : BitVec 64 := 0
  /-- R516. -/
  versionBarred : Bool := false
  /-- R496. -/
  commit : Option (Nat × BitVec 32) := none
  /-- R493. -/
  set : Option ReleasedSet := none
  deriving DecidableEq, Repr, Inhabited

/-- Group redundancy (R484-R522). -/
structure GroupState where
  /-- R484, R519. -/
  memberIndex : BitVec 8 := 0
  /-- R520 ROLE. -/
  role : Role := .alone
  /-- R506. -/
  epoch : BitVec 32 := 0
  /-- R520 IN_STEP. -/
  inStep : BitVec 3 := 0
  /-- R515, R520. -/
  stepCount : Nat := 0
  /-- R498, R520. -/
  auth : Bool := false
  /-- R510, R520. -/
  split : Bool := false
  /-- R520. -/
  versionHold : Bool := false
  /-- R520. -/
  imageHold : Bool := false
  /-- R503 the last frame with this member's own index. -/
  clashAt : Option Nat := none
  /-- R519. -/
  peers : Vector Peer 3 := .replicate 3 {}
  /-- R485. -/
  links : Vector LinkState 2 := .replicate 2 {}
  /-- R519. -/
  backupPort : BitVec 8 := 0xFF
  /-- R519. -/
  backupVlan : Nat := 4000
  /-- R519. -/
  counters : Vector Nat 6 := .replicate 6 0
  /-- R519 AUTH_STATUS. -/
  lastTakeoverCause : BitVec 8 := 0
  /-- R519. -/
  lastTakeoverAt : Nat := 0
  /-- R498, R505 latest grant. -/
  granted : Option Nat := none
  /-- R498 takeover instant of a YIELD sent. -/
  yieldAt : Option Nat := none
  /-- R498 takeover instant at which AUTH clears. -/
  takeoverAt : Option Nat := none
  /-- R495. -/
  groupWrites : List SettingWrite := []
  /-- R487. -/
  backupSent : List LlpSent := []
  deriving DecidableEq, Repr, Inhabited

/-- The frame exchange and the copy of a group (R493-R515). -/
structure GroupCycle where
  /-- R493. -/
  ownSet : Option ReleasedSet := none
  /-- R493. -/
  closed : Option LlpClose := none
  /-- R493. -/
  closeDone : Bool := true
  /-- R493. -/
  exchangeLate : Bool := false
  /-- R496. -/
  ownDigest : Option (Nat × BitVec 32) := none
  /-- R503. -/
  firstModeAt : Nat := 0
  /-- R503. -/
  roleSettled : Bool := false
  /-- R510. -/
  takeoverTest : Option (Nat × Nat) := none
  /-- R509. -/
  oldLead : BitVec 8 := 0xFF
  /-- R510. -/
  oldEpoch : BitVec 32 := 0
  /-- R514. -/
  copyPlan : Option (Nat × Nat) := none
  /-- R514. -/
  copyTo : Option (Nat × Nat) := none
  /-- R514. -/
  copyBytes : List (Nat × List Byte) := []
  /-- R490, R514. -/
  copyApplied : Bool := false
  /-- R515. -/
  resyncFailures : Nat := 0
  /-- R515. -/
  resyncStopped : Bool := false
  /-- R515. -/
  retryAt : Option Nat := none
  /-- R514. -/
  requested : Bool := false
  /-- R515 the last matching cycle. -/
  matchedAt : Option Nat := none
  /-- R489 the last frames of every 1 ms. -/
  periodicAt : Option Nat := none
  deriving DecidableEq, Repr, Inhabited

/-- A port of the switch (R523-R530, R553, R554). -/
structure SwitchPort where
  /-- R554. -/
  pvid : BitVec 12 := 1
  /-- R554. -/
  defaultPcp : BitVec 3 := 0
  /-- R554. -/
  admitUntagged : Bool := true
  /-- R554. -/
  stormLimit : BitVec 8 := 10
  /-- R554. -/
  ptpTc : Bool := true
  /-- R554. -/
  en : Bool := true
  /-- R553 PORT_STATUS. -/
  status : BitVec 8 := 0
  /-- R553. -/
  counters : Vector Nat 16 := .replicate 16 0
  /-- R524, R526, R527. -/
  queue : List EgressFrame := []
  /-- R524, R526. -/
  sending : Option EgressFrame := none
  /-- R523 rate, R526 end of the frame on the line. -/
  sendEnd : Nat := 0
  /-- R527. -/
  dropRun : Bool := false
  /-- R528. -/
  stormWindow : Nat := 0
  /-- R528. -/
  stormBytes : Nat := 0
  deriving DecidableEq, Repr, Inhabited

/-- An entry of the address table (R524). -/
structure MacEntry where
  /-- R524. -/
  vid : BitVec 12 := 0
  /-- R524. -/
  mac : BitVec 48 := 0
  /-- R524. -/
  port : Nat := 0
  /-- R524. -/
  seenAt : Nat := 0
  deriving DecidableEq, Repr, Inhabited

/-- An entry of VLAN_TABLE (R525). -/
structure VlanEntry where
  /-- R525, R553. -/
  vid : BitVec 16 := 0
  /-- R525, R553. -/
  members : BitVec 8 := 0
  /-- R525, R553. -/
  untagged : BitVec 8 := 0
  deriving DecidableEq, Repr, Inhabited

/-- CAN_NBT (R538). -/
structure CanNbt where
  /-- R538. -/
  brp : Nat := 2
  /-- R538. -/
  seg1 : Nat := 99
  /-- R538. -/
  seg2 : Nat := 25
  /-- R538. -/
  sjw : Nat := 25
  deriving DecidableEq, Repr, Inhabited

/-- CAN_DBT (R539). -/
structure CanDbt where
  /-- R539. -/
  brp : Nat := 1
  /-- R539. -/
  seg1 : Nat := 39
  /-- R539. -/
  seg2 : Nat := 10
  /-- R539. -/
  sjw : Nat := 10
  /-- R539. -/
  tdcEn : Bool := true
  /-- R539. -/
  tdco : Nat := 40
  deriving DecidableEq, Repr, Inhabited

/-- A CAN FD controller CAN0-CAN3 (R537-R546). -/
structure CanController where
  /-- R545. -/
  retryLimit : BitVec 3 := 3
  /-- R545. -/
  autoRecover : Bool := true
  /-- R545. -/
  fdEn : Bool := true
  /-- R545. -/
  brsEn : Bool := true
  /-- R545. -/
  listenOnly : Bool := false
  /-- R545. -/
  en : Bool := false
  /-- R538. -/
  nbt : CanNbt := {}
  /-- R539. -/
  dbt : CanDbt := {}
  /-- R546. -/
  tec : Nat := 0
  /-- R546 REC. -/
  recCount : Nat := 0
  /-- R542. -/
  busOff : Bool := false
  /-- R542. -/
  passive : Bool := false
  /-- R542. -/
  recovering : Bool := false
  /-- R542 beginning of the recovery. -/
  recoverAt : Nat := 0
  /-- R546. -/
  lastError : BitVec 4 := 0
  /-- R546. -/
  dataPhase : Bool := false
  /-- R553. -/
  counters : Vector Nat 6 := .replicate 6 0
  /-- R544. -/
  rx : List CanFrame := []
  /-- R44, R544. -/
  shadow : Option CanFrame := none
  /-- R544 head locked by the parser while it waits. -/
  locked : Bool := false
  /-- R543. -/
  tx : List CanTx := []
  /-- R44. -/
  overrunRun : Bool := false
  deriving DecidableEq, Repr, Inhabited

/-- A serial port SER0-SER7 (R547-R551). -/
structure SerialPort where
  /-- R548. -/
  baud : BitVec 4 := 0
  /-- R548. -/
  protocol : BitVec 2 := 0
  /-- R548. -/
  wiring : BitVec 2 := 0
  /-- R548. -/
  term : Bool := false
  /-- R548. -/
  checksumRequired : Bool := true
  /-- R548. -/
  txEn : Bool := false
  /-- R553. -/
  counters : Vector Nat 5 := .replicate 5 0
  /-- R44. -/
  rx : List SerByte := []
  /-- R551. -/
  tx : List Byte := []
  /-- R551, R548 instant up to which the buffer has been sent. -/
  txAt : Nat := 0
  /-- R547 last character on the line. -/
  lineAt : Nat := 0
  /-- R44, R549 a byte was dropped since the last stored one. -/
  dropPending : Bool := false
  /-- R44. -/
  overrunRun : Bool := false
  /-- R549. -/
  rejectRun : Bool := false
  /-- R549. -/
  lineErrorRun : Bool := false
  deriving DecidableEq, Repr, Inhabited

/-- VLAN_TABLE after reset (R525): VID 1 with ETH0-ETH3 and HPT, untagged. -/
def defaultVlans : Vector VlanEntry 64 :=
  (Vector.replicate 64 {}).set 0 { vid := 1, members := 0x4F, untagged := 0x4F }

/-- DROP_THRESH after reset (R527). -/
def defaultThresh : Vector Nat 8 := #v[50, 55, 60, 65, 75, 85, 100, 100]

/-- NET: switch, CAN, serial, 450 (R523-R555). -/
structure NetState where
  /-- R523. -/
  ports : Vector SwitchPort 7 := .replicate 7 {}
  /-- R524. -/
  macs : List MacEntry := []
  /-- R525. -/
  vlans : Vector VlanEntry 64 := defaultVlans
  /-- R527. -/
  dropThresh : Vector Nat 8 := defaultThresh
  /-- R529. -/
  tcCounters : Vector Nat 4 := .replicate 4 0
  /-- R552. -/
  groups450 : BitVec 16 := 0x004D
  /-- R537. -/
  can : Vector CanController 4 := .replicate 4 {}
  /-- R547. -/
  ser : Vector SerialPort 8 := .replicate 8 {}
  /-- R44 Ethernet sentence queue. -/
  ethSentences : List Sample := []
  /-- R44 datagrams that wait while the parser is stopped. -/
  ethWait : List EthIn := []
  /-- R549, R552. -/
  rejectRun450 : Vector Bool 4 := .replicate 4 false
  /-- R536 last valid record. -/
  feedbackAt : Vector (Option Nat) 16 := .replicate 16 none
  /-- R536. -/
  feedbackLost : Vector Bool 16 := .replicate 16 false
  /-- R534, R535. -/
  sentRecords : List CommandRecord := []
  deriving DecidableEq, Repr, Inhabited

/-- A command in service order, or waiting (R44, R563). -/
structure Command where
  /-- R559, R563. -/
  req : Request := {}
  /-- R559, R568. -/
  opcode : BitVec 16 := 0
  /-- R559, R568. -/
  body : List Byte := []
  /-- R306 arrival. -/
  at_ : Nat := 0
  deriving DecidableEq, Repr, Inhabited

/-- A response queued or cached (R44, R559, R564). -/
structure Response where
  /-- R558. -/
  req : Request := {}
  /-- R559, R562. -/
  version : BitVec 8 := 0x32
  /-- R559. -/
  opcode : BitVec 16 := 0
  /-- R575. -/
  status : Status := .ok
  /-- R561, R564. -/
  replay : Bool := false
  /-- R559. -/
  body : List Byte := []
  deriving DecidableEq, Repr, Inhabited

/-- An entry of the response cache (R564). -/
structure CacheEntry where
  /-- R564. -/
  at_ : Nat := 0
  /-- R564. -/
  resp : Response := {}
  deriving DecidableEq, Repr, Inhabited

/-- A READ snapshot of a source address (R570). -/
structure ReadSnapshot where
  /-- R570. -/
  src : BitVec 128 := 0
  /-- R570. -/
  object : BitVec 32 := 0
  /-- R570. -/
  at_ : Nat := 0
  /-- R570. -/
  value : List Byte := []
  deriving DecidableEq, Repr, Inhabited

/-- A telemetry subscription (R576, R588). -/
structure Subscription where
  /-- R576, R588. -/
  handle : Nat := 0
  /-- R576. -/
  stream : BitVec 8 := 0
  /-- R587. -/
  dtls : Option Nat := none
  /-- R588. -/
  ingress : BitVec 8 := 0
  /-- R576. -/
  src : BitVec 128 := 0
  /-- R576. -/
  port : BitVec 16 := 0
  /-- R576. -/
  expires : Nat := 0
  /-- R576. -/
  divider : Nat := 1
  /-- R577. -/
  select : List Byte := []
  /-- R577 cycles or epochs since the last frame. -/
  counter : Nat := 0
  deriving DecidableEq, Repr, Inhabited

/-- A frame of the telemetry queue (R578-R583). -/
structure TeleFrame where
  /-- R583. -/
  tseq : BitVec 32 := 0
  /-- R577. -/
  stream : BitVec 8 := 0
  /-- R578. -/
  source : Nat := 0
  /-- R578-R582. -/
  body : List Byte := []
  /-- R583. -/
  dest : List Nat := []
  deriving DecidableEq, Repr, Inhabited

/-- A DTLS association (R587). -/
structure Association where
  /-- R587. -/
  src : BitVec 128 := 0
  /-- R587. -/
  port : BitVec 16 := 0
  /-- R587. -/
  ingress : BitVec 8 := 0
  /-- R587. -/
  lastUsed : Nat := 0
  /-- R587. -/
  id : Nat := 0
  deriving DecidableEq, Repr, Inhabited

/-- QCP: queues, cache, subscriptions, addresses (R556-R589). -/
structure QcpState where
  /-- R44, R563. -/
  queue : List Command := []
  /-- R571. -/
  abortSlot : Option Command := none
  /-- R44. -/
  responses : List Response := []
  /-- R44, R566. -/
  ownSlot : Option Response := none
  /-- R564. -/
  cache : List CacheEntry := []
  /-- R565. -/
  deferredCommit : Option Command := none
  /-- R565. -/
  deferredAttest : Option Command := none
  /-- R565 start of each. -/
  deferredAt : Nat × Nat := (0, 0)
  /-- R584 acceptance of each. -/
  deferredTb3 : Nat × Nat := (0, 0)
  /-- R570. -/
  snapshots : List ReadSnapshot := []
  /-- R576. -/
  subs : List Subscription := []
  /-- R44, R583. -/
  tele : List TeleFrame := []
  /-- R583. -/
  tseq : BitVec 32 := 0
  /-- R583. -/
  dropped : Nat := 0
  /-- R583. -/
  sentTele : List (Nat × List Byte) := []
  /-- R577, R581. -/
  aiOpen : List (Nat × Nat × List AiRecord) := []
  /-- R577. -/
  aiSkip : List (Nat × Nat × Nat) := []
  /-- R588. -/
  address : QcpAddress := {}
  /-- R588. -/
  addressNext : Option (Nat × QcpAddress) := none
  /-- R589. -/
  security : BitVec 8 := 0
  /-- R588. -/
  securityNext : Option (Nat × BitVec 8) := none
  /-- R588. -/
  counters : Vector Nat 10 := .replicate 10 0
  /-- R585, R588. -/
  sources : List (BitVec 128) := []
  /-- R566. -/
  busyRun : Bool := false
  /-- R44. -/
  respondedAt : Nat := 0
  /-- R587. -/
  associations : List Association := []
  /-- R587. -/
  dtlsFailRun : Bool := false
  deriving DecidableEq, Repr, Inhabited

/-- One 32-byte record (R590-R593). -/
structure Record where
  /-- R590, R592. -/
  seq : BitVec 32 := 0
  /-- R590. -/
  time : Nat := 0
  /-- R593. -/
  code : BitVec 16 := 0
  /-- R590. -/
  island : BitVec 8 := 0
  /-- R591. -/
  flags : BitVec 8 := 0
  /-- R590. -/
  p0 : BitVec 32 := 0
  /-- R590. -/
  p1 : BitVec 32 := 0
  /-- R590. -/
  p2 : BitVec 32 := 0
  /-- R590. -/
  p3 : BitVec 32 := 0
  deriving DecidableEq, Repr, Inhabited

/-- A seal (R602). -/
structure Seal where
  /-- R602. -/
  flags : BitVec 8 := 0
  /-- R602. -/
  blockSeq : Nat := 0
  /-- R602. -/
  firstSeq : Nat := 0
  /-- R602. -/
  records : Nat := 0
  /-- R602. -/
  lost : Nat := 0
  /-- R602. -/
  sealedAt : Nat := 0
  /-- R602, R603. -/
  hash : List Byte := List.replicate 48 0
  /-- R602, R603. -/
  sig : List Byte := List.replicate 96 0
  /-- R602. -/
  signState : BitVec 8 := 0
  deriving DecidableEq, Repr, Inhabited

/-- REC: RAM ring, store, seals, window (R590-R614). -/
structure RecorderState where
  /-- R595. -/
  ram : List (Record × Bool) := []
  /-- R592, R602. -/
  nextSeq : Nat := 0
  /-- R602. -/
  store : List (List Record) := []
  /-- R602 SIGN_STATE: seals made before the last start. -/
  sealsAtStart : Nat := 0
  /-- R602. -/
  seals : List Seal := []
  /-- R602. -/
  openBlock : List Record := []
  /-- R602 REARM flag of the next block. -/
  rearmFirst : Bool := false
  /-- R603 H_(b-1) kept over a re-arm. -/
  chainHash : List Byte := List.replicate 48 0
  /-- R603 a block has been sealed since manufacture. -/
  chainBegun : Bool := false
  /-- R602 next BLOCK_SEQ. -/
  blockSeq : Nat := 0
  /-- R604, R614. -/
  full : Bool := false
  /-- R604, R613. -/
  lost : Nat := 0
  /-- R597, R614 WINDOW_OPEN. -/
  window : Option Nat := none
  /-- R596, R614 FLUSHING. -/
  flushing : List (BitVec 8) := []
  /-- R596 beginning of the oldest flush in progress. -/
  flushAt : Nat := 0
  /-- R599. -/
  geyserRunning : Bool := false
  /-- R596, R599 records stored before the geyser. -/
  geyserFrom : Nat := 0
  /-- R614. -/
  geyserLast : Bool := false
  /-- R614. -/
  geyserIncomplete : Bool := false
  /-- R592, R599. -/
  headerSeq : Nat := 0
  /-- R599, R601. -/
  headerGeyser : BitVec 8 := 0
  /-- R599 REC writes no more until the next start. -/
  stopped : Bool := false
  /-- R598. -/
  lastFlushWrite : Option Nat := none
  /-- R613. -/
  flushTail : Nat := 10
  /-- R613. -/
  counters : Vector Nat 4 := .replicate 4 0
  /-- R613 re-arms since manufacture. -/
  rearms : Nat := 0
  /-- R604. -/
  fullRaised : Bool := false
  deriving DecidableEq, Repr, Inhabited

/-- CLD: keys, counts, measurements (R607-R615). -/
structure TrustState where
  /-- R607, R615 OWNER. -/
  ownerKey : Option (List Byte) := none
  /-- R608, R613. -/
  enrolCount : BitVec 32 := 0
  /-- R607, R615 IMAGE_KEY. -/
  imageKey : Option (List Byte) := none
  /-- R612, R615. -/
  entropyFail : Bool := false
  /-- R611. -/
  bootCount : BitVec 32 := 0
  /-- R611. -/
  extMeas : List Byte := List.replicate 48 0
  /-- R638, R640. -/
  floor : BitVec 32 := 0
  deriving DecidableEq, Repr, Inhabited

/-- A Fumarole and its ledger entry (R616-R620, R640). -/
structure Monitor where
  /-- R616. -/
  today : List F32 := []
  /-- R618, R619. -/
  daily : List (F64 × F64 × F32) := []
  /-- R618. -/
  monthly : List F32 := []
  /-- R618. -/
  month : List F32 := []
  /-- R640. -/
  present : F32 := 0
  /-- R640. -/
  baseline : F32 := 0
  /-- R619, R640. -/
  slope : F32 := 0
  /-- R619, R640. -/
  projected : F32 := 0
  /-- R619, R640. -/
  years : F32 := 0
  /-- R619, R640. -/
  state : BitVec 8 := 0
  /-- R640. -/
  lastAt : Nat := 0
  deriving DecidableEq, Repr, Inhabited

/-- The clock bin of an island (R622, R627, R640). -/
structure ClockBin where
  /-- R640. -/
  bin : Nat := 0
  /-- R640. -/
  planned : Nat := 0
  /-- R640. -/
  atLimit : Bool := false
  /-- R640. -/
  crossed : Bool := false
  /-- R640. -/
  slack : F32 := 0
  /-- R640. -/
  binMin : Nat := 0
  /-- R640. -/
  binMax : Nat := 12
  /-- R622 the slack stands above 18 % since then. -/
  aboveSince : Option Nat := none
  /-- R622. -/
  slackAt : List (Option (F32 × F64)) := List.replicate 16 none
  deriving DecidableEq, Repr, Inhabited

/-- An update transfer (R631-R635). -/
structure Transfer where
  /-- R631, R640. -/
  id : BitVec 32 := 0
  /-- R631. -/
  length : Nat := 0
  /-- R631. -/
  crc : BitVec 32 := 0
  /-- R632, R633. -/
  chunks : List (Nat × List Byte) := []
  /-- R642. -/
  state : BitVec 4 := 0
  deriving DecidableEq, Repr, Inhabited

/-- A chunk being assembled (R632). -/
structure PartsEntry where
  /-- R632. -/
  target : Nat := 0
  /-- R632. -/
  chunk : Nat := 0
  /-- R632. -/
  parts : List (Nat × List Byte) := []
  /-- R632 PARTS. -/
  count : Nat := 0
  /-- R632. -/
  crc : BitVec 32 := 0
  /-- R632. -/
  startedAt : Nat := 0
  deriving DecidableEq, Repr, Inhabited

/-- The update transfers and the extension store (R630-R642). -/
structure UpdateState where
  /-- R630. -/
  ext : Transfer := {}
  /-- R630. -/
  struct : Transfer := {}
  /-- R632. -/
  area : List PartsEntry := []
  /-- R630 ACTIVE image. -/
  active : ExtImage := .delivered
  /-- R630, R642 FALLBACK_PRESENT. -/
  fallback : Option ExtImage := none
  /-- R642 ACTIVE_BANK. -/
  activeBank : Bool := false
  /-- R637 pending activation. -/
  activation : Option (Bool × Bool) := none
  /-- R642. -/
  rolledBack : Bool := false
  /-- R642. -/
  lastVerifyFail : Bool := false
  deriving DecidableEq, Repr, Inhabited

/-- HSK: monitors, bins, holdup plan, refresh, supplies (R616-R629, R674). -/
structure Housekeeping where
  /-- R616. -/
  monitors : Vector Monitor 24 := .replicate 24 {}
  /-- R617, R640 EQUIV_AGE. -/
  aEq : F64 := 0
  /-- R619, R640. -/
  poweredTime : Nat := 0
  /-- R616 period of the last sample. -/
  sampledAt : Nat := 0
  /-- R616 day of the last daily entry. -/
  dayAt : Nat := 0
  /-- R616, R621. -/
  samples : Nat := 0
  /-- R619. -/
  aEqDays : List F64 := []
  /-- R621, R640. -/
  oscF : F32 := 0x31ABCC77
  /-- R621, R640. -/
  oscA : F32 := 0x2D2FEBFF
  /-- R621. -/
  oscPoints : List F32 := []
  /-- R623, R670. -/
  capMf : F32 := 0x40133333
  /-- R623. -/
  vRes : F32 := 0x41A428F6
  /-- R623, R670. -/
  tHold : F32 := 0x427B999A
  /-- R623. -/
  geyserDepth : Nat := 8192
  /-- R624 depth planned during a window. -/
  depthNext : Option Nat := none
  /-- R641. -/
  holdupLow : Bool := false
  /-- R626, R640. -/
  mramInterval : Nat := 365
  /-- R640. -/
  mramLast : Nat := 0
  /-- R626, R641 REFRESHING. -/
  mramBlock : Option Nat := none
  /-- R626 start of the last refresh. -/
  mramStart : Option Nat := none
  /-- R626 the block in progress began. -/
  mramAt : Nat := 0
  /-- R622. -/
  bins : Vector ClockBin 12 := .replicate 12 {}
  deriving DecidableEq, Repr, Inhabited

/-- A display request (R649). -/
structure PnlRequest where
  /-- R649. -/
  x : Nat := 0
  /-- R649. -/
  y : Nat := 0
  /-- R649. -/
  w : Nat := 0
  /-- R649. -/
  h : Nat := 0
  /-- R645, R649. -/
  grey : Bool := true
  /-- R649, R660. -/
  pixels : List Byte := []
  /-- R657 from a full clear. -/
  repaint : Bool := false
  deriving DecidableEq, Repr, Inhabited

/-- A waveform in flight (R644, R653). -/
structure Waveform where
  /-- R644. -/
  req : PnlRequest := {}
  /-- R653. -/
  band : Nat := 0
  /-- R653. -/
  startedAt : Nat := 0
  /-- R653. -/
  endsAt : Nat := 0
  deriving DecidableEq, Repr, Inhabited

/-- PNL: queue, waveforms, rails, frame memory (R643-R661). -/
structure PanelState where
  /-- R643, R644. -/
  frame : List Host.Cell := []
  /-- R657, R659 the image SUP holds. -/
  image : List Host.Cell := []
  /-- R649. -/
  queue : List PnlRequest := []
  /-- R657. -/
  repaintGrey : Option PnlRequest := none
  /-- R657. -/
  repaintMono : Option PnlRequest := none
  /-- R650, R661. -/
  flight : List Waveform := []
  /-- R661. -/
  railsOn : Bool := false
  /-- R647. -/
  idleSince : Option Nat := none
  /-- R661. -/
  deferredCold : Bool := false
  /-- R661. -/
  deferredHot : Bool := false
  /-- R661. -/
  railFault : Bool := false
  /-- R648. -/
  railFaultAt : Option Nat := none
  /-- R648 deferred until a cold start. -/
  railLocked : Bool := false
  /-- R658. -/
  powerStopped : Bool := false
  /-- R661. -/
  crcFail : Bool := false
  /-- R661. -/
  repaintPending : Bool := true
  /-- R659 checks that wait. -/
  checkPending : List (Option (BitVec 32)) := []
  /-- R660. -/
  vcom : Int := -1500
  /-- R660. -/
  vcomNext : Option Int := none
  /-- R652, R660. -/
  temp : Int := 2000
  /-- R661 BAND 0xF. -/
  tempRead : Bool := false
  /-- R652 last reading. -/
  tempAt : Nat := 0
  /-- R659 period of the last 60 s check. -/
  crcPeriod : Nat := 0
  /-- R660 PNL_CRC. -/
  crcLast : BitVec 32 := 0
  /-- R660. -/
  crcCompared : BitVec 32 := 0
  /-- R660. -/
  crcAt : Nat := 0
  /-- R660. -/
  counters : Vector Nat 5 := .replicate 5 0
  /-- R654. -/
  drawn : List (Nat × List Byte) := []
  /-- R654 last whole second drawn. -/
  drawnSecond : Nat := 0
  /-- R654 the mode and role last drawn. -/
  drawnState : Option (Nat × Nat) := none
  deriving DecidableEq, Repr, Inhabited

/-- The supplies and the holdup (R667-R675). -/
structure PowerState where
  /-- R674. -/
  overtemp : Bool := false
  /-- R674. -/
  stpClamping : Bool := false
  /-- R674. -/
  holdupCharged : Bool := false
  /-- R674. -/
  onHoldup : Bool := false
  /-- R674. -/
  bCut : Bool := false
  /-- R674. -/
  aCut : Bool := false
  /-- R674. -/
  bOk : Bool := false
  /-- R674. -/
  aOk : Bool := false
  /-- R671 step 2. -/
  noNvWrites : Bool := false
  /-- R675 since when AUX7 is above 72 degrees. -/
  hotSince : Option Nat := none
  /-- R675 since when AUX7 is below 68 degrees. -/
  coolSince : Option Nat := none
  deriving DecidableEq, Repr, Inhabited

/-- The items of a retained state block or of a RESYNC copy (R480, R514), held typed: R161, R243, R276, R278, R317,
R361 and R400 name what each chapter takes back from it. -/
structure Copy where
  tb3At : Nat := 0
  cycle : Nat := 0
  digest : List Byte := []
  mode : Mode := .idle
  role : Role := .alone
  epoch : Word := 0
  inStep : BitVec 3 := 0
  fusion : FusionState := {}
  obs : ObserverState := {}
  obsParams : ObsParams := {}
  obsOut : ObsOutput := {}
  applied : List ThrusterSet := []
  /-- The history of R258: appended in a RESYNC copy alone. -/
  history : List HistoryEntry := []
  law : LawState := {}
  dyn : LawDynamics := {}
  kept : Option (Nat × Iterate × Bool) := none
  plan : Option Plan := none
  consecNet : Nat := 0
  netRun : Nat := 0
  successRun : Nat := 0
  fallback : Bool := false
  degraded : Bool := false
  servo : ServoState := {}
  ephemerides : List (Orbit × Nat) := []
  almanacs : List Orbit := []
  utcHeld : List (UtcParams × Nat) := []
  /-- Channel predictions (R161). -/
  predictions : List SearchJob := []
  deriving DecidableEq, Repr, Inhabited

/-- The retained state copies and the RESYNC copy (R480, R514). -/
structure RetainedState where
  /-- R480. -/
  a : Option Copy := none
  /-- R480. -/
  b : Option Copy := none
  /-- R480 which copy is newer. -/
  newerB : Bool := false
  /-- R478 the restart was caused by a fault. -/
  supFault : Bool := false
  deriving DecidableEq, Repr, Inhabited

/-- The whole module, and the commands that wait. -/
structure State where
  /-- R3. -/
  factory : FactoryBlock := {}
  /-- R48. -/
  events : EventState := {}
  /-- R30. -/
  cycle : CycleState := {}
  /-- R57. -/
  image : ImageState := {}
  /-- R86. -/
  time : TimeState := {}
  /-- R124. -/
  gnss : GnssState := {}
  /-- R162. -/
  ain : AinState := {}
  /-- R189. -/
  fusion : FusionState := {}
  /-- R237. -/
  wind : WindState := {}
  /-- R244. -/
  obs : ObserverState := {}
  /-- R273. -/
  obsParams : ObsParams := {}
  /-- R273. -/
  obsOut : ObsOutput := {}
  /-- R258. -/
  history : List HistoryEntry := []
  /-- R280. -/
  law : LawState := {}
  /-- R300. -/
  dyn : LawDynamics := {}
  /-- R318. -/
  sol : SolverState := {}
  /-- R358. -/
  res : SolverResult := {}
  /-- R358. -/
  solParams : SolverParams := {}
  /-- R362. -/
  servo : ServoState := {}
  /-- R402. -/
  field : FieldState := {}
  /-- R435. -/
  saf : SafState := {}
  /-- R462. -/
  modes : ModeState := {}
  /-- R480. -/
  retained : RetainedState := {}
  /-- R484. -/
  group : GroupState := {}
  /-- R493. -/
  gcycle : GroupCycle := {}
  /-- R523. -/
  net : NetState := {}
  /-- R556. -/
  qcp : QcpState := {}
  /-- R595. -/
  recorder : RecorderState := {}
  /-- R607. -/
  trust : TrustState := {}
  /-- R616. -/
  hsk : Housekeeping := {}
  /-- R630. -/
  update : UpdateState := {}
  /-- R643. -/
  panel : PanelState := {}
  /-- R667. -/
  power : PowerState := {}
  /-- none: the model's own. -/
  free : Nat := 0
  /-- the block's queue of waiting commands. -/
  pending : List Instr := []
  deriving DecidableEq, Repr

/-- The module right after reset: unpowered until POWER_GOOD runs the cold start of R474, every field at the value
INVENTORY.md lists, no command waiting. -/
def State.reset : State := {}

/-- The reasons a step stops with a fault. No command of this block faults: every effect the spec states ends in a next
state, and an access the spec refuses is answered with a status code (R575). -/
inductive Fault where
  /-- Raised by no meaning; kept so that the type is inhabited. Safe: no run ends in it. -/
  | none
  deriving DecidableEq, Repr

/-- The reasons a step refuses a command. -/
inductive Refusal where
  /-- The command's meaning has not been written yet (Machine/Dispatch.lean alone answers it). Safe: the run stops. -/
  | notModelled (mnemonic : String)
  deriving DecidableEq, Repr

end Sys2Proof.Machine
end

