-- ==== Sys2Proof/Machine/Ops.lean ====
section
/-! DEFINITION. The named operations every family of commands shares: time, records, telemetry, event lines, the event
router, the fault handler and entry to SAFE. -/

namespace Sys2Proof.Machine

/-- The outcome of a command. -/
abbrev Out := Host.Outcome State Fault Refusal

/-! ## Codes -/

/-- The mode values of R462. -/
def Mode.code : Mode → Nat
  | .idle => 0 | .config => 1 | .joystick => 2 | .autohead => 3 | .station => 4 | .track => 5 | .test => 6 | .safe => 7

/-- The mode a value names. -/
def Mode.ofCode : Nat → Option Mode
  | 0 => some .idle | 1 => some .config | 2 => some .joystick | 3 => some .autohead | 4 => some .station
  | 5 => some .track | 6 => some .test | 7 => some .safe | _ => none

/-- JOYSTICK, AUTOHEAD, STATION and TRACK (R26). -/
def Mode.positioning : Mode → Bool
  | .joystick | .autohead | .station | .track => true
  | _ => false

/-- The role values of R490. -/
def Role.code : Role → Nat
  | .lead => 0 | .spare => 1 | .resync => 2 | .alone => 3

/-- The role a value names. -/
def Role.ofCode : Nat → Role
  | 0 => .lead | 1 => .spare | 2 => .resync | _ => .alone

/-- The status codes of R575. -/
def Status.code : Status → Nat
  | .ok => 0 | .busy => 1 | .badObject => 2 | .badValue => 3 | .wrongMode => 4 | .notSigned => 5 | .aborted => 6
  | .timeout => 7 | .version => 8 | .notLead => 9 | .noSpace => 10

/-! ## Time -/

/-- TB0 now. -/
def State.now (s : State) : Nat := s.time.tb[0].count
/-- TB1 now. -/
def State.tb1 (s : State) : Nat := s.time.tb[1].count
/-- TB2 now. -/
def State.tb2 (s : State) : Nat := s.time.tb[2].count
/-- TB3 now: a time without a named base is a TB3 time (R22). -/
def State.tb3 (s : State) : Nat := s.time.tb[3].count
/-- The module leads its own TB3: role LEAD or ALONE (R89). -/
def State.leadsTime (s : State) : Bool := s.group.role == .lead || s.group.role == .alone

/-- The lock window of a base, ns (R93). -/
def State.lockWindow (s : State) (n : Nat) : Nat := if n = 3 && !s.leadsTime then 20 else 1000
/-- The slew rate of a base in 1e-9: 50 ppm, and 100 ppm for TB3 (R101). -/
def slewRate (n : Nat) : Nat := if n = 3 then 100000 else 50000

/-- One base over `dt` nanoseconds of the module's oscillator: its disciplined rate, and the slew while one is in
progress, which ends when the offset is within the lock window (R98, R101). TB3's STEP_PENDING clears during a slew when
the remaining offset falls to 100 us (R102). -/
def TimeBase.advance (b : TimeBase) (n window dt : Nat) : TimeBase :=
  let base := b.frac + (dt : Int) * b.rate
  if b.slewing then
    let sign : Int := if b.remaining < 0 then -1 else 1
    let total := base + sign * ((dt * slewRate n : Nat) : Int)
    let moved := total / 1000000000 - base / 1000000000
    let room := b.remaining.natAbs - window
    if moved.natAbs < room then
      let left := b.remaining - moved
      { b with count := (b.count + dt + total / 1000000000).toNat, frac := total % 1000000000, remaining := left,
               stepPending := b.stepPending && !(n == 3 && decide (left.natAbs ≤ 100000)) }
    else
      { b with count := (b.count + dt + base / 1000000000 + sign * (room : Int)).toNat, frac := base % 1000000000,
               remaining := b.remaining - sign * (room : Int), slewing := false,
               stepPending := b.stepPending && !(n == 3) }
  else { b with count := (b.count + dt + base / 1000000000).toNat, frac := base % 1000000000 }

/-- Advance every base, and RXT at the rate of the oscillator (R132), to the instant at which TB0 reads `t`; time never
runs back. -/
def State.clock (t : Nat) (s : State) : State :=
  let dt := t - s.now
  if dt = 0 then s
  else { s with gnss.rxt := s.gnss.rxt + dt, time.tb := #v[{ s.time.tb[0] with count := s.now + dt },
                              s.time.tb[1].advance 1 (s.lockWindow 1) dt,
                              s.time.tb[2].advance 2 (s.lockWindow 2) dt,
                              s.time.tb[3].advance 3 (s.lockWindow 3) dt] }

/-- Change base `n`. -/
def State.setTb (s : State) (n : Nat) (f : TimeBase → TimeBase) : State := { s with time.tb := upd s.time.tb n f }

/-- R98: the uncertainty `u0 + f tau + a tau^2 / 2` in ns, saturating at 32 bits. A base LOCKED reports u0; TB0 reports
0 (R88). -/
def State.uncertainty (s : State) (n : Nat) : Nat :=
  let b := at? s.time.tb n
  if n = 0 then 0
  else if b.neverLocked then (Config.neverLockedUncertainty n).toNat
  else match b.lossAt with
    | none => b.u0
    | some l =>
      let tau := s.now - l
      let lin := F64.mul (F64.of32 b.f) (F64.ofNat tau)
      let quad := F64.mul F64.half (F64.mul (F64.of32 b.a) (F64.mul (F64.ofNat tau) (secondsOf tau)))
      min 0xFFFFFFFF (b.u0 + (F64.nearest (F64.add lin quad)).toNat)

/-! ## Channels of the receiver -/

/-- The job that stands for a channel's signal. -/
def Channel.job (c : Channel) : SearchJob :=
  { kind := 0, target := { system := c.system, sv := c.sv, signal := c.signal, antenna := c.antenna }, elevation := c.elevation,
    gloK := c.gloK }

/-- The channel predictions that a retained state block carries (R161): the signals in TRACKING or REACQ. -/
def GnssState.predict (g : GnssState) : List SearchJob :=
  (g.channels.toList.filter fun c => c.state == 2 || c.state == 3).map Channel.job

/-! ## Free values -/

/-- The number of the next free value; each is drawn once (log 2). -/
def State.draw (s : State) : Nat × State := (s.free, { s with free := s.free + 1 })

/-! ## Options and the loaded structure -/

/-- The structure in force. -/
def State.structure? (s : State) : Option Structure := s.image.loaded
/-- Is a structure loaded (IMAGE_STATE ACTIVE or VERIFYING over one)? -/
def State.hasStructure (s : State) : Bool := s.image.loaded.isSome
/-- The cycle parameters in force. -/
def State.cyc (s : State) : CycleRec := (s.image.loaded.map (·.cyc)).getD {}
/-- OPTIONS (R4). -/
def State.optionsWord (s : State) : Word :=
  BitVec.ofNat 32 (s.factory.build.toNat * 256 + flagBit s.factory.optP 3 + flagBit s.factory.optS 2 + flagBit s.factory.optT 1 +
    flagBit s.factory.optG 0)
/-- This member's index as a number. -/
def State.me (s : State) : Nat := s.group.memberIndex.toNat

/-! ## The recorder (R590-R604) -/

/-- The island that makes a source's events; R52 numbers the groups by island (log 25). -/
def sourceIsland (n : Nat) : BitVec 8 :=
  if n < 16 then 0x01 else if n < 24 then 0x02 else if n < 32 then 0x03 else if n < 48 then 0x05
  else if n < 56 then 0x06 else if n < 64 then 0x05 else if n < 80 then 0x07 else if n < 88 then 0x08
  else if n < 95 then 0x09 else if n = 95 then 0x07 else if n < 104 then 0x0A else if n < 110 then 0x0B
  else if n = 110 then 0x0A else if n < 112 then 0x0B else if n < 115 then 0x0C else if n < 118 then 0x0D
  else if n < 121 then 0x01 else if n < 123 then 0x0E else if n = 123 then 0x0C else if n < 126 then 0x0E
  else 0x0F

/-- The bytes of a record (R590). -/
def Record.bytes (r : Record) : List Byte :=
  be32 r.seq ++ nat64 r.time ++ be16 r.code ++ be8 r.island ++ be8 r.flags ++ be32 r.p0 ++ be32 r.p1 ++ be32 r.p2 ++
    be32 r.p3

/-- Bytes 0-79 of a seal with the given hash (R602). -/
def Seal.head (b : Seal) : List Byte :=
  [0x53, 0x45, 1, b.flags] ++ nat32 b.blockSeq ++ nat64 b.firstSeq ++ nat8 b.records ++ zeros 3 ++ nat32 b.lost ++
    nat64 b.sealedAt ++ b.hash

/-- All 184 bytes of a seal. -/
def Seal.bytes (b : Seal) : List Byte := b.head ++ b.sig ++ be8 b.signState ++ zeros 7

/-- Seal the open block (R602, R603): its remaining slots are PAD; the store is full when its last block is sealed
(R604). An empty open block has nothing to seal. -/
def RecorderState.seal (r : RecorderState) (tb3 : Nat) (deviceKey : List Byte) (geyser : Bool) : RecorderState :=
  match r.openBlock with
  | [] => r
  | first :: _ =>
    let n := r.openBlock.length
    let prev := if r.chainBegun then r.chainHash else sha384 deviceKey
    let wraps := r.nextSeq / 2 ^ 32
    let low := r.nextSeq % 2 ^ 32
    let firstSeq := (if first.seq.toNat ≥ low ∧ wraps > 0 ∧ first.seq.toNat > low then wraps - 1 else wraps) * 2 ^ 32
      + first.seq.toNat
    let base : Seal := { flags := BitVec.ofNat 8 (flagBit (n < 64) 0 + flagBit r.rearmFirst 1 + flagBit geyser 2),
                         blockSeq := r.blockSeq, firstSeq := firstSeq, records := n, lost := r.lost, sealedAt := tb3 }
    let hash := sha384 (prev ++ base.head.take 32 ++ (r.openBlock.map Record.bytes).flatten ++ zeros (32 * (64 - n)))
    let store := r.store ++ [r.openBlock]
    { r with store := store, seals := r.seals ++ [{ base with hash := hash }], openBlock := [], rearmFirst := false,
             chainHash := hash, chainBegun := true, blockSeq := (r.blockSeq + 1) % 2 ^ 32,
             full := decide (8192 ≤ store.length) }

/-- Copy one record to the store: LOST counts it when the store is full (R604). -/
def RecorderState.copy (r : RecorderState) (tb3 : Nat) (deviceKey : List Byte) (geyser : Bool) (x : Record) :
    RecorderState :=
  if r.full then { r with lost := r.lost + 1 }
  else
    let r := { r with openBlock := r.openBlock ++ [x], counters := upd r.counters 1 sat32 }
    if r.openBlock.length ≥ 64 then r.seal tb3 deviceKey geyser else r

/-- Records in the store, in order. -/
def RecorderState.stored (r : RecorderState) : List Record := r.store.flatten ++ r.openBlock

/-- Drop the oldest record of RAM that no flush has copied: it has aged out (R595, R624). -/
def RecorderState.ageOut (r : RecorderState) : RecorderState :=
  match r.ram.findIdx? fun x => !x.2 with
  | some i => { r with ram := r.ram.eraseIdx i, counters := upd r.counters 2 sat32 }
  | none => r

/-- A record enters RAM with the next SEQUENCE (R592, R595). In a flush window it is copied to the store, with LIVE
(R597). A record it overwrites uncopied counts as LOST in a window or a flush, otherwise as RAM_AGED. Outside a flush
window no more than `depth` records, the planned GEYSER_DEPTH, stay uncopied (R624). -/
def RecorderState.enter (r : RecorderState) (tb3 : Nat) (deviceKey : List Byte) (depth : Nat) (x : Record) : RecorderState :=
  let live := r.window.isSome && !r.stopped
  let x := { x with seq := BitVec.ofNat 32 r.nextSeq, flags := if live then x.flags ||| 8 else x.flags }
  let r := { r with nextSeq := r.nextSeq + 1 }
  let r : RecorderState := if r.window.isNone && r.flushing.isEmpty && decide (depth ≤ (r.ram.filter fun x => !x.2).length) then r.ageOut else r
  let r :=
    if r.ram.length < 8192 then r
    else match r.ram with
      | [] => r
      | (_, copied) :: rest =>
        let r := { r with ram := rest }
        if copied then r
        else if r.window.isSome || !r.flushing.isEmpty then { r with lost := r.lost + 1 }
        else { r with counters := upd r.counters 2 sat32 }
  let r := { r with ram := r.ram ++ [(x, live)] }
  if live then r.copy tb3 deviceKey false x else r

/-- FLAGS of a new record (R591): MEMBER, TIME_UNLOCKED and TRIGGER. -/
def State.recordFlags (s : State) (trigger : Bool) : BitVec 8 :=
  BitVec.ofNat 8 (s.me % 4 + flagBit (s.time.tb[3].state != 2) 2 + flagBit trigger 4)

/-- Write one record (R590). -/
def State.record (s : State) (code : BitVec 16) (island : BitVec 8) (p0 p1 p2 p3 : Word) (time : Nat)
    (trigger : Bool := false) : State :=
  let r : Record := { time := time, code := code, island := island, flags := s.recordFlags trigger, p0 := p0, p1 := p1,
                      p2 := p2, p3 := p3 }
  { s with recorder := s.recorder.enter s.tb3 s.factory.deviceKey s.hsk.geyserDepth r }

/-- REC begins a flush (R596): it copies until FLUSH_DONE. After a geyser it writes no more (R599). -/
def State.startFlush (s : State) (trigger : BitVec 8) : State :=
  if s.recorder.stopped || s.recorder.geyserRunning then s else
    { s with recorder.flushing := s.recorder.flushing ++ [trigger],
             recorder.flushAt := if s.recorder.flushing.isEmpty then s.now else s.recorder.flushAt }

/-! ## Telemetry (R44, R578, R583) -/

/-- Queue an unsolicited frame for the given handles; a full queue drops its oldest frame. -/
def State.pushTele (s : State) (stream : BitVec 8) (source : Nat) (body : List Byte) (dest : List Nat) : State :=
  let q := s.qcp.tele
  let full := decide (256 ≤ q.length)
  let frame : TeleFrame := { tseq := s.qcp.tseq, stream := stream, source := source, body := body, dest := dest }
  { s with qcp.tele := (if full then q.drop 1 else q) ++ [frame],
           qcp.tseq := s.qcp.tseq + 1,
           qcp.dropped := if full then satAdd 255 s.qcp.dropped 1 else s.qcp.dropped,
           qcp.counters := if full then upd s.qcp.counters 7 sat32 else s.qcp.counters }

/-- Handles whose EVENT subscription selects source `n` (R577): bit n of 16 bytes, bit 0 the least significant bit of
the last byte. -/
def State.eventHandles (s : State) (n : Nat) : List Nat :=
  (s.qcp.subs.filter fun x => x.stream == 1 && (beVal x.select).testBit n).map (·.handle)

/-- The body of an EVENT frame but for MERGED, which is set when it is sent (R578). -/
def State.eventBody (s : State) (n cls : Nat) (p0 p1 p2 p3 : Word) : List Byte :=
  nat8 n ++ nat8 cls ++ zeros 2 ++ be8 s.group.memberIndex ++ zeros 3 ++ nat64 s.tb3 ++ be32 p0 ++ be32 p1 ++ be32 p2 ++
    be32 p3

/-! ## Hardware event lines (R414) -/

/-- A line is asserted while its latch is set or a pulse runs. -/
def State.lineHigh (s : State) (line : Nat) : Bool :=
  let l := at? s.field.lines line
  l.latch || l.pulseUntil.isSome

/-- The first edge of the grid of `step` ns at or after an instant (R87, R106). -/
def gridUp (step t : Nat) : Nat := (t + step - 1) / step * step

/-- The stamp a capture unit takes of an edge at TB0 = `edge`: its base's reading then, and for PPS_IN the edge at the pin less
PPS_IN_DELAY (R106). -/
def State.captureStamp (s : State) (c : CaptureUnit) (edge : Nat) : BitVec 32 :=
  let raw : Int := (at? s.time.tb c.base.toNat).count + ((edge : Int) - s.now)
  BitVec.ofInt 32 (if c.input == 0x20 then raw - s.time.ppsInDelay else raw)

/-- Does a capture unit take an edge of its input (R107)? -/
def CaptureUnit.wants (c : CaptureUnit) (rising : Bool) : Bool := c.en && (if rising then c.edge.getLsbD 0 else c.edge.getLsbD 1)

/-- A capture unit stamps an edge, or counts it lost when it holds 8 (R107, R108). Answers whether it was lost. -/
def State.stampEdge (s : State) (m : Nat) (rising : Bool) (edge : Nat) : Bool × State :=
  let c := at? s.field.captures m
  let put (f : CaptureUnit → CaptureUnit) : State := { s with field.captures := upd s.field.captures m f }
  if !c.wants rising then (false, s)
  else if c.hw.length + c.stamps.length < 8 then (false, put fun c => { c with hw := c.hw ++ [s.captureStamp c edge] })
  else (true, put fun c => { c with overrun := sat32 c.overrun })

/-- Every capture unit whose INPUT names an input takes an edge of it (R106). Answers how many lost it. -/
def State.stampInput (s : State) (input : Nat) (rising : Bool) (edge : Nat) : Nat × State :=
  (List.range 16).foldl (fun (a : Nat × State) m =>
    if (at? a.2.field.captures m).input.toNat = input then
      let (lost, s) := a.2.stampEdge m rising edge
      (if lost then a.1 + 1 else a.1, s)
    else a) (0, s)

/-- A line that `was` low and is asserted is captured at the 4 ns grid edge (R87, R106); what is lost is reported at the next drain, or
by the compare unit that asserted it (log 5). -/
def State.captureLine (s : State) (line : Nat) (was : Bool) (edge : Nat) : State :=
  if was || !s.lineHigh line then s
  else
    let (lost, s) := s.stampInput (0x21 + line) true edge
    { s with field.overrunDue := s.field.overrunDue + lost }

/-- A pulse of `ns` from the 4 ns grid edge `edge`; a longer running one goes on when it is not to restart (R87, R414). -/
def State.pulseFrom (s : State) (line : Nat) (ns : Nat) (restart : Bool) (edge : Nat) : State :=
  let til := edge + ns
  let s' := { s with field.lines := upd s.field.lines line fun l =>
    { l with pulseUntil := some (if restart then til else max til (l.pulseUntil.getD 0)) } }
  s'.captureLine line (s.lineHigh line) edge

/-- A pulse of `ns` from the next grid edge. -/
def State.pulseLine (s : State) (line : Nat) (ns : Nat) (restart : Bool) : State := s.pulseFrom line ns restart (gridUp 4 s.now)

/-! ## Output pins (R402-R427, R491): what decides each output is computed, not stored -/

/-- The point of a kind and channel that is wired to this member. -/
def State.ownPoint? (s : State) (kind channel : Nat) : Option PointRec :=
  s.image.loaded.bind fun i => i.points.find? fun p => p.kind == kind && p.channel == channel && p.member == s.me
/-- The members to which the enable of a thruster slice is wired: U n is a U_OUT point and the image holds slice THRn
(R436). -/
def State.enableMembers (s : State) (n : Nat) : List Nat :=
  match s.image.loaded with
  | none => []
  | some i =>
    if i.slices.any fun x => x.kind == 0 && x.index == n then
      (i.points.filter fun p => p.kind == 2 && p.channel == n && decide (n < 16)).map (·.member)
    else []
/-- Is U n an enable of this member (R436)? -/
def State.isEnable (s : State) (n : Nat) : Bool := (s.enableMembers n).contains s.me
/-- The thruster slice a point belongs to. -/
def State.pointThruster (s : State) (id : Nat) : Option Nat :=
  s.image.loaded.bind fun i => (i.slices.find? fun x => x.kind == 0 && x.points.contains id).map (·.index)
/-- Is an output point of a thruster slice duplicated: the slice's enable is wired to more than one member (R491)? -/
def State.duplicated (s : State) (id : Nat) : Bool :=
  match s.pointThruster id with | some n => decide (1 < (s.enableMembers n).length) | none => false
/-- A point's SAFE_STATES record, with the defaults of R81. -/
def State.safeRec (s : State) (p : PointRec) : SafeRec :=
  match s.image.loaded.bind fun i => i.safe.find? (·.point == p.id) with
  | some r => r
  | none => if p.kind = 4 then { point := p.id, state := 3, value := if p.mode = 2 then f32OfRat 4 1000 else 0 }
    else { point := p.id }
/-- The slot whose OUTPUT names a point. -/
def State.slotFor (s : State) (id : Nat) : Option Nat :=
  s.image.loaded.bind fun i => (i.loops.find? (·.output == id)).map (·.slot)

/-- What decides an output (R419). `inactive` is a duplicated output without authority, held at its SAFE_STATES state
(R491). -/
inductive Rank419 where
  | gate | clock_ | off | watchdog | noStructure | inactive | mode | source
  deriving DecidableEq, Repr

/-- Do the modes IDLE, CONFIG and SAFE hold outputs in the safe state? -/
def State.outputsHeld (s : State) : Bool :=
  match s.modes.mode with | .idle | .config | .safe => true | _ => false

/-- What decides the driven state of U output `n`: R419 without the series gate, OVERLOAD and UVLO, after which an output
returns to its driven state (R415-R417). -/
def State.uDrivenRank (s : State) (n : Nat) (p : PointRec) : Rank419 :=
  if s.saf.clockLost then .clock_
  else if s.field.expired then .watchdog
  else if s.duplicated p.id && !s.isEnable n && !s.group.auth then .inactive
  else if s.outputsHeld && (at? s.field.u n).cfg.source != 2 then .mode
  else .source

/-- The condition of lowest rank that touches U output `n`. -/
def State.uRank (s : State) (n : Nat) (p : PointRec) : Rank419 :=
  if s.isEnable n && (at? s.saf.gates n).removed then .gate
  else if s.saf.clockLost then .clock_
  else if (at? s.field.u n).overload || (at? s.field.banks (n / 16)).uvlo then .off
  else s.uDrivenRank n p

/-- The value a U output has, as a duty from 0 to 1, where `k` decides it. -/
def State.uUnder (s : State) (n : Nat) (p : PointRec) (k : Rank419) : F32 :=
  let u := at? s.field.u n
  let safe : F32 := match (s.safeRec p).state with | 1 => F32.one | 2 => u.held | _ => 0
  let inv (d : F32) : F32 := if u.cfg.invert then F32.sub F32.one d else d
  match k with
  | .gate | .off | .noStructure => 0
  | .clock_ | .watchdog | .mode | .inactive => safe
  | .source => match u.cfg.source.toNat with
    | 1 => match s.slotFor p.id with
      | some sl => inv (F32.clamp (at? s.servo.slots sl).out 0 F32.one)
      | none => safe
    | 2 => inv (if s.lineHigh u.cfg.line.toNat then F32.one else 0)
    | _ => match u.setTo with
      | some b => inv (if b then F32.one else 0)
      | none => safe

/-- The running PWM period of a U output, and the time within it (R413); where its periods begin is open (log 13). -/
def State.pwmPlace (s : State) (n : Nat) : Nat × Nat :=
  let x := s.now + Config.pwmPhase n
  let p := max 1 ((at? s.field.u n).cfg.pwmPeriod * us)
  (x / p, x % p)
/-- Is a PWM output on, a time into a period of us: on first, off from the switching edge at its duty (DEDUCED, log 13)? -/
def pwmOn (duty : F32) (x period : Nat) : Bool := F64.lt (F64.ofNat x) (F64.mul (F64.of32 duty) (F64.ofNat (period * us)))

/-- The value a U output presents at its pin. -/
def State.uValue (s : State) (n : Nat) : F32 :=
  match s.ownPoint? 2 n with | some p => s.uUnder n p (s.uRank n p) | none => 0

/-- The value a U output is driven to. -/
def State.uDriven (s : State) (n : Nat) : F32 :=
  match s.ownPoint? 2 n with | some p => s.uUnder n p (s.uDrivenRank n p) | none => 0

/-- The condition of lowest rank that touches AO output of point `p`. -/
def State.aoRank (s : State) (p : PointRec) : Rank419 :=
  if s.saf.clockLost then .clock_
  else if s.field.expired then .watchdog
  else if s.duplicated p.id && !s.group.auth then .inactive
  else if s.outputsHeld then .mode
  else .source

/-- The settable span of a range (R425): ±10 V, 0-20 mA, 4-20 mA. -/
def aoSpan (range : Nat) : F32 × F32 :=
  match range with
  | 0 => (f32OfRat (-21) 2, f32OfRat 21 2)
  | 1 => (0, f32OfRat 21 1000)
  | _ => (f32OfRat 36 10000, f32OfRat 21 1000)

/-- The value the source of an AO output asks for; none where the pin keeps its safe-state value. -/
def State.aoSource (s : State) (n : Nat) (p : PointRec) : Option F32 :=
  match s.slotFor p.id with
  | some sl => some (at? s.servo.slots sl).out
  | none => (at? s.field.ao n).setTo

/-- The value an AO output presents, in V or A. -/
def State.aoValue (s : State) (n : Nat) : F32 :=
  match s.ownPoint? 4 n with
  | none => 0
  | some p =>
    let r := s.safeRec p
    let safe : F32 := if r.state = 2 then (at? s.field.ao n).held else r.value
    match s.aoRank p with
    | .source => match s.aoSource n p with
      | some v => F32.clamp v (aoSpan p.mode).1 (aoSpan p.mode).2
      | none => safe
    | _ => safe

/-- The values at the instant a rank takes effect, which a hold keeps (R419). -/
def State.captureHolds (s : State) : State :=
  { s with field.u := s.field.u.mapIdx fun n u => { u with held := s.uValue n },
           field.ao := s.field.ao.mapIdx fun n c => { c with held := s.aoValue n } }

/-- The driven state of an output is off. -/
def State.drivenOff (s : State) (n : Nat) : Bool := F32.le (s.uDriven n) 0

/-- An overloaded output whose driven state goes to off is overloaded no longer (R415). -/
def State.clearOverloads (s : State) : State :=
  { s with field.u := s.field.u.mapIdx fun n u => if u.overload && s.drivenOff n then { u with overload := false } else u }

/-! ## The event router (R48-R52) -/

/-- Sources whose route is fixed (R51, R52). -/
def fixedRoute (n : Nat) : Bool :=
  [1, 10, 11, 12, 14, 46, 74, 83, 84, 88, 89, 90, 91, 92, 93, 94, 123].contains n

/-- Reserved sources (R52). -/
def reservedSource (n : Nat) : Bool := n == 15 || n == 47 || n == 77 || n ≥ 128

/-- Is the option that owns a source fitted (R6, R52)? -/
def State.sourceFitted (s : State) (n : Nat) : Bool :=
  if 24 ≤ n ∧ n ≤ 31 then s.factory.optG
  else if n = 78 ∨ n = 79 ∨ n = 95 then s.factory.optS
  else if n = 126 ∨ n = 127 then s.factory.optP
  else true

/-- The route in force: REC, FAULT and CLASS of a fixed source are 1, 1 and F1 (R51, R52). -/
def State.route (s : State) (n : Nat) : Route :=
  let r := at? s.events.routes n
  if fixedRoute n then { r with toRec := true, fault := true, cls := 1 } else r

/-- The four parameters of an assertion. -/
structure EventParams where
  p0 : Word := 0
  p1 : Word := 0
  p2 : Word := 0
  p3 : Word := 0

/-- The parameters as given; one that the source's own chapter does not give (R593) is the free value `k` (log 27). -/
def EventParams.of (k : Nat) (p0 p1 p2 p3 : Option Word) : EventParams :=
  { p0 := p0.getD (Config.eventParam k 0), p1 := p1.getD (Config.eventParam k 1), p2 := p2.getD (Config.eventParam k 2),
    p3 := p3.getD (Config.eventParam k 3) }

/-- The EVENT record of an assertion (R594). -/
def State.eventRecord (s : State) (n : Nat) (e : EventParams) (trigger : Bool) : State :=
  s.record (BitVec.ofNat 16 (0x100 + n)) (sourceIsland n) e.p0 e.p1 e.p2 e.p3 s.tb3 trigger

/-- The EVENT frame of an assertion, for the subscriptions that select its source (R578). -/
def State.eventFrame (s : State) (n : Nat) (e : EventParams) : State :=
  let r := s.route n
  let dest := if r.host then s.eventHandles n else []
  if dest.isEmpty then s else s.pushTele 1 n (s.eventBody n (if r.fault then r.cls.toNat else 0) e.p0 e.p1 e.p2 e.p3) dest

/-- The pulse an assertion gives its line (R414). -/
def State.eventPulse (s : State) (n : Nat) : State :=
  let r := s.route n
  if r.lineEn then s.pulseLine r.line.toNat (s.field.lineWidth * ms) true else s

/-- Give an assertion to the recorder, the host and the line its route selects (R48, R49, R594). `must`: a chapter states that
the happening is recorded, whatever the route holds. -/
def State.deliver (s : State) (n : Nat) (p0 p1 p2 p3 : Option Word) (trigger : Bool := false)
    (must : Bool := false) : State :=
  if reservedSource n || !s.sourceFitted n then s
  else
    let (k, s) := s.draw
    let e := EventParams.of k p0 p1 p2 p3
    let s := if (s.route n).toRec || must then s.eventRecord n e trigger else s
    (s.eventFrame n e).eventPulse n

/-! ## The fault handler (R53-R56) -/

/-- The handler context of a class 1 to 3. -/
def EventState.context (e : EventState) : Nat → Option FaultEntry
  | 1 => e.f1 | 2 => e.f2 | _ => e.f3
/-- Set the handler context of a class. -/
def EventState.setContext (e : EventState) (c : Nat) (x : Option FaultEntry) : EventState :=
  match c with | 1 => { e with f1 := x } | 2 => { e with f2 := x } | _ => { e with f3 := x }
/-- The queue of a class. -/
def EventState.queueOf (e : EventState) : Nat → List FaultEntry
  | 1 => e.q1 | 2 => e.q2 | _ => e.q3
/-- Set the queue of a class. -/
def EventState.setQueue (e : EventState) (c : Nat) (q : List FaultEntry) : EventState :=
  match c with | 1 => { e with q1 := q } | 2 => { e with q2 := q } | _ => { e with q3 := q }
/-- Does a class above `c` have work? -/
def EventState.higherBusy (e : EventState) (c : Nat) : Bool :=
  (decide (1 < c) && e.f1.isSome) || (decide (2 < c) && e.f2.isSome)
/-- A handler of a class above `c` preempts what runs below it: those faults are DEFERRED (R54, R55). -/
def EventState.preempt (e : EventState) (c : Nat) : EventState :=
  let d (x : Option FaultEntry) := x.map fun f => { f with deferred := true }
  { e with f2 := if c < 2 then d e.f2 else e.f2, f3 := if c < 3 then d e.f3 else e.f3 }

/-- Parameter 1 of a FAULT record (R55). -/
def FaultEntry.word (f : FaultEntry) (merged : Nat) : Word :=
  BitVec.ofNat 32 (f.arrivalClass * 64 + f.handledClass * 16 + flagBit f.deferred 3 +
    flagBit (f.handledClass != f.arrivalClass) 2 + flagBit (decide (0 < merged)) 1 + flagBit f.forcedSafe 0)

/-- The handler starts on the fault in context `c`: sources 7, 8 and 9 report it (R56). -/
def State.startHandler (s : State) (c : Nat) : State :=
  match s.events.context c with
  | none => s
  | some f =>
    if f.started then s
    else
      let merged := (at? s.events.routes f.source).mergedNow
      let s := { s with events := s.events.setContext c (some { f with started := true }) }
      s.deliver (6 + c) (BitVec.ofNat 32 f.source) (f.word merged) none none

/-- The record of a fault (R55). -/
def State.faultRecord (s : State) (f : FaultEntry) : State :=
  let merged := (at? s.events.routes f.source).mergedNow
  s.record 0x0003 (sourceIsland f.source) (BitVec.ofNat 32 f.source) (f.word merged) (BitVec.ofNat 32 merged)
    (BitVec.ofNat 32 f.depth) f.time (f.handledClass == 1 && !f.marked)

/-- A fault enters class `c` (R54): its context when idle, else its queue, else one class up; a full F1 queue answers
true, and the fault waits for its turn all the same (SAFE of R55: only an arrival that finds another mode forces it). Every entry into F1 starts a flush (R596). -/
def State.admitFault : Nat → FaultEntry → State → State × Bool
  | 0, _, s => (s, false)
  | c + 1, f, s =>
    let c' := c + 1
    let s := if c = 0 then s.startFlush 1 else s
    let f := { f with handledClass := c' }
    match s.events.context c' with
    | none =>
      let busy := s.events.higherBusy c'
      let s := { s with events := (s.events.preempt c').setContext c' (some { f with deferred := f.deferred || busy }) }
      (if busy then s else s.startHandler c', false)
    | some _ =>
      let q := s.events.queueOf c'
      if q.length < 8 then
        ({ s with events := s.events.setQueue c' (q ++ [{ f with deferred := true }]) }, false)
      else if c = 0 then
        ({ s with events := s.events.setQueue 1 (q ++ [{ f with deferred := true, forcedSafe := s.modes.mode != .safe }]) }, true)
      else
        let s := s.deliver 10 (BitVec.ofNat 32 f.source) (BitVec.ofNat 32 (c' + c * 4)) none none
        State.admitFault c f s

/-- The class an arrival would come to rest in, with every escalation of R54. -/
def EventState.landing (e : EventState) : Nat → Nat
  | 0 => 1
  | 1 => 1
  | c + 1 => if (e.context (c + 1)).isSome && decide (8 ≤ (e.queueOf (c + 1)).length) then e.landing c else c + 1

/-- An armed capture whose trigger is an event source starts on that source's assertion (R394). -/
def InjCap.onEvent (c : InjCap) (n : Nat) : InjCap :=
  if c.capState == 1 && fieldAt c.capConfig 1 1 == 2 && fieldAt c.capConfig 2 1 == n then { c with capState := 2 } else c

/-- Sources that report a condition with bit 8 of parameter 0 set on entry and clear on exit (log 21). -/
def twoStateSource (n : Nat) : Bool :=
  [26, 27, 28, 29, 50, 56, 57, 61, 62, 64, 68, 70, 76, 80, 81, 85, 87, 98, 99, 124, 127].contains n
/-- The sources in their raised state, newest first (R654); 61 has a second condition in bit 9 (R302). -/
def EventState.noteRaised (e : EventState) (n : Nat) (p0 : Option Word) : EventState :=
  if !twoStateSource n then e
  else
    let others := e.raised.filter (· != n)
    match p0 with
    | some p => if p.getLsbD 8 || (n == 61 && p.getLsbD 9) then { e with raised := n :: others } else { e with raised := others }
    | none => e

/-- Source `n` asserts (R48-R54). While an assertion of it is with the fault handler, a further one merges into it (R50);
source 10 is a report and no fault (R51). Answers true when the arrival found a full F1 queue. -/
def State.raiseCore (s : State) (n : Nat) (p0 p1 p2 p3 : Option Word) (must : Bool := false) : State × Bool :=
  if reservedSource n || !s.sourceFitted n then (s, false)
  else
    let s := { s with servo.ic := s.servo.ic.onEvent n, events := s.events.noteRaised n p0 }
    let r := s.route n
    if r.fault && r.pending && n != 10 then
      ({ s with events.routes := upd s.events.routes n fun r =>
          { r with merged := satAdd 127 r.merged 1, mergedNow := r.mergedNow + 1 } }, false)
    else if r.fault && n != 10 then
      let cls := r.cls.toNat
      let toF1 := s.events.landing cls == 1
      let s := s.deliver n p0 p1 p2 p3 toF1 must
      let depth := (s.events.queueOf cls).length
      let s := { s with events.routes := upd s.events.routes n fun r => { r with pending := true, mergedNow := 0 } }
      s.admitFault cls { source := n, arrivalClass := cls, handledClass := cls, depth := min 8 depth, time := s.tb3,
                         marked := toF1 && r.toRec }
    else (s.deliver n p0 p1 p2 p3 false must, false)

/-- The bits of SAFE_CAUSE (R472). -/
def SafeCause.setBit (c : SafeCause) : Nat → SafeCause
  | 0 => { c with requested := true }
  | 1 => { c with f1Overflow := true }
  | 2 => { c with watchdog := true }
  | 3 => { c with esd := true }
  | 4 => { c with cmd := true }
  | 5 => { c with clock_ := true }
  | 6 => { c with safSelftest := true }
  | 7 => { c with startCheck := true }
  | 8 => { c with handoverFailed := true }
  | _ => { c with supRepeat := true }

/-- Leaving the positioning modes clears the stored plan and iterate (R332). -/
def SolverState.clearPlan (x : SolverState) : SolverState := { x with plan := none, kept := none }

/-! ## The group as this member sees it (R485-R521) -/

/-- Is a peer in contact: a valid frame from it within the last 3 ms (R487)? -/
def State.inContact (s : State) (m : Nat) : Bool :=
  m != s.me && (match (at? s.group.peers m).lastValid with | some a => decide (s.now ≤ a + 3 * ms) | none => false)
/-- The members in contact. -/
def State.contacts (s : State) : List Nat := [0, 1, 2].filter s.inContact
/-- LEAD_INDEX: the LEAD in contact, this module itself when it leads, 0xF none (R520). -/
def State.leadIndex (s : State) : BitVec 4 :=
  if s.group.role == .lead then BitVec.ofNat 4 s.me
  else match s.contacts.find? fun m => (at? s.group.peers m).role == 0 with
    | some m => BitVec.ofNat 4 m
    | none => 0xF
/-- This member is in step (R490). -/
def State.inStepSelf (s : State) : Bool :=
  match s.group.role with
  | .lead | .spare => true
  | .resync => s.gcycle.copyApplied
  | .alone => false
/-- The peers in step, as this member knows them. -/
def State.inStepPeers (s : State) : List Nat :=
  [0, 1, 2].filter fun m => m != s.me && s.group.inStep.getLsbD m
/-- IN_STEP (R520). -/
def State.inStepMask (s : State) : BitVec 3 :=
  BitVec.ofNat 3 (maskOf ([0, 1, 2].map fun m => if m = s.me then s.inStepSelf else s.group.inStep.getLsbD m))

/-- What R502 ranks a member by. -/
structure Rank where
  index : Nat := 0
  lead : Bool := false
  epoch : Nat := 0
  positioning : Bool := false
  serial : Nat := 0

/-- Does `a` rank above `b` (R502)? -/
def Rank.above (a b : Rank) : Bool :=
  if a.lead != b.lead then a.lead
  else if a.lead && a.epoch != b.epoch then decide (b.epoch < a.epoch)
  else if a.positioning != b.positioning then a.positioning
  else if a.index != b.index then decide (a.index < b.index)
  else decide (a.serial < b.serial)

/-- This member's rank. -/
def State.ownRank (s : State) : Rank :=
  { index := s.me, lead := s.group.role == .lead, epoch := s.group.epoch.toNat, positioning := s.modes.mode.positioning,
    serial := s.factory.serial.toNat }
/-- A peer's rank, from its last HELLO. -/
def State.peerRank (s : State) (m : Nat) : Rank :=
  let p := at? s.group.peers m
  { index := m, lead := p.role == 0, epoch := p.epoch.toNat, serial := p.serial.toNat,
    positioning := decide (2 ≤ p.mode.toNat) && decide (p.mode.toNat ≤ 5) }

/-- The member's index is GROUP_SIZE or more, or that of a member in contact (R503). -/
def State.indexHold (s : State) : Bool :=
  (decide (1 < s.cyc.groupSize) && decide (s.cyc.groupSize ≤ s.me)) ||
    (match s.group.clashAt with | some a => decide (s.now ≤ a + 3 * ms) | none => false)

/-- The successor: the in-step SPARE of highest rank (R508). -/
def State.successor (s : State) : Option Nat :=
  let spare (m : Nat) : Bool := if m = s.me then s.group.role == .spare
    else s.group.inStep.getLsbD m && (at? s.group.peers m).role == 1 && s.inContact m
  let rank (m : Nat) := if m = s.me then s.ownRank else s.peerRank m
  ([0, 1, 2].filter spare).foldl (fun best m => match best with
    | none => some m
    | some b => if (rank m).above (rank b) then some m else some b) none

/-- May a frame use the kept credits: types 0x01 to 0x08 (R489)? -/
def keptCredit : LlpFrame → Bool
  | .resyncRequest | .copyPlan .. | .copyChunk .. => false
  | _ => true
/-- HELLO and TIME: the peer's LNK takes them as they come, so their credits return with its next valid frame, not with its
release (DEDUCED, log 16). -/
def quickFrame : LlpFrame → Bool
  | .hello _ | .time _ => true
  | _ => false

/-- Is there a credit for a frame: the last eight are kept for types 0x01 to 0x08 (R44, R489)? -/
def LinkState.mayGo (l : LinkState) (f : LlpFrame) : Bool := if keptCredit f then decide (0 < l.credits) else decide (8 < l.credits)

/-- A frame waits for a credit from `now` on; an ordinary one that waits too long is reported (R489). -/
def LinkState.wait (l : LinkState) (now : Nat) (f : LlpSent) : LinkState :=
  { l with waiting := l.waiting ++ [(now, f)], waitingSince := if keptCredit f.frame then l.waitingSince else l.waitingSince.or (some now) }

/-- Hand a frame to a link: with a credit it goes; without, it waits (R44, R489). A link that is down holds no credits (R47): only
HELLO and TIME go to it. The last 64 frames sent are kept. -/
def LinkState.send (l : LinkState) (now : Nat) (f : LlpSent) : LinkState :=
  let out := (l.sent ++ [f]).drop (l.sent.length + 1 - 64)
  if !l.up then { l with sent := out }
  else if l.mayGo f.frame then
    { l with sent := out, credits := l.credits - 1, quick := if quickFrame f.frame then l.quick + 1 else l.quick }
  else l.wait now f

/-- Credits return up to `n`: the waiting frames go in order while credits last (R44, R47). -/
def LinkState.credit (l : LinkState) (now n : Nat) : LinkState :=
  let bare := { l with credits := n, quick := 0, waiting := [], waitingSince := none }
  let l' := l.waiting.foldl (fun l (since, f) => if l.mayGo f.frame then l.send now f else l.wait since f) bare
  { l' with stallRaised := l.stallRaised && l'.waitingSince.isSome }

/-- Every credit returns, with the peer's release or when the link is declared down (R46, R47). -/
def LinkState.refill (l : LinkState) (now : Nat) : LinkState := l.credit now 64

/-- The credits of HELLO and TIME return, with a valid frame of the peer. -/
def LinkState.quickReturn (l : LinkState) (now : Nat) : LinkState := if l.quick = 0 then l else l.credit now (l.credits + l.quick)

/-- The majors and highest minors of QCP, LLP and SIF that this member sends (R516). -/
def ownVersions : List (BitVec 8) := [3, 2, 2, 3, 4, 1]

/-- The negotiated minor of an interface: the lowest of the members' highest (R516). -/
def State.negotiatedMinor (s : State) (i : Nat) : BitVec 8 :=
  s.contacts.foldl (fun a m =>
    let v := (at? s.group.peers m).versions
    let b := v.getD (2 * i + 1) a
    if v.isEmpty || a.toNat ≤ b.toNat then a else b) (ownVersions.getD (2 * i + 1) 0)

/-- A frame with the header this member gives it: the LLP minor in use, its index, its epoch and the cycle (R488, R516). -/
def State.llp (s : State) (f : LlpFrame) : LlpSent :=
  { minor := s.negotiatedMinor 1, sender := s.group.memberIndex, epoch := s.group.epoch, cycle := BitVec.ofNat 32 s.cycle.count, frame := f }

/-- Send a frame on every link that is up. -/
def State.sendLane (s : State) (f : LlpFrame) : State :=
  { s with group.links := s.group.links.map fun l => if l.up then l.send s.now (s.llp f) else l }
/-- Send a frame to one member. -/
def State.sendLaneTo (s : State) (m : Nat) (f : LlpFrame) : State :=
  { s with group.links := s.group.links.map fun l => if l.up && l.peer.toNat == m then l.send s.now (s.llp f) else l }

/-- AUTH clears: command frames with AUTHORITY 1 are withdrawn from the CAN transmit buffers (R498, R499). -/
def State.clearAuth (s : State) : State :=
  let s := s.captureHolds
  { s with group.auth := false,
           net.can := s.net.can.map fun c =>
             { c with tx := c.tx.filter fun x => !((x.record.map (·.authority)).getD false) } }

/-- A new role, with its cause (R521). Entry to RESYNC clears AUTH at once (R498) and starts the copy afresh. The answer
tells whether the report met a full F1 queue. -/
def State.setRoleCore (s : State) (r : Role) (cause : Nat) : State × Bool :=
  let old := s.group.role
  let s := { s with group.role := r, group.stepCount := 0 }
  let s := if r == .resync then
      { s with gcycle.copyApplied := false, gcycle.copyPlan := none, gcycle.copyBytes := [], gcycle.requested := false,
               gcycle.retryAt := none, gcycle.resyncFailures := 0, gcycle.resyncStopped := false }.clearAuth
    else s
  s.raiseCore 107 (BitVec.ofNat 32 r.code) (BitVec.ofNat 32 old.code) (BitVec.ofNat 32 cause) none

/-- The first command instant at or after a TB3 time: a whole multiple of T plus C (R31, R36). -/
def State.commandInstantFrom (s : State) (time : Nat) : Nat :=
  let p := s.cyc.period
  if p = 0 then time else ((time - s.cyc.commandAt + p - 1) / p) * p + s.cyc.commandAt

/-- LNK sends YIELD to the successor, naming a command instant, and the member leaves the in-step set (R509, R511). -/
def State.yieldTo (s : State) (next : Nat) (instant : Nat) : State :=
  { s with group.yieldAt := some instant }.sendLane (.yield_ instant next)

/-- What entry to SAFE for a cause of the member's own does to its role (R511, R512). -/
def State.safeRole (s : State) (bit : Nat) : State :=
  match s.group.role with
  | .alone => s
  | .lead =>
    if bit = 0 || bit = 3 then s
    else match s.successor with
      | some m => ((s.yieldTo m (s.commandInstantFrom (s.tb3 + 50 * us))).setRoleCore .alone 3).1
      | none => s
  | _ => (s.setRoleCore .alone 9).1

/-! ## SAFE (R471) -/

/-- Stop an injection (R393). -/
def State.stopInjection (s : State) : State :=
  { s with servo.ic.injRunning := false, servo.ic.injSignal := 0,
           servo.slots := s.servo.slots.map fun l => { l with injecting := false } }

/-- Leaving TEST ends what TEST alone allows: injections, set-point overrides, axis moves (R378, R383, R393). -/
def State.leaveTest (s : State) : State :=
  let s := s.stopInjection
  { s with servo.slots := s.servo.slots.map fun l => { l with hostSp := none },
           servo.axes := s.servo.axes.map fun v => v.map fun x => { x with host := false, moving := false } }

/-- Mode SAFE is entered at once (R471): a pending request is discarded (R466) and source 1 is raised with the bit. In
SAFE already, only the bit is set. -/
def State.toSafe (s : State) (bit : Nat) : State :=
  let s := { s with modes.cause := s.modes.cause.setBit bit }
  if s.modes.mode == .safe then s
  else
    let s := s.captureHolds.leaveTest
    let s := { s with modes.previous := s.modes.mode, modes.mode := .safe, modes.pendingMode := none,
                      modes.gatheredHold := true,
                      sol := if s.modes.mode.positioning then s.sol.clearPlan else s.sol }
    (s.clearOverloads.raiseCore 1 (BitVec.ofNat 32 bit) none none none).1

/-- Entry to SAFE for a cause of this member's own. -/
def State.enterSafe (s : State) (bit : Nat) : State :=
  if s.modes.mode == .safe then s.toSafe bit else (s.toSafe bit).safeRole bit

/-- Source `n` asserts; an arrival at a full F1 queue forces SAFE (R54). -/
def State.raise (s : State) (n : Nat) (p0 : Option Word := none) (p1 : Option Word := none)
    (p2 : Option Word := none) (p3 : Option Word := none) (must : Bool := false) : State :=
  let (s, overflow) := s.raiseCore n p0 p1 p2 p3 must
  if overflow then s.enterSafe 1 else s

/-- A new role, with its cause (R521). -/
def State.setRole (s : State) (r : Role) (cause : Nat) : State :=
  let (s, overflow) := s.setRoleCore r cause
  if overflow then s.enterSafe 1 else s

/-- Raise a source with numbers for the parameters its chapter gives. -/
def State.raiseN (s : State) (n : Nat) (p0 : Nat) (p1 : Option Nat := none) (p2 : Option Nat := none)
    (p3 : Option Nat := none) : State :=
  s.raise n (BitVec.ofNat 32 p0) (p1.map (BitVec.ofNat 32)) (p2.map (BitVec.ofNat 32)) (p3.map (BitVec.ofNat 32))

/-! ## When a command acts -/

/-- The islands that keep running have power: between POWER_GOOD and the end of the holdup. -/
def State.powered (s : State) : Bool := s.modes.phase != .off
/-- SUP, EST, SOL, SRV and GNB run: not during a restart with state handover (R479) nor after the stop of R671. -/
def State.running (s : State) : Bool := s.modes.phase == .running

/-- Run an effect at TB0 = `t` when the gate holds; otherwise only time passes. -/
def run (gate : State → Bool) (t : Nat) (s : State) (f : State → State) : Out :=
  let s := s.clock t
  .next (if gate s then f s else s)

/-- An effect of an island that runs through a restart with state handover. -/
def runPowered (t : Nat) (s : State) (f : State → State) : Out := run State.powered t s f
/-- An effect of an island that a restart with state handover stops. -/
def runRunning (t : Nat) (s : State) (f : State → State) : Out := run State.running t s f

end Sys2Proof.Machine
end

