-- ==== Sys2Proof/Machine/Protocol.lean ====
section
/-! DEFINITION. Serving a host command: queue order, responses, the response cache, and the record of who changed what
(spec/16_command_protocol.md). -/

namespace Sys2Proof.Machine

/-- What a command answers, and the state it leaves when it is OK. -/
structure Done where
  status : Status := .ok
  body : List Byte := []
  state : State
  /-- The state is kept although the status is not OK: an accepted command whose answer reports what remains. -/
  keep : Bool := false
  /-- What a refusal alone counts (R660 BUSY refusals). -/
  count : State → State := id
  /-- DETAIL of an OK response to a WRITE (R570): the k of the release at which it takes effect, or all ones. -/
  detail : Word := 0xFFFFFFFF
  /-- The command is deferred: its response comes when its work ends (R565). -/
  deferred : Bool := false

/-- A refusal: the state is unchanged (R575). -/
def refuse (st : Status) (s : State) (body : List Byte := []) : Done := { status := st, body := body, state := s }

/-- An accepted write that takes effect at once. -/
def done (s : State) : Done := { state := s }

/-- A cached response is still in force for 2 s (R564). -/
def State.cacheLive (s : State) (e : CacheEntry) : Bool := decide (s.now ≤ e.at_ + 2 * second)

/-- The VERSION byte the module answers in (R562, R516): the lowest highest minor of the members in contact. -/
def State.qcpInUse (s : State) : Nat :=
  0x30 + (s.negotiatedMinor 0).toNat

/-- A QCP frame: its header, its body and their CRC-32C (R559). -/
def qcpFrame (version flags : Nat) (seq : Word) (op : BitVec 16) (status : Nat) (body : List Byte) : List Byte :=
  let f := be16 0x5158 ++ nat8 version ++ nat8 flags ++ be32 seq ++ be16 op ++ nat8 status ++ [0] ++ nat32 body.length ++ body
  f ++ be32 (crc32c f)

/-- The datagram of a response (R559, R561). -/
def Response.frame (r : Response) : List Byte :=
  qcpFrame r.version.toNat (1 + flagBit r.replay 1) r.req.seq r.opcode r.status.code r.body

/-- Queue a response and cache it: 64 entries, and BUSY is not cached (R564, R566). The counters of R588 take refusals,
BUSY answers and commands served. NET sends on its own: what was queued at an earlier instant has left (log 18). -/
def State.respond (s : State) (req : Request) (op : Nat) (st : Status) (body : List Byte) : State :=
  let r : Response :=
    { req := req, version := BitVec.ofNat 8 s.qcpInUse, opcode := BitVec.ofNat 16 op, status := st, body := body }
  let c := s.qcp.counters
  let c := match st with
    | .ok => upd c 6 sat32
    | .busy => upd c 3 sat32
    | _ => upd c 2 sat32
  { s with qcp.responses := if s.qcp.respondedAt < s.now then [r] else s.qcp.responses ++ [r], qcp.respondedAt := s.now,
           qcp.cache := if st == .busy then s.qcp.cache
             else (s.qcp.cache ++ [({ at_ := s.now, resp := r } : CacheEntry)]).drop (s.qcp.cache.length + 1 - 64),
           qcp.counters := c }

/-- The source index of an address (R585): its own, else the next free one, the table emptied first when it holds 256;
a new index is bound by a SOURCE_BIND record. -/
def State.sourceIndex (s : State) (a : Addr) (time : Nat) : Nat × State :=
  match s.qcp.sources.findIdx? (· == a) with
  | some i => (i, s)
  | none =>
    let old := if 256 ≤ s.qcp.sources.length then [] else s.qcp.sources
    let i := old.length
    let s := { s with qcp.sources := old ++ [a] }
    let r : Record := { time := time, code := 0x0002, island := 0x01, flags := BitVec.ofNat 8 i,
                        p0 := a.extractLsb' 96 32, p1 := a.extractLsb' 64 32, p2 := a.extractLsb' 32 32,
                        p3 := a.extractLsb' 0 32 }
    (i, { s with recorder := s.recorder.enter s.tb3 s.factory.deviceKey s.hsk.geyserDepth r })

/-- The value parameter of a STATE_COMMAND record (R584). -/
def valueParam (v : List Byte) : Word := if v.length ≤ 4 then BitVec.ofNat 32 (beVal v) else crc32c v

/-- Does an accepted WRITE start a flush: FLUSH outside a flush and its window, or a cold start (R596 triggers 3 and 5, R598)? -/
def State.writeFlushes (s : State) (obj : Word) (v : List Byte) : Bool :=
  (obj == objId 0x0C 0 2 && v == [1] && s.recorder.flushing.isEmpty && s.recorder.window.isNone) || (obj == objId 1 0 0x33 && v == [1])

/-- Record an accepted command, with TRIGGER where it starts a flush, and assert source 4 (R584, R596). -/
def State.recordCommand (s : State) (req : Request) (op : Nat) (p0 : Word) (value : List Byte) (time : Nat) : State :=
  let (i, s) := s.sourceIndex req.src time
  let p1 := BitVec.ofNat 32 (op * 2 ^ 16) ||| (req.seq &&& 0xFFFF)
  let p2 := BitVec.ofNat 32 (i * 2 ^ 24) ||| (req.ingress.setWidth 32 <<< 16) ||| req.port.setWidth 32
  let p3 := valueParam value
  (s.record 0x0001 0x01 p0 p1 p2 p3 time (op == 0x11 && s.writeFlushes p0 value)).raise 4 p0 p1 p2 p3

/-- Port 47002 takes the update opcodes and port 47000 every other (R556, R568). -/
def portTakes (op : Nat) (p : BitVec 16) : Bool :=
  if 0x40 ≤ op ∧ op ≤ 0x43 then p == 47002 else p == 47000

/-- The opcodes, WRITE aside, whose command changes the member's state, which a member barred by R516 refuses: ABORT,
SUBSCRIBE, UNSUBSCRIBE, IMAGE_COMMIT, ENROL, and the update opcodes but UPDATE_QUERY. -/
def changesState (op : Nat) : Bool := [0x12, 0x20, 0x21, 0x30, 0x33, 0x40, 0x41, 0x43].contains op

/-- NET answers BUSY from its own slot: no body, not cached; source 6 once for each run (R566). -/
def State.ownBusy (s : State) (req : Request) (op : Nat) : State :=
  let s := { s with qcp.ownSlot := some { req := req, version := BitVec.ofNat 8 s.qcpInUse, opcode := BitVec.ofNat 16 op, status := .busy },
                    qcp.counters := upd s.qcp.counters 3 sat32 }
  if s.qcp.busyRun then s else { s with qcp.busyRun := true }.raise 6

/-- SUP may take this command next: a response slot is free, and no other command waits ahead of it (R44, R563). -/
def State.canServe (s : State) (c : Command) : Bool :=
  (decide (s.qcp.responses.length < 32) || decide (s.qcp.respondedAt < s.now)) && (match s.qcp.queue with | [] => true | h :: _ => h == { c with at_ := h.at_ })

/-- SUP takes a command: its place in the queue is freed, and one that R568 marks is recorded before its effect. -/
def State.taken (s : State) (req : Request) (op : Nat) (recorded : Option (Word × List Byte)) : State :=
  let s := { s with qcp.queue := s.qcp.queue.drop 1, qcp.busyRun := false }
  match recorded with
  | none => s
  | some (p0, v) => s.recordCommand req op p0 v s.tb3

/-- What a taken command answers: a wrong port, a member that R516 bars, else what the act decides. -/
def State.judged (s : State) (req : Request) (op : Nat) (act : State → Done) : Done :=
  if !portTakes op req.modPort then refuse .badValue s
  else if s.group.versionHold && changesState op then refuse .version s
  else act s

/-- SUP takes a command, the act judges and carries it out, and the response is queued. A refused command leaves the state as it
was, unrecorded. -/
def State.serve (s : State) (req : Request) (op : Nat) (body : List Byte) (recorded : Option (Word × List Byte))
    (act : State → Done) : State :=
  if !s.running then s.ownBusy req op
  else if !s.canServe { req := req, opcode := BitVec.ofNat 16 op, body := body } then s
  else
    let d := (s.taken req op recorded).judged req op act
    if d.deferred then d.state
    else if d.status == .ok || d.keep then d.state.respond req op d.status d.body
    else (d.count (s.taken req op none)).respond req op d.status d.body

/-- The work of a deferred command ends (R565): an accepted one is recorded with the time SUP took it (R584). -/
def State.complete (s : State) (req : Request) (op : Nat) (p0 : Word) (time : Nat) (st : Status) (body : List Byte) : State :=
  let s := if st == .ok then s.recordCommand req op p0 [] time else s
  s.respond req op st body

/-! ## WRITE and READ (R81, R567, R570) -/

/-- Who writes: a host, or the load of an image, judged as a host write in CONFIG by a member in role ALONE (R81). -/
structure WriteCtx where
  load : Bool := false
  req : Request := {}
  /-- The TB3 time the command arrived, where it waited (R306). -/
  arrived : Option Nat := none

/-- The mode a write is judged in. -/
def WriteCtx.mode (c : WriteCtx) (s : State) : Mode := if c.load then .config else s.modes.mode
/-- A write refused in the positioning modes. -/
def WriteCtx.notPositioning (c : WriteCtx) (s : State) (f : Unit → Done) : Done :=
  if (c.mode s).positioning then refuse .wrongMode s else f ()
/-- A write refused outside given modes. -/
def WriteCtx.onlyIn (c : WriteCtx) (s : State) (ms : List Mode) (f : Unit → Done) : Done :=
  if ms.contains (c.mode s) then f () else refuse .wrongMode s
/-- A condition on the value. -/
def checkValue (ok : Bool) (s : State) (f : Unit → Done) : Done := if ok then f () else refuse .badValue s

/-- The frame of a WRITE of an object, as the queue of commands holds its body (R570). -/
def writeBody (obj : Word) (v : List Byte) : List Byte := be32 obj ++ zeros 2 ++ nat16 v.length ++ v
/-- The frame of a READ of an object (R570). -/
def readBody (obj : Word) (offset max : Nat) : List Byte := be32 obj ++ nat32 offset ++ nat16 max ++ zeros 2

/-- The act of a WRITE: a member barred by R516 answers VERSION; the response names the object and its DETAIL. -/
def State.writeAct (req : Request) (obj : Word) (act : WriteCtx → State → Done) (s : State) : Done :=
  let d := if s.group.versionHold then refuse .version s else act { req := req } s
  let detail : Word := match d.status with
    | .ok => d.detail
    | .notLead => if s.leadIndex == 0xF then 0xFF else s.leadIndex.setWidth 32
    | _ => if d.keep then d.detail else 0
  { d with body := be32 obj ++ be32 detail }

/-- A WRITE of an object (R570). -/
def State.hostWrite (s : State) (req : Request) (obj : Word) (value : List Byte) (act : WriteCtx → State → Done) : State :=
  let arrived := s.qcp.queue.head?.map (·.at_)
  s.serve req 0x11 (writeBody obj value) (some (obj, value)) (State.writeAct req obj fun c => act { c with arrived := arrived })

/-- What a READ finds. -/
structure ReadResult where
  status : Status := .ok
  value : List Byte := []
  state : State

/-- An object that is not read. -/
def noRead (st : Status) (s : State) : ReadResult := { status := st, state := s }
/-- An object read without a side effect. -/
def readAs (v : List Byte) (s : State) : ReadResult := { value := v, state := s }

/-- The largest count a READ may ask for (R560, R570). -/
def readLimit (req : Request) : Nat := if req.dtls.isSome then 1384 else 1416

/-- Answer a READ: at OFFSET 0 a snapshot is taken and the side effects happen; elsewhere the snapshot is read on (R570). -/
def State.readAct (s : State) (req : Request) (obj : Word) (offset max : Nat) (get : State → ReadResult) : Done :=
  if max = 0 ∨ readLimit req < max then refuse .badValue s
  else
    let answer (v : List Byte) (s : State) : Done :=
      if v.length ≤ offset then refuse .badValue s
      else
        let part := (v.drop offset).take max
        { state := s, body := be32 obj ++ nat32 offset ++ nat32 v.length ++ nat16 part.length ++ zeros 2 ++ part }
    if offset = 0 then
      let r := get s
      if r.status != .ok then refuse r.status s
      else
        let v := r.value.take 4096
        let rest := r.state.qcp.snapshots.filter (·.src != req.src)
        let snap : ReadSnapshot := { src := req.src, object := obj, at_ := s.now, value := v }
        answer v { r.state with qcp.snapshots := rest ++ [snap] }
    else
      match s.qcp.snapshots.find? fun x => x.src == req.src && x.object == obj && decide (s.now ≤ x.at_ + second) with
      | some x => answer x.value s
      | none => refuse .timeout s

/-- A READ of an object (R570); `changes`: the object is of the kind whose read may change state. A read that does change it is
recorded (R568). -/
def State.hostRead (s : State) (req : Request) (obj : Word) (offset max : Nat) (changes : Bool)
    (get : State → ReadResult) : State :=
  s.serve req 0x10 (readBody obj offset max)
    (if changes && offset == 0 && (get s).state != s then some (obj, []) else none) fun s => s.readAct req obj offset max get

/-- A host command at TB0 = `t`. One that reached the module during its last start, which is one step, found SUP not
running, and NET answered BUSY (R474, R566). -/
def runHost (t : Nat) (s : State) (f : State → State) : Out :=
  runPowered t s fun s =>
    if s.running && decide (t < s.modes.report.tb0At) then
      { f { s with modes.phase := .restarting } with modes.phase := .running }
    else f s

/-- The mode of the ingress port in QCP_SECURITY (R589). -/
def State.portSecurity (s : State) (ingress : BitVec 8) : Nat :=
  let n := ingress.toNat - 0x10
  if n < 4 then bitsOf s.qcp.security.toNat (2 * n) 2 else 0

/-- Is a positioning mode active (R26)? -/
def State.positioning (s : State) : Bool := s.modes.mode.positioning

/-- A refusal in positioning modes. -/
def State.notPositioning (s : State) : Status := if s.positioning then .wrongMode else .ok

end Sys2Proof.Machine
end

