-- ==== Sys2Proof/Machine/TimeBases.lean ====
section
/-! DEFINITION. TIM: the four bases, PTP, capture and compare units, PPS_OUT and PPS_IN (spec/03_time_bases.md). -/

namespace Sys2Proof.Machine

/-! ## States of a base (R92, R93) -/

/-- Saturate at 32 bits. -/
def cap32 (v : Nat) : Nat := min 0xFFFFFFFF v

/-- A base takes a state, and its event source reports a change: 16, 17 or 18 (R93). -/
def State.setBaseState (s : State) (n : Nat) (new : BitVec 2) : State :=
  let old := (at? s.time.tb n).state
  if old == new then s
  else
    let s := s.setTb n fun b => { b with state := new, lockedSince := if new == 2 then some s.now else none }
    s.raiseN (15 + n) (new.toNat + 4 * old.toNat) (cap32 (s.uncertainty n))

/-- The bound of R99 on the uncertainty of a base that locks, ns. -/
def State.lockBound (s : State) : Nat := if s.factory.optT then 50 else 100

/-- A base becomes LOCKED: its uncertainty starts afresh within the bound of R99 (log 5). -/
def State.lockBase (s : State) (n : Nat) : State :=
  let (k, s) := s.draw
  let s := s.setTb n fun b =>
    { b with u0 := (Config.lockUncertainty k).toNat % (s.lockBound + 1), lossAt := none, neverLocked := false }
  s.setBaseState n 2

/-- A base loses its source: HOLDOVER, with no slew and no step, its uncertainty growing from now with the ledger's
coefficients (R98). -/
def State.holdoverBase (s : State) (n : Nat) : State :=
  let b := at? s.time.tb n
  let s := s.setTb n fun b =>
    { b with slewing := false, stepPending := false, goodRun := 0,
             lossAt := if b.state == 2 then some s.now else b.lossAt,
             f := if b.state == 2 then s.hsk.oscF else b.f, a := if b.state == 2 then s.hsk.oscA else b.a }
  if b.state == 2 then s.setBaseState n 1 else s

/-- Has a base been LOCKED without a break for 10 s (R89, R93)? -/
def State.lockedTen (s : State) (m : Nat) : Bool :=
  let b := at? s.time.tb m
  b.state == 2 && (match b.lockedSince with | some t => decide (10 * second ≤ s.now - t) | none => false)

/-- The base that the lead's TB3 has for its source, 2 or 1; none while it runs at the TB0 rate (R89). A source that was the former lead's
TB3 is none for a member that leads now (R91). -/
def State.tb3Source (s : State) : Option Nat :=
  let b := s.time.tb[3]
  if !b.sourced then none
  else match b.source.toNat with
    | 0 => some 2
    | 1 => some 1
    | _ => none

/-- May base `n` be declared LOCKED now (R93)? -/
def State.mayLock (s : State) (n : Nat) : Bool :=
  let b := at? s.time.tb n
  let inside := decide (b.remaining.natAbs ≤ s.lockWindow n) && !b.slewing && !b.stepPending
  match n with
  | 1 => inside && decide (16 ≤ b.goodRun)
  | 2 =>
    inside && (if s.time.tb2Source == 0 then
        (match s.time.timeSolutionSince with | some t => decide (5 * second ≤ s.now - t) | none => false)
      else decide (3 ≤ s.time.ppsLabelled))
  | 3 =>
    inside && (if s.leadsTime then
        (match s.tb3Source with
          | some m => s.lockedTen m
          | none => false)
      else decide (100 ≤ b.goodRun))
  | _ => false

/-- Lock a base whose conditions hold. -/
def State.tryLock (s : State) (n : Nat) : State :=
  if s.mayLock n && (at? s.time.tb n).state != 2 then s.lockBase n else s

/-- May TB3 not be stepped: a positioning mode in LEAD, SPARE or ALONE (R102)? -/
def State.tb3Held (s : State) : Bool := s.positioning && s.group.role != .resync

/-- What a measured offset does (R101, R102): inside the lock window it counts toward lock; up to 100 us it is slewed;
above, it waits for a step, or for TB3 in a positioning mode is slewed with STEP_PENDING and source 20, also where STEP_PENDING was set
before the mode began. A LOCKED base that leaves the window is in HOLDOVER until the return is complete (R92). -/
def State.correct (s : State) (n : Nat) (off : Int) : State :=
  let b := at? s.time.tb n
  let (k, s) := s.draw
  let s := s.setTb n fun b => { b with offset := off, remaining := off }
  if off.natAbs ≤ s.lockWindow n then
    (s.setTb n fun b => { b with slewing := false, stepPending := false, goodRun := b.goodRun + 1,
                                 rate := (Config.disciplinedRate k).toInt }).tryLock n
  else
    let s := s.setTb n fun b => { b with goodRun := 0 }
    let s := if b.state == 2 then
        (s.setTb n fun b => { b with lossAt := some s.now, f := s.hsk.oscF, a := s.hsk.oscA }).setBaseState n 1
      else s
    if off.natAbs ≤ 100000 then s.setTb n fun b => { b with slewing := true, stepPending := false }
    else if n = 3 && s.tb3Held then
      let s := s.setTb n fun b => { b with slewing := true, stepPending := true }
      if b.stepPending && b.slewing then s else s.raise 20
    else s.setTb n fun b => { b with slewing := false, stepPending := true }

/-- The lead's TB3 follows the base it has for a source (R86, R89). -/
def State.followSource (s : State) (n : Nat) : State :=
  if s.leadsTime && s.tb3Source == some n && (at? s.time.tb n).state == 2 then
    s.correct 3 (((at? s.time.tb n).count : Int) - s.tb3)
  else s

/-- A measurement of a base against its source. -/
def State.measure (s : State) (n : Nat) (off : Int) : State := (s.correct n off).followSource n

/-! ## Steps (R101-R105) -/

/-- Extend what a capture unit's hardware holds (R112). -/
def CaptureUnit.drain (c : CaptureUnit) (ref : Nat) : CaptureUnit :=
  { c with stamps := c.stamps ++ c.hw.map (extend · ref), hw := [] }

/-- Drain every capture FIFO of a base (R105). -/
def State.drainCaptures (s : State) (n : Nat) : State :=
  { s with field.captures := s.field.captures.map fun c =>
      if c.base.toNat = n then c.drain (at? s.time.tb n).count else c }

/-- Source 22 for each edge that a capture unit has lost and not reported (R108). -/
def State.reportOverruns (s : State) : State :=
  (List.range s.field.overrunDue).foldl (fun s _ => s.raise 22) { s with field.overrunDue := 0 }

/-- Set or clear the latch of a line at a grid edge (R414). -/
def State.latchLine (s : State) (line : Nat) (on : Bool) (edge : Nat) : State :=
  let s' := { s with field.lines := upd s.field.lines line fun l => { l with latch := on } }
  s'.captureLine line (s.lineHigh line) edge

/-- The action of a compare unit on its line at the 4 ns grid edge `edge`, and its re-arming (R87, R110, R111). -/
def State.compareAct (s : State) (m edge : Nat) : State :=
  let c := at? s.time.compares m
  let line := c.line.toNat
  let s := match c.action.toNat with
    | 1 => s.pulseFrom line (c.width.toNat * us) false edge
    | 2 => s.latchLine line true edge
    | 3 => s.latchLine line false edge
    | _ => s
  { s with time.compares := upd s.time.compares m fun c =>
      { c with fired := true, actedAt := some c.target, edgeAt := some edge, en := decide (c.period ≠ 0),
               target := if c.period = 0 then c.target else c.target + c.period.toNat * ms } }

/-- Units 3 to 7 whose TARGET a forward step of base `n` passed act at once and report COMPARE_MISSED (R111). -/
def State.comparePassed (s : State) (n lo hi : Nat) : State :=
  [3, 4, 5, 6, 7].foldl (fun s m =>
    let c := at? s.time.compares m
    if c.en && c.base.toNat == n && decide (lo < c.target) && decide (c.target ≤ hi) then
      ((s.compareAct m (gridUp 4 s.now)).reportOverruns).raise 23
    else s) s

/-- The first whole multiple of the period that lies more than half a period after an instant (R104). -/
def nextTickAfter (period t : Nat) : Nat := if period = 0 then t else ((t + period / 2) / period + 1) * period

/-- The delivery grid restarts at a step of TB3 (R172): the stamps before it measure no period, and the next sample is that of the
first multiple after the step. -/
def State.restartGrid (s : State) : State :=
  { s with ain.channels := s.ain.channels.map fun c => { c with prevStamps := [], deliveredM := none, gridFrom := s.tb3 + 1 } }

/-- A base steps by an offset: captures are drained first (R105), TIME_STEP is raised with the parameters of R104. A TB3
step ends the cycle in hand and sets the next tick; `ago` is how long before now the step instant lies, for a member that follows its
lead's step (R102). -/
def State.stepBase (s : State) (n : Nat) (off : Int) (ago : Nat := 0) : State :=
  let s := s.drainCaptures n
  let before := (at? s.time.tb n).count
  let after := ((before : Int) + off).toNat
  let s := s.setTb n fun b => { b with count := after, remaining := 0, stepPending := false, slewing := false }
  let o := BitVec.ofInt 64 off
  if n = 3 then
    let s := s.restartGrid
    let next := nextTickAfter s.cyc.period (after - ago)
    let k := if s.cyc.period = 0 then 0 else next / s.cyc.period
    let p0 := BitVec.ofNat 32 (3 * 2 ^ 30 + s.cycle.count % 2 ^ 30)
    let s := { s with cycle.nextTick := next, cycle.released := true, cycle.frameDone := true, cycle.estDone := true,
                      cycle.acceptDone := true, cycle.instantDone := true, cycle.back := none, gcycle.closeDone := true,
                      sol.running := none,
                      sol.queue := s.sol.queue.filter (·.check) }
    ((s.raise 19 p0 (o.extractLsb' 32 32) (o.extractLsb' 0 32) (BitVec.ofNat 32 k)).comparePassed n before after)
  else
    let s := if n = 2 then { s with time.tb2Stepped := true, gnss.tb2SteppedSince := true } else s
    ((s.raise 19 (BitVec.ofNat 32 (n * 2 ^ 30)) (o.extractLsb' 32 32) (o.extractLsb' 0 32) (some 0)).comparePassed n before
      after).tryLock n

/-! ## PTP (R117, R118) -/

/-- Nanoseconds of a logarithmic interval. -/
def logInterval (l : Int) : Nat := if 0 ≤ l then second * 2 ^ l.toNat else second / 2 ^ (-l).toNat

/-- 10 957 days in ns: from the PTP epoch to that of R22 (R118). -/
def ptpEpoch : Int := 946684800 * 1000000000

/-- The data-set comparison of the best master clock algorithm. -/
def announceBetter (a b : PtpAnnounce) : Bool :=
  let key (x : PtpAnnounce) : List Nat :=
    [x.priority1.toNat, x.clockClass.toNat, x.accuracy.toNat, x.variance.toNat, x.priority2.toNat, x.grandmaster.toNat,
     x.stepsRemoved.toNat, x.sender.clock.toNat, x.sender.number.toNat]
  decide (key a < key b)

/-- The best of the Announces held. -/
def bestAnnounce : List PtpAnnounce → Option PtpAnnounce
  | [] => none
  | a :: rest => match bestAnnounce rest with
    | none => some a
    | some b => if announceBetter b a then some b else some a

/-- Announce receipt timeout of a candidate, ns; 3 intervals when it states none. -/
def announceTimeout (a : PtpAnnounce) : Nat := (a.receiptTimeout.getD 3) * logInterval a.logInterval

/-- TB1 listens on a port (R95 PTP_PORTS). -/
def State.ptpListens (s : State) (port : Nat) : Bool := s.time.ptpPorts.toNat.testBit port

/-- The grandmaster followed is one of the PTP timescale (R117). -/
def State.ptpMaster (s : State) : Option PtpAnnounce := s.time.ptp.master.filter (·.ptpTimescale)

/-- The best of the Announces held becomes the master; a different grandmaster is reported by TB1_STATE with bit 8 (R93). With none held
TB1 has no source (R94). -/
def State.electMaster (s : State) (cands : List PtpAnnounce) : State :=
  let best := bestAnnounce cands
  let old := s.time.ptp.master.map (·.grandmaster)
  let new := best.map (·.grandmaster)
  let s := { s with time.ptp.candidates := cands, time.ptp.master := best, time.ptp.lastAnnounce := best.map (·.rxAt) }
  if old == new then s
  else
    let s := { s with time.ptp.lastSync := none, time.ptp.twoStep := none, time.ptp.syncRx := none, time.ptp.syncPort := 0xFF,
                      time.ptp.delaySent := none }
    match new with
    | none => s.setTb 1 fun b => { b with source := 0xFF, domain := 0 }
    | some id =>
      let st := s.time.tb[1].state.toNat
      s.raise 16 (BitVec.ofNat 32 (st + 4 * st + 256)) (BitVec.ofNat 32 (cap32 (s.uncertainty 1)))
        (id.extractLsb' 32 32) (id.extractLsb' 0 32)

/-- The Announces that still stand: not past their receipt timeout, in PTP_DOMAIN, and from a port in PTP_PORTS (R117). -/
def State.liveAnnounces (s : State) : List PtpAnnounce :=
  s.time.ptp.candidates.filter fun c =>
    decide (s.now ≤ c.rxAt + announceTimeout c) && c.domain == s.time.ptpDomain && s.ptpListens c.port

/-- An Announce is held and the best master chosen. One whose receipt timeout is outside 2 to 255 is not supported (R117). -/
def State.ptpAnnounce (s : State) (port : Nat) (a : PtpAnnounce) : State :=
  let stated := a.receiptTimeout.getD 3
  if a.domain != s.time.ptpDomain || stated < 2 || 255 < stated then s
  else s.electMaster ((s.liveAnnounces.filter fun c => c.sender != a.sender) ++ [{ a with port := port, rxAt := s.now }])

/-- PTP_DOMAIN or PTP_PORTS has changed: what no longer counts goes (R95, R117). -/
def State.ptpRetune (s : State) : State := s.electMaster s.liveAnnounces

/-- A Sync's offset measurement: source minus base at reception, with the path delay (R117, R118). -/
def State.ptpOffset (s : State) (origin correction rx : Int) : State :=
  let s := { s with time.ptp.syncRx := some (origin + correction, rx) }
  s.measure 1 (origin + correction + s.time.ptp.pathDelay - ptpEpoch - rx)

/-- A message for the slave clock (R117): of the followed grandmaster alone, with intervals in the supported ranges. -/
def State.ptpMessage (s : State) (port : Nat) (m : PtpMessage) : State :=
  if !s.ptpListens port then s
  else match m with
    | .announce a => s.ptpAnnounce port a
    | .sync m =>
      match s.ptpMaster with
      | none => s
      | some g =>
        if m.domain != s.time.ptpDomain || m.sender != g.sender || m.logInterval < -4 || 1 < m.logInterval then s
        else
          let s := { s with time.ptp.lastSync := some s.now, time.ptp.syncLog := m.logInterval,
                            time.ptp.syncPort := BitVec.ofNat 8 port }
          let s := s.setTb 1 fun b => { b with source := BitVec.ofNat 8 port, domain := m.domain }
          if m.twoStep then { s with time.ptp.twoStep := some m } else s.ptpOffset m.origin m.correction m.rx
    | .followUp domain sender seq origin correction =>
      match s.time.ptp.twoStep with
      | none => s
      | some y =>
        if y.domain != domain || y.sender != sender || y.seq != seq then s
        else { s with time.ptp.twoStep := none }.ptpOffset origin (y.correction + correction) y.rx
    | .delayResp domain sender seq rxTime correction log =>
      match s.time.ptp.delaySent, s.time.ptp.syncRx with
      | some (q, t3), some (t1, t2) =>
        if q != seq || domain != s.time.ptpDomain || (s.ptpMaster.map (·.sender)) != some sender || log < -4 || 3 < log then s
        else { s with time.ptp.delaySent := none, time.ptp.delayLog := log,
                      time.ptp.pathDelay := ((t2 + ptpEpoch - t1) + (rxTime - correction - (t3 + ptpEpoch))) / 2 }
      | _, _ => s

/-! ## Commands -/

/-- PTP_MESSAGE_RECEIVED (R117). -/
def execPtpMessageReceived (t : Nat) (port : Fin 5) (msg : PtpMessage) (s : State) : Out :=
  runPowered t s fun s => s.ptpMessage port msg

/-- Is the source of a base to be declared lost (R93)? -/
def State.sourceLost (s : State) (n : Nat) : Bool :=
  let since (t : Option Nat) (d : Nat) : Bool := match t with | some t => decide (d ≤ s.now - t) | none => true
  match n with
  | 1 => since s.time.ptp.lastSync (4 * logInterval s.time.ptp.syncLog) ||
      (match s.time.ptp.master with | some a => since s.time.ptp.lastAnnounce (announceTimeout a) | none => true)
  | 2 => if s.time.tb2Source == 0 then since s.gnss.lastSolution (3 * second)
      else s.time.ppsLostRaised || since s.time.lastSentence (3 * second)
  | 3 =>
    if s.leadsTime then
      match s.tb3Source with
      | some m => (at? s.time.tb m).state != 2
      | none => false
    else s.group.links.all fun l => !(l.up && l.peer == s.leadIndex.setWidth 8)
  | _ => false

/-- The SOURCE that is left when a base's source is lost (R94): TB1 without a grandmaster, and TB3 of a member without a link to its lead,
have none; every other base keeps the source it waits for (R89, log 5). -/
def State.dropSource (s : State) (n : Nat) : State :=
  if n = 1 then s.electMaster s.liveAnnounces
  else if n = 3 && !s.leadsTime then s.setTb 3 fun b => { b with source := 0xFF, sourced := false }
  else s

/-- TB_SOURCE_LOST (R93, R98): a base whose source is lost enters HOLDOVER. -/
def execTbSourceLost (t : Nat) (base : Fin 4) (s : State) : Out :=
  runPowered t s fun s => if s.sourceLost base then (s.holdoverBase base).dropSource base else s

/-- TB3_SOURCE_CHANGE (R89): TB2 before TB1, once LOCKED for 10 s without a break; the offset it reveals is a return. A lead whose TB3
has no source, with no base to take, runs it at the TB0 rate. -/
def execTb3SourceChange (t : Nat) (source : Fin 2) (s : State) : Out :=
  runPowered t s fun s =>
    let n := if source = 0 then 2 else 1
    let b3 := s.time.tb[3]
    let code : BitVec 8 := BitVec.ofNat 8 source.val
    if s.leadsTime && s.lockedTen n && (n == 2 || s.time.tb[2].state != 2) && (s.tb3Source != some n || b3.state != 2) then
      let b := at? s.time.tb n
      let s := s.setTb 3 fun x => { x with source := code, sourced := true, rate := b.rate }
      s.correct 3 ((b.count : Int) - s.tb3)
    else if s.leadsTime && s.tb3Source == none && !s.lockedTen 2 && !s.lockedTen 1 then
      s.setTb 3 fun x => { x with source := 2, sourced := false, rate := 0 }
    else s

/-- HOLDOVER_LIMIT_EXCEEDED (R100). -/
def execHoldoverLimitExceeded (t : Nat) (base : Fin 4) (s : State) : Out :=
  runPowered t s fun s =>
    let b := s.time.tb[base]
    if base ≠ 0 && b.state == 1 && decide (b.holdoverLimit.toNat < s.uncertainty base) then s.setBaseState base 0 else s

/-- TIME_STEP (R101, R102, R104): at a whole second of the base, on the 4 ns grid. -/
def execTimeStep (t : Nat) (base : Fin 4) (s : State) : Out :=
  runPowered t s fun s =>
    let b := s.time.tb[base]
    if base ≠ 0 && b.stepPending && decide (b.count % second < 4) && !(base = 3 && s.tb3Held) then
      s.stepBase base b.remaining
    else s

/-- LEAP_SECOND (R97). -/
def execLeapSecond (t : Nat) (s : State) : Out :=
  runPowered t s fun s =>
    if s.time.leapAt ≠ 0 && decide (s.time.leapAt ≤ s.tb2) then
      { s with time.taiUtc := s.time.taiUtc + s.time.leapNext, time.leapNext := 0, time.leapAt := 0 }
    else s

/-- An edge of a unit's input, at its resolution's grid (R106): 1 us for a U channel, else 4 ns; a lost one raises source 22 (R108). -/
def State.captureEdge (s : State) (m : Nat) (rising : Bool) : State :=
  let step := if (at? s.field.captures m).input.toNat < 0x20 then us else 4
  let (lost, s) := s.stampEdge m rising (gridUp step s.now)
  if lost then s.raise 22 else s

/-- An edge of an input, for every unit that INPUT names it for (R106). -/
def State.captureInput (s : State) (input : Nat) (rising : Bool) (edge : Nat) : State :=
  let (lost, s) := s.stampInput input rising edge
  { s with field.overrunDue := s.field.overrunDue + lost }.reportOverruns

/-- CAPTURE_EDGE (R108): an edge at a unit's input that no other command brings (log 5). -/
def execCaptureEdge (t : Nat) (unit : Fin 16) (rising : Bool) (s : State) : Out :=
  runPowered t s fun s => s.captureEdge unit rising

/-- CAPTURE_DRAIN (R112): the ROM firmware extends every stamp to 64 bits, and reports what units have lost of lines that the event router
asserted (log 5). -/
def execCaptureDrain (t : Nat) (s : State) : Out :=
  runRunning t s fun s =>
    { s with field.captures := s.field.captures.map fun (c : CaptureUnit) => c.drain (at? s.time.tb c.base.toNat).count }.reportOverruns

/-- SOURCE of TBn_STATE (R94): a member that leads and whose TB3 followed the former lead has the TB0 rate for its source (R91). -/
def State.sourceCode (s : State) (n : Nat) : BitVec 8 :=
  let b := at? s.time.tb n
  if n = 3 && s.leadsTime && b.source == 3 then 2 else b.source

/-- One TBn_STATE word (R94). -/
def State.tbWord (s : State) (n : Nat) : Nat :=
  let b := at? s.time.tb n
  (s.sourceCode n).toNat * 2 ^ 16 + b.domain.toNat * 2 ^ 8 + flagBit b.neverLocked 7 + flagBit b.stepPending 5 +
    flagBit b.slewing 4 + b.state.toNat

/-- A whole second of TB2 near now: the second, and the on-time edge on the 4 ns grid nearest its ideal instant (R120), with the
edge's distance from that instant in ps, -2000 to 1999 (R121). -/
def State.wholeSecond (s : State) : Nat × Nat × Int :=
  let b := s.time.tb[2]
  let mark := (b.count + second / 2) / second * second
  let ideal : Int := ((s.now : Int) - b.count + mark) * 1000 - b.frac / 1000000
  let edge := (ideal + 1999) / 4000 * 4
  (mark, edge.toNat, edge * 1000 - ideal)

/-- The TIME body (R122) of the second `mark` with its edge at TB0 = `edge`: the bases read as they do at that instant. -/
def State.timeBody (s : State) (mark edge : Nat) (qerr : Int) (interval : Nat) (stepped suppressed : Bool) : List Byte :=
  let st (n : Nat) : List Byte := nat8 0 ++ be8 (s.sourceCode n) ++ nat8 (s.tbWord n % 256) ++ nat8 0
  let then_ (c : Nat) : List Byte := nat64 (c + edge - s.now)
  nat64 mark ++ nat64 edge ++ then_ s.tb1 ++ then_ s.tb3 ++ int32 qerr ++ nat32 interval ++ int16 s.time.taiUtc ++
    int8 s.time.leapNext ++ nat8 (flagBit stepped 0 + flagBit suppressed 1) ++ nat64 s.time.leapAt ++
    ((List.range 4).map st).flatten ++ ((List.range 4).map fun n => nat32 (cap32 (s.uncertainty n))).flatten

/-- The level of PPS_OUT (R119): a pulse of WIDTH from its on-time edge, which rises with POLARITY 0 and falls with POLARITY 1. -/
def State.ppsOutLevel (s : State) : Bool :=
  let pulse := match s.time.ppsOn with | some e => decide (e ≤ s.now) && decide (s.now < e + s.time.ppsOnWidth) | none => false
  pulse != s.time.ppsPolarity

/-- A whole second of TB2 (R120-R122): the pulse, unless MODE suppresses it, and the TIME message. No interval is 0.5 s or shorter; one
longer than 1.5 s spans seconds that no command marked, and the last of it is 1 s (log 5). -/
def State.ppsOut (s : State) : State :=
  let (mark, edge, err) := s.wholeSecond
  let gap := s.time.lastPulse.map (edge - ·)
  let far := match gap with | some g => decide (second / 2 < g) | none => true
  if 4 < (s.tb2 - mark) + (mark - s.tb2) || !far then s
  else
    let b := s.time.tb[2]
    let emit := s.time.ppsMode == 1 || (s.time.ppsMode == 2 && b.state != 0)
    let interval := match gap with | some g => if 3 * second / 2 < g then second else g | none => 0
    let body := s.timeBody mark edge (if emit then err else 0) interval s.time.tb2Stepped (!emit)
    let dest := (s.qcp.subs.filter (·.stream == 2)).map (·.handle)
    let s := { s with time.lastPulse := some edge, time.lastPulseSecond := mark, time.tb2Stepped := false,
                      time.ppsOn := if emit then some edge else s.time.ppsOn,
                      time.ppsOnWidth := if emit then s.time.ppsWidth.toNat * ms else s.time.ppsOnWidth }
    if dest.isEmpty then s else s.pushTele 2 0 body dest

/-- COMPARE_FIRE (R109-R111): CMP2 drives PPS_OUT; CMP0 and CMP1 are the rows CYCLE_TICK and COMMAND_INSTANT; the host's
units act at the first 4 ns grid edge at or after the instant at which their base reached TARGET, once for each TARGET. -/
def execCompareFire (t : Nat) (unit : Fin 8) (s : State) : Out :=
  runPowered t s fun s =>
    if unit = 2 then s.ppsOut
    else if unit.val < 3 then s
    else
      let c := s.time.compares[unit]
      let count := (at? s.time.tb c.base.toNat).count
      if c.en && decide (c.target ≤ count) && c.actedAt != some c.target then
        (s.compareAct unit (gridUp 4 (s.now - (count - c.target)))).reportOverruns
      else s

/-- Do two accepted edges follow one another by 1 s +- 10 us (R123)? -/
def edgesFollow (p q : Nat) : Bool := decide (p + second ≤ q + 10 * us) && decide (q ≤ p + second + 10 * us)

/-- PPS_IN_EDGE (R106, R123): the capture units of PPS_IN stamp it; an edge 1 s +- 10 us after the last accepted one is accepted; the first three must follow one
another so, and a stray edge among them starts the count again. -/
def execPpsInEdge (t : Nat) (s : State) : Out :=
  runPowered t s fun s =>
    let s := s.captureInput 0x20 true (gridUp 4 s.now)
    if s.time.tb2Source != 1 then s
    else
      let edge := ((s.now : Int) - s.time.ppsInDelay).toNat
      let fits := match s.time.ppsEdge with
        | some p => edgesFollow p edge
        | none => false
      if fits then
        { s with time.ppsEdge := some edge, time.ppsRun := s.time.ppsRun + 1, time.ppsLostRaised := false }
      else if s.time.ppsRun < 3 then
        { s with time.ppsEdge := some edge, time.ppsRun := 1, time.ppsLabelled := 0, time.ppsLabelledEdge := none }
      else s

/-- A time sentence labels the latest accepted edge that lies at most 1 s before its arrival at TB0 = `arrived`; UTC becomes TAI (R123).
`utc` is the whole second it names, in ns from the epoch of R22. The offset is the label, carried on to now, less what TB2 reads now. An
edge labelled a second time counts once among the consecutive ones (R93). -/
def State.labelEdge (s : State) (utc : Int) (arrived : Nat) : State :=
  if s.time.tb2Source != 1 then s
  else
    let s := { s with time.lastSentence := some arrived }
    match s.time.ppsEdge with
    | some p =>
      if s.time.ppsRun < 3 || decide (arrived < p) || decide (second < arrived - p) then s
      else
        let run := match s.time.ppsLabelledEdge with
          | some q => if q = p then s.time.ppsLabelled else if edgesFollow q p then s.time.ppsLabelled + 1 else 1
          | none => 1
        let s := { s with time.ppsLabelled := run, time.ppsLabelledEdge := some p }
        let s := s.setTb 2 fun b => { b with source := 1 }
        s.measure 2 (utc + s.time.taiUtc * 1000000000 + ((s.now - p : Nat) : Int) - s.tb2)
    | none => s

/-- PPS_IN_LOST (R123): no accepted edge for 1.5 s. -/
def execPpsInLost (t : Nat) (s : State) : Out :=
  runPowered t s fun s =>
    let late := match s.time.ppsEdge with | some p => decide (3 * second / 2 ≤ s.now - p) | none => true
    if s.time.tb2Source == 1 && late && !s.time.ppsLostRaised then
      { s with time.ppsLostRaised := true, time.ppsEdge := none, time.ppsRun := 0, time.ppsLabelled := 0,
               time.ppsLabelledEdge := none }.raise 21
    else s

/-- OVEN_STATUS (R95): 0 cold, 1 warming, 2 within specification. -/
def execOvenStatus (t : Nat) (status : BitVec 8) (s : State) : Out :=
  runPowered t s fun s =>
    if s.factory.optT && decide (status.toNat ≤ 2) then { s with time.ovenStatus := status } else s

end Sys2Proof.Machine
end

