-- ==== Sys2Proof/Machine/Dynamics.lean ====
section
/-! DEFINITION. The vessel model that the observer and the law share: thrust, wind force, the differential equations and
their integration (spec/07_vessel_observer.md, R244-R249). -/

namespace Sys2Proof.Machine

/-! ## Slices of the loaded image (R189, R193, R239) -/

/-- The reference numbered `r`: 0-11 PRS, 12-15 HDG, 16-19 MRU, 20-23 WND. Answers its KIND and INDEX. -/
def refKind (r : Nat) : Nat × Nat :=
  if r < 12 then (1, r) else if r < 16 then (2, r - 12) else if r < 20 then (3, r - 16) else (4, r - 20)
/-- The instance of a reference (R239). -/
def refInst (r : Nat) : Nat := let (k, i) := refKind r; (k - 1) * 16 + i
/-- The reference an instance names (R239). -/
def refOfInst (n : Nat) : Option Nat :=
  if n < 12 then some n else if 0x10 ≤ n ∧ n < 0x14 then some (n - 4) else if 0x20 ≤ n ∧ n < 0x24 then some (n - 16)
  else if 0x30 ≤ n ∧ n < 0x34 then some (n - 28) else none

/-- The slice of a reference in an image. -/
def Structure.refSlice (i : Structure) (r : Nat) : Option SliceRec :=
  let (k, n) := refKind r
  i.slices.find? fun x => x.kind == k && x.index == n
/-- The FUSION record of a reference in an image. -/
def Structure.refFusion (i : Structure) (r : Nat) : FusionRec :=
  let (k, n) := refKind r
  (i.fusion.find? fun x => x.kind == k && x.index == n).getD {}
/-- A point of an image. -/
def Structure.point? (i : Structure) (id : Nat) : Option PointRec := i.points.find? (·.id == id)
/-- The slice of a reference in the loaded image. -/
def State.refSlice (s : State) (r : Nat) : Option SliceRec := s.image.loaded.bind (·.refSlice r)
/-- The FUSION record of a reference in the loaded image. -/
def State.refFusion (s : State) (r : Nat) : FusionRec := ((s.image.loaded.map (·.refFusion r)).getD {})
/-- A point of the loaded image. -/
def State.point? (s : State) (id : Nat) : Option PointRec := s.image.loaded.bind (·.point? id)
/-- NOMINAL_PERIOD of a point, ns; zero for one the image does not describe. -/
def State.pointPeriod (s : State) (id : Nat) : Nat := ((s.point? id).map (·.period)).getD 0
/-- The VESSEL section in force. -/
def State.hull (s : State) : VesselRec := (s.image.loaded.map (·.hull)).getD {}
/-- Does the image hold a PRS slice with LEVEL 1 (R244)? -/
def State.tight (s : State) : Bool :=
  match s.image.loaded with
  | some i => i.fusion.any fun f => f.kind == 1 && f.level == 1
  | none => false
/-- The number of observer states: 15, and 6 more with a LEVEL 1 reference (R244). -/
def State.obsDim (s : State) : Nat := if s.tight then 21 else 15

/-! ## Thrust (R249) -/

/-- Linear interpolation in pairs of rising abscissa; beyond the ends, the end value. -/
def interp : List (F64 × F64) → F64 → F64
  | [], _ => 0
  | [a], _ => a.2
  | a :: b :: rest, x =>
    if F64.lt x a.1 then a.2
    else if F64.lt x b.1 then
      F64.add a.2 (F64.mul (F64.div (F64.sub b.2 a.2) (F64.sub b.1 a.1)) (F64.sub x a.1))
    else interp (b :: rest) x

/-- Does every row of MAP hold the same pitch ratio (R249)? -/
def ThrusterRec.onSpeed (r : ThrusterRec) : Bool := match r.map with | [] => true | a :: rest => rest.all fun b => F32.eq a.pitch b.pitch

/-- The thrust of a measurement, from MAP: on shaft speed when every row holds the same pitch ratio, else on pitch. -/
def ThrusterRec.measuredThrust (r : ThrusterRec) (x : F64) : F64 :=
  interp (r.map.map fun m => (F64.of32 (if r.onSpeed then m.speed else m.pitch), F64.of32 m.thrust)) x

/-- The set-point of a slice in a command set. -/
def setOf (sets : List ThrusterSet) (slice : Nat) : ThrusterSet := (sets.find? (·.slice == slice)).getD { slice := slice }

/-- How a thruster's force is known: by the safety removal, a measurement, or the command (R249). -/
inductive ForceSource where
  | zero | measured | command
  deriving DecidableEq, Repr

/-- The force of one thruster at an instant (R249). With `held`, from the set-points alone: the prediction to t_k + C and the estimate
after a restart (R271, R277). DEDUCED (log 39): a removed enable leaves no thrust there either. -/
def State.thrusterForce (s : State) (held : Bool) (r : ThrusterRec) (time : Nat) : ForceSource × F64 × F64 :=
  let t := at? s.law.thr r.slice
  if (match t.offAt with | some a => decide (a ≤ time) | none => false) then (.zero, 0, 0)
  else
    let azimuth : Option F64 := if r.type_ = 0 then some 0 else t.measured.map fun m => F64.of32 m.2
    let measured := if r.onSpeed then t.shaft else t.pitchRatio
    match (if t.noFeedback || held then none else measured), azimuth with
    | some (_, v), some az =>
      let x := F64.of32 v
      let f := r.measuredThrust x
      if r.type_ = 0 then
        let m := F64.abs f
        (.measured, 0, if F64.lt x 0 then F64.neg m else m)
      else (.measured, F64.mul f (F64.cos az), F64.mul f (F64.sin az))
    | _, _ =>
      let sets := if s.cycle.appliedAt ≤ time then s.cycle.applied else s.cycle.appliedBefore
      let x := setOf sets r.slice
      (.command, F64.of32 x.fx, F64.of32 x.fy)

/-- Generalised force of thrust at a position: (F_x, F_y, x F_y - y F_x). -/
def generalised (x y fx fy : F64) : Vec := [fx, fy, F64.sub (F64.mul x fy) (F64.mul y fx)]

/-- The thrust input at an instant: the sum over thruster slices. -/
def State.thrustAt (s : State) (held : Bool) (time : Nat) : Vec :=
  match s.image.loaded with
  | none => [0, 0, 0]
  | some i => i.thrusters.foldl (fun a r =>
      let (_, fx, fy) := s.thrusterForce held r time
      Vec.plus a (generalised r.x r.y fx fy)) [0, 0, 0]

/-- The pieces of the thrust input over a cycle that ends at `to`: it changes at a command instant and at a removal. -/
def State.thrustPieces (s : State) (held : Bool) (start stop : Nat) : List (Nat × Vec) :=
  let offs := s.law.thr.toList.filterMap (·.offAt)
  let cuts := ((s.cycle.appliedAt :: offs).filter fun c => decide (start < c) && decide (c ≤ stop)).mergeSort
  (start :: cuts).map fun c => (c, s.thrustAt held c)

/-- The input in force at an instant. -/
def pieceAt (ps : List (Nat × Vec)) (time : Nat) : Vec :=
  match ps.foldl (fun (b : Option Vec) p => if p.1 ≤ time then some p.2 else b) none with
  | some v => v
  | none => match ps with | p :: _ => p.2 | [] => [0, 0, 0]

/-! ## Wind (R247) -/

/-- Interpolate a column of WIND_TABLE, wrapping from the last row to the first across 2 pi. -/
def windCoefficient (rows : List WindRow) (col : WindRow → F32) (gamma : F64) : F64 :=
  let g := F64.wrap2Pi gamma
  match rows with
  | [] => 0
  | first :: _ =>
    let last := rows.getLastD first
    let pts := rows.map fun r => (F64.of32 r.angle, F64.of32 (col r))
    let before := (F64.sub (F64.of32 last.angle) F64.twoPi, F64.of32 (col last))
    let after := (F64.add (F64.of32 first.angle) F64.twoPi, F64.of32 (col first))
    interp (before :: pts ++ [after]) g

/-- The wind force of R247. -/
def State.windForce (s : State) (speed gamma : F32) : Vec :=
  let h := s.hull
  let v := F64.of32 speed
  let q := F64.mul (F64.mul F64.half (F64.of32 s.obsParams.airDensity)) (F64.mul v v)
  let g := F64.of32 gamma
  [F64.mul (F64.mul q h.aFrontal) (windCoefficient h.wind (·.cx) g),
   F64.mul (F64.mul q h.aLateral) (windCoefficient h.wind (·.cy) g),
   F64.mul (F64.mul (F64.mul q h.aLateral) h.lengthPp) (windCoefficient h.wind (·.cn) g)]

/-! ## The model (R245, R246, R273) -/

/-- What the equations of R245 hold fixed over a cycle. -/
structure VesselModel where
  dim : Nat := 15
  massInv : Mat := []
  damping : Mat := []
  w0 : F64 := 0
  lambda : F64 := 0
  biasTau : F64 := 0
  /-- The bias is held while dead reckoning (R267). -/
  holdBias : Bool := false
  /-- Heading, position have not been initialised (R257). -/
  holdHeading : Bool := false
  holdPosition : Bool := false
  /-- Noise intensities, state by state. -/
  noise : Vec := []

/-- WAVE_SIGMA of each wave output: n, e, psi (R273). -/
def State.waveSigma (s : State) (i : Nat) : F64 :=
  let w := F64.of32 s.obsParams.waveSigma
  if i < 2 then w else F64.div w (F64.div s.hull.lengthPp F64.two)
/-- BIAS_SIGMA of each bias component (R273). -/
def State.biasSigma (s : State) (i : Nat) : F64 :=
  let b := F64.of32 s.obsParams.biasSigma
  if i < 2 then b else F64.mul b (F64.div s.hull.lengthPp F64.two)

/-- The noise intensities of R273. -/
def State.noise (s : State) : Vec :=
  let p := s.obsParams
  let a := F64.of32 p.accelSigma
  let yaw := F64.div (F64.mul a F64.two) s.hull.lengthPp
  let four := F64.mul F64.two F64.two
  let wave (i : Nat) := F64.mul (F64.mul four (F64.mul (F64.of32 p.waveDamping) (F64.of32 p.waveFreq)))
    (F64.mul (s.waveSigma i) (s.waveSigma i))
  let bias (i : Nat) := F64.div (F64.mul F64.two (F64.mul (s.biasSigma i) (s.biasSigma i))) (F64.of32 p.biasTau)
  let h := F64.of32 p.heightNoise
  let c := F64.of32 p.clockNoise
  let d := F64.div c (F64.ofNat 100)
  let sq (x : F64) := F64.mul x x
  [0, 0, 0, sq a, sq a, sq yaw, 0, wave 0, 0, wave 1, 0, wave 2, bias 0, bias 1, bias 2, sq h, 0, sq c, sq d, sq d, sq d]

/-- The model in force. -/
def State.model (s : State) : VesselModel :=
  { dim := s.obsDim, massInv := Mat.inv 3 (Mat.ofFlat 3 3 s.hull.mass), damping := Mat.ofFlat 3 3 s.hull.damping,
    w0 := F64.of32 s.obsParams.waveFreq, lambda := F64.of32 s.obsParams.waveDamping,
    biasTau := F64.of32 s.obsParams.biasTau, holdBias := s.obs.posDr || s.obs.hdgDr, holdHeading := decide (s.obs.state.toNat < 2),
    holdPosition := s.obs.state != 3, noise := s.noise }

/-- The right-hand side of R245. -/
def VesselModel.rate (m : VesselModel) (tau x : Vec) : Vec :=
  let psi := x.at 2
  let nu := [x.at 3, x.at 4, x.at 5]
  let b := [x.at 12, x.at 13, x.at 14]
  let eta := (rotZ psi).app nu
  let force := Vec.minus (Vec.plus tau ((Mat.tr 3 3 (rotZ psi)).app b)) (m.damping.app nu)
  let acc := m.massInv.app force
  let w2 := F64.mul m.w0 m.w0
  let l2 := F64.mul (F64.mul F64.two m.lambda) m.w0
  let wave (i : Nat) : Vec :=
    [x.at (7 + 2 * i), F64.neg (F64.add (F64.mul w2 (x.at (6 + 2 * i))) (F64.mul l2 (x.at (7 + 2 * i))))]
  let bias := if m.holdBias then [0, 0, 0] else b.map fun v => F64.neg (F64.div v m.biasTau)
  let core := eta ++ acc ++ wave 0 ++ wave 1 ++ wave 2 ++ bias
  if m.dim = 21 then core ++ [0, x.at 17, 0, 0, 0, 0] else core

/-- The Jacobian F of the model. -/
def VesselModel.jacobian (m : VesselModel) (x : Vec) : Mat :=
  let psi := x.at 2
  let c := F64.cos psi
  let sn := F64.sin psi
  let u := x.at 3
  let v := x.at 4
  let bn := x.at 12
  let be := x.at 13
  let md := Mat.mul 3 3 3 m.massInv m.damping
  let mr := Mat.mul 3 3 3 m.massInv (Mat.tr 3 3 (rotZ psi))
  let dpsi := m.massInv.app [F64.sub (F64.mul c be) (F64.mul sn bn), F64.neg (F64.add (F64.mul c bn) (F64.mul sn be)), 0]
  let w2 := F64.mul m.w0 m.w0
  let l2 := F64.mul (F64.mul F64.two m.lambda) m.w0
  mkMat m.dim m.dim fun i j =>
    if i = 0 then
      if j = 2 then F64.neg (F64.add (F64.mul u sn) (F64.mul v c)) else if j = 3 then c else if j = 4 then F64.neg sn else 0
    else if i = 1 then
      if j = 2 then F64.sub (F64.mul u c) (F64.mul v sn) else if j = 3 then sn else if j = 4 then c else 0
    else if i = 2 then if j = 5 then F64.one else 0
    else if i < 6 then
      if j = 2 then dpsi.at (i - 3)
      else if 3 ≤ j ∧ j < 6 then F64.neg (md.at (i - 3) (j - 3))
      else if 12 ≤ j ∧ j < 15 then mr.at (i - 3) (j - 12)
      else 0
    else if i < 12 then
      if i % 2 = 0 then (if j = i + 1 then F64.one else 0)
      else if j + 1 = i then F64.neg w2 else if j = i then F64.neg l2 else 0
    else if i < 15 then
      if j = i && !m.holdBias then F64.neg (F64.div F64.one m.biasTau) else 0
    else if i = 16 then if j = 17 then F64.one else 0
    else 0

/-- Phi = I + F dt + (F dt)^2 / 2 (R246). -/
def VesselModel.transition (m : VesselModel) (x : Vec) (dt : F64) : Mat :=
  let n := m.dim
  let f := Mat.scale dt (m.jacobian x)
  Mat.plus n n (Mat.plus n n (Mat.one n) f) (Mat.scale F64.half (Mat.mul n n n f f))

/-- A state with its covariance, and the transition since a start. -/
structure Estimate where
  x : Vec := []
  p : Mat := []
  phi : Mat := []

/-- The bias as it was, and its covariance rows (R267). -/
def Estimate.keepBias (old new : Estimate) : Estimate :=
  let b (i : Nat) : Bool := decide (12 ≤ i) && decide (i < 15)
  { new with x := new.x.mapIdx fun i v => if b i then old.x.at i else v,
             p := new.p.mapIdx fun i row => row.mapIdx fun j v => if b i || b j then old.p.at i j else v }

/-- Before step 1 of R257 the heading is 0; before step 2 the position is the NED origin with variance 10⁸ m². -/
def VesselModel.pin (m : VesselModel) (e : Estimate) : Estimate :=
  let e := if m.holdHeading then { e with x := e.x.set 2 0 } else e
  if m.holdPosition then
    { e with x := (e.x.set 0 0).set 1 0,
             p := e.p.mapIdx fun i row => row.mapIdx fun j v =>
               if i < 2 ∨ j < 2 then (if i = j then F64.ofNat 100000000 else 0) else v }
  else e

/-- One sub-step of Heun's method, with the covariance (R246); what R257 and R267 hold stays. -/
def VesselModel.subStep (m : VesselModel) (tau : Vec) (dt : F64) (e : Estimate) : Estimate :=
  let n := m.dim
  let k1 := m.rate tau e.x
  let k2 := m.rate tau (Vec.plus e.x (Vec.scale dt k1))
  let x := Vec.plus e.x (Vec.scale (F64.mul F64.half dt) (Vec.plus k1 k2))
  let f := m.transition e.x dt
  let p := Mat.mul n n n (Mat.mul n n n f e.p) (Mat.tr n n f)
  let q (i : Nat) : F64 := if m.holdBias && decide (12 ≤ i) && decide (i < 15) then 0 else F64.mul (m.noise.at i) dt
  let new : Estimate := { x := x, p := mkMat n n fun i j => if i = j then F64.add (p.at i j) (q i) else p.at i j,
                          phi := Mat.mul n n n f e.phi }
  m.pin (if m.holdBias then e.keepBias new else new)

/-- Propagate from `start` to `stop` in sub-steps of 2 ms and a remainder; the inputs are those at the start of each
sub-step. -/
def VesselModel.propagate (m : VesselModel) (pieces : List (Nat × Vec)) (wind : Vec) (start stop : Nat)
    (e : Estimate) : Estimate :=
  (List.range ((stop - start + (2 * ms - 1)) / (2 * ms))).foldl (fun e i =>
    let a := start + i * (2 * ms)
    let b := min stop (a + 2 * ms)
    m.subStep (Vec.plus (pieceAt pieces a) wind) (secondsOf (b - a)) e) e

/-- The observer's present estimate. -/
def State.estimate (s : State) : Estimate :=
  let n := s.obsDim
  { x := s.obs.x, p := Mat.ofFlat n n s.obs.p, phi := Mat.one n }

/-- The last history entry before an instant, with its place (R258). -/
def entryBefore (h : List HistoryEntry) (time : Nat) : Option (HistoryEntry × Nat) :=
  h.zipIdx.foldl (fun (b : Option (HistoryEntry × Nat)) q => if q.1.at_ < time then some q else b) none

/-- The observer's state at an instant without an update (R207, R217, R272): from the present estimate, or for an earlier instant from
the history entry before it. -/
def State.predicted (s : State) (time : Nat) : Vec :=
  if s.obs.at_ ≤ time then
    (s.model.propagate (s.thrustPieces false s.obs.at_ time) s.obs.wind s.obs.at_ time s.estimate).x
  else
    match entryBefore s.history time with
    | some (q, _) =>
      let n := s.obsDim
      (s.model.propagate q.thrust q.wind q.at_ time { x := q.x, p := Mat.ofFlat n n q.p, phi := Mat.one n }).x
    | none => s.obs.x

/-- Total position and heading: low-frequency plus wave (R253, R272). -/
def totalPose (x : Vec) : F64 × F64 × F64 := (F64.add (x.at 0) (x.at 7), F64.add (x.at 1) (x.at 9), F64.add (x.at 2) (x.at 11))

/-- The low-frequency velocity in NED, and the yaw rate. -/
def nedVelocity (x : Vec) : Vec := (rotZ (x.at 2)).app [x.at 3, x.at 4, x.at 5]

end Sys2Proof.Machine
end

