-- ==== Sys2Proof/Machine/Association.lean ====
section
/-! DEFINITION. Optical returns and the minimum-total-cost assignment (spec/06_reference_fusion.md, R232-R235). -/

namespace Sys2Proof.Machine

/-- The working arrays of the shortest augmenting path method; column and row 0 stand for none. -/
structure AssignWork where
  u : List F64
  v : List F64
  /-- The row each column is assigned to, from 1; 0 none. -/
  p : List Nat
  way : List Nat
  minv : List F64
  used : List Bool

/-- One extension of the path tree from column `j0`: answers the next column. -/
def AssignWork.extend (w : AssignWork) (m : Nat) (cost : Nat → Nat → F64) (j0 : Nat) : Nat × AssignWork :=
  let w := { w with used := w.used.set j0 true }
  let i0 := w.p.getD j0 0
  let cols := (List.range m).map (· + 1)
  let w := cols.foldl (fun w j =>
    if w.used.getD j false then w
    else
      let cur := F64.sub (F64.sub (cost (i0 - 1) (j - 1)) (Vec.at w.u i0)) (Vec.at w.v j)
      if F64.lt cur (w.minv.getD j F64.inf) then { w with minv := w.minv.set j cur, way := w.way.set j j0 } else w) w
  let (delta, j1) := cols.foldl (fun (b : F64 × Nat) j =>
    if !w.used.getD j false && F64.lt (w.minv.getD j F64.inf) b.1 then (w.minv.getD j F64.inf, j) else b) (F64.inf, 0)
  let w := (List.range (m + 1)).foldl (fun w j =>
    if w.used.getD j false then
      let i := w.p.getD j 0
      { w with u := w.u.set i (F64.add (Vec.at w.u i) delta), v := w.v.set j (F64.sub (Vec.at w.v j) delta) }
    else { w with minv := w.minv.set j (F64.sub (w.minv.getD j F64.inf) delta) }) w
  (j1, w)

/-- Grow the tree until a free column is reached. -/
def AssignWork.grow (m : Nat) (cost : Nat → Nat → F64) : Nat → Nat → AssignWork → Nat × AssignWork
  | 0, j0, w => (j0, w)
  | f + 1, j0, w =>
    let (j1, w) := w.extend m cost j0
    if w.p.getD j1 0 = 0 then (j1, w) else AssignWork.grow m cost f j1 w

/-- Turn the path to column `j` over. -/
def AssignWork.flip : Nat → Nat → AssignWork → AssignWork
  | 0, _, w => w
  | f + 1, j, w =>
    if j = 0 then w
    else
      let j1 := w.way.getD j 0
      AssignWork.flip f j1 { w with p := w.p.set j (w.p.getD j1 0) }

/-- The column each of `n` rows is assigned among `m` columns at least total cost (R233 step 4). -/
def assignment (n m : Nat) (cost : Nat → Nat → F64) : List Nat :=
  let start : AssignWork :=
    { u := List.replicate (n + 1) 0, v := List.replicate (m + 1) 0, p := List.replicate (m + 1) 0,
      way := List.replicate (m + 1) 0, minv := [], used := [] }
  let w := (List.range n).foldl (fun w i =>
    let w := { w with p := w.p.set 0 (i + 1), minv := List.replicate (m + 1) F64.inf,
                      used := List.replicate (m + 1) false }
    let (j, w) := AssignWork.grow m cost (m + 1) 0 w
    AssignWork.flip (m + 1) j w) start
  (List.range n).map fun i =>
    ((List.range m).find? fun j => w.p.getD (j + 1) 0 == i + 1).getD m

/-- The body-frame vector of a return: DIRECT gives x and y, else range, bearing and elevation (R232, R233). -/
def Return.body (x : Return) (direct : Bool) : Vec :=
  let r := F64.of32 x.range
  let b := F64.of32 x.bearing
  let e := F64.of32 x.elevation
  if direct then [r, b, 0]
  else
    let h := F64.mul r (F64.cos e)
    [F64.mul h (F64.cos b), F64.mul h (F64.sin b), F64.neg (F64.mul r (F64.sin e))]

/-- A reflector's place in NED, less the target origin: the target frame turned by the rotation of TARGET_POSE. -/
def reflectorNed (rotation : F32) (p : F32 × F32 × F32) : F64 × F64 :=
  let v := (rotZ (F64.of32 rotation)).app [F64.of32 p.1, F64.of32 p.2.1, 0]
  (v.at 0, v.at 1)

/-- The associations of a datagram's returns (R233): with no reflectors, exactly one return, to the target origin. -/
def State.associate (s : State) (r : Nat) (direct : Bool) (rets : List Return) (stamp : Nat) : List (BitVec 8) :=
  let f := s.refFusion r
  let c := at? s.fusion.sets r
  let nr := f.reflectors.length
  if nr = 0 then (if rets.length = 1 then [0] else rets.map fun _ => 0xFF)
  else
    let x := s.predicted stamp
    let (n, e, psi) := totalPose x
    let lever := ((s.refSlice r).map (·.lever)).getD [0, 0, 0]
    let base := if (at? s.fusion.refs r).state == 1 then (c.targetPose.1, c.targetPose.2.1) else c.offset
    let inv := Mat.tr 3 3 (rotZ psi)
    let predictedAt (j : Nat) : Vec :=
      let (rn, re) := reflectorNed c.targetPose.2.2 (f.reflectors.getD j (0, 0, 0))
      Vec.minus (inv.app [F64.sub (F64.add base.1 rn) n, F64.sub (F64.add base.2 re) e, 0])
        [F64.of32 (lever.getD 0 0), F64.of32 (lever.getD 1 0), 0]
    let gate2 := F64.mul (F64.of32 s.fusion.assocGate) (F64.of32 s.fusion.assocGate)
    let cost (i j : Nat) : F64 :=
      if nr ≤ j then gate2
      else
        let a := Return.body (rets.getD i {}) direct
        let b := predictedAt j
        let dx := F64.sub (a.at 0) (b.at 0)
        let dy := F64.sub (a.at 1) (b.at 1)
        F64.add (F64.mul dx dx) (F64.mul dy dy)
    (assignment rets.length (nr + rets.length) cost).zipIdx.map fun (j, i) =>
      if nr ≤ j || F64.lt gate2 (cost i j) then 0xFF else BitVec.ofNat 8 j

/-- The bytes of a reference datagram as R232 lays them out; `none` when it is invalid. Answers also AGE_US. -/
def parseDatagram (bs : List Byte) : Option (Nat × Bool × List Return) :=
  let count := fieldAt bs 3 1
  let flags := fieldAt bs 12 2
  let one (i : Nat) : Return :=
    let o := 16 + 16 * i
    { range := f32At bs o, bearing := f32At bs (o + 4), elevation := f32At bs (o + 8), quality := BitVec.ofNat 8 (fieldAt bs (o + 12) 1) }
  let reservedOk := flags < 2 && zeroAt bs 14 2 && (List.range count).all fun i => zeroAt bs (16 + 16 * i + 13) 3
  if bs.length = 16 + 16 * count ∧ fieldAt bs 0 2 = 0x5152 ∧ fieldAt bs 2 1 = 1 ∧ count ≤ 16 ∧ reservedOk then
    some (fieldAt bs 8 4, flags == 1, (List.range count).map one)
  else none

/-- A reference datagram for the slices a point feeds is associated when it comes; ASSOCIATION_FAIL when it has returns
and none associates (R233, R234). Answers the sample's value. -/
def State.takeDatagram (s : State) (point : Nat) (d : Option (Bool × List Return)) (stamp : Nat) : SampleVal × State :=
  match d with
  | none => (.datagram none [], s)
  | some (direct, rets) =>
    match (List.range 12).find? fun r => ((s.refSlice r).map (·.points.contains point)).getD false with
    | none => (.datagram d [], s)
    | some r =>
      let a := s.associate r direct rets stamp
      let n := (a.filter (· != 0xFF)).length
      let s := { s with fusion.sets := upd s.fusion.sets r fun c =>
                   { c with assocCount := rets.length, assocN := n, assoc := a ++ List.replicate (16 - a.length) 0xFF } }
      (.datagram d a, if rets.length ≠ 0 ∧ n = 0 then s.raise 44 else s)

end Sys2Proof.Machine
end

