-- ==== Sys2Proof/Machine/Fusion.lean ====
section
/-! DEFINITION. Reference alignment and fusion: readings, weights, the vote, admission, refinement, motion and wind
(spec/06_reference_fusion.md). -/

namespace Sys2Proof.Machine

/-! ## Readings -/

/-- Does a reference exist in the loaded image and is it not disabled? -/
def State.refLive (s : State) (r : Nat) : Bool := (s.refSlice r).isSome && (at? s.fusion.refs r).state != 0

/-- NOMINAL_PERIOD of a reference's slowest point, ns (R216). -/
def State.refPeriod (s : State) (r : Nat) : Nat :=
  match s.refSlice r with
  | none => 0
  | some x => (x.points.map s.pointPeriod).foldl max 0

/-- REF_TIMEOUT (R216). -/
def State.refTimeout (s : State) (r : Nat) : Nat := max (4 * s.refPeriod r) (10 * s.cyc.period)

/-- Change a reference's state. -/
def State.setRef (s : State) (r : Nat) (f : RefState → RefState) : State :=
  { s with fusion.refs := upd s.fusion.refs r f }
/-- Change a reference's settings. -/
def State.setRefCfg (s : State) (r : Nat) (f : RefSettings → RefSettings) : State :=
  { s with fusion.sets := upd s.fusion.sets r f }

/-- A reference enters ADMITTING (R216, R223, R239). -/
def State.admitting (s : State) (r : Nat) : State :=
  s.setRef r fun x => { x with state := 1, cause := 0, consec := 0, validRun := 0, inRun := false, admitSum := (0, 0), admission := none }

/-- The references a point feeds. -/
def State.refsOfPoint (s : State) (point : Nat) : List Nat :=
  (List.range 24).filter fun r => ((s.refSlice r).map (·.points.contains point)).getD false

/-- Count a happening of a sample on every reference its point feeds: 0 LATE, 1 LATE_DROPPED, 2 SUPERSEDED, 3 FUTURE,
4 INVALID (R239). LATE and LATE_DROPPED raise sources 32 and 33 (R203). -/
def State.countRef (s : State) (point which : Nat) : State :=
  (s.refsOfPoint point).foldl (fun s r =>
    let s := s.setRef r fun x => match which with
      | 0 => { x with cntLate := sat32 x.cntLate }
      | 1 => { x with cntLateDropped := sat32 x.cntLateDropped }
      | 2 => { x with cntSuperseded := sat32 x.cntSuperseded }
      | 3 => { x with cntFuture := sat32 x.cntFuture }
      | _ => { x with cntInvalid := sat32 x.cntInvalid }
    if which < 2 then s.raise (32 + which) else s) s

/-- A value in its unit, and whether it is valid (R190, R194). -/
def sampleNumber : SampleVal → Option F64
  | .ai v st => if st.getLsbD 0 || st.getLsbD 1 || st.getLsbD 4 then none else some (F64.of32 v)
  | .scalar v ok => if ok then some v else none
  | _ => none

/-- Is a sample valid of itself (R194)? -/
def sampleValid : SampleVal → Bool
  | .ai _ st => !(st.getLsbD 0 || st.getLsbD 1 || st.getLsbD 4)
  | .scalar _ ok => ok
  | .fix q _ _ _ _ ok => ok && decide (q ≠ 0)
  | .epoch .. => true
  | .datagram d a => d.isSome && a.any (· != 0xFF)
  | .feedback _ ok => ok

/-- One reading of a reference: its points' samples from one member's copy. -/
structure Reading where
  member : Nat := 0
  stamp : Nat := 0
  late : Bool := false
  vals : List (Option Sample) := []

/-- The copy a sample belongs to: its member for a point every member carries, else 0xFF (R198, R224). -/
def State.copyKey (s : State) (x : Sample) : Nat := if ((s.point? x.point).map (·.member)) = some 0xFF then x.member else 0xFF

/-- The better of two samples of one point: valid before invalid, then the later stamp (R201). -/
def betterSample (a b : Sample) : Bool :=
  let va := sampleValid a.val
  let vb := sampleValid b.val
  if va != vb then va else decide (b.stamp < a.stamp)

/-- The best of some samples. -/
def bestSample : List Sample → Option Sample
  | [] => none
  | x :: rest => match bestSample rest with
    | none => some x
    | some y => if betterSample y x then some y else some x

/-- The readings of a reference that some samples give; a point with no sample among them keeps its held one. -/
def State.readings (s : State) (r : Nat) (xs : List Sample) (late : Bool) : List Reading :=
  match s.refSlice r with
  | none => []
  | some sl =>
    let own := xs.filter fun x => sl.points.contains x.point
    let keys := (own.map s.copyKey).eraseDups
    let keys := if keys.any (· != 0xFF) then keys.filter (· != 0xFF) else keys
    keys.map fun k =>
      let mine (l : List Sample) (p : Nat) := bestSample (l.filter fun x => x.point == p && (s.copyKey x == k || s.copyKey x == 0xFF))
      let fresh := own.filter fun x => s.copyKey x == k || s.copyKey x == 0xFF
      { member := k, late := late, stamp := (fresh.map (·.stamp)).foldl max 0,
        vals := sl.points.map fun p => (mine own p).orElse fun _ => mine s.fusion.held p }

/-- The value of a reading's point `i`. -/
def Reading.val? (x : Reading) (i : Nat) : Option SampleVal := ((x.vals.getD i none).map (·.val))
/-- The number of a reading's point `i`, when valid. -/
def Reading.num (x : Reading) (i : Nat) : Option F64 := (x.val? i).bind sampleNumber

/-- Does a slice take its samples from ANT points (R189)? -/
def State.onAnt (s : State) (sl : SliceRec) : Bool := sl.points.any fun p => ((s.point? p).map (·.kind)) == some 7

/-- Is a reading valid (R194, R236)? A LEVEL 1 reference's epoch counts as valid; whether it can vote is R213's. -/
def State.readingValid (s : State) (r : Nat) (sl : SliceRec) (x : Reading) : Bool :=
  let (kind, _) := refKind r
  if kind = 3 then
    match x.num 0, x.num 1 with
    | some a, some b => !(F64.lt F64.half (F64.abs a)) && !(F64.lt F64.half (F64.abs b))
    | _, _ => false
  else if kind = 4 then (x.num 0).isSome && (x.num 1).isSome
  else if s.onAnt sl then
    match x.val? 0 with
    | some (.epoch _ pvt h) =>
      if kind = 2 then h.state == 2
      else (s.refFusion r).level == 1 || pvt.fixType != 0
    | _ => false
  else if kind = 2 then (x.num 0).isSome
  else if sl.principle = 2 then (x.num 0).isSome && (x.num 1).isSome
  else ((x.val? 0).map sampleValid).getD false

/-- Is a sample invalid for the reference that its point feeds (R194, R236)? An epoch without a solution is invalid for a
position, one without a FIXED heading for a heading. -/
def State.sampleBad (s : State) (r : Nat) (sl : SliceRec) (x : Sample) : Bool :=
  let (kind, _) := refKind r
  if kind = 3 then
    match sampleNumber x.val with
    | none => true
    | some v => (sl.points.take 2).contains x.point && F64.lt F64.half (F64.abs v)
  else if s.onAnt sl then
    match x.val with
    | .epoch _ pvt h => if kind = 2 then h.state != 2 else pvt.fixType == 0
    | _ => true
  else !sampleValid x.val

/-- The points of a slice under which a sample counts once: an epoch comes under each of its ANT points (R199). -/
def State.countedPoints (s : State) (sl : SliceRec) : List Nat := if s.onAnt sl then sl.points.take 1 else sl.points

/-- A frame's invalid samples count on their references (R194). -/
def State.countInvalid (s : State) (xs : List Sample) : State :=
  (List.range 24).foldl (fun s r =>
    match s.refSlice r with
    | none => s
    | some sl =>
      let n := (xs.filter fun x => (s.countedPoints sl).contains x.point && s.sampleBad r sl x).length
      if n = 0 then s else s.setRef r fun q => { q with cntInvalid := satAdd (2 ^ 32 - 1) q.cntInvalid n }) s

/-- The valid samples of a point, beyond the one with the latest stamp, count as SUPERSEDED: per reference, and per copy
(R201). -/
def State.countSuperseded (s : State) (xs : List Sample) : State :=
  (List.range 24).foldl (fun s r =>
    match s.refSlice r with
    | none => s
    | some sl =>
      let own := xs.filter fun x => (s.countedPoints sl).contains x.point && !s.sampleBad r sl x
      let n := own.length - ((own.map fun x => (x.point, x.member)).eraseDups).length
      if n = 0 then s else s.setRef r fun q => { q with cntSuperseded := satAdd (2 ^ 32 - 1) q.cntSuperseded n }) s

/-- Late samples by the cycle in whose window their stamp lies, oldest first (R203). -/
def State.lateWindows (s : State) (xs : List Sample) : List (List Sample) :=
  let j (x : Sample) : Nat := (x.stamp + s.cyc.period - 1) / s.cyc.period
  (((xs.map j).eraseDups).mergeSort fun a b => decide (a ≤ b)).map fun n => xs.filter fun x => j x == n

/-! ## Motion and wind (R210, R236, R237) -/

/-- Roll and pitch for a stamp: the lowest-numbered MRU slice with a valid sample within 2T before it; `false` when there
is none (R210). -/
def State.attitudeAt (s : State) (stamp : Nat) : F64 × F64 × Bool :=
  let ok := s.wind.motion.filter fun m => decide (m.2.1 ≤ stamp) && decide (stamp ≤ m.2.1 + 2 * s.cyc.period)
  let best := ok.foldl (fun (b : Option (Nat × Nat × F64 × F64)) m => match b with
    | none => some m
    | some c => if m.1 < c.1 ∨ (m.1 = c.1 ∧ c.2.1 < m.2.1) then some m else some c) none
  match best with
  | some m => (m.2.2.1, m.2.2.2, true)
  | none => (0, 0, false)

/-- The wind of R237 among slices with their newest valid sample: WIND_SELECT, and speed and direction. -/
def State.chooseWind (s : State) (tk : Nat) : BitVec 8 × Option (F32 × F32) :=
  let ok := (s.wind.windSamples.filter fun w => decide (tk ≤ w.2.1 + 2 * second) && (at? s.fusion.sets (20 + w.1)).enable).mergeSort
    (fun a b => decide (a.1 ≤ b.1))
  match ok with
  | [] => (0xFF, none)
  | first :: _ =>
    let n := F64.ofNat ok.length
    let sx := F64.div (ok.foldl (fun a w => F64.add a (F64.mul w.2.2.1 (F64.cos w.2.2.2))) 0) n
    let sy := F64.div (ok.foldl (fun a w => F64.add a (F64.mul w.2.2.1 (F64.sin w.2.2.2))) 0) n
    let v := F64.sqrt (F64.add (F64.mul sx sx) (F64.mul sy sy))
    let g := F64.atan2 sy sx
    let tol := F64.div F64.pi (F64.ofNat 12)
    let aft := F64.abs (F64.wrapPi (F64.sub g F64.pi))
    if F64.le (F64.abs g) tol || F64.le aft tol then (0xFE, some (F64.to32 v, F64.to32 g))
    else
      let side := F64.lt 0 (F64.sin g)
      let leverY (w : Nat) : F32 := (((s.refSlice (20 + w)).map (·.lever)).getD [0, 0, 0]).getD 1 0
      let windward := ok.find? fun w => let y := leverY w.1; !F32.eq y 0 && (F32.lt 0 y) == side
      let w := windward.getD first
      (BitVec.ofNat 8 (0x30 + w.1), some (F64.to32 w.2.2.1, F64.to32 w.2.2.2))

/-! ## Weights (R195, R196) -/

/-- The jamming indicator an epoch's reference uses: the highest of the front ends of its antennas. -/
def jamOf (sl : SliceRec) (e : Epoch) (heading : Bool) : Nat :=
  let ends := if heading || 2 ≤ sl.points.length then e.jam else e.jam.take 2
  (ends.map (·.toNat)).foldl max 0

/-- 1 + J/20. -/
def jamFactor (j : Nat) : F64 := F64.add F64.one (f64OfRat j 20)

/-- The factors of R195 but 1 / sqrt n, and that one. -/
def State.sigmaFactors (_s : State) (r : Nat) (sl : SliceRec) (x : Reading) (noMotion : Bool) : F64 × F64 :=
  let ai := x.vals.filterMap fun (v : Option Sample) => match v.map (·.val) with
    | some (SampleVal.ai _ st) => some st
    | _ => none
  let two (b : Bool) (v : F64) := if b then F64.mul v F64.two else v
  let base := match x.val? 0 with
    | some (.epoch e _ _) => jamFactor (jamOf sl e (decide ((refKind r).1 = 2)))
    | some (.fix _ _ _ _ hdop _) => F64.of32 (F32.max F32.one hdop)
    | _ => F64.one
  let base := two (ai.any fun (st : BitVec 8) => st.getLsbD 3) base
  let base := two (ai.any fun (st : BitVec 8) => st.getLsbD 5) base
  let z := F32.abs (sl.lever.getD 2 0)
  let base := if noMotion && F32.lt F32.one z then F64.mul base (f64OfRat 15 10) else base
  let n := match x.val? 0 with
    | some (.datagram _ a) => (a.filter (· != 0xFF)).length
    | _ => 1
  (base, if 1 < n then F64.div F64.one (F64.sqrt (F64.ofNat n)) else F64.one)

/-- sigma_eff within its envelope (R196): LIMIT is raised once on entry. The factor 1 / sqrt n counts in the product but has no
lower bound. -/
def State.sigmaEff (s : State) (r : Nat) (sl : SliceRec) (x : Reading) (noMotion : Bool) : F32 × State :=
  let base := F64.of32 (at? s.fusion.sets r).sigma
  let (f, n) := s.sigmaFactors r sl x noMotion
  let limit := F64.of32 s.fusion.sigmaEnvelope
  let product := F64.mul f n
  let beyond := F64.lt limit product
  let held := F64.mul base limit
  let value := if beyond then held else F64.mul base product
  let was := (at? s.fusion.refs r).atEnvelope
  let s := s.setRef r fun q => { q with atEnvelope := beyond }
  let s := if beyond && !was then
      s.raise 122 (BitVec.ofNat 32 (256 + 4)) (BitVec.ofNat 32 (refInst r)) (F64.to32 held) (F64.to32 (F64.mul base product))
    else s
  (F64.to32 value, s)

/-! ## Carrying a reading to the VRP (R207, R208, R211) -/

/-- A slice's lever, corrected by its refinement (R207, R228). -/
def State.leverOf (s : State) (r : Nat) (sl : SliceRec) : Vec :=
  let b := (at? s.fusion.sets r).b
  mkVec 3 fun i => F64.add (F64.of32 (sl.lever.getD i 0)) (Vec.at b i)

/-- The dual-antenna heading with roll and pitch: the psi for which R b has the measured azimuth (R211). -/
def State.antHeading (s : State) (azimuth phi theta : F64) : F64 :=
  let b := s.gnss.antBaseline.toList.map F64.of32
  let level := (rotBody phi theta 0).app b
  F64.wrap2Pi (F64.sub azimuth (F64.atan2 (level.at 1) (level.at 0)))

/-- The heading of a reading, corrected by its misalignment (R189, R211, R228). The receiver's heading is the baseline's azimuth less
its angle in the body (R158); the azimuth is what R211 solves from. -/
def State.readHeading (s : State) (r : Nat) (x : Reading) (phi theta : F64) : Option F64 :=
  let beta := Vec.at (at? s.fusion.sets r).b 0
  let raw := match x.val? 0 with
    | some (.epoch _ _ h) =>
      let b := s.gnss.antBaseline.toList.map F64.of32
      some (s.antHeading (F64.add h.heading (F64.atan2 (Vec.at b 1) (Vec.at b 0))) phi theta)
    | _ => x.num 0
  raw.map fun v => F64.wrap2Pi (F64.sub v beta)

/-- A sensor's position in NED with a zero offset (R208). -/
def State.sensorPosition (s : State) (r : Nat) (sl : SliceRec) (x : Reading) (phi theta psi : F64) :
    Option (F64 × F64) :=
  let c := at? s.fusion.sets r
  let geo (lat lon h : F64) : Option (F64 × F64) :=
    if s.law.originValid then
      let v := nedOf s.law.originLat s.law.originLon s.law.originH lat lon h
      some (v.at 0, v.at 1)
    else none
  match x.val? 0 with
  | some (.epoch _ pvt _) => if pvt.fixType == 0 then none else geo pvt.lat pvt.lon pvt.height
  | some (.fix _ lat lon h _ _) => geo lat lon h
  | some (.datagram (some (direct, rets)) a) =>
    let rot := rotBody phi theta psi
    let f := s.refFusion r
    let pos := (rets.zip a).filterMap fun (t, j) =>
      if j == 0xFF then none
      else
        let (rn, re) := reflectorNed c.targetPose.2.2 (f.reflectors.getD j.toNat (0, 0, 0))
        let v := rot.app (Return.body t direct)
        some (F64.sub rn (v.at 0), F64.sub re (v.at 1))
    let n := F64.ofNat pos.length
    if pos.isEmpty then none
    else some (F64.div (pos.foldl (fun a p => F64.add a p.1) 0) n, F64.div (pos.foldl (fun a p => F64.add a p.2) 0) n)
  | _ =>
    if sl.principle != 2 then none
    else match x.num 0, x.num 1 with
      | some at_, some fa =>
        -- the wire's direction in the deck frame, turned to the vertical with roll and pitch
        let dir := (rotBody phi theta 0).app [F64.tan fa, F64.tan at_, F64.one]
        let tf := F64.div (dir.at 0) (dir.at 2)
        let ta := F64.div (dir.at 1) (dir.at 2)
        let root := F64.sqrt (F64.add F64.one (F64.add (F64.mul tf tf) (F64.mul ta ta)))
        let h := match x.num 2 with
          | some l => F64.div l root
          | none => F64.of32 c.twDepth
        let d := (rotZ psi).app [F64.mul h tf, F64.mul h ta, 0]
        some (F64.neg (d.at 0), F64.neg (d.at 1))
      | _, _ => none

/-- A sensor position carried to the VRP (R207). -/
def carryToVrp (p : F64 × F64) (lever : Vec) (phi theta psi : F64) : F64 × F64 :=
  let v := (rotBody phi theta psi).app lever
  (F64.sub p.1 (v.at 0), F64.sub p.2 (v.at 1))

/-! ## Vote arithmetic (R218, R219) -/

/-- Distance of two positions, or of two headings in the first component. -/
def voteDistance (hdg : Bool) (a b : F64 × F64) : F64 :=
  if hdg then F64.abs (F64.wrapPi (F64.sub a.1 b.1))
  else
    let dx := F64.sub a.1 b.1
    let dy := F64.sub a.2 b.2
    F64.sqrt (F64.add (F64.mul dx dx) (F64.mul dy dy))

/-- Mean, circular for headings. -/
def voteMean (hdg : Bool) (l : List (F64 × F64)) : F64 × F64 :=
  let n := F64.ofNat l.length
  if hdg then
    let sn := l.foldl (fun a p => F64.add a (F64.sin p.1)) 0
    let cs := l.foldl (fun a p => F64.add a (F64.cos p.1)) 0
    (F64.wrap2Pi (F64.atan2 sn cs), 0)
  else (F64.div (l.foldl (fun a p => F64.add a p.1) 0) n, F64.div (l.foldl (fun a p => F64.add a p.2) 0) n)

/-- Median of numbers: with an even count, the mean of the two middle values. -/
def medianOf (l : List F64) : F64 :=
  let q := l.mergeSort fun a b => F64.le a b
  let n := q.length
  if n % 2 = 1 then Vec.at q (n / 2) else F64.mul F64.half (F64.add (Vec.at q (n / 2 - 1)) (Vec.at q (n / 2)))

/-- Component-wise median; headings relative to the first. -/
def voteMedian (hdg : Bool) (l : List (F64 × F64)) : F64 × F64 :=
  if hdg then
    let base := (l.headD (0, 0)).1
    (F64.wrap2Pi (F64.add base (medianOf (l.map fun p => F64.wrapPi (F64.sub p.1 base)))), 0)
  else (medianOf (l.map (·.1)), medianOf (l.map (·.2)))

/-- A voter: reference, principle, point at t_k, gate. -/
structure Voter where
  ref : Nat
  principle : Nat
  point : F64 × F64
  gate : F64

/-- What a vote yields. -/
structure Vote where
  m : F64 × F64 := (0, 0)
  inside : List Nat := []
  groups : Nat := 0
  valid : Bool := false

/-- The principles among some voters. -/
def principlesOf (vs : List Voter) : List Nat := (vs.map (·.principle)).eraseDups

/-- The points of the groups. -/
def groupPoints (hdg : Bool) (vs : List Voter) : List (F64 × F64) :=
  (principlesOf vs).map fun p => voteMean hdg ((vs.filter (·.principle == p)).map (·.point))

/-- The consensus of R218 and its validity of R219. -/
def voteOf (hdg : Bool) (vs : List Voter) : Vote :=
  let g := principlesOf vs
  let m := voteMedian hdg (groupPoints hdg vs)
  let ins := vs.filter fun v => F64.le (voteDistance hdg v.point m) v.gate
  { m := m, inside := ins.map (·.ref), groups := g.length,
    valid := decide (2 ≤ ins.length) && decide (g.length < 2 * (principlesOf ins).length) }

/-! ## The vote of a kind (R217-R223) -/

/-- What a kind's vote hands on. -/
structure VoteOut where
  /-- The m that R218 forms, valid or not. -/
  m : Option (F64 × F64) := none
  /-- The consensus when valid, or the sole voter's position. -/
  consensus : Option (F64 × F64) := none
  valid : Bool := false
  sole : Bool := false
  voters : List Nat := []
  groups : Nat := 0
  inside : Nat := 0
  sigmaMax : F64 := 0

/-- The references of a kind: positions or headings. -/
def refsOfKind (hdg : Bool) : List Nat := if hdg then [12, 13, 14, 15] else List.range 12

/-- A relative reference's offset; zero for the others (R193, R208). -/
def State.offsetOf (s : State) (r : Nat) : F64 × F64 := (at? s.fusion.sets r).offset

/-- Is a reference RELATIVE (R193)? -/
def State.relative (s : State) (r : Nat) : Bool := decide (r < 12) && (((s.refSlice r).map (·.principle)).getD 1 != 1)

/-- A reference's newest sample carried to t_k with the observer's velocity (R217). -/
def State.carried (s : State) (hdg : Bool) (r : Nat) (tk : Nat) (vel : Vec) (x : RefSample) (offset : Bool) : F64 × F64 :=
  let dt := secondsOf ((tk : Int) - x.stamp)
  if hdg then (F64.wrap2Pi (F64.add x.n (F64.mul (vel.at 2) dt)), 0)
  else
    let o := if offset then s.offsetOf r else (0, 0)
    (F64.add (F64.add x.n o.1) (F64.mul (vel.at 0) dt), F64.add (F64.add x.e o.2) (F64.mul (vel.at 1) dt))

/-- A sample young enough to vote (R217). -/
def State.youngEnough (s : State) (r tk : Nat) (x : RefSample) : Bool :=
  decide (tk ≤ x.stamp + (max (s.refPeriod r) s.cyc.period + s.cyc.lateWindow * s.cyc.period))

/-- A voter's record. -/
def State.voter (s : State) (hdg : Bool) (tk : Nat) (vel : Vec) (offset : Bool) (r : Nat) : Option Voter :=
  match (at? s.fusion.refs r).newest, s.refSlice r with
  | some x, some sl =>
    if s.youngEnough r tk x then
      some { ref := r, principle := sl.principle, point := s.carried hdg r tk vel x offset,
             gate := F64.of32 (at? s.fusion.sets r).gate }
    else none
  | _, _ => none

/-- REF_RESIDUAL of some references' points against m (R239). -/
def State.residuals (s : State) (hdg : Bool) (vs : List Voter) (m : F64 × F64) : State :=
  vs.foldl (fun s v => s.setRef v.ref fun x =>
    let dn := if hdg then F64.wrapPi (F64.sub v.point.1 m.1) else F64.sub v.point.1 m.1
    let de := if hdg then 0 else F64.sub v.point.2 m.2
    { x with resN := F64.to32 dn, resE := F64.to32 de, resDist := F64.to32 (voteDistance hdg v.point m) }) s

/-- Cycles without a valid consensus of a kind. -/
def State.noConsensus (s : State) (hdg : Bool) : Nat := if hdg then s.fusion.hdgNoConsensus else s.fusion.posNoConsensus
/-- Set them. -/
def State.setNoConsensus (s : State) (hdg : Bool) (n : Nat) : State :=
  if hdg then { s with fusion.hdgNoConsensus := n } else { s with fusion.posNoConsensus := n }

/-- No valid consensus (R221): every voter is SUSPECT; after QUARANTINE_COUNT such cycles every voter is QUARANTINED with
CAUSE DISAGREE, reported once. -/
def State.disagree (s : State) (hdg : Bool) (voters : List Nat) : State :=
  let n := s.noConsensus hdg + 1
  let s := voters.foldl (fun s r => s.setRef r fun x => { x with state := 3, consec := 0, admission := none }) s
  if n < s.fusion.quarantineCount then s.setNoConsensus hdg n
  else
    let s := voters.foldl (fun s r => s.setRef r fun x => { x with state := 4, cause := 2, consec := 0 }) s
    (s.setNoConsensus hdg 0).raise (if hdg then 45 else 36)

/-- Judge the voters of a vote (R220, R221). The quarantine itself is REF_QUARANTINED's. -/
def State.judge (s : State) (hdg : Bool) (vs : List Voter) (v : Vote) : State :=
  if v.valid then
    let s := s.setNoConsensus hdg 0
    vs.foldl (fun s x =>
      if v.inside.contains x.ref then s.setRef x.ref fun q => { q with state := 2, consec := 0 }
      else s.setRef x.ref fun q => { q with state := 3, consec := if q.state == 3 then satAdd 255 q.consec 1 else 1 }) s
  else s.disagree hdg (vs.map (·.ref))

/-- A reference in ADMITTING with a new valid sample against the consensus of its vote (R222): its consecutive samples
inside, and for a relative one the sum of m minus its position with a zero offset. The count starts at its first sample inside. -/
def State.admissionStep (s : State) (hdg : Bool) (r tk : Nat) (vel : Vec) (consensus : Option (F64 × F64)) : State :=
  let q := at? s.fusion.refs r
  match q.newest, consensus with
  | some x, some m =>
    let p := s.carried hdg r tk vel x false
    let gate := F64.of32 (at? s.fusion.sets r).gate
    let had := if q.inRun then q.consec else 0
    let n := had + 1
    if s.relative r then
      let d := (F64.sub m.1 p.1, F64.sub m.2 p.2)
      let k := F64.ofNat had
      let mean := (F64.div q.admitSum.1 k, F64.div q.admitSum.2 k)
      let stays := had == 0 || F64.le (voteDistance false d mean) gate
      let n := if stays then n else 1
      let sum := if stays then (F64.add q.admitSum.1 d.1, F64.add q.admitSum.2 d.2) else d
      let k := F64.ofNat n
      s.setRef r fun q => { q with consec := min 255 n, inRun := true, admitSum := sum,
                                   admission := if s.fusion.admitCount ≤ n then some (F64.div sum.1 k, F64.div sum.2 k) else none }
    else if F64.le (voteDistance hdg p m) gate then
      s.setRef r fun q => { q with consec := min 255 n, inRun := true,
                                   admission := if s.fusion.admitCount ≤ n then some (0, 0) else none }
    else s.setRef r fun q => { q with consec := 0, inRun := false, admission := none }
  | _, _ => s.setRef r fun q => { q with consec := 0, inRun := false, admitSum := (0, 0), admission := none }

/-- With no reference ACTIVE or SUSPECT, the ADMITTING ones that hold ADMIT_COUNT valid samples vote among themselves
(R222). `fresh`: those with a new valid sample. -/
def State.bootstrap (s : State) (hdg : Bool) (fresh : List Nat) (tk : Nat) (x vel : Vec) : State × VoteOut :=
  let cand (r : Nat) : Bool := (at? s.fusion.refs r).state == 1
  let s := (fresh.filter cand).foldl (fun s r => s.setRef r fun q =>
    { q with consec := q.validRun, inRun := false, admitSum := (0, 0), admission := none }) s
  let ready := (refsOfKind hdg).filter fun r => cand r && decide (s.fusion.admitCount ≤ (at? s.fusion.refs r).validRun)
  let abs := (ready.filter (!s.relative ·)).filterMap (s.voter hdg tk vel true)
  let rel := (ready.filter s.relative).filterMap (s.voter hdg tk vel false)
  let here : F64 × F64 := (x.at 0, x.at 1)
  let admitRel (s : State) (base : F64 × F64) : State :=
    rel.foldl (fun s v => s.setRef v.ref fun q =>
      { q with admission := some (F64.sub base.1 v.point.1, F64.sub base.2 v.point.2) }) s
  let smax := (abs.map fun v => F64.of32 (((at? s.fusion.refs v.ref).newest.map (·.sigma)).getD 0)).foldl F64.max 0
  match abs with
  | [] => (if rel.isEmpty then s else admitRel s here, {})
  | [v] =>
    let s := (admitRel (s.setRef v.ref fun q => { q with admission := some (0, 0) }) here).setNoConsensus hdg 0
    (s, { m := some v.point, consensus := some v.point, sole := true, voters := [v.ref], groups := 1, inside := 1, sigmaMax := smax })
  | vs =>
    let w := voteOf hdg vs
    if w.valid then
      let s := (w.inside.foldl (fun s r => s.setRef r fun q => { q with admission := some (0, 0) }) s).setNoConsensus hdg 0
      (admitRel s w.m, { m := some w.m, consensus := some w.m, valid := true, voters := vs.map (·.ref), groups := w.groups,
                         inside := w.inside.length, sigmaMax := smax })
    else (s.disagree hdg (vs.map (·.ref)), { m := some w.m, voters := vs.map (·.ref), groups := w.groups, inside := w.inside.length })

/-- Consecutive cycles of a reference quarantined as OUTLIER inside a valid consensus, which is formed without it
(R223). -/
def State.readmissionStep (s : State) (hdg : Bool) (tk : Nat) (vel : Vec) (o : VoteOut) : State :=
  (refsOfKind hdg).foldl (fun s r =>
    let q := at? s.fusion.refs r
    if q.state == 4 && q.cause == 1 then
      let ok := o.valid && (match s.voter hdg tk vel true r, o.consensus with
        | some v, some m => F64.le (voteDistance hdg v.point m) v.gate
        | _, _ => false)
      s.setRef r fun q => { q with consec := if ok then q.consec + 1 else 0 }
    else s) s

/-- The vote of a kind (R217-R223), and REF_RESIDUAL of every reference with a sample young enough, voter or not (R239). `fresh`:
references with a new valid sample; `mute`: those that may not vote in this cycle (R213). -/
def State.voteKind (s : State) (hdg : Bool) (fresh mute : List Nat) (tk : Nat) (x : Vec) : State × VoteOut :=
  let vel := nedVelocity x
  let refs := (refsOfKind hdg).filter s.refLive
  let inVote (r : Nat) : Bool := let q := at? s.fusion.refs r; q.state == 2 || q.state == 3
  let s := (fresh.filter fun r => (at? s.fusion.refs r).state == 1).foldl (fun s r =>
    s.setRef r fun q => { q with validRun := satAdd 255 q.validRun 1 }) s
  let (s, o) :=
    if refs.any inVote then
      let vs := (refs.filter fun r => inVote r && !mute.contains r).filterMap (s.voter hdg tk vel true)
      let smax := (vs.map fun v => F64.of32 (((at? s.fusion.refs v.ref).newest.map (·.sigma)).getD 0)).foldl F64.max 0
      let (s, o) : State × VoteOut :=
        match vs with
        | [] => (s, {})
        | [v] =>
          let s := (s.setRef v.ref fun q => { q with state := 2, consec := 0 }).setNoConsensus hdg 0
          (s, { m := some v.point, consensus := some v.point, sole := true, voters := [v.ref], groups := 1, inside := 1, sigmaMax := smax })
        | _ =>
          let w := voteOf hdg vs
          let s := s.judge hdg vs w
          (s, { m := some w.m, consensus := if w.valid then some w.m else none, valid := w.valid, voters := vs.map (·.ref),
                groups := w.groups, inside := w.inside.length, sigmaMax := smax })
      let s := (fresh.filter fun r => (at? s.fusion.refs r).state == 1).foldl (fun s r =>
        s.admissionStep hdg r tk vel (if o.valid then o.consensus else none)) s
      (s, o)
    else s.bootstrap hdg fresh tk x vel
  let s := match o.m with
    | some m => s.residuals hdg ((refs.filter fun r => !mute.contains r).filterMap (s.voter hdg tk vel true)) m
    | none => s
  (s.readmissionStep hdg tk vel o, o)

/-! ## On-line refinement (R228-R231) -/

/-- The consensus formed without a reference, when valid. -/
def State.consensusWithout (s : State) (hdg : Bool) (r tk : Nat) (vel : Vec) : Option (F64 × F64) :=
  let vs := ((refsOfKind hdg).filter fun q => q != r && (let x : BitVec 4 := (at? s.fusion.refs q).state; x == 2 || x == 3)).filterMap
    (s.voter hdg tk vel true)
  if vs.length < 2 then none
  else
    let w := voteOf hdg vs
    if w.valid then some w.m else none

/-- The largest difference of headings among some. -/
def headingSpan (l : List F64) : F64 :=
  match l with
  | [] => 0
  | h :: _ =>
    let d := l.map fun x => F64.wrapPi (F64.sub x h)
    F64.sub (d.foldl F64.max 0) (d.foldl F64.min 0)

/-- Hold an estimate at its bound (R229). -/
def heldAt (bound : F64) (b : Vec) : Vec × Bool :=
  let n := F64.sqrt (Vec.dot b b)
  if F64.lt n bound then (b, false) else (Vec.scale (F64.div bound n) b, true)

/-- An estimate takes a new value: held at its bound, with source 40 once on entry, and source 39 when it has moved by more than
0.05 m, or 0.001 rad for an angle, since it was last reported (R229, R230). -/
def State.settle (s : State) (r : Nat) (lever angle : Bool) (bound : F64) (b : Vec) : State :=
  let c := at? s.fusion.sets r
  let q := at? s.fusion.refs r
  let (b, atBound) := heldAt bound b
  let d := Vec.minus b (if lever then c.leverReported else c.reported)
  let report := F64.lt (if angle then f64OfRat 1 1000 else f64OfRat 5 100) (F64.sqrt (Vec.dot d d))
  let s := s.setRefCfg r fun c =>
    if lever then { c with lever := b, leverReported := if report then b else c.leverReported }
    else { c with b := b, reported := if report then b else c.reported }
  let s := s.setRef r fun q => if lever then { q with leverAtBound := atBound } else { q with refineAtBound := atBound }
  let s := if atBound && !(if lever then q.leverAtBound else q.refineAtBound) then s.raise 40 else s
  if report then
    let p (i : Nat) := some (Config.refinementParam (refInst r) b i)
    s.raise 39 (p 0) (p 1) (p 2) (p 3) (must := true)
  else s

/-- One cycle of the LEVER estimate of a SATELLITE HDG slice (R228): the residual is the position of the receiver's solution, carried to
the VRP with that LEVER, against the position consensus, which holds no heading reference (DEDUCED, log 39). -/
def State.refineLever (s : State) (r tk : Nat) (x : Vec) (psi : F64) (rd : Option Reading) : State :=
  let vel := nedVelocity x
  let c := at? s.fusion.sets r
  let bound := F64.of32 (s.refFusion r).leverBound
  match s.refSlice r, rd.bind fun q => (q.val? 0).map fun v => (q.stamp, v) with
  | some sl, some (stamp, .epoch _ pvt _) =>
    if sl.principle != 1 || pvt.fixType == 0 || !s.law.originValid || F64.le bound 0 then s
    else match s.consensusWithout false r tk vel with
      | none => s
      | some m =>
        let (phi, theta, _) := s.attitudeAt stamp
        let p := nedOf s.law.originLat s.law.originLon s.law.originH pvt.lat pvt.lon pvt.height
        let lever := mkVec 3 fun i => F64.add (F64.of32 (sl.lever.getD i 0)) (Vec.at c.lever i)
        let v := carryToVrp (p.at 0, p.at 1) lever phi theta psi
        let here := s.carried false r tk vel { stamp := stamp, n := v.1, e := v.2 } false
        let turn := (Mat.tr 3 3 (rotZ psi)).app [F64.sub here.1 m.1, F64.sub here.2 m.2, 0]
        let k := F64.div (secondsOf s.cyc.period) (F64.ofNat s.fusion.refineTau)
        s.settle r true false bound (mkVec 3 fun i => F64.add (Vec.at c.lever i) (F64.mul k (turn.at i)))
  | _, _ => s

/-- One cycle of a reference's refinement: the first-order average of its residual against the consensus without it (R228). -/
def State.refine (s : State) (r tk : Nat) (x : Vec) (psi : F64) (rd : Option Reading) : State :=
  let hdg := decide (12 ≤ r)
  let vel := nedVelocity x
  let c := at? s.fusion.sets r
  let f := s.refFusion r
  let bound := F64.of32 (if hdg then f.angleBound else f.leverBound)
  let tau := s.fusion.refineTau * second
  let heads := (c.headings ++ [(tk, psi)]).filter fun h => decide (tk ≤ h.1 + tau)
  let s := if s.relative r then s.setRefCfg r fun c => { c with headings := heads } else s
  let q := at? s.fusion.refs r
  let spans := !s.relative r || F64.le (f64OfRat 35 100) (headingSpan (heads.map (·.2)))
  if q.state != 2 || c.freeze || !spans then s
  else
    let s := if hdg then s.refineLever r tk x psi rd else s
    if F64.le bound 0 then s
    else match s.consensusWithout hdg r tk vel, s.voter hdg tk vel true r with
    | some m, some v =>
      let k := F64.div (secondsOf s.cyc.period) (F64.ofNat s.fusion.refineTau)
      let step (a d : F64) := F64.add a (F64.mul k d)
      let (b, off) : Vec × (F64 × F64) :=
        if hdg then ([step (Vec.at c.b 0) (F64.wrapPi (F64.sub v.point.1 m.1)), 0, 0], c.c)
        else
          let res : Vec := [F64.sub v.point.1 m.1, F64.sub v.point.2 m.2, 0]
          let d := Vec.minus res [c.c.1, c.c.2, 0]
          let turn := (Mat.tr 3 3 (rotZ psi)).app d
          let b := mkVec 3 fun i => step (Vec.at c.b i) (turn.at i)
          (b, if s.relative r then (step c.c.1 (d.at 0), step c.c.2 (d.at 1)) else (0, 0))
      (s.setRefCfg r fun c => { c with c := off }).settle r false hdg bound b
    | _, _ => s

/-- Which references are refined (R228): every PRS slice, and every HDG slice. `rds`: this frame's readings of the headings. -/
def State.refineAll (s : State) (tk : Nat) (x : Vec) (psi : F64) (rds : List (Nat × Reading)) : State :=
  ((List.range 16).filter s.refLive).foldl (fun s r => s.refine r tk x psi ((rds.find? (·.1 == r)).map (·.2))) s

/-! ## One release -/

/-- A sample of a reference that reaches the observer (R253, R258). -/
structure ObsSample where
  ref : Nat := 0
  stamp : Nat := 0
  /-- North and east with the offset, or the heading. -/
  n : F64 := 0
  e : F64 := 0
  sigma : F64 := 0
  late : Bool := false
  /-- The epoch of a LEVEL 1 reference. -/
  raw : Option (Epoch × Pvt) := none
  /-- A vote position goes with a raw epoch. -/
  hasPosition : Bool := true
  /-- The member whose copy it is (R198). -/
  member : Nat := 0
  /-- The points and stamps it was formed from (R204). -/
  parts : List (Nat × Nat) := []
  deriving Inhabited

/-- What fusion hands the observer. -/
structure FusionOut where
  samples : List ObsSample := []
  pos : VoteOut := {}
  hdg : VoteOut := {}
  /-- A position reference, a heading reference is ACTIVE or SUSPECT. -/
  anyPos : Bool := false
  anyHdg : Bool := false

/-- A reading turned into a sample of its kind, with its weight; `none` when it gives no position. `heading`: the heading for a
stamp (R207, R272). -/
def State.formSample (s : State) (r : Nat) (sl : SliceRec) (x : Reading) (heading : Nat → F64) :
    Option RefSample × Bool × State :=
  let (phi, theta, ok) := s.attitudeAt x.stamp
  let psi := heading x.stamp
  let (sigma, s) := s.sigmaEff r sl x (!ok)
  if 12 ≤ r then
    -- a point's heading uses no φ and θ
    let used := match x.val? 0 with | some (.epoch ..) => true | _ => false
    (((s.readHeading r x phi theta).map fun v => { stamp := x.stamp, n := v, sigma := sigma, late := x.late }), used && !ok, s)
  else
    match s.sensorPosition r sl x phi theta psi with
    | none => (none, !ok, s)
    | some p =>
      let (n, e) := carryToVrp p (s.leverOf r sl) phi theta psi
      (some { stamp := x.stamp, n := n, e := e, sigma := sigma, late := x.late }, !ok, s)

/-- The copy to use of a reference's member copies (R224), and whether they split. -/
def State.chooseCopy (s : State) (hdg : Bool) (r tk : Nat) (vel : Vec) (mute : List Nat) (l : List (Reading × RefSample)) :
    Option (Reading × RefSample) × Bool :=
  let lead := if s.leadsTime then s.me else s.leadIndex.toNat
  let pt (q : Reading × RefSample) := s.carried hdg r tk vel q.2 true
  let gate := F64.of32 (at? s.fusion.sets r).gate
  let leads := (l.find? fun q => q.1.member == lead).orElse fun _ => l.head?
  match l with
  | [] => (none, false)
  | [q] => (some q, false)
  | [a, b] =>
    if F64.le (voteDistance hdg (pt a) (pt b)) gate then (leads, false)
    else
      let own := ((s.refSlice r).map (·.principle)).getD 0
      let others := ((refsOfKind hdg).filter fun q =>
        q != r && !mute.contains q && (let x : BitVec 4 := (at? s.fusion.refs q).state; x == 2 || x == 3)).filterMap
          (s.voter hdg tk vel true)
      let pts := groupPoints hdg (others.filter (·.principle != own))
      if pts.isEmpty then (leads, true)
      else
        let m := voteMedian hdg pts
        (some (if F64.lt (voteDistance hdg (pt b) m) (voteDistance hdg (pt a) m) then b else a), true)
  | _ =>
    let m := voteMedian hdg (l.map pt)
    (l.foldl (fun (best : Option (Reading × RefSample)) q => match best with
      | none => some q
      | some b => if F64.lt (voteDistance hdg (pt q) m) (voteDistance hdg (pt b) m) then some q else some b) none, false)

/-- What a reference's readings of one instant give: its copies with their samples, and an epoch without a solution. -/
structure Formed where
  ref : Nat := 0
  copies : List (Reading × RefSample) := []
  bare : Option Reading := none

/-- Form a reference's readings (R194, R195, R207). An invalid one ends a run of valid samples (R222). -/
def State.formReadings (s : State) (r : Nat) (heading : Nat → F64) (rs : List Reading) : Formed × State :=
  match s.refSlice r with
  | none => ({ ref := r }, s)
  | some sl =>
    let valid := rs.filter (s.readingValid r sl)
    let s := if valid.length = rs.length then s
      else s.setRef r fun q => if q.state == 1 then
          { q with consec := 0, validRun := 0, inRun := false, admitSum := (0, 0), admission := none }
        else q
    let (formed, s) := valid.foldl (fun (a : List (Reading × Option RefSample) × State) q =>
      let (smp, noMotion, s) := a.2.formSample r sl q heading
      (a.1 ++ [(q, smp)], s.setRef r fun z => { z with noMotion := noMotion })) (([], s) : List (Reading × Option RefSample) × State)
    ({ ref := r, copies := formed.filterMap fun q => q.2.map fun y => (q.1, y),
       bare := (formed.find? fun q => q.2.isNone).map (·.1) }, s)

/-- A reference takes a sample: it is its newest, and its weight is the one reported (R217, R239). A STALE reference becomes ADMITTING
(R216). -/
def State.takeNewest (s : State) (r : Nat) (c : Reading × RefSample) : State :=
  let s := if (at? s.fusion.refs r).state == 5 then s.admitting r else s
  s.setRef r fun q => { q with newest := some c.2, lastValidAt := max q.lastValidAt c.2.stamp, chosen := c.1.member,
                               sigmaEff := c.2.sigma }

/-- Take the copy of a reference that R224 chooses; with one copy there is no test. -/
def State.takeFormed (s : State) (hdg : Bool) (tk : Nat) (vel : Vec) (mute : List Nat) (f : Formed) :
    Option (Reading × RefSample) × State :=
  let (chosen, split) := s.chooseCopy hdg f.ref tk vel mute f.copies
  let s := if 2 ≤ f.copies.length then s.setRef f.ref fun q => { q with copySplit := split } else s
  let s := if split then s.raise 43 else s
  (chosen, match chosen with | some c => s.takeNewest f.ref c | none => s)

/-- An epoch of a LEVEL 1 reference without a solution: valid, but with no vote position (R194, R213). -/
def State.takeBare (s : State) (r : Nat) (rd : Reading) : State :=
  let s := if (at? s.fusion.refs r).state == 5 then s.admitting r else s
  s.setRef r fun q => { q with lastValidAt := max q.lastValidAt rd.stamp }

/-- A valid reading of a motion or wind slice (R210, R236, R237): the newest is kept by its stamp. -/
def State.takeMotionReading (s : State) (r : Nat) (q : Reading) : State :=
  let s := if (at? s.fusion.refs r).state == 5 then s.admitting r else s
  let old := ((at? s.fusion.refs r).newest.map (·.stamp)).getD 0
  let newer := decide (old ≤ q.stamp)
  let s := s.setRef r fun z => { z with lastValidAt := max z.lastValidAt q.stamp,
                                        newest := if newer then some { stamp := q.stamp } else z.newest }
  let a := (q.num 0).getD 0
  let b := (q.num 1).getD 0
  if r < 20 then
    { s with wind.motion := s.wind.motion ++ [(r - 16, q.stamp, a, b)],
             wind.heave := if newer then (q.num 2).getD s.wind.heave else s.wind.heave }
  else if newer then
    { s with wind.windSamples := s.wind.windSamples.filter (·.1 != r - 20) ++ [(r - 20, q.stamp, a, b)] }
  else s

/-- Motion and wind samples of a frame, the late ones first, window by window. -/
def State.takeMotion (s : State) (fresh late : List Sample) (tk : Nat) : State :=
  let horizon := (s.cyc.lateWindow + 4) * s.cyc.period
  let s := [16, 17, 18, 19, 20, 21, 22, 23].foldl (fun s r =>
    match s.refSlice r with
    | none => s
    | some sl =>
      if (at? s.fusion.refs r).state == 0 then s
      else
        let rds := ((s.lateWindows late).flatMap fun w => s.readings r w true) ++ s.readings r fresh false
        (rds.filter (s.readingValid r sl)).foldl (fun s q => s.takeMotionReading r q) s) s
  { s with wind.motion := s.wind.motion.filter fun m => decide (tk ≤ m.2.1 + horizon) }

/-- The geodetic position a satellite reading carries to the VRP (R298). -/
def State.satelliteVrp (s : State) (r : Nat) (sl : SliceRec) (x : Reading) (psi : F64) : Option (F64 × F64 × F64) :=
  let (phi, theta, _) := s.attitudeAt x.stamp
  let place : Option (F64 × F64 × F64) := match x.val? 0 with
    | some (.epoch _ pvt _) => if pvt.fixType == 0 then none else some (pvt.lat, pvt.lon, pvt.height)
    | some (.fix q lat lon h _ ok) => if ok && q != 0 then some (lat, lon, h) else none
    | _ => none
  place.map fun (lat, lon, h) =>
    let v := (rotBody phi theta psi).app (s.leverOf r sl)
    geodeticAt lat lon h (v.map F64.neg)

/-- Set the origin at the first satellite position carried to the VRP (R298). -/
def State.firstOrigin (s : State) (xs : List Sample) (heading : Nat → F64) : State :=
  if s.law.originValid then s
  else
    let found := (List.range 12).findSome? fun r => match s.refSlice r with
      | some sl =>
        if sl.principle == 1 && s.refLive r then
          ((s.readings r xs false).filter (s.readingValid r sl)).findSome? fun x => s.satelliteVrp r sl x (heading x.stamp)
        else none
      | none => none
    match found with
    | some (lat, lon, h) =>
      { s with law.originLat := lat, law.originLon := lon, law.originH := h, law.originValid := true }
    | none => s

/-- Keep the newest sample of each point and member. -/
def State.holdSamples (s : State) (xs : List Sample) : State :=
  { s with fusion.held := xs.foldl (fun l x =>
      if !((s.refsOfPoint x.point).isEmpty) && sampleValid x.val && !(l.any fun y => y.point == x.point && y.member == x.member && decide (x.stamp < y.stamp)) then
        l.filter (fun y => !(y.point == x.point && y.member == x.member)) ++ [x]
      else l) s.fusion.held }

/-- The observer's sample of a reference's reading. -/
def State.obsSample (s : State) (r : Nat) (rd : Reading) (y : Option RefSample) : ObsSample :=
  let o := if 12 ≤ r then (0, 0) else s.offsetOf r
  let raw := if (s.refFusion r).level == 1 && decide (r < 12) then
      (match rd.val? 0 with | some (.epoch e p _) => some (e, p) | _ => none) else none
  let parts := rd.vals.filterMap fun v => v.map fun (z : Sample) => (z.point, z.stamp)
  let member := ((rd.vals.findSome? id).map fun (z : Sample) => z.member).getD 0
  match y with
  | some y => { ref := r, stamp := y.stamp, n := F64.add y.n o.1, e := F64.add y.e o.2, sigma := F64.of32 y.sigma,
                late := rd.late, raw := raw, parts := parts, member := member }
  | none => { ref := r, stamp := rd.stamp, late := rd.late, raw := raw, hasPosition := false, parts := parts, member := member }

/-- What the references of a kind take from a frame. -/
structure Taken where
  /-- Those with a new valid sample. -/
  news : List Nat := []
  /-- Those that may not vote (R213). -/
  mute : List Nat := []
  /-- What may reach the observer. -/
  out : List ObsSample := []
  /-- The fresh readings taken. -/
  readings : List (Nat × Reading) := []

/-- The late samples of a reference, one reading for each window they lie in (R203, R205). -/
def State.takeLate (s : State) (hdg : Bool) (r tk : Nat) (vel : Vec) (heading : Nat → F64) (late : List Sample) :
    List ObsSample × State :=
  (s.lateWindows late).foldl (fun (b : List ObsSample × State) w =>
    let (f, s) := b.2.formReadings r heading (b.2.readings r w true)
    let (c, s) := s.takeFormed hdg tk vel [] f
    match c, f.bare with
    | some (rd, y), _ => (b.1 ++ [s.obsSample r rd (some y)], s)
    | none, some rd => (b.1 ++ [s.obsSample r rd none], s.takeBare r rd)
    | none, none => (b.1, s)) ([], s)

/-- Take the references of a kind: fresh samples, or late ones where a reference has no fresh sample in the frame (R205). The copies
of every reference are formed first, with the first as its newest, so that the test of R224 sees this frame's points of the
others. -/
def State.takeKind (s : State) (hdg : Bool) (fresh late : List Sample) (tk : Nat) (vel : Vec) (heading : Nat → F64) :
    State × Taken :=
  let (s, a, formed) := ((refsOfKind hdg).filter s.refLive).foldl (fun (b : State × Taken × List Formed) r =>
    let (s, a, l) := b
    let before := (at? s.fusion.refs r).newest
    let (lates, s) := s.takeLate hdg r tk vel heading late
    let (f, s) := s.formReadings r heading (s.readings r fresh false)
    let a := { a with out := a.out ++ lates }
    match f.copies, f.bare with
    | c :: _, _ => (s.takeNewest r c, { a with news := a.news ++ [r] }, l ++ [f])
    | [], some rd =>
      (s.takeBare r rd, { a with mute := a.mute ++ [r], out := a.out ++ [s.obsSample r rd none],
                                 readings := a.readings ++ [(r, rd)] }, l)
    | [], none =>
      -- with no fresh sample the latest late one is the newest; an older newest is kept (R205)
      let keep := match before, (at? s.fusion.refs r).newest with
        | some b, some n => if n.stamp < b.stamp then some b else some n
        | b, none => b
        | none, n => n
      (s.setRef r fun q => { q with newest := keep }, if lates.isEmpty then a else { a with news := a.news ++ [r] }, l))
    (s, {}, [])
  formed.foldl (fun (b : State × Taken) f =>
    let (c, s) := b.1.takeFormed hdg tk vel b.2.mute f
    match c with
    | some (rd, y) => (s, { b.2 with out := b.2.out ++ [s.obsSample f.ref rd (some y)], readings := b.2.readings ++ [(f.ref, rd)] })
    | none => (s, b.2)) (s, a)

/-- A reference that this release's vote makes ACTIVE: admitted (R222), or an outlier that returns by itself (R223). DEDUCED
(log 30): its sample of this release reaches the observer, while REF_ADMITTED or AUTO_READMIT sets its state. -/
def State.joins (s : State) (r : Nat) : Bool :=
  let q := at? s.fusion.refs r
  (q.state == 1 && q.admission.isSome) ||
    (q.state == 4 && q.cause == 1 && s.fusion.autoReadmit && decide (s.fusion.readmitCount ≤ q.consec))

/-- The sample of a relative reference that is being admitted, with the offset its admission gives it (R222). -/
def State.withAdmission (s : State) (o : ObsSample) : ObsSample :=
  match (at? s.fusion.refs o.ref).admission with
  | some a =>
    if s.joins o.ref && s.relative o.ref then
      let c := s.offsetOf o.ref
      { o with n := F64.add (F64.sub o.n c.1) a.1, e := F64.add (F64.sub o.e c.2) a.2 }
    else o
  | none => o

/-- CONSENSUS after a cycle (R238, R241): a cycle that formed an m sets it, with its command instant, and a part that cycle did not form
reads 0 (DESIGN CHOICE, log 8). -/
def State.setConsensus (s : State) (tk : Nat) (pv hv : VoteOut) : State :=
  if pv.m.isNone && hv.m.isNone then s
  else
    { s with fusion.consensusAt := tk + s.cyc.commandAt, fusion.mN := (pv.m.map (·.1)).getD 0, fusion.mE := (pv.m.map (·.2)).getD 0,
             fusion.mPsi := (hv.m.map (·.1)).getD 0 }

/-- Which references a late sample was folded into the frame for (R240). -/
def State.markLate (s : State) (late : List Sample) : State :=
  (List.range 24).foldl (fun s r => s.setRef r fun q =>
    { q with lateInFrame := late.any fun x => ((s.refSlice r).map (·.points.contains x.point)).getD false }) s

/-- Step 2 of R250: one release's fusion. `x` is the observer's state at t_k without an update. -/
def State.fuse (s : State) (tk : Nat) (x : Vec) : State × FusionOut :=
  let fresh := s.cycle.frame
  let late := s.cycle.late
  let vel := nedVelocity x
  let windows := s.lateWindows late
  let s := windows.foldl State.countSuperseded ((s.countInvalid (late ++ fresh)).countSuperseded fresh)
  let s := (s.markLate late).takeMotion fresh late tk
  -- the heading for a stamp is the consensus of this cycle, or the observer's there (R207, R272)
  let own (stamp : Nat) : F64 := (totalPose (s.predicted stamp)).2.2
  let (s, h) := s.takeKind true fresh late tk vel own
  let (s, hv) := s.voteKind true h.news h.mute tk x
  let heading (stamp : Nat) : F64 := match hv.consensus with | some m => m.1 | none => own stamp
  let s := s.firstOrigin (fresh ++ late) heading
  let (s, p) := s.takeKind false fresh late tk vel heading
  let (s, pv) := s.voteKind false p.news p.mute tk x
  let s := s.holdSamples (late ++ fresh)
  let (sel, wind) := s.chooseWind tk
  let s := { s with fusion.windSelect := sel, wind.wind := wind }
  let s := s.refineAll tk x (heading tk) h.readings
  let active (o : ObsSample) : Bool := (at? s.fusion.refs o.ref).state == (2 : BitVec 4) || s.joins o.ref
  let inVote (hdg : Bool) : Bool := (refsOfKind hdg).any fun r => s.refLive r && (let q : BitVec 4 := (at? s.fusion.refs r).state; q == 2 || q == 3 || s.joins r)
  let s := { s with fusion.posVoters := pv.voters.length, fusion.posGroups := pv.groups, fusion.posInside := pv.inside,
                    fusion.posSole := pv.sole, fusion.posValid := pv.valid, fusion.hdgVoters := hv.voters.length,
                    fusion.hdgGroups := hv.groups, fusion.hdgSole := hv.sole, fusion.hdgValid := hv.valid }
  let s := s.setConsensus tk pv hv
  (s, { samples := ((h.out ++ p.out).filter active).map s.withAdmission, pos := pv, hdg := hv, anyPos := inVote false, anyHdg := inVote true })

/-! ## Commands -/

/-- REF_TIMEOUT_EXPIRY (R216). -/
def execRefTimeoutExpiry (t : Nat) (ref : Fin 24) (s : State) : Out :=
  runRunning t s fun s =>
    let q := s.fusion.refs[ref]
    if (s.refSlice ref).isSome && (q.state == 1 || q.state == 2 || q.state == 3) &&
        decide (q.lastValidAt + s.refTimeout ref ≤ s.tb3) then
      s.setRef ref fun x => { x with state := 5, cause := 0, consec := 0, admitSum := (0, 0), admission := none }
    else s

/-- REF_QUARANTINED (R220). -/
def execRefQuarantined (t : Nat) (ref : Fin 24) (s : State) : Out :=
  runRunning t s fun s =>
    let q := s.fusion.refs[ref]
    if q.state == 3 && decide (s.fusion.quarantineCount ≤ q.consec) then
      (s.setRef ref fun x => { x with state := 4, cause := 1, consec := 0 }).raise 34
    else s

/-- REF_ADMITTED (R222): ACTIVE, and a relative reference takes its offset. -/
def execRefAdmitted (t : Nat) (ref : Fin 24) (s : State) : Out :=
  runRunning t s fun s =>
    let q := s.fusion.refs[ref]
    match q.admission with
    | none => s
    | some o =>
      if q.state != 1 then s
      else
        let s := s.setRef ref fun x => { x with state := 2, cause := 0, consec := 0, admitSum := (0, 0), admission := none }
        if s.relative ref then s.setRefCfg ref fun c => { c with offset := o } else s

/-- AUTO_READMIT (R223): an outlier returns after READMIT_COUNT cycles inside a valid consensus formed without it. -/
def execAutoReadmit (t : Nat) (ref : Fin 24) (s : State) : Out :=
  runRunning t s fun s =>
    let q := s.fusion.refs[ref]
    if q.state == 4 && q.cause == 1 && s.fusion.autoReadmit && decide (s.fusion.readmitCount ≤ q.consec) then
      (s.setRef ref fun x => { x with state := 2, cause := 0, consec := 0 }).raise 35
    else s

/-- A reference the host names returns at the release (R223): ACTIVE, its offset kept, and source 35; after DISAGREE its first
sample is checked (R256). -/
def State.readmit (s : State) (r : Nat) : State :=
  let q := at? s.fusion.refs r
  if q.state != 4 then s
  else
    let disagree := q.cause == 2
    let s := s.setRef r fun x => { x with state := 2, cause := 0, consec := 0 }
    let s := if disagree then s.setRefCfg r fun c => { c with gateFirst := true } else s
    s.raise 35

/-- The references after a cold start or an image load (R243): ADMITTING, counters, offsets and refinements cleared. The
settings come from the FUSION records (R239). -/
def State.fusionStart (s : State) : State :=
  { s with fusion := { quarantineCount := 3, refs := .replicate 24 { lastValidAt := s.tb3 },
                       sets := (Vector.replicate 24 ({} : RefSettings)).mapIdx fun r c =>
                         if r < 16 then { c with sigma := (s.refFusion r).sigma, gate := (s.refFusion r).gate } else c },
           wind := {} }

end Sys2Proof.Machine
end

