-- ==== Sys2Proof/Machine/Observer.lean ====
section
/-! DEFINITION. The vessel observer: gated and delayed updates, resets, tight coupling, dead reckoning, the estimate step
(spec/07_vessel_observer.md). -/

namespace Sys2Proof.Machine

/-! ## Dead reckoning's uncertainty (R268, R269) -/

/-- Major and minor standard deviation and the direction of the major axis of the position block. -/
def positionAxes (p : Mat) : F64 × F64 × F64 :=
  let a := p.at 0 0
  let b := p.at 0 1
  let c := p.at 1 1
  let mean := F64.mul F64.half (F64.add a c)
  let d := F64.mul F64.half (F64.sub a c)
  let root := F64.sqrt (F64.add (F64.mul d d) (F64.mul b b))
  (F64.sqrt (F64.add mean root), F64.sqrt (F64.max 0 (F64.sub mean root)),
   F64.mul F64.half (F64.atan2 (F64.mul F64.two b) (F64.sub a c)))

/-- The larger standard deviation of two states. -/
def largerSigma (p : Mat) (i j : Nat) : F64 := F64.sqrt (F64.max (p.at i i) (p.at j j))

/-- σ_DR at an elapsed time (R268). -/
def State.sigmaDr (s : State) (tau : F64) : F64 :=
  let o := s.obs
  let v := F64.mul o.sigmaV0 tau
  let q := F64.mul F64.half (F64.mul o.drA (F64.mul tau tau))
  F64.sqrt (F64.add (F64.add (F64.mul o.sigmaP0 o.sigmaP0) (F64.mul v v)) (F64.mul q q))

/-- The elapsed time at which σ_DR reaches a limit: σ_DR² is a quadratic in τ² (R269). -/
def State.drReach (s : State) (limit : F64) : F64 :=
  let o := s.obs
  let a := F64.mul (f64OfRat 1 4) (F64.mul o.drA o.drA)
  let b := F64.mul o.sigmaV0 o.sigmaV0
  let c := F64.sub (F64.mul o.sigmaP0 o.sigmaP0) (F64.mul limit limit)
  if F64.le 0 c then 0
  else if F64.eq a 0 then (if F64.eq b 0 then F64.inf else F64.sqrt (F64.div (F64.neg c) b))
  else
    let disc := F64.sqrt (F64.sub (F64.mul b b) (F64.mul (F64.ofNat 4) (F64.mul a c)))
    F64.sqrt (F64.div (F64.sub disc b) (F64.mul F64.two a))

/-- Multiply the position variances by k² and the position rows of the cross terms by k (R268). -/
def Estimate.inflate (e : Estimate) (k : F64) : Estimate :=
  { e with p := e.p.mapIdx fun i row => row.mapIdx fun j v =>
      let v := if i < 2 then F64.mul k v else v
      if j < 2 then F64.mul k v else v }

/-! ## Updates (R253, R254, R258) -/

/-- A measurement: its rows, innovation, covariance and gate. -/
structure Measure where
  rows : Nat := 1
  h : Mat := []
  nu : Vec := []
  r : Mat := []
  gate : F64 := 0

/-- The working state of an estimate step. -/
structure EstWork where
  s : State
  /-- The estimate, at `time`. -/
  e : Estimate
  time : Nat := 0
  tk : Nat := 0
  pieces : List (Nat × Vec) := []
  posIn : Nat := 0
  posOut : Nat := 0
  hdgIn : Nat := 0
  hdgOut : Nat := 0
  posApplied : Bool := false
  hdgApplied : Bool := false
  rawApplied : Bool := false
  /-- For a late sample: the estimate at its stamp, and the transition from there to the present one (R258). -/
  late : Option (Estimate × Mat) := none
  /-- Updates applied. -/
  applied : Nat := 0
  /-- A raw measurement entered (R263). -/
  rawEntered : Bool := false
  /-- A reset of position, of heading happened (R255, R265, R301). -/
  posReset : Bool := false
  hdgReset : Bool := false

/-- Where a sample acts: the estimate at its stamp and the transition from there to the present one (R258). For a sample
that is not late, the present estimate itself. -/
def EstWork.base (w : EstWork) : Estimate × Mat := w.late.getD (w.e, Mat.one w.e.x.length)

/-- S = H P Hᵀ + R and the normalised distance (R254). -/
def Measure.distance (m : Measure) (p : Mat) : Mat × F64 :=
  let n := p.length
  let hp := Mat.mul m.rows n n m.h p
  let sm := Mat.plus m.rows m.rows (Mat.mul m.rows n m.rows hp (Mat.tr n m.rows m.h)) m.r
  (sm, Mat.quad m.rows sm m.nu)

/-- Apply a measurement at its base to the present estimate: x + Φ K ν and P − Φ K S Kᵀ Φᵀ (R258). -/
def Measure.apply (m : Measure) (base : Estimate) (phi sm : Mat) (e : Estimate) : Estimate :=
  let n := e.x.length
  let gain := Mat.mul n m.rows m.rows (Mat.mul n n m.rows base.p (Mat.tr n m.rows m.h)) (Mat.inv m.rows sm)
  let g := Mat.mul n n m.rows phi gain
  let gs := Mat.mul n m.rows m.rows g sm
  let d := Mat.mul n m.rows n gs (Mat.tr m.rows n g)
  { e with x := Vec.plus e.x (g.app m.nu), p := mkMat n n fun i j => F64.sub (e.p.at i j) (d.at i j) }

/-- A rejected sample changes no state but the counters; the first of a run raises source 41 (R254). -/
def State.rejectSample (s : State) (r : Nat) (d2 : F64) : State :=
  let run := (at? s.fusion.sets r).rejectRun
  let s := s.setRefCfg r fun c => { c with rejectRun := run + 1 }
  let s := { s with obsOut.gateRejects := sat32 s.obsOut.gateRejects }
  if run = 0 then s.raise 41 (some (BitVec.ofNat 32 (refInst r))) (some (F64.to32 d2)) (some 0) else s

/-- A sample passed the gate: the run of rejections of its reference ends. -/
def State.acceptSample (s : State) (r : Nat) : State := s.setRefCfg r fun c => { c with rejectRun := 0, gateFirst := false }

/-- Apply a measurement to the present estimate, and for a late epoch to its base as well, against which its other measurements are
taken (DEDUCED, log 39). While dead reckoning the bias stays (R267). -/
def EstWork.update (w : EstWork) (m : Measure) (sm : Mat) : EstWork :=
  let (b, phi) := w.base
  let held := w.s.obs.posDr || w.s.obs.hdgDr
  let keep (old new : Estimate) : Estimate := if held then old.keepBias new else new
  { w with e := keep w.e (m.apply b phi sm w.e), applied := w.applied + 1,
           late := w.late.map fun q => (keep q.1 (m.apply q.1 (Mat.one q.1.x.length) sm q.1), q.2) }

/-- Judge a measurement of reference `r` and apply it when it passes the gate (R254). -/
def EstWork.offer (w : EstWork) (r : Nat) (m : Measure) : EstWork × Bool :=
  let (sm, d2) := m.distance w.base.1.p
  if F64.le d2 m.gate then ({ (w.update m sm) with s := w.s.acceptSample r }, true)
  else ({ w with s := w.s.rejectSample r d2 }, false)

/-- An estimate at an instant claims no less than σ_DR (R268). -/
def State.floorAt (s : State) (time : Nat) (e : Estimate) : Estimate :=
  let (major, _, _) := positionAxes e.p
  let sd := s.sigmaDr (secondsOf (time - s.obs.lastPosAt))
  if F64.lt major sd then e.inflate (F64.div sd major) else e

/-- The covariance that gates: raised to σ_DR until this step has updated the position (R268). -/
def EstWork.floor (w : EstWork) (stamp : Nat) : EstWork :=
  if w.posApplied || w.rawApplied then w
  else match w.late with
    | some q => { w with late := some (w.s.floorAt stamp q.1, q.2) }
    | none => { w with e := w.s.floorAt w.time w.e }

/-- A row of H with ones at two places. -/
def pairRow (n i j : Nat) : Vec := mkVec n fun k => if k = i ∨ k = j then F64.one else 0

/-- The measurement of a position-level sample (R253). -/
def State.posMeasure (s : State) (x : Vec) (o : ObsSample) : Measure :=
  let v := F64.mul o.sigma o.sigma
  { rows := 2, h := [pairRow x.length 0 7, pairRow x.length 1 9],
    nu := [F64.sub o.n (F64.add (x.at 0) (x.at 7)), F64.sub o.e (F64.add (x.at 1) (x.at 9))],
    r := [[v, 0], [0, v]], gate := F64.of32 s.obsParams.gatePos }

/-- The measurement of a heading sample, its innovation wrapped (R253). -/
def State.hdgMeasure (s : State) (x : Vec) (o : ObsSample) : Measure :=
  { rows := 1, h := [pairRow x.length 2 11], nu := [F64.wrapPi (F64.sub o.n (F64.add (x.at 2) (x.at 11)))],
    r := [[F64.mul o.sigma o.sigma]], gate := F64.of32 s.obsParams.gateScalar }

/-! ## Resets (R255, R256, R257, R263) -/

/-- Set states to values and their covariance to a diagonal, its cross terms zero. -/
def Estimate.setStates (e : Estimate) (l : List (Nat × F64 × F64)) : Estimate :=
  let at_ (i : Nat) := l.find? fun q => q.1 == i
  { e with x := e.x.mapIdx fun i v => match at_ i with | some q => q.2.1 | none => v,
           p := e.p.mapIdx fun i row => row.mapIdx fun j v => match at_ i, at_ j with
             | none, none => v
             | some q, _ => if i = j then q.2.2 else 0
             | none, some _ => 0 }

/-- Set states to zero, their covariance as it stands. -/
def Estimate.zeroStates (e : Estimate) (l : List Nat) : Estimate :=
  { e with x := e.x.mapIdx fun i v => if l.contains i then 0 else v }

/-- The position of R255: (n, e), the wave states of n and e zero, the position block σ² I. -/
def Estimate.resetPosition (e : Estimate) (n east sigma : F64) : Estimate :=
  let v := F64.mul sigma sigma
  (e.setStates [(0, n, v), (1, east, v)]).zeroStates [6, 7, 8, 9]
/-- The heading of R255. -/
def Estimate.resetHeading (e : Estimate) (psi sigma : F64) : Estimate :=
  (e.setStates [(2, psi, F64.mul sigma sigma)]).zeroStates [10, 11]

/-- What a reset reports: INNOVATION_REJECT with parameter 2 set to 1, RESETS, and the record with the step (R255), which parameter 3
carries as an FP32, in m or rad (DESIGN CHOICE, log 39). The reference and the distance are those of the sample of R256; a reset
of R255 has no one sample. -/
def State.reportReset (s : State) (who : Option (Nat × F64)) (step : F64) : State :=
  let s := { s with obsOut.resets := sat32 s.obsOut.resets }
  s.raise 41 (who.map fun q => BitVec.ofNat 32 (refInst q.1)) (who.map fun q => F64.to32 q.2) (some 1) (some (F64.to32 step)) (must := true)

/-- Reset the position (R255). -/
def EstWork.resetPos (w : EstWork) (n e sigma : F64) (who : Option (Nat × F64)) : EstWork :=
  let d := [F64.sub n (w.e.x.at 0), F64.sub e (w.e.x.at 1)]
  { w with e := w.e.resetPosition n e sigma, posReset := true,
           s := { w.s.reportReset who (F64.sqrt (Vec.dot d d)) with obs.rejectRunPos := 0 } }
/-- Reset the heading (R255). -/
def EstWork.resetHdg (w : EstWork) (psi sigma : F64) (who : Option (Nat × F64)) : EstWork :=
  { w with e := w.e.resetHeading psi sigma, hdgReset := true,
           s := { w.s.reportReset who (F64.wrapPi (F64.sub psi (w.e.x.at 2))) with obs.rejectRunHdg := 0 } }

/-- c in metres per nanosecond. -/
def metresPerNs : F64 := F64.div (F64.ofNat 299792458) (F64.ofNat 1000000000)

/-- The systems whose offsets δ₁ to δ₃ estimate: GPS, Galileo, BeiDou, GLONASS without the reference system (R244). -/
def deltaSystems (reference : Nat) : List Nat := [0, 1, 2, 3].filter (· != reference)
/-- The state index of a system's δ; none for the reference system. An SBAS satellite uses GPS's (R259). -/
def deltaState (reference system : Nat) : Option Nat :=
  let sys := if system = 4 then 0 else system
  ((deltaSystems reference).findIdx? (· == sys)).map (18 + ·)

/-- Change the present estimate, and the base of a late sample with it. -/
def EstWork.both (w : EstWork) (f : Estimate → Estimate) : EstWork :=
  { w with e := f w.e, late := w.late.map fun q => (f q.1, q.2) }

/-- δ of a system takes −c × OFFSET with a standard deviation of c × SIGMA (R263). -/
def EstWork.initDelta (w : EstWork) (sys : Nat) : EstWork :=
  let off := at? w.s.gnss.sysOffsets sys
  match deltaState w.s.gnss.timeSystemInUse.toNat sys with
  | some i =>
    if off.source == 0 then w
    else
      let sg := F64.mul metresPerNs (F64.of32 off.sigma)
      { w.both (·.setStates [(i, F64.neg (F64.mul metresPerNs off.offset), F64.mul sg sg)]) with
               s := { w.s with obs.deltaInit := w.s.obs.deltaInit.set (i - 18) true } }
  | none => w

/-- The clock states take −c × CLOCK_BIAS and −c × CLOCK_DRIFT of PVT, with 30 m and 1 m/s (R263). -/
def EstWork.initClock (w : EstWork) (p : Pvt) : EstWork :=
  let cb := F64.neg (F64.mul metresPerNs p.clockBias)
  let cd := F64.neg (F64.mul metresPerNs (F64.of32 p.clockDrift))
  let w := { w.both (·.setStates [(16, cb, F64.ofNat 900), (17, cd, F64.one)]) with
                    s := { w.s with obs.clockActive := true, obs.deltaInit := [false, false, false] } }
  (deltaSystems w.s.gnss.timeSystemInUse.toNat).foldl EstWork.initDelta w

/-! ## Tight coupling (R259-R265) -/

/-- The carrier frequency of a measurement, Hz (R125). -/
def measCarrier (m : Meas) : F64 :=
  if m.signal == 4 then F64.ofInt (1602000000 + 562500 * m.gloK.toInt)
  else if m.signal.toNat < 0x10 then F64.ofNat 1575420000 else F64.ofNat 1176450000
/-- The speed of light, m/s. -/
def lightMs : F64 := F64.ofNat 299792458
/-- The jamming indicator of a measurement's own front end (R144, R195). -/
def measJam (e : Epoch) (m : Meas) : F64 :=
  jamFactor ((e.jam.getD (m.antenna.toNat * 2 + (if m.signal.toNat < 0x10 then 0 else 1)) 0).toNat)

/-- May a measurement be used (R259)? -/
def State.usable (s : State) (m : Meas) : Bool :=
  let sys := m.system.toNat
  let f := m.flags
  f.getLsbD 0 && f.getLsbD 6 && !f.getLsbD 7 && !f.getLsbD 5 &&
    (decide (sys < 4) || (sys == 4 && s.gnss.config.getLsbD 4)) &&
    (at? s.gnss.sysOffsets (if sys = 4 then 0 else sys)).source != 0

/-- The variance of a pseudorange: PR_SIGMA² (1 + J/20)², four times that with NOTCH_NEAR (R260). -/
def prVariance (e : Epoch) (m : Meas) : F64 :=
  let v := F64.mul (F64.of32 m.prSigma) (measJam e m)
  let v := F64.mul v v
  if m.flags.getLsbD 4 then F64.mul (F64.ofNat 4) v else v

/-- An entry of an epoch as the observer takes it: a pseudorange, perhaps of two bands combined (R261). -/
structure PrEntry where
  meas : Meas := {}
  range : F64 := 0
  variance : F64 := 0
  combined : Bool := false

/-- Two bands of one satellite and antenna (R261). -/
def bandPair (a b : Meas) : Bool :=
  a.system == b.system && a.sv == b.sv && a.antenna == b.antenna &&
    ((a.signal == 1 && b.signal == 0x11) || (a.signal == 2 && b.signal == 0x12) || (a.signal == 3 && b.signal == 0x13))

/-- (f₁² P₁ − f₂² P₂)/(f₁² − f₂²), its variance with the same coefficients (R261). -/
def combinePr (e : Epoch) (a b : Meas) : PrEntry :=
  let f1 := F64.mul (measCarrier a) (measCarrier a)
  let f2 := F64.mul (measCarrier b) (measCarrier b)
  let d := F64.sub f1 f2
  let k1 := F64.div f1 d
  let k2 := F64.div f2 d
  { meas := a, combined := true, range := F64.sub (F64.mul k1 a.pseudorange) (F64.mul k2 b.pseudorange),
    variance := F64.add (F64.mul (F64.mul k1 k1) (prVariance e a)) (F64.mul (F64.mul k2 k2) (prVariance e b)) }

/-- The pseudorange that stands at a measurement's place in channel order: a combination at the first of its two
channels, nothing at the other. -/
def prAt (e : Epoch) (used : List Meas) (m : Meas) : Option PrEntry :=
  match used.find? fun o => bandPair m o || bandPair o m with
  | none => some { meas := m, range := m.pseudorange, variance := prVariance e m }
  | some o =>
    if o.channel.toNat < m.channel.toNat then none
    else some (if bandPair m o then combinePr e m o else combinePr e o m)

/-- The geometry of a measurement: the range, the line of sight in NED, the antenna's lever in NED, elevation, azimuth. -/
structure Sight where
  range : F64 := 0
  los : Vec := []
  lever : Vec := []
  elevation : F64 := 0
  azimuth : F64 := 0
  lat : F64 := 0
  lon : F64 := 0

/-- The sight of a satellite from an antenna: it lies at the slice's LEVER plus its refinement, ANT_B at ANT_BASELINE more
(R259, R260). -/
def State.sight (s : State) (r : Nat) (sl : SliceRec) (x : Vec) (stamp : Nat) (ep : Epoch) (m : Meas) (range : F64) : Sight :=
  let (phi, theta, _) := s.attitudeAt stamp
  let (_, _, psi) := totalPose x
  let base := s.leverOf r sl
  let lever := if m.antenna == 0 then base
    else Vec.plus base (s.gnss.antBaseline.toList.map F64.of32)
  let o := (rotBody phi theta psi).app lever
  let (lat, lon, _) := geodeticAt s.law.originLat s.law.originLon s.law.originH
    [F64.add (x.at 0) (o.at 0), F64.add (x.at 1) (o.at 1), 0]
  let ant := ecefOf lat lon (F64.sub (x.at 15) (o.at 2))
  let d := Vec.minus (Config.satPosition m.system.toNat m.sv.toNat ep.tb2 range) ant
  let dist := F64.sqrt (Vec.dot d d)
  let los := (nedAxes lat lon).app (Vec.scale (F64.div F64.one dist) d)
  { range := dist, los := los, lever := o, elevation := F64.asin (F64.neg (los.at 2)),
    azimuth := F64.wrap2Pi (F64.atan2 (los.at 1) (los.at 0)), lat := lat, lon := lon }

/-- The troposphere at an elevation (R260). -/
def State.troposphere (s : State) (el : F64) : F64 :=
  let sn := F64.sin el
  F64.div (F64.mul (F64.of32 s.obsParams.tropoZenith) (f64OfRat 1001 1000))
    (F64.sqrt (F64.add (f64OfRat 2001 1000000) (F64.mul sn sn)))

/-- The measurement of a pseudorange (R260). -/
def State.prMeasure (s : State) (r : Nat) (sl : SliceRec) (x : Vec) (stamp : Nat) (ep : Epoch) (q : PrEntry) : Measure :=
  let m := q.meas
  let g := s.sight r sl x stamp ep m q.range
  let ds := deltaState s.gnss.timeSystemInUse.toNat m.system.toNat
  let delta := match ds with | some i => x.at i | none => 0
  let iono := if q.combined then 0
    else
      let k := F64.div (F64.ofNat 1575420000) (measCarrier m)
      F64.mul (Config.ionosphere g.lat g.lon g.azimuth g.elevation ep.tb2) (F64.mul k k)
  let clk := F64.mul lightMs (Config.satClock m.system.toNat m.sv.toNat ep.tb2 q.range)
  let pred := F64.add (F64.add (F64.sub (F64.add (F64.add g.range (x.at 16)) delta) clk) iono) (s.troposphere g.elevation)
  let turn := F64.sub (F64.mul (g.los.at 0) (g.lever.at 1)) (F64.mul (g.los.at 1) (g.lever.at 0))
  { rows := 1, nu := [F64.sub q.range pred], r := [[q.variance]], gate := F64.of32 s.obsParams.gateScalar,
    h := [mkVec x.length fun i =>
      if i = 0 then F64.neg (g.los.at 0) else if i = 1 then F64.neg (g.los.at 1) else if i = 2 then turn
      else if i = 15 then g.los.at 2 else if i = 16 then F64.one else if some i == ds then F64.one else 0] }

/-- The epoch of a receiver before an epoch (R262). -/
def State.epochBefore (s : State) (member rxt : Nat) : Option EpochTrack :=
  s.obsOut.epochs.foldl (fun (b : Option EpochTrack) x =>
    if x.member == member && decide (x.rxt < rxt) && (match b with | some y => decide (y.rxt < x.rxt) | none => true) then some x else b) none

/-- A channel's range rate with its variance: from the carrier, else from the Doppler (R262). -/
def State.rangeRate (s : State) (member : Nat) (ep : Epoch) (m : Meas) : F64 × F64 :=
  let lambda := F64.div lightMs (measCarrier m)
  let prev := (s.epochBefore member ep.rxt).bind fun x => (x.phases.find? fun q => q.1 == m.channel.toNat).map fun q => (x.rxt, q.2)
  let carrier := m.flags.getLsbD 1 && !m.flags.getLsbD 3 && !ep.flags.getLsbD 4
  match if carrier then prev else none with
  | some (before, phase) =>
    let dt := secondsOf ((ep.rxt : Int) - before)
    let rate := F64.div (F64.mul lambda (F64.sub m.carrierPhase phase)) dt
    let jump := F64.div (F64.mul lightMs (f64OfRat 1 1000)) dt
    let rate := if ep.flags.getLsbD 0 then
        (if ep.flags.getLsbD 1 then F64.add rate jump else F64.sub rate jump) else rate
    let sg := F64.div (F64.mul lambda (F64.mul (F64.of32 m.cpSigma) (measJam ep m))) dt
    (rate, F64.mul F64.two (F64.mul sg sg))
  | none =>
    let d := F64.of32 s.obsParams.dopplerSigma
    (F64.neg (F64.mul lambda (F64.of32 m.doppler)), F64.mul d d)

/-- The measurement of a range rate (R262). -/
def State.rateMeasure (s : State) (r : Nat) (sl : SliceRec) (x : Vec) (stamp member : Nat) (ep : Epoch) (m : Meas) : Measure :=
  let g := s.sight r sl x stamp ep m m.pseudorange
  let (rate, variance) := s.rangeRate member ep m
  let sv := (nedAxes g.lat g.lon).app (Config.satVelocity m.system.toNat m.sv.toNat ep.tb2 m.pseudorange)
  let v := nedVelocity x
  let yaw := v.at 2
  let va := [F64.sub (v.at 0) (F64.mul yaw (g.lever.at 1)), F64.add (v.at 1) (F64.mul yaw (g.lever.at 0)), 0]
  let pred := F64.add (Vec.dot g.los (Vec.minus sv va)) (x.at 17)
  let c := F64.cos (x.at 2)
  let sn := F64.sin (x.at 2)
  let ln := g.los.at 0
  let le := g.los.at 1
  { rows := 1, nu := [F64.sub rate pred], r := [[variance]], gate := F64.of32 s.obsParams.gateScalar,
    h := [mkVec x.length fun i =>
      if i = 3 then F64.neg (F64.add (F64.mul ln c) (F64.mul le sn))
      else if i = 4 then F64.sub (F64.mul ln sn) (F64.mul le c)
      else if i = 5 then F64.sub (F64.mul ln (g.lever.at 1)) (F64.mul le (g.lever.at 0))
      else if i = 17 then F64.one else 0] }

/-- The end of dead reckoning (R270): source 38 with the kind's bit and the time since the last update in ms. -/
def State.endDr (s : State) (hdg : Bool) (tk : Nat) : State :=
  let was := if hdg then s.obs.hdgDr else s.obs.posDr
  if !was then s
  else
    let since := tk - (if hdg then s.obs.lastHdgAt else s.obs.lastPosAt)
    let s := if hdg then { s with obs.hdgDr := false } else { s with obs.posDr := false }
    s.raiseN 38 (if hdg then 2 else 1) (some (since / ms))

/-- An epoch's millisecond jump moves c_b, its covariance unchanged (R264). -/
def EstWork.jump (w : EstWork) (ep : Epoch) : EstWork :=
  if !ep.flags.getLsbD 0 then w
  else
    let j := F64.mul lightMs (f64OfRat 1 1000)
    w.both fun e => { e with x := e.x.mapIdx fun i v =>
      if i = 16 then (if ep.flags.getLsbD 1 then F64.sub v j else F64.add v j) else v }

/-- Offer a raw measurement, and count it when it is applied. -/
def EstWork.offerRaw (w : EstWork) (r : Nat) (m : Measure) : EstWork × Bool :=
  let (w, ok) := { w with rawEntered := true }.offer r m
  (if ok then { w with rawApplied := true, s := { w.s with obsOut.rawUpdates := sat32 w.s.obsOut.rawUpdates } } else w, ok)

/-- A raw epoch's measurements, in channel order, each pseudorange before its range rate (R250, R259-R265). The clock states are
initialised when 60 s have passed in which none entered, passed by the gate or not (R263). -/
def EstWork.takeRaw (w : EstWork) (o : ObsSample) (sl : SliceRec) (ep : Epoch) (pvt : Pvt) : EstWork :=
  let used := (ep.meas.filter w.s.usable).mergeSort fun a b => decide (a.channel.toNat ≤ b.channel.toNat)
  if used.isEmpty || !w.s.law.originValid then w
  else
    let stale := decide (w.s.obs.lastRawAt + 60 * second ≤ w.tk)
    let w := if !w.s.obs.clockActive || stale then w.initClock pvt else w
    -- an offset whose SOURCE became non-zero later is initialised at its first use
    let w := (deltaSystems w.s.gnss.timeSystemInUse.toNat).zipIdx.foldl (fun w (sys, i) =>
      if !(w.s.obs.deltaInit.getD i false) && used.any (fun m => (if m.system == 4 then 0 else m.system.toNat) == sys)
      then w.initDelta sys else w) w
    let (w, n, bad) := used.foldl (fun (a : EstWork × Nat × Nat) m =>
      let (w, n, bad) := a
      let (w, n, bad) := match prAt ep used m with
        | none => (w, n, bad)
        | some q =>
          let (w, ok) := w.offerRaw o.ref (w.s.prMeasure o.ref sl w.base.1.x o.stamp ep q)
          (w, n + 1, if ok then bad else bad + 1)
      ((w.offerRaw o.ref (w.s.rateMeasure o.ref sl w.base.1.x o.stamp o.member ep m)).1, n, bad)) (w, 0, 0)
    let w := if w.rawApplied then { w with s := w.s.endDr false w.tk } else w
    let run := if 0 < n && bad == n then w.s.obs.rejectRunRaw + 1 else 0
    let w := { w with s := { w.s with obs.rejectRunRaw := run, obs.lastRawAt := w.tk } }
    if w.s.obsParams.rejectLimit ≤ run && o.hasPosition then
      let w := (w.resetPos o.n o.e o.sigma none).initClock pvt
      { w with s := { w.s with obs.rejectRunRaw := 0 } }
    else w

/-! ## One sample (R253-R257) -/

/-- A position sample, or an epoch of a LEVEL 1 reference. The first position of all and the first after dead reckoning end dead
reckoning (R257, R270). -/
def EstWork.takePosition (w : EstWork) (o : ObsSample) : EstWork :=
  let st := w.s.obs.state
  let raw (w : EstWork) : EstWork := match o.raw, w.s.refSlice o.ref with
    | some (ep, pvt), some sl => if w.s.tight then w.takeRaw o sl ep pvt else w
    | _, _ => w
  let clock (w : EstWork) : EstWork := match o.raw with | some (_, pvt) => w.initClock pvt | none => w
  let ended (w : EstWork) : EstWork := { w with posApplied := true, s := (w.s.acceptSample o.ref).endDr false w.tk }
  if st == 2 then
    if !o.hasPosition then w
    else
      let w := ended { w with e := w.e.resetPosition o.n o.e o.sigma, posReset := true, s := { w.s with obs.state := 3 } }
      raw (clock w)
  else if st != 3 then w
  else
    let first := (at? w.s.fusion.sets o.ref).gateFirst || w.s.obs.posDr
    let m := w.s.posMeasure w.base.1.x o
    if o.raw.isSome then
      if first && o.hasPosition then
        let (_, d2) := m.distance w.base.1.p
        let w := { w with s := w.s.acceptSample o.ref }
        if F64.le d2 m.gate then raw w
        else raw (ended (clock (w.resetPos o.n o.e o.sigma (some (o.ref, d2)))))
      else raw w
    else if first then
      let (sm, d2) := m.distance w.base.1.p
      let w := { w with posIn := w.posIn + 1 }
      if F64.le d2 m.gate then
        let w := (ended w).update m sm
        { w with s := { w.s with obsOut.posUpdates := sat32 w.s.obsOut.posUpdates } }
      else ended (w.resetPos o.n o.e o.sigma (some (o.ref, d2)))
    else
      let w := { w with posIn := w.posIn + 1 }
      let (w, ok) := w.offer o.ref m
      if ok then { w with posApplied := true, s := { w.s with obsOut.posUpdates := sat32 w.s.obsOut.posUpdates } }
      else { w with posOut := w.posOut + 1 }

/-- A heading sample. -/
def EstWork.takeHeading (w : EstWork) (o : ObsSample) : EstWork :=
  let st := w.s.obs.state
  let ended (w : EstWork) : EstWork := { w with hdgApplied := true, s := (w.s.acceptSample o.ref).endDr true w.tk }
  if st == 0 then w
  else if st == 1 then
    ended { w with e := w.e.resetHeading o.n o.sigma, hdgReset := true, s := { w.s with obs.state := 2 } }
  else
    let first := (at? w.s.fusion.sets o.ref).gateFirst || w.s.obs.hdgDr
    let m := w.s.hdgMeasure w.base.1.x o
    let w := { w with hdgIn := w.hdgIn + 1 }
    if first then
      let (sm, d2) := m.distance w.base.1.p
      if F64.le d2 m.gate then
        let w := (ended w).update m sm
        { w with s := { w.s with obsOut.hdgUpdates := sat32 w.s.obsOut.hdgUpdates } }
      else ended (w.resetHdg o.n o.sigma (some (o.ref, d2)))
    else
      let (w, ok) := w.offer o.ref m
      if ok then { w with hdgApplied := true, s := { w.s with obsOut.hdgUpdates := sat32 w.s.obsOut.hdgUpdates } }
      else { w with hdgOut := w.hdgOut + 1 }

/-- A sample of a point has entered the observer (R204). -/
def State.markEntered (s : State) (point stamp : Nat) : State :=
  { s with obs.entered := s.obs.entered.filter (·.1 != point) ++
      [(point, max stamp (((s.obs.entered.find? (·.1 == point)).map (·.2)).getD 0))] }

/-- One sample of either kind enters (R204); a LEVEL 1 epoch's jump comes first (R264). -/
def EstWork.take (w : EstWork) (o : ObsSample) : EstWork :=
  let w := { w with s := o.parts.foldl (fun (s : State) (q : Nat × Nat) => s.markEntered q.1 q.2) w.s }
  let w := match o.raw with | some (ep, _) => w.jump ep | none => w
  let w := w.floor o.stamp
  if 12 ≤ o.ref then w.takeHeading o else w.takePosition o

/-! ## Steps 3 and 4 (R250, R258) -/

/-- Step 3: a delayed update. A sample with no history entry before its stamp is dropped (R277). -/
def EstWork.delayed (w : EstWork) (o : ObsSample) : EstWork :=
  let h := w.s.history
  match entryBefore h o.stamp with
  | none => { w with s := w.s.setRef o.ref fun q => { q with cntLateDropped := sat32 q.cntLateDropped } }
  | some (q, i) =>
    let n := w.e.x.length
    let next := match h[i + 1]? with | some y => y.at_ | none => w.time
    let m := w.s.model
    let e0 : Estimate := { x := q.x, p := Mat.ofFlat n n q.p, phi := Mat.one n }
    let pieces := if q.thrust.isEmpty then w.pieces else q.thrust
    let atS := m.propagate pieces q.wind q.at_ o.stamp e0
    let rest := m.propagate pieces q.wind o.stamp next { atS with phi := Mat.one n }
    let phi := (h.drop (i + 1)).foldl (fun a y => if y.phi.isEmpty then a else Mat.mul n n n (Mat.ofFlat n n y.phi) a) rest.phi
    let d := { w with late := some (atS, phi) }.take o
    let n := d.applied - w.applied
    { d with late := none, s := { d.s with obsOut.delayedUpdates := satAdd (2 ^ 32 - 1) d.s.obsOut.delayedUpdates n } }

/-- Propagate to an instant. -/
def EstWork.goTo (w : EstWork) (time : Nat) : EstWork :=
  if time ≤ w.time then w
  else { w with e := w.s.model.propagate w.pieces w.s.obs.wind w.time time w.e, time := time }

/-- The order at equal stamps: an epoch, then positions, then headings, each by slice number (R250). -/
def sampleRank (o : ObsSample) : Nat :=
  if o.raw.isSome then o.ref else if o.ref < 12 then 16 + o.ref else 32 + o.ref

/-- Samples in the order of R250. -/
def inStampOrder (l : List ObsSample) : List ObsSample :=
  l.mergeSort fun a b => decide (a.stamp < b.stamp) || (decide (a.stamp = b.stamp) && decide (sampleRank a ≤ sampleRank b))

/-- R255 for one kind: count the cycle, and reset at the limit. -/
def EstWork.rejectCycle (w : EstWork) (hdg : Bool) (v : VoteOut) : EstWork :=
  let all := if hdg then 0 < w.hdgIn && w.hdgOut == w.hdgIn else 0 < w.posIn && w.posOut == w.posIn
  let run := if all then satAdd 255 (if hdg then w.s.obs.rejectRunHdg else w.s.obs.rejectRunPos) 1 else 0
  let w := { w with s := if hdg then { w.s with obs.rejectRunHdg := run } else { w.s with obs.rejectRunPos := run } }
  match v.consensus with
  | some c =>
    if run < w.s.obsParams.rejectLimit then w
    else if hdg then w.resetHdg c.1 v.sigmaMax none else w.resetPos c.1 c.2 v.sigmaMax none
  | none => w

/-! ## Step 6 (R266-R269) -/

/-- Begin dead reckoning of position or heading (R266). -/
def State.beginDr (s : State) (hdg : Bool) : State :=
  let was := if hdg then s.obs.hdgDr else s.obs.posDr
  if was then s
  else if hdg then { s with obs.hdgDr := true }.raiseN 37 2 else { s with obs.posDr := true }.raiseN 37 1

/-- Step 6: the elements of the last position update, dead reckoning, the covariance floor, the limit. -/
def EstWork.limits (w : EstWork) (anyPos anyHdg : Bool) : EstWork :=
  let p := w.e.p
  let (major, _, _) := positionAxes p
  let m11 := w.s.hull.mass.getD 0 0
  let m22 := w.s.hull.mass.getD 4 0
  let s := w.s
  let s := if w.posApplied || w.rawApplied then
      { s with obs.lastPosAt := w.tk, obs.sigmaP0 := major, obs.sigmaV0 := largerSigma p 3 4,
               obs.drA := F64.add (F64.div (largerSigma p 12 13) (F64.min m11 m22)) (F64.of32 s.obsParams.drAccel) }
    else s
  let s := if w.hdgApplied then { s with obs.lastHdgAt := w.tk } else s
  let delay := s.obsParams.drDelay * ms
  let s := if s.obs.state != 0 && (!anyPos || decide (s.obs.lastPosAt + delay ≤ w.tk)) then s.beginDr false else s
  let s := if s.obs.state != 0 && (!anyHdg || decide (s.obs.lastHdgAt + delay ≤ w.tk)) then s.beginDr true else s
  let since := w.tk - s.obs.lastPosAt
  let sd := s.sigmaDr (secondsOf since)
  let e := s.floorAt w.tk w.e
  let e := if s.obs.posDr && decide (60 * second ≤ since) then e.zeroStates [6, 7, 8, 9] else e
  let (m2, minor, dir) := positionAxes e.p
  let major := F64.max m2 sd
  let limit := F64.of32 s.obsParams.uncertaintyLimit
  let reach := s.drReach limit
  let left := F64.sub reach (secondsOf since)
  let ttl := if !s.obs.posDr then F32.inf else if F64.le left 0 then 0 else F64.to32 left
  let s := { s with obsOut.posSigmaMajor := major, obsOut.posSigmaMinor := minor, obsOut.majorDir := dir,
                    obsOut.hdgSigma := F64.sqrt (e.p.at 2 2), obsOut.velSigma := largerSigma e.p 3 4,
                    obsOut.yawSigma := F64.sqrt (e.p.at 5 5), obsOut.biasSigmaNow := largerSigma e.p 12 13,
                    obsOut.timeToLimit := ttl }
  let s :=
    if !s.obs.limitReached && F64.le limit major then
      { s with obs.limitReached := true }.raiseN 37 4
    else if s.obs.limitReached && F64.lt major (F64.mul (f64OfRat 9 10) limit) then { s with obs.limitReached := false }
    else s
  { w with s := s, e := e }

/-! ## Wind and thrust inputs (R247-R249) -/

/-- Take the wind fusion supplies (R248): its going moves the last force into b, its return takes it out again. DEDUCED
(log 9): a wind that has not yet come has not stopped, so WIND_MISSING keeps its reset value until one has gone. -/
def State.windInput (s : State) (e : Estimate) : State × Estimate :=
  let turn (f : Vec) : Vec := (rotZ (e.x.at 2)).app f
  match s.wind.wind with
  | some (v, g) =>
    let tau := s.windForce v g
    let e := if s.obs.windMissing then
        let d := turn tau
        { e with x := e.x.mapIdx fun i x => if 12 ≤ i ∧ i < 15 then F64.sub x (d.at (i - 12)) else x }
      else e
    ({ s with obs.wind := tau, obs.windMissing := false, obs.windSeen := true }, e)
  | none =>
    if s.obs.windMissing || !s.obs.windSeen then (s, e)
    else
      let d := turn s.obs.wind
      let e := { e with x := e.x.mapIdx fun i x => if 12 ≤ i ∧ i < 15 then F64.add x (d.at (i - 12)) else x,
                        p := e.p.mapIdx fun i row => row.mapIdx fun j v =>
                          if i = j ∧ 12 ≤ i ∧ i < 15 then F64.add v (F64.mul (d.at (i - 12)) (d.at (i - 12))) else v }
      ({ s with obs.wind := [0, 0, 0], obs.windMissing := true }, e)

/-- The forces of each thruster at t_k, with the masks (R249, R273). -/
def State.publishForces (s : State) (held : Bool) (tk : Nat) : State :=
  let rows := match s.image.loaded with | some i => i.thrusters | none => []
  let per (n : Nat) : Option (ForceSource × F64 × F64) := (rows.find? (·.slice == n)).map fun r => s.thrusterForce held r tk
  let all := (List.range 16).map per
  let mask (k : ForceSource) : BitVec 16 := BitVec.ofNat 16 (maskOf (all.map fun q => match q with
    | some (src, _, _) => decide (src = k)
    | none => false))
  { s with obs.thrust := s.thrustAt held tk, obsOut.forcesAt := tk, obsOut.commandMask := mask .command,
           obsOut.zeroMask := mask .zero,
           obsOut.forces := all.map fun q => match q with | some (_, fx, fy) => (F64.to32 fx, F64.to32 fy) | none => (0, 0) }

/-! ## The estimate step (R250) -/

/-- Step 7's prediction to t_k + C, with the set-points in force until then (R271). -/
def State.predictOut (s : State) (tk : Nat) : State :=
  let stop := tk + s.cyc.commandAt
  let e := s.model.propagate (s.thrustPieces true tk stop) s.obs.wind tk stop s.estimate
  { s with obsOut.estAt := stop, obsOut.estX := e.x, obsOut.estP := e.p.flat }

/-- The history entry of a tick, as step 5 leaves the estimate; at most LATE_WINDOW + 1 of them, and at most 9 (R258). The entry before receives the
transition and the inputs of the cycle that followed it. -/
def State.storeHistory (s : State) (tk : Nat) (e : Estimate) (pieces : List (Nat × Vec)) (wind : Vec) : State :=
  let n := s.history.length
  let old := s.history.mapIdx fun i q => if i + 1 = n then { q with phi := e.phi.flat, thrust := pieces, wind := wind } else q
  let all := old ++ [{ at_ := tk, x := e.x, p := e.p.flat }]
  let keep := min 9 (s.cyc.lateWindow + 1)
  { s with history := all.drop (all.length - keep) }

/-- The step without an update: what an overrun leaves (R252), and what follows a restart, with the set-points that FIO held (R277). -/
def State.observeNothing (s : State) (held : Bool) (tk : Nat) : State :=
  let start := s.obs.at_
  let pieces := s.thrustPieces held start tk
  let e := s.model.propagate pieces s.obs.wind start tk s.estimate
  let s := s.storeHistory tk e pieces s.obs.wind
  let s := { s with obs.x := e.x, obs.p := e.p.flat, obs.at_ := tk, obs.tight := false }
  (s.publishForces held tk).predictOut tk

/-- The epochs of the receivers that feed LEVEL 1 references, one for each (R259): the copy the reference last used. -/
def State.rawEpochs (s : State) (xs : List Sample) : List (Nat × Epoch) :=
  (List.range 12).flatMap fun r =>
    match s.refSlice r with
    | some sl =>
      if (s.refFusion r).level != 1 then []
      else xs.filterMap fun x => match x.val with
        | .epoch e _ _ =>
          if sl.points.head? == some x.point && (s.copyKey x == 0xFF || x.member == (at? s.fusion.refs r).chosen) then some (x.member, e)
          else none
        | _ => none
    | none => []

/-- What R262 takes from an epoch of a member's receiver later. -/
def trackOf (member : Nat) (e : Epoch) : EpochTrack :=
  { member := member, rxt := e.rxt,
    phases := (e.meas.filter fun (x : Meas) => x.flags.getLsbD 1).map fun (x : Meas) => (x.channel.toNat, x.carrierPhase) }

/-- The frame's epochs are kept for the range rates of R262, used or not: the latest 12. -/
def State.keepEpochs (s : State) (es : List (Nat × Epoch)) : State :=
  let new := es.map fun q => trackOf q.1 q.2
  let all := s.obsOut.epochs.filter (fun x => !(new.any fun y => y.member == x.member && y.rxt == x.rxt)) ++ new
  { s with obsOut.epochs := all.drop (all.length - 12) }

/-- The jumps of epochs none of whose measurements reach the observer (R264). -/
def EstWork.idleJumps (w : EstWork) (es : List (Nat × Epoch)) (used : List ObsSample) : EstWork :=
  es.foldl (fun w q =>
    if used.any (fun (o : ObsSample) => match o.raw with | some (ep, _) => ep.rxt == q.2.rxt && o.member == q.1 | none => false) then w
    else w.jump q.2) w

/-- Steps 3 to 7 on what fusion hands over. Answers whether position, heading was reset. -/
def State.observe (s : State) (tk : Nat) (f : FusionOut) : State × Bool × Bool :=
  if s.obs.resume then ({ s with obs.resume := false, history := [] }.observeNothing true tk, false, false)
  else
    let fresh := s.rawEpochs s.cycle.frame
    let old := s.rawEpochs s.cycle.late
    -- a new receiver time makes the clock states stale (R263)
    let s := if (old ++ fresh).any fun q => q.2.flags.getLsbD 2 then { s with obs.clockActive := false } else s
    let s := s.keepEpochs (old ++ fresh)
    let (s, e) := s.windInput s.estimate
    let start := s.obs.at_
    let pieces := s.thrustPieces false start tk
    let lates := inStampOrder (f.samples.filter (·.late))
    let news := inStampOrder (f.samples.filter (!·.late))
    let w : EstWork := { s := s, e := e, time := start, tk := tk, pieces := pieces }
    let w := lates.foldl EstWork.delayed (w.idleJumps old lates)
    let w := news.foldl (fun w o => (w.goTo (min o.stamp tk)).take o) (w.idleJumps fresh news)
    let w := (w.rejectCycle false f.pos).rejectCycle true f.hdg
    let w := w.goTo tk
    let w := { w with s := w.s.storeHistory tk w.e pieces w.s.obs.wind }
    let w := w.limits f.anyPos f.anyHdg
    let s := { w.s with obs.x := w.e.x, obs.p := w.e.p.flat, obs.at_ := tk, obs.tight := w.rawApplied }
    ((s.publishForces false tk).predictOut tk, w.posReset, w.hdgReset)

/-! ## Start (R257, R279) -/

/-- The observer after a cold start or an image load: NO_HEADING, heading 0, position at the NED origin with variance
10⁸ m², velocity zero at 0.5 m/s, bias zero at BIAS_SIGMA. -/
def State.observerStart (s : State) : State :=
  let n := s.obsDim
  let variance (i : Nat) : F64 :=
    if i < 2 then F64.ofNat 100000000 else if i = 3 ∨ i = 4 then f64OfRat 1 4
    else if 12 ≤ i ∧ i < 15 then F64.mul (s.biasSigma (i - 12)) (s.biasSigma (i - 12))
      else Config.initialVariance s.obsParams.waveFreq s.obsParams.waveDamping s.obsParams.waveSigma i
  { s with obs := { state := if s.image.loaded.isSome then 1 else 0, at_ := s.tb3, lastPosAt := s.tb3, lastHdgAt := s.tb3,
                    lastRawAt := s.tb3, x := mkVec n fun i => if i = 15 then Config.initialHeight else 0,
                    p := (mkMat n n fun i j => if i = j then variance i else 0).flat },
           obsOut := {}, history := [] }

/-- A changed wave parameter keeps the wave states and scales their covariance to the new stationary value (R275): the
variance of ξ₁ is σ²/ω₀², that of ξ₂ is σ². -/
def State.rescaleWave (s : State) (old : ObsParams) : State :=
  let n := s.obsDim
  let sg (q : ObsParams) (i : Nat) : F64 :=
    let w := F64.of32 q.waveSigma
    if i % 2 = 1 then w else F64.div w (F64.of32 q.waveFreq)
  let k (i : Nat) : F64 := if 6 ≤ i ∧ i < 12 then F64.div (sg s.obsParams i) (sg old i) else F64.one
  { s with obs.p := (mkMat n n fun i j => F64.mul (F64.mul (k i) (k j)) ((Mat.ofFlat n n s.obs.p).at i j)).flat }

/-! ## The row -/

/-- DR_DELAY_EXPIRY (R266): no sample applied for DR_DELAY. -/
def execDrDelayExpiry (t : Nat) (s : State) : Out :=
  runRunning t s fun s =>
    let d := s.obsParams.drDelay * ms
    let s := if s.obs.state != 0 && decide (s.obs.lastPosAt + d ≤ s.tb3) then s.beginDr false else s
    if s.obs.state != 0 && decide (s.obs.lastHdgAt + d ≤ s.tb3) then s.beginDr true else s

end Sys2Proof.Machine
end

