-- ==== Sys2Proof/Machine/Law.lean ====
section
/-! DEFINITION. The station-keeping law: the reference model, TRACK, availability, wedges, power, the discretised model and
the data of the problem (spec/08_station_keeping_law.md). -/

namespace Sys2Proof.Machine

/-! ## Modes and variants (R280, R282) -/

/-- A positioning mode's place in PREFERRED_HORIZON and its bit in MODES: 0 JOYSTICK to 3 TRACK. -/
def Mode.posIndex : Mode → Option Nat
  | .joystick => some 0 | .autohead => some 1 | .station => some 2 | .track => some 3
  | _ => none

/-- A variant of an image. -/
def State.variantRec (s : State) (v : Nat) : Option VariantRec := s.image.loaded.bind fun i => i.variants.find? (·.number == v)

/-- The variant of a mode (R282): the nearest HORIZON to the preferred one, the longer at a tie. -/
def State.chosenVariant (s : State) (m : Mode) : Option VariantRec :=
  match m.posIndex, s.image.loaded with
  | some b, some i =>
    let want := at? s.law.params.preferredHorizon b
    let dist (v : VariantRec) : Nat := (max v.horizon want) - (min v.horizon want)
    (i.variants.filter fun v => v.modes.getLsbD b).foldl (fun (best : Option VariantRec) v => match best with
      | none => some v
      | some c => if dist v < dist c ∨ (dist v = dist c ∧ c.horizon < v.horizon) then some v else some c) none
  | _, _ => none

/-- The thruster records of the loaded image. -/
def State.thrusters (s : State) : List ThrusterRec := (s.image.loaded.map (·.thrusters)).getD []
/-- Those of a variant. -/
def State.variantThrusters (s : State) (v : VariantRec) : List ThrusterRec :=
  s.thrusters.filter fun r => v.thrusters.getLsbD r.slice

/-- Change a thruster's law state. -/
def State.setThr (s : State) (slice : Nat) (f : ThrusterLaw → ThrusterLaw) : State :=
  { s with law.thr := upd s.law.thr slice f }

/-! ## The origin (R209, R298) -/

/-- How the frame about one origin maps to the frame about another: points, and the angle between the north axes. -/
structure FrameMove where
  lat0 : F64
  lon0 : F64
  h0 : F64
  lat1 : F64
  lon1 : F64

/-- A position in the new frame. -/
def FrameMove.point (m : FrameMove) (n e : F64) : F64 × F64 :=
  let (lat, lon, h) := geodeticAt m.lat0 m.lon0 m.h0 [n, e, 0]
  let v := nedOf m.lat1 m.lon1 m.h0 lat lon h
  (v.at 0, v.at 1)
/-- The angle of the old north axis in the new frame. -/
def FrameMove.angle (m : FrameMove) : F64 :=
  let north := (Mat.tr 3 3 (nedAxes m.lat0 m.lon0)).app [F64.one, 0, 0]
  let v := (nedAxes m.lat1 m.lon1).app north
  F64.atan2 (v.at 1) (v.at 0)
/-- A vector of the NED plane, rotated. -/
def FrameMove.vector (m : FrameMove) (n e : F64) : F64 × F64 :=
  let v := (rotZ m.angle).app [n, e, 0]
  (v.at 0, v.at 1)

/-- An observer state with its covariance in the new frame. -/
def FrameMove.state (m : FrameMove) (x : Vec) (p : Mat) : Vec × Mat :=
  let a := m.angle
  let n := x.length
  let (n1, e1) := m.point (x.at 0) (x.at 1)
  let w0 := m.vector (x.at 6) (x.at 8)
  let w1 := m.vector (x.at 7) (x.at 9)
  let b := m.vector (x.at 12) (x.at 13)
  let x := x.mapIdx fun i v => if i = 0 then n1 else if i = 1 then e1 else if i = 2 then F64.add v a
    else if i = 6 then w0.1 else if i = 8 then w0.2 else if i = 7 then w1.1 else if i = 9 then w1.2
    else if i = 12 then b.1 else if i = 13 then b.2 else v
  let c := F64.cos a
  let sn := F64.sin a
  let pair (i : Nat) : Option (Nat × Bool) :=
    if i = 0 then some (1, true) else if i = 1 then some (0, false) else if i = 6 then some (8, true)
    else if i = 8 then some (6, false) else if i = 7 then some (9, true) else if i = 9 then some (7, false)
    else if i = 12 then some (13, true) else if i = 13 then some (12, false) else none
  let r := mkMat n n fun i j => match pair i with
    | some (k, north) => if j = i then c else if j = k then (if north then F64.neg sn else sn) else 0
    | none => if i = j then F64.one else 0
  (x, Mat.mul n n n (Mat.mul n n n r p) (Mat.tr n n r))

/-- A reference's held quantities in the new frame (R209). -/
def FrameMove.refState (m : FrameMove) (hdg rel : Bool) (q : RefState) : RefState :=
  if hdg then { q with newest := q.newest.map fun x => { x with n := F64.wrap2Pi (F64.add x.n m.angle) } }
  else
    let k := F64.ofNat (max 1 q.consec)
    let sum := if q.consec = 0 then q.admitSum
      else
        let a := m.point (F64.div q.admitSum.1 k) (F64.div q.admitSum.2 k)
        (F64.mul k a.1, F64.mul k a.2)
    { q with newest := q.newest.map fun x =>
               let v := if rel then m.vector x.n x.e else m.point x.n x.e
               { x with n := v.1, e := v.2 },
             admitSum := if rel then sum else q.admitSum,
             admission := if rel then q.admission.map fun o => m.point o.1 o.2 else q.admission }

/-- A reference's settings in the new frame. -/
def FrameMove.refSettings (m : FrameMove) (rel : Bool) (c : RefSettings) : RefSettings :=
  { c with offset := if rel then m.point c.offset.1 c.offset.2 else c.offset, c := m.vector c.c.1 c.c.2,
           headings := c.headings.map fun h => (h.1, F64.wrap2Pi (F64.add h.2 m.angle)),
           targetPose := if rel then
               let v := m.point c.targetPose.1 c.targetPose.2.1
               (v.1, v.2, F64.to32 (F64.add (F64.of32 c.targetPose.2.2) m.angle))
             else c.targetPose }

/-- Move the origin to a geodetic point, its height kept (R209, R298): fusion's quantities, the observer, the set-point
and the reference are re-expressed. -/
def State.moveOrigin (s : State) (lat lon : F64) : State :=
  let m : FrameMove := { lat0 := s.law.originLat, lon0 := s.law.originLon, h0 := s.law.originH, lat1 := lat, lon1 := lon }
  let n := s.obsDim
  let (x, p) := m.state s.obs.x (Mat.ofFlat n n s.obs.p)
  let hist := s.history.map fun h =>
    let (hx, hp) := m.state h.x (Mat.ofFlat n n h.p)
    { h with x := hx, p := hp.flat }
  let refs := s.fusion.refs.mapIdx fun r q => m.refState (decide (12 ≤ r)) (s.relative r) q
  let sets := s.fusion.sets.mapIdx fun r c => m.refSettings (s.relative r) c
  let con := m.point s.fusion.mN s.fusion.mE
  let sp := m.point s.law.setN s.law.setE
  let rf := m.point s.dyn.refN s.dyn.refE
  let rv := m.vector s.dyn.refVn s.dyn.refVe
  let six (q : List F64) : List F64 :=
    let v := m.point (Vec.at q 0) (Vec.at q 1)
    q.mapIdx fun i a => if i = 0 then v.1 else if i = 1 then v.2 else if i = 2 then F64.add a m.angle else a
  { s with obs.x := x, obs.p := p.flat, history := hist, fusion.refs := refs, fusion.sets := sets,
           fusion.mN := con.1, fusion.mE := con.2, fusion.mPsi := F64.wrap2Pi (F64.add s.fusion.mPsi m.angle),
           law.setN := sp.1, law.setE := sp.2, law.setPsi := F64.wrap2Pi (F64.add s.law.setPsi m.angle),
           dyn.refN := rf.1, dyn.refE := rf.2, dyn.refVn := rv.1, dyn.refVe := rv.2,
           dyn.refPsi := F64.wrap2Pi (F64.add s.dyn.refPsi m.angle),
           dyn.trajectory := s.dyn.trajectory.map six,
           sol.plan := s.sol.plan.map fun q => { q with states := q.states.map six },
           law.originLat := lat, law.originLon := lon, law.originValid := true }

/-! ## The reference model (R300) -/

/-- The norm of a pair. -/
def norm2 (a : F64 × F64) : F64 := F64.sqrt (F64.add (F64.mul a.1 a.1) (F64.mul a.2 a.2))
/-- A pair times a number. -/
def scale2 (k : F64) (a : F64 × F64) : F64 × F64 := (F64.mul k a.1, F64.mul k a.2)
/-- Sum of pairs. -/
def add2 (a b : F64 × F64) : F64 × F64 := (F64.add a.1 b.1, F64.add a.2 b.2)
/-- Difference of pairs. -/
def sub2 (a b : F64 × F64) : F64 × F64 := (F64.sub a.1 b.1, F64.sub a.2 b.2)
/-- A pair brought to a length along its own direction; zero stays zero. -/
def along2 (a : F64 × F64) (len : F64) : F64 × F64 :=
  let n := norm2 a
  if F64.eq n 0 then (0, 0) else scale2 (F64.div len n) a

/-- `advance` of R300. `d` is target − ref. Answers the moved distance and the new speed; `true` when the target is
reached. -/
def advance (d vel : F64 × F64) (vmax amax dt : F64) : (F64 × F64) × (F64 × F64) × Bool :=
  let n := norm2 d
  if F64.eq n 0 && F64.eq (norm2 vel) 0 then ((0, 0), vel, false)
  else
    let want := along2 d (F64.min vmax (F64.sqrt (F64.mul F64.two (F64.mul amax n))))
    let dv := sub2 want vel
    let lim := F64.mul amax dt
    let dv := if F64.lt lim (norm2 dv) then along2 dv lim else dv
    let vel := add2 vel dv
    let step := scale2 dt vel
    if F64.le n (norm2 step) then (d, (0, 0), true) else (step, vel, false)

/-- Bring a speed to rest within the limit. -/
def brake (vel : F64 × F64) (amax dt : F64) : (F64 × F64) × (F64 × F64) :=
  let lim := F64.mul amax dt
  let v := if F64.le (norm2 vel) lim then (0, 0) else sub2 vel (along2 vel lim)
  (scale2 dt v, v)

/-- The reference as it runs forward: position, heading, speeds, and the progress on the path. -/
structure RefSim where
  n : F64 := 0
  e : F64 := 0
  psi : F64 := 0
  vn : F64 := 0
  ve : F64 := 0
  r : F64 := 0
  leg : Nat := 0
  reached : Nat := 0
  along : F64 := 0
  startN : F64 := 0
  startE : F64 := 0
  ended : Bool := false
  deriving Inhabited

/-- The reference at t_k + C. -/
def State.refNow (s : State) : RefSim :=
  { n := s.dyn.refN, e := s.dyn.refE, psi := s.dyn.refPsi, vn := s.dyn.refVn, ve := s.dyn.refVe, r := s.dyn.refR,
    leg := s.law.track.leg, reached := s.law.track.reached, along := s.law.track.along, startN := s.law.track.startN,
    startE := s.law.track.startE, ended := s.law.track.ended }

/-- Advance the position reference toward a point. -/
def RefSim.toward (q : RefSim) (target : F64 × F64) (vmax amax dt : F64) : RefSim :=
  let (d, v, hit) := advance (sub2 target (q.n, q.e)) (q.vn, q.ve) vmax amax dt
  if hit then { q with n := target.1, e := target.2, vn := 0, ve := 0 }
  else { q with n := F64.add q.n d.1, e := F64.add q.e d.2, vn := v.1, ve := v.2 }

/-- Advance the heading reference toward a heading, the difference wrapped. -/
def RefSim.turnTo (q : RefSim) (psi : F64) (p : LawParams) (dt : F64) : RefSim :=
  let (d, v, hit) := advance (F64.wrapPi (F64.sub psi q.psi), 0) (q.r, 0) (F64.of32 p.refYawRate) (F64.of32 p.refYawAccel) dt
  if hit then { q with psi := F64.wrap2Pi psi, r := 0 }
  else { q with psi := F64.wrap2Pi (F64.add q.psi d.1), r := v.1 }

/-! ## TRACK (R303-R307) -/

/-- A waypoint's flags: ALONG, STOP. -/
def Waypoint.heads (w : Waypoint) : Bool := w.flags.getLsbD 0
/-- STOP. -/
def Waypoint.stop (w : Waypoint) : Bool := w.flags.getLsbD 1

/-- Start and end of a leg. -/
def RefSim.legEnds (q : RefSim) (path : List Waypoint) : (F64 × F64) × (F64 × F64) :=
  let w (i : Nat) := let x := path.getD i {}; (x.north, x.east)
  (if q.leg = 0 then (q.startN, q.startE) else w (q.leg - 1), w q.leg)

/-- The point of the path a distance ahead, stopping at the first waypoint with STOP or at the last. -/
def pathAhead (path : List Waypoint) : Nat → (F64 × F64) → Nat → F64 → F64 × F64
  | 0, a, _, _ => a
  | fuel + 1, a, leg, dist =>
    let x := path.getD leg {}
    let b := (x.north, x.east)
    let len := norm2 (sub2 b a)
    if F64.lt dist len then add2 a (along2 (sub2 b a) dist)
    else if x.stop || path.length ≤ leg + 1 then b
    else pathAhead path fuel b (leg + 1) (F64.sub dist len)

/-- How far along a leg the reference stands: its place projected onto the leg. -/
def RefSim.progress (q : RefSim) (a b : F64 × F64) : F64 :=
  let dir := along2 (sub2 b a) F64.one
  let d := sub2 (q.n, q.e) a
  F64.max 0 (F64.add (F64.mul d.1 dir.1) (F64.mul d.2 dir.2))

/-- The step's reference, but for a part that restarts in this cycle, which stays where it was put (R301). -/
def RefSim.hold (q was : RefSim) (pos hdg : Bool) : RefSim :=
  let q := if pos then { was with psi := q.psi, r := q.r } else q
  if hdg then { q with psi := was.psi, r := was.r } else q

/-- Advance along the path (R305). The look-ahead is the stopping distance of the speed the reference has once it has
gained speed over this step (log 10). -/
def RefSim.onPath (q : RefSim) (path : List Waypoint) (p : LawParams) (paused : Bool) (dt : F64) : RefSim :=
  let amax := F64.of32 p.refAccel
  let w := path.getD q.leg {}
  let (a, b) := q.legEnds path
  let len := norm2 (sub2 b a)
  let heading := if w.heads && !F64.eq len 0 then F64.wrap2Pi (F64.atan2 (F64.sub b.2 a.2) (F64.sub b.1 a.1)) else
    if w.heads then q.psi else F64.of32 w.heading
  if paused then
    let (d, v) := brake (q.vn, q.ve) amax dt
    let (dr, rr) := brake (q.r, 0) (F64.of32 p.refYawAccel) dt
    let q := { q with n := F64.add q.n d.1, e := F64.add q.e d.2, vn := v.1, ve := v.2,
                      psi := F64.wrap2Pi (F64.add q.psi dr.1), r := rr.1 }
    { q with along := F64.min len (q.progress a b) }
  else
    let vmax := F64.min (F64.of32 p.refSpeed) (F64.of32 w.speed)
    let v := F64.min vmax (F64.add (norm2 (q.vn, q.ve)) (F64.mul amax dt))
    let look := F64.div (F64.mul v v) (F64.mul F64.two amax)
    -- the remainder of this leg first, then the legs that follow
    let here := if F64.eq len 0 then a else add2 a (along2 (sub2 b a) (F64.min len q.along))
    let target := pathAhead path 33 here q.leg look
    let q := (q.toward target vmax amax dt).turnTo heading p dt
    let along := q.progress a b
    let arrived := if w.stop || path.length ≤ q.leg + 1 then
        F64.eq q.n b.1 && F64.eq q.e b.2 && F64.eq (norm2 (q.vn, q.ve)) 0
      else F64.le len along
    if arrived then
      if path.length ≤ q.leg + 1 then { q with along := len, reached := path.length, ended := true }
      else { q with leg := q.leg + 1, reached := q.leg + 1, along := 0 }
    else { q with along := along }

/-- The target point with its offset, its velocity, heading and yaw rate at an instant (R306, R307). -/
def State.targetPoint (s : State) (time : Nat) : (F64 × F64) × (F64 × F64) × F64 × F64 :=
  match s.law.track.target with
  | none => ((s.dyn.refN, s.dyn.refE), (0, 0), s.dyn.refPsi, 0)
  | some g =>
    let frozen := g.stamp + s.law.track.targetTimeout * ms
    let at_ := if s.law.track.lost then frozen else time
    let dt := secondsOf ((at_ : Int) - g.stamp)
    let vn := F64.of32 g.vn
    let ve := F64.of32 g.ve
    let yaw := F64.of32 g.yawRate
    let psi := F64.add g.psi (F64.mul yaw dt)
    let o := (rotZ psi).app [F64.of32 (s.law.track.offset.getD 0 0), F64.of32 (s.law.track.offset.getD 1 0), 0]
    let p := (F64.add (F64.add g.n (F64.mul vn dt)) (o.at 0), F64.add (F64.add g.e (F64.mul ve dt)) (o.at 1))
    let head := F64.wrap2Pi (F64.add psi (F64.of32 (s.law.track.offset.getD 2 0)))
    if s.law.track.lost then (p, (0, 0), head, 0)
    else (p, (F64.sub vn (F64.mul yaw (o.at 1)), F64.add ve (F64.mul yaw (o.at 0))), head, yaw)

/-- Approach the target: the limits hold for the motion relative to it (R306). -/
def State.onTarget (s : State) (q : RefSim) (time next : Nat) : RefSim :=
  let p := s.law.params
  let dt := secondsOf (next - time)
  let (p0, v0, h0, r0) := s.targetPoint time
  let (p1, v1, h1, r1) := s.targetPoint next
  let (d, v, hit) := advance (sub2 p0 (q.n, q.e)) (sub2 (q.vn, q.ve) v0) (F64.of32 p.refSpeed) (F64.of32 p.refAccel) dt
  let rel := add2 (sub2 (q.n, q.e) p0) d
  let pos := if hit then p1 else add2 p1 rel
  let vel := if hit then v1 else add2 v1 v
  let (dh, vh, hh) := advance (F64.wrapPi (F64.sub h0 q.psi), 0) (F64.sub q.r r0, 0) (F64.of32 p.refYawRate)
    (F64.of32 p.refYawAccel) dt
  let psi := if hh then h1 else F64.add h1 (F64.add (F64.wrapPi (F64.sub q.psi h0)) dh.1)
  { q with n := pos.1, e := pos.2, vn := vel.1, ve := vel.2, psi := F64.wrap2Pi psi,
           r := F64.add r1 (if hh then 0 else vh.1) }

/-- The reference one step on (R300, R305, R306). -/
def State.stepRef (s : State) (m : Mode) (q : RefSim) (time next : Nat) : RefSim :=
  let p := s.law.params
  let dt := secondsOf (next - time)
  match m with
  | .autohead => q.turnTo s.law.setPsi p dt
  | .station => (q.toward (s.law.setN, s.law.setE) (F64.of32 p.refSpeed) (F64.of32 p.refAccel) dt).turnTo s.law.setPsi p dt
  | .track =>
    if s.law.track.source then s.onTarget q time next
    else match s.law.track.path with
      | some path => q.onPath path p s.law.track.paused dt
      | none => q
  | _ => q

/-- The present reference becomes `q`. -/
def State.putRef (s : State) (q : RefSim) : State :=
  { s with dyn.refN := q.n, dyn.refE := q.e, dyn.refPsi := q.psi, dyn.refVn := q.vn, dyn.refVe := q.ve, dyn.refR := q.r,
           law.track.leg := q.leg, law.track.reached := q.reached, law.track.along := q.along,
           law.track.startN := q.startN, law.track.startE := q.startE, law.track.ended := q.ended }

/-- The position reference restarts at the observer (R301). -/
def State.restartPosRef (s : State) : State :=
  let x : Vec := s.obsOut.estX
  let v := nedVelocity x
  { s with dyn.refN := x.at 0, dyn.refE := x.at 1, dyn.refVn := v.at 0, dyn.refVe := v.at 1,
           law.track.startN := if s.law.track.reached = 0 ∧ s.law.track.leg = 0 then x.at 0 else s.law.track.startN,
           law.track.startE := if s.law.track.reached = 0 ∧ s.law.track.leg = 0 then x.at 1 else s.law.track.startE }
/-- The heading reference restarts at the observer (R301). -/
def State.restartHdgRef (s : State) : State :=
  { s with dyn.refPsi := F64.wrap2Pi (Vec.at s.obsOut.estX 2), dyn.refR := Vec.at s.obsOut.estX 5 }

/-- The progress restarts: the reference leaves its present position toward waypoint 0 (R304). -/
def State.restartTrack (s : State) : State :=
  { s with law.track.leg := 0, law.track.reached := 0, law.track.along := 0, law.track.ended := false,
           law.track.paused := false, law.track.startN := s.dyn.refN, law.track.startE := s.dyn.refE }

/-! ## Regions, sectors and power (R289, R291-R294) -/

/-- REGION scaled about the origin by THR_LIMIT (R289). -/
def State.regionOf (s : State) (r : ThrusterRec) : List (F64 × F64) :=
  let k := F64.of32 (at? s.law.thr r.slice).limit
  r.region.map fun v => (F64.mul k (F64.of32 v.1), F64.mul k (F64.of32 v.2))

/-- How far a thrust lies outside a region: the largest distance beyond one of its edges; negative inside. -/
def outsideBy (region : List (F64 × F64)) (f : F64 × F64) : F64 :=
  let cross (a b : F64 × F64) : F64 := F64.sub (F64.mul a.1 b.2) (F64.mul a.2 b.1)
  match region with
  | [] => 0
  | [a] => norm2 (sub2 f a)
  | [a, b] =>
    let d := sub2 b a
    let len := norm2 d
    let off := F64.abs (F64.div (cross d (sub2 f a)) len)
    let t := F64.div (F64.add (F64.mul (F64.sub f.1 a.1) d.1) (F64.mul (F64.sub f.2 a.2) d.2)) len
    let ends := F64.max (F64.neg t) (F64.sub t len)
    if F64.lt ends 0 && F64.eq off 0 then ends else F64.max ends off
  | first :: rest =>
    let edges := region.zip (rest ++ [first])
    edges.foldl (fun m (a, b) =>
      let d := sub2 b a
      F64.max m (F64.neg (F64.div (cross d (sub2 f a)) (norm2 d)))) (F64.neg F64.inf)

/-- Does a thrust lie within a tolerance of the boundary of its region (R312)? The boundary of a segment is its two ends
(DEDUCED, log 10). -/
def nearBoundary (region : List (F64 × F64)) (tol : F64) (f : F64 × F64) : Bool :=
  match region with
  | [a, b] => F64.le (norm2 (sub2 f a)) tol || F64.le (norm2 (sub2 f b)) tol
  | _ => F64.le (F64.neg tol) (outsideBy region f)

/-- The distance from α clockwise to β. -/
def clockwise (a b : F64) : F64 := F64.wrap2Pi (F64.sub b a)
/-- Is an azimuth inside a sector, which runs clockwise from its start to its end (R77)? -/
def inSector (a : F64) (q : F32 × F32) : Bool :=
  let d := clockwise (F64.of32 q.1) a
  F64.lt 0 d && F64.lt d (clockwise (F64.of32 q.1) (F64.of32 q.2))
/-- The nearer edge of the sector an azimuth lies in (R292, R353). -/
def nearerEdge (a : F64) (q : F32 × F32) : F64 :=
  if F64.le (clockwise (F64.of32 q.1) a) (clockwise a (F64.of32 q.2)) then F64.of32 q.1 else F64.of32 q.2

/-- Does a thruster turn: azimuth or retractable azimuth? -/
def ThrusterRec.turns (r : ThrusterRec) : Bool := r.type_ == 1 || r.type_ == 2

/-- The present azimuth of a thruster and its stamp: measured in the input frame of the cycle, else that of the last
applied set-point (R291). -/
def State.presentAzimuth (s : State) (r : ThrusterRec) (tk : Nat) : F64 × Nat :=
  let held := (F64.of32 (setOf s.cycle.applied r.slice).azimuth, s.cycle.appliedAt)
  match (at? s.law.thr r.slice).measured with
  | some (stamp, az) => if tk < stamp + s.cyc.period ∧ stamp ≤ tk then (F64.of32 az, stamp) else held
  | none => held

/-- A wedge: the present azimuth and the angles to either side, anticlockwise and clockwise (R291, R292); `none` when no
direction constraint stands. `ej`: the end of the step, ns after t_k + C. -/
def State.wedge (s : State) (r : ThrusterRec) (tk ej : Nat) : Option (F64 × F64 × F64) :=
  if !r.turns || F32.le r.azRateMax 0 then none
  else
    let (a0, stamp) := s.presentAzimuth r tk
    let theta := F64.mul (F64.of32 r.azRateMax) (secondsOf ((tk + s.cyc.commandAt + ej : Int) - stamp))
    let quarter := F64.div F64.pi F64.two
    if r.sectors.isEmpty then (if F64.le quarter theta then none else some (a0, theta, theta))
    else
      let plus := (r.sectors.map fun q => clockwise a0 (F64.of32 q.1)).foldl F64.min F64.inf
      let minus := (r.sectors.map fun q => clockwise (F64.of32 q.2) a0).foldl F64.min F64.inf
      let cap := F64.min theta quarter
      some (a0, F64.min cap minus, F64.min cap plus)

/-- How far a thrust lies outside a wedge: beyond one of its two half-planes. -/
def wedgeOutsideBy (w : F64 × F64 × F64) (f : F64 × F64) : F64 :=
  let (a0, minus, plus) := w
  let lo := F64.sub a0 minus
  let hi := F64.add a0 plus
  -- clockwise angles from body x: the half-planes through the origin on either side
  let below := F64.sub (F64.mul (F64.sin lo) f.1) (F64.mul (F64.cos lo) f.2)
  let above := F64.sub (F64.mul (F64.cos hi) f.2) (F64.mul (F64.sin hi) f.1)
  F64.max below above

/-- The magnitude whose power a thruster draws (R293). -/
def ThrusterRec.magnitude (r : ThrusterRec) (f : F64 × F64) : F64 :=
  if r.type_ = 0 then F64.abs f.2 else if r.type_ = 3 then F64.abs f.1 else norm2 f
/-- The true power of a thruster from its POWER curve (R293); beyond the last breakpoint, the last power (log 10). -/
def ThrusterRec.powerAt (r : ThrusterRec) (m : F64) : F64 := interp (r.power.map fun q => (F64.of32 q.1, F64.of32 q.2)) m

/-- Slope and intercept of the segment of the POWER curve that holds a magnitude (R293). -/
def powerSegment : List (F32 × F32) → F64 → F64 × F64
  | a :: b :: rest, m =>
    if rest.isEmpty || F64.lt m (F64.of32 b.1) then
      let k := F64.div (F64.sub (F64.of32 b.2) (F64.of32 a.2)) (F64.sub (F64.of32 b.1) (F64.of32 a.1))
      (k, F64.sub (F64.of32 a.2) (F64.mul k (F64.of32 a.1)))
    else powerSegment (b :: rest) m
  | [a], _ => (0, F64.of32 a.2)
  | [], _ => (0, 0)

/-- The linearised power of a thruster at a step: slope, direction, intercept (R293). The azimuth of a tunnel is +π/2 (R310). -/
def State.powerLine (s : State) (r : ThrusterRec) (tk j : Nat) : F64 × (F64 × F64) × F64 :=
  let prev := match s.sol.plan with
    | some p =>
      let row := p.thrust.getD r.slice []
      row.getD (min (j + 1) (row.length - 1)) (0, 0)
    | none => (0, 0)
  let m := r.magnitude prev
  let (a0, _) := s.presentAzimuth r tk
  let still := s.law.freshEntry || F64.lt m (F64.mul (F64.of32 s.law.params.azHoldFraction) (F64.of32 r.rated))
  let m := if still then 0 else m
  let axis (f : F64) : F64 := if F64.lt f 0 then F64.neg F64.one else F64.one
  let dir : F64 × F64 :=
    if still then (if r.type_ = 0 then (0, F64.one) else (F64.cos a0, F64.sin a0))
    else if r.type_ = 0 then (0, axis prev.2)
    else if r.type_ = 3 then (axis prev.1, 0)
    else along2 prev F64.one
  let (k, c) := powerSegment r.power m
  (k, dir, c)

/-- P_lim and POWER_STALE (R294). -/
def State.powerLimit (s : State) (tk : Nat) : F32 × Bool :=
  let p := s.law.power
  let win := p.timeout * ms
  let byPoint := if p.point == 0xFFFF then none
    else match p.heard.find? (·.1 == p.point.toNat) with
      | some (_, stamp, v) => if tk ≤ stamp + win ∧ stamp ≤ tk + win then some v else none
      | none => none
  match byPoint with
  | some v => (v, false)
  | none =>
    let byWrite := match p.writtenAt with
      | some w => p.point == 0xFFFF && (p.timeout == 0 || decide (tk ≤ w + win))
      | none => false
    if byWrite then (p.available, false)
    else if p.point == 0xFFFF && p.writtenAt.isNone then (F32.inf, false)
    else if F32.le 0 p.fallback then (p.fallback, true)
    else (p.pLim, true)

/-! ## Availability (R290) -/

/-- Does no row of the table of R290 apply to a thruster? -/
def State.thrAvailable (s : State) (r : ThrusterRec) (tk : Nat) : Bool :=
  let t := at? s.law.thr r.slice
  let (a0, _) := s.presentAzimuth r tk
  t.enable && !t.safOff && !t.noFeedback && !(r.turns && r.sectors.any (inSector a0))

/-- Judge every thruster slice (R290, R316): source 58 on entry to a sector (R292). DEDUCED (log 10): with no variant in use,
as outside the positioning modes, AVAILABLE shows the rows of R290 alone and nothing is raised. -/
def State.judgeThrusters (s : State) (v : Option VariantRec) (tk : Nat) : State :=
  let active := !s.law.entered || s.modes.previous.positioning
  s.thrusters.foldl (fun s r =>
    let t := at? s.law.thr r.slice
    let (a0, _) := s.presentAzimuth r tk
    let inside := r.turns && r.sectors.any (inSector a0)
    let inV := match v with | some v => v.thrusters.getLsbD r.slice | none => false
    let av := (inV || v.isNone) && s.thrAvailable r tk
    let s := s.setThr r.slice fun t => { t with inVariant := inV, available := av, inSector := inside }
    if inside && v.isSome && !(active && t.inSector) then s.raiseN 58 r.slice else s) s

/-! ## The discretised model (R285) -/

/-- The order-6 Padé approximant of exp(A), with scaling and squaring: the matrix is halved until its largest row sum is
at most 1/2 (log 10). -/
def Mat.expm (n : Nat) (a : Mat) : Mat :=
  let norm := (a.map fun r => r.foldl (fun x v => F64.add x (F64.abs v)) 0).foldl F64.max 0
  let k := (List.range 64).foldl (fun k _ => if F64.lt F64.half (F64.div norm (F64.ofNat (2 ^ k))) then k + 1 else k) 0
  let a := Mat.scale (F64.div F64.one (F64.ofNat (2 ^ k))) a
  -- coefficients of the (6, 6) approximant
  let c : List F64 := [F64.one, f64OfRat 1 2, f64OfRat 5 44, f64OfRat 1 66, f64OfRat 1 792, f64OfRat 1 15840, f64OfRat 1 665280]
  let (num, den, _) := (List.range 7).foldl (fun (q : Mat × Mat × Mat) i =>
    let (num, den, pw) := q
    let term := Mat.scale (Vec.at c i) pw
    (Mat.plus n n num term, Mat.plus n n den (if i % 2 = 0 then term else Mat.scale (F64.neg F64.one) term),
      Mat.mul n n n pw a)) (mkMat n n (fun _ _ => 0), mkMat n n (fun _ _ => 0), Mat.one n)
  (List.range k).foldl (fun e _ => Mat.mul n n n e e) (Mat.mul n n n (Mat.inv n den) num)

/-- A step of the discretised model: x⁺ = A x + G τ + c. -/
structure StepModel where
  a : Mat := []
  g : Mat := []
  c : Vec := []
  deriving Inhabited

/-- The model of a step about (ψ̄, ν̄) with an environmental force, exact for a zero-order hold over `dt`. -/
def State.stepModel (s : State) (psi : F64) (nu tau : Vec) (dt : F64) : StepModel :=
  let mi := Mat.inv 3 (Mat.ofFlat 3 3 s.hull.mass)
  let md := Mat.mul 3 3 3 mi (Mat.ofFlat 3 3 s.hull.damping)
  let cs := F64.cos psi
  let sn := F64.sin psi
  let rp := [F64.neg (F64.add (F64.mul sn (nu.at 0)) (F64.mul cs (nu.at 1))),
             F64.sub (F64.mul cs (nu.at 0)) (F64.mul sn (nu.at 1)), 0]
  let rot := rotZ psi
  let env := mi.app tau
  let big := mkMat 10 10 fun i j =>
    if i < 3 then
      if j = 2 then Vec.at rp i
      else if 3 ≤ j ∧ j < 6 then rot.at i (j - 3)
      else if j = 9 then F64.neg (F64.mul (Vec.at rp i) psi) else 0
    else if i < 6 then
      if 3 ≤ j ∧ j < 6 then F64.neg (md.at (i - 3) (j - 3))
      else if 6 ≤ j ∧ j < 9 then mi.at (i - 3) (j - 6)
      else if j = 9 then env.at (i - 3) else 0
    else 0
  let e := Mat.expm 10 (Mat.scale dt big)
  { a := mkMat 6 6 fun i j => e.at i j, g := mkMat 6 3 fun i j => e.at i (j + 6), c := mkVec 6 fun i => e.at i 9 }

/-- The generalised force of some thrusts: pairs of a record and its (F_x, F_y). -/
def generalisedSum (l : List (ThrusterRec × (F64 × F64))) : Vec :=
  l.foldl (fun a (r, f) => Vec.plus a (generalised r.x r.y f.1 f.2)) [0, 0, 0]

/-- Length of a step (R284). -/
def State.stepLength (s : State) (j : Nat) : Nat := if j = 0 then s.cyc.period else s.law.params.stepMult * s.cyc.period
/-- The end of step j, counted from t_k + C (R284). -/
def State.stepEnd (s : State) (j : Nat) : Nat := s.cyc.period + j * (s.law.params.stepMult * s.cyc.period)

/-- The filtered wind of R286: a first-order filter, held over the cycle. -/
def State.filterWind (s : State) : State :=
  if s.wind.wind.isNone then { s with dyn.windFilter := none }
  else
    let tau := F64.of32 s.law.params.windFfTau
    match s.dyn.windFilter with
    | none => { s with dyn.windFilter := some s.obs.wind }
    | some y =>
      if F64.eq tau 0 then { s with dyn.windFilter := some s.obs.wind }
      else
        let k := F64.sub F64.one (F64.exp (F64.neg (F64.div (secondsOf s.cyc.period) tau)))
        { s with dyn.windFilter := some (Vec.plus y (Vec.scale k (Vec.minus s.obs.wind y))) }
/-- τ_ff: the filtered wind force; zero with none. -/
def State.windFf (s : State) : Vec := s.dyn.windFilter.getD [0, 0, 0]

/-- The environmental force of the prediction at a heading (R280, R286). -/
def State.envForce (s : State) (m : Mode) (psi : F64) : Vec :=
  let x : Vec := s.obsOut.estX
  let bias := (Mat.tr 3 3 (rotZ psi)).app [x.at 12, x.at 13, x.at 14]
  match m with
  | .joystick => [0, 0, 0]
  | .autohead => Vec.plus [0, 0, bias.at 2] s.windFf
  | _ => Vec.plus bias s.windFf

/-- The linearisation trajectory of a horizon (R285): the previous prediction shifted by one step, its last step repeated;
on a first cycle the initial state throughout. -/
def State.linearisation (s : State) (horizon : Nat) : List Vec :=
  let x0 := s.obsOut.estX.take 6
  if s.law.freshEntry || s.dyn.trajectory.isEmpty then List.replicate horizon x0
  else
    let l := s.dyn.trajectory
    (List.range horizon).map fun j => l.getD (min (j + 1) (l.length - 1)) x0

/-- The model of each step of a horizon, about the linearisation trajectory of the Build. -/
def State.stepModels (s : State) (m : Mode) (horizon : Nat) : List StepModel :=
  let lin := s.dyn.lin
  (List.range horizon).map fun j =>
    let x : Vec := lin.getD j []
    s.stepModel (x.at 2) [x.at 3, x.at 4, x.at 5] (s.envForce m (x.at 2)) (secondsOf (s.stepLength j))

/-- Roll the model forward under a plan's thrust: the states at the end of each step (R342). -/
def rollForward (models : List StepModel) (force : Nat → Vec) (x0 : Vec) : List Vec :=
  (models.zipIdx.foldl (fun (q : List Vec × Vec) (m, j) =>
    let x := Vec.plus (Vec.plus (m.a.app q.2) (m.g.app (force j))) m.c
    (q.1 ++ [x], x)) (([], x0) : List Vec × Vec)).1

/-! ## The data of the problem (R284-R293) -/

/-- τ_scale: the summed RATED_THRUST of the variant, times LENGTH_PP/2 for Mz (R288). -/
def State.tauScale (s : State) (v : VariantRec) : Vec :=
  let t := (s.variantThrusters v).foldl (fun a r => F64.add a (F64.of32 r.rated)) 0
  [t, t, F64.mul t (F64.div s.hull.lengthPp F64.two)]

/-- The joystick demand used at a time: after JOY_TIMEOUT it falls linearly to zero over one more (R309). -/
def State.joyUsed (s : State) (time : Nat) : Vec :=
  let lim := s.law.params.joyTimeout * ms
  let age := time - s.law.joyAt
  let k := if age ≤ lim then F64.one else if 2 * lim ≤ age then 0
    else F64.sub F64.one (F64.div (F64.ofNat (age - lim)) (F64.ofNat lim))
  s.law.joy.map fun v => F64.mul k (F64.of32 v)

/-- The force demand in N and N·m (R280, R309, R352). -/
def State.demand (s : State) (m : Mode) (v : VariantRec) (time : Nat) : Vec :=
  let sc := s.tauScale v
  let d := (s.joyUsed time).mapIdx fun i x => F64.mul x (Vec.at sc i)
  if m = .joystick && s.law.params.windComp then Vec.minus d s.windFf else d

/-- f_i,−1 (R308): the thrust of the set-point applied at the last command instant, or on an entry from no positioning
mode the thrust the observer formed. -/
def State.previousThrust (s : State) (slice : Nat) : F64 × F64 :=
  if s.law.entered && !s.modes.previous.positioning then
    let f := s.obsOut.forces.getD slice (0, 0)
    (F64.of32 f.1, F64.of32 f.2)
  else
    let x := setOf s.cycle.applied slice
    (F64.of32 x.fx, F64.of32 x.fy)

/-! ## Set-points from a thrust (R292, R310) -/

/-- A thruster's pitch ratio and shaft speed at a thrust set-point (R310). -/
def ThrusterRec.mapAt (r : ThrusterRec) (thrust : F64) : F32 × F32 :=
  (F64.to32 (interp (r.map.map fun q => (F64.of32 q.thrust, F64.of32 q.pitch)) thrust),
   F64.to32 (interp (r.map.map fun q => (F64.of32 q.thrust, F64.of32 q.speed)) thrust))

/-- π/2 in FP32: the azimuth of every tunnel set-point (R310). -/
def halfPi32 : F32 := F64.to32 (F64.div F64.pi F64.two)

/-- The azimuth of the set-point in effect (R290, R310): that applied at the last command instant; before any, the measured
one. -/
def State.heldAzimuth (s : State) (r : ThrusterRec) : F32 :=
  if r.type_ = 0 then halfPi32
  else match s.cycle.applied.find? (·.slice == r.slice) with
    | some q => q.azimuth
    | none => match (at? s.law.thr r.slice).measured with | some (_, a) => a | none => 0

/-- The set-point of a thruster from its step-0 thrust, and whether its azimuth was held (R292, R310). -/
def State.formSet (s : State) (r : ThrusterRec) (f : F64 × F64) : ThrusterSet × Bool :=
  let t := at? s.law.thr r.slice
  let prev := s.heldAzimuth r
  let thrust := if r.type_ = 0 then f.2 else if r.type_ = 3 then f.1 else norm2 f
  let (az, held) : F32 × Bool :=
    let small := F64.lt thrust (F64.mul (F64.of32 s.law.params.azHoldFraction) (F64.of32 r.rated))
    if r.type_ = 0 then (halfPi32, false)
    else if !t.inVariant then (prev, r.turns && small)
    else if r.type_ = 3 then (if F64.lt f.1 0 then 0 else F64.to32 (F64.atan2 f.2 f.1), false)
    else
      let (a0, _) := s.presentAzimuth r s.cycle.tk
      match if t.inSector then r.sectors.find? (inSector a0) else none with
      | some q => (F64.to32 (nearerEdge a0 q), false)
      | none =>
        if small then (prev, true)
        else (F64.to32 (F64.atan2 f.2 f.1), false)
  let (pitch, speed) := r.mapAt thrust
  ({ slice := r.slice, thrust := F64.to32 thrust, azimuth := az, pitch := pitch, speed := speed, fx := F64.to32 f.1,
     fy := F64.to32 f.2 }, held)

/-- The hold set (R468). -/
def State.holdSet (s : State) : List ThrusterSet :=
  s.thrusters.map fun r =>
    let (pitch, speed) := r.mapAt 0
    { slice := r.slice, azimuth := s.heldAzimuth r, pitch := pitch, speed := speed }

/-! ## Alarms and the reference at Build (R300-R302, R305) -/

/-- Compare the observer with the reference (R302). -/
def State.positionAlarms (s : State) (m : Mode) : State :=
  let x : Vec := s.obsOut.estX
  let p := s.law.params
  let dist := norm2 (F64.sub (x.at 0) s.dyn.refN, F64.sub (x.at 1) s.dyn.refE)
  let mm := (F64.nearest (F64.mul dist (F64.ofNat 1000))).toNat
  let away := if m == .autohead then none else some mm
  let radius := F64.of32 p.posAlarmRadius
  let eight := f64OfRat 8 10
  -- DEDUCED (log 10): in AUTOHEAD only the heading reference exists (R300), so there is no position to compare with
  let s := if m == .autohead then s
    else if !s.law.posAlarm && F64.lt radius dist then { s with law.posAlarm := true }.raiseN 61 256 (some mm)
    else if s.law.posAlarm && F64.lt dist (F64.mul eight radius) then { s with law.posAlarm := false }.raiseN 61 0 (some mm)
    else s
  let s := if s.obs.limitReached && !s.obsOut.raised then { s with obsOut.raised := true }.raiseN 61 512 away
    else if !s.obs.limitReached && s.obsOut.raised then { s with obsOut.raised := false }.raiseN 61 0 away
    else s
  let diff := F64.abs (F64.wrapPi (F64.sub (x.at 2) s.dyn.refPsi))
  let mrad := (F64.nearest (F64.mul diff (F64.ofNat 1000))).toNat
  let lim := F64.of32 p.hdgAlarmAngle
  if !s.law.hdgAlarm && F64.lt lim diff then { s with law.hdgAlarm := true }.raiseN 62 256 (some mrad)
  else if s.law.hdgAlarm && F64.lt diff (F64.mul eight lim) then { s with law.hdgAlarm := false }.raiseN 62 0 (some mrad)
  else s

/-- Is the reference at the set-point with zero velocity (R300)? In AUTOHEAD only the heading reference exists. -/
def State.refSettled (s : State) (m : Mode) : Bool :=
  let hdg := F64.eq s.dyn.refPsi s.law.setPsi && F64.eq s.dyn.refR 0
  let pos := F64.eq s.dyn.refN s.law.setN && F64.eq s.dyn.refE s.law.setE && F64.eq s.dyn.refVn 0 && F64.eq s.dyn.refVe 0
  match m with
  | .joystick => false
  | .autohead => hdg
  | _ => hdg && pos

/-- TRACK_PAUSED (R305). -/
def State.judgePause (s : State) (m : Mode) : State :=
  if m != .track || s.law.track.source then s
  else
    let x : Vec := s.obsOut.estX
    let dist := norm2 (F64.sub (x.at 0) s.dyn.refN, F64.sub (x.at 1) s.dyn.refE)
    let lim := F64.of32 s.law.track.xteLimit
    if F64.lt lim dist then { s with law.track.paused := true }
    else if F64.lt dist (F64.mul (f64OfRat 8 10) lim) then { s with law.track.paused := false }
    else s

/-- The entry marker among the pending writes: what a change of mode does at its first Build (R299, R301, R308). -/
def State.enterLaw (s : State) (m : Mode) : State :=
  let x : Vec := s.obsOut.estX
  let s := { s with law.freshEntry := true, law.entered := true }
  match m with
  | .autohead =>
    let s := { s.restartHdgRef with law.setPsi := F64.wrap2Pi (x.at 2) }
    s.raise 59 (must := true)
  | .station =>
    let s := { s.restartPosRef.restartHdgRef with law.setN := x.at 0, law.setE := x.at 1, law.setPsi := F64.wrap2Pi (x.at 2) }
    s.raise 59 (must := true)
  | .track => s.restartPosRef.restartHdgRef.restartTrack
  | _ => s

/-! ## Samples the law reads from a frame (R249, R291, R294) -/

/-- A measurement with its stamp, unless a newer one is held. -/
def newerOf (old : Option (Nat × F32)) (stamp : Nat) (v : F32) : Option (Nat × F32) :=
  match old with
  | some (st, _) => if st ≤ stamp then some (stamp, v) else old
  | none => some (stamp, v)

/-- The thruster axes whose own slot a point feeds back to, by slice: 0 azimuth, 1 pitch, 2 shaft speed (R77, R249). -/
def State.axesOf (s : State) (point : Nat) : List (Nat × Nat) :=
  match s.image.loaded with
  | none => []
  | some i =>
    let feeds (slot : Nat) : Bool := i.loops.any fun l => l.slot == slot && l.feedback == point
    i.thrusters.flatMap fun r =>
      ([(r.azSlot, 0), (r.pitchSlot, 1), (r.speedSlot, 2)].filter fun q => feeds q.1).map fun q => (r.slice, q.2)

/-- Keep the newest valid sample of a point, of which POWER_POINT may name one (R294). -/
def hearPower (point stamp : Nat) (v : F32) (l : List (Nat × Nat × F32)) : List (Nat × Nat × F32) :=
  match l.find? (·.1 == point) with
  | some (_, st, _) => if st ≤ stamp then (point, stamp, v) :: l.filter (·.1 != point) else l
  | none => (point, stamp, v) :: l

/-- Take the feedback records, the samples of the slots' feedback points and the values a power point may give (R249, R291,
R294). -/
def State.takeLawSamples (s : State) (xs : List Sample) : State :=
  let slice (p : Nat) : Option Nat := s.image.loaded.bind fun i =>
    ((i.slices.find? fun x => x.kind == 0 && x.points.contains p)).map (·.index)
  xs.foldl (fun s x =>
    let s := match x.val, slice x.point with
      | .feedback f true, some n =>
        s.setThr n fun t => { t with measured := newerOf t.measured x.stamp f.azimuth, shaft := newerOf t.shaft x.stamp f.speed,
                                     pitchRatio := newerOf t.pitchRatio x.stamp f.pitch }
      | _, _ => s
    let s := match sampleNumber x.val with
      | none => s
      | some v => (s.axesOf x.point).foldl (fun s q => s.setThr q.1 fun t => match q.2 with
          | 0 => { t with measured := newerOf t.measured x.stamp (F64.to32 v) }
          | 1 => { t with pitchRatio := newerOf t.pitchRatio x.stamp (F64.to32 v) }
          | _ => { t with shaft := newerOf t.shaft x.stamp (F64.to32 v) }) s
    match sampleNumber x.val with
    | some v => { s with law.power.heard := hearPower x.point x.stamp (F64.to32 v) s.law.power.heard }
    | none => s) s

/-! ## Rows -/

/-- JOY_TIMEOUT_EXPIRY (R309). -/
def execJoyTimeoutExpiry (t : Nat) (s : State) : Out :=
  runRunning t s fun s =>
    if (s.modes.mode == .joystick || s.modes.mode == .autohead) &&
        decide (s.law.joyAt + s.law.params.joyTimeout * ms ≤ s.tb3) then { s with law.joyStale := true }
    else s

/-- TRACK_TARGET_LOST (R307): the newest stamp is older than TARGET_TIMEOUT at t_k + C. -/
def execTrackTargetLost (t : Nat) (s : State) : Out :=
  runRunning t s fun s =>
    match s.law.track.target with
    | some g =>
      if s.modes.mode == .track && s.law.track.source && !s.law.track.lost &&
          decide (g.stamp + s.law.track.targetTimeout * ms < s.cycle.tk + s.cyc.commandAt) then
        { s with law.track.lost := true }.raise 60
      else s
    | none => s

/-- POWER_TIMEOUT_EXPIRY (R294): the value is stale at the present cycle's t_k. -/
def execPowerTimeoutExpiry (t : Nat) (s : State) : Out :=
  runRunning t s fun s =>
    let (p, stale) := s.powerLimit s.cycle.tk
    if stale then { s with law.power.pLim := p, law.power.stale := true } else s

/-- POWER_LIMIT_ACTIVE (R295). -/
def execPowerLimitActive (t : Nat) (s : State) : Out :=
  runRunning t s fun s =>
    let p := s.law.power
    let s0 := (F32.nearest p.slack0).toNat
    if p.bindingNow && !p.active then { s with law.power.active := true }.raiseN 56 256 (some s0)
    else if p.active && !p.bindingNow && decide (10 ≤ p.releasedCycles) then
      { s with law.power.active := false }.raiseN 56 0 (some s0)
    else s

/-- THRUST_SATURATED (R312). -/
def execThrustSaturated (t : Nat) (s : State) : Out :=
  runRunning t s fun s =>
    let held := (List.range 16).map fun i => let x := at? s.law.thr i; x.available && decide (10 ≤ x.edgeCycles)
    let mask := maskOf held
    if !s.law.saturated && held.any id then { s with law.saturated := true }.raiseN 57 256 (some mask)
    else if s.law.saturated && !held.any id then { s with law.saturated := false }.raiseN 57 0
    else s

end Sys2Proof.Machine
end

