-- ==== Sys2Proof/Machine/Settings.lean ====
section
/-! DEFINITION. How the shared settings of islands 0x05 and 0x06 take effect at a release (spec/06_reference_fusion.md,
R202, R239, R241; spec/07_vessel_observer.md, R273, R275; spec/08_station_keeping_law.md, R299, R313, R315;
spec/09_allocation_solver.md, R358). Ranges were judged when the write was accepted. -/

namespace Sys2Proof.Machine

/-- A reference enters ADMITTING by a write: REF_TIMEOUT runs from there (R216, log 30). -/
def State.admitAnew (s : State) (r : Nat) : State :=
  (s.admitting r).setRef r fun q => { q with lastValidAt := max q.lastValidAt s.tb3 }
/-- A write of TW_DEPTH or TARGET_POSE: a reference that is not DISABLED enters ADMITTING (R215, R235, R239). -/
def State.admitAgain (s : State) (r : Nat) : State := if (at? s.fusion.refs r).state == 0 then s else s.admitAnew r
/-- A write of a reference's object (R239). -/
def State.refWrite (s : State) (r num : Nat) (v : List Byte) : State :=
  let n := beVal v
  match num with
  | 4 =>
    let on := n == 1
    let was := (at? s.fusion.refs r).state != 0
    let s := s.setRefCfg r fun c => { c with enable := on }
    if on && !was then s.admitAnew r
    else if on then s
    else s.setRef r fun q => { q with state := 0, cause := 0, consec := 0, validRun := 0, inRun := false, admission := none, newest := none }
  | 5 => s.setRefCfg r fun c => { c with latency := n }
  | 6 => s.setRefCfg r fun c => { c with sigma := f32At v 0 }
  | 7 => s.setRefCfg r fun c => { c with gate := f32At v 0 }
  | 9 =>
    let s := s.setRefCfg r fun c => { c with freeze := bitOf n 0 }
    if bitOf n 1 then
      let s := s.setRefCfg r fun c =>
        { c with b := [0, 0, 0], c := (0, 0), reported := [0, 0, 0], lever := [0, 0, 0], leverReported := [0, 0, 0] }
      s.setRef r fun q => { q with refineAtBound := false, leverAtBound := false }
    else s
  | 0xB => (s.setRefCfg r fun c => { c with twDepth := f32At v 0 }).admitAgain r
  | 0xC => (s.setRefCfg r fun c => { c with targetPose := (f64At v 0, f64At v 8, f32At v 16) }).admitAgain r
  | _ => s

/-- A write of an observer parameter (R273, R275). -/
def State.obsWrite (s : State) (num : Nat) (v : List Byte) : State :=
  let n := beVal v
  let f := f32At v 0
  let p := s.obsParams
  let set (q : ObsParams) : State := { s with obsParams := q }
  match num with
  | 0x210 => (set { p with waveFreq := f }).rescaleWave p
  | 0x211 => (set { p with waveDamping := f }).rescaleWave p
  | 0x212 => (set { p with waveSigma := f }).rescaleWave p
  | 0x213 => set { p with accelSigma := f }
  | 0x214 => set { p with biasSigma := f }
  | 0x215 => set { p with biasTau := f }
  | 0x216 => set { p with gatePos := f }
  | 0x217 => set { p with gateScalar := f }
  | 0x218 => set { p with rejectLimit := n }
  | 0x219 => set { p with drDelay := n }
  | 0x21A => set { p with drAccel := f }
  | 0x21B => set { p with uncertaintyLimit := f }
  | 0x21C => set { p with airDensity := f }
  | 0x21D => set { p with tropoZenith := f }
  | 0x21E => set { p with dopplerSigma := f }
  | 0x21F => set { p with heightNoise := f }
  | 0x220 => set { p with clockNoise := f }
  | _ => s

/-- A write of an object of island 0x05. -/
def State.fusionWrite (s : State) (inst num : Nat) (v : List Byte) : State :=
  let n := beVal v
  if inst = 0 ∧ 0x200 ≤ num then s.obsWrite num v
  else if inst = 0 ∧ 0x100 ≤ num then
    match num with
    | 0x101 => { s with fusion.quarantineCount := n }
    | 0x102 => { s with fusion.readmitCount := n }
    | 0x103 => { s with fusion.autoReadmit := n == 1 }
    | 0x104 => match refOfInst n with | some r => s.readmit r | none => s
    | 0x105 => { s with fusion.sigmaEnvelope := f32At v 0 }
    | 0x106 => { s with fusion.refineTau := n }
    | 0x108 => { s with fusion.admitCount := n }
    | 0x109 => { s with fusion.assocGate := f32At v 0 }
    | _ => s
  else match refOfInst inst with
    | some r => s.refWrite r num v
    | none => s

/-- A waypoint record (R304). -/
def waypointAt (v : List Byte) (o : Nat) : Waypoint :=
  { north := f64At v o, east := f64At v (o + 8), speed := f32At v (o + 16), heading := f32At v (o + 20),
    flags := BitVec.ofNat 8 (fieldAt v (o + 24) 1) }
/-- The waypoints of a TRACK_PATH value. -/
def pathOf (v : List Byte) : List Waypoint := (List.range 32).map fun i => waypointAt v (4 + 32 * i)

/-- A target of TARGET_STATE (R313). -/
def targetOf (v : List Byte) : TargetState :=
  { stamp := fieldAt v 0 8, n := f64At v 8, e := f64At v 16, vn := f32At v 24, ve := f32At v 28, psi := f64At v 32,
    yawRate := f32At v 40 }

/-- A law parameter of R313. -/
def LawParams.write (p : LawParams) (num : Nat) (v : List Byte) : LawParams :=
  let n := beVal v
  let f := f32At v 0
  match num with
  | 0x107 => { p with joyTimeout := n }
  | 0x108 => { p with windComp := bitOf n 0 }
  | 0x110 => { p with qPosAlong := f }
  | 0x111 => { p with qPosAcross := f }
  | 0x112 => { p with qHdg := f }
  | 0x113 => { p with qVel := f }
  | 0x114 => { p with qYawrate := f }
  | 0x115 => { p with wEffort := f }
  | 0x116 => { p with wChange := f }
  | 0x117 => { p with wForce := f }
  | 0x118 => { p with terminalFactor := f }
  | 0x119 => { p with powerSlackWeight := f }
  | 0x120 => { p with stepMult := n }
  | 0x121 => { p with preferredHorizon := #v[fieldAt v 0 1, fieldAt v 1 1, fieldAt v 2 1, fieldAt v 3 1] }
  | 0x122 => { p with refSpeed := f }
  | 0x123 => { p with refAccel := f }
  | 0x124 => { p with refYawRate := f }
  | 0x125 => { p with refYawAccel := f }
  | 0x126 => { p with windFfTau := f }
  | 0x127 => { p with setpointStepMax := f }
  | 0x128 => { p with posAlarmRadius := f }
  | 0x129 => { p with hdgAlarmAngle := f }
  | 0x12A => { p with azHoldFraction := f }
  | _ => p

/-- A set-point changes: source 59, and its record (R299). -/
def State.setpoint (s : State) (n e psi : F64) : State :=
  { s with law.setN := n, law.setE := e, law.setPsi := psi }.raise 59 (must := true)

/-- A write of an object of island 0x06, instance 0. The origin of SETPOINT_GEO has moved when its turn comes (R298). -/
def State.lawWrite (s : State) (num : Nat) (v : List Byte) : State :=
  let n := beVal v
  let f := f32At v 0
  match num with
  | 0x020 => { s with solParams.fbBandwidth := f }
  | 0x021 => { s with solParams.fbYawBandwidth := f }
  | 0x022 => { s with solParams.warmFloor := f64At v 0 }
  | 0x102 => s.setpoint 0 0 s.law.setPsi
  | 0x103 =>
    let d : F64 × F64 := (F64.of32 (f32At v 4), F64.of32 (f32At v 8))
    let w := if fieldAt v 0 1 = 1 then (rotZ s.law.setPsi).app [d.1, d.2, 0] else [d.1, d.2, 0]
    s.setpoint (F64.add s.law.setN (w.at 0)) (F64.add s.law.setE (w.at 1)) s.law.setPsi
  | 0x104 => s.setpoint s.law.setN s.law.setE (f64At v 0)
  | 0x106 =>
    { s with law.joy := [f32At v 0, f32At v 4, f32At v 8], law.joyStale := false,
             law.joyAt := if s.group.role == .alone then s.law.joyAt else s.cycle.tk }
  | 0x130 =>
    { s with law.power.available := f,
             law.power.writtenAt := if s.group.role == .alone then s.law.power.writtenAt else some s.cycle.tk }
  | 0x131 => { s with law.power.point := BitVec.ofNat 16 n }
  | 0x132 => { s with law.power.timeout := n }
  | 0x133 => { s with law.power.fallback := f }
  | 0x134 => { s with law.power.margin := f }
  | 0x140 => { s with law.track.source := n == 1 }
  | 0x141 => { s with law.track.staged := pathOf v, law.track.stagedCount := BitVec.ofNat 8 (fieldAt v 0 1) }
  | 0x142 =>
    if n = 1 then
      { s with law.track.path := some (s.law.track.staged.take s.law.track.stagedCount.toNat) }.restartTrack
    else { s with law.track.staged := [], law.track.stagedCount := 0 }
  | 0x144 => { s with law.track.target := some (targetOf v), law.track.lost := false }
  | 0x145 => { s with law.track.targetTimeout := n }
  | 0x146 => { s with law.track.offset := [f32At v 0, f32At v 4, f32At v 8] }
  | 0x147 => { s with law.track.xteLimit := f }
  | _ => { s with law.params := s.law.params.write num v }

/-- A write of a thruster slice's object (R315). -/
def State.thrWrite (s : State) (slice num : Nat) (v : List Byte) : State :=
  match num with
  | 1 => s.setThr slice fun t => { t with enable := beVal v == 1 }
  | 2 => s.setThr slice fun t => { t with limit := f32At v 0 }
  | _ => s

/-- Step 1 of R250: the settings of fusion and the observer, in the order received; and the moves of the origin (R298). -/
def State.applyFusionWrites (s : State) : State :=
  let ws := s.fusion.pending
  let s := ws.foldl (fun s w => s.fusionWrite (objInst w.object) (objNum w.object) w.value) { s with fusion.pending := [] }
  s.law.pending.foldl (fun s w =>
    if objInst w.object = 0 ∧ objNum w.object = 0x102 then s.moveOrigin (f64At w.value 0) (f64At w.value 8) else s) s

/-- The writes to the law and the solver, in the order received, with the entry to a positioning mode among them
(R308, R313). The marker of an entry is a write of object 0. -/
def State.applyLawWrites (s : State) : State :=
  let ws := s.law.pending
  ws.foldl (fun s w =>
    if w.object == 0 then s.enterLaw s.modes.mode
    else if objInst w.object = 0 then s.lawWrite (objNum w.object) w.value
    else s.thrWrite (objInst w.object - 0x10) (objNum w.object) w.value) { s with law.pending := [] }

end Sys2Proof.Machine
end

