-- ==== Sys2Proof/Machine/Problem.lean ====
section
/-! DEFINITION. The problem the law builds in a cycle: its quantities, its objective as weighted squares, its constraint
rows and bounds, and the value of each change entry (spec/08_station_keeping_law.md, R280-R297;
spec/09_allocation_solver.md, R318-R326). -/

namespace Sys2Proof.Machine

/-! ## The structure of a variant (R79, R322, R323) -/

/-- The constraint descriptor of a row (R322). -/
def VariantRec.descriptor (v : VariantRec) (row : Nat) : Nat :=
  let w := (v.schedule.getD (2 + row / 2) 0).toNat
  if row % 2 = 0 then w / 2 ^ 32 else w % 2 ^ 32
/-- TYPE, FAMILY, SLICE and STEP of a constraint row (R323). -/
def VariantRec.rowKey (v : VariantRec) (row : Nat) : Nat × Nat × Nat × Nat :=
  let d := v.descriptor row
  (d / 2 ^ 24, d / 2 ^ 16 % 256, d / 2 ^ 8 % 256, d % 256)
/-- NVAR. -/
def VariantRec.nvar (v : VariantRec) : Nat := v.vars.length
/-- Row and column of each stored KKT entry, in order. -/
def VariantRec.places (v : VariantRec) : List (Nat × Nat) :=
  (List.range (v.nvar + v.ncon)).flatMap fun c =>
    let a := v.colptr.getD c 0
    ((v.rows.drop a).take (v.colptr.getD (c + 1) 0 - a)).map fun r => (r, c)
/-- The index of a variable. -/
def VariantRec.varIndex (v : VariantRec) (kind slice step comp : Nat) : Option Nat :=
  v.vars.findIdx? fun d => d.kind == kind && d.step == step &&
    (decide (2 < kind) || d.slice == slice) && ((kind != 3 && kind != 4) || d.comp == comp)
/-- Each row with its place among the rows of its own TYPE, FAMILY, SLICE and STEP. -/
def VariantRec.rowPlaces (v : VariantRec) : List ((Nat × Nat × Nat × Nat) × Nat) :=
  let keys := (List.range v.ncon).map v.rowKey
  keys.zipIdx.map fun (k, i) => (k, ((keys.take i).filter (· == k)).length)

/-! ## Affine expressions of the variables -/

/-- An affine expression of the primal variables: coefficients by rising index, and a constant. -/
structure Affine where
  terms : List (Nat × F64) := []
  const : F64 := 0
  deriving Inhabited

/-- Add to the coefficient at an index. -/
def addTerm (i : Nat) (k : F64) : List (Nat × F64) → List (Nat × F64)
  | [] => [(i, k)]
  | a :: rest =>
    if a.1 < i then a :: addTerm i k rest
    else if a.1 = i then (i, F64.add a.2 k) :: rest
    else (i, k) :: a :: rest
/-- A number. -/
def Affine.num (c : F64) : Affine := { const := c }
/-- A variable times a number; zero where the variant has no such variable. -/
def Affine.var (k : F64) : Option Nat → Affine
  | some i => { terms := [(i, k)] }
  | none => {}
/-- The sum. -/
def Affine.add (a b : Affine) : Affine :=
  { terms := b.terms.foldl (fun l t => addTerm t.1 t.2 l) a.terms, const := F64.add a.const b.const }
/-- A multiple. -/
def Affine.scale (k : F64) (a : Affine) : Affine :=
  { terms := a.terms.map fun t => (t.1, F64.mul k t.2), const := F64.mul k a.const }
/-- The difference. -/
def Affine.sub (a b : Affine) : Affine := a.add (b.scale (F64.neg F64.one))
/-- A linear combination. -/
def Affine.combine (ks : Vec) (xs : List Affine) : Affine := (ks.zip xs).foldl (fun a q => a.add (q.2.scale q.1)) {}
/-- The coefficient of a variable. -/
def Affine.coef (a : Affine) (i : Nat) : F64 := ((a.terms.find? (·.1 == i)).map (·.2)).getD 0

/-! ## The quantities of a cycle's problem (R280-R294) -/

/-- The weights of the objective in a mode, 0 for a term that is off, and the force components demanded (R280, R288). -/
structure LawWeights where
  along : F64 := 0
  across : F64 := 0
  heading : F64 := 0
  vel : F64 := 0
  yawRate : F64 := 0
  effort : F64 := 0
  change : F64 := 0
  force : F64 := 0
  slack : F64 := 0
  terminal : F64 := 0
  demanded : List Bool := []
  deriving Inhabited

/-- The weights of R288 in a mode (R280). -/
def State.weights (s : State) (m : Mode) : LawWeights :=
  let p := s.law.params
  let q (on : Bool) (x : F32) : F64 := if on then F64.of32 x else 0
  let pos := m == .station || m == .track
  let hdg := pos || m == .autohead
  let force := m == .joystick || m == .autohead
  { along := q pos p.qPosAlong, across := q pos p.qPosAcross, heading := q hdg p.qHdg, vel := q pos p.qVel,
    yawRate := q hdg p.qYawrate, effort := F64.of32 p.wEffort, change := F64.of32 p.wChange, force := q force p.wForce,
    slack := F64.of32 p.powerSlackWeight, terminal := F64.of32 p.terminalFactor,
    demanded := [force, force, m == .joystick] }

/-- A thruster in the problem: its availability, region, wedges, power lines and previous thrust. -/
structure ProblemThruster where
  unit : ThrusterRec := {}
  available : Bool := false
  region : List (F64 × F64) := []
  wedges : List (Option (F64 × F64 × F64)) := []
  lines : List (F64 × (F64 × F64) × F64) := []
  previous : F64 × F64 := (0, 0)
  deriving Inhabited

/-- Every quantity R284 to R294 give the problem of a cycle. -/
structure Problem where
  variant : VariantRec := {}
  weights : LawWeights := {}
  /-- Step lengths over T. -/
  w : Vec := []
  x0 : Vec := []
  lin : List Vec := []
  models : List StepModel := []
  refs : List RefSim := []
  tauScale : Vec := []
  demand : Vec := []
  powerScale : F64 := 0
  /-- P_lim (1 − POWER_MARGIN), W. -/
  powerBound : F64 := 0
  thrusters : List ProblemThruster := []
  /-- The state at the end of each step, with what the dynamics make of the step before. -/
  states : List (List Affine × List Affine) := []
  deriving Inhabited

/-- The summed RATED_POWER of a variant, in which power variables are (R318). -/
def State.powerScale (s : State) (v : VariantRec) : F64 :=
  (s.variantThrusters v).foldl (fun a r => F64.add a (F64.of32 r.ratedPower)) 0
/-- P_lim (1 − POWER_MARGIN). -/
def State.powerBound (s : State) : F64 :=
  F64.mul (F64.of32 s.law.power.pLim) (F64.sub F64.one (F64.of32 s.law.power.margin))

/-- The reference at the end of each step, predicted from its present value (R300). -/
def State.referenceAhead (s : State) (m : Mode) (horizon tk : Nat) : List RefSim :=
  let t0 := tk + s.cyc.commandAt
  ((List.range horizon).foldl (fun (a : List RefSim × RefSim) j =>
    let q := s.stepRef m a.2 (t0 + (if j = 0 then 0 else s.stepEnd (j - 1))) (t0 + s.stepEnd j)
    (a.1 ++ [q], q)) ([], s.refNow)).1

/-- The thrust of a thruster at a step in N: its variables are thrust over RATED_THRUST (R318). -/
def Problem.thrust (p : Problem) (t : ProblemThruster) (j : Nat) : Affine × Affine :=
  let f := F64.of32 t.unit.rated
  (.var f (p.variant.varIndex 1 t.unit.slice j 0), .var f (p.variant.varIndex 2 t.unit.slice j 0))
/-- The generalised force Σ B f of a step (R285). -/
def Problem.force (p : Problem) (j : Nat) : List Affine :=
  p.thrusters.foldl (fun a t =>
    let (fx, fy) := p.thrust t j
    let all := [fx, fy, (fy.scale t.unit.x).sub (fx.scale t.unit.y)]
    (a.zip all).map fun q => q.1.add q.2) [{}, {}, {}]

/-- What the dynamics make of a state over a step. -/
def Problem.rolled (p : Problem) (j : Nat) (x : List Affine) : List Affine :=
  let m := p.models.getD j {}
  let f := p.force j
  (List.range 6).map fun i =>
    ((Affine.combine (m.a.getD i []) x).add (.combine (m.g.getD i []) f)).add (.num (m.c.at i))
/-- The state at the end of each step, with what the dynamics make of the step before: a component is its variable where the
variant has one, else the rolled expression. -/
def Problem.roll (p : Problem) : List (List Affine × List Affine) :=
  ((List.range p.variant.horizon).foldl (fun (a : List (List Affine × List Affine) × List Affine) j =>
    let rolled := p.rolled j a.2
    let x := rolled.zipIdx.map fun (e, c) => match p.variant.varIndex 3 0xFF j c with
      | some i => Affine.var F64.one (some i)
      | none => e
    (a.1 ++ [(x, rolled)], x)) ([], p.x0.map .num)).1

/-- The problem of cycle k in a mode. -/
def State.problem (s : State) (m : Mode) (v : VariantRec) (tk : Nat) : Problem :=
  let steps := List.range v.horizon
  let t0 := tk + s.cyc.commandAt
  let thruster (r : ThrusterRec) : ProblemThruster :=
    { unit := r, available := (at? s.law.thr r.slice).available, region := s.regionOf r,
      wedges := steps.map fun j => s.wedge r tk (s.stepEnd j), lines := steps.map fun j => s.powerLine r tk j,
      previous := s.previousThrust r.slice }
  let p : Problem :=
    { variant := v, weights := s.weights m,
      w := steps.map fun j => F64.div (F64.ofNat (s.stepLength j)) (F64.ofNat s.cyc.period),
      x0 := s.obsOut.estX.take 6, lin := s.dyn.lin, models := s.stepModels m v.horizon,
      refs := s.referenceAhead m v.horizon tk, tauScale := s.tauScale v, demand := s.demand m v t0,
      powerScale := s.powerScale v, powerBound := s.powerBound, thrusters := (s.variantThrusters v).map thruster }
  { p with states := p.roll }

/-! ## The objective (R288) -/

/-- One term of the objective: a weight times the square of an expression. -/
structure Square where
  weight : F64
  err : Affine

/-- The Q terms of a step: position error in the axes of the reference heading, heading error with the reference unwrapped to
within π of ψ̄, velocity errors with the reference velocity in the body frame at the reference heading. -/
def Problem.trackSquares (p : Problem) (j : Nat) (x : List Affine) : List Square :=
  let q := p.weights
  let r := p.refs.getD j default
  let last := j + 1 = p.variant.horizon
  let w := F64.mul (p.w.at j) (if last then q.terminal else F64.one)
  let st (i : Nat) : Affine := x.getD i {}
  let c := F64.cos r.psi
  let sn := F64.sin r.psi
  let dn := (st 0).sub (.num r.n)
  let de := (st 1).sub (.num r.e)
  let bar := Vec.at (p.lin.getD j []) 2
  let psi := F64.add bar (F64.wrapPi (F64.sub r.psi bar))
  let u := F64.add (F64.mul c r.vn) (F64.mul sn r.ve)
  let v := F64.sub (F64.mul c r.ve) (F64.mul sn r.vn)
  [⟨F64.mul w q.along, (dn.scale c).add (de.scale sn)⟩, ⟨F64.mul w q.across, (de.scale c).sub (dn.scale sn)⟩,
   ⟨F64.mul w q.heading, (st 2).sub (.num psi)⟩, ⟨F64.mul w q.vel, (st 3).sub (.num u)⟩,
   ⟨F64.mul w q.vel, (st 4).sub (.num v)⟩, ⟨F64.mul w q.yawRate, (st 5).sub (.num r.r)⟩]

/-- The force-demand error of a component at a step, over τ_scale. -/
def Problem.forceError (p : Problem) (j c : Nat) : Affine :=
  (((p.force j).getD c {}).sub (.num (p.demand.at c))).scale (F64.div F64.one (p.tauScale.at c))
/-- The force-demand terms of a step, on the components named: the square of the slack variable where the variant has one,
which its row of FAMILY 5 ties to the error. -/
def Problem.forceSquares (p : Problem) (j : Nat) : List Square :=
  ((List.range 3).filter fun c => p.weights.demanded.getD c false).map fun c =>
    ⟨F64.mul (p.w.at j) p.weights.force, match p.variant.varIndex 4 0xFF j c with
      | some i => .var F64.one (some i)
      | none => p.forceError j c⟩

/-- The effort and change terms of a thruster at a step, of thrust over F. -/
def Problem.thrustSquares (p : Problem) (t : ProblemThruster) (j : Nat) : List Square :=
  let f := F64.of32 t.unit.rated
  let of (j kind : Nat) : Affine := .var F64.one (p.variant.varIndex kind t.unit.slice j 0)
  let before (kind : Nat) : Affine := match j with
    | 0 => .num (F64.div (if kind = 1 then t.previous.1 else t.previous.2) f)
    | i + 1 => of i kind
  [1, 2].flatMap fun kind =>
    [⟨F64.mul (p.w.at j) p.weights.effort, of j kind⟩, ⟨p.weights.change, (of j kind).sub (before kind)⟩]

/-- Every square of J. -/
def Problem.squares (p : Problem) : List Square :=
  p.states.zipIdx.flatMap fun ((x, _), j) =>
    p.trackSquares j x ++ p.forceSquares j ++ p.thrusters.flatMap fun t => p.thrustSquares t j

/-- The Hessian's lower triangle as contributions: J is ½ xᵀ H x + qᵀ x and a constant, so a square of weight w gives
2 w a aᵀ. -/
def Square.hessian (q : Square) : List (Nat × Nat × F64) :=
  let w := F64.mul F64.two q.weight
  q.err.terms.flatMap fun a => (q.err.terms.filter fun b => b.1 ≤ a.1).map fun b => (a.1, b.1, F64.mul w (F64.mul a.2 b.2))
/-- A square's part of q: 2 w a times the constant. -/
def Square.gradient (q : Square) : List (Nat × F64) :=
  let w := F64.mul F64.two q.weight
  q.err.terms.map fun a => (a.1, F64.mul w (F64.mul a.2 q.err.const))
/-- The linear terms of J: POWER_SLACK_WEIGHT times s in W, a power slack variable being s over the power scale. -/
def Problem.slackTerms (p : Problem) : List (Nat × F64) :=
  (List.range p.variant.horizon).filterMap fun j =>
    (p.variant.varIndex 5 0xFF j 0).map fun i => (i, F64.mul p.weights.slack p.powerScale)

/-! ## The rows (R285, R289-R296) -/

/-- A constraint row: its coefficients and its right-hand side. -/
structure ProblemRow where
  lhs : Affine := {}
  rhs : F64 := 0
  deriving Inhabited

/-- A row that constrains nothing: its places hold zero (R280). -/
def idleRow (inequality : Bool) : ProblemRow := { rhs := if inequality then F64.inf else 0 }
/-- A half-plane k_x f_x + k_y f_y ≤ d of a thrust in N, in units of F. -/
def Problem.halfPlane (p : Problem) (t : ProblemThruster) (j : Nat) (k : F64 × F64) (d : F64) : ProblemRow :=
  let (fx, fy) := p.thrust t j
  let u := F64.div F64.one (F64.of32 t.unit.rated)
  { lhs := ((fx.scale k.1).add (fy.scale k.2)).scale u, rhs := F64.mul u d }

/-- Dynamics (R285): the state less what the dynamics make of it. -/
def Problem.dynamicsRow (p : Problem) (j c : Nat) : ProblemRow :=
  match p.states[j]? with
  | some (x, rolled) =>
    let e := (x.getD c {}).sub (rolled.getD c {})
    { lhs := e, rhs := F64.neg e.const }
  | none => {}

/-- The half-plane on the inner side of an edge from `a` to `b`, the region being counter-clockwise (R77). -/
def Problem.edgeRow (p : Problem) (t : ProblemThruster) (j : Nat) (a b : F64 × F64) : ProblemRow :=
  let d := along2 (sub2 b a) F64.one
  p.halfPlane t j (d.2, F64.neg d.1) (F64.sub (F64.mul d.2 a.1) (F64.mul d.1 a.2))
/-- The half-plane that ends a segment at `b`. -/
def Problem.endRow (p : Problem) (t : ProblemThruster) (j : Nat) (a b : F64 × F64) : ProblemRow :=
  let d := along2 (sub2 b a) F64.one
  p.halfPlane t j d (F64.add (F64.mul d.1 b.1) (F64.mul d.2 b.2))

/-- REGION (R289): the half-planes of its edges in turn. A segment has one equality, its line, and two inequalities, its ends
(the example of R361); its two sides stand after them. -/
def Problem.regionRow (p : Problem) (t : ProblemThruster) (j k : Nat) (inequality : Bool) : ProblemRow :=
  match t.region, inequality, k with
  | [a, b], false, 0 => p.edgeRow t j a b
  | [a, b], true, 0 => p.endRow t j a b
  | [a, b], true, 1 => p.endRow t j b a
  | [a, b], true, 2 => p.edgeRow t j a b
  | [a, b], true, 3 => p.edgeRow t j b a
  | [_, _], _, _ => idleRow inequality
  | region, true, _ => match (region.zip (region.drop 1 ++ region.take 1))[k]? with
    | some (a, b) => p.edgeRow t j a b
    | none => idleRow true
  | _, false, _ => idleRow false

/-- A half-plane of the wedge (R291): first the anticlockwise side, then the clockwise one. -/
def Problem.wedgeRow (p : Problem) (t : ProblemThruster) (j k : Nat) : ProblemRow :=
  match (t.wedges[j]?).join with
  | some (a0, minus, plus) =>
    let lo := F64.sub a0 minus
    let hi := F64.add a0 plus
    match k with
    | 0 => p.halfPlane t j (F64.sin lo, F64.neg (F64.cos lo)) 0
    | 1 => p.halfPlane t j (F64.neg (F64.sin hi), F64.cos hi) 0
    | _ => idleRow true
  | none => idleRow true

/-- The power of a step over the power scale (R293): an unavailable thruster has no term. -/
def Problem.powerRow (p : Problem) (j : Nat) : ProblemRow :=
  if !F64.finite p.powerBound then idleRow true
  else
    let sum := (p.thrusters.filter (·.available)).foldl (fun (a : Affine) t =>
      let (k, d, c) := t.lines.getD j default
      let (fx, fy) := p.thrust t j
      a.add ((((fx.scale d.1).add (fy.scale d.2)).scale k).add (.num c))) {}
    let u := F64.div F64.one p.powerScale
    let e := (sum.sub (.num p.powerBound)).scale u
    { lhs := e.sub (.var F64.one (p.variant.varIndex 5 0xFF j 0)), rhs := F64.neg e.const }

/-- The force demand of a component: the error less its slack variable (R288). -/
def Problem.forceRow (p : Problem) (j c : Nat) : ProblemRow :=
  match p.variant.varIndex 4 0xFF j c with
  | some i =>
    if p.weights.demanded.getD c false then
      let e := (p.forceError j c).sub (.var F64.one (some i))
      { lhs := e, rhs := F64.neg e.const }
    else idleRow false
  | none => idleRow false

/-- The row of a descriptor and its place among equal descriptors. The spec leaves the order of the rows within a family to the
structure (R281, R323): a dynamics or force row's place is its component, a region row's its edge, a wedge row's its side. A row
of another family, or whose TYPE is not its family's, holds zeros (DESIGN CHOICE, log 10). -/
def Problem.row (p : Problem) (key : Nat × Nat × Nat × Nat) (k : Nat) : ProblemRow :=
  let (type, family, slice, j) := key
  let unit := p.thrusters.find? (·.unit.slice == slice)
  match type, family, unit with
  | 0, 1, _ => p.dynamicsRow j k
  | _, 2, some t => p.regionRow t j k (type == 1)
  | 1, 3, some t => p.wedgeRow t j k
  | 1, 4, _ => if k = 0 then p.powerRow j else idleRow true
  | 0, 5, _ => p.forceRow j k
  | _, _, _ => idleRow (type == 1)
/-- Every row in index order. -/
def Problem.allRows (p : Problem) : List ProblemRow := p.variant.rowPlaces.map fun (key, k) => p.row key k

/-- The bounds of a variable: zero for a thrust of an unavailable thruster (R290), at least 0 for a power slack (R293). -/
def Problem.bounds (p : Problem) (d : VarDesc) : F64 × F64 :=
  let off := (d.kind == 1 || d.kind == 2) && !(p.thrusters.any fun t => t.unit.slice == d.slice && t.available)
  if off then (0, 0) else if d.kind = 5 then (0, F64.inf) else (F64.neg F64.inf, F64.inf)

/-! ## Change entries (R326, R328) -/

/-- The sum of the contributions to an entry. -/
def sumAt (l : List (Nat × Nat × F64)) (r c : Nat) : F64 :=
  l.foldl (fun a e => if e.1 = r ∧ e.2.1 = c then F64.add a e.2.2 else a) 0

/-- Every value of the problem as change entries (R326): the stored KKT entries of the variable columns, q, the right-hand
sides, and the bounds. -/
def Problem.entries (p : Problem) : List ChangeEntry :=
  let v := p.variant
  let squares := p.squares
  let hess := squares.flatMap Square.hessian
  let grad := squares.flatMap Square.gradient ++ p.slackTerms
  let rows := p.allRows
  let kkt := (v.places.take (min v.nnz (v.colptr.getD v.nvar 0))).zipIdx.map fun ((r, c), i) =>
    let x := if r < v.nvar then sumAt hess r c else (rows.getD (r - v.nvar) default).lhs.coef c
    { target := 0, index := i, value := x : ChangeEntry }
  let q := (List.range v.nvar).map fun i =>
    { target := 1, index := i, value := grad.foldl (fun a e => if e.1 = i then F64.add a e.2 else a) 0 : ChangeEntry }
  let rhs := rows.zipIdx.map fun (r, i) => { target := 2, index := i, value := r.rhs : ChangeEntry }
  let lower := v.vars.zipIdx.map fun (d, i) => { target := 3, index := i, value := (p.bounds d).1 : ChangeEntry }
  let upper := v.vars.zipIdx.map fun (d, i) => { target := 4, index := i, value := (p.bounds d).2 : ChangeEntry }
  kkt ++ q ++ rhs ++ lower ++ upper

end Sys2Proof.Machine
end

