-- ==== Sys2Proof/Machine/Solver.lean ====
section
/-! DEFINITION. The allocation solver: the resident problem, the factorisation by the schedule, the interior-point
iteration, starting points, jobs (spec/09_allocation_solver.md, R318-R342). -/

namespace Sys2Proof.Machine

/-! ## The problem SOL holds (R318-R321) -/

/-- The value at an index; `d` where none was sent. -/
def valAt (l : List (Nat × F64)) (i : Nat) (d : F64) : F64 := ((l.find? (·.1 == i)).map (·.2)).getD d
/-- Set the value at an index, keeping the list in rising order. -/
def putVal (i : Nat) (v : F64) : List (Nat × F64) → List (Nat × F64)
  | [] => [(i, v)]
  | a :: rest => if a.1 < i then a :: putVal i v rest else if a.1 = i then (i, v) :: rest else (i, v) :: a :: rest

/-- Apply one change entry (R326). -/
def ProblemValues.put (p : ProblemValues) (e : ChangeEntry) : ProblemValues :=
  match e.target with
  | 0 => { p with kkt := putVal e.index e.value p.kkt }
  | 1 => { p with q := putVal e.index e.value p.q }
  | 2 => { p with rhs := putVal e.index e.value p.rhs }
  | 3 => { p with lower := putVal e.index e.value p.lower }
  | 4 => { p with upper := putVal e.index e.value p.upper }
  | _ => { p with start := putVal e.index e.value p.start }
/-- The value last given to a target and index, if any. -/
def ProblemValues.get? (p : ProblemValues) (target index : Nat) : Option F64 :=
  let l := match target with
    | 0 => p.kkt | 1 => p.q | 2 => p.rhs | 3 => p.lower | 4 => p.upper | _ => p.start
  (l.find? (·.1 == index)).map (·.2)

/-- The program words of a schedule (R322). -/
def VariantRec.program (v : VariantRec) : List (BitVec 64) :=
  let w1 := (v.schedule.getD 1 0).toNat
  (v.schedule.drop (2 + w1 / 2 ^ 32)).take (w1 % 2 ^ 32)
/-- LNZ (R322). -/
def VariantRec.lnz (v : VariantRec) : Nat := (v.schedule.getD 0 0).toNat % 2 ^ 32
/-- The quadratic program with its values. -/
structure Qp where
  n : Nat := 0
  m : Nat := 0
  /-- The stored entries: row, column, value. -/
  entries : List (Nat × Nat × F64) := []
  q : Vec := []
  b : Vec := []
  lo : Vec := []
  up : Vec := []
  ineq : List Bool := []
  order : List Nat := []
  program : List (BitVec 64) := []
  tol : F64 := 0
  deriving Inhabited

/-- The program of a variant with the resident values. -/
def qpOf (v : VariantRec) (p : ProblemValues) (tol : F64) : Qp :=
  { n := v.nvar, m := v.ncon, entries := v.places.zipIdx.map fun ((r, c), i) => (r, c, valAt p.kkt i 0),
    q := mkVec v.nvar fun i => valAt p.q i 0, b := mkVec v.ncon fun i => valAt p.rhs i 0,
    lo := mkVec v.nvar fun i => valAt p.lower i (F64.neg F64.inf), up := mkVec v.nvar fun i => valAt p.upper i F64.inf,
    ineq := (List.range v.ncon).map fun i => (v.rowKey i).1 == 1, order := v.order, program := v.program, tol := tol }

/-- A variable whose bounds are equal is fixed (R321). -/
def Qp.fixed (p : Qp) (i : Nat) : Bool := F64.eq (p.lo.at i) (p.up.at i)
/-- Has a variable a finite lower, upper bound that an iteration keeps it from? -/
def Qp.hasLo (p : Qp) (i : Nat) : Bool := !p.fixed i && F64.finite (p.lo.at i)
/-- The upper bound. -/
def Qp.hasUp (p : Qp) (i : Nat) : Bool := !p.fixed i && F64.finite (p.up.at i)
/-- Is a row an equality? -/
def Qp.isEq (p : Qp) (i : Nat) : Bool := !(p.ineq.getD i false)
/-- An inequality row with an infinite side constrains nothing (log 11). -/
def Qp.active (p : Qp) (i : Nat) : Bool := p.isEq i || F64.finite (p.b.at i)
/-- m of R336: inequality rows and finite bounds. -/
def Qp.count (p : Qp) : Nat :=
  ((List.range p.m).filter fun i => !p.isEq i && p.active i).length + ((List.range p.n).filter p.hasLo).length +
    ((List.range p.n).filter p.hasUp).length

/-- H x: the variable block, symmetric. -/
def Qp.hx (p : Qp) (x : Vec) : Vec :=
  mkVec p.n fun i => p.entries.foldl (fun a (r, c, v) =>
    if p.n ≤ r then a
    else if r = i then F64.add a (F64.mul v (x.at c))
    else if c = i then F64.add a (F64.mul v (x.at r)) else a) 0
/-- C x. -/
def Qp.cx (p : Qp) (x : Vec) : Vec :=
  mkVec p.m fun i => p.entries.foldl (fun a (r, c, v) =>
    if r = p.n + i ∧ c < p.n then F64.add a (F64.mul v (x.at c)) else a) 0
/-- Cᵀ y. -/
def Qp.cty (p : Qp) (y : Vec) : Vec :=
  mkVec p.n fun j => p.entries.foldl (fun a (r, c, v) =>
    if c = j ∧ p.n ≤ r then F64.add a (F64.mul v (y.at (r - p.n))) else a) 0

/-- Largest magnitude. -/
def normInf (v : Vec) : F64 := v.foldl (fun a x => F64.max a (F64.abs x)) 0
/-- Largest magnitude of the finite entries (R336). -/
def normFinite (v : Vec) : F64 := v.foldl (fun a x => if F64.finite x then F64.max a (F64.abs x) else a) 0

/-! ## Residuals and merit (R336, R337) -/

/-- Bound dual of a variable: lower at `i`, upper at `n + i`. -/
def Iterate.zl (t : Iterate) (i : Nat) : F64 := Vec.at t.z i
/-- Upper. -/
def Iterate.zu (t : Iterate) (n i : Nat) : F64 := Vec.at t.z (n + i)

/-- The dual residual H x + q + Cᵀ y − z_l + z_u; a fixed variable has none. -/
def Qp.dualRes (p : Qp) (t : Iterate) : Vec :=
  let h := p.hx t.x
  let c := p.cty t.y
  mkVec p.n fun i => if p.fixed i then 0
    else F64.add (F64.sub (F64.add (F64.add (h.at i) (p.q.at i)) (c.at i)) (t.zl i)) (t.zu p.n i)
/-- The primal residual: A x − b, and G x + s − h. -/
def Qp.primalRes (p : Qp) (t : Iterate) : Vec :=
  let c := p.cx t.x
  mkVec p.m fun i => if !p.active i then 0
    else
      let d := F64.sub (c.at i) (p.b.at i)
      if p.isEq i then d else F64.add d (Vec.at t.s i)
/-- The sum of the complementarity products. -/
def Qp.complementarity (p : Qp) (t : Iterate) : F64 :=
  let a := sumTo p.m fun i => if p.isEq i || !p.active i then 0 else F64.mul (Vec.at t.s i) (Vec.at t.y i)
  let b := sumTo p.n fun i => if p.hasLo i then F64.mul (F64.sub (Vec.at t.x i) (p.lo.at i)) (t.zl i) else 0
  let c := sumTo p.n fun i => if p.hasUp i then F64.mul (F64.sub (p.up.at i) (Vec.at t.x i)) (t.zu p.n i) else 0
  F64.add (F64.add a b) c
/-- ½ xᵀ H x + qᵀ x. -/
def Qp.objective (p : Qp) (x : Vec) : F64 := F64.add (F64.mul F64.half (Vec.dot x (p.hx x))) (Vec.dot p.q x)

/-- The three ratios of R336, each residual over its threshold. -/
def Qp.ratios (p : Qp) (t : Iterate) : Vec :=
  let lim (k : F64) := F64.mul p.tol (F64.add F64.one k)
  let h := p.hx t.x
  let pr := F64.div (normInf (p.primalRes t)) (lim (F64.max (normFinite p.b) (normInf (p.cx t.x))))
  let du := F64.div (normInf (p.dualRes t)) (lim (F64.max (F64.max (normInf h) (normInf p.q)) (normInf (p.cty t.y))))
  let co := F64.div (p.complementarity t) (lim (F64.abs (p.objective t.x)))
  [pr, du, co]
/-- An iterate with its merit. -/
def Qp.judge (p : Qp) (t : Iterate) : Iterate :=
  let r := p.ratios t
  { t with ratios := r, merit := r.foldl F64.max 0 }
/-- Converged: every ratio at most 1. -/
def Iterate.converged (t : Iterate) : Bool := t.ratios.all fun r => F64.le r F64.one
/-- Is every value finite? -/
def Iterate.finite (t : Iterate) : Bool := (t.x ++ t.y ++ t.s ++ t.z).all F64.finite

/-! ## The KKT matrix and its factorisation (R319, R321, R334, R335) -/

/-- Σ_x of a variable. -/
def Qp.sigmaX (p : Qp) (t : Iterate) (i : Nat) : F64 :=
  let a := if p.hasLo i then F64.div (t.zl i) (F64.sub (Vec.at t.x i) (p.lo.at i)) else 0
  let b := if p.hasUp i then F64.div (t.zu p.n i) (F64.sub (p.up.at i) (Vec.at t.x i)) else 0
  F64.add a b
/-- Σ_c of a row. -/
def Qp.sigmaC (p : Qp) (t : Iterate) (i : Nat) : F64 := if p.isEq i then 0 else F64.div (Vec.at t.s i) (Vec.at t.y i)

/-- The stored entries of K with the regularisation `delta`. A fixed variable's row and column are zero and its diagonal
1; a row that constrains nothing is likewise left out. -/
def Qp.kkt (p : Qp) (t : Iterate) (delta : F64) : List (Nat × Nat × F64) :=
  let off (i : Nat) : Bool := if i < p.n then p.fixed i else !p.active (i - p.n)
  p.entries.map fun (r, c, v) =>
    if r = c then
      let d := if off r then (if r < p.n then F64.one else F64.neg F64.one)
        else if r < p.n then F64.add (F64.add v (p.sigmaX t r)) delta
        else F64.neg (F64.add (p.sigmaC t (r - p.n)) delta)
      (r, c, d)
    else if off r || off c then (r, c, 0) else (r, c, v)

/-- A factor: columns of L below the diagonal in elimination order, the pivots, and the number replaced. -/
structure Factor where
  cols : List Vec := []
  d : Vec := []
  replaced : Nat := 0

/-- K_max of R334. -/
def kMax (k : List (Nat × Nat × F64)) : F64 := k.foldl (fun a e => F64.max a (F64.abs e.2.2)) 0

/-- A pivot of R334: `positive` for a variable. -/
def staticPivot (positive : Bool) (big d : F64) : F64 × Bool :=
  let wrong := if positive then !F64.lt 0 d else !F64.lt d 0
  if wrong || F64.lt (F64.abs d) (F64.mul (f64OfRat 1 1000000000000) big) then
    let v := F64.mul (f64OfRat 1 100000000) big
    (if positive then v else F64.neg v, true)
  else (d, false)

/-- Run one program word of the schedule (R324). -/
def Factor.word (f : Factor) (n total : Nat) (order : List Nat) (big : F64) (k : List (Nat × Nat × F64)) (w : BitVec 64) :
    Factor :=
  let op := (w >>> 60).toNat
  let j := (w >>> 38).toNat % 2 ^ 14
  let src := (w >>> 24).toNat % 2 ^ 14
  match op with
  | 1 =>
    -- SCATTER: column COL_J of K
    let col := mkVec total fun i =>
      let r := order.getD i 0
      let c := order.getD j 0
      if i < j then 0 else k.foldl (fun a (er, ec, v) => if (er = r ∧ ec = c) ∨ (er = c ∧ ec = r) then v else a) 0
    { f with cols := f.cols.set j col }
  | 2 =>
    -- CMOD: update column COL_J by column COL_K
    let l := f.cols.getD src []
    let ljk := F64.mul (l.at j) (f.d.at src)
    let col := (f.cols.getD j []).mapIdx fun i v => if i < j then v else F64.sub v (F64.mul (l.at i) ljk)
    { f with cols := f.cols.set j col }
  | 3 =>
    -- CDIV: pivot and scale column COL_J
    let col := f.cols.getD j []
    let (d, bad) := staticPivot (decide (order.getD j 0 < n)) big (col.at j)
    let col := col.mapIdx fun i v => if i ≤ j then (if i = j then F64.one else 0) else F64.div v d
    { f with cols := f.cols.set j col, d := f.d.set j d, replaced := if bad then f.replaced + 1 else f.replaced }
  | _ => f

/-- Factor K of an iterate by the schedule (R333, R334). -/
def Qp.factor (p : Qp) (t : Iterate) : Factor :=
  let total := p.n + p.m
  let k := p.kkt t (f64OfRat 1 1000000000)
  p.program.foldl (fun f w => f.word p.n total p.order (kMax k) k w)
    { cols := List.replicate total [], d := List.replicate total 0 }

/-- Solve with a factor: forward, pivots, back, in elimination order. -/
def Qp.solve (p : Qp) (f : Factor) (r : Vec) : Vec :=
  let total := p.n + p.m
  let b := mkVec total fun i => r.at (p.order.getD i 0)
  let y := (List.range total).foldl (fun (y : Vec) j =>
    let yj := y.at j
    let l := f.cols.getD j []
    y.mapIdx fun i v => if i ≤ j then v else F64.sub v (F64.mul (l.at i) yj)) b
  let y := y.mapIdx fun i v => F64.div v (f.d.at i)
  let x := (List.range total).reverse.foldl (fun (x : Vec) j =>
    let l := f.cols.getD j []
    let v := (List.range total).foldl (fun a i => if i ≤ j then a else F64.sub a (F64.mul (l.at i) (x.at i))) (x.at j)
    x.set j v) y
  mkVec total fun i => match p.order.findIdx? (· == i) with | some k => x.at k | none => 0

/-- K v from stored entries. -/
def kktTimes (k : List (Nat × Nat × F64)) (total : Nat) (v : Vec) : Vec :=
  mkVec total fun i => k.foldl (fun a (r, c, x) =>
    if r = i then F64.add a (F64.mul x (v.at c)) else if c = i then F64.add a (F64.mul x (v.at r)) else a) 0

/-- Solve and refine twice against K with δ = 0 (R335). -/
def Qp.solveRefined (p : Qp) (f : Factor) (t : Iterate) (r : Vec) : Vec :=
  let k := p.kkt t 0
  let refine (d : Vec) : Vec := Vec.plus d (p.solve f (Vec.minus r (kktTimes k (p.n + p.m) d)))
  refine (refine (p.solve f r))

/-! ## One iteration (R333) -/

/-- A step: Δx, Δy (with Δz of inequality rows), Δs, Δz of the bounds. -/
structure Step where
  dx : Vec := []
  dy : Vec := []
  ds : Vec := []
  dz : Vec := []

/-- The step for given complementarity targets: of the rows, the lower and the upper bounds. -/
def Qp.stepFor (p : Qp) (f : Factor) (t : Iterate) (cs cl cu : Vec) : Step :=
  let gl (i : Nat) := F64.sub (Vec.at t.x i) (p.lo.at i)
  let gu (i : Nat) := F64.sub (p.up.at i) (Vec.at t.x i)
  let dr := p.dualRes t
  let pr := p.primalRes t
  let rx := mkVec p.n fun i => if p.fixed i then 0
    else
      let v := F64.neg (dr.at i)
      let v := if p.hasLo i then F64.add v (F64.div (cl.at i) (gl i)) else v
      if p.hasUp i then F64.sub v (F64.div (cu.at i) (gu i)) else v
  let rc := mkVec p.m fun i => if !p.active i then 0
    else if p.isEq i then F64.neg (pr.at i)
    else F64.sub (F64.neg (pr.at i)) (F64.div (cs.at i) (Vec.at t.y i))
  let d := p.solveRefined f t (rx ++ rc)
  let dx := mkVec p.n fun i => if p.fixed i then 0 else d.at i
  let dy := mkVec p.m fun i => if p.active i then d.at (p.n + i) else 0
  let ds := mkVec p.m fun i => if p.isEq i || !p.active i then 0
    else F64.div (F64.sub (cs.at i) (F64.mul (Vec.at t.s i) (dy.at i))) (Vec.at t.y i)
  let dzl := mkVec p.n fun i => if p.hasLo i then
      F64.div (F64.sub (cl.at i) (F64.mul (t.zl i) (dx.at i))) (gl i) else 0
  let dzu := mkVec p.n fun i => if p.hasUp i then
      F64.div (F64.add (cu.at i) (F64.mul (t.zu p.n i) (dx.at i))) (gu i) else 0
  { dx := dx, dy := dy, ds := ds, dz := dzl ++ dzu }

/-- The largest step that keeps a positive value non-negative. -/
def stepLimit (v d : F64) : F64 := if F64.lt d 0 then F64.div (F64.neg v) d else F64.inf

/-- The largest step that keeps s, z and the bound gaps positive. -/
def Qp.largestStep (p : Qp) (t : Iterate) (d : Step) : F64 :=
  let rows := (List.range p.m).foldl (fun a i => if p.isEq i || !p.active i then a
    else F64.min a (F64.min (stepLimit (Vec.at t.s i) (d.ds.at i)) (stepLimit (Vec.at t.y i) (d.dy.at i)))) F64.inf
  (List.range p.n).foldl (fun a i =>
    let a := if p.hasLo i then F64.min a (F64.min (stepLimit (F64.sub (Vec.at t.x i) (p.lo.at i)) (d.dx.at i))
      (stepLimit (t.zl i) (d.dz.at i))) else a
    if p.hasUp i then F64.min a (F64.min (stepLimit (F64.sub (p.up.at i) (Vec.at t.x i)) (F64.neg (d.dx.at i)))
      (stepLimit (t.zu p.n i) (d.dz.at (p.n + i)))) else a) rows

/-- Take a step. -/
def Iterate.move (t : Iterate) (d : Step) (a : F64) : Iterate :=
  { t with x := Vec.plus t.x (Vec.scale a d.dx), y := Vec.plus t.y (Vec.scale a d.dy),
           s := Vec.plus t.s (Vec.scale a d.ds), z := Vec.plus t.z (Vec.scale a d.dz) }

/-- One predictor-corrector iteration. The corrected right-hand side is Mehrotra's (log 11). -/
def Qp.iterate (p : Qp) (t : Iterate) : Iterate × Nat :=
  let f := p.factor t
  let gl (i : Nat) := F64.sub (Vec.at t.x i) (p.lo.at i)
  let gu (i : Nat) := F64.sub (p.up.at i) (Vec.at t.x i)
  let m := p.count
  let mu := if m = 0 then 0 else F64.div (p.complementarity t) (F64.ofNat m)
  let ps := mkVec p.m fun i => F64.mul (Vec.at t.s i) (Vec.at t.y i)
  let pl := mkVec p.n fun i => if p.hasLo i then F64.mul (gl i) (t.zl i) else 0
  let pu := mkVec p.n fun i => if p.hasUp i then F64.mul (gu i) (t.zu p.n i) else 0
  let aff := p.stepFor f t (ps.map F64.neg) (pl.map F64.neg) (pu.map F64.neg)
  let reach := F64.min F64.one (p.largestStep t aff)
  let muAff := if m = 0 then 0 else F64.div (p.complementarity (t.move aff reach)) (F64.ofNat m)
  let ratio := if F64.eq mu 0 then 0 else F64.div muAff mu
  let centre := F64.mul (F64.mul ratio (F64.mul ratio ratio)) mu
  let cs := mkVec p.m fun i => F64.sub (F64.sub centre (ps.at i)) (F64.mul (aff.ds.at i) (aff.dy.at i))
  let cl := mkVec p.n fun i => F64.sub (F64.sub centre (pl.at i)) (F64.mul (aff.dx.at i) (aff.dz.at i))
  let cu := mkVec p.n fun i => F64.add (F64.sub centre (pu.at i)) (F64.mul (aff.dx.at i) (aff.dz.at (p.n + i)))
  let d := p.stepFor f t cs cl cu
  let a := F64.min F64.one (F64.mul (f64OfRat 99 100) (p.largestStep t d))
  (p.judge (t.move d a), f.replaced)

/-! ## The loop (R333, R337, R343) -/

/-- The better of two iterates: the lowest merit, the later at a tie (R337). -/
def betterIterate (old : Option Iterate) (new : Iterate) : Iterate :=
  match old with
  | some o => if F64.lt o.merit new.merit then o else new
  | none => new

/-- The progress of a solve. -/
structure Solve where
  cur : Iterate
  iter : Nat := 0
  best : Option Iterate := none
  bestBefore : Option Iterate := none
  pivots : Nat := 0
  /-- 0 CONVERGED, 3 ITER_CAP, 4 NUMERIC. -/
  stop : Option Nat := none

/-- At most `fuel` iterations from where a solve stands. -/
def Qp.run (p : Qp) (cap : Nat) : Nat → Solve → Solve
  | 0, v => if v.cur.converged then { v with stop := some 0 } else if v.iter = cap then { v with stop := some 3 } else v
  | fuel + 1, v =>
    if v.cur.converged then { v with stop := some 0 }
    else if v.iter = cap then { v with stop := some 3 }
    else
      let (t, k) := p.iterate v.cur
      let pivots := v.pivots + k
      if !t.finite then { v with pivots := pivots, stop := some 4 }
      else Qp.run p cap fuel { cur := t, iter := v.iter + 1, best := some (betterIterate v.best t), bestBefore := v.best,
                               pivots := pivots }

/-! ## Jobs (R326-R332) -/

/-- Is an entry one that a job may carry (R326, R327)? -/
def VariantRec.entryOk (v : VariantRec) (e : ChangeEntry) : Bool :=
  match e.target with
  | 0 => decide (e.index < v.nnz) && F64.finite e.value && decide (e.index < v.colptr.getD v.nvar 0)
  | 1 => decide (e.index < v.nvar) && F64.finite e.value
  | 2 => decide (e.index < v.ncon) && !(F64.val e.value == .nan)
  | 3 => decide (e.index < v.nvar) && !(F64.val e.value == .nan)
  | 4 => decide (e.index < v.nvar) && !(F64.val e.value == .nan)
  | 5 => decide (e.index < v.nvar) && F64.finite e.value
  | _ => false

/-- Apply a job's entries (R327). Answers whether the job may run. -/
def State.applyJob (s : State) (j : SolverJob) : State × Bool :=
  match s.variantRec j.variant with
  | none => ({ s with sol.valuesInvalid := true }, false)
  | some v =>
    if !j.full && (s.sol.resident != some j.variant || s.sol.valuesInvalid) || !j.entries.all v.entryOk then
      ({ s with sol.valuesInvalid := true }, false)
    else
      let base : ProblemValues := if j.full then {} else { s.sol.values with start := [] }
      ({ s with sol.values := j.entries.foldl ProblemValues.put base, sol.resident := some j.variant,
                sol.valuesInvalid := if j.full then false else s.sol.valuesInvalid }, true)

/-- Put a cycle job into the queue: at a full queue it replaces the oldest unstarted job (R44, R330). -/
def State.queueCycleJob (s : State) (j : SolverJob) : State :=
  if s.sol.queue.length < 4 then { s with sol.queue := s.sol.queue ++ [j] }
  else match s.sol.queue with
    | [] => s
    | old :: rest =>
      let s := { s with sol.queue := rest ++ [j], res.counters := upd s.res.counters 7 sat32 }
      if old.check then { s with res.checkResult := 3 }
      else { s with sol.valuesInvalid := true, sol.needFull := true }.raiseN 63 (old.cycle % 2 ^ 32)

/-! ## Starting points (R338-R341) -/

/-- The variable that comes one step after a variable; itself at the last step (R339). -/
def VariantRec.laterVar (v : VariantRec) (i : Nat) : Nat :=
  match v.vars[i]? with
  | none => i
  | some d => (v.vars.findIdx? fun e => e.kind == d.kind && e.slice == d.slice && e.comp == d.comp && e.step == d.step + 1).getD i
/-- The row that comes one step after a row: the same place among the rows of its type, family and slice. -/
def VariantRec.laterRow (v : VariantRec) (i : Nat) : Nat :=
  let (ty, fam, sl, st) := v.rowKey i
  let same (step : Nat) := (List.range v.ncon).filter fun k => v.rowKey k == (ty, fam, sl, step)
  match (same st).findIdx? (· == i) with
  | some k => (same (st + 1)).getD k i
  | none => i

/-- An iterate shifted by one step. -/
def VariantRec.shift (v : VariantRec) (t : Iterate) : Iterate :=
  let row (l : List F64) := mkVec v.ncon fun i => Vec.at l (v.laterRow i)
  { t with x := mkVec v.nvar fun i => Vec.at t.x (v.laterVar i), y := row t.y, s := row t.s,
           z := (mkVec v.nvar fun i => Vec.at t.z (v.laterVar i)) ++ mkVec v.nvar fun i => Vec.at t.z (v.nvar + v.laterVar i) }

/-- A primal value inside its bounds (R340). A value on a bound starts WARM_FLOOR inside it, for the gap of R319 divides
(log 11). -/
def startInside (lo up floor x : F64) : F64 :=
  if F64.eq lo up then lo
  else
    let edge (b : F64) := F64.mul floor (F64.max F64.one (F64.abs b))
    let mid := F64.mul F64.half (F64.add lo up)
    let x := if F64.finite lo && F64.le x lo then F64.add lo (edge lo) else x
    let x := if F64.finite up && F64.le up x then F64.sub up (edge up) else x
    if F64.finite lo && F64.finite up && !(F64.lt lo x && F64.lt x up) then mid else x

/-- The starting point from primal values and perhaps duals (R340). -/
def Qp.start (p : Qp) (floor : F64) (x : Vec) (duals : Option (Vec × Vec)) : Iterate :=
  let x := mkVec p.n fun i => startInside (p.lo.at i) (p.up.at i) floor (x.at i)
  let c := p.cx x
  let sl := mkVec p.m fun i => if p.isEq i then 0
    else F64.max (F64.sub (p.b.at i) (c.at i)) (F64.mul floor (F64.max F64.one (F64.abs (p.b.at i))))
  let sl := mkVec p.m fun i => if p.active i then sl.at i else 0
  let (y0, z0) := duals.getD ([], [])
  let y := mkVec p.m fun i => if p.isEq i then y0.at i else if p.active i then F64.max floor (y0.at i) else 0
  let z := (mkVec p.n fun i => if p.hasLo i then F64.max floor (z0.at i) else 0) ++
    mkVec p.n fun i => if p.hasUp i then F64.max floor (z0.at (p.n + i)) else 0
  p.judge { x := x, y := y, s := sl, z := z }

/-- The starting point of a job (R338-R340). -/
def State.startPoint (s : State) (j : SolverJob) (v : VariantRec) (p : Qp) : Iterate :=
  let floor := s.solParams.warmFloor
  let five (i : Nat) : F64 := valAt s.sol.values.start i 0
  let cold := p.start floor (mkVec p.n five) none
  if j.startCold then cold
  else match s.sol.kept with
    | none => cold
    | some (from_, t, duals) =>
      if j.startMapped then
        match s.variantRec from_, s.image.loaded.bind (fun i => i.maps.find? fun q => q.from_ == from_ && q.dest == j.variant) with
        | some f, some map =>
          let x := (f.shift t).x
          p.start floor (mkVec p.n fun i => match map.entries.getD i 0xFFFF with
            | 0xFFFF => five i
            | k => Vec.at x k) none
        | _, _ => cold
      else
        let t := v.shift t
        p.start floor t.x (if duals then some (t.y, t.z) else none)

/-- The iteration cap of a job (R338). -/
def State.jobCap (s : State) (j : SolverJob) : Nat :=
  let c := s.cyc.iterCap
  if j.startCold || j.startMapped then min (2 * c) 200 else c

/-! ## Build (R284-R297, R326, R328, R340) -/

/-- The starting value the law sends for a variable (R340): thrust over RATED_THRUST. -/
def State.startValue (s : State) (d : VarDesc) : F64 :=
  let f := s.obsOut.forces.getD d.slice (0, 0)
  let rated := ((s.thrusters.find? (·.slice == d.slice)).map fun r => F64.of32 r.rated).getD F64.one
  if d.kind = 1 then F64.div (F64.of32 f.1) rated
  else if d.kind = 2 then F64.div (F64.of32 f.2) rated
  else if d.kind = 3 then Vec.at s.obsOut.estX d.comp
  else 0

/-- The variables for which a job carries a TARGET 5 value. -/
def State.startTargets (s : State) (v : VariantRec) (cold : Bool) (from_ : Nat) : List Nat :=
  let all := List.range v.nvar
  if cold then all
  else match s.image.loaded.bind (fun i => i.maps.find? fun q => q.from_ == from_ && q.dest == v.number) with
    | some map => all.filter fun i => map.entries.getD i 0xFFFF == 0xFFFF
    | none => all

/-- Write the change set of cycle k into the queue (R326, R328, R338). -/
def State.queueBuild (s : State) (m : Mode) (v : VariantRec) (tk : Nat) : State :=
  let full := s.sol.needFull
  let (cold, mapped, from_) : Bool × Bool × Nat := match s.sol.kept with
    | none => (true, false, 0xFF)
    | some (w, _, _) => if w = v.number then (false, false, 0xFF) else (false, true, w)
  let all := (s.problem m v tk).entries
  let sent := if full then all else all.filter fun e => s.sol.lastSent.get? e.target e.index != some e.value
  let five : List ChangeEntry := if cold || mapped then
      (s.startTargets v cold from_).map fun i => { target := 5, index := i, value := s.startValue (v.vars.getD i {}) }
    else []
  let job : SolverJob := { variant := v.number, full := full, startCold := cold, startMapped := mapped,
                           fromVariant := from_, cycle := s.cycle.count, deadline := tk + s.cyc.deadline,
                           entries := sent ++ five }
  { s with sol.lastSent := all.foldl ProblemValues.put {}, sol.needFull := false }.queueCycleJob job

/-- The code of a positioning mode in LAW_STATUS (R314). -/
def Mode.lawCode (m : Mode) : BitVec 4 := match m.posIndex with | some i => BitVec.ofNat 4 (i + 1) | none => 0

/-- The Build of a cycle (R36): the writes to the law take effect; in a positioning mode the problem is built. -/
def State.build (s : State) (tk : Nat) (posReset hdgReset : Bool) : State :=
  let s := s.applyLawWrites.filterWind
  let m := s.modes.mode
  match s.chosenVariant m with
  | none => s.judgeThrusters none tk
  | some v =>
    let changed := s.law.variant != some v.number
    let s := if changed && s.law.variant.isSome then s.raise 54 else s
    let s := if changed then { s with law.variant := some v.number, sol.needFull := true } else s
    let s := if changed || posReset || hdgReset then { s with law.freshEntry := true } else s
    let pos := m == .station || m == .track
    let s := if posReset && pos then s.restartPosRef else s
    let s := if hdgReset && m != .joystick then s.restartHdgRef else s
    let s := s.judgePause m
    let now := tk + s.cyc.commandAt
    let ended := s.law.track.ended
    let q := s.stepRef m s.refNow (now - s.cyc.period) now
    let s := s.putRef (q.hold s.refNow (s.law.entered || (posReset && pos)) (s.law.entered || hdgReset))
    let s := if s.law.track.ended && !ended then s.raiseN 59 0xFFFF else s
    let s := { s with law.settled := s.refSettled m, law.setAt := now }
    let s := if m == .joystick then s else s.positionAlarms m
    let s := s.judgeThrusters (some v) tk
    let (lim, stale) := s.powerLimit tk
    let s := { s with law.power.pLim := lim, law.power.stale := stale, law.lawMode := m.lawCode,
                      dyn.lin := s.linearisation v.horizon }
    let s := { s with law.power.lines := (s.variantThrusters v).map fun (r : ThrusterRec) => (r.slice, s.powerLine r tk 0) }
    s.queueBuild m v tk

end Sys2Proof.Machine
end

