-- ==== Sys2Proof/Machine/Flags.lean ====
section
/-! DEFINITION. The packed status words and the structured read-only objects of the cycle's islands, EST, the law and SOL
(spec/06_reference_fusion.md, R239-R242; spec/07_vessel_observer.md, R273, R274; spec/08_station_keeping_law.md, R313-R316;
spec/09_allocation_solver.md, R358-R360). -/

namespace Sys2Proof.Machine

/-- A word from fields: (value, width, lowest bit); a value beyond its width saturates. -/
def packWord (fs : List (Nat × Nat × Nat)) : Word :=
  BitVec.ofNat 32 (fs.foldl (fun a (v, w, b) => a + min v (2 ^ w - 1) * 2 ^ b) 0)
/-- A flag as a field of one bit. -/
def flagField (b : Bool) (bit : Nat) : Nat × Nat × Nat := (if b then 1 else 0, 1, bit)
/-- An FP64 as FP32 bytes. -/
def f32Bytes (x : F64) : List Byte := be32 (F64.to32 x)

/-! ## Fusion -/

/-- REF_STATUS (R240). -/
def State.refStatus (s : State) (r : Nat) : Word :=
  let q := at? s.fusion.refs r
  -- the count of a voter without a consensus is the kind's (log 8)
  let consec := if q.state == 3 && q.consec = 0 then s.noConsensus (decide (12 ≤ r)) else q.consec
  packWord [(((s.refSlice r).map (·.principle)).getD 0, 4, 24), (consec, 8, 16), flagField q.noMotion 15,
    flagField q.atEnvelope 14, flagField (q.refineAtBound || q.leverAtBound) 13, flagField q.lateInFrame 12, flagField q.copySplit 11,
    (q.cause.toNat, 3, 8), (q.state.toNat, 4, 0)]

/-- REF_AGE: t_k + C minus the stamp of the newest sample used, saturating (R239). -/
def State.refAge (s : State) (r : Nat) : Word :=
  match (at? s.fusion.refs r).newest with
  | some x => BitVec.ofNat 32 (min 0xFFFFFFFF (s.cycle.tk + s.cyc.commandAt - x.stamp))
  | none => 0xFFFFFFFF

/-- REF_COUNTERS (R239). -/
def State.refCounters (s : State) (r : Nat) : List Byte :=
  let q := at? s.fusion.refs r
  nat32 q.cntLate ++ nat32 q.cntLateDropped ++ nat32 q.cntSuperseded ++ nat32 q.cntFuture ++ nat32 q.cntInvalid

/-- REF_RESIDUAL (R239). -/
def State.refResidual (s : State) (r : Nat) : List Byte :=
  let q := at? s.fusion.refs r
  be32 q.resN ++ be32 q.resE ++ be32 q.resDist ++ be32 q.sigmaEff

/-- REFINEMENT (R239). -/
def State.refinement (s : State) (r : Nat) : List Byte :=
  let b := (at? s.fusion.sets r).b
  f32Bytes (Vec.at b 0) ++ f32Bytes (Vec.at b 1) ++ f32Bytes (Vec.at b 2) ++ zeros 4

/-- ASSOC_RESULT (R239). -/
def State.assocResult (s : State) (r : Nat) : List Byte :=
  let c := at? s.fusion.sets r
  nat8 c.assocCount ++ nat8 c.assocN ++ zeros 2 ++ c.assoc

/-- FUSION_SUMMARY (R242). -/
def State.fusionSummary (s : State) : Word :=
  let f := s.fusion
  packWord [(f.posVoters, 4, 28), (f.posGroups, 4, 24), (f.posInside, 4, 20), flagField f.posSole 16,
    flagField f.posValid 15, (f.hdgVoters, 3, 12), (f.hdgGroups, 3, 9), flagField f.hdgSole 8, flagField f.hdgValid 7]

/-- CONSENSUS (R241). -/
def State.consensusBytes (s : State) : List Byte :=
  nat64 s.fusion.consensusAt ++ be64 s.fusion.mN ++ be64 s.fusion.mE ++ be64 s.fusion.mPsi

/-! ## The observer -/

/-- OBS_STATUS (R274). -/
def State.obsStatus (s : State) : Word :=
  let o := s.obs
  packWord [(max o.rejectRunPos o.rejectRunHdg, 8, 24), flagField o.windMissing 15, flagField (s.obsOut.commandMask != 0) 14,
    flagField o.clockActive 13, flagField o.tight 12, flagField o.overrun 11, flagField o.limitReached 10,
    flagField o.hdgDr 9, flagField o.posDr 8, (o.state.toNat, 2, 0)]

/-- OBS_ESTIMATE (R273). -/
def State.obsEstimate (s : State) : List Byte :=
  let x : Vec := s.obsOut.estX
  let f (i : Nat) := f32Bytes (x.at i)
  nat64 s.obsOut.estAt ++ be64 (x.at 0) ++ be64 (x.at 1) ++ be64 (F64.wrap2Pi (x.at 2)) ++ f 3 ++ f 4 ++ f 5 ++ f 7 ++ f 9 ++
    f 11 ++ f 12 ++ f 13 ++ f 14

/-- OBS_UNCERTAINTY (R273). -/
def State.obsUncertainty (s : State) : List Byte :=
  let o := s.obsOut
  f32Bytes o.posSigmaMajor ++ f32Bytes o.posSigmaMinor ++ f32Bytes o.majorDir ++ f32Bytes o.hdgSigma ++ f32Bytes o.velSigma ++
    f32Bytes o.yawSigma ++ f32Bytes o.biasSigmaNow ++ be32 o.timeToLimit

/-- OBS_CLOCK (R273): offsets and σ in ns against the reference system. -/
def State.obsClock (s : State) : List Byte :=
  let x : Vec := s.obs.x
  let n := s.obsDim
  let p := Mat.ofFlat n n s.obs.p
  let row (sys : Nat) : List Byte := match deltaState s.gnss.timeSystemInUse.toNat sys with
    | some i => f32Bytes (F64.neg (F64.div (x.at i) metresPerNs)) ++ f32Bytes (F64.div (F64.sqrt (p.at i i)) metresPerNs)
    | none => zeros 8
  be64 (x.at 16) ++ f32Bytes (x.at 17) ++ f32Bytes (x.at 15) ++ row 0 ++ row 1 ++ row 2 ++ row 3

/-- OBS_COUNTERS (R273). -/
def State.obsCounters (s : State) : List Byte :=
  let o := s.obsOut
  nat32 o.posUpdates ++ nat32 o.hdgUpdates ++ nat32 o.rawUpdates ++ nat32 o.gateRejects ++ nat32 o.resets ++
    nat32 o.delayedUpdates

/-- OBS_FORCES (R273). -/
def State.obsForces (s : State) : List Byte :=
  let w : Vec := s.obs.wind
  nat64 s.obsOut.forcesAt ++ f32Bytes (w.at 0) ++ f32Bytes (w.at 1) ++ f32Bytes (w.at 2) ++ be16 s.obsOut.commandMask ++
    be16 s.obsOut.zeroMask ++ (s.obsOut.forces.map fun q => be32 q.1 ++ be32 q.2).flatten

/-! ## The law -/

/-- LAW_STATUS (R314). -/
def State.lawStatus (s : State) : Word :=
  let l := s.law
  packWord [(l.lawMode.toNat, 4, 28), (if s.modes.mode.positioning then l.variant.getD 15 else 15, 4, 24), flagField l.power.active 15, flagField l.power.stale 14,
    flagField l.joyStale 13, flagField l.track.lost 12, flagField l.track.paused 11, flagField l.track.ended 10,
    flagField l.posAlarm 9, flagField l.hdgAlarm 8, flagField l.originValid 7, flagField l.settled 6,
    flagField l.saturated 5, flagField (l.thr.toList.any (·.inSector)) 4]

/-- SETPOINT (R313). -/
def State.setpointBytes (s : State) : List Byte :=
  let l := s.law
  nat64 l.setAt ++ be64 l.setN ++ be64 l.setE ++ be64 l.setPsi ++ be64 l.originLat ++ be64 l.originLon ++ be64 l.originH

/-- REFERENCE (R313). -/
def State.referenceBytes (s : State) : List Byte :=
  let d := s.dyn
  nat64 s.law.setAt ++ be64 d.refN ++ be64 d.refE ++ be64 d.refPsi ++ f32Bytes d.refVn ++ f32Bytes d.refVe ++
    f32Bytes d.refR ++ zeros 4

/-- POWER_STATE (R313). -/
def State.powerStateBytes (s : State) : List Byte :=
  let p := s.law.power
  nat64 p.stateAt ++ be32 p.pLim ++ be32 p.truePower ++ be32 p.linPower ++ be32 p.slack0

/-- A waypoint record (R304). -/
def Waypoint.bytes (w : Waypoint) : List Byte :=
  be64 w.north ++ be64 w.east ++ be32 w.speed ++ be32 w.heading ++ be8 w.flags ++ zeros 7
/-- A path of R304: COUNT, then 32 records. -/
def pathBytes (count : Nat) (l : List Waypoint) : List Byte :=
  nat8 count ++ zeros 3 ++ ((List.range 32).map fun i => match l[i]? with | some w => w.bytes | none => zeros 32).flatten

/-- TRACK_PROGRESS (R313). -/
def State.trackProgress (s : State) : List Byte :=
  let x : Vec := s.obsOut.estX
  let t := s.law.track
  nat8 t.leg ++ nat8 t.reached ++ zeros 2 ++ f32Bytes t.along ++
    f32Bytes (norm2 (F64.sub (x.at 0) s.dyn.refN, F64.sub (x.at 1) s.dyn.refE)) ++ f32Bytes (norm2 (s.dyn.refVn, s.dyn.refVe))

/-- THR_STATUS (R316). -/
def ThrusterLaw.status (t : ThrusterLaw) : Word :=
  packWord [flagField t.inVariant 7, flagField t.available 6, flagField (!t.enable) 5, flagField t.safOff 4,
    flagField t.noFeedback 3, flagField t.inSector 2, flagField t.azHeld 1, flagField t.atEdge 0]
/-- THR_COMMAND (R315). -/
def ThrusterLaw.command (t : ThrusterLaw) : List Byte :=
  nat64 t.cmdAt ++ be32 t.fx ++ be32 t.fy ++ be32 t.cmd.azimuth ++ be32 t.cmd.pitch ++ be32 t.cmd.speed ++ be32 t.cmd.thrust ++
    be32 t.power ++ be8 t.result ++ zeros 3

/-! ## The solver -/

/-- SOL_STATUS (R359). -/
def State.solStatus (s : State) : Word :=
  let r := s.res
  packWord [(r.result.toNat, 4, 28), (s.sol.resident.getD 15, 4, 24), (r.stopReason.toNat, 4, 20), (r.startKind.toNat, 2, 18),
    flagField r.fallback 17, flagField r.degraded 16, flagField s.sol.valuesInvalid 15, flagField s.sol.running.isSome 14,
    (r.successRun, 4, 8), (r.iterations, 8, 0)]

/-- Bytes 12 to 19 of SOLVE_RESULT, which the digest of R496 takes. -/
def State.solveResultCore (s : State) : List Byte :=
  let r := s.res
  be8 (r.result.setWidth 8) ++ be8 (r.stopReason.setWidth 8) ++ be8 (r.startKind.setWidth 8) ++ be8 r.flags ++
    nat16 r.iterations ++ nat16 r.agreed
/-- SOLVE_RESULT (R360). -/
def State.solveResult (s : State) : List Byte :=
  let r := s.res
  nat64 r.time ++ nat32 r.cycle ++ s.solveResultCore ++ nat32 r.solveTime ++ (r.residuals.map be32).flatten ++
    be32 r.violation ++ be32 r.truePower ++ be32 r.powerBound ++ be64 r.objective ++ nat16 r.staticPivots ++ zeros 6

/-- The columns of L below the diagonal, in elimination order, from the pattern alone: a column takes the rows of every
earlier column that reaches it (R321, R325). -/
def VariantRec.columns (v : VariantRec) : List (List Nat) :=
  let n := v.nvar + v.ncon
  let inv := (List.range n).map fun r => (v.order.findIdx? (· == r)).getD n
  let places := v.places.map fun (r, c) => (max (inv.getD r n) (inv.getD c n), min (inv.getD r n) (inv.getD c n))
  (List.range n).foldl (fun (cols : List (List Nat)) j =>
    let own := (places.filter fun q => q.2 == j && q.1 != j).map (·.1)
    let from_ := (cols.filter (·.contains j)).flatMap fun c => c.filter (j < ·)
    cols ++ [(own ++ from_).eraseDups]) []

/-- Cycles of the factorisation by the schedule, and its waves (R354): each wave's largest PE sum plus 16. L_j counts the
entries of column j with its pivot (log 11). -/
def VariantRec.factorCycles (v : VariantRec) : Nat × Nat :=
  let cols := v.columns
  let cost (w : BitVec 64) : Nat :=
    let len := (cols.getD ((w >>> (38 : Nat)).toNat % 2 ^ 14) []).length + 1
    match (w >>> (60 : Nat)).toNat with
    | 1 => 8 + len | 2 => 12 + len | 3 => 20 + len | _ => 0
  let zero : Vector Nat 64 := .replicate 64 0
  let (sum, waves, _) := v.program.foldl (fun (a : Nat × Nat × Vector Nat 64) (w : BitVec 64) =>
    let (sum, waves, pe) := a
    if (w >>> (60 : Nat)).toNat = 4 then (sum + pe.toList.foldl max 0 + 16, waves + 1, zero)
    else (sum, waves, upd pe ((w >>> (54 : Nat)).toNat % 64) (· + cost w))) (0, 0, zero)
  (sum, waves)

/-- Cycles of the 597 MHz PE clock in ns, rounded up (R354). -/
def peNs (c : Nat) : Nat := (c * 1000 + 596) / 597

/-- Rows and finite bounds m of R354; every variable is taken to have both bounds (log 11). -/
def VariantRec.boundCount (v : VariantRec) : Nat :=
  ((List.range v.ncon).filter fun i => (v.rowKey i).1 == 1).length + 2 * v.nvar

/-- FACTOR_TIME_MAX and ITER_TIME_MAX (R354). -/
def VariantRec.iterTimes (v : VariantRec) : Nat × Nat :=
  let (fc, waves) := v.factorCycles
  let n := v.nvar + v.ncon
  let solve := 2 * ((v.lnz + 63) / 64) + 40 * waves
  let prod := (2 * v.nnz + 63) / 64 + 24
  let last := 12 * ((n + v.boundCount + 63) / 64) + 200
  (peNs fc, peNs (fc + 6 * solve + 4 * prod + last))
/-- The number of entries of a FULL job. -/
def VariantRec.fullEntries (v : VariantRec) : Nat := v.nnz + 3 * v.nvar + v.ncon
/-- FULL_TIME_MAX: 2 µs + 5 ns per entry (R327). -/
def VariantRec.fullTime (v : VariantRec) : Nat := 2000 + 5 * v.fullEntries
/-- START_TIME_MAX (R355). -/
def VariantRec.startTime (v : VariantRec) : Nat := Config.startTime v.nvar v.ncon v.nnz
/-- SOLVE_BOUND at the doubled cap (R355, R358). -/
def VariantRec.solveBound (v : VariantRec) (cap : Nat) : Nat :=
  v.fullTime + v.startTime + min (2 * cap) 200 * v.iterTimes.2
/-- VARIANT_INFO (R358). -/
def VariantRec.info (v : VariantRec) (cap : Nat) : List Byte :=
  nat8 v.horizon ++ be8 v.modes ++ be16 v.thrusters ++ nat16 v.nvar ++ nat16 v.ncon ++ nat32 v.nnz ++ nat32 v.lnz ++
    nat32 v.schedule.length ++ nat32 v.fullTime ++ nat32 v.startTime ++ nat32 v.iterTimes.2 ++ nat32 v.iterTimes.1 ++
    nat32 (v.solveBound cap)

end Sys2Proof.Machine
end

