-- ==== Sys2Proof/Machine/Allocate.lean ====
section
/-! DEFINITION. What Accept chooses: the acceptance test, the plan, the safety-net solution and the fallback allocator
(spec/09_allocation_solver.md, R345-R353). -/

namespace Sys2Proof.Machine

/-- The thrust of each step of each slice: index by slice, then by step. -/
abbrev Thrusts := List (List (F64 × F64))

/-- The thrust of a slice at a step. -/
def Thrusts.at (t : Thrusts) (slice j : Nat) : F64 × F64 := (t.getD slice []).getD j (0, 0)

/-- A variable's value; 0 where the variant has none. -/
def VariantRec.varAt (v : VariantRec) (x : Vec) (kind slice step comp : Nat) : F64 :=
  match v.varIndex kind slice step comp with | some i => x.at i | none => 0

/-- The thrust a primal point stands for: thrust variables times RATED_THRUST (R318). -/
def State.thrustOf (s : State) (v : VariantRec) (x : Vec) : Thrusts :=
  (List.range 16).map fun sl => match (s.variantThrusters v).find? (·.slice == sl) with
    | none => []
    | some r => (List.range v.horizon).map fun j =>
      (F64.mul (F64.of32 r.rated) (v.varAt x 1 sl j 0), F64.mul (F64.of32 r.rated) (v.varAt x 2 sl j 0))

/-- The thrusters of a variant that are available. -/
def State.availableThrusters (s : State) (v : VariantRec) : List ThrusterRec :=
  (s.variantThrusters v).filter fun r => (at? s.law.thr r.slice).available

/-- The true step-0 power: the sum of the POWER curves (R293). -/
def State.truePower (s : State) (v : VariantRec) (t : Thrusts) (scale : F64) : F64 :=
  (s.availableThrusters v).foldl (fun a r =>
    F64.add a (r.powerAt (r.magnitude (scale2 scale (t.at r.slice 0))))) 0
/-- The linearised step-0 power, by the lines of the Build (R293). -/
def State.linearPower (s : State) (v : VariantRec) (t : Thrusts) : F64 :=
  (s.availableThrusters v).foldl (fun a r =>
    let (k, d, c) := ((s.law.power.lines.find? (·.1 == r.slice)).map (·.2)).getD default
    let f := t.at r.slice 0
    F64.add a (F64.add (F64.mul k (F64.add (F64.mul d.1 f.1) (F64.mul d.2 f.2))) c)) 0

/-- s_0 of a primal point, in W (R293, R318). -/
def State.slackOf (s : State) (v : VariantRec) (x : Vec) : F64 := F64.mul (v.varAt x 5 0xFF 0 0) (s.powerScale v)

/-- What the acceptance test finds. -/
structure Verdict where
  passed : Bool := false
  /-- Largest violation over F_i. -/
  violation : F64 := 0
  power : F64 := 0
  bound : F64 := 0
  slack : F64 := 0

/-- The acceptance test of R345. -/
def State.acceptance (s : State) (v : VariantRec) (p : Qp) (x : Vec) (tk : Nat) : Verdict :=
  let t := s.thrustOf v x
  let viol := (s.variantThrusters v).foldl (fun m r =>
    let region := s.regionOf r
    (List.range v.horizon).foldl (fun m j =>
      let f := t.at r.slice j
      let out := outsideBy region f
      let out := match s.wedge r tk (s.stepEnd j) with
        | some w => F64.max out (wedgeOutsideBy w f)
        | none => out
      F64.max m (F64.div out (F64.of32 r.rated))) m) 0
  let fixedOk := (List.range p.n).all fun i => !p.fixed i || F64.eq (x.at i) (p.lo.at i)
  let slack := s.slackOf v x
  let power := s.truePower v t F64.one
  let lim := F64.of32 s.law.power.pLim
  let bound := F64.add (F64.add s.powerBound slack) (F64.mul (f64OfRat 1 100) lim)
  let powerOk := !F64.finite lim || F64.le power bound
  { passed := F64.le viol (f64OfRat 1 100) && fixedOk && powerOk, violation := viol, power := power, bound := bound,
    slack := slack }

/-! ## The safety net (R348) -/

/-- The largest factor in [0, 1] that keeps the true step-0 power within a limit: 1 where that does, else 16 steps of
bisection. -/
def bisectFactor (ok : F64 → Bool) : F64 :=
  if ok F64.one then F64.one
  else ((List.range 16).foldl (fun (q : F64 × F64) _ =>
    let mid := F64.mul F64.half (F64.add q.1 q.2)
    if ok mid then (mid, q.2) else (q.1, mid)) (0, F64.one)).1

/-- The bound of R348 step 3: max(P_lim, P_idle). -/
def State.netBound (s : State) (v : VariantRec) : F64 :=
  F64.max (F64.of32 s.law.power.pLim) ((s.availableThrusters v).foldl (fun a r => F64.add a (r.powerAt 0)) 0)
/-- The factor of R348 step 3. -/
def State.powerFactor (s : State) (v : VariantRec) (t : Thrusts) : F64 :=
  bisectFactor fun a => F64.le (s.truePower v t a) (s.netBound v)

/-- Multiply every thrust. -/
def Thrusts.scale (t : Thrusts) (a : F64) : Thrusts := t.map fun l => l.map (scale2 a)

/-- The safety-net solution and its factor (R348). -/
def State.safetyNet (s : State) (v : VariantRec) : Thrusts × F64 :=
  let base : Thrusts := match s.sol.plan with
    | some p => (List.range 16).map fun sl =>
        let l := p.thrust.getD sl []
        (List.range v.horizon).map fun j => if l.isEmpty then (0, 0) else l.getD (min (j + 1) (l.length - 1)) (0, 0)
    | none => (List.range 16).map fun sl => List.replicate v.horizon (s.previousThrust sl)
  let t : Thrusts := base.mapIdx fun sl l =>
    if v.thrusters.getLsbD sl && (at? s.law.thr sl).available then l else l.map fun _ => (0, 0)
  let a := s.powerFactor v t
  (t.scale a, a)

/-! ## The fallback allocator (R352, R353) -/

/-- The fallback demand (R352). -/
def State.fallbackDemand (s : State) (m : Mode) (v : VariantRec) (tk : Nat) : Vec :=
  let x : Vec := s.obsOut.estX
  let psi := x.at 2
  let back := Mat.tr 3 3 (rotZ psi)
  let ep := back.app [F64.sub s.dyn.refN (x.at 0), F64.sub s.dyn.refE (x.at 1), 0]
  let e : Vec := [ep.at 0, ep.at 1, F64.wrapPi (F64.sub s.dyn.refPsi psi)]
  let vr := back.app [s.dyn.refVn, s.dyn.refVe, 0]
  let dv : Vec := [F64.sub (vr.at 0) (x.at 3), F64.sub (vr.at 1) (x.at 4), F64.sub s.dyn.refR (x.at 5)]
  let b := back.app [x.at 12, x.at 13, x.at 14]
  let ff := s.windFf
  let w (i : Nat) := F64.of32 (if i < 2 then s.solParams.fbBandwidth else s.solParams.fbYawBandwidth)
  let md (i : Nat) := s.hull.mass.getD (4 * i) 0
  let zeta := f64OfRat 9 10
  let row (i : Nat) : F64 :=
    let k := F64.add (F64.mul (F64.mul (w i) (w i)) (e.at i))
      (F64.mul (F64.mul F64.two (F64.mul zeta (w i))) (dv.at i))
    F64.sub (F64.sub (F64.mul (md i) k) (b.at i)) (Vec.at ff i)
  let dem := s.demand m v (tk + s.cyc.commandAt)
  match m with
  | .joystick => dem
  | .autohead => [dem.at 0, dem.at 1, row 2]
  | _ => [row 0, row 1, row 2]

/-- One unknown of the allocation: a thruster and its component, 0 F_x or 1 F_y. -/
def unknownsOf (rs : List ThrusterRec) : List (ThrusterRec × Nat) :=
  rs.flatMap fun r => if r.type_ = 0 then [(r, 1)] else [(r, 0), (r, 1)]

/-- The column of B of an unknown. -/
def unknownColumn (u : ThrusterRec × Nat) : Vec :=
  if u.2 = 0 then generalised u.1.x u.1.y F64.one 0 else generalised u.1.x u.1.y 0 F64.one

/-- Weighted least norm (R353 step 2): the thrust of each thruster. -/
def leastNorm (rs : List ThrusterRec) (tau : Vec) : List (Nat × (F64 × F64)) :=
  let us := unknownsOf rs
  let wi (u : ThrusterRec × Nat) : F64 := F64.mul (F64.of32 u.1.rated) (F64.of32 u.1.rated)
  let m := mkMat 3 3 fun i j => us.foldl (fun a u =>
    let c := unknownColumn u
    F64.add a (F64.mul (c.at i) (F64.mul (wi u) (c.at j)))) 0
  let mean := F64.div (F64.add (F64.add (m.at 0 0) (m.at 1 1)) (m.at 2 2)) (F64.ofNat 3)
  let small := F64.mul (f64OfRat 1 1000000) mean
  -- the pivots of elimination without regularisation
  let p0 := m.at 0 0
  let r1 := F64.div (m.at 1 0) p0
  let p1 := F64.sub (m.at 1 1) (F64.mul r1 (m.at 0 1))
  let a21 := F64.sub (m.at 2 1) (F64.mul (F64.div (m.at 2 0) p0) (m.at 0 1))
  let a12 := F64.sub (m.at 1 2) (F64.mul r1 (m.at 0 2))
  let p2 := F64.sub (F64.sub (m.at 2 2) (F64.mul (F64.div (m.at 2 0) p0) (m.at 0 2))) (F64.mul (F64.div a21 p1) a12)
  let weak := !(F64.le small p0 && F64.le small p1 && F64.le small p2)
  let m := if weak then mkMat 3 3 fun i j => if i = j then F64.add (m.at i j) small else m.at i j else m
  let k := (Mat.inv 3 m).app tau
  let val (u : ThrusterRec × Nat) : F64 := F64.mul (wi u) (Vec.dot (unknownColumn u) k)
  rs.map fun r => (r.slice, if r.type_ = 0 then (0, val (r, 1)) else (val (r, 0), val (r, 1)))

/-- Scale a thrust radially onto the boundary of a region, by bisection of the factor. -/
def ontoRegion (region : List (F64 × F64)) (f : F64 × F64) : F64 × F64 :=
  scale2 (((List.range 52).foldl (fun (q : F64 × F64) _ =>
    let mid := F64.mul F64.half (F64.add q.1 q.2)
    if F64.le (outsideBy region (scale2 mid f)) 0 then (mid, q.2) else (q.1, mid)) (0, F64.one)).1) f

/-- The passes of R353 step 3: at most three. -/
def State.fallbackPasses (s : State) (tau : Vec) : Nat → List ThrusterRec → List (ThrusterRec × (F64 × F64)) →
    List (Nat × (F64 × F64))
  | 0, _, held => held.map fun q => (q.1.slice, q.2)
  | n + 1, free, held =>
    let rest := Vec.minus tau (generalisedSum held)
    let sol := leastNorm free rest
    let of (r : ThrusterRec) : F64 × F64 := ((sol.find? (·.1 == r.slice)).map (·.2)).getD (0, 0)
    let out := free.filter fun r => F64.lt 0 (outsideBy (s.regionOf r) (of r))
    let all := held.map (fun q => (q.1.slice, q.2)) ++ sol
    if out.isEmpty then all
    else
      let fixed := out.map fun r => (r, ontoRegion (s.regionOf r) (of r))
      let keep := free.filter fun r => !out.contains r
      if n = 0 then (held ++ fixed).map (fun q => (q.1.slice, q.2)) ++ keep.map fun r => (r.slice, of r)
      else s.fallbackPasses tau n keep (held ++ fixed)

/-- R353 step 4: the change of direction limited; a direction inside a sector moves to the nearer edge, keeping its
projection onto it. -/
def State.limitTurn (s : State) (r : ThrusterRec) (f : F64 × F64) : F64 × F64 :=
  if !r.turns || F32.le r.azRateMax 0 then f
  else
    let prev := F64.of32 (s.heldAzimuth r)
    let m := norm2 f
    let lim := F64.mul (F64.of32 r.azRateMax) (secondsOf s.cyc.period)
    let d := F64.wrapPi (F64.sub (F64.atan2 f.2 f.1) prev)
    let a := F64.add prev (F64.clamp d (F64.neg lim) lim)
    match r.sectors.find? (inSector a) with
    | none => (F64.mul m (F64.cos a), F64.mul m (F64.sin a))
    | some q =>
      let edge := nearerEdge a q
      let k := F64.max 0 (F64.mul m (F64.cos (F64.sub a edge)))
      (F64.mul k (F64.cos edge), F64.mul k (F64.sin edge))

/-- The fallback allocator's output, held over the horizon (R346, R353). -/
def State.fallbackOutput (s : State) (m : Mode) (v : VariantRec) (tk : Nat) : Thrusts :=
  let rs := s.availableThrusters v
  let raw := s.fallbackPasses (s.fallbackDemand m v tk) 3 rs []
  let t : Thrusts := (List.range 16).map fun sl =>
    match rs.find? (·.slice == sl) with
    | some r =>
      let f := s.limitTurn r (((raw.find? (·.1 == sl)).map (·.2)).getD (0, 0))
      List.replicate v.horizon f
    | none => List.replicate v.horizon (0, 0)
  t.scale (s.powerFactor v t)

/-! ## Applying an outcome (R310, R311, R342, R346, R349) -/

/-- The states of a plan that has only thrust (R342). -/
def State.planStates (s : State) (m : Mode) (v : VariantRec) (t : Thrusts) : List Vec :=
  rollForward (s.stepModels m v.horizon)
    (fun j => generalisedSum ((s.variantThrusters v).map fun r => (r, t.at r.slice j))) (s.obsOut.estX.take 6)

/-- The primal point that a plan gives as a kept iterate (R339): its thrust and its states; 0 elsewhere. -/
def State.planIterate (s : State) (v : VariantRec) (p : Plan) : Iterate :=
  let rated (sl : Nat) : F64 := ((s.thrusters.find? (·.slice == sl)).map fun r => F64.of32 r.rated).getD F64.one
  { x := v.vars.map fun d =>
      let f := (p.thrust.getD d.slice []).getD d.step (0, 0)
      if d.kind = 1 then F64.div f.1 (rated d.slice)
      else if d.kind = 2 then F64.div f.2 (rated d.slice)
      else if d.kind = 3 then Vec.at (p.states.getD d.step []) d.comp
      else 0 }

/-- Form the set-points of a cycle from a step-0 thrust, and what the thrusters report (R290, R310, R312, R315, R347). -/
def State.formSets (s : State) (t : Thrusts) (result : Nat) : State × List ThrusterSet :=
  s.thrusters.foldl (fun (a : State × List ThrusterSet) r =>
    let s := a.1
    let q := at? s.law.thr r.slice
    let f := if !q.inVariant || !q.available || q.safOff then (0, 0) else t.at r.slice 0
    let (set, held) := s.formSet r f
    let tol := F64.mul (f64OfRat 1 100) (F64.of32 r.rated)
    let edge := q.available && nearBoundary (s.regionOf r) tol f
    let s := s.setThr r.slice fun q =>
      { q with cmdAt := s.cycle.tk + s.cyc.commandAt, fx := set.fx, fy := set.fy, cmd := set, azHeld := held, atEdge := edge,
               edgeCycles := if edge then q.edgeCycles + 1 else 0, power := F64.to32 (r.powerAt (r.magnitude f)),
               result := BitVec.ofNat 8 result }
    (s, a.2 ++ [set])) (s, [])

/-- Write SRV's command snapshot for cycle k (R36, R42, R445). -/
def State.writeSnapshot (s : State) (sets : List ThrusterSet) (armed : Bool) : State :=
  let seq := s.cycle.seqWritten + 1
  { s with cycle.back := some { seq := seq, armed := armed, cycle := s.cycle.count, setpoints := sets },
           cycle.seqWritten := seq, cycle.acceptDone := true, modes.armed := armed }

/-- The power report of R293 and what R295 watches. -/
def State.reportPower (s : State) (v : VariantRec) (t : Thrusts) (slack : F64) : State :=
  let lin := s.linearPower v t
  let bound := s.powerBound
  let near := F64.finite bound && F64.le (F64.mul (f64OfRat 995 1000) bound) lin
  let binding := near || F64.lt 0 slack
  let at_ := s.cycle.tk + s.cyc.commandAt
  -- a second report in one cycle replaces the first
  let base := if s.law.power.stateAt = at_ then s.law.power.releasedBase else s.law.power.releasedCycles
  { s with law.power.truePower := F64.to32 (s.truePower v t F64.one), law.power.linPower := F64.to32 lin,
           law.power.slack0 := F64.to32 slack, law.power.stateAt := at_, law.power.releasedBase := base,
           law.power.bindingNow := binding, law.power.releasedCycles := if binding then 0 else base + 1 }

/-- The cycle applies a thrust with a RESULT: set-points, plan, counters of SOL_COUNTERS (R346, R358). `states`: those of
a converged solution. -/
def State.applyThrust (s : State) (m : Mode) (v : VariantRec) (t : Thrusts) (states : Option (List Vec)) (result : Nat)
    (slack : F64) : State :=
  let st := states.getD (s.planStates m v t)
  let (s, sets) := s.formSets t result
  let s := s.reportPower v t slack
  let s := s.writeSnapshot sets true
  { s with sol.plan := some { variant := v.number, thrust := t, states := st }, dyn.trajectory := st,
           res.result := BitVec.ofNat 4 result, res.time := s.cycle.tk + s.cyc.commandAt, res.cycle := s.cycle.count,
           res.counters := upd s.res.counters result sat32 }

/-- The counts of R349 for a cycle with a RESULT. `success`: its solve stopped CONVERGED and passed. -/
def State.countCycle (s : State) (result : Nat) (success : Bool) : State :=
  let run := if success then min 10 (s.res.successRun + 1) else 0
  let net := if result = 2 then s.res.netRun + 1 else s.res.netRun
  { s with res.successRun := run, res.netRun := if run = 10 then 0 else net,
           res.consecNet := if result = 2 then s.res.consecNet + 1 else 0 }

/-- The states a converged point holds; `none` where the variant has not a variable for each, so that they are rolled forward
(R342). -/
def VariantRec.statesOf (v : VariantRec) (x : Vec) : Option (List Vec) :=
  let held := (List.range v.horizon).all fun j => (List.range 6).all fun c => (v.varIndex 3 0xFF j c).isSome
  if held then some ((List.range v.horizon).map fun j => mkVec 6 fun c => v.varAt x 3 0xFF j c) else none

/-- Accept in a positioning mode: the candidate when it passes, else the safety net; in fallback the fallback allocator
(R345-R353). POWER_BOUND is the bound of what is applied: R345's for a candidate, R348's otherwise (DEDUCED, log 11). -/
def State.acceptCandidate (s : State) (m : Mode) (v : VariantRec) (cand : Option Iterate) (agreed : Nat)
    (split late : Bool) : State :=
  let p := qpOf v s.sol.values s.cyc.tolerance
  let tk := s.cycle.tk
  let verdict := match cand with | some t => s.acceptance v p t.x tk | none => {}
  let pass := cand.isSome && verdict.passed
  let conv := s.res.stopReason == 0
  let s := { s with res.agreed := agreed,
                    res.flags := BitVec.ofNat 8 (flagBit split 0 + flagBit (cand.isSome && !verdict.passed) 1 + flagBit late 2),
                    res.residuals := match cand with | some t => t.ratios.map F64.to32 | none => [0, 0, 0],
                    res.violation := F64.to32 verdict.violation,
                    res.powerBound := F64.to32 (if pass && !s.res.fallback then verdict.bound else s.netBound v),
                    res.objective := match cand with | some t => p.objective t.x | none => 0 }
  let k := s.cycle.count % 2 ^ 32
  let s :=
    if s.res.fallback then
      (s.applyThrust m v (s.fallbackOutput m v tk) none 3 0).countCycle 3 (pass && conv)
    else match if pass then cand else none with
      | some t =>
        let thrust := s.thrustOf v t.x
        let s := if conv then s.applyThrust m v thrust (v.statesOf t.x) 0 verdict.slack
          else (s.applyThrust m v thrust none 1 verdict.slack).raiseN 48 k (some s.res.stopReason.toNat)
        s.countCycle (if conv then 0 else 1) conv
      | none =>
        let (net, a) := s.safetyNet v
        let s := (s.applyThrust m v net none 2 0).countCycle 2 false
        s.raiseN 49 k (some (F64.nearest (F64.mul a (F64.ofNat 1000000))).toNat)
  let s := { s with res.truePower := s.law.power.truePower }
  { s with sol.kept := match cand with
             | some t => some (v.number, t, true)
             | none => s.sol.plan.map fun q => (v.number, s.planIterate v q, false) }

/-- A cycle that applies no thrust of the law (R349): it is no cycle with RESULT 2, and in a positioning mode none that passed. -/
def State.countIdle (s : State) : State :=
  { s with res.consecNet := 0, res.successRun := if s.positioning then 0 else s.res.successRun }
/-- Accept in the other modes: the hold set, ARMED 0 (R468). -/
def State.acceptHold (s : State) : State := s.countIdle.writeSnapshot s.holdSet false

end Sys2Proof.Machine
end

