-- ==== Sys2Proof/Machine/Buffer.lean ====
section
/-! DEFINITION. The alignment buffer as its producers meet it (spec/01_cycle_and_islands.md, R44; spec/06_reference_fusion.md,
R199-R203). -/

namespace Sys2Proof.Machine

/-! ## The alignment buffer (R44, R199) -/

/-- The buffer holds 1024 samples, the held late ones among them. -/
def State.bufferFull (s : State) : Bool := decide (1024 ≤ s.cycle.buffer.length + s.cycle.held.length)

/-- A producer meets the full buffer: the parsers stop until the next release (R44). -/
def State.meetFull (s : State) : State := if s.cycle.stopped then s else { s with cycle.stopped := true }.raise 42

/-- The end of the window of the last released cycle: a sample at or before it is late (R200). -/
def State.releasedUpTo (s : State) : Nat := if s.cycle.released then s.cycle.tk else s.cycle.tk - s.cyc.period

/-- A sample takes its place in the buffer: discarded where the handover discards it (R277, R479) or where it lies in the
future, held where it is late (R200, R203). -/
def State.enterBuffer (s : State) (x : Sample) : State :=
  if 0 < s.modes.discardUpTo ∧ x.stamp ≤ s.modes.discardUpTo then s.countRef x.point 1
  else if s.tb3 + ms < x.stamp then s.countRef x.point 3
  else if s.cycle.ticking && decide (x.stamp ≤ s.releasedUpTo) then { s with cycle.held := s.cycle.held ++ [x] }
  else { s with cycle.buffer := s.cycle.buffer ++ [x] }

end Sys2Proof.Machine
end

