-- ==== Sys2Proof/Machine/Profile.lean ====
section
/-! DEFINITION. Jerk-limited motion of a profile axis (spec/10_thruster_servo_and_motion.md, R380-R382, R387). -/

namespace Sys2Proof.Machine

/-- A stretch of constant jerk: jerk and duration. -/
abbrev JerkSeg := F64 × F64
/-- Position, velocity and acceleration. -/
abbrev Motion := F64 × F64 × F64

/-- Motion after `dt` of constant jerk. -/
def Motion.after (m : Motion) (j dt : F64) : Motion :=
  let (p, v, a) := m
  let half := F64.half
  let sixth := F64.div F64.one (F64.ofNat 6)
  let dt2 := F64.mul dt dt
  (F64.add p (F64.add (F64.mul v dt) (F64.add (F64.mul half (F64.mul a dt2)) (F64.mul sixth (F64.mul j (F64.mul dt dt2))))),
   F64.add v (F64.add (F64.mul a dt) (F64.mul half (F64.mul j dt2))),
   F64.add a (F64.mul j dt))

/-- Motion after `dt` of a run of stretches; at rest past their end. -/
def Motion.along (m : Motion) : List JerkSeg → F64 → Motion
  | [], _ => (m.1, 0, 0)
  | (j, d) :: rest, dt => if F64.le d dt then Motion.along (m.after j d) rest (F64.sub dt d) else m.after j dt

/-- Motion at the end of a run of stretches. -/
def Motion.atEnd (m : Motion) (l : List JerkSeg) : Motion := l.foldl (fun m x => m.after x.1 x.2) m
/-- The duration of a run of stretches. -/
def duration (l : List JerkSeg) : F64 := l.foldl (fun t x => F64.add t x.2) 0

/-- From a velocity and an acceleration to a steady velocity `vc` in the least time under limits A and J. -/
def rampTo (v0 a0 vc amax jmax : F64) : List JerkSeg :=
  let sq (x : F64) := F64.mul x x
  let twoJ := F64.mul F64.two jmax
  let v1 := F64.add v0 (F64.div (F64.mul a0 (F64.abs a0)) twoJ)
  let down := F64.lt vc v1
  let sgn (x : F64) := if down then F64.neg x else x
  let v0 := sgn v0
  let a0 := sgn a0
  let vc := sgn vc
  let peak := F64.min amax (F64.sqrt (F64.max 0 (F64.add (F64.mul jmax (F64.sub vc v0)) (F64.mul F64.half (sq a0)))))
  let first : JerkSeg := if F64.le a0 peak then (jmax, F64.div (F64.sub peak a0) jmax)
    else (F64.neg jmax, F64.div (F64.sub a0 peak) jmax)
  let dv1 := F64.mul first.2 (F64.mul F64.half (F64.add a0 peak))
  let dv3 := F64.div (sq peak) twoJ
  let flat := if F64.lt 0 peak then F64.max 0 (F64.div (F64.sub (F64.sub (F64.sub vc v0) dv1) dv3) peak) else 0
  [(sgn first.1, first.2), (0, flat), (sgn (F64.neg jmax), F64.div peak jmax)]

/-- The stretches of a motion that reaches velocity `vc` and comes to rest. -/
def viaVelocity (v0 a0 vc amax jmax : F64) : List JerkSeg := rampTo v0 a0 vc amax jmax ++ rampTo vc 0 0 amax jmax

/-- Bisect the peak velocity at which the motion covers the distance. -/
def bisectVelocity (v0 a0 amax jmax dist : F64) : Nat → F64 → F64 → F64
  | 0, lo, hi => F64.mul F64.half (F64.add lo hi)
  | n + 1, lo, hi =>
    let mid := F64.mul F64.half (F64.add lo hi)
    let reach := (Motion.atEnd (0, v0, a0) (viaVelocity v0 a0 mid amax jmax)).1
    if F64.lt reach dist then bisectVelocity v0 a0 amax jmax dist n mid hi else bisectVelocity v0 a0 amax jmax dist n lo mid

/-- The least-time motion over a signed distance to rest, from a velocity and an acceleration, within VMAX, A and JMAX
(R381). -/
def planMotion (dist v0 a0 vmax amax jmax : F64) : List JerkSeg :=
  let reach (vc : F64) := (Motion.atEnd (0, v0, a0) (viaVelocity v0 a0 vc amax jmax)).1
  let low := F64.neg vmax
  let cruise (vc : F64) : List JerkSeg :=
    rampTo v0 a0 vc amax jmax ++ [(0, F64.div (F64.sub dist (reach vc)) vc)] ++ rampTo vc 0 0 amax jmax
  if F64.le (reach vmax) dist then cruise vmax
  else if F64.le dist (reach low) then cruise low
  else viaVelocity v0 a0 (bisectVelocity v0 a0 amax jmax dist 64 low vmax) amax jmax

/-- A: AMAX, or √(VMAX·JMAX) when that is smaller (R381). -/
def ProfileAxis.accel (x : ProfileAxis) : F64 :=
  F64.min (F64.of32 x.amax) (F64.sqrt (F64.mul (F64.of32 x.vmax) (F64.of32 x.jmax)))

/-- Where the axis comes to rest when it stops within its limits. -/
def ProfileAxis.stopPoint (x : ProfileAxis) : F64 :=
  (Motion.atEnd (x.pos, F64.of32 x.vel, F64.of32 x.acc)
    (rampTo (F64.of32 x.vel) (F64.of32 x.acc) 0 x.accel (F64.of32 x.jmax))).1

/-- One advance of an axis by `dt` seconds. An axis whose VMAX is 0 does not move. -/
def ProfileAxis.advance (x : ProfileAxis) (dt : F64) : ProfileAxis :=
  if !F32.lt 0 x.vmax then { x with vel := 0, acc := 0 }
  else if F64.eq x.pos x.goal && F32.eq x.vel 0 && F32.eq x.acc 0 then { x with vel := 0, acc := 0 }
  else
    let segs := planMotion (F64.sub x.goal x.pos) (F64.of32 x.vel) (F64.of32 x.acc) (F64.of32 x.vmax) x.accel
      (F64.of32 x.jmax)
    if F64.le (duration segs) dt then { x with pos := x.goal, vel := 0, acc := 0 }
    else
      let (p, v, a) := Motion.along (x.pos, F64.of32 x.vel, F64.of32 x.acc) segs dt
      { x with pos := p, vel := F64.to32 v, acc := F64.to32 a }

/-- Is the axis at rest on its target? -/
def ProfileAxis.atRest (x : ProfileAxis) : Bool := F64.eq x.pos x.goal && F32.eq x.vel 0 && F32.eq x.acc 0

/-- Does a path from an azimuth, clockwise when positive, enter a sector in which it does not begin (R382)? -/
def crossesSector (sectors : List (F32 × F32)) (start path : F64) : Bool :=
  sectors.any fun q =>
    !inSector start q &&
      (if F64.lt path 0 then F64.lt (clockwise (F64.of32 q.2) start) (F64.neg path)
       else F64.lt (clockwise start (F64.of32 q.1)) path)

/-- A new target of an azimuth axis: the shorter way, the other way round when it crosses a sector, and a hold when both do
(R382). Answers whether it holds. R382 wraps the path alone and R381 asks for a continuous output, so the position itself is not
wrapped and may run past pi (DESIGN CHOICE, log 37). -/
def ProfileAxis.aimAzimuth (x : ProfileAxis) (sectors : List (F32 × F32)) (target : F64) : ProfileAxis × Bool :=
  let path := F64.wrapPi (F64.sub target x.pos)
  let other := if F64.lt path 0 then F64.add path F64.twoPi else F64.sub path F64.twoPi
  let x := { x with target := target }
  if !crossesSector sectors x.pos path then ({ x with goal := F64.add x.pos path, sectorHeld := false }, false)
  else if !crossesSector sectors x.pos other then ({ x with goal := F64.add x.pos other, sectorHeld := false }, false)
  else ({ x with goal := x.stopPoint, sectorHeld := true }, true)

/-- A new target of a pitch or speed axis. -/
def ProfileAxis.aim (x : ProfileAxis) (target : F64) : ProfileAxis := { x with target := target, goal := target }

end Sys2Proof.Machine
end

