-- ==== Sys2Proof/Machine/Servo.lean ====
section
/-! DEFINITION. The sample of a servo loop slot: its set-point, the fixed order of its arithmetic, holds, faults and
releases, injection and capture (spec/10_thruster_servo_and_motion.md, R362-R387, R393, R394). -/

namespace Sys2Proof.Machine

/-! ## Which slots there are (R362) -/

/-- The record of a slot in the loaded image. -/
def State.loopRec? (s : State) (n : Nat) : Option LoopRec :=
  s.image.loaded.bind fun i => i.loops.find? (·.slot == n)
/-- The member a point is wired to. -/
def State.pointMember (s : State) (id : Nat) : Option Nat := (s.point? id).map (·.member)
/-- A slot runs in the member to which its points are wired. -/
def State.slotHere (s : State) (n : Nat) : Option LoopRec :=
  (s.loopRec? n).filter fun r => s.pointMember r.feedback == some s.me
/-- A slot, the slot whose output is its set-point, and so on outwards. -/
def State.outward (s : State) : Nat → Nat → List Nat
  | 0, n => [n]
  | k + 1, n => match s.loopRec? n with
    | some r => if r.outer = 0xFF then [n] else n :: s.outward k r.outer
    | none => [n]
/-- The outermost slot of a slot's cascade. -/
def State.outermost (s : State) (n : Nat) : Nat := (s.outward 32 n).getLastD n
/-- The slots that a slot feeds, directly or through others. -/
def State.innerOf (s : State) (n : Nat) : List Nat :=
  (List.range 32).filter fun m => (s.loopRec? m).isSome && (s.outward 32 m).tail.contains n
/-- The slots of a slot's cascade. -/
def State.cascadeOf (s : State) (n : Nat) : List Nat :=
  let o := s.outermost n
  (List.range 32).filter fun m => (s.loopRec? m).isSome && s.outermost m == o
/-- The thruster whose SLOTS name an outermost slot, and which of its axes the slot is. -/
def State.namedBy (s : State) (o : Nat) : Option (ThrusterRec × Nat) :=
  (s.thrusters.find? fun r => r.azSlot == o || r.pitchSlot == o || r.speedSlot == o).map fun r =>
    (r, if r.azSlot == o then 0 else if r.pitchSlot == o then 1 else 2)
/-- The thruster slice of a slot's cascade, or 0xFF (R372). -/
def State.slotSlice (s : State) (n : Nat) : Nat := ((s.namedBy (s.outermost n)).map (·.1.slice)).getD 0xFF
/-- The stepper drive a slot commands. -/
def State.slotDrive (s : State) (r : LoopRec) : Option Nat :=
  (s.point? r.output).bind fun p => if p.kind = 6 then some p.channel else none
/-- The U output a slot drives. -/
def State.slotU (s : State) (r : LoopRec) : Option Nat :=
  (s.point? r.output).bind fun p => if p.kind = 2 then some p.channel else none
/-- The PFB channel of a slot's feedback. -/
def State.slotPfb (s : State) (r : LoopRec) : Option Nat :=
  (s.point? r.feedback).bind fun p => if p.kind = 5 then some p.channel else none

/-- Change a slot. -/
def State.setSlot (s : State) (n : Nat) (f : LoopSlot → LoopSlot) : State := { s with servo.slots := upd s.servo.slots n f }
/-- Change a slot's run counters. -/
def State.setCounts (s : State) (n : Nat) (f : LoopCounts → LoopCounts) : State :=
  { s with servo.counts := upd s.servo.counts n f }
/-- Change an axis of a profile generator. -/
def State.setAxis (s : State) (g a : Nat) (f : ProfileAxis → ProfileAxis) : State :=
  { s with servo.axes := upd s.servo.axes g fun v => upd v a f }
/-- An axis of a profile generator. -/
def State.axis (s : State) (g a : Nat) : ProfileAxis := at? (at? s.servo.axes g) a
/-- Change a gear slave. -/
def State.setSlave (s : State) (g i : Nat) (f : GearSlave → GearSlave) : State :=
  { s with servo.gears := upd s.servo.gears g fun x => { x with slaves := upd x.slaves i f } }

/-! ## Biquads (R369) -/

/-- One sample of a biquad, coefficients b0, b1, b2, a1, a2 and delays s1, s2. -/
def biquad (c : List F32) (d : F32 × F32) (x : F32) : F32 × (F32 × F32) :=
  let k (i : Nat) : F32 := c.getD i 0
  let y := F32.add (F32.mul (k 0) x) d.1
  (y, F32.add (F32.sub (F32.mul (k 1) x) (F32.mul (k 3) y)) d.2, F32.sub (F32.mul (k 2) x) (F32.mul (k 4) y))
/-- Stability: |a2| < 1 and |a1| < 1 + a2. -/
def biquadStable (c : List F32) : Bool :=
  F32.lt (F32.abs (c.getD 4 0)) F32.one && F32.lt (F32.abs (c.getD 3 0)) (F32.add F32.one (c.getD 4 0))
/-- The DC gain. -/
def dcGain (c : List F32) : F32 :=
  F32.div (F32.add (F32.add (c.getD 0 0) (c.getD 1 0)) (c.getD 2 0))
    (F32.add (F32.add F32.one (c.getD 3 0)) (c.getD 4 0))
/-- The delays of the steady state for a constant input, and the output there. -/
def biquadSteady (c : List F32) (x : F32) : F32 × (F32 × F32) :=
  let k (i : Nat) : F32 := c.getD i 0
  let y := F32.mul (dcGain c) x
  let s2 := F32.sub (F32.mul (k 2) x) (F32.mul (k 4) y)
  (y, F32.add (F32.sub (F32.mul (k 1) x) (F32.mul (k 3) y)) s2, s2)

/-! ## The arithmetic of a sample (R367, R379) -/

/-- What one sample forms before the integrator. -/
structure LoopTerms where
  e : F32
  d : F32
  ff : F32

/-- e, d and ff of a sample. -/
def loopTerms (c : SlotCoeffs) (rate : Nat) (sp spRate fb fbPrev : F32) : LoopTerms :=
  { e := F32.sub sp fb, d := F32.div (F32.sub fbPrev fb) (f32OfRat 1 rate), ff := F32.mul c.ffGain spRate }

/-- The sample proper: the integrator, the biquads and the clamp; `inj` is added before the clamp. A frozen slot keeps I and
the delays (R373). -/
def SlotCoeffs.sample (c : SlotCoeffs) (l : LoopSlot) (rate : Nat) (q : LoopTerms) (inj : F32) (frozen : Bool) : LoopSlot :=
  let ke := F32.mul c.ki q.e
  let iNew := F32.add l.integ (F32.mul ke (f32OfRat 1 rate))
  let blocked := l.outAtLimit && (if l.clampSide then F32.lt 0 ke else F32.lt ke 0)
  let i := if frozen then l.integ else F32.clamp (if blocked then l.integ else iNew) c.outMin c.outMax
  let x := F32.add (F32.add (F32.add (F32.mul c.kp q.e) i) (F32.mul c.kd q.d)) q.ff
  let (y1, d1) := biquad c.bq1 l.d1 x
  let (y2, d2) := biquad c.bq2 l.d2 y1
  let y := F32.add y2 inj
  { l with integ := i, d1 := if frozen then l.d1 else d1, d2 := if frozen then l.d2 else d2, preClamp := y,
           out := F32.clamp y c.outMin c.outMax, outPrev := l.out,
           outAtLimit := F32.lt y c.outMin || F32.lt c.outMax y, clampSide := F32.lt c.outMax y, err := q.e }

/-- A release with held output `uh` (R379). -/
def SlotCoeffs.release (c : SlotCoeffs) (l : LoopSlot) (q : LoopTerms) (uh : F32) : LoopSlot :=
  let g := F32.mul (dcGain c.bq1) (dcGain c.bq2)
  let keep := F32.le (f32OfRat 1 100) (F32.abs g)
  let xh := if keep then F32.div uh g else 0
  let (y1, d1) := biquadSteady c.bq1 xh
  let (_, d2) := biquadSteady c.bq2 y1
  let i := F32.clamp (F32.sub xh (F32.add (F32.add (F32.mul c.kp q.e) (F32.mul c.kd q.d)) q.ff)) c.outMin c.outMax
  { l with integ := i, d1 := if keep then d1 else (0, 0), d2 := if keep then d2 else (0, 0), preClamp := uh,
           out := F32.clamp uh c.outMin c.outMax, outPrev := l.out,
           outAtLimit := F32.lt uh c.outMin || F32.lt c.outMax uh, clampSide := F32.lt c.outMax uh, err := q.e,
           release := none }

/-- FAULT_OUTPUT clamped to the limits (R372). -/
def SlotCoeffs.faultOut (c : SlotCoeffs) : F32 := F32.clamp c.faultOutput c.outMin c.outMax

/-! ## Injection (R393) -/

/-- The slot an injection acts on. -/
def InjCap.slot (c : InjCap) : Nat := fieldAt c.injConfig 0 1
/-- D in s. -/
def InjCap.length (c : InjCap) : F32 := f32At c.injConfig 16

/-- The signal at sample n of a slot of a rate. -/
def InjCap.signalAt (c : InjCap) (rate n : Nat) : F32 :=
  let amp := f32At c.injConfig 4
  let f1 := F64.of32 (f32At c.injConfig 8)
  let f2 := F64.of32 (f32At c.injConfig 12)
  let d := F64.of32 c.length
  let t := f64OfRat n rate
  let wave (cycles : F64) : F32 := F64.to32 (F64.mul (F64.of32 amp) (F64.sin (F64.mul F64.twoPi cycles)))
  match fieldAt c.injConfig 2 1 with
  | 1 => wave (F64.mul f1 t)
  | 2 => wave (F64.add (F64.mul f1 t) (F64.div (F64.mul (F64.sub f2 f1) (F64.mul t t)) (F64.mul F64.two d)))
  | _ => if Config.prbsBit (fieldAt c.injConfig 3 1) (n / max 1 (fieldAt c.injConfig 20 2)) then amp else F32.neg amp

/-- Has D run out at sample n? -/
def InjCap.finished (c : InjCap) (rate n : Nat) : Bool := F64.le (F64.of32 c.length) (f64OfRat n rate)

/-- The injected signal of this sample of a slot, and the injection after it: outside TEST it ends, past D it is 0. -/
def State.inject (s : State) (n rate : Nat) : F32 × State :=
  let c := s.servo.ic
  if !c.injRunning || c.slot != n then (0, s)
  else if s.modes.mode != .test then (0, { s with servo.ic.injRunning := false, servo.ic.injSignal := 0 })
  else if c.finished rate c.injN then (0, { s with servo.ic.injSignal := 0 })
  else
    let v := c.signalAt rate c.injN
    (v, { s with servo.ic.injN := c.injN + 1, servo.ic.injSignal := v })

/-! ## Gearing (R385-R387) -/

/-- The geared target of a slave at a master count: S0 + ⌊p(M − M0)/q⌋ (R385). -/
def GearSlave.at (x : GearSlave) (m : Int) : Int := x.s0 + (x.p * (m - x.m0)).fdiv x.q

/-- Re-base a slave at a master count, with a new ratio from there (R386). -/
def GearSlave.rebase (x : GearSlave) (m p : Int) (q : Nat) : GearSlave := { x with s0 := x.at m, m0 := m, p := p, q := q }

/-- The target of a slave in a fall-back, ns after it began: linear in time, all slaves arriving at T_L (R387). -/
def GearSlave.fallTarget (x : GearSlave) (elapsed total : Nat) : Int :=
  if total ≤ elapsed then x.moveTo else x.from_ + ((x.moveTo - x.from_) * elapsed).fdiv total

/-- The gear group, and the place in it, of a slave slot of an active group. -/
def State.gearOf (s : State) (n : Nat) : Option (Nat × Nat) :=
  (List.range 8).findSome? fun g =>
    let x := at? s.servo.gears g
    if x.en then ((List.range 4).find? fun i => (at? x.slaves i).slot.toNat == n).map fun i => (g, i) else none

/-- The trigger of a slave: GEAR_NEXT fires when the master has reached or crossed AT; the target in counts follows. -/
def State.gearTrigger (s : State) (g i rate : Nat) : F64 × State :=
  let x := at? s.servo.gears g
  let v := at? x.slaves i
  let m := x.count
  let crossed := (decide (v.lastMaster ≤ v.nextAt) && decide (v.nextAt ≤ m)) ||
    (decide (m ≤ v.nextAt) && decide (v.nextAt ≤ v.lastMaster))
  let fire := v.armed && crossed && !x.fallback
  let v := if fire then { v.rebase v.nextAt v.nextP v.nextQ with armed := false } else v
  let v := { v with lastMaster := m }
  let (target, v) : F64 × GearSlave :=
    if !x.fallback then (F64.ofInt (v.at m), v)
    else if !x.engaging then (F64.ofInt (v.fallTarget (s.now - x.moveStart) x.moveTime), v)
    else if v.engaged then (F64.ofInt (v.at m), v)
    else
      let goal := F64.ofInt (v.at m)
      let before := F64.sub goal v.axis.pos
      let a := (v.axis.aim goal).advance (f64OfRat 1 rate)
      let left := F64.sub goal a.pos
      let there := F64.le (F64.abs left) F64.one || (F64.lt before 0 != F64.lt left 0)
      if there then (goal, { v with axis := { a with pos := goal }, engaged := true }) else (a.pos, { v with axis := a })
  let s := s.setSlave g i fun _ => v
  let s := if fire then s.raise 67 else s
  let y := at? s.servo.gears g
  let all := (List.range 4).all fun j => let w := at? y.slaves j; w.slot == 0xFF || w.engaged
  let s := if y.fallback && y.engaging && all then
      { s with servo.gears := upd s.servo.gears g fun z => { z with fallback := false, engaging := false } }.raiseN 68 0
    else s
  (target, s)

/-! ## The set-point of a slot (R311, R364, R368, R378, R380, R385) -/

/-- A set-point, its rate, and SP_SOURCE; `at_` is the instant it was given, which a rate of R368 is taken over. -/
structure SlotInput where
  value : F32
  rate : Option F32 := none
  source : BitVec 4 := 0
  at_ : Nat := 0

/-- The field of a thruster set-point that an axis takes. -/
def axisValue (x : ThrusterSet) : Nat → F32
  | 0 => x.azimuth
  | 1 => x.pitch
  | _ => x.speed

/-- The set-point a slot takes at its trigger. -/
def State.slotInput (s : State) (n : Nat) (r : LoopRec) : SlotInput × State :=
  let l := at? s.servo.slots n
  if r.outer != 0xFF then
    let o := at? s.servo.slots r.outer
    if o.lastAt + 700 ≤ s.tb3 then ({ value := o.out, source := 3, at_ := o.lastAt }, s)
    else ({ value := o.outPrev, source := 3, at_ := l.spPrev.2 }, s)
  else match l.hostSp with
    | some (v, t) => ({ value := v, source := 4, at_ := t }, s)
    | none => match s.gearOf n with
      | some (g, i) =>
        let (target, s) := s.gearTrigger g i r.rate
        let p := at? s.field.pfb ((s.slotPfb r).getD 0)
        let v := F64.to32 (F64.add p.offset (F64.mul p.scale target))
        ({ value := v, source := 2, rate := some (F32.mul (F32.sub v l.spPrev.1) (F32.ofNat r.rate)), at_ := s.tb3 }, s)
      | none => match s.namedBy n with
        | none => ({ value := l.spPrev.1, at_ := l.spPrev.2 }, s)
        | some (th, a) =>
          if th.generator = 0xFF then
            ({ value := axisValue (setOf s.cycle.front.setpoints th.slice) a, at_ := s.cycle.appliedAt }, s)
          else
            let x := (s.axis th.generator a).advance (f64OfRat 1 r.rate)
            let finished := x.host && x.moving && x.atRest && !x.sectorHeld
            let s := s.setAxis th.generator a fun _ => { x with moving := x.moving && !finished }
            let s := if finished then s.raise 66 else s
            ({ value := F64.to32 x.pos, source := 1, rate := some x.vel, at_ := s.tb3 }, s)

/-- sp_rate of R368, and the set-point remembered. -/
def LoopSlot.takeSp (l : LoopSlot) (q : SlotInput) : LoopSlot :=
  let rate : F32 := match q.rate with
    | some v => v
    | none => if q.at_ = l.spPrev.2 then l.spRate
      else F32.div (F32.sub q.value l.spPrev.1) (F64.to32 (secondsOf ((q.at_ : Int) - l.spPrev.2)))
  { l with spRate := rate, spPrev := (q.value, q.at_), spSource := q.source }

/-! ## Capture (R394) -/

/-- The position a PFB channel reports in its point's unit (R430). -/
def PfbChannel.position (p : PfbChannel) : F32 := F64.to32 (F64.add p.offset (F64.mul p.scale (F64.ofInt p.count)))

/-- The value of a capture selector. -/
def State.capSignal (s : State) (sig idx : Nat) : F32 :=
  let l := at? s.servo.slots idx
  match sig with
  | 1 => l.sp
  | 2 => l.fb
  | 3 => l.err
  | 4 => l.integ
  | 5 => l.preClamp
  | 6 => l.out
  | 7 => s.servo.ic.injSignal
  | 8 => (at? s.ain.channels idx).value
  | 9 => (at? s.field.pfb idx).position
  | 10 => (at? s.servo.steppers idx).current
  | 11 => F32.ofNat (at? s.servo.steppers idx).loadAngle
  | 12 => F64.to32 (s.axis (idx / 4) (idx % 4)).pos
  | 13 => (s.axis (idx / 4) (idx % 4)).vel
  | _ => (s.axis (idx / 4) (idx % 4)).acc

/-- Take one capture sample of the enabled signals. -/
def State.capSamples (s : State) : List F32 :=
  (List.range 4).filterMap fun k =>
    let sig := fieldAt s.servo.ic.capSignals (4 * k) 1
    if sig = 0 then none else some (s.capSignal sig (fieldAt s.servo.ic.capSignals (4 * k + 1) 1))

/-- The number of samples a capture takes. -/
def InjCap.capCount (c : InjCap) : Nat := fieldAt c.capConfig 8 4

/-- A trigger of the clock slot: the armed capture keeps PRE samples and watches for its trigger, a running one records
until its count is reached (R394). A trigger whose sample is skipped clocks it too. -/
def State.captureTick (s : State) (n : Nat) : State :=
  let c := s.servo.ic
  if fieldAt c.capConfig 0 1 != n || (c.capState != 1 && c.capState != 2) then s
  else
    let div := max 1 (fieldAt c.capConfig 4 2)
    if c.capDiv + 1 < div then { s with servo.ic.capDiv := c.capDiv + 1 }
    else
      let xs := s.capSamples
      let x0 : F32 := s.capSignal (fieldAt c.capSignals 0 1) (fieldAt c.capSignals 1 1)
      let level := f32At c.capConfig 12
      let crosses := match c.capLast0 with
        | none => false
        | some y => match fieldAt c.capConfig 1 1 with
          | 3 => F32.lt y level && F32.le level x0
          | 4 => F32.lt level y && F32.le x0 level
          | _ => false
      let c := { c with capDiv := 0, capLast0 := some x0,
                        capState := if c.capState == 1 && crosses then 2 else c.capState }
      let c := if c.capState == 1 then
          let pre := fieldAt c.capConfig 6 2
          { c with capPre := (c.capPre ++ [(s.tb3, xs)]).drop (c.capPre.length + 1 - pre) }
        else if c.capCount ≤ c.capData.length then c
        else if c.capData.isEmpty then
          { c with capT0 := (c.capPre.head?.map (·.1)).getD s.tb3,
                   capData := (c.capPre.map (·.2) ++ [xs]).take c.capCount, capPre := [] }
        else { c with capData := c.capData ++ [xs] }
      { s with servo.ic := c }

/-! ## The sample (R366-R379) -/

/-- Is the slot frozen: a safety function has removed the enable of its thruster (R373)? -/
def State.slotFrozen (s : State) (n : Nat) : Bool :=
  let th := s.slotSlice n
  decide (th < 16) && (if s.isEnable th then (at? s.saf.gates th).removed else (at? s.law.thr th).safOff)

/-- FEEDBACK_LOST is active for a slice while its record is missing (R536) or a slot of it is in FAULT (R290, R372). -/
def State.judgeFeedback (s : State) (th : Nat) : State :=
  if th < 16 then
    let slot := (List.range 32).any fun k => (at? s.servo.slots k).faulted && s.slotSlice k == th
    s.setThr th fun q => { q with noFeedback := at? s.net.feedbackLost th || slot }
  else s

/-- Enter FAULT, or leave it: FEEDBACK_LOST, and the slice's feedback (R290, R372). -/
def State.slotFault (s : State) (n : Nat) (on : Bool) : State :=
  let th := s.slotSlice n
  let s := s.setSlot n fun l =>
    if on then { l with faulted := true, state := 3 }
    else { l with faulted := false, release := some l.out }
  let s := s.judgeFeedback th
  s.raiseN 76 (th + flagBit on 8) (some n)

/-- A held sample counts a hold down. -/
def LoopSlot.countHold (l : LoopSlot) : LoopSlot := { l with holdLeft := l.holdLeft - 1 }

/-- The counts of R370 and R371 after a sample that computed. -/
def LoopCounts.after (k : LoopCounts) (c : SlotCoeffs) (l : LoopSlot) (follow : Bool) : LoopCounts :=
  let k := if l.outAtLimit then { k with clampedRun := k.clampedRun + 1, unclampedRun := 0, clamped := sat32 k.clamped }
    else { k with clampedRun := 0, unclampedRun := k.unclampedRun + 1 }
  if !follow || !F32.lt 0 c.followingLimit then k
  else
    let e := F32.abs l.err
    if F32.lt c.followingLimit e then { k with aboveRun := k.aboveRun + 1, belowRun := 0 }
    else if F32.le e (F32.mul (f32OfRat 4 5) c.followingLimit) then { k with aboveRun := 0, belowRun := k.belowRun + 1 }
    else { k with aboveRun := 0, belowRun := 0 }

/-- The duty of a slot-driven output in a period of its PWM (R413). -/
def UChannel.dutyIn (u : UChannel) (period : Nat) : F32 := if period = u.dutyPeriod then u.dutyNow else u.dutyNext

/-- A new duty takes effect in the running period while that period's switching edge has not passed, else in the next (R413). -/
def State.loadDuty (s : State) (n : Nat) (d : F32) : State :=
  let (k, x) := s.pwmPlace n
  { s with field.u := upd s.field.u n fun u =>
      let old := u.dutyIn k
      { u with dutyPeriod := k, dutyNow := if pwmOn old x u.cfg.pwmPeriod then d else old, dutyNext := d } }

/-- Write back a computed slot; LOOP_WINDUP on entry of I to a limit (R370); the stepper's target, or the output's duty, that it
drives. -/
def State.putSlot (s : State) (n : Nat) (r : LoopRec) (c : SlotCoeffs) (l : LoopSlot) (frozen : Bool) : State :=
  let atLimit := F32.eq l.integ c.outMin || F32.eq l.integ c.outMax
  let s := s.setSlot n fun _ => { l with iAtLimit := atLimit }
  let s := match s.slotDrive r with
    | some d => { s with servo.steppers := upd s.servo.steppers d fun q =>
        { q with target := F32.nearest (F32.mul l.out (F32.ofNat 256)) } }
    | none => s
  let s := match s.slotU r with
    | some u => s.loadDuty u (F32.clamp l.out 0 F32.one)
    | none => s
  let s := s.clearOverloads
  if atLimit && !l.iAtLimit && !frozen then s.raiseN 65 n else s

/-- A feedback sample of a slot. -/
structure SlotFeedback where
  value : F32 := 0
  valid : Bool := true
  settling : Bool := false
  deriving DecidableEq, Repr, Inhabited

/-- The feedback of a slot at its trigger (R171, R363, R372): the newest output of its AI channel, or the position of its PFB
channel's newest frame. -/
def State.slotFeedback (s : State) (r : LoopRec) : SlotFeedback :=
  match s.point? r.feedback with
  | none => { valid := false }
  | some p =>
    if p.kind = 5 then
      let q := at? s.field.pfb p.channel
      { value := q.position, valid := q.mode != 0 && !q.faultRun }
    else
      let c := at? s.ain.channels p.channel
      { value := c.value, valid := !c.status.getLsbD 0 && !c.status.getLsbD 1, settling := c.status.getLsbD 4 }

/-- The sample once its feedback has been judged. -/
def State.slotCompute (s : State) (n : Nat) (r : LoopRec) (x : SlotFeedback) : State :=
  let c := at? s.servo.coeffs n
  let (q, s) := s.slotInput n r
  let (inj, s) := s.inject n r.rate
  let atSp := fieldAt s.servo.ic.injConfig 1 1 == 0
  let l := ((at? s.servo.slots n).takeSp q)
  let sp := if atSp then F32.add q.value inj else q.value
  let l := { l with sp := sp, fb := x.value, lastAt := s.tb3, outPrev := l.out, injecting := s.servo.ic.injRunning && s.servo.ic.slot == n }
  let terms := loopTerms c r.rate sp l.spRate x.value l.fbPrev
  let outInj : F32 := if atSp then 0 else inj
  let frozen := s.slotFrozen n
  if s.modes.gatheredHold then
    s.setSlot n fun _ => { l with state := 2, fbPrev := x.value }
  else if l.faulted then
    s.putSlot n r c { l.countHold with state := 3, out := c.faultOut, fbPrev := x.value } true
  else if frozen then
    let y := c.sample l r.rate terms outInj true
    let s := s.setCounts n fun k => k.after c y false
    s.putSlot n r c { y.countHold with state := 4, fbPrev := x.value, release := some y.out } true
  else if 0 < l.holdLeft then
    s.setSlot n fun _ => { l.countHold with state := 2, release := some l.out }
  else if !x.valid then
    s.setSlot n fun _ => l
  else if (s.innerOf n).any fun m => (at? s.servo.slots m).faulted then
    s.setSlot n fun _ => { l with state := 1, release := some l.out, fbPrev := x.value }
  else
    match l.release with
    | some uh =>
      let y := c.release l terms uh
      let s := s.setCounts n fun k => k.after c y true
      let s := s.putSlot n r c { y with state := 1, fbPrev := x.value, holding := false } false
      if l.holding then s.raiseN 73 n else s
    | none =>
      let y := c.sample l r.rate terms outInj false
      let s := s.setCounts n fun k => k.after c y true
      s.putSlot n r c { y with state := 1, fbPrev := x.value } false

/-- Does no slot take this one's output as its set-point? -/
def State.innermost (s : State) (n : Nat) : Bool := !(List.range 32).any fun k => ((s.loopRec? k).map (·.outer)) == some n

/-- SLOT_LATENCY in ns: 1 us, and 0.55 us for each group of 8 served before (R365). -/
def State.slotLatency (s : State) (n : Nat) (r : LoopRec) : Nat :=
  let together (q : LoopRec) : Bool :=
    match s.point? r.feedback, s.point? q.feedback with
    | some a, some b => a.kind == b.kind && a.member == b.member &&
        (a.kind != 3 || (at? s.ain.channels a.channel).rate == (at? s.ain.channels b.channel).rate)
    | _, _ => false
  let recs := (List.range 32).filterMap fun m => (s.slotHere m).filter together
  let order := (recs.filter fun q => s.innermost q.slot) ++ (recs.filter fun q => !s.innermost q.slot)
  1000 + 550 * ((order.findIdx (·.slot == n)) / 8)

/-- Does an innermost output that is updated `latency` ns after its end of conversion miss its bound by more than 1 us (R366)? -/
def State.missesBound (s : State) (n : Nat) (r : LoopRec) (latency : Nat) : Bool :=
  s.innermost n && decide (s.slotLatency n r + 1000 < latency)

/-- A trigger of slot `n` with its feedback: skipped while the last sample runs or when its output misses its bound (R366), and
when the sample is SETTLING (R372). -/
def State.slotTrigger (s : State) (n : Nat) (r : LoopRec) (x : SlotFeedback) (missed : Bool) : State :=
  let k := at? s.servo.counts n
  if decide (s.now < k.busyUntil) || missed then
    (s.setCounts n fun k => { k with overruns := sat32 k.overruns }).raise 74
  else if x.settling then s
  else
    let k := if x.valid then { k with validRun := k.validRun + 1, invalidRun := 0 }
      else { k with validRun := 0, invalidRun := k.invalidRun + 1, invalid := sat32 k.invalid }
    let s := s.setCounts n fun _ => { k with busyUntil := s.now + 650 }
    let s := s.setSlot n fun l => { l with fbInvalid := !x.valid }
    let locked := match s.slotDrive r with | some d => (at? s.servo.steppers d).locked | none => false
    let l := at? s.servo.slots n
    let s := if !l.faulted && decide (3 ≤ k.invalidRun) then s.slotFault n true
      else if l.faulted && decide (10 ≤ k.validRun) && !locked then s.slotFault n false
      else s
    s.slotCompute n r x

/-- A trigger of slot `n`; it clocks the capture whether its sample is computed or skipped (R394). -/
def State.slotSample (s : State) (n : Nat) (r : LoopRec) (x : SlotFeedback) (missed : Bool) : State :=
  (s.slotTrigger n r x missed).captureTick n

end Sys2Proof.Machine
end

