-- ==== Sys2Proof/Machine/NetParse.lean ====
section
/-! DEFINITION. What NET's parsers make of datagrams, CAN frames and sentences, and how they stop and go on with the
alignment buffer (spec/15_networks.md, R531-R536, R544, R549, R550, R552; spec/01_cycle_and_islands.md, R44). -/

namespace Sys2Proof.Machine

/-- Change a CAN controller. -/
def State.setCan (s : State) (n : Nat) (f : CanController → CanController) : State := { s with net.can := upd s.net.can n f }
/-- Change a serial port. -/
def State.setSer (s : State) (n : Nat) (f : SerialPort → SerialPort) : State := { s with net.ser := upd s.net.ser n f }
/-- Change a port of the switch. -/
def State.setPort (s : State) (n : Nat) (f : SwitchPort → SwitchPort) : State := { s with net.ports := upd s.net.ports n f }

/-! ## The points of the ports (R532, R533) -/

/-- The points of a kind on a channel, wired to this member. -/
def State.ownPoints (s : State) (kind channel : Nat) : List PointRec :=
  match s.image.loaded with
  | none => []
  | some i => i.points.filter fun p => p.kind == kind && p.channel == channel && p.member == s.me

/-- The points of a thruster slice that are its command (`out`) or feedback point on this member: the first of KIND
CAN_SIGNAL or ETH_DATAGRAM with NOMINAL_PERIOD 0, or not 0 (R533). -/
def Structure.thrusterPoint (i : Structure) (slice member : Nat) (out : Bool) : Option PointRec :=
  match i.slices.find? fun x => x.kind == 0 && x.index == slice with
  | none => none
  | some x => (x.points.filterMap fun id => i.points.find? (·.id == id)).find? fun p =>
      (p.kind == 9 || p.kind == 10) && p.member == member && (p.period == 0) == out

/-- The slice whose feedback point is a point. -/
def State.feedbackSlice (s : State) (id : Nat) : Option Nat :=
  (s.pointThruster id).filter fun n =>
    ((s.image.loaded.bind fun i => i.thrusterPoint n s.me false).map (·.id)) == some id

/-- The stamp of a sample less the REF_LATENCY of its reference (R191). -/
def State.stampOf (s : State) (point stamp : Nat) : Nat :=
  match (s.refsOfPoint point).head? with
  | some r => stamp - (at? s.fusion.sets r).latency
  | none => stamp

/-- Is the unit of a point an angle (R189)? -/
def State.pointIsAngle (s : State) (id : Nat) : Bool :=
  match s.image.loaded with
  | none => false
  | some i => i.slices.any fun x =>
      let at_ (n : Nat) : Bool := x.points[n]? == some id
      match x.kind with
      | 1 => x.principle == 2 && (at_ 0 || at_ 1)
      | 2 => at_ 0
      | 3 => at_ 0 || at_ 1
      | 4 => at_ 1
      | _ => false

/-! ## Feedback records (R534, R536) -/

/-- The feedback record at the start of a byte string. -/
def feedbackOf (bs : List Byte) : Feedback :=
  { seqEcho := BitVec.ofNat 16 (fieldAt bs 0 2), flags := BitVec.ofNat 8 (fieldAt bs 2 1), source := BitVec.ofNat 8 (fieldAt bs 3 1),
    azimuth := f32At bs 4, pitch := f32At bs 8, speed := f32At bs 12, power := f32At bs 16 }

/-- Is a record valid of itself: VALID, no DRIVE_FAULT, every field finite? -/
def feedbackValid (f : Feedback) : Bool :=
  f.flags.getLsbD 0 && !f.flags.getLsbD 2 && F32.finite f.azimuth && F32.finite f.pitch && F32.finite f.speed &&
    F32.finite f.power

/-- A feedback record arrives for a slice: a valid one ends FEEDBACK_LOST (R536). -/
def State.takeFeedback (s : State) (n : Nat) (valid : Bool) : State :=
  if !valid then s
  else
    let lost := at? s.net.feedbackLost n
    let s := { s with net.feedbackAt := upd s.net.feedbackAt n fun _ => some s.now,
                      net.feedbackLost := upd s.net.feedbackLost n fun _ => false }
    if lost then (s.judgeFeedback n).raiseN 76 n (some 0xFF) else s

/-! ## Decimal numbers and time labels of sentences (R549, R550) -/

/-- An ASCII digit. -/
def digitOf (c : Byte) : Option Nat := if 0x30 ≤ c.toNat ∧ c.toNat ≤ 0x39 then some (c.toNat - 0x30) else none
/-- A whole number of one digit or more. -/
def wholeOf (cs : List Byte) : Option Nat :=
  if cs.isEmpty then none else cs.foldl (fun a c => match a, digitOf c with | some v, some d => some (v * 10 + d) | _, _ => none) (some 0)
/-- A decimal number as a numerator and the number of its decimals. -/
def decimalOf (cs : List Byte) : Option (Int × Nat) :=
  let (sign, cs) : Int × List Byte := match cs with
    | 0x2D :: r => (-1, r)
    | 0x2B :: r => (1, r)
    | r => (1, r)
  let (whole, frac) := cs.span (· != 0x2E)
  let f := frac.drop 1
  (wholeOf (whole ++ f)).map fun v => (sign * v, f.length)
/-- A decimal number as FP64. -/
def numberOf (cs : List Byte) : Option F64 := (decimalOf cs).map fun (n, d) => f64OfRat n (10 ^ d)
/-- Degrees to radians. -/
def radOf (x : F64) : F64 := F64.div (F64.mul x F64.pi) (F64.ofNat 180)

/-- Field n of a sentence: the n-th comma-separated field after the address (R550). -/
def fieldOf (fs : List (List Byte)) (n : Nat) : List Byte := fs.getD n []
/-- Split at commas. -/
def splitCommas (cs : List Byte) : List (List Byte) :=
  cs.foldr (fun c a => if c == 0x2C then [] :: a else match a with | x :: r => (c :: x) :: r | [] => [[c]]) [[]]

/-- A latitude or longitude, (d)ddmm.mm with its hemisphere letter, in rad. -/
def angleOf (cs hemi : List Byte) (pos neg : Byte) : Option F64 :=
  match decimalOf cs with
  | some (n, d) =>
    let unit := 10 ^ d
    let deg := n.toNat / (100 * unit)
    let minutes : Int := n - deg * 100 * unit
    let v := radOf (f64OfRat (deg * 60 * unit + minutes) (60 * unit))
    if n < 0 then none else if hemi == [pos] then some v else if hemi == [neg] then some (F64.neg v) else none
  | none => none

/-- Days from 2000-01-01 to a date of the Gregorian calendar. -/
def daysFrom2000 (y m d : Nat) : Int :=
  let y' : Int := if m ≤ 2 then (y : Int) - 1 else y
  let m' : Int := if m ≤ 2 then (m : Int) + 9 else (m : Int) - 3
  365 * y' + y' / 4 - y' / 100 + y' / 400 + (153 * m' + 2) / 5 + ((d : Int) - 1) - 730425

/-- The whole second of UTC that a label names, in ns from the epoch of R22. -/
def utcLabel (time day month year : List Byte) : Option Int :=
  let (whole, frac) := time.span (· != 0x2E)
  match wholeOf whole, wholeOf day, wholeOf month, wholeOf year with
  | some t, some d, some m, some y =>
    if whole.length == 6 && (frac.drop 1).all (· == 0x30) then
      some ((daysFrom2000 y m d * 86400 + t / 10000 * 3600 + t / 100 % 100 * 60 + t % 100) * 1000000000)
    else none
  | _, _, _, _ => none

/-! ## Sentences (R549, R550) -/

/-- The value of a hexadecimal digit. -/
def hexOf (c : Byte) : Option Nat :=
  let n := c.toNat
  if 0x30 ≤ n ∧ n ≤ 0x39 then some (n - 0x30) else if 0x41 ≤ n ∧ n ≤ 0x46 then some (n - 0x37)
  else if 0x61 ≤ n ∧ n ≤ 0x66 then some (n - 0x57) else none

/-- The checksum of the characters between the start and '*'. -/
def sentenceSum (cs : List Byte) : Byte := cs.foldl (· ^^^ ·) 0

/-- Characters with a checksum field, cut at the '*': the text, and whether the two digits after it match; none without one. -/
def sumOf (cs : List Byte) : List Byte × Option Bool :=
  let (text, sum) := cs.span (· != 0x2A)
  match sum with
  | [] => (cs, none)
  | [_, h, l] => (text, some (match hexOf h, hexOf l with
      | some h, some l => (sentenceSum text).toNat == h * 16 + l
      | _, _ => false))
  | _ => (text, some false)

/-- The characters of an accepted sentence between its start and its checksum; none when R549 rejects it. -/
def sentenceBody (cs : List Byte) (checksumRequired : Bool) : Option (List Byte) :=
  match cs with
  | [] => none
  | start :: rest =>
    let body := rest.take (rest.length - 2)
    let ends := rest.drop (rest.length - 2) == [0x0D, 0x0A]
    let printable := body.all fun c => decide (0x20 ≤ c.toNat) && decide (c.toNat ≤ 0x7E)
    if !(start == 0x24 || start == 0x21) || cs.length < 16 || 82 < cs.length || !ends || !printable then none
    else
      match sumOf body with
      | (text, some true) => some text
      | (_, some false) => none
      | (text, none) => if checksumRequired then none else some text

/-- The lines of an IEC 61162-450 datagram, each with its LF (R552). -/
def linesOf (bs : List Byte) : List (List Byte) :=
  bs.foldr (fun c a => match a with
    | [] => [[c]]
    | x :: r => if c == 0x0A then [c] :: x :: r else (c :: x) :: r) []

/-- The sentence of a line without its tag block; none where the tag block's checksum fails (R552), or it has none (PRESUMED, log 17). -/
def untag : List Byte → Option (List Byte)
  | 0x5C :: r =>
    let (block, rest) := r.span (· != 0x5C)
    match rest, sumOf block with
    | _ :: sentence, (_, some true) => some sentence
    | _, _ => none
  | cs => some cs

/-- Does a sentence match a point's SELECTOR (R550)? -/
def selectorMatches (sel : BitVec 32) (address : List Byte) : Bool :=
  let f : List Byte := (be32 sel).take 3
  if sel.getLsbD 7 then address.head? == some 0x50 && (address.drop 1).take 3 == f && decide (4 ≤ address.length)
  else address.length == 5 && address.head? != some 0x50 && address.drop 2 == f

/-- What a matching sentence gives a point. -/
inductive Converted where
  | value (v : SampleVal)
  /-- A UTC time label for TB2_SENTENCE (R123). -/
  | label (utc : Option Int)
  deriving DecidableEq, Repr

/-- A scalar, invalid when it is absent. -/
def scalarOf (v : Option F64) (ok : Bool) : Converted := .value (.scalar (v.getD 0) (ok && v.isSome))

/-- R550: the value of a sentence for a field number. `fmt` is the formatter's number (three characters), `k` the number of
a free value for an empty height or HDOP. -/
def convertSentence (fs : List (List Byte)) (proprietary : Bool) (fmt : Nat) (n : Nat) (angle : Bool) (k : Nat) : Converted :=
  let f := fieldOf fs
  let active (n : Nat) : Bool := f n == [0x41]
  let fix (quality : Nat) (sep : Nat) : Converted :=
    let lat := angleOf (f 2) (f 3) 0x4E 0x53
    let lon := angleOf (f 4) (f 5) 0x45 0x57
    let h := match numberOf (f 9), numberOf (f sep) with
      | some a, some b => F64.add a b
      | _, _ => Config.missingField k
    let hdop := F64.to32 ((numberOf (f 8)).getD (Config.missingField k))
    .value (.fix quality (lat.getD 0) (lon.getD 0) h hdop (quality != 0 && lat.isSome && lon.isSome))
  let generic : Converted :=
    let v := numberOf (f n)
    scalarOf (if angle then v.map radOf else v) true
  if proprietary then generic
  else match fmt, n with
    | 0x474741, 0 => fix ((wholeOf (f 6)).getD 0) 11
    | 0x474E53, 0 => fix (if (f 6).all (· == 0x4E) then 0 else 1) 10
    | 0x484454, 1 => scalarOf ((numberOf (f 1)).map radOf) true
    | 0x544853, 1 => scalarOf ((numberOf (f 1)).map radOf) (active 2)
    | 0x524F54, 1 => scalarOf ((numberOf (f 1)).map fun v => F64.div (radOf v) (F64.ofNat 60)) (active 2)
    | 0x4D5756, 1 => scalarOf ((numberOf (f 1)).map radOf) (f 2 == [0x52] && active 5)
    | 0x4D5756, 3 =>
      let v := (numberOf (f 3)).bind fun v => match f 4 with
        | [0x4B] => some (F64.mul v (f64OfRat 1000 3600))
        | [0x4D] => some v
        | [0x4E] => some (F64.mul v (f64OfRat 1852 3600))
        | _ => none
      scalarOf v (f 2 == [0x52] && active 5)
    | 0x5A4441, 0 => .label (utcLabel (f 1) (f 2) (f 3) (f 4))
    | 0x524D43, 0 =>
      let d := f 9
      .label (if active 2 && d.length == 6 then utcLabel (f 1) (d.take 2) ((d.drop 2).take 2) ([0x32, 0x30] ++ d.drop 4) else none)
    | _, _ => generic

/-- An accepted sentence for the points of its port: the samples of the points it matches, and a time label where
TB2_SENTENCE names the point. -/
def State.sentenceSamples (s : State) (points : List PointRec) (body : List Byte) (stamp : Nat) : List Sample × State :=
  let fs := splitCommas body
  let address := fieldOf fs 0
  points.foldl (fun (a : List Sample × State) p =>
    let (out, s) := a
    if !selectorMatches p.selector address then (out, s)
    else
      let (k, s) := s.draw
      match convertSentence fs (p.selector.getLsbD 7) (p.selector.extractLsb' 8 24).toNat (p.selector.extractLsb' 0 7).toNat
          (s.pointIsAngle p.id) k with
      | .label utc => (out, match utc with
          | some u => if s.time.tb2Sentence.toNat = p.id then s.labelEdge u (s.now - (s.tb3 - stamp)) else s
          | none => s)
      | .value v => (out ++ [{ point := p.id, member := s.me, stamp := s.stampOf p.id stamp, val := v }], s)) ([], s)

/-! ## Into the alignment buffer (R44) -/

/-- The parsers move samples into the buffer while it takes them; what it does not take is answered. -/
def State.offerAll (s : State) : List Sample → List Sample × State
  | [] => ([], s)
  | x :: xs =>
    if s.cycle.stopped then (x :: xs, s)
    else if s.bufferFull then (x :: xs, s.meetFull)
    else (s.enterBuffer x).offerAll xs

/-- The Ethernet sentence queue drains into the buffer. -/
def State.drainEth (s : State) : State :=
  let (rest, s) := s.offerAll s.net.ethSentences
  { s with net.ethSentences := rest }

/-- A datagram for points is parsed: a feedback record, a reference datagram, or a number (R532). -/
def State.parseDatagram (s : State) (d : EthIn) (udp : BitVec 16) : List Sample × State :=
  let points := (s.ownPoints 10 d.port).filter fun p => p.period != 0 && p.selector == udp.setWidth 32
  points.foldl (fun (a : List Sample × State) p =>
    let (out, s) := a
    let sample (stamp : Nat) (v : SampleVal) : Sample := { point := p.id, member := s.me, stamp := stamp, val := v }
    match s.feedbackSlice p.id with
    | some n =>
      let f := feedbackOf d.payload
      let ok := feedbackValid f && d.payload.length == 20
      (out ++ [sample d.stamp (.feedback f ok)], s.takeFeedback n ok)
    | none =>
      match Machine.parseDatagram d.payload with
      | some (age, direct, rets) =>
        let stamp := s.stampOf p.id d.stamp - age * us
        let (v, s) := s.takeDatagram p.id (some (direct, rets)) stamp
        (out ++ [sample stamp v], s)
      | none => (out ++ [sample (s.stampOf p.id d.stamp) (.datagram none [])], s)) ([], s)

/-- The characters of a line of an IEC 61162-450 datagram; none where it is rejected. CHECKSUM_REQUIRED is taken as 1 (R552). -/
def acceptedBody (line : List Byte) : Option (List Byte) := (untag line).bind fun x => sentenceBody x true

/-- A line of an IEC 61162-450 datagram is judged and converted (R552). -/
def State.parse450 (s : State) (d : EthIn) (x : List Byte) : List Sample × State :=
  match acceptedBody x with
  | none =>
    let run := at? s.net.rejectRun450 d.port
    let s := { s with net.rejectRun450 := upd s.net.rejectRun450 d.port fun _ => true }
    ([], if run then s else s.raiseN 103 d.port)
  | some body =>
    { s with net.rejectRun450 := upd s.net.rejectRun450 d.port fun _ => false }.sentenceSamples (s.ownPoints 11 d.port) body d.stamp

/-- Samples pass the Ethernet sentence queue into the buffer. -/
def State.queueEth (s : State) (xs : List Sample) : State :=
  { s with net.ethSentences := s.net.ethSentences ++ xs }.drainEth

/-- Does the Ethernet parser stop before it takes `need` samples: at the full buffer, or where the sentence queue of 256 lacks room
for them (R44)? -/
def State.ethStops (s : State) (need : Nat) : Bool :=
  s.cycle.stopped || (!s.net.ethSentences.isEmpty && decide (256 < s.net.ethSentences.length + need))

/-- The Ethernet parser takes the sentences of a datagram while it does not stop; what it leaves is answered. -/
def State.take450 (s : State) (d : EthIn) : List (List Byte) → List (List Byte) × State
  | [] => ([], s)
  | x :: xs =>
    let need := match acceptedBody x with
      | some b => ((s.ownPoints 11 d.port).filter fun p => selectorMatches p.selector (fieldOf (splitCommas b) 0)).length
      | none => 0
    if s.ethStops need then (x :: xs, s)
    else
      let (ys, s) := s.parse450 d x
      (s.queueEth ys).take450 d xs

/-- The Ethernet parser takes a datagram; the part it leaves waits in switch memory (R44). -/
def State.takeEth (s : State) (d : EthIn) : Option EthIn × State :=
  match d.udp with
  | some u =>
    if s.ethStops (s.ownPoints 10 d.port).length then (some d, s)
    else
      let (xs, s) := s.parseDatagram d u
      (none, s.queueEth xs)
  | none =>
    match s.take450 d d.lines with
    | ([], s) => (none, s)
    | (rest, s) => (some { d with lines := rest }, s)

/-- Datagrams that waited in switch memory are parsed in order while the parser runs; what it leaves goes on waiting. -/
def State.drainWaitingEth (s : State) : List EthIn → State
  | [] => { s with net.ethWait := [] }
  | d :: ds =>
    match s.takeEth d with
    | (none, s) => s.drainWaitingEth ds
    | (some d, s) => { s with net.ethWait := d :: ds }

/-- The samples of a CAN frame: the values of every CAN_SIGNAL point of its controller with its identifier (R533, R534,
R544). -/
def State.canSamples (s : State) (n : Nat) (f : CanFrame) : List Sample × State :=
  let key := BitVec.ofNat 32 (f.id.toNat + flagBit f.extended 31)
  let points := (s.ownPoints 9 n).filter fun p => p.selector == key && p.period != 0
  points.foldl (fun (a : List Sample × State) p =>
    let (out, s) := a
    let sample (stamp : Nat) (v : SampleVal) : Sample := { point := p.id, member := s.me, stamp := stamp, val := v }
    let data := f.data.drop p.mode
    match s.feedbackSlice p.id with
    | some k =>
      let r := feedbackOf data
      let ok := feedbackValid r && decide (20 ≤ data.length)
      (out ++ [sample f.stamp (.feedback r ok)], s.takeFeedback k ok)
    | none =>
      let v := f32At data 0
      let ok := decide (4 ≤ data.length) && F32.finite v
      (out ++ [sample (s.stampOf p.id f.stamp) (.scalar (F64.of32 v) ok)], s)) ([], s)

/-- The CAN parser reads the head buffers of a controller, each whole under the lock; it stops, the head locked, when the
alignment buffer lacks room for the frame's samples. At the release of the lock the shadow frame takes the tail (R544). -/
def State.drainCan (s : State) (n : Nat) : Nat → State
  | 0 => s
  | fuel + 1 =>
    match (at? s.net.can n).rx with
    | [] => s
    | f :: rest =>
      if s.cycle.stopped then s.setCan n fun c => { c with locked := true }
      else
        let key := BitVec.ofNat 32 (f.id.toNat + flagBit f.extended 31)
        let need := ((s.ownPoints 9 n).filter fun p => p.selector == key && p.period != 0).length
        if 0 < need ∧ 1024 < s.cycle.buffer.length + s.cycle.held.length + need then
          (s.setCan n fun c => { c with locked := true }).meetFull
        else
          let s := s.setCan n fun c => { c with rx := rest ++ c.shadow.toList, shadow := none, locked := false }
          let (xs, s) := s.canSamples n f
          let s := xs.foldl State.enterBuffer s
          s.drainCan n fuel

/-- At the release the parsers go on with what waits in the ingress stores (R44, R46). -/
def State.resumeParsers (s : State) : State :=
  let s := s.drainEth
  let s := s.drainWaitingEth s.net.ethWait
  [0, 1, 2, 3].foldl (fun s n => s.drainCan n 65) s

end Sys2Proof.Machine
end

