-- ==== Sys2Proof/Machine/Saf.lean ====
section
/-! DEFINITION. The safety logic island: thruster enables, safety inputs, the command-path monitor, the checks of the
enables, self-test, clock watch and reset (spec/12_safety_functions.md). -/

namespace Sys2Proof.Machine

/-! ## Enables (R436-R439) -/

/-- The thruster enables this module carries. -/
def State.enables (s : State) : List Nat := (List.range 16).filter s.isEnable
/-- A mask of thruster slices. -/
def maskOfSlices (l : List Nat) : Nat := maskOf ((List.range 16).map l.contains)

/-- A cause holds a removal. -/
def GateCauses.any (g : GateCauses) : Bool :=
  g.start || g.inputs != 0 || g.cmd || g.clock_ || g.selftest || g.gateFault

/-- ENABLE_REMOVED (R456): 1 for a slice without an enable. -/
def State.enableRemoved (s : State) : BitVec 16 :=
  BitVec.ofNat 16 (maskOf ((List.range 16).map fun n => !s.isEnable n || (at? s.saf.gates n).removed))

/-- Change the gates of some enables; a cause that holds removes (R437, R438). -/
def State.setGates (s : State) (ns : List Nat) (f : GateCauses → GateCauses) : State :=
  { s with saf.gates := s.saf.gates.mapIdx fun n g =>
      if ns.contains n then
        let g := f g
        { g with removed := g.removed || g.any, offSince := if g.removed then g.offSince else s.now }
      else g }

/-- What the removal of enables means to the observer and the law, at an instant (R249, R290, R492). `removedBy m n`:
member m reports the enable of THRn removed, or is out of step. -/
def State.judgeEnables (s : State) (instant : Nat) (removedBy : Nat → Nat → Bool) : State :=
  { s with law.thr := s.law.thr.mapIdx fun n t =>
      let ms := s.enableMembers n
      let off := !ms.isEmpty && ms.all fun m => removedBy m n
      { t with safOff := off, offAt := if off then t.offAt.or (some instant) else none } }

/-- In role ALONE the module is the only in-step member, and its own gates count at once (R492). -/
def State.judgeAlone (s : State) : State :=
  if s.group.role == .alone then
    s.judgeEnables s.tb3 fun m n => m != s.me || (at? s.saf.gates n).removed
  else s

/-- A trip: enables are removed, counted, and the source raised with the mask it removes (R437, R454, R455). -/
def State.safTrip (s : State) (ns : List Nat) (f : GateCauses → GateCauses) (source p0 channel : Nat) : State :=
  let mask := maskOfSlices ns
  let s := (s.setGates ns f).judgeAlone
  let s := { s with saf.trips := sat32 s.saf.trips, saf.lastTripAt := s.tb3, saf.lastTripSource := BitVec.ofNat 8 source,
                    saf.lastTripChannel := BitVec.ofNat 8 channel, saf.lastTripMask := BitVec.ofNat 16 mask }
  s.raiseN source p0 (some mask)

/-! ## Safety inputs (R440-R444) -/

/-- Change a safety input. -/
def State.setInput (s : State) (i : Nat) (f : SafInput → SafInput) : State := { s with saf.inputs := upd s.saf.inputs i f }

/-- The enables an input's function removes: all for SF-ESD, the named one for SF-THR (R435). -/
def State.inputTargets (s : State) (x : SafInput) : List Nat :=
  match x.function.toNat with
  | 1 => s.enables
  | 2 => s.enables.filter (· == x.thr.toNat)
  | _ => []

/-- Input `i` acts on its function; a cause already latched raises nothing (R454). -/
def State.inputTrip (s : State) (i : Nat) (pattern : Bool) : State :=
  let x := at? s.saf.inputs i
  if x.function = 0 || x.latched then s
  else
    let s := s.setInput i fun x => { x with latched := true }
    s.safTrip (s.inputTargets x) (fun g => { g with inputs := g.inputs ||| BitVec.ofNat 8 (2 ^ i) })
      (if x.function = 1 then 88 else 89) (24 + i + flagBit pattern 8) (24 + i)

/-- Has a time passed on SAF's ring, which may run 3 % fast (R38, R446)? -/
def ringPassed (since length now : Nat) : Bool := decide (length * 100 ≤ (now - since) * 103)

/-- SAFETY_DEMAND (R443): the input has read 0 for FILTER_US, so it read 1 no later than that before. -/
def execSafetyDemand (t : Nat) (input : Fin 8) (s : State) : Out :=
  runPowered t s fun s =>
    let x := s.saf.inputs[input]
    let read0 := match x.highSince with | some h => ringPassed h (x.filterUs * us) s.now | none => true
    if !read0 then s
    else
      let s := s.setInput input fun x =>
        { x with raw := false, filtered := false, demand := x.function != 0, highSince := none }
      s.inputTrip input false

/-- SAFETY_INPUT_HEALTHY (R441): the input reads 1 from here on; its demand shows no longer and its removal becomes
releasable after FILTER_US (R452). -/
def execSafetyInputHealthy (t : Nat) (input : Fin 8) (s : State) : Out :=
  runPowered t s fun s =>
    s.setInput input fun x => { x with raw := true, filtered := true, demand := false, highSince := some s.now }

/-- TEST_PULSE_MISMATCH (R442): not made while FLD_A is in UVLO; each input fed from the source demands. -/
def execTestPulseMismatch (t : Nat) (tp : Fin 4) (s : State) : Out :=
  runPowered t s fun s =>
    if (at? s.field.banks 0).uvlo then s
    else
      let s := if s.saf.tpFault[tp] then s
        else { s with saf.tpFault := s.saf.tpFault.set tp true }.raiseN 91 (0xF0 + tp) (some tp)
      (List.range 8).foldl (fun s i =>
        let x := at? s.saf.inputs i
        if x.function != 0 && x.tp.toNat == tp.val then
          (s.setInput i fun x => { x with demand := true, highSince := none }).inputTrip i false
        else s) s

/-- PATTERN_FAULT (R444): a demand of the input's function, and TEST_PULSE_MISMATCH; not while the input demands, nor in
UVLO of FLD_A (R442). -/
def execPatternFault (t : Nat) (input : Fin 8) (s : State) : Out :=
  runPowered t s fun s =>
    let x := s.saf.inputs[input]
    if x.function = 0 || x.demand || (at? s.field.banks 0).uvlo then s
    else
      let was := x.patternFail
      let s := s.setInput input fun x => { x with patternFail := true, highSince := none }
      let s := if was then s
        else { s with saf.patternFaults := sat32 s.saf.patternFaults }.raiseN 91 (24 + input) (some x.tp.toNat)
      s.inputTrip input true

/-! ## The command-path monitor (R445, R446) -/

/-- CMD_LIMIT in us: 400 ms while HANDOVER is set. -/
def State.cmdLimit (s : State) : Nat := if s.field.handover then 400000 else s.saf.cmdLimitUs.toNat

/-- SAF reads the front copy of the command snapshot after a flip. -/
def State.safReads (s : State) : State :=
  let f := s.cycle.front
  if f.seq == s.saf.cmdLast then { s with saf.cmdArmed := f.armed }
  else { s with saf.cmdLast := f.seq, saf.cmdArmed := f.armed, saf.cmdChangedAt := s.now, saf.cmdFresh := false,
                saf.cmdChanges := if s.saf.cmdTripped then s.saf.cmdChanges + 1 else s.saf.cmdChanges }

/-- SF_CMD (R445): the armed sequence has not changed for CMD_LIMIT on SAF's ring, which may run 3 % fast (R446). -/
def execSfCmd (t : Nat) (s : State) : Out :=
  runPowered t s fun s =>
    if s.saf.cmdArmed && !s.saf.cmdFresh && !s.saf.cmdTripped &&
        ringPassed s.saf.cmdChangedAt (s.cmdLimit * us) s.now then
      { s with saf.cmdTripped := true, saf.cmdChanges := 0 }.safTrip s.enables (fun g => { g with cmd := true }) 90 s.cmdLimit 0xFF
    else s

/-! ## Checks of the enables (R447-R449) -/

/-- A gate fault: the enable is held removed until a cold start after the fault has gone. -/
def State.gateFault (s : State) (n kind : Nat) : State :=
  if (at? s.saf.gates n).gateFault then s
  else ((s.setGates [n] fun g => { g with gateFault := true }).judgeAlone).raiseN 92 n (some kind)

/-- Is a dark pulse of an enable due on SAF's ring: every 2 s, and never within 10 ms of a pulse of another enable (R447)? -/
def State.darkDue (s : State) (n : Nat) : Bool :=
  (List.range 16).all fun k => match at? s.saf.darkAt k with
    | some a => ringPassed a (if k = n then 2 * second else 10 * ms) s.now
    | none => true

/-- DARK_PULSE (R447): gate pulses and driver pulses alternate on an enable that is on. -/
def execDarkPulse (t : Nat) (thr : Fin 16) (fell : Bool) (s : State) : Out :=
  runPowered t s fun s =>
    if !s.isEnable thr || s.saf.gates[thr].removed || F32.le (s.uValue thr) 0 || !s.darkDue thr then s
    else
      let driver := s.saf.darkDriver[thr]
      let s := { s with saf.darkPulses := sat32 s.saf.darkPulses, saf.darkDriver := s.saf.darkDriver.set thr (!driver),
                        saf.darkAt := s.saf.darkAt.set thr (some s.now) }
      if fell then s else s.gateFault thr (if driver then 3 else 1)

/-- HELD_OFF_CHECK_FAIL (R448): the pin is checked from 50 us after removal, and has been high for 100 us. -/
def execHeldOffCheckFail (t : Nat) (thr : Fin 16) (s : State) : Out :=
  runPowered t s fun s =>
    let g := s.saf.gates[thr]
    if s.isEnable thr && g.removed && ringPassed g.offSince (150 * us) s.now then s.gateFault thr 2 else s

/-! ## Self-test and clock (R39, R450, R451) -/

/-- A self-test's outcome: 0 passes, 1 to 5 is the value of the failing test. -/
def State.safTest (s : State) (outcome : Fin 6) : State :=
  if outcome = 0 then { s with saf.selftestsPassed := sat32 s.saf.selftestsPassed }
  else if s.saf.selftestFail then s
  else
    let s := { s with saf.selftestFail := true }
    ((s.setGates s.enables fun g => { g with selftest := true }).judgeAlone).raiseN 93 outcome (some 0)

/-- SAF_PERIODIC_SELFTEST (R450): every 10 s of SAF's ring after the cold start's. -/
def execSafPeriodicSelftest (t : Nat) (outcome : Fin 6) (s : State) : Out :=
  runPowered t s fun s =>
    if ringPassed s.saf.testedAt (10 * second) s.now then { s with saf.testedAt := s.now }.safTest outcome else s

/-- SAF_SELFTEST from the host: IDLE and TEST only (R455). -/
def State.hostSelftest (outcome : Fin 6) (s : State) : Done :=
  if s.modes.mode == .idle || s.modes.mode == .test then { state := s.safTest outcome } else refuse .wrongMode s

/-- CLOCK_LOSS (R39): every enable is removed, every output goes to its safe state. -/
def execClockLoss (t : Nat) (s : State) : Out :=
  runPowered t s fun s =>
    if s.saf.clockLost then { s with saf.clockReleasable := false, saf.clockLostAt := s.now }
    else
      let s := s.captureHolds
      let s := { s with saf.clockLost := true, saf.clockReleasable := false, saf.clockLostAt := s.now }
      ((s.setGates s.enables fun g => { g with clock_ := true }).judgeAlone).raiseN 94 0 (some 0xFFFF)

/-- CLOCK_LOSS_RELEASE (R451): reference edges have been present without a break for 10 ms. -/
def execClockLossRelease (t : Nat) (s : State) : Out :=
  runPowered t s fun s =>
    if s.saf.clockLost && decide (s.saf.clockLostAt + 10 * ms ≤ s.now) then { s with saf.clockReleasable := true } else s

/-! ## Reset (R452) -/

/-- May the cause that input `i` holds be released? A demand after FILTER_US of 1; a pattern fault after two periods of
the pattern, 16 ms, in which nothing failed. -/
def State.inputReleasable (s : State) (i : Nat) : Bool :=
  let x := at? s.saf.inputs i
  match x.highSince with
  | none => false
  | some h => decide (h + x.filterUs * us ≤ s.now) && (!x.patternFail || decide (h + 16 * ms ≤ s.now))

/-- May SF-CMD be released? -/
def State.cmdReleasable (s : State) : Bool := decide (2 ≤ s.saf.cmdChanges) || !s.saf.cmdArmed

/-- What remains of a gate's causes when every releasable one is released. -/
def State.afterRelease (s : State) (g : GateCauses) : GateCauses :=
  let keep := (List.range 8).filter fun i => g.inputs.getLsbD i && !s.inputReleasable i
  { g with start := g.start && !s.hasStructure, inputs := BitVec.ofNat 8 (maskOf ((List.range 8).map keep.contains)),
           cmd := g.cmd && !s.cmdReleasable, clock_ := g.clock_ && !s.saf.clockReleasable }

/-- READY (R456): a reset would leave no removal of this module's gates. -/
def State.safReady (s : State) : Bool := s.enables.all fun n => !(s.afterRelease (at? s.saf.gates n)).any

/-- SAF_RESET (R452): every releasable cause is released, and a gate without a cause closes. -/
def State.safReset (s : State) : Done :=
  let released (i : Nat) : Bool := s.inputReleasable i
  let cmd := s.saf.cmdTripped && !s.cmdReleasable
  let clock := s.saf.clockLost && !s.saf.clockReleasable
  let gates := s.saf.gates.mapIdx fun n g =>
    if s.isEnable n then let g := s.afterRelease g; { g with removed := g.any } else g
  let inputs := s.saf.inputs.mapIdx fun i x =>
    if released i then { x with latched := false, patternFail := false } else x
  let tp := s.saf.tpFault.mapIdx fun n f => f && inputs.toList.any fun x => x.tp.toNat == n && x.latched
  let s := { s with saf.gates := gates, saf.inputs := inputs, saf.tpFault := tp, saf.cmdTripped := cmd,
                    saf.clockLost := clock, saf.clockReleasable := clock && s.saf.clockReleasable }
  let s := s.judgeAlone
  if s.enables.all fun n => !(at? s.saf.gates n).removed then { state := s } else { status := .busy, state := s, keep := true }

/-! ## Starts (R439) -/

/-- SAF_CONFIG's bytes 4 to 75 (R455): CMD_LIMIT, the record count and the eight records as loaded. -/
def State.safConfigBody (s : State) : List Byte :=
  be32 s.saf.cmdLimitUs ++ nat8 s.saf.records.length ++ zeros 3 ++
    ((List.range 8).map fun i => match s.saf.records[i]? with
      | some r => sliceAt r.raw 0 8
      | none => zeros 8).flatten

/-- An input as a SAFETY record makes it: it starts as demanding (R439). -/
def safInputOf (r : SafRecord) (old : SafInput) : SafInput :=
  { thr := BitVec.ofNat 8 r.thr, tp := BitVec.ofNat 2 r.tp, function := BitVec.ofNat 2 r.function, filterUs := r.filterUs,
    raw := old.raw, demand := r.function != 0 }

/-- An image load: every gate opens, START holds it; what depends on the former configuration is dropped (R439). -/
def State.safLoad (s : State) : State :=
  let records := (s.image.loaded.map (·.safety)).getD []
  let applies (i : Nat) : Option SafRecord := records.find? fun r => r.channel == 24 + i && (s.ownPoint? 1 (24 + i)).isSome
  let inputs := s.saf.inputs.mapIdx fun i x => match applies i with
    | some r => safInputOf r x
    | none => { raw := x.raw }
  let s := { s with saf.inputs := inputs, saf.records := records, saf.cmdTripped := false, saf.cmdChanges := 0,
                    saf.cmdFresh := true, saf.tpFault := .replicate 4 false,
                    saf.cmdLimitUs := BitVec.ofNat 32 (5 * s.cyc.period / 1000) }
  let s := { s with saf.crc := crc32c s.safConfigBody }
  let start (n : Nat) : BitVec 8 := BitVec.ofNat 8 (maskOf ((List.range 8).map fun i =>
    let x := at? s.saf.inputs i
    x.demand && (s.inputTargets x).contains n))
  let gates := s.saf.gates.mapIdx fun n g =>
    { g with start := true, inputs := start n, cmd := false, clock_ := s.saf.clockLost, selftest := s.saf.selftestFail,
             removed := true, offSince := if g.removed then g.offSince else s.now }
  { s with saf.gates := gates }.judgeAlone

/-! ## Reports (R455-R457) -/

/-- Does input `i` hold a removal: its own latch, or a gate it keeps open (R456, R457)? -/
def State.inputHolds (s : State) (i : Nat) : Bool :=
  (at? s.saf.inputs i).latched || s.enables.any fun n => (at? s.saf.gates n).inputs.getLsbD i

/-- ESD_LATCHED: an SF-ESD removal is held (R456). -/
def State.esdLatched (s : State) : Bool := (List.range 8).any fun i => (at? s.saf.inputs i).function == 1 && s.inputHolds i

/-- SAF_STATUS (R456). -/
def State.safStatus (s : State) : Word :=
  let demand := maskOf (s.saf.inputs.toList.map fun x => x.demand || x.patternFail)
  BitVec.ofNat 32 (s.enableRemoved.toNat * 2 ^ 16 + demand * 2 ^ 8 + flagBit s.esdLatched 7 + flagBit s.saf.cmdTripped 6 +
    flagBit s.saf.clockLost 5 + flagBit s.saf.selftestFail 4 +
    flagBit ((List.range 16).any fun n => s.isEnable n && (at? s.saf.gates n).gateFault) 3 +
    flagBit s.field.handover 2 + flagBit s.saf.cmdArmed 1 + flagBit s.safReady 0)

/-- SAF_INPUT (R457); `apart`: the last sample differs from the accepted level; `held`: the input holds a removal. -/
def SafInput.word (x : SafInput) (apart held : Bool) : Word :=
  BitVec.ofNat 32 (x.thr.toNat * 2 ^ 16 + x.tp.toNat * 2 ^ 14 + x.function.toNat * 2 ^ 12 + flagBit (x.raw != apart) 7 +
    flagBit x.filtered 6 + flagBit x.demand 5 + flagBit x.patternFail 4 + flagBit held 3)

/-- SAF_CONFIG (R455). -/
def State.safConfig (s : State) : List Byte := be32 s.saf.crc ++ s.safConfigBody

/-- SAF_COUNTERS (R455). -/
def State.safCounters (s : State) : List Byte :=
  nat32 s.saf.trips ++ nat32 s.saf.patternFaults ++ nat32 s.saf.darkPulses ++ nat32 s.saf.selftestsPassed

/-- SAF_LAST_TRIP (R455). -/
def State.safLastTrip (s : State) : List Byte :=
  nat64 s.saf.lastTripAt ++ be8 s.saf.lastTripSource ++ be8 s.saf.lastTripChannel ++ zeros 2 ++ be16 s.saf.lastTripMask ++
    zeros 2

end Sys2Proof.Machine
end

