-- ==== Sys2Proof/Machine/Cycle.lean ====
section
/-! DEFINITION. Release, exchange and estimate: how samples become the input frame of a cycle and the frame the estimate
(spec/01_cycle_and_islands.md, R32-R45; spec/06_reference_fusion.md, R199-R205; spec/07_vessel_observer.md, R250-R252;
spec/14_group_redundancy.md, R493-R495). -/

namespace Sys2Proof.Machine

/-! ## What is due (R32) -/

/-- Is a sample of a point due in the cycle that ends its window at `tk`? An epoch of the receiver lies EPOCH_OFFSET after
a multiple of its period (R133). -/
def State.pointDue (s : State) (p : PointRec) (tk : Nat) : Bool :=
  let phase := if p.kind = 7 then s.gnss.epochOffset.toNat * ms else 0
  p.period != 0 && decide (phase ≤ tk) &&
    (let last := ((tk - phase) / p.period) * p.period + phase
     decide (tk < last + s.cyc.period) && decide (last ≤ tk))

/-- The points whose samples this member waits for: those of the enabled references that are not quarantined nor stale,
wired to it. -/
def State.dueHere (s : State) : List PointRec :=
  match s.image.loaded with
  | none => []
  | some i =>
    let live := (List.range 24).filter fun r =>
      let st := (at? s.fusion.refs r).state
      s.refLive r && (st == 1 || st == 2 || st == 3)
    let ids := live.flatMap fun r => ((i.refSlice r).map (·.points)).getD []
    i.points.filter fun p => ids.contains p.id && (p.member == s.me || p.member == 0xFF) && s.pointDue p s.cycle.tk

/-- Has the last due sample arrived? -/
def State.dueComplete (s : State) : Bool :=
  s.dueHere.all fun p => s.cycle.buffer.any fun x =>
    x.point == p.id && decide (s.cycle.tk < x.stamp + s.cyc.period) && decide (x.stamp ≤ s.cycle.tk)

/-! ## The estimate (R250) -/

/-- The input frame of cycle k is complete: the settings take effect, fusion votes, the observer estimates and the law
builds. What the estimate begins from is kept for an overrun (R252). -/
def State.runEstimate (s : State) : State :=
  let tk := s.cycle.tk
  let s := s.applyFusionWrites
  let s := s.takeLawSamples (s.cycle.late ++ s.cycle.frame)
  let s := { s with cycle.estEntry := some { obs := s.obs, obsOut := s.obsOut, history := s.history, sets := s.fusion.sets,
                                             law := s.law,
                                             dyn := s.dyn, sol := s.sol } }
  let (s, f) := s.fuse tk (s.predicted tk)
  let (s, posReset, hdgReset) := s.observe tk f
  let s := { s with obs.overrun := false }
  { s.build tk posReset hdgReset with cycle.estDone := true }

/-- The sets make the frame (R35); every member judges the enables from them (R492). -/
def State.completeFrame (s : State) (sets : List ReleasedSet) : State :=
  let tk := s.cycle.tk
  let s := { s with cycle.frame := sets.flatMap ReleasedSet.samples, cycle.late := sets.flatMap ReleasedSet.late, cycle.frameDone := true,
                    gcycle.closeDone := true }
  let s := if s.group.role == .alone then s.judgeAlone
    else s.judgeEnables tk fun m n => match sets.find? (fun (x : ReleasedSet) => x.member == m) with
      | some x => x.safStatus.getLsbD (16 + n)
      | none => true
  s.runEstimate

/-! ## The exchange (R493-R495) -/

/-- A group write takes effect: a mode request waits for the tick, the settings of the two islands join the others
received (R495). -/
def State.queueGroupWrite (s : State) (w : SettingWrite) : State :=
  match objIsland w.object with
  | 5 => { s with fusion.pending := s.fusion.pending ++ [w] }
  | 6 => { s with law.pending := s.law.pending ++ [w] }
  | 1 => if objNum w.object = 0x31 then
      let m := Mode.ofCode (beVal w.value)
      { s with modes.pendingMode := if m == some s.modes.mode then none else m }
    else s
  | _ => s

/-- The set of a peer for the present cycle. -/
def State.peerSet (s : State) (m : Nat) : Option ReleasedSet :=
  (at? s.group.peers m).set.filter fun x => x.cycle == s.cycle.count

/-- The sets of a mask that this member holds. -/
def State.setsOf (s : State) (mask : BitVec 3) : List ReleasedSet :=
  [0, 1, 2].filterMap fun m =>
    if mask.getLsbD m then (if m = s.me then s.gcycle.ownSet else s.peerSet m) else none

/-- The mask of the sets held. -/
def State.heldMask (s : State) : BitVec 3 :=
  BitVec.ofNat 3 (maskOf ([0, 1, 2].map fun m =>
    if m = s.me then s.gcycle.ownSet.isSome else s.group.inStep.getLsbD m && (s.peerSet m).isSome))

/-- The LEAD closes the frame with the sets it holds and sends CLOSE; a member whose set lacks leaves step (R493). -/
def State.closeFrame (s : State) : State :=
  let mask := s.heldMask
  let missing := s.inStepPeers.filter fun m => !mask.getLsbD m
  let writes := s.group.groupWrites
  let s := writes.foldl State.queueGroupWrite { s with group.groupWrites := [] }
  let mode := if s.modes.mode == .safe then Mode.safe else s.modes.pendingMode.getD s.modes.mode
  let c : LlpClose := { cycle := s.cycle.count, epoch := s.group.epoch, sender := s.me, mask := mask, writes := writes,
                        mode := BitVec.ofNat 4 mode.code }
  let s := { s with gcycle.closed := some c }.sendLane (.close c)
  let s := if missing.isEmpty then s
    else
      let s := { s with group.inStep := s.group.inStep &&& mask, gcycle.exchangeLate := true,
                        group.counters := upd s.group.counters 1 sat32 }
      s.raiseN 111 (maskOf ([0, 1, 2].map missing.contains))
  s.completeFrame (s.setsOf mask)

/-- The LEAD closes as soon as it holds the set of every in-step member. -/
def State.tryClose (s : State) : State :=
  if s.group.role == .lead && !s.gcycle.closeDone && s.gcycle.ownSet.isSome &&
      s.inStepPeers.all (fun m => (s.peerSet m).isSome) then s.closeFrame
  else s

/-- A member other than the LEAD completes the frame when it holds every set CLOSE lists (R493). -/
def State.tryComplete (s : State) : State :=
  match s.gcycle.closed with
  | some c =>
    if !s.cycle.frameDone && c.cycle == s.cycle.count && s.group.role != .lead && s.inStepSelf then
      let sets := s.setsOf c.mask
      if sets.length == ([0, 1, 2].filter (c.mask.getLsbD ·)).length then s.completeFrame sets else s
    else s
  | none => s

/-! ## Release (R32) -/

/-- What becomes of the held late samples at the release of cycle k (R203, R204). -/
def State.foldLate (s : State) (xs : List Sample) : List Sample × State :=
  let period := s.cyc.period
  xs.foldl (fun (a : List Sample × State) x =>
    let (out, s) := a
    let older := match s.obs.entered.find? (·.1 == x.point) with
      | some (_, st) => decide (x.stamp < st)
      | none => false
    let j := if period = 0 then s.cycle.count else (x.stamp + period - 1) / period
    if older then (out, s.countRef x.point 2)
    else if s.cyc.lateWindow ≠ 0 ∧ s.cycle.count ≤ j + s.cyc.lateWindow then
      (out ++ [x], s.countRef x.point 0)
    else (out, s.countRef x.point 1)) ([], s)

/-- Samples that waited enter while the buffer has room, each with its own stamp; then the parsers go on (R44). -/
def State.drainWaiting (s : State) : State :=
  let (slots, s) := { s with cycle.stopped := false }.offerAll s.cycle.slots
  let (waiting, s) := s.offerAll s.cycle.waiting
  let (fifo, s) := s.offerAll s.gnss.fifo
  { s with cycle.slots := slots, cycle.waiting := waiting, gnss.fifo := fifo }.resumeParsers

/-- Release cycle k: the samples of the window and the folded late ones leave the buffer as the member's released set. A sample
that waited for room enters after the frame is formed, as R46 has the parsers move a backlog that a release frees: one with a stamp
inside the window is late for the next cycle (DEDUCED, log 35). -/
def State.release (s : State) : State :=
  let tk := s.cycle.tk
  let lo := tk - s.cyc.period
  let fresh := s.cycle.buffer.filter fun x => decide (x.stamp ≤ tk) && (decide (lo < x.stamp) || decide (tk = 0))
  let old := s.cycle.buffer.filter fun x => decide (x.stamp ≤ lo) && decide (tk ≠ 0)
  let keep := s.cycle.buffer.filter fun x => decide (tk < x.stamp)
  let (late, s) := s.foldLate (s.cycle.held ++ old)
  let s := { s with cycle.buffer := keep, cycle.held := [], cycle.released := true, cycle.releasedAt := s.tb3 }
  let s := s.drainWaiting
  let set : ReleasedSet := { cycle := s.cycle.count, member := s.me, samples := fresh, late := late,
                             safStatus := s.safStatus }
  if s.group.role == .alone then s.completeFrame [set]
  else if s.inStepSelf then ({ s with gcycle.ownSet := some set }.sendLane (.set set)).tryClose.tryComplete
  else s

/-- The steps of R32 at a sample arrival: release at t_k + W or later, and before it once the last due sample is there. -/
def State.tryRelease (s : State) : State :=
  if s.cycle.ticking && !s.cycle.released && (decide (s.cycle.tk + s.cyc.waitLimit ≤ s.tb3) || s.dueComplete) then s.release else s

/-! ## Arrivals -/

/-- A sample from a parser arrives (R32); at a full buffer it waits in its parser's store (R44). -/
def State.arrive (s : State) (x : Sample) : State :=
  if !s.running then s
  else
    let (rest, s) := s.offerAll [x]
    { s with cycle.waiting := s.cycle.waiting ++ rest }.tryRelease

/-- The samples of an epoch arrive, one for each point of the receiver; at a full buffer they wait in the measurement FIFO (R44). -/
def State.arriveEpoch (s : State) (xs : List Sample) : State :=
  if !s.running then s
  else
    let (rest, s) := s.offerAll xs
    { s with gnss.fifo := s.gnss.fifo ++ rest }.tryRelease

/-- A sample of an AIN or FIO point arrives; at a full buffer it waits in its point's slot, and the one it replaces there
counts as SUPERSEDED (R44). -/
def State.arriveSlotted (s : State) (x : Sample) : State :=
  if !s.running then s
  else if s.cycle.stopped || s.bufferFull then
    let s := s.meetFull
    let s := if s.cycle.slots.any (·.point == x.point) then s.countRef x.point 2 else s
    { s with cycle.slots := s.cycle.slots.filter (fun (y : Sample) => y.point != x.point) ++ [x] }.tryRelease
  else (s.enterBuffer x).tryRelease

/-- Does a point's sample wait in a slot at a full buffer: AIN and FIO points? -/
def State.slottedPoint (s : State) (id : Nat) : Bool :=
  match s.point? id with | some p => p.kind == 3 || p.kind == 1 || p.kind == 5 || p.kind == 6 | none => false

/-! ## Rows -/

/-- SAMPLE_ARRIVAL (R32). A point the image does not hold delivers nothing; while the parsers stop, a parser's sample
waits in its store (R44, log 35). -/
def execSampleArrival (t : Nat) (sample : Sample) (s : State) : Out :=
  runRunning t s fun s =>
    if (s.point? sample.point).isNone then s
    else if s.slottedPoint sample.point then s.arriveSlotted sample
    else s.arrive sample

/-- WAIT_LIMIT_EXPIRY (R32): at t_k + W the buffer releases whatever has arrived. -/
def execWaitLimitExpiry (t : Nat) (s : State) : Out :=
  runRunning t s fun s =>
    if s.cycle.ticking && !s.cycle.released && decide (s.cycle.tk + s.cyc.waitLimit ≤ s.tb3) then s.release else s

/-- The exchange limit X_k (R493). -/
def State.exchangeLimit (s : State) : Nat := s.cycle.tk + s.cyc.waitLimit + 250 * us

/-- EXCHANGE_LIMIT (R493): the LEAD closes with the sets it holds. -/
def execExchangeLimit (t : Nat) (s : State) : Out :=
  runRunning t s fun s =>
    if s.group.role == .lead && s.cycle.released && !s.gcycle.closeDone && decide (s.exchangeLimit ≤ s.tb3) then s.closeFrame
    else s

/-- CLOSE_MISSING (R493, R494): without a CLOSE the successor closes from the sets it holds; a member that lacks a listed
set is out of step. -/
def execCloseMissing (t : Nat) (s : State) : Out :=
  runRunning t s fun s =>
    if s.group.role == .alone || s.group.role == .lead || !s.inStepSelf || s.cycle.frameDone || !s.cycle.released ||
        decide (s.tb3 < s.exchangeLimit + 100 * us) then s
    else match s.gcycle.closed.filter (·.cycle == s.cycle.count) with
      | some _ => s.setRole .resync 5
      | none => if s.successor == some s.me then s.completeFrame (s.setsOf s.heldMask) else s

/-- ESTIMATE_OVERRUN (R252): the updates are abandoned, the state propagated without update, and the fresh samples become
late samples of the next cycle. It can come only while the cycle's job has not started. -/
def execEstimateOverrun (t : Nat) (s : State) : Out :=
  runRunning t s fun s =>
    match s.cycle.estEntry with
    | none => s
    | some e =>
      if !s.cycle.estDone || s.cycle.acceptDone || s.obs.overrun || (s.sol.running.map (·.check)) == some false then s
      else
        let tk := s.cycle.tk
        let fresh := s.cycle.frame.filter fun x => !(s.refsOfPoint x.point).isEmpty && x.member == s.me
        let late := s.cycle.late.filter fun x => x.member == s.me
        let s := { s with obs := e.obs, obsOut := e.obsOut, history := e.history, law := e.law, dyn := e.dyn, sol := e.sol,
                          cycle.held := s.cycle.held ++ fresh, cycle.late := [], cycle.frame := [] }
        let s := late.foldl (fun s x => s.countRef x.point 1) s
        let s := (List.range 24).foldl (fun s r => s.setRefCfg r fun c =>
          { c with rejectRun := (at? e.sets r).rejectRun, gateFirst := (at? e.sets r).gateFirst }) s
        let s := { s.observeNothing false tk with obs.overrun := true }
        (s.build tk false false).raise 46

end Sys2Proof.Machine
end

