-- ==== Sys2Proof/Machine/Accept.lean ====
section
/-! DEFINITION. The solve and Accept: the solver's jobs and stops, the group's agreement, what SUP writes for SRV, the
retained state block, the copy, COMMIT and the grant (spec/09_allocation_solver.md, R329-R351; spec/13_modes_and_start_up.md,
R480; spec/14_group_redundancy.md, R496-R498, R514). -/

namespace Sys2Proof.Config
open Sys2Proof.Machine

/-- The bytes of thruster set-points that the digest of R496 takes; no rule lays them out (log 16). -/
opaque setpointBytes : List ThrusterSet → List Byte
/-- The bytes of the STATE fields that the digest of R496 takes; no rule lays them out (log 16). -/
opaque refStateBytes : List Nat → List Byte
/-- The bytes of a copy: the sections hold items whose layout no rule gives (R480, R514; log 16). -/
opaque copyEncode : Copy → List Byte
/-- What a copy's bytes say; none where a check fails (log 16). -/
opaque copyDecode : List Byte → Option Copy

end Sys2Proof.Config

namespace Sys2Proof.Machine

/-! ## The copies (R480, R514) -/

/-- The items of a retained state block, as they stand after an Accept. -/
def State.copyNow (s : State) (withHistory : Bool) : Copy :=
  { tb3At := s.cycle.tk + s.cyc.commandAt, cycle := s.cycle.count, digest := s.image.digest, mode := s.modes.mode,
    role := s.group.role, epoch := s.group.epoch, inStep := s.inStepMask, fusion := s.fusion, obs := s.obs,
    obsParams := s.obsParams, obsOut := s.obsOut,
    applied := match s.cycle.back with | some b => b.setpoints | none => s.cycle.applied,
    history := if withHistory then s.history else [], law := s.law, dyn := s.dyn, kept := s.sol.kept, plan := s.sol.plan,
    consecNet := s.res.consecNet, netRun := s.res.netRun, successRun := s.res.successRun, fallback := s.res.fallback,
    degraded := s.res.degraded, servo := s.servo, ephemerides := s.gnss.ephemerides, almanacs := s.gnss.almanacs,
    utcHeld := s.gnss.utcHeld, predictions := s.gnss.predict }

/-- SUP writes the retained state block into the older copy (R480). -/
def State.retain (s : State) : State :=
  let c := s.copyNow false
  if s.retained.newerB then { s with retained.a := some c, retained.newerB := false }
  else { s with retained.b := some c, retained.newerB := true }

/-- After its Accept of the copy cycle the LEAD captures the copy and sends it in chunks (R514). -/
def State.captureCopy (s : State) : State :=
  match s.gcycle.copyTo with
  | some (j, m) =>
    if s.group.role == .lead && j == s.cycle.count then
      let bytes := Config.copyEncode (s.copyNow true)
      let chunks := (List.range ((bytes.length + 8175) / 8176)).map fun i => LlpFrame.copyChunk (i * 8176) (bytes.extract (i * 8176) ((i + 1) * 8176))
      chunks.foldl (fun s f => s.sendLaneTo m f) { s with gcycle.copyTo := none }
    else s
  | none => s

/-! ## COMMIT and the grant (R496, R498) -/

/-- The cycle digest (R496). -/
def State.cycleDigest (s : State) : Word :=
  let sets := match s.cycle.back with | some b => b.setpoints | none => []
  crc32c (Config.setpointBytes sets ++ s.obsEstimate ++ Config.refStateBytes (s.fusion.refs.toList.map fun q => q.state.toNat) ++
    s.solveResultCore)

/-- Compare a peer's digest of cycle `k` with the own one (R496): a member other than the LEAD that differs from the LEAD
enters RESYNC; a match counts toward SPARE, afresh after a cycle without one (R515). -/
def State.compareCommit (s : State) (m : Nat) : State :=
  match (at? s.group.peers m).commit, s.gcycle.ownDigest with
  | some (k, d), some (own, e) =>
    if k != own then s
    else if s.group.role == .lead then
      if d == e then s
      else { s with group.counters := upd s.group.counters 2 sat32, group.inStep := s.group.inStep &&& ~~~(1#3 <<< m) }
    else if s.inStepSelf && (at? s.group.peers m).role == 0 then
      if d == e then
        (if s.group.role == .resync && s.gcycle.matchedAt != some k then
          { s with gcycle.matchedAt := some k,
                   group.stepCount := if s.gcycle.matchedAt.map (· + 1) == some k then min 50 (s.group.stepCount + 1) else 1 }
         else s)
      else { s with group.counters := upd s.group.counters 2 sat32 }.setRole .resync 5
    else s
  | _, _ => s

/-- HELLO as this member sends it (R489). -/
def State.helloBody (s : State) : Hello :=
  { role := BitVec.ofNat 8 s.group.role.code, mode := BitVec.ofNat 8 s.modes.mode.code,
    inStep := s.inStepMask.setWidth 8,
    options := s.optionsWord,
    digest := s.image.digest, granted := s.group.granted.getD 0, serial := s.factory.serial }

/-- HELLO on every link, and on the backup path when BACKUP_PORT names a port (R487, R489). -/
def State.sendHello (s : State) : State :=
  let h := s.llp (.hello s.helloBody)
  -- HELLO goes on a link whether it is up or not: ten of them bring it up (R486)
  let s := { s with group.links := s.group.links.map fun l => l.send s.now h }
  if s.group.backupPort = 0xFF then s
  else { s with group.backupSent := (s.group.backupSent ++ [h]).drop (s.group.backupSent.length + 1 - 64) }

/-- After Accept an in-step member sends COMMIT (R496). -/
def State.sendCommit (s : State) : State :=
  if s.group.role == .alone || !s.inStepSelf then s
  else
    let d := s.cycleDigest
    let s := { s with gcycle.ownDigest := some (s.cycle.count, d) }.sendLane
      (.commit s.cycle.count d (s.res.result.setWidth 8))
    [0, 1, 2].foldl (fun s m => if m = s.me then s else s.compareCommit m) s

/-- What follows every Accept: the retained copy, the copy for a member in RESYNC, COMMIT, and the grant with its HELLO. -/
def State.afterAccept (s : State) : State :=
  let s := { s with cycle.acceptDone := true }.retain.captureCopy.sendCommit
  let s := { s with group.granted := some s.cycle.count }
  if 1 < s.cyc.groupSize then s.sendHello else s

/-! ## Authority and Accept (R468, R490, R507) -/

/-- The member has authority (R507). -/
def State.authority (s : State) : Bool :=
  match s.group.role with
  | .lead => true
  | .alone => s.contacts.all fun m => !(s.peerRank m).above s.ownRank
  | _ => false

/-- Do this member's set-points come from the law: a positioning mode, in step or ALONE with authority (R462, R490)? -/
def State.lawAccepts (s : State) : Bool :=
  s.positioning && (if s.group.role == .alone then s.authority else s.inStepSelf)

/-- Accept in a positioning mode (R345). -/
def State.accept (s : State) (cand : Option Iterate) (agreed : Nat) (split late : Bool) : State :=
  match s.law.variant.bind s.variantRec with
  | some v => (s.acceptCandidate s.modes.mode v cand agreed split late).afterAccept
  | none => s

/-- The own candidate after a stop (R343). -/
def State.ownCandidate (s : State) (r : SolveReport) : Option Iterate :=
  match r.reason.toNat with
  | 0 => if r.iLast = 0 then s.sol.startIterate else some s.sol.cur
  | 1 | 3 => s.sol.best
  | _ => none

/-- The reports of the peers in step; none while one is missing. -/
def State.peerReports (s : State) : Option (List SolveReport) :=
  s.inStepPeers.foldl (fun a m => match a, s.sol.peers.find? (·.1 == m) with
    | some l, some (_, r) => some (l ++ [r])
    | _, _ => none) (some [])

/-- The common candidate of R344: the candidate, i*, GROUP_SPLIT. Iterate 0 is one only where a member stopped CONVERGED at it (R337). -/
def State.agree (s : State) (own : SolveReport) (others : List SolveReport) : Option Iterate × Nat × Bool :=
  let all := own :: others
  let low := all.foldl (fun a r => min a r.iLast) own.iLast
  if all.any fun r => r.reason == 2 || r.reason == 4 || r.reason == 5 then (none, low, false)
  else if all.all fun r => decide (r.iLast ≤ low + 1) then
    (if low = 0 then (if all.any fun r => r.reason == 0 && r.iLast == 0 then s.sol.startIterate else none) else if own.iLast = low then s.sol.best else s.sol.bestBefore, low, false)
  else (none, low, true)

/-- Accept as soon as what it needs is there: the own stop in role ALONE, every member's in a group. -/
def State.tryAccept (s : State) : State :=
  if s.cycle.acceptDone || !s.lawAccepts then s
  else match s.sol.stopped with
    | none => s
    | some r =>
      if s.group.role == .alone then s.accept (s.ownCandidate r) r.iLast false false
      else match s.peerReports with
        | none => s
        | some others =>
          let (c, i, split) := s.agree r others
          s.accept c i split false

/-! ## Stops (R343) -/

/-- SOL stops on a cycle job: the report goes to the peers, and Accept follows. A NOT_RUN result makes the next job FULL
(R328). -/
def State.stopSolve (s : State) (reason pivots : Nat) : State :=
  let run := reason ≠ 5
  let c := s.res.counters
  let c := if reason = 2 then upd c 4 sat32 else if reason = 5 then upd c 5 sat32 else c
  let r : SolveReport := { iLast := if run then s.sol.iter else 0, reason := BitVec.ofNat 4 reason,
                           conv := if reason = 0 then s.sol.iter else 0 }
  let s := { s with sol.running := s.sol.running.filter (·.check), sol.stopped := some r, sol.needFull := s.sol.needFull || !run,
                    res.stopReason := BitVec.ofNat 4 reason, res.iterations := r.iLast,
                    res.solveTime := if run then s.tb3 - s.sol.startedAt else 0, res.staticPivots := pivots,
                    res.counters := upd c 6 fun n => satAdd 0xFFFFFFFF n pivots }
  let s := if s.group.role == .alone || !s.inStepSelf then s else s.sendLane (.solveReport s.cycle.count r)
  s.tryAccept

/-- SOLVER_JOB_START (R333): the change set is applied and the starting point formed (R327, R338-R341). -/
def execSolverJobStart (t : Nat) (s : State) : Out :=
  runRunning t s fun s =>
    match s.sol.running, s.sol.queue with
    | none, j :: rest =>
      if j.check then { s with sol.queue := rest, sol.running := some j, sol.startedAt := s.tb3 }
      else if j.deadline ≤ s.tb3 then s
      else
        let s := { s with sol.queue := rest, sol.startedAt := s.tb3, sol.iter := 0, sol.best := none, sol.bestBefore := none,
                          sol.startIterate := none,
                          res.startKind := if j.startCold then 2 else if j.startMapped then 1 else 0 }
        let s := if j.startCold || j.startMapped then
            s.raiseN 53 (j.cycle % 2 ^ 32) (some ((if j.startCold then 2 else 1) + j.fromVariant * 256))
          else s
        let (s, ok) := s.applyJob j
        match s.variantRec j.variant with
        | some v =>
          if ok then
            let t0 := s.startPoint j v (qpOf v s.sol.values s.cyc.tolerance)
            { s with sol.running := some j, sol.cur := t0, sol.startIterate := some t0 }
          else s.stopSolve 5 0
        | none => s.stopSolve 5 0
    | _, _ => s

/-- Run the job in hand for at most `fuel` iterations. -/
def State.runJob (s : State) (j : SolverJob) (fuel : Nat) : State × Option Nat × Nat :=
  match s.variantRec j.variant with
  | none => (s, some 4, 0)
  | some v =>
    let p := qpOf v s.sol.values s.cyc.tolerance
    let r := p.run (s.jobCap j) fuel { cur := s.sol.cur }
    ({ s with sol.cur := r.cur, sol.iter := r.iter, sol.best := r.best, sol.bestBefore := r.bestBefore }, r.stop, r.pivots)

/-- SOLVE_STOP (R343): the solve converges, meets its cap or a value that is not finite, before the deadline. -/
def execSolveStop (t : Nat) (s : State) : Out :=
  runRunning t s fun s =>
    match s.sol.running with
    | some j =>
      if j.check || decide (j.deadline ≤ s.tb3) then s
      else
        let (s, stop, pivots) := s.runJob j (s.jobCap j)
        s.stopSolve (stop.getD 3) pivots
    | none => s

/-- A cycle job that has not started by its deadline: its entries are applied without solving (R329). -/
def State.retireJobs (s : State) : State :=
  let due := s.sol.queue.filter fun j => !j.check && decide (j.deadline ≤ s.tb3)
  due.foldl (fun s j =>
    let (s, _) := s.applyJob j
    { s with sol.iter := 0 }.stopSolve 5 0)
    { s with sol.queue := s.sol.queue.filter fun j => j.check || decide (s.tb3 < j.deadline) }

/-- SOLVER_DEADLINE (R343): SOL stops in the iteration it has reached. Outside the positioning modes, and for a member that
takes no set-points from the law, Accept writes the hold set (R468, R490). -/
def execSolverDeadline (t : Nat) (iterations : Nat) (inFactorisation : Bool) (s : State) : Out :=
  runRunning t s fun s =>
    if !s.cycle.ticking || s.tb3 < s.cycle.tk + s.cyc.deadline then s
    else
      let s := match s.sol.running with
        | some j =>
          if j.check then s
          else
            let (s, stop, pivots) := s.runJob j (min iterations (s.jobCap j))
            match stop with
            | some r => s.stopSolve r pivots
            | none =>
              if inFactorisation then
                (s.raiseN 55 (s.cycle.count % 2 ^ 32) (some (s.sol.iter + 1))).stopSolve 2 pivots
              else s.stopSolve 1 pivots
        | none => s
      let s := s.retireJobs
      if s.cycle.acceptDone || s.lawAccepts then s
      else s.acceptHold.afterAccept

/-- SOLVE_REPORT_TIMEOUT (R344, R497): the member proceeds with its own candidate. -/
def execSolveReportTimeout (t : Nat) (s : State) : Out :=
  runRunning t s fun s =>
    match s.sol.stopped with
    | some r =>
      if s.cycle.acceptDone || !s.lawAccepts || s.group.role == .alone ||
          decide (s.tb3 < s.cycle.tk + s.cyc.deadline + 100 * us) then s
      else s.accept (s.ownCandidate r) r.iLast false true
    | none => s

/-! ## The counters' thresholds (R350, R351) -/

/-- ALLOCATION_DEGRADED (R350). -/
def execAllocationDegraded (t : Nat) (s : State) : Out :=
  runRunning t s fun s =>
    if !s.res.degraded && decide (3 ≤ s.res.consecNet) then { s with res.degraded := true }.raiseN 50 256
    else if s.res.degraded && decide (s.res.successRun = 10) then { s with res.degraded := false }.raiseN 50 0
    else s

/-- FALLBACK_ON (R351): the cycle's safety net gives way to the fallback allocator. -/
def execFallbackOn (t : Nat) (s : State) : Out :=
  runRunning t s fun s =>
    match s.law.variant.bind s.variantRec with
    | some v =>
      if s.res.fallback || !s.lawAccepts || decide (s.res.netRun < s.cyc.netLimit) then s
      else
        let s := { s with res.fallback := true }
        let s := if s.cycle.back.isSome && s.res.result == (2 : BitVec 4) then
            let s := { s with res.counters := upd s.res.counters 2 (· - 1) }
            (s.applyThrust s.modes.mode v (s.fallbackOutput s.modes.mode v s.cycle.tk) none 3 0).afterAccept
          else s
        s.raise 51
    | none => s

/-- FALLBACK_OFF (R351): the solver's result of the cycle is applied. -/
def execFallbackOff (t : Nat) (s : State) : Out :=
  runRunning t s fun s =>
    match s.law.variant.bind s.variantRec with
    | some v =>
      if !s.res.fallback || decide (s.res.successRun < 10) then s
      else
        let s := { s with res.fallback := false }
        let s := match s.cycle.back, s.sol.kept with
          | some _, some (_, x, true) =>
            let s := { s with res.counters := upd s.res.counters 3 (· - 1) }
            (s.applyThrust s.modes.mode v (s.thrustOf v x.x) (v.statesOf x.x) 0 (s.slackOf v x.x)).afterAccept
          | _, _ => s
        s.raise 52
    | none => s

/-! ## The command snapshot (R37, R384) -/

/-- COMMAND_LATE (R37): SRV keeps the set-points of the previous cycle. -/
def execCommandLate (t : Nat) (s : State) : Out :=
  runRunning t s fun s =>
    if s.cycle.ticking && !s.cycle.acceptDone && !s.cycle.commandLate &&
        decide (s.cycle.tk + s.cyc.commandAt ≤ s.tb3 + 50 * us) then
      { s.countIdle with cycle.commandLate := true, cycle.acceptDone := true }.raise 14
    else s

/-- COMMAND_STALE (R384): three command instants without a flip in a positioning mode. -/
def execCommandStale (t : Nat) (s : State) : Out :=
  runRunning t s fun s =>
    if s.positioning && !s.cycle.staleRaised && decide (3 ≤ s.cycle.flipsMissed) then
      { s with cycle.staleRaised := true }.raise 75
    else s

/-- CHECK_DONE (R331): a CHECK job ends. -/
def execCheckDone (t : Nat) (pass : Bool) (s : State) : Out :=
  runRunning t s fun s =>
    match s.sol.running with
    | some j =>
      if j.check then { s with sol.running := none, res.checkAt := s.tb3, res.checkResult := if pass then 1 else 2 } else s
    | none => s

end Sys2Proof.Machine
end

