-- ==== Sys2Proof/Machine/Motion.lean ====
section
/-! DEFINITION. The commands of the servo island: slots, profile generators, gear groups, latch units, stepper drives,
injection and capture (spec/10_thruster_servo_and_motion.md, R362-R401). -/

namespace Sys2Proof.Machine

/-! ## Samples and their thresholds -/

/-- SLOT_SAMPLE (R367): the trigger of a slot; `latency` is the time in ns from its end of conversion to the update of its output. -/
def execSlotSample (t : Nat) (slot : Fin 32) (latency : Nat) (s : State) : Out :=
  runRunning t s fun s =>
    match s.slotHere slot with
    | some r => s.slotSample slot r (s.slotFeedback r) (s.missesBound slot r latency)
    | none => s

/-- LOOP_LIMIT (R370): on entry, and on exit with bit 8 clear. -/
def execLoopLimit (t : Nat) (slot : Fin 32) (s : State) : Out :=
  runRunning t s fun s =>
    let k := s.servo.counts[slot]
    if !k.loopLimit && decide (1000 ≤ k.clampedRun) then
      (s.setCounts slot fun k => { k with loopLimit := true }).raiseN 64 (slot + 256)
    else if k.loopLimit && decide (1000 ≤ k.unclampedRun) then
      (s.setCounts slot fun k => { k with loopLimit := false }).raiseN 64 slot
    else s

/-- FOLLOWING_ERROR (R371): every sample of FOLLOWING_TIME beyond the limit, or back within 0.8 of it. -/
def execFollowingError (t : Nat) (slot : Fin 32) (s : State) : Out :=
  runRunning t s fun s =>
    match s.slotHere slot with
    | none => s
    | some r =>
      let k := s.servo.counts[slot]
      let lasted (run : Nat) : Bool := decide (s.servo.coeffs[slot].followingTime * r.rate ≤ run * 1000)
      let e := F32.abs s.servo.slots[slot].err
      if !k.following && decide (0 < k.aboveRun) && lasted k.aboveRun then
        (s.setCounts slot fun k => { k with following := true }).raise 70 (BitVec.ofNat 32 (slot + 256)) e
      else if k.following && decide (0 < k.belowRun) && lasted k.belowRun then
        (s.setCounts slot fun k => { k with following := false }).raise 70 (BitVec.ofNat 32 slot) e
      else s

/-- SLOT_HOLD_END (R376): the held samples have run out; in FAULT or FROZEN the slot does not release (R377). -/
def execSlotHoldEnd (t : Nat) (slot : Fin 32) (s : State) : Out :=
  runRunning t s fun s =>
    let l := s.servo.slots[slot]
    if l.holding && l.holdLeft == 0 && l.state == 2 && !s.modes.gatheredHold && !l.faulted then
      (s.setSlot slot fun l => { l with holding := false }).raiseN 73 slot
    else s

/-- INJECTION_DONE (R393). -/
def execInjectionDone (t : Nat) (s : State) : Out :=
  runRunning t s fun s =>
    let c := s.servo.ic
    match s.slotHere c.slot with
    | some r =>
      if c.injRunning && c.finished r.rate c.injN then
        ({ s with servo.ic.injRunning := false, servo.ic.injSignal := 0 }.setSlot c.slot fun l =>
          { l with injecting := false }).raise 72
      else s
    | none => s

/-- CAPTURE_DONE (R394). -/
def execCaptureDone (t : Nat) (s : State) : Out :=
  runRunning t s fun s =>
    let c := s.servo.ic
    if c.capState == 2 && decide (c.capCount ≤ c.capData.length) then { s with servo.ic.capState := 3 }.raise 71 else s

/-! ## Slot writes (R374-R378) -/

/-- Is a value finite and the coefficient set that it makes valid (R374)? -/
def SlotCoeffs.set (c : SlotCoeffs) (num : Nat) (v : F32) : Option SlotCoeffs :=
  if !v.finite then none
  else if num = 0x10 then some { c with kp := v }
  else if num = 0x11 then some { c with ki := v }
  else if num = 0x12 then some { c with kd := v }
  else if 0x13 ≤ num ∧ num ≤ 0x17 then
    let b := c.bq1.set (num - 0x13) v
    if biquadStable b then some { c with bq1 := b } else none
  else if 0x18 ≤ num ∧ num ≤ 0x1C then
    let b := c.bq2.set (num - 0x18) v
    if biquadStable b then some { c with bq2 := b } else none
  else if num = 0x1D then some { c with ffGain := v }
  else if num = 0x1E then if F32.lt v c.outMax then some { c with outMin := v } else none
  else if num = 0x1F then if F32.lt c.outMin v then some { c with outMax := v } else none
  else if num = 0x20 then if F32.within c.outMin c.outMax v then some { c with faultOutput := v } else none
  else if num = 0x23 then if F32.le 0 v then some { c with followingLimit := v } else none
  else none

/-- A write of a slot coefficient: no slot state changes. -/
def State.writeCoeff (s : State) (n num : Nat) (v : F32) : Done :=
  match (at? s.servo.coeffs n).set num v with
  | some c => done { s with servo.coeffs := upd s.servo.coeffs n fun _ => c }
  | none => refuse .badValue s

/-- A write of SLOT_HOLD (R376). -/
def State.writeHold (s : State) (n : Nat) (r : LoopRec) (count : Nat) : Done :=
  if r.rate < count then refuse .badValue s
  else if count = 0 then done (s.setSlot n fun l => { l with holdLeft := 0 })
  else done (s.setSlot n fun l =>
    { l with holdLeft := count, holding := true, release := if l.release.isNone then some l.out else l.release })

/-- A write of SLOT_SETPOINT (R378). -/
def State.writeSlotSp (c : WriteCtx) (s : State) (n : Nat) (r : LoopRec) (v : F32) : Done :=
  if c.mode s != .test then refuse .wrongMode s
  else if r.outer != 0xFF then refuse .badValue s
  else done (s.setSlot n fun l => { l with hostSp := some (v, s.tb3) })

/-- The objects of a slot. -/
def State.slotWrite (c : WriteCtx) (n num : Nat) (v : List Byte) (s : State) : Done :=
  match s.slotHere n with
  | none => refuse .badObject s
  | some r =>
    let sized (len : Nat) (f : Unit → Done) : Done := checkValue (v.length == len) s f
    if num ≤ 4 then refuse .badValue s
    else if (0x10 ≤ num ∧ num ≤ 0x20) ∨ num = 0x23 then sized 4 fun _ => s.writeCoeff n num (f32At v 0)
    else if num = 0x21 then sized 2 fun _ => s.writeHold n r (beVal v)
    else if num = 0x22 then sized 4 fun _ => State.writeSlotSp c s n r (f32At v 0)
    else if num = 0x24 then sized 2 fun _ => checkValue (decide (1 ≤ beVal v) && decide (beVal v ≤ 10000)) s fun _ =>
      done { s with servo.coeffs := upd s.servo.coeffs n fun k => { k with followingTime := beVal v } }
    else refuse .badObject s

/-- COEFFICIENT_WRITE (R374). -/
def execCoefficientWrite (t : Nat) (req : Request) (slot : Fin 32) (number : BitVec 16) (value : F32) (s : State) : Out :=
  runHost t s fun s =>
    s.hostWrite req (objId 7 slot number.toNat) (be32 value) fun c s => s.slotWrite c slot number.toNat (be32 value)

/-- SLOT_HOLD (R376). -/
def execSlotHold (t : Nat) (req : Request) (slot : Fin 32) (samples : BitVec 16) (s : State) : Out :=
  runHost t s fun s => s.hostWrite req (objId 7 slot 0x21) (be16 samples) fun c s => s.slotWrite c slot 0x21 (be16 samples)

/-- SLOT_SETPOINT (R378). -/
def execSlotSetpoint (t : Nat) (req : Request) (slot : Fin 32) (value : F32) (s : State) : Out :=
  runHost t s fun s => s.hostWrite req (objId 7 slot 0x22) (be32 value) fun c s => s.slotWrite c slot 0x22 (be32 value)

/-! ## Profile generators (R380-R383) -/

/-- The thruster a profile generator serves, where its slots are this member's. -/
def State.generatorHere (s : State) (g : Nat) : Option ThrusterRec :=
  (s.thrusters.find? (·.generator == g)).filter fun r =>
    let ss := [r.azSlot, r.pitchSlot, r.speedSlot].filter (· != 0xFF)
    ss.isEmpty || ss.any fun n => (s.slotHere n).isSome
/-- The slot an axis feeds. -/
def axisSlot (r : ThrusterRec) : Nat → Nat
  | 0 => r.azSlot
  | 1 => r.pitchSlot
  | _ => r.speedSlot

/-- An axis takes a new target; a hold between forbidden sectors raises source 58 once on entry (R382). -/
def State.aimAxis (s : State) (r : ThrusterRec) (a : Nat) (target : F64) (host : Bool) : State :=
  let x := s.axis r.generator a
  let x := { x with host := host, moving := host }
  if a = 0 then
    let (y, holds) := x.aimAzimuth r.sectors target
    let s := s.setAxis r.generator a fun _ => y
    if holds && !x.sectorHeld then s.raiseN 58 r.slice else s
  else s.setAxis r.generator a fun _ => x.aim target

/-- Each flip of the command snapshot gives every shaped axis a new target, but those that PG_MOVE holds (R381, R383). -/
def State.aimAll (s : State) : State :=
  s.thrusters.foldl (fun s r =>
    if r.generator = 0xFF then s
    else [0, 1, 2].foldl (fun s a =>
      if axisSlot r a = 0xFF || (s.axis r.generator a).host then s
      else s.aimAxis r a (F64.of32 (axisValue (setOf s.cycle.front.setpoints r.slice) a)) false) s) s

/-- The objects of a profile generator. -/
def State.pgWrite (c : WriteCtx) (g num : Nat) (v : List Byte) (s : State) : Done :=
  match s.generatorHere g with
  | none => refuse .badObject s
  | some r =>
    let f := f32At v 0
    let ranged (a : Nat) (lo hi : F32) (put : ProfileAxis → ProfileAxis) : Done :=
      checkValue (v.length == 4 && F32.within lo hi f) s fun _ => done (s.setAxis g a put)
    match num with
    | 0 | 1 => refuse .badValue s
    | 2 => ranged 1 (f32OfRat 1 100) (F32.ofNat 2) fun x => { x with vmax := f }
    | 3 => ranged 2 (f32OfRat 1 10) (F32.ofNat 100) fun x => { x with vmax := f }
    | 4 => ranged 0 (f32OfRat 1 1000) (F32.ofNat 2) fun x => { x with amax := f }
    | 5 => ranged 1 (f32OfRat 1 100) (F32.ofNat 10) fun x => { x with amax := f }
    | 6 => ranged 2 (f32OfRat 1 10) (F32.ofNat 500) fun x => { x with amax := f }
    | 7 => ranged 0 (f32OfRat 1 1000) (F32.ofNat 10000) fun x => { x with jmax := f }
    | 8 => ranged 1 (f32OfRat 1 1000) (F32.ofNat 10000) fun x => { x with jmax := f }
    | 9 => ranged 2 (f32OfRat 1 1000) (F32.ofNat 10000) fun x => { x with jmax := f }
    | 0xA =>
      if c.mode s != .test then refuse .wrongMode s
      else
        let a := fieldAt v 0 1
        checkValue (v.length == 12 && decide (a ≤ 2) && zeroAt v 1 3 && axisSlot r a != 0xFF) s fun _ =>
          done (s.aimAxis r a (f64At v 4) true)
    | _ => refuse .badObject s

/-- PG_MOVE (R383). -/
def execPgMove (t : Nat) (req : Request) (generator : Fin 16) (axis : BitVec 8) (target : F64) (s : State) : Out :=
  runHost t s fun s =>
    let v := be8 axis ++ zeros 3 ++ be64 target
    s.hostWrite req (objId 7 (0x20 + generator) 0xA) v fun c s => s.pgWrite c generator 0xA v

/-! ## Gear groups (R385-R387) -/

/-- May a slot be a gear slave of a group (R385)? -/
def State.slaveOk (s : State) (g n : Nat) : Bool :=
  n == 0xFF ||
  (match s.slotHere n with
   | none => false
   | some r => r.outer == 0xFF && (s.slotPfb r).isSome && (s.namedBy n).isNone &&
      (List.range 8).all fun k => k == g || (List.range 4).all fun i => (at? (at? s.servo.gears k).slaves i).slot.toNat != n)

/-- Change a gear group. -/
def State.setGear (s : State) (g : Nat) (f : GearGroup → GearGroup) : State := { s with servo.gears := upd s.servo.gears g f }

/-- A write of GEAR_RATIO re-bases the slave at the present master count (R386). -/
def State.writeRatio (s : State) (g i : Nat) (v : List Byte) : Done :=
  checkValue (v.length == 8 && fieldAt v 4 4 != 0) s fun _ =>
    done (s.setSlave g i fun x => x.rebase (at? s.servo.gears g).count (intAt v 0 4) (fieldAt v 4 4))

/-- The objects of a gear group. -/
def State.gearWrite (c : WriteCtx) (g num : Nat) (v : List Byte) (s : State) : Done :=
  let n := beVal v
  if num = 0 then
    c.notPositioning s fun _ =>
      checkValue (v.length == 4 && decide (n < 256) && bitsOf n 4 2 == 0) s fun _ =>
        let ch := bitsOf n 0 3
        let p := at? s.field.pfb ch
        done (s.setGear g fun x =>
          { x with master := BitVec.ofNat 3 ch, en := bitOf n 3, fbSource := bitOf n 6, count := p.count,
                   fallback := x.fallback && bitOf n 3, engaging := x.engaging && bitOf n 3 })
  else if num = 1 then
    c.notPositioning s fun _ =>
      let ss := (List.range 4).map fun i => fieldAt v i 1
      let used := ss.filter (· != 0xFF)
      checkValue (v.length == 4 && ss.all (s.slaveOk g) && decide used.Nodup) s fun _ =>
        done (s.setGear g fun x =>
          { x with slaves := x.slaves.mapIdx fun i q => { q with slot := BitVec.ofNat 8 (ss.getD i 0xFF) } })
  else if num = 2 then checkValue (v.length == 8) s fun _ => done (s.setGear g fun x => { x with fallbackCount := intAt v 0 8 })
  else if num = 3 then refuse .badValue s
  else if 0x10 ≤ num ∧ num ≤ 0x13 then s.writeRatio g (num - 0x10) v
  else if 0x14 ≤ num ∧ num ≤ 0x17 then
    checkValue (v.length == 17 && fieldAt v 4 4 != 0 && decide (fieldAt v 16 1 ≤ 1)) s fun _ =>
      done (s.setSlave g (num - 0x14) fun x =>
        { x with nextP := intAt v 0 4, nextQ := fieldAt v 4 4, nextAt := intAt v 8 8, armed := fieldAt v 16 1 == 1,
                 lastMaster := (at? s.servo.gears g).count })
  else if 0x18 ≤ num ∧ num ≤ 0x1B then
    checkValue (v.length == 4 && F32.within F32.one (F32.ofNat 100000000) (f32At v 0)) s fun _ =>
      done (s.setSlave g (num - 0x18) fun x => { x with vmax := f32At v 0 })
  else refuse .badObject s

/-- GEAR_RATIO_WRITE (R386). -/
def execGearRatioWrite (t : Nat) (req : Request) (group : Fin 8) (slave : Fin 4) (p q : BitVec 32) (s : State) : Out :=
  runHost t s fun s =>
    s.hostWrite req (objId 7 (0x30 + group) (0x10 + slave)) (be32 p ++ be32 q) fun c s =>
      s.gearWrite c group (0x10 + slave) (be32 p ++ be32 q)

/-- Is a master channel lost: it reports a fault, or its count stands still across a frame whose sensor status bits warn (R387)? -/
def State.masterLost (s : State) (ch : Nat) : Bool :=
  let p := at? s.field.pfb ch
  p.faultRun || p.warnedStill

/-- GEAR_MASTER_LOST (R387): all slaves move together from their present targets to the fall-back master count. A slave that has
not engaged again stands on its move. -/
def execGearMasterLost (t : Nat) (group : Fin 8) (s : State) : Out :=
  runRunning t s fun s =>
    let x := s.servo.gears[group]
    if !x.en || (x.fallback && !x.engaging) || !s.masterLost x.master.toNat then s
    else
      let mf := if x.fbSource then x.fallbackCount else x.count
      let present (q : GearSlave) : Int := if x.engaging && !q.engaged then F64.floor q.axis.pos else q.at x.count
      let used := x.slaves.toList.filter (·.slot != 0xFF)
      let time (q : GearSlave) : Nat :=
        (F64.nearest (F64.div (F64.mul (F64.ofInt (q.at mf - present q).natAbs) (F64.ofNat second)) (F64.of32 q.vmax))).toNat
      let longest := used.foldl (fun m q => max m (time q)) 0
      (s.setGear group fun x =>
        { x with fallback := true, engaging := false, moveStart := s.now, moveTime := longest,
                 slaves := x.slaves.map fun q => { q with from_ := present q, moveTo := q.at mf, engaged := false } }).raiseN
        68 256

/-- GEAR_REENGAGE (R387): the master has been valid for 100 ms; each slave moves to its geared target, from the position and speed
of its fall-back, and engages. -/
def execGearReengage (t : Nat) (group : Fin 8) (s : State) : Out :=
  runRunning t s fun s =>
    let x := s.servo.gears[group]
    let ready := match x.validSince with | some a => decide (a + 100 * ms ≤ s.now) | none => false
    if !x.en || !x.fallback || x.engaging || !ready then s
    else
      let start (q : GearSlave) : GearSlave :=
        let at_ := F64.ofInt (q.fallTarget (s.now - x.moveStart) x.moveTime)
        let speed : F64 := if s.now < x.moveStart + x.moveTime then
            F64.div (F64.ofInt ((q.moveTo - q.from_) * second)) (F64.ofNat x.moveTime) else 0
        { q with axis := { pos := at_, vel := F64.to32 speed, goal := at_, target := at_, vmax := q.vmax, amax := F64.to32 (Config.gearAccel group),
                           jmax := F64.to32 (Config.gearJerk group) } }
      let s := s.setGear group fun x => { x with engaging := true, slaves := x.slaves.map start }
      if x.slaves.toList.all (·.slot == 0xFF) then
        (s.setGear group fun x => { x with fallback := false, engaging := false }).raiseN 68 0
      else s

/-- A frame of a PFB channel reaches the gear groups it is master of (R385, R387). -/
def State.gearMasterFrame (s : State) (ch : Nat) (good : Bool) (count : Int) (stamp : Nat) : State :=
  { s with servo.gears := s.servo.gears.map fun x =>
      if x.master.toNat != ch then x
      else if good then { x with count := count, lastValidAt := stamp, validSince := x.validSince.or (some s.now) }
      else { x with validSince := none } }

/-! ## Latch units (R388, R398) -/

/-- The objects of a latch unit. -/
def State.latchWrite (c : WriteCtx) (n num : Nat) (v : List Byte) (s : State) : Done :=
  let w := beVal v
  let stp := bitOf w 11
  if num = 0 then
    c.notPositioning s fun _ =>
      checkValue (v.length == 4 && bitsOf w 27 5 == 0 && bitsOf w 12 4 == 0 && bitsOf w 4 4 == 0 &&
          decide (bitsOf w 16 6 ≤ 32) && (!stp || (s.factory.optS && decide (bitsOf w 8 3 ≤ 3) && bitsOf w 16 6 != 32))) s fun _ =>
        done { s with servo.latches := upd s.servo.latches n fun x => { x with config := BitVec.ofNat 32 w } }
  else if num = 1 then refuse .badValue s
  else refuse .badObject s

/-- The count of a drive at an instant of TB3 of the last 32 us (R388). -/
def Stepper.countAt (q : Stepper) (now tb3 stamp : Nat) : Int := if now < q.stepAt + (tb3 - stamp) then q.countBefore else q.count

/-- R388: the count at `stamp` on the line between the two last good frames of an SSI or BiSS-C channel, as numerator and denominator;
none while those frames do not lie on either side of it. -/
def PfbChannel.between (p : PfbChannel) (stamp : Nat) : Option (Int × Nat) :=
  match p.prev with
  | none => none
  | some (before, from_) =>
    if before < p.stamp ∧ before ≤ stamp ∧ stamp ≤ p.stamp then
      some (from_ * (p.stamp - before : Nat) + (p.count - from_) * (stamp - before : Nat), p.stamp - before)
    else none

/-- R388: the count and the position a latch unit takes of its source at the edge, none while they are not known. A drive's count is the
one of its ring and `count` that of an incremental channel, known once the latch's filter has passed the edge; those of the other
channels stand between two frames. DESIGN CHOICE: the count of LATCH_DATA is then rounded down, the position is not (log 13). -/
def State.latchValue (s : State) (stp : Bool) (src lag stamp : Nat) (count : Int) : Option (Int × F64) :=
  let p := at? s.field.pfb src
  let position (x : F64) : F64 := F64.add p.offset (F64.mul p.scale x)
  if !stp && (p.mode == 1 || p.mode == 2) then
    (p.between stamp).map fun (n, d) => (n.fdiv d, position (f64OfRat n d))
  else if stamp + lag < s.tb3 then none
  else if stp then
    let k := (at? s.servo.steppers src).countAt s.now s.tb3 stamp
    some (k, f64OfRat k 256)
  else some (count, position (F64.ofInt count))

/-- LATCHED (R388): the count at an edge of the armed kind. -/
def execLatched (t : Nat) (unit : Fin 8) (falling : Bool) (stamp : Nat) (count : Int) (s : State) : Out :=
  runRunning t s fun s =>
    let x := s.servo.latches[unit]
    let w := x.config.toNat
    let stp := bitOf w 11
    let src := bitsOf w 8 3
    let lag := (bitsOf w 22 5 + 1) * us
    if !bitOf w 0 || !bitOf w (if falling then 3 else 2) || decide (s.tb3 < stamp) then s
    else match s.latchValue stp src lag stamp count with
    | none => s
    | some (count, pos) =>
      let every := bitOf w 1
      let y : LatchUnit := { config := if every then x.config else x.config &&& 0xFFFFFFFE, stamp := stamp, count := count,
                             position := pos, valid := true, overwritten := every && x.valid, falling := falling }
      let s := { s with servo.latches := upd s.servo.latches unit fun _ => y }
      let s := if stp then { s with servo.steppers := upd s.servo.steppers src fun q => { q with posValid := true } } else s
      s.raiseN 69 unit

/-! ## Stepper drives (R389-R392, R399) -/

/-- Change a drive. -/
def State.setStepper (s : State) (d : Nat) (f : Stepper → Stepper) : State :=
  { s with servo.steppers := upd s.servo.steppers d f }
/-- A drive of a fitted option S. -/
def State.stepper? (s : State) (d : Nat) : Option Stepper := if s.factory.optS then some (at? s.servo.steppers d) else none
/-- The slot that commands a drive. -/
def State.driveSlot (s : State) (d : Nat) : Option Nat := (s.ownPoint? 6 d).bind fun p => s.slotFor p.id

/-- A stall of a drive (R391): it stops and holds I_MAX; a third within 1 s locks it, and its slot enters FAULT. -/
def State.stepperStall (s : State) (d : Nat) (q : Stepper) : State :=
  let recent := (q.stalls.filter fun a => decide (s.now ≤ a + second)) ++ [s.now]
  let locks := decide (3 ≤ recent.length)
  let s := (s.setStepper d fun q =>
    { q with stopped := true, moving := false, rate := 0, weakSteps := 0, current := q.iMax, posValid := false, stalls := recent,
             stalledAt := some s.now, locked := locks }).raiseN 78 d
  if !locks then s
  else match s.driveSlot d with
    | some n =>
      if (at? s.servo.slots n).faulted then s
      else (s.slotFault n true).setSlot n fun l => { l with out := (at? s.servo.coeffs n).faultOut, outPrev := l.out }
    | none => s

/-- Does a drive's current follow the load angle: energised, and neither stopped nor locked? -/
def State.drives (s : State) (q : Stepper) : Bool :=
  !(q.stopped || q.locked || s.servo.stpVoltageOff || s.field.expired)

/-- Stall detection is active at step rates of STALL_MIN_RATE and above (R391). -/
def Stepper.watchesStall (q : Stepper) : Bool := q.moving && F32.le q.stallMinRate q.rate

/-- STEPPER_STALL (R391): the back-EMF's amplitude was below 25 % of the expected one for 4 consecutive full steps. -/
def execStepperStall (t : Nat) (drive : Fin 4) (s : State) : Out :=
  runPowered t s fun s =>
    match s.stepper? drive with
    | none => s
    | some q => if s.drives q && q.watchesStall && decide (4 ≤ q.weakSteps) then s.stepperStall drive q else s

/-- STALL_RESUME (R391): 50 ms after a stall, unless the drive is locked. -/
def execStallResume (t : Nat) (drive : Fin 4) (s : State) : Out :=
  runPowered t s fun s =>
    match s.stepper? drive with
    | none => s
    | some q => match q.stalledAt with
      | some a =>
        if q.locked || decide (s.now < a + 50 * ms) then s
        else s.setStepper drive fun q => { q with stopped := false, stalledAt := none }
      | none => s

/-- LIMIT of a stepper current loop (R629). -/
def State.stepperLimit (s : State) (d : Nat) (upper : Bool) (bound value : F32) : State :=
  s.raise 122 (BitVec.ofNat 32 (2 + flagBit upper 8)) (BitVec.ofNat 32 d) bound value

/-- The microsteps of a full step toward the target, at most 256 (R389). -/
def Stepper.nextMove (q : Stepper) : Int := max (-256) (min 256 (q.target - q.count))

/-- The step rate, in full steps/s, of a move made now. -/
def Stepper.rateOf (q : Stepper) (now : Nat) : F64 :=
  f64OfRat (q.nextMove.natAbs * second) (256 * max 1 (now - q.stepAt))

/-- May the drive make that move now: within STP_VMAX, within STP_AMAX of its last rate, and able to stop at its target (R389)? -/
def Stepper.mayStep (q : Stepper) (now : Nat) : Bool :=
  let v := q.rateOf now
  let sq (x : F64) := F64.mul x x
  let gain (steps : F64) := F64.mul (F64.mul F64.two (F64.of32 q.amax)) steps
  let left := f64OfRat (q.target - q.count).natAbs 256
  q.nextMove != 0 && F64.le v (F64.of32 q.vmax) &&
    F64.le (sq v) (F64.add (sq (F64.of32 q.rate)) (gain (f64OfRat q.nextMove.natAbs 256))) && F64.le (sq v) (gain left)

/-- STEPPER_CURRENT_STEP (R390): a full step toward the target, once STP_VMAX and STP_AMAX allow it; the load angle moves the current
within I_MIN to I_MAX, and above 120 degrees it is a stall (R391). `emf` is the back-EMF's amplitude in % of the expected one. -/
def execStepperCurrentStep (t : Nat) (drive : Fin 4) (angle : BitVec 8) (emf : BitVec 8) (s : State) : Out :=
  runPowered t s fun s =>
    match s.stepper? drive with
    | none => s
    | some q =>
      if !s.drives q || !q.mayStep s.now then s
      else
        let degrees := min 180 angle.toNat
        let q := { q with countBefore := q.count, count := q.count + q.nextMove, rate := F64.to32 (q.rateOf s.now), stepAt := s.now,
                          moving := true, loadAngle := degrees }
        let q := { q with weakSteps := if decide (emf.toNat < 25) && q.watchesStall then q.weakSteps + 1 else 0 }
        let s := s.setStepper drive fun _ => q
        if decide (120 < degrees) && q.watchesStall then s.stepperStall drive q
        else
          let span := F32.sub q.iMax q.iMin
          let up := F32.add q.current (F32.div span (F32.ofNat 16))
          let down := F32.sub q.current (F32.div span (F32.ofNat 64))
          let high := decide (60 < degrees)
          let low := decide (degrees < 30)
          let want := if high then up else if low then down else q.current
          let next := if q.thermal then q.current else F32.clamp want q.iMin q.iMax
          let atMax := high && !q.thermal && F32.le q.iMax next
          let atMin := low && !q.thermal && F32.le next q.iMin
          let s := s.setStepper drive fun q =>
            { q with moving := q.count != q.target, current := next, atImax := atMax, limitRaised := atMin }
          let s := if atMax && !q.atImax then (s.raiseN 79 drive).stepperLimit drive true q.iMax next else s
          if atMin && !q.limitRaised then s.stepperLimit drive false q.iMin next else s

/-- STEPPER_AT_REST (R390): after 100 ms at rest the current returns to I_MIN. -/
def execStepperAtRest (t : Nat) (drive : Fin 4) (s : State) : Out :=
  runPowered t s fun s =>
    match s.stepper? drive with
    | none => s
    | some q =>
      if !s.drives q || q.thermal || q.moving || decide (s.now < q.stepAt + 100 * ms) then s
      else s.setStepper drive fun q => { q with current := q.iMin, rate := 0, atImax := false }

/-- STEPPER_THERMAL (R390): at 150 °C the drive lowers its current to one below I_MIN, the single crossing of the envelope, recorded
whatever the route holds (R627). A current of I_MIN or more ends the crossing at I_MIN, from which the load angle goes on. -/
def execStepperThermal (t : Nat) (drive : Fin 4) (current : BitVec 16) (s : State) : Out :=
  runPowered t s fun s =>
    match s.stepper? drive with
    | none => s
    | some q =>
      let amps := f32OfRat current.toNat 1000
      let below := F32.lt amps q.iMin
      if (!below && !q.thermal) || !s.drives q then s
      else
        let s := s.setStepper drive fun q => { q with current := F32.min amps q.iMin, thermal := below, atImax := false }
        if below && !q.thermal then s.raise 122 (BitVec.ofNat 32 (2 + 512)) (BitVec.ofNat 32 drive) q.iMin amps true else s

/-- A write of STP_CONTROL (R395). -/
def State.stpControl (c : WriteCtx) (s : State) (d : Nat) (v : Nat) : Done :=
  if 4 ≤ v then refuse .badValue s
  else
    let act (_ : Unit) : Done :=
      done (s.setStepper d fun q =>
        let q := if bitOf v 0 then { q with locked := false, stopped := false, stalledAt := none, stalls := [] } else q
        if bitOf v 1 then { q with count := 0 } else q)
    if bitOf v 1 then c.onlyIn s [.idle, .config, .test] act else act ()

/-- The objects of a stepper drive. -/
def State.stpWrite (c : WriteCtx) (d num : Nat) (v : List Byte) (s : State) : Done :=
  if !s.factory.optS || (s.ownPoint? 6 d).isNone then refuse .badObject s
  else
    let f := f32At v 0
    let q := at? s.servo.steppers d
    let ranged (lo hi : F32) (ok : Bool) (put : Stepper → Stepper) : Done :=
      checkValue (v.length == 4 && F32.within lo hi f && ok) s fun _ => done (s.setStepper d put)
    match num with
    | 0 | 6 => refuse .badValue s
    | 1 => ranged (f32OfRat 1 10) (F32.ofNat 6) (F32.le f q.iMax) fun q => { q with iMin := f }
    | 2 => ranged (f32OfRat 1 10) (F32.ofNat 6) (F32.le q.iMin f) fun q => { q with iMax := f }
    | 3 => ranged F32.one (F32.ofNat 5000) true fun q => { q with vmax := f }
    | 4 => ranged (F32.ofNat 100) (F32.ofNat 1000000) true fun q => { q with amax := f }
    | 5 => ranged (F32.ofNat 50) (F32.ofNat 1000) true fun q => { q with stallMinRate := f }
    | 7 => checkValue (v.length == 1) s fun _ => State.stpControl c s d (beVal v)
    | _ => refuse .badObject s

/-- STP_CLEAR (R391). -/
def execStpClear (t : Nat) (req : Request) (drive : Fin 4) (s : State) : Out :=
  runHost t s fun s => s.hostWrite req (objId 7 (0x40 + drive) 7) [1] fun c s => s.stpWrite c drive 7 [1]

/-- STP_ZERO (R395). -/
def execStpZero (t : Nat) (req : Request) (drive : Fin 4) (s : State) : Out :=
  runHost t s fun s => s.hostWrite req (objId 7 (0x40 + drive) 7) [2] fun c s => s.stpWrite c drive 7 [2]

/-- STP_SUPPLY (R392): out of range de-energises every drive; back for 100 ms, each resumes from its present position. -/
def execStpSupply (t : Nat) (out : Bool) (s : State) : Out :=
  runPowered t s fun s =>
    if !s.factory.optS then s
    else if out && !s.servo.stpVoltageOff then
      let off (q : Stepper) : Stepper := { q with current := 0, moving := false, atImax := false }
      { s with servo.stpVoltageOff := true, servo.steppers := s.servo.steppers.map off }.raise 95
    else if !out && s.servo.stpVoltageOff then
      { s with servo.stpVoltageOff := false, servo.steppers := s.servo.steppers.map fun q => { q with current := q.iMin } }
    else s

/-! ## Injection and capture (R393, R394) -/

/-- Is an INJ_CONFIG in range (R393)? -/
def State.injOk (s : State) (v : List Byte) : Bool :=
  match s.slotHere (fieldAt v 0 1) with
  | none => false
  | some r =>
    let c := at? s.servo.coeffs r.slot
    let amp := f32At v 4
    let half := f32OfRat r.rate 2
    let shape := fieldAt v 2 1
    let f1ok := F32.lt 0 (f32At v 8) && F32.lt (f32At v 8) half
    let f2ok := (f32At v 12).finite && F32.lt (f32At v 12) half
    v.length == 32 && decide (fieldAt v 1 1 ≤ 1) && zeroAt v 22 10 && amp.finite &&
      (fieldAt v 1 1 == 0 || F32.le (F32.abs amp) (F32.div (F32.sub c.outMax c.outMin) (F32.ofNat 2))) &&
      F32.within (f32OfRat 1 1000) (F32.ofNat 3600) (f32At v 16) &&
      (match shape with
       | 1 => f1ok
       | 2 => f1ok && f2ok
       | 3 => decide (7 ≤ fieldAt v 3 1) && decide (fieldAt v 3 1 ≤ 16) && decide (1 ≤ fieldAt v 20 2) &&
          decide (fieldAt v 20 2 ≤ 1000)
       | _ => false)

/-- Is a capture selector in range (R394)? -/
def selectorOk (sig idx : Nat) : Bool :=
  match sig with
  | 0 | 7 => idx == 0
  | 8 => decide (idx ≤ 15)
  | 9 => decide (idx ≤ 7)
  | 10 | 11 => decide (idx ≤ 3)
  | 12 | 13 | 14 => decide (idx < 64) && decide (idx % 4 ≤ 2)
  | _ => decide (sig ≤ 6) && decide (idx < 32)

/-- Is a CAP_CONFIG in range (R394)? -/
def State.capOk (s : State) (v : List Byte) : Bool :=
  v.length == 16 && (s.slotHere (fieldAt v 0 1)).isSome && decide (fieldAt v 1 1 ≤ 4) && zeroAt v 3 1 &&
    (fieldAt v 1 1 != 2 || !reservedSource (fieldAt v 2 1)) &&
    decide (1 ≤ fieldAt v 4 2) && decide (fieldAt v 4 2 ≤ 1000) && decide (1 ≤ fieldAt v 8 4) &&
    decide (fieldAt v 8 4 ≤ 65536)

/-- The objects of injection and capture. -/
def State.icWrite (c : WriteCtx) (num : Nat) (v : List Byte) (s : State) : Done :=
  let n := beVal v
  let sig (k i : Nat) : Nat := fieldAt v (4 * k + i) 1
  match num with
  | 0 => checkValue (s.injOk v) s fun _ => done { s with servo.ic.injConfig := v }
  | 1 =>
    if c.mode s != .test then refuse .wrongMode s
    else if v.length != 1 || decide (1 < n) || (n == 1 && !s.injOk s.servo.ic.injConfig) then refuse .badValue s
    else if n = 0 then done s.stopInjection
    else
      let k := s.servo.ic
      let arm := k.capState == 1 && fieldAt k.capConfig 1 1 == 1
      done { s with servo.ic := { k with injRunning := true, injN := 0, injSignal := 0,
                                         capState := if arm then 2 else k.capState } }
  | 0x10 => checkValue (s.capOk v) s fun _ => done { s with servo.ic.capConfig := v }
  | 0x11 =>
    checkValue (v.length == 16 && (List.range 4).all fun k => zeroAt v (4 * k + 2) 2 && selectorOk (sig k 0) (sig k 1)) s
      fun _ => done { s with servo.ic.capSignals := v }
  | 0x12 =>
    if v.length != 1 || decide (1 < n) || (n == 1 && !s.capOk s.servo.ic.capConfig) then refuse .badValue s
    else if n = 0 then done { s with servo.ic.capState := 0 }
    else
      let k := s.servo.ic
      let rate := ((s.loopRec? (fieldAt k.capConfig 0 1)).map (·.rate)).getD 1
      done { s with servo.ic := { k with capState := if fieldAt k.capConfig 1 1 = 0 then 2 else 1, capData := [], capPre := [],
                                         capInterval := fieldAt k.capConfig 4 2 * second / max 1 rate, capReadAt := 0, capT0 := 0,
                                         capDiv := fieldAt k.capConfig 4 2, capLast0 := none } }
  | 0x13 | 0x14 => refuse .badValue s
  | _ => refuse .badObject s

/-- INJ_START (R393). -/
def execInjStart (t : Nat) (req : Request) (s : State) : Out :=
  runHost t s fun s => s.hostWrite req (objId 7 0x50 1) [1] fun c s => s.icWrite c 1 [1]

/-- INJ_STOP (R393). -/
def execInjStop (t : Nat) (req : Request) (s : State) : Out :=
  runHost t s fun s => s.hostWrite req (objId 7 0x50 1) [0] fun c s => s.icWrite c 1 [0]

/-- CAP_ARM (R394). -/
def execCapArm (t : Nat) (req : Request) (s : State) : Out :=
  runHost t s fun s => s.hostWrite req (objId 7 0x50 0x12) [1] fun c s => s.icWrite c 0x12 [1]

/-- CAP_STOP (R394). -/
def execCapStop (t : Nat) (req : Request) (s : State) : Out :=
  runHost t s fun s => s.hostWrite req (objId 7 0x50 0x12) [0] fun c s => s.icWrite c 0x12 [0]

/-- CAP_DATA: up to 256 samples of every enabled signal from CAP_READ_AT, which advances past them. -/
def State.readCapData (s : State) : ReadResult :=
  let c := s.servo.ic
  let part := (c.capData.drop c.capReadAt).take 256
  { value := (part.map fun xs => (xs.map be32).flatten).flatten,
    state := { s with servo.ic.capReadAt := c.capReadAt + part.length } }

/-- CAP_DATA_READ (R394). -/
def execCapDataRead (t : Nat) (req : Request) (s : State) : Out :=
  runHost t s fun s => s.hostRead req (objId 7 0x50 0x14) 0 (readLimit req) true State.readCapData

/-! ## The objects of the island (R395-R399) -/

/-- A write of an object of island 0x07. -/
def State.srvWrite (c : WriteCtx) (inst num : Nat) (v : List Byte) (s : State) : Done :=
  if inst < 0x20 then s.slotWrite c inst num v
  else if inst < 0x30 then s.pgWrite c (inst - 0x20) num v
  else if inst < 0x38 then s.gearWrite c (inst - 0x30) num v
  else if inst < 0x40 then s.latchWrite c (inst - 0x38) num v
  else if inst < 0x44 then s.stpWrite c (inst - 0x40) num v
  else if inst = 0x50 then s.icWrite c num v
  else refuse .badObject s

/-- SLOT_STATUS (R396). -/
def LoopSlot.word (l : LoopSlot) : Nat :=
  l.spSource.toNat * 256 + flagBit l.injecting 7 + flagBit l.outAtLimit 6 + flagBit l.iAtLimit 5 + flagBit l.fbInvalid 4 +
    l.state.toNat

/-- The coefficient objects in their order of numbers from 0x10. -/
def SlotCoeffs.values (c : SlotCoeffs) : List F32 :=
  [c.kp, c.ki, c.kd] ++ c.bq1 ++ c.bq2 ++ [c.ffGain, c.outMin, c.outMax, c.faultOutput]

/-- A read of an object of a slot. -/
def State.slotRead (n num : Nat) (s : State) : ReadResult :=
  match s.slotHere n with
  | none => noRead .badObject s
  | some r =>
    let l := at? s.servo.slots n
    let c := at? s.servo.coeffs n
    let k := at? s.servo.counts n
    if num = 0 then readAs (nat32 l.word) s
    else if num = 1 then readAs (nat8 r.outer ++ zeros 2 ++ nat16 r.feedback ++ nat16 r.output ++ nat32 r.rate ++ zeros 1) s
    else if num = 2 then readAs (nat32 (s.slotLatency n r)) s
    else if num = 3 then
      readAs (nat64 l.lastAt ++ be32 l.sp ++ be32 l.fb ++ be32 l.err ++ be32 l.integ ++ be32 l.out ++ zeros 4) s
    else if num = 4 then
      { value := nat32 k.overruns ++ nat32 k.clamped ++ nat32 k.invalid,
        state := s.setCounts n fun k => { k with overruns := 0, clamped := 0, invalid := 0 } }
    else if 0x10 ≤ num ∧ num ≤ 0x20 then readAs (be32 (c.values.getD (num - 0x10) 0)) s
    else if num = 0x21 then readAs (nat16 l.holdLeft) s
    else if num = 0x22 then noRead .badValue s
    else if num = 0x23 then readAs (be32 c.followingLimit) s
    else if num = 0x24 then readAs (nat16 c.followingTime) s
    else noRead .badObject s

/-- A read of an object of a profile generator. -/
def State.pgRead (g num : Nat) (s : State) : ReadResult :=
  if (s.generatorHere g).isNone then noRead .badObject s
  else if num = 0 then
    readAs ((List.range 3).map fun a =>
      let x := s.axis g a
      be64 x.pos ++ be32 x.vel ++ be32 x.acc ++ be64 x.target).flatten s
  else if num ≤ 3 then readAs (be32 (s.axis g (num - 1)).vmax) s
  else if num ≤ 6 then readAs (be32 (s.axis g (num - 4)).amax) s
  else if num ≤ 9 then readAs (be32 (s.axis g (num - 7)).jmax) s
  else noRead (if num = 0xA then .badValue else .badObject) s

/-- A read of an object of a gear group. -/
def State.gearRead (g num : Nat) (s : State) : ReadResult :=
  let x := at? s.servo.gears g
  let q (i : Nat) : GearSlave := at? x.slaves i
  if num = 0 then readAs (nat32 (flagBit x.fallback 7 + flagBit x.fbSource 6 + flagBit x.en 3 + x.master.toNat)) s
  else if num = 1 then readAs (x.slaves.toList.map (·.slot)) s
  else if num = 2 then readAs (int64 x.fallbackCount) s
  else if num = 3 then readAs (int64 x.count ++ nat64 x.lastValidAt) s
  else if 0x10 ≤ num ∧ num ≤ 0x13 then readAs (int32 (q (num - 0x10)).p ++ nat32 (q (num - 0x10)).q) s
  else if 0x14 ≤ num ∧ num ≤ 0x17 then
    let y := q (num - 0x14)
    readAs (int32 y.nextP ++ nat32 y.nextQ ++ int64 y.nextAt ++ nat8 (flagBit y.armed 0)) s
  else if 0x18 ≤ num ∧ num ≤ 0x1B then readAs (be32 (q (num - 0x18)).vmax) s
  else noRead .badObject s

/-- A read of an object of a latch unit; LATCH_DATA is cleared by the read. -/
def State.latchRead (n num : Nat) (s : State) : ReadResult :=
  let x := at? s.servo.latches n
  if num = 0 then readAs (be32 x.config) s
  else if num = 1 then
    { value := nat64 x.stamp ++ int64 x.count ++ be64 x.position ++
        nat8 (flagBit x.valid 0 + flagBit x.overwritten 1 + flagBit x.falling 2) ++ zeros 3,
      state := { s with servo.latches := upd s.servo.latches n fun x => { config := x.config } } }
  else noRead .badObject s

/-- STP_STATUS (R399). -/
def Stepper.word (q : Stepper) (off : Bool) : Nat :=
  (F32.nearest (F32.mul q.current (F32.ofNat 1000))).toNat % 65536 * 65536 + q.loadAngle % 256 * 256 + flagBit q.posValid 7 +
    flagBit q.locked 6 + flagBit q.atImax 5 + flagBit q.thermal 4 + flagBit off 3 + flagBit q.moving 2

/-- A read of an object of a stepper drive. -/
def State.stpRead (d num : Nat) (s : State) : ReadResult :=
  if !s.factory.optS || (s.ownPoint? 6 d).isNone then noRead .badObject s
  else
    let q := at? s.servo.steppers d
    match num with
    | 0 => readAs (nat32 (q.word s.servo.stpVoltageOff)) s
    | 1 => readAs (be32 q.iMin) s
    | 2 => readAs (be32 q.iMax) s
    | 3 => readAs (be32 q.vmax) s
    | 4 => readAs (be32 q.amax) s
    | 5 => readAs (be32 q.stallMinRate) s
    | 6 => readAs (int64 q.count ++ int64 q.target) s
    | 7 => noRead .badValue s
    | _ => noRead .badObject s

/-- A read of an object of injection and capture. -/
def State.icRead (num : Nat) (s : State) : ReadResult :=
  let c := s.servo.ic
  match num with
  | 0 => readAs c.injConfig s
  | 0x10 => readAs c.capConfig s
  | 0x11 => readAs c.capSignals s
  | 0x13 => readAs (be8 c.capState ++ zeros 3 ++ nat32 c.capData.length ++ nat64 c.capT0 ++ nat32 c.capInterval ++
      nat32 c.capReadAt) s
  | 0x14 => s.readCapData
  | 1 | 0x12 => noRead .badValue s
  | _ => noRead .badObject s

/-- A read of an object of island 0x07. -/
def State.srvRead (inst num : Nat) (s : State) : ReadResult :=
  if inst < 0x20 then s.slotRead inst num
  else if inst < 0x30 then s.pgRead (inst - 0x20) num
  else if inst < 0x38 then s.gearRead (inst - 0x30) num
  else if inst < 0x40 then s.latchRead (inst - 0x38) num
  else if inst < 0x44 then s.stpRead (inst - 0x40) num
  else if inst = 0x50 then s.icRead num
  else noRead .badObject s

/-! ## Image load and restart (R400, R401) -/

/-- The coefficients of a LOOPS record. -/
def LoopRec.coeffs (r : LoopRec) : SlotCoeffs :=
  { kp := r.kp, ki := r.ki, kd := r.kd, bq1 := r.bq1, bq2 := r.bq2, ffGain := r.ffGain, outMin := r.outMin,
    outMax := r.outMax, faultOutput := F32.clamp 0 r.outMin r.outMax }

/-- The position a slot's feedback measures now. -/
def State.measured (s : State) (n : Nat) : F64 :=
  match (s.loopRec? n).bind fun r => s.point? r.feedback with
  | some p =>
    if p.kind = 5 then
      let c := at? s.field.pfb p.channel
      F64.add c.offset (F64.mul c.scale (F64.ofInt c.count))
    else F64.of32 (at? s.ain.channels p.channel).value
  | none => 0

/-- The factory limits of an axis (R395). -/
def axisLimits (r : ThrusterRec) : Nat → F32 × F32
  | 0 => (r.azRateMax, f32OfRat 1 10)
  | 1 => (f32OfRat 1 5, f32OfRat 1 2)
  | _ => (F32.ofNat 10, F32.ofNat 20)

/-- SRV after an image load (R401): every slot from its LOOPS record, every axis at rest at its measured position. -/
def State.servoStart (s : State) : State :=
  let coeffs : Vector SlotCoeffs 32 := Vector.ofFn fun (n : Fin 32) => ((s.loopRec? n).map LoopRec.coeffs).getD {}
  let slots : Vector LoopSlot 32 := Vector.ofFn fun (n : Fin 32) => { state := if (s.slotHere n).isSome then 2 else 0 }
  let axes : Vector (Vector ProfileAxis 3) 16 := Vector.ofFn fun (g : Fin 16) => Vector.ofFn fun (a : Fin 3) =>
    match s.thrusters.find? (·.generator == g.val) with
    | none => {}
    | some r =>
      let (v, k) := axisLimits r a
      let pos := if axisSlot r a = 0xFF then 0 else s.measured (axisSlot r a)
      { pos := pos, goal := pos, target := pos, vmax := v, amax := k, jmax := F32.mul (F32.ofNat 10) k }
  let keep (q : Stepper) : Stepper :=
    { current := q.current, loadAngle := q.loadAngle, locked := q.locked, atImax := q.atImax, thermal := q.thermal,
      moving := q.moving, count := q.count, target := q.target, stalls := q.stalls, stopped := q.stopped,
      stalledAt := q.stalledAt, limitRaised := q.limitRaised, stepAt := q.stepAt, rate := q.rate, countBefore := q.countBefore }
  { s with servo := { coeffs := coeffs, slots := slots, axes := axes, steppers := s.servo.steppers.map keep,
                      stpVoltageOff := s.servo.stpVoltageOff } }

/-- The value an output point of a slot presents at its pin; an inner set-point is the slot's own output. -/
def State.presented (s : State) (n : Nat) : F32 :=
  match (s.loopRec? n).bind fun r => s.point? r.output with
  | some p => if p.kind = 2 then s.uValue p.channel else if p.kind = 4 then s.aoValue p.channel else (at? s.servo.slots n).out
  | none => (at? s.servo.slots n).out

/-- Every slot is to release from what its output point presents (R400, R469). -/
def State.releaseAll (s : State) : State :=
  { s with servo.slots := s.servo.slots.mapIdx fun n l => { l with release := some (s.presented n) } }

end Sys2Proof.Machine
end

