-- ==== Sys2Proof/Machine/Field.lean ====
section
/-! DEFINITION. The field channels: inputs, outputs, event lines, the output watchdog, analog outputs and position feedback
(spec/11_field_channels.md). -/

namespace Sys2Proof.Machine

/-- Change a universal channel. -/
def State.setU (s : State) (n : Nat) (f : UChannel → UChannel) : State := { s with field.u := upd s.field.u n f }
/-- Change an analog output. -/
def State.setAo (s : State) (n : Nat) (f : AoChannel → AoChannel) : State := { s with field.ao := upd s.field.ao n f }
/-- Change a position-feedback channel. -/
def State.setPfb (s : State) (n : Nat) (f : PfbChannel → PfbChannel) : State := { s with field.pfb := upd s.field.pfb n f }

/-! ## Inputs (R406-R410) -/

/-- A reported value is taken: activity begins or ends, and an end clears STUCK (R406, R409). -/
def State.report (s : State) (n : Nat) (v : Bool) : State :=
  let u := at? s.field.u n
  let s := s.setU n fun u =>
    { u with reported := v, activeSince := if v then u.activeSince.or (some s.now) else none, stuck := u.stuck && v }
  if u.stuck && !v then s.raiseN 80 n else s

/-- Does COUNT_EDGE select an edge (R408, R433)? -/
def countsEdge (sel : BitVec 2) (rising : Bool) : Bool := if rising then sel.getLsbD 0 else sel.getLsbD 1

/-- INPUT_TRANSITION (R106, R406): a level that has held for FILTER_US samples since the last one was accepted is stamped at the first
sample of its run, for the capture units too, counted and reported, or freezes the reported value (R408, R410). -/
def execInputTransition (t : Nat) (channel : Fin 32) (level : Bool) (s : State) : Out :=
  runPowered t s fun s =>
    let u := s.field.u[channel]
    if u.cfg.output || u.filtered == level || decide (s.now < u.acceptedAt + u.cfg.filterUs * us) then s
    else
      let window := u.cfg.chatterWindow * ms
      let held := u.filtered != u.cfg.invert
      let recent := (u.transitions.filter fun x => decide (s.now ≤ x.1 + window)) ++ [(s.now, held)]
      let counts := countsEdge u.cfg.countEdge level
      let first := s.now / us * us - u.cfg.filterUs * us
      let s := s.setU channel fun u =>
        { u with raw := level, filtered := level, acceptedAt := s.now, transitions := recent.drop (recent.length - 256),
                 count := if counts then u.count + 1 else u.count,
                 countStamp := if counts then s.tb3 - (s.now - first) else u.countStamp }
      let s := s.captureInput channel level first
      if u.frozen then s
      else if u.cfg.chatterCount != 0 && decide (u.cfg.chatterCount < recent.length) then
        let before := ((recent.drop (recent.length - (u.cfg.chatterCount + 1))).head?.map (·.2)).getD held
        ((s.setU channel fun u => { u with frozen := true }).report channel before).raiseN 81 (channel + 256)
      else s.report channel (level != u.cfg.invert)

/-- CHATTER_QUIET (R410). -/
def execChatterQuiet (t : Nat) (channel : Fin 32) (s : State) : Out :=
  runPowered t s fun s =>
    let u := s.field.u[channel]
    let last := (u.transitions.getLast?.map (·.1)).getD 0
    if u.frozen && decide (last + u.cfg.chatterWindow * ms ≤ s.now) then
      ((s.setU channel fun u => { u with frozen := false }).report channel (u.filtered != u.cfg.invert)).raiseN 81 channel
    else s

/-- INPUT_STUCK (R409). -/
def execInputStuck (t : Nat) (channel : Fin 32) (s : State) : Out :=
  runPowered t s fun s =>
    let u := s.field.u[channel]
    match u.activeSince with
    | some a =>
      if !u.cfg.output && u.cfg.onMax != 0 && !u.stuck && decide (a + u.cfg.onMax * ms ≤ s.now) then
        (s.setU channel fun u => { u with stuck := true }).raiseN 80 (channel + 256)
      else s
    | none => s

/-- INPUT_DELIVERY (R407): the reported value, once for each multiple of NOMINAL_PERIOD. -/
def execInputDelivery (t : Nat) (channel : Fin 32) (s : State) : Out :=
  runPowered t s fun s =>
    match s.ownPoint? 1 channel with
    | none => s
    | some p =>
      let m := s.tb3 / max 1 p.period
      if p.period = 0 || s.field.u[channel].deliveredM == some m then s
      else
        let v : F64 := if s.field.u[channel].reported then F64.one else 0
        (s.setU channel fun u => { u with deliveredM := some m }).arriveSlotted { point := p.id, member := s.me, stamp := m * p.period, val := .scalar v true }

/-! ## Outputs (R412-R418) -/

/-- Is output `n` on where rank `k` decides it? A slot's output is at the level of its duty in force, a held duty at its own (R413). -/
def State.onAt (s : State) (n : Nat) (k : PointRec → Rank419) : Bool :=
  let u := at? s.field.u n
  let (period, x) := s.pwmPlace n
  match s.ownPoint? 2 n with
  | none => false
  | some p =>
    if k p == .source && u.cfg.source == 1 then pwmOn (u.dutyIn period) x u.cfg.pwmPeriod != u.cfg.invert
    else pwmOn (s.uUnder n p (k p)) x u.cfg.pwmPeriod
/-- Is a U channel on at its pin? -/
def State.uOn (s : State) (n : Nat) : Bool := s.onAt n (s.uRank n)

/-- U_SET (R412). -/
def State.uSet (c : WriteCtx) (n : Nat) (v : List Byte) (s : State) : Done :=
  let u := at? s.field.u n
  if !u.cfg.output || v.length != 1 || decide (1 < beVal v) then refuse .badValue s
  else if [Mode.idle, .config, .safe].contains (c.mode s) then refuse .wrongMode s
  else if u.cfg.source != 0 then refuse .badValue s
  else done (s.setU n fun u => { u with setTo := some (beVal v == 1) }).clearOverloads

/-- U_CONTROL (R415, R432). -/
def State.uControl (n : Nat) (v : List Byte) (s : State) : Done :=
  let w := beVal v
  checkValue (v.length == 1 && decide (w < 4)) s fun _ =>
    done (s.setU n fun u =>
      { u with overload := u.overload && !bitOf w 0, count := if bitOf w 1 then 0 else u.count })

/-- U_SET (R412). -/
def execUSet (t : Nat) (req : Request) (channel : Fin 32) (value : BitVec 8) (s : State) : Out :=
  runHost t s fun s => s.hostWrite req (objId 8 channel 4) [value] fun c s => s.uSet c channel [value]

/-- U_CLEAR (R415). -/
def execUClear (t : Nat) (req : Request) (channel : Fin 32) (s : State) : Out :=
  runHost t s fun s => s.hostWrite req (objId 8 channel 5) [1] fun _ s => s.uControl channel [1]

/-- COUNT_RESET (R432). -/
def execCountReset (t : Nat) (req : Request) (channel : Fin 32) (s : State) : Out :=
  runHost t s fun s => s.hostWrite req (objId 8 channel 5) [2] fun _ s => s.uControl channel [2]

/-- OUTPUT_OVERLOAD (R415): an output that is on switches off. -/
def execOutputOverload (t : Nat) (channel : Fin 32) (s : State) : Out :=
  runPowered t s fun s =>
    let u := s.field.u[channel]
    if u.overload || F32.le (s.uValue channel) 0 then s
    else (s.setU channel fun u => { u with overload := true }).raiseN 82 channel

/-- OUTPUT_READBACK (R416): no comparison is made under OVERLOAD or UVLO, or while SAF gates the output. -/
def execOutputReadback (t : Nat) (channel : Fin 32) (s : State) : Out :=
  runPowered t s fun s =>
    let u := s.field.u[channel]
    if !u.cfg.output || u.overload || u.readbackFail || (at? s.field.banks (channel / 16)).uvlo ||
        (s.isEnable channel && (at? s.saf.gates channel).removed) then s
    else (s.setU channel fun u => { u with readbackFail := true }).raise 83

/-- OPEN_LOAD (R416). -/
def execOpenLoad (t : Nat) (channel : Fin 32) (s : State) : Out :=
  runPowered t s fun s =>
    if F32.le (s.uValue channel) 0 then s else s.setU channel fun u => { u with openLoad := true }

/-! ## Supplies (R417) -/

/-- FIELD_SUPPLY (R417): a bank's supply has lain outside 18 V to 32 V for 1 ms, or back inside for 100 ms. -/
def execFieldSupply (t : Nat) (bank : Fin 2) (out : Bool) (millivolt : BitVec 16) (s : State) : Out :=
  runPowered t s fun s =>
    let was := s.field.banks[bank].outOfRange
    let beyond := decide (millivolt.toNat < 18000) || decide (32000 < millivolt.toNat)
    if beyond != out then s
    else
      let s := { s with field.banks := s.field.banks.set bank { s.field.banks[bank] with outOfRange := out, millivolt := millivolt } }
      if was == out then s else s.raiseN 87 (bank + flagBit out 8)

/-- UVLO (R417): below 15 V the bank's outputs switch off, above 16 V they return to their driven state. -/
def execUvlo (t : Nat) (bank : Fin 2) (low : Bool) (millivolt : BitVec 16) (s : State) : Out :=
  runPowered t s fun s =>
    if (if low then decide (millivolt.toNat < 15000) else decide (16000 < millivolt.toNat)) then
      { s with field.banks := s.field.banks.set bank { s.field.banks[bank] with uvlo := low, millivolt := millivolt } }
    else s

/-! ## Event lines and the watchdog (R414, R422-R424) -/

/-- EVENT_LINE_PULSE_END (R414). -/
def execEventLinePulseEnd (t : Nat) (line : Fin 8) (s : State) : Out :=
  runPowered t s fun s =>
    match s.field.lines[line].pulseUntil with
    | some a =>
      if a ≤ s.now then
        { s with field.lines := s.field.lines.set line { s.field.lines[line] with pulseUntil := none } }.clearOverloads
      else s
    | none => s

/-- WATCHDOG_RETRIGGER (R422): the first after a restart with state handover exchanges FIO's program banks and clears HANDOVER
(R423, R476); CMD_LIMIT is then counted afresh from the next change of the sequence number (R446). -/
def execWatchdogRetrigger (t : Nat) (s : State) : Out :=
  runRunning t s fun s =>
    let s := { s with field.retriggeredAt := s.now }
    if s.field.handover then { s with field.handover := false, field.programBank := !s.field.programBank, saf.cmdFresh := true }
    else s

/-- WATCHDOG_EXPIRED (R422): every output into its safe state, every stepper stopped at I_MIN. -/
def execWatchdogExpired (t : Nat) (s : State) : Out :=
  runPowered t s fun s =>
    let period := (if s.field.handover then 400 else s.field.watchdog) * ms
    if s.field.expired || decide (s.now < s.field.retriggeredAt + period) then s
    else
      let s := s.captureHolds
      let rest (q : Stepper) : Stepper := { q with target := q.count, moving := false, rate := 0, current := q.iMin, atImax := false }
      ({ s with field.expired := true, servo.steppers := s.servo.steppers.map rest }.clearOverloads).raise 84

/-! ## Analog outputs (R425-R427) -/

/-- AO_SET (R426). -/
def State.aoSet (c : WriteCtx) (n : Nat) (v : List Byte) (s : State) : Done :=
  match s.ownPoint? 4 n with
  | none => refuse .badValue s
  | some p =>
    if v.length != 4 || (s.slotFor p.id).isSome || !(f32At v 0).finite then refuse .badValue s
    else if [Mode.idle, .config, .safe].contains (c.mode s) then refuse .wrongMode s
    else done (s.setAo n fun a => { a with setTo := some (f32At v 0) })

/-- AO_SET (R426). -/
def execAoSet (t : Nat) (req : Request) (channel : Fin 16) (value : F32) (s : State) : Out :=
  runHost t s fun s => s.hostWrite req (objId 8 (0x20 + channel) 1) (be32 value) fun c s => s.aoSet c channel (be32 value)

/-- Does a measured output bear a fault out, or its end (R427)? In the voltage range it differs by more than 1 % of the settable span
from the value presented (DEDUCED, log 13); in a current range the compliance limit is not the module's to measure. -/
def State.aoBears (s : State) (n : Nat) (p : PointRec) (present : Bool) (measured : F32) : Bool :=
  p.mode != 0 || F32.lt (f32OfRat 21 100) (F32.abs (F32.sub measured (s.aoValue n))) == present

/-- AO_FAULT (R427). -/
def execAoFault (t : Nat) (channel : Fin 16) (present : Bool) (measured : F32) (s : State) : Out :=
  runPowered t s fun s =>
    match s.ownPoint? 4 channel with
    | none => s
    | some p =>
      let a := s.field.ao[channel]
      if !s.aoBears channel p present measured then s
      else
        let was := a.short || a.open_
        let s := s.setAo channel fun a => { a with measured := measured, short := present && p.mode == 0,
                                                   open_ := present && p.mode != 0 }
        if was == present then s else s.raiseN 85 (channel + flagBit present 8)

/-! ## Position feedback (R428-R431) -/

/-- A Gray code as a binary number. -/
def grayToBin (x : Nat) : Nat → Nat
  | 0 => x
  | n + 1 => grayToBin (x ^^^ (x >>> 2 ^ n)) n

/-- The position bits of a channel. -/
def PfbChannel.bits (p : PfbChannel) : Nat := if p.mode = 3 then 32 else p.nbits.toNat

/-- The extended count of a raw position (R430). -/
def PfbChannel.extended (p : PfbChannel) (raw : Nat) : Int :=
  let m := 2 ^ p.bits
  let b := if p.mode = 1 && p.gray then grayToBin (raw % m) 6 else raw
  let b : Int := if p.dir then -(b : Int) else b
  let d := (b - p.count).emod m
  p.count + (if (m : Int) ≤ 2 * d then d - m else d)

/-- A PFB point with a non-zero NOMINAL_PERIOD delivers the first good frame at or after each TB3 multiple of it, as R171 has AIN and
R407 has U_IN do (DEDUCED, log 39). -/
def State.deliverPfb (s : State) (channel before : Nat) : State :=
  match s.ownPoint? 5 channel with
  | none => s
  | some p =>
    let c := at? s.field.pfb channel
    if p.period = 0 ∨ c.stamp / p.period ≤ before / p.period then s
    else
      s.arriveSlotted { point := p.id, member := s.me, stamp := c.stamp,
                        val := .scalar (F64.add c.offset (F64.mul c.scale (F64.ofInt c.count))) true }

/-- One bit through the CRC-6 of polynomial 0x43 (R429). -/
def crc6Bit (c : Nat) (b : Bool) : Nat :=
  let top := bitOf c 5 != b
  let x := c * 2 % 64
  if top then x ^^^ 3 else x

/-- The CRC-6 that a BiSS-C frame carries: over the position, most significant bit first, nE and nW, transmitted inverted (R429; what
it covers and that it starts from 0 are PRESUMED, log 13). -/
def PfbChannel.crc6 (p : PfbChannel) (f : PfbFrame) : Nat :=
  let position := (List.range p.nbits.toNat).reverse.map (bitOf f.raw)
  63 - (position ++ [!f.error, !f.warning]).foldl crc6Bit 0

/-- The cause of a faulty frame, 0 for a good one (R431). Of several causes the lowest is taken (DEDUCED, log 13). -/
def PfbChannel.causeOf (p : PfbChannel) (f : PfbFrame) : BitVec 8 :=
  let serial := p.mode != 3
  if serial && f.timeout then 1
  else if p.mode == 2 && f.crc.toNat != p.crc6 f then 2
  else if f.error && (p.mode == 2 || (p.mode == 1 && p.errBits != 0)) then 3
  else if !serial && f.quadrature then 4
  else if f.line then 5
  else if f.supply then 6
  else 0

/-- PFB_FRAME (R429-R431). -/
def execPfbFrame (t : Nat) (channel : Fin 8) (frame : PfbFrame) (s : State) : Out :=
  runPowered t s fun s =>
    let p := s.field.pfb[channel]
    if p.mode = 0 then s
    else
      let warning := frame.warning && p.mode == 2
      let cause := p.causeOf frame
      if cause != 0 then
        let s := s.setPfb channel fun p =>
          { p with cause := cause, faults := sat32 p.faults, faultRun := true, warning := warning }
        let s := s.gearMasterFrame channel false 0 0
        if p.faultRun then s else s.raiseN 86 channel (some cause.toNat)
      else
        let n := p.extended frame.raw
        let still := warning && n == p.count
        ((s.setPfb channel fun p =>
          { p with count := n, stamp := frame.stamp, prev := if p.stamp = 0 then none else some (p.stamp, p.count),
                   faultRun := false, warnedStill := still, warning := warning,
                   zSeen := p.zSeen || (frame.z && p.zEn) }).gearMasterFrame channel (!still) n frame.stamp).deliverPfb channel p.stamp

/-! ## The objects of the island (R428, R432-R434) -/

/-- U_CONFIG (R433). -/
def State.uConfig (c : WriteCtx) (n : Nat) (v : List Byte) (s : State) : Done :=
  let u := at? s.field.u n
  let w := beVal v
  let filter := bitsOf w 17 15
  let source := bitsOf w 13 2
  let slot := u.cfg.source == 1
  let ok := v.length == 4 && bitsOf w 1 6 == 0 &&
    (if u.cfg.output then filter == 0 && bitsOf w 15 2 == 0 && source != 3 && bitsOf w 8 2 != 3 && (source == 1) == slot
     else bitsOf w 8 6 == 0 && source == 0 && decide (2 ≤ filter) && decide (filter ≤ 20000))
  c.notPositioning s fun _ => checkValue ok s fun _ =>
    let inv := bitOf w 7
    let s := s.setU n fun u => { u with cfg :=
      { u.cfg with filterUs := if u.cfg.output then u.cfg.filterUs else filter, countEdge := BitVec.ofNat 2 (bitsOf w 15 2),
                   source := BitVec.ofNat 2 source, line := BitVec.ofNat 3 (bitsOf w 10 3),
                   slew := BitVec.ofNat 2 (bitsOf w 8 2), invert := inv } }
    done (if u.cfg.output then s.clearOverloads else if u.frozen then s else s.report n (u.filtered != inv))

/-- U_TIMING (R432): the fields of the other direction are 0 in a write and are left as they are. -/
def State.uTiming (c : WriteCtx) (n : Nat) (v : List Byte) (s : State) : Done :=
  let u := at? s.field.u n
  let onMax := fieldAt v 0 4
  let window := fieldAt v 4 2
  let count := fieldAt v 6 1
  let ovl := fieldAt v 7 1
  let pwm := fieldAt v 8 2
  let ok := v.length == 12 && zeroAt v 10 2 &&
    (if u.cfg.output then onMax == 0 && window == 0 && count == 0 && decide (1 ≤ ovl) && decide (ovl ≤ 50) &&
        decide (200 ≤ pwm) && decide (pwm ≤ 10000)
     else ovl == 0 && pwm == 0 && (onMax == 0 || (decide (10 ≤ onMax) && decide (onMax ≤ 86400000))) &&
        decide (1 ≤ window) && decide (window ≤ 10000) && count != 1)
  c.notPositioning s fun _ => checkValue ok s fun _ =>
    done (s.setU n fun u => { u with cfg :=
      if u.cfg.output then { u.cfg with ovlTime := ovl, pwmPeriod := pwm }
      else { u.cfg with onMax := onMax, chatterWindow := window, chatterCount := count } })

/-- PFB_CONFIG (R428). -/
def State.pfbConfig (c : WriteCtx) (n : Nat) (v : List Byte) (s : State) : Done :=
  let w := beVal v
  let mode := bitsOf w 28 4
  let nbits := bitsOf w 22 6
  let ok := v.length == 4 && decide (mode ≤ 3) && bitsOf w 0 5 == 0 && decide (bitsOf w 18 4 ≤ 7) &&
    decide (1 ≤ bitsOf w 8 8) && bitsOf w 5 2 != 3 &&
    (mode == 0 || mode == 3 || (decide (8 ≤ nbits) && decide (nbits ≤ 40)))
  c.notPositioning s fun _ => checkValue ok s fun _ =>
    done (s.setPfb n fun p =>
      { p with mode := BitVec.ofNat 4 mode, nbits := BitVec.ofNat 6 nbits, clock_ := BitVec.ofNat 4 (bitsOf w 18 4),
               gray := bitOf w 17, zEn := bitOf w 16, monoflop := BitVec.ofNat 8 (bitsOf w 8 8), dir := bitOf w 7,
               errBits := BitVec.ofNat 2 (bitsOf w 5 2) })

/-- A write of an object of island 0x08. -/
def State.fioWrite (c : WriteCtx) (inst num : Nat) (v : List Byte) (s : State) : Done :=
  if inst < 0x20 then
    match num with
    | 0 => s.uConfig c inst v
    | 1 => s.uTiming c inst v
    | 2 | 3 => refuse .badValue s
    | 4 => s.uSet c inst v
    | 5 => s.uControl inst v
    | _ => refuse .badObject s
  else if inst < 0x30 then
    match num with
    | 0 | 2 => refuse .badValue s
    | 1 => s.aoSet c (inst - 0x20) v
    | _ => refuse .badObject s
  else if inst < 0x38 then
    let n := inst - 0x30
    match num with
    | 0 => s.pfbConfig c n v
    | 1 | 3 => refuse .badValue s
    | 2 => checkValue (v.length == 16 && !F64.eq (f64At v 0) 0) s fun _ =>
        done (s.setPfb n fun p => { p with scale := f64At v 0, offset := f64At v 8 })
    | 4 => checkValue (v.length == 4 && decide (100 ≤ beVal v) && decide (beVal v ≤ 50000)) s fun _ =>
        done (s.setPfb n fun p => { p with rate := beVal v })
    | _ => refuse .badObject s
  else if inst = 0x40 then
    match num with
    | 0 | 1 | 3 => refuse .badValue s
    | 2 => checkValue (v.length == 2 && decide (1 ≤ beVal v) && decide (beVal v ≤ 1000)) s fun _ =>
        done { s with field.lineWidth := beVal v }
    | _ => refuse .badObject s
  else refuse .badObject s

/-- U_CONFIG as read: fields of the other direction read 0. -/
def UConfig.word (c : UConfig) : Nat :=
  flagBit c.invert 7 + flagBit c.output 0 +
    (if c.output then c.source.toNat * 2 ^ 13 + c.line.toNat * 2 ^ 10 + c.slew.toNat * 2 ^ 8
     else c.filterUs * 2 ^ 17 + c.countEdge.toNat * 2 ^ 15)

/-- U_STATUS (R434). DEDUCED (log 18): the driven state is what an overloaded, undervolted or gated output returns to, as R415
to R417 use the words. -/
def State.uStatus (s : State) (n : Nat) : Nat :=
  let u := at? s.field.u n
  let safe := match s.ownPoint? 2 n with
    | some p => let k := s.uRank n p; k == .watchdog || k == .mode
    | none => false
  let on := s.uOn n
  let level := on != u.readbackFail
  let out := u.cfg.output
  flagBit (if out then s.onAt n (s.uDrivenRank n) else u.reported) 31 + flagBit (if out then level else u.filtered) 30 +
    flagBit (if out then level else u.raw != Config.sampleApart n s.now) 29 + flagBit u.frozen 28 + flagBit u.stuck 27 + flagBit u.overload 26 +
    flagBit u.readbackFail 25 + flagBit u.openLoad 24 + flagBit (out && safe) 23 +
    flagBit (s.isEnable n && (at? s.saf.gates n).removed) 22 + flagBit (out && (at? s.field.banks (n / 16)).uvlo) 21 +
    (if out then (Config.outputCurrent n s.now).toNat else 0)

/-- AO_CONFIG and AO_STATUS (R432). DEDUCED (log 18): the Command of AO_STATUS is the value commanded, before the clamp of R425
that CLAMPED reports. -/
def State.aoRead (s : State) (n num : Nat) : List Byte :=
  let a := at? s.field.ao n
  match s.ownPoint? 4 n with
  | none => if num = 0 then nat32 0 else be32 0 ++ be32 a.measured ++ nat8 0 ++ zeros 3
  | some p =>
    if num = 0 then nat32 (p.id * 65536 + p.mode * 256 + flagBit (s.slotFor p.id).isSome 1 + 1)
    else
      let k := s.aoRank p
      let clamped := k == .source && (match s.aoSource n p with
        | some v => !F32.eq (F32.clamp v (aoSpan p.mode).1 (aoSpan p.mode).2) v
        | none => false)
      let command := if k == .source then (s.aoSource n p).getD (s.aoValue n) else s.aoValue n
      be32 command ++ be32 a.measured ++
        nat8 (flagBit clamped 0 + flagBit a.open_ 1 + flagBit a.short 2 + flagBit (k == .watchdog || k == .mode) 3) ++ zeros 3

/-- PFB_CONFIG as read. -/
def PfbChannel.word (p : PfbChannel) : Nat :=
  p.mode.toNat * 2 ^ 28 + p.nbits.toNat * 2 ^ 22 + p.clock_.toNat * 2 ^ 18 + flagBit p.gray 17 + flagBit p.zEn 16 +
    p.monoflop.toNat * 256 + flagBit p.dir 7 + p.errBits.toNat * 32

/-- A read of an object of island 0x08. -/
def State.fioRead (inst num : Nat) (s : State) : ReadResult :=
  if inst < 0x20 then
    let u := at? s.field.u inst
    match num with
    | 0 => readAs (nat32 u.cfg.word) s
    | 1 =>
      let c := u.cfg
      readAs (if c.output then zeros 7 ++ nat8 c.ovlTime ++ nat16 c.pwmPeriod ++ zeros 2
        else nat32 c.onMax ++ nat16 c.chatterWindow ++ nat8 c.chatterCount ++ zeros 5) s
    | 2 => readAs (nat32 (s.uStatus inst)) s
    | 3 => readAs (be32 u.count ++ zeros 4 ++ nat64 u.countStamp) s
    | 4 | 5 => noRead .badValue s
    | _ => noRead .badObject s
  else if inst < 0x30 then
    match num with
    | 0 | 2 => readAs (s.aoRead (inst - 0x20) num) s
    | 1 => noRead .badValue s
    | _ => noRead .badObject s
  else if inst < 0x38 then
    let p := at? s.field.pfb (inst - 0x30)
    match num with
    | 0 => readAs (nat32 p.word) s
    | 1 => readAs (nat64 p.stamp ++ int64 p.count ++ be64 (F64.add p.offset (F64.mul p.scale (F64.ofInt p.count)))) s
    | 2 => readAs (be64 p.scale ++ be64 p.offset) s
    | 3 => readAs (be8 p.cause ++ nat8 (flagBit p.zSeen 0 + flagBit p.warning 1) ++ zeros 2 ++ nat32 p.faults) s
    | 4 => readAs (nat32 p.rate) s
    | _ => noRead .badObject s
  else if inst = 0x40 then
    let bank (n : Nat) : FieldBank := at? s.field.banks n
    let flags (n : Nat) : List Byte := nat8 (flagBit (bank n).outOfRange 0 + flagBit (bank n).uvlo 1)
    match num with
    | 0 => readAs (nat32 (s.field.watchdog * 65536 + flagBit s.field.handover 1 + flagBit s.field.expired 0)) s
    | 1 => readAs (be16 (bank 0).millivolt ++ be16 (bank 1).millivolt ++ flags 0 ++ flags 1 ++ zeros 2) s
    | 2 => readAs (nat16 s.field.lineWidth) s
    | 3 => readAs (nat8 (maskOf ((List.range 8).map s.lineHigh))) s
    | _ => noRead .badObject s
  else noRead .badObject s

/-! ## Image load (R58, R402, R412, R422, R426) -/

/-- A channel as the loaded image makes it. -/
def State.uStart (s : State) (n : Nat) (u : UChannel) : UChannel :=
  let fresh : UChannel := { raw := u.raw, filtered := u.filtered, reported := u.filtered, count := u.count,
                            countStamp := u.countStamp, held := u.held, acceptedAt := u.acceptedAt,
                            activeSince := if u.filtered then some s.now else none }
  match s.ownPoint? 2 n, s.ownPoint? 1 n with
  | some p, _ => { fresh with cfg := { output := true, source := if (s.slotFor p.id).isSome then 1 else 0 } }
  | none, some p => { fresh with cfg := { type3 := p.mode == 1 } }
  | none, none => fresh

/-- FIO after an image load, and without a structure. -/
def State.fieldStart (s : State) : State :=
  { s with field.u := s.field.u.mapIdx s.uStart,
           field.ao := s.field.ao.map fun a => { measured := a.measured, held := a.held },
           field.pfb := s.field.pfb.map fun p => { stamp := p.stamp, count := p.count, cause := p.cause, zSeen := p.zSeen,
                                                    warning := p.warning, faultRun := p.faultRun, faults := p.faults },
           field.lineWidth := 100,
           field.watchdog := (s.image.loaded.map (·.watchdog)).getD 100 }

end Sys2Proof.Machine
end

