-- ==== Sys2Proof/Machine/Modes.lean ====
section
/-! DEFINITION. The operating modes: which moves are allowed, a change of mode at a tick, and the cycle tick
(spec/13_modes_and_start_up.md, R462-R473; spec/01_cycle_and_islands.md, R30-R36). -/

namespace Sys2Proof.Machine

/-! ## SAFE_CAUSE (R472) -/

/-- No cause is set. -/
def SafeCause.none? (c : SafeCause) : Bool := c == {}
/-- The causes as bits. -/
def SafeCause.word (c : SafeCause) : Nat :=
  maskOf [c.requested, c.f1Overflow, c.watchdog, c.esd, c.cmd, c.clock_, c.safSelftest, c.startCheck, c.handoverFailed,
    c.supRepeat]

/-- Does every set bit allow an exit on request? -/
def State.exitAllowed (s : State) : Bool :=
  let c := s.modes.cause
  !c.supRepeat && !c.startCheck && !c.safSelftest && (!c.clock_ || !s.saf.clockLost) && (!c.cmd || !s.saf.cmdTripped) &&
    (!c.esd || !s.esdLatched) && (!c.f1Overflow || s.events.q1.isEmpty)

/-! ## The conditions of entry (R467) -/

/-- Do the conditions of R467 for a positioning mode hold? -/
def State.mayEnter (s : State) (m : Mode) : Bool :=
  let track := match s.law.track.source with
    | false => s.law.track.path.isSome
    | true => match s.law.track.target with
      | some x => decide (s.tb3 ≤ x.stamp + s.law.track.targetTimeout * ms)
      | none => false
  s.modes.cause.none? &&
    (match s.chosenVariant m with
     | some v => (s.variantThrusters v).any fun r => s.thrAvailable r s.tb3
     | none => false) &&
    (match m with
     | .joystick => true
     | .autohead => s.obs.state == 2 || s.obs.state == 3
     | .station => s.obs.state == 3
     | .track => s.obs.state == 3 && track
     | _ => false)

/-- What a request for a move answers (R465). -/
def State.judgeMove (s : State) (m : Mode) : Status :=
  let gate (ok : Bool) : Status := if ok then .ok else .wrongMode
  match s.modes.mode, m with
  | _, .safe => .ok
  | .idle, .config => .ok
  | .idle, .test => .ok
  | .config, .idle =>
    if s.image.verifying.isSome then .busy else gate s.hasStructure
  | .test, .idle => .ok
  | .safe, .idle => gate s.exitAllowed
  | a, b =>
    if b.positioning && (a == .idle || a.positioning) then gate (s.mayEnter b)
    else if a.positioning && b == .idle then .ok
    else .wrongMode

/-- The value of a MODE_REQUEST as a group write. -/
def modeWrite (m : Mode) (req : Request) : SettingWrite := { object := objId 1 0 0x31, value := nat8 m.code, req := req }

/-- Is a group write a MODE_REQUEST? -/
def isModeWrite (w : SettingWrite) : Bool := w.object == objId 1 0 0x31

/-- The mode that is accepted and not yet in effect (R464 PENDING). -/
def State.pendingOf (s : State) : Option Mode :=
  match (s.group.groupWrites.filter isModeWrite).getLast? with
  | some w => Mode.ofCode (beVal w.value)
  | none => s.modes.pendingMode

/-- A write of MODE_REQUEST (R465-R467): SAFE at once, the present mode nothing, any other move pends until the tick. -/
def State.requestMode (c : WriteCtx) (v : List Byte) (s : State) : Done :=
  if v.length != 1 then refuse .badValue s
  else match Mode.ofCode (beVal v) with
    | none => refuse .badValue s
    | some m =>
      if s.group.role != .alone && s.group.role != .lead then refuse .notLead s
      else if m == s.modes.mode then done s
      else match s.judgeMove m with
        | .ok =>
          if m == .safe then done (s.enterSafe 0)
          else if s.group.role == .alone then
            { state := { s with modes.pendingMode := some m }, detail := BitVec.ofNat 32 (s.cycle.count + 1) }
          else
            { state := { s with group.groupWrites := s.group.groupWrites.filter (fun w => !isModeWrite w) ++
                                  [modeWrite m c.req] },
              detail := BitVec.ofNat 32 (s.cycle.count + (if s.gcycle.closeDone then 2 else 1)) }
        | st => refuse st s

/-- MODE_REQUEST (R465). -/
def execModeRequest (t : Nat) (req : Request) (mode : BitVec 8) (s : State) : Out :=
  runHost t s fun s => s.hostWrite req (objId 1 0 0x31) [mode] fun c s => s.requestMode c [mode]

/-! ## The change of mode at a tick (R466, R469, R470, R473) -/

/-- The module changes mode. -/
def State.changeMode (s : State) (m : Mode) : State :=
  let old := s.modes.mode
  let s := match m with
    | .idle | .config | .safe => { s.captureHolds with modes.gatheredHold := true }
    | _ => if s.modes.gatheredHold then { s.releaseAll with modes.gatheredHold := false } else s
  let s := if old == .test then s.leaveTest else s
  let s := if old.positioning && !m.positioning then { s with sol := s.sol.clearPlan } else s
  let s := if old == .safe then { s with modes.cause := {}, field.expired := false } else s
  let s := { s with modes.mode := m, modes.previous := old }
  let s := if m.positioning then { s with law.pending := s.law.pending ++ [({} : SettingWrite)] } else s
  let s := if m == .joystick || m == .autohead then { s with law.joy := [0, 0, 0], law.joyAt := s.cycle.tk } else s
  let s := if m.positioning && !old.positioning then
      { s with res.successRun := 0, res.netRun := 0, res.consecNet := 0 }
    else s
  s.clearOverloads.raiseN 0 m.code (some old.code) (some 0)

/-- The pending mode takes effect at the tick, or is dropped when a condition no longer holds (R466). -/
def State.pendingAtTick (s : State) : State :=
  match s.modes.pendingMode with
  | none => s
  | some m =>
    let s := { s with modes.pendingMode := none }
    if s.judgeMove m == .ok then s.changeMode m
    else s.raiseN 0 s.modes.mode.code (some s.modes.previous.code) (some 256)

/-! ## The cycle tick (R30, R31, R36) -/

/-- Tick k: the cycle begins, a pending mode takes effect, and a cycle with nothing due releases at once (R32). -/
def State.tick (s : State) : State :=
  let period := s.cyc.period
  let k := s.tb3 / period
  let s := { s with cycle.count := k, cycle.tk := k * period, cycle.nextTick := (k + 1) * period,
                    cycle.released := false, cycle.frameDone := false, cycle.estDone := false, cycle.acceptDone := false,
                    cycle.commandLate := false, cycle.instantDone := false, cycle.frame := [], cycle.late := [],
                    cycle.estEntry := none, gcycle.ownSet := none, gcycle.closeDone := false, gcycle.exchangeLate := false,
                    gcycle.closed := s.gcycle.closed.filter (fun c => c.cycle == k),
                    sol.stopped := none, sol.peers := [], law.freshEntry := false, law.entered := false }
  let keep (p : Peer) : Peer := { p with set := p.set.filter fun (x : ReleasedSet) => x.cycle == k }
  let s := { s with group.peers := s.group.peers.map keep }
  s.pendingAtTick.tryRelease

/-- CYCLE_TICK (R36). -/
def execCycleTick (t : Nat) (s : State) : Out :=
  runRunning t s fun s =>
    if !s.cycle.ticking || !s.hasStructure || s.cyc.period == 0 || decide (s.tb3 < s.cycle.nextTick) then s else s.tick

end Sys2Proof.Machine
end

