-- ==== Sys2Proof/Machine/Group.lean ====
section
/-! DEFINITION. Group redundancy: contact, links, the ringmaster, takeover, resync and their objects
(spec/14_group_redundancy.md). -/

namespace Sys2Proof.Machine

/-- Change what is known of a peer. -/
def State.setPeer (s : State) (m : Nat) (f : Peer → Peer) : State := { s with group.peers := upd s.group.peers m f }
/-- Change a lane link. -/
def State.setLink (s : State) (l : Nat) (f : LinkState → LinkState) : State := { s with group.links := upd s.group.links l f }
/-- Count in GROUP_COUNTERS. -/
def State.countGroup (s : State) (i : Nat) : State := { s with group.counters := upd s.group.counters i sat32 }
/-- Add or take a member from the in-step set as this member knows it. -/
def State.setInStep (s : State) (m : Nat) (on : Bool) : State :=
  let bit : BitVec 3 := 1#3 <<< m
  { s with group.inStep := if on then s.group.inStep ||| bit else s.group.inStep &&& ~~~bit }
/-- The member is barred from elections and from the LEAD's group (R503, R513). -/
def State.barred (s : State) : Bool := s.group.versionHold || s.group.imageHold || s.indexHold

/-! ## Every valid frame (R486, R487) -/

/-- A valid frame from a peer: contact, its link's counts, and ten HELLOs bring a link up, with no frame lost or faulty between
them (R486; TIME frames pass between them, R489). -/
def State.heard (s : State) (h : LlpHeader) (hello : Bool) : State :=
  let m := h.sender.val
  match h.link with
  | none =>
    s.setPeer m fun p => { p with lastValid := some s.now, lastBackup := some s.now, linkMask := p.linkMask ||| 4 }
  | some l =>
    let k := at? s.group.links l
    let run := if hello then min 10 (k.helloRun + 1) else k.helloRun
    let rises := !k.up && hello && decide (10 ≤ run)
    let s := s.setLink l fun k =>
      { k.quickReturn s.now with
               lastValid := some s.now, validFrames := sat32 k.validFrames, peer := BitVec.ofNat 8 m,
               helloRun := if k.up then k.helloRun else run, up := k.up || rises }
    let s := s.setPeer m fun p =>
      { p with lastValid := some s.now, epoch := h.epoch, linkMask := p.linkMask ||| BitVec.ofNat 3 (2 ^ l.val) }
    if rises then s.raiseN (104 + l) 1 (some m) else s

/-- A frame whose CRC fails is discarded and counted (R488), and ends a run of HELLOs. -/
def State.badFrame (s : State) (h : LlpHeader) : State :=
  match h.link with
  | none => s
  | some l => s.setLink l fun k => { k with crcFailures := sat32 k.crcFailures, helloRun := 0 }

/-- A frame that carries this member's own index shows a second member of that index (R503). -/
def State.indexClash (s : State) : State :=
  let was := s.indexHold
  let s := { s with group.clashAt := some s.now }
  if !was && s.group.role != .alone then s.setRole .alone 12 else s

/-- A frame is judged: its CRC, then its sender's index. -/
def State.judgeFrame (s : State) (h : LlpHeader) (f : State → State) : State :=
  if !h.crcOk then s.badFrame h else if h.sender.val = s.me then s.indexClash else f s

/-- A frame of the lane links: the backup path carries HELLO alone (R487). -/
def State.onFrame (s : State) (h : LlpHeader) (f : State → State) : State :=
  s.judgeFrame h fun s => if h.link.isNone then s else f (s.heard h false)

/-! ## Resync requests (R514, R515) -/

/-- A member in RESYNC asks the LEAD in contact for a copy, once for each attempt. -/
def State.requestCopy (s : State) : State :=
  if s.group.role != .resync || s.gcycle.requested || s.gcycle.resyncStopped || s.gcycle.copyApplied || s.leadIndex == 0xF then s
  else
    let due := match s.gcycle.retryAt with | some k => decide (k ≤ s.cycle.count) | none => true
    if due then
      ({ s with gcycle.requested := true, gcycle.retryAt := none }.countGroup 3).sendLaneTo s.leadIndex.toNat .resyncRequest
    else s

/-- RESYNC is entered, and the first request goes out. -/
def State.toResync (s : State) (cause : Nat) : State := (s.setRole .resync cause).requestCopy

/-! ## The ringmaster (R502-R507, R513, R516, R517) -/

/-- The first interface whose major differs: 1 QCP, 2 LLP, 3 SIF. -/
def majorDiffers (a b : List (BitVec 8)) : Option Nat :=
  [0, 1, 2].findSome? fun i => if a.getD (2 * i) 0 == b.getD (2 * i) 0 then none else some (i + 1)

/-- What the LEAD's HELLO says of this member's versions and image: a difference bars it (R516, R517). -/
def State.judgeBars (s : State) (b : Hello) : State :=
  let ver := majorDiffers ownVersions b.versions
  let img := !s.hasStructure || s.image.digest != b.digest
  let wasV := s.group.versionHold
  let wasI := s.group.imageHold
  let s := { s with group.versionHold := ver.isSome, group.imageHold := img }
  let s := match ver with
    | some i =>
      let s := if wasV then s else s.raiseN 109 i
      if s.group.role == .alone then s else s.setRole .alone 7
    | none => s
  if img then
    let s := if wasI then s else s.raiseN 109 4
    if s.group.role == .alone then s else s.setRole .alone 8
  else s

/-- This member becomes LEAD by election (R503, R504). -/
def State.electLead (s : State) (epoch : Word) : State := { s with group.epoch := epoch }.setRole .lead 1

/-- The ringmaster on a HELLO from member `m`: the first role after a start, two members ALONE, two LEADs, and a return to a
LEAD in contact. A peer barred by its versions takes part in no election (R513). -/
def State.ringmaster (s : State) (m : Nat) : State :=
  let theirs := (at? s.group.peers m).role
  let electable := s.contacts.filter fun p => !(at? s.group.peers p).versionBarred
  let above := s.ownRank.above (s.peerRank m)
  if s.cyc.groupSize ≤ 1 || s.barred || !s.running then s
  else if !s.gcycle.roleSettled then
    let settled (s : State) : State := { s with gcycle.roleSettled := true }
    if s.leadIndex != 0xF then (settled s).toResync 1
    else if electable.isEmpty then s
    else if electable.all fun p => s.ownRank.above (s.peerRank p) then (settled s).electLead 1
    else (settled s).toResync 1
  else match s.group.role with
    | .alone =>
      if theirs == 3 then
        let top := max s.group.epoch.toNat (at? s.group.peers m).epoch.toNat
        if !electable.contains m then s
        else if above then s.electLead (BitVec.ofNat 32 (top + 1))
        else s.toResync 1
      else if theirs == 0 && s.modes.mode != .safe && s.group.yieldAt.isNone then s.toResync 1
      else s
    | .lead => if theirs == 0 && !above then s.toResync 1 else s
    | _ => s

/-- LLP_HELLO (R489): contact, link state, versions, digest and grants; then the bars, the split test of R510 and the
ringmaster. -/
def execLlpHello (t : Nat) (hdr : LlpHeader) (body : Hello) (s : State) : Out :=
  runPowered t s fun s =>
    s.judgeFrame hdr fun s =>
      let m := hdr.sender.val
      let backup := hdr.link.isNone
      let s := s.heard hdr true
      let s := s.setPeer m fun p =>
        { p with role := body.role.setWidth 2, mode := body.mode.setWidth 4, digest := body.digest, versions := body.versions,
                 options := body.options, serial := body.serial, epoch := hdr.epoch,
                 versionBarred := (majorDiffers ownVersions body.versions).isSome,
                 granted := max p.granted body.granted, grantedBackup := if backup then body.granted else p.grantedBackup }
      let s := s.setInStep m (body.role == 0 || body.role == 1 || (body.role == 2 && body.inStep.getLsbD m))
      let found := match s.gcycle.takeoverTest with
        | some (instant, k) => backup && s.gcycle.oldLead.toNat == m && s.group.role == Role.lead &&
            decide (s.tb3 ≤ instant + 4 * ms) && decide (k ≤ body.granted)
        | none => false
      if found then
        ({ s with group.split := true, group.epoch := s.gcycle.oldEpoch, gcycle.takeoverTest := none }.countGroup 5).toResync 10
      else
        let s := if body.role == 0 && s.group.role != Role.lead then s.judgeBars body else s
        (s.ringmaster m).requestCopy

/-- LINK_DOWN (R486): the credits held against the link return. -/
def execLinkDown (t : Nat) (link : Fin 2) (s : State) : Out :=
  runPowered t s fun s =>
    let k := s.group.links[link]
    if !k.up then s.setLink link fun k => { k with helloRun := 0 }
    else
      let s := s.setLink link fun k => { k.refill s.now with up := false, helloRun := 0 }
      let clear (p : Peer) : Peer := { p with linkMask := p.linkMask &&& ~~~(BitVec.ofNat 3 (2 ^ link.val)) }
      (s.setPeer k.peer.toNat clear).raiseN (104 + link) 0 (some k.peer.toNat)

/-- LLP_TIME (R90): the stamps of the peer's frame are kept for this member's next one; the two-way transfer over a lane link
disciplines TB3 to the lead's, once the lead has had a frame of this member's to echo. An offset above 100 us outside the positioning
modes is the lead's step, made at the last whole second of TB3 when that is at most 2 ms ago (R102): the member follows it, its ticks numbered from that instant
(DEDUCED, log 5). -/
def execLlpTime (t : Nat) (hdr : LlpHeader) (body : TimeBody) (s : State) : Out :=
  runPowered t s fun s => s.onFrame hdr fun s =>
    match hdr.link with
    | none => s
    | some l =>
      let s := s.setLink l fun k => { k with lastTime := some (body.tx, body.rx) }
      if s.leadsTime || s.leadIndex.toNat != hdr.sender.val || (body.echoTx == 0 && body.echoRx == 0) then s
      else
        let asym := at? s.time.linkAsym l
        let off := ((body.echoRx - body.echoTx) + (body.tx - body.rx) - asym).tdiv 2
        let s := s.setTb 3 fun b => { b with source := 3, sourced := true }
        let s := s.correct 3 off
        if s.tb3Held || off.natAbs ≤ 100000 then s else s.stepBase 3 off (if s.tb3 % second ≤ 2 * ms then s.tb3 % second else 0)

/-! ## The exchange (R493-R497) -/

/-- LLP_SET (R493): the credits held against the peer's link return with its release (R47). -/
def execLlpSet (t : Nat) (hdr : LlpHeader) (set : ReleasedSet) (s : State) : Out :=
  runRunning t s fun s => s.onFrame hdr fun s =>
    let s := match hdr.link with | some l => s.setLink l (·.refill s.now) | none => s
    let s := s.setPeer hdr.sender fun p => { p with set := some { set with member := hdr.sender } }
    s.tryClose.tryComplete

/-- LLP_CLOSE (R493-R495, R506, R512), once where it comes on both links: the frame, the epoch, the group writes, each recorded with its source, and the
mode in force from the next tick. -/
def execLlpClose (t : Nat) (hdr : LlpHeader) (body : LlpClose) (s : State) : Out :=
  runRunning t s fun s => s.onFrame hdr fun s =>
    if s.group.role == Role.lead || s.group.role == Role.alone || decide (hdr.epoch.toNat < s.group.epoch.toNat) then s
    else if (s.gcycle.closed.map (·.cycle)) == some body.cycle then s
    else
      let s := { s with gcycle.closed := some body }
      if !s.inStepSelf then s
      else
        let s := { s with group.epoch := hdr.epoch }
        let s := body.writes.foldl (fun s w =>
          (s.queueGroupWrite w).recordCommand w.req 0x11 w.object w.value s.tb3) s
        let s := match Mode.ofCode body.mode.toNat with
          | some .safe => s.toSafe 0
          | some m => if s.modes.mode == Mode.safe && m != Mode.idle then s
              else { s with modes.pendingMode := if m == s.modes.mode then none else some m }
          | none => s
        if body.cycle == s.cycle.count && !body.mask.getLsbD s.me then s.toResync 5 else s.tryComplete

/-- LLP_SOLVE_REPORT (R344). -/
def execLlpSolveReport (t : Nat) (hdr : LlpHeader) (report : SolveReport) (s : State) : Out :=
  runRunning t s fun s => s.onFrame hdr fun s =>
    if hdr.cycle != s.cycle.count then s
    else { s with sol.peers := s.sol.peers.filter (fun (x : Nat × SolveReport) => x.1 != hdr.sender.val) ++ [(hdr.sender.val, report)] }.tryAccept

/-- LLP_COMMIT (R496), once where it comes on both links. -/
def execLlpCommit (t : Nat) (hdr : LlpHeader) (digest : Word) (_result : BitVec 8) (s : State) : Out :=
  runRunning t s fun s => s.onFrame hdr fun s =>
    if (at? s.group.peers hdr.sender).commit == some (hdr.cycle, digest) then s
    else
      let s := s.setPeer hdr.sender fun p => { p with commit := some (hdr.cycle, digest) }
      let s := s.compareCommit hdr.sender
      s.tryAccept.requestCopy

/-! ## Takeover (R508-R511) -/

/-- The successor becomes LEAD (R509): epoch one above the old LEAD's, TAKEOVER sent and raised, ROLE_CHANGE raised. -/
def State.takeover (s : State) (old cause instant : Nat) : State :=
  let oldEpoch := s.group.epoch
  let s := { s with group.epoch := oldEpoch + 1, group.lastTakeoverCause := BitVec.ofNat 8 cause,
                    group.lastTakeoverAt := instant, gcycle.oldLead := BitVec.ofNat 8 old, gcycle.oldEpoch := oldEpoch }
  let s := ((s.setInStep old false).setPeer old fun p => { p with role := 3 }).countGroup 0
  let s := (s.sendLane (.takeover s.group.epoch instant (BitVec.ofNat 8 cause))).raiseN 108 cause (some old)
  (s.setRole .lead 2).tryClose

/-- LLP_YIELD (R509): the sender leaves the in-step set; the successor named leads. -/
def execLlpYield (t : Nat) (hdr : LlpHeader) (instant : Nat) (successor : BitVec 8) (s : State) : Out :=
  runPowered t s fun s => s.onFrame hdr fun s =>
    let s := s.setInStep hdr.sender false
    if successor.toNat = s.me && s.group.role == .spare && s.running then s.takeover hdr.sender 1 instant
    else (s.setPeer hdr.sender fun p => { p with role := 3 }).tryAccept

/-- LLP_TAKEOVER (R498, R509): a higher epoch clears AUTH at its takeover instant, and its sender leads; an in-step SPARE compares its
COMMIT with the new LEAD's. -/
def execLlpTakeover (t : Nat) (hdr : LlpHeader) (epoch : Word) (instant : Nat) (_cause : BitVec 8) (s : State) : Out :=
  runPowered t s fun s => s.onFrame hdr fun s =>
    let higher := decide (s.group.epoch.toNat < epoch.toNat)
    let s := [0, 1, 2].foldl (fun s m =>
      if m != hdr.sender.val && (at? s.group.peers m).role == 0 then
        (s.setInStep m false).setPeer m fun p => { p with role := 3 }
      else s) s
    let s := s.setPeer hdr.sender fun p => { p with role := 0, epoch := epoch }
    let s := if s.group.role == .spare then s.compareCommit hdr.sender else s
    if higher then { s with group.takeoverAt := some instant }.tryAccept else s.tryAccept

/-- The first command instant that lies at least 50 us away (R509). -/
def State.yieldInstant (s : State) : Nat := s.commandInstantFrom (s.tb3 + 50 * us)

/-- The LEAD yields to a successor and enters ALONE (R511). -/
def State.yieldNow (s : State) (next instant : Nat) : State := (s.yieldTo next instant).setRole .alone 3

/-- MISSING_COMMIT (R509, R510): no COMMIT of cycle k by t_k + C - 20 us; a HELLO on the backup path that shows a grant of
cycle k or later forbids the takeover. -/
def execMissingCommit (t : Nat) (s : State) : Out :=
  runRunning t s fun s =>
    let k := s.cycle.count
    let instant := s.cycle.tk + s.cyc.commandAt
    let lead := [0, 1, 2].find? fun m => m != s.me && (at? s.group.peers m).role == 0
    match lead with
    | none => s
    | some m =>
      let p := at? s.group.peers m
      if s.group.role != .spare || s.successor != some s.me || !s.cycle.ticking ||
          decide (s.tb3 + 20 * us < instant) || (p.commit.map (·.1)) == some k then s
      else if s.group.backupPort != 0xFF && p.lastBackup.isSome && decide (k ≤ p.grantedBackup) then
        ({ s with group.split := true }.countGroup 5).toResync 10
      else { (s.takeover m 2 instant) with gcycle.takeoverTest := some (instant, k), group.split := false }

/-- CONTACT_LOST (R513): no peer in contact makes the member ALONE; a peer lost is out of step. -/
def execContactLost (t : Nat) (s : State) : Out :=
  runPowered t s fun s =>
    if s.cyc.groupSize ≤ 1 then s
    else
      let s := [0, 1, 2].foldl (fun s m =>
        if m = s.me || s.inContact m then s
        else (s.setInStep m false).setPeer m fun p => { p with linkMask := 0 }) s
      if s.contacts.isEmpty && s.group.role != .alone then s.setRole .alone 6 else s.tryClose.tryAccept

/-- ROLE_ELECTION_TIMEOUT (R503): no contact within 2 s of the first mode. -/
def execRoleElectionTimeout (t : Nat) (s : State) : Out :=
  runRunning t s fun s =>
    if !s.gcycle.roleSettled && decide (s.gcycle.firstModeAt + 2 * second ≤ s.now) then
      { s with gcycle.roleSettled := true }
    else s

/-- TRANSFER (R511, R519): a group write that names an in-step SPARE. -/
def State.transfer (v : List Byte) (s : State) : Done :=
  let m := beVal v
  if s.group.role != .lead && s.group.role != .alone then refuse .notLead s
  else if v.length != 1 || s.group.role == .alone || !(s.inStepPeers.contains m) || (at? s.group.peers m).role != 1 then
    refuse .badValue s
  else done (s.yieldNow m s.yieldInstant)

/-- TRANSFER (R511). -/
def execTransfer (t : Nat) (req : Request) (member : BitVec 8) (s : State) : Out :=
  runHost t s fun s => s.hostWrite req (objId 0xB 0 6) [member] fun _ s => s.transfer [member]

/-! ## Resync (R514, R515) -/

/-- LLP_RESYNC_REQUEST (R514): the LEAD names the first cycle whose tick lies at least 2 ms away. -/
def execLlpResyncRequest (t : Nat) (hdr : LlpHeader) (s : State) : Out :=
  runRunning t s fun s => s.onFrame hdr fun s =>
    if s.group.role != .lead || s.cyc.period = 0 then s
    else
      let j := (s.tb3 + 2 * ms + s.cyc.period - 1) / s.cyc.period
      { s with gcycle.copyTo := some (j, hdr.sender.val) }.sendLaneTo hdr.sender
        (.copyPlan j (Config.copyEncode (s.copyNow true)).length)

/-- LLP_COPY_PLAN (R514). -/
def execLlpCopyPlan (t : Nat) (hdr : LlpHeader) (j total : Nat) (s : State) : Out :=
  runRunning t s fun s => s.onFrame hdr fun s =>
    if s.group.role == .resync && !s.gcycle.copyApplied then
      { s with gcycle.copyPlan := some (j, total), gcycle.copyBytes := [] }
    else s

/-- The items that both a retained state block and a RESYNC copy bring back (R161, R243, R276, R317, R361). The first job
is FULL, its resident values invalid. -/
def State.takeCopy (s : State) (c : Copy) : State :=
  { s with fusion := c.fusion, obs := c.obs, obsParams := c.obsParams, obsOut := c.obsOut, cycle.applied := c.applied,
           history := c.history, law := c.law, dyn := c.dyn,
           sol := { kept := c.kept, plan := c.plan, valuesInvalid := true, needFull := true },
           res := { s.res with consecNet := c.consecNet, netRun := c.netRun, successRun := c.successRun,
                               fallback := c.fallback, degraded := c.degraded } }

/-- The mode of a copy is taken: its outputs follow as at a change of mode. -/
def State.adoptMode (s : State) (m : Mode) : State :=
  if s.modes.mode == m || s.modes.mode == .safe then s
  else
    let s := match m with
      | .idle | .config | .safe => { s.captureHolds with modes.gatheredHold := true }
      | _ => if s.modes.gatheredHold then { s.releaseAll with modes.gatheredHold := false } else s
    { s with modes.previous := s.modes.mode, modes.mode := m, modes.pendingMode := none }.clearOverloads

/-- TB3 steps to the lead's before any state is copied (R103): by the offset last measured. -/
def State.stepToLead (s : State) : State :=
  let off := s.time.tb[3].remaining
  if off = 0 then s else s.stepBase 3 off

/-- A complete copy is applied. -/
def State.applyCopy (s : State) (c : Copy) : State :=
  let s := (s.stepToLead).takeCopy c
  { s.adoptMode c.mode with group.epoch := c.epoch, group.inStep := c.inStep &&& ~~~(1#3 <<< s.me),
                            gcycle.copyApplied := true, gcycle.copyBytes := [], gcycle.resyncFailures := 0 }

/-- An attempt fails: the copy is discarded, and the next request waits 10 cycles; after 5 failures in a row the requests
stop. -/
def State.copyFailed (s : State) : State :=
  let n := s.gcycle.resyncFailures + 1
  let s := ({ s with gcycle.copyPlan := none, gcycle.copyBytes := [], gcycle.requested := false,
                     gcycle.resyncFailures := n, gcycle.retryAt := some (s.cycle.count + 10) }).countGroup 4
  if 5 ≤ n then
    { s with gcycle.resyncStopped := true }.raiseN 107 2 (some 2) (some 11)
  else s

/-- LLP_COPY_CHUNK (R514): a copy that is complete only after the frame of cycle j + 1 has failed (R515). -/
def execLlpCopyChunk (t : Nat) (hdr : LlpHeader) (offset : Nat) (data : List (BitVec 8)) (s : State) : Out :=
  runRunning t s fun s => s.onFrame hdr fun s =>
    match s.gcycle.copyPlan with
    | none => s
    | some (j, total) =>
      if s.group.role != .resync || s.gcycle.copyApplied then s
      else if decide (j < s.cycle.count) && s.gcycle.closed.isSome then s.copyFailed
      else
        let chunks := (s.gcycle.copyBytes.filter (·.1 != offset)) ++ [(offset, data)]
        let s := { s with gcycle.copyBytes := chunks }
        if (chunks.map (·.2.length)).sum < total then s
        else
          let sorted := chunks.mergeSort fun a b => decide (a.1 ≤ b.1)
          match Config.copyDecode (sorted.flatMap (·.2)) with
          | some c => s.applyCopy c
          | none => s.copyFailed

/-- COPY_FAIL (R515): the copy is incomplete at the completion of the frame of cycle j + 1. -/
def execCopyFail (t : Nat) (s : State) : Out :=
  runRunning t s fun s =>
    match s.gcycle.copyPlan with
    | some (j, _) =>
      let complete := decide (j + 1 < s.cycle.count) ||
        (j + 1 == s.cycle.count && (s.gcycle.closed.isSome || decide (s.exchangeLimit ≤ s.tb3)))
      if s.group.role == .resync && !s.gcycle.copyApplied && complete then s.copyFailed else s
    | none => s

/-- RESYNC_RETRY (R515). -/
def execResyncRetry (t : Nat) (s : State) : Out :=
  runRunning t s fun s => if s.gcycle.retryAt.isSome then s.requestCopy else s

/-- STEP_DONE (R515): 50 matching cycles make the member SPARE. -/
def execStepDone (t : Nat) (s : State) : Out :=
  runRunning t s fun s =>
    if s.group.role == .resync && s.gcycle.copyApplied && decide (50 ≤ s.group.stepCount) then
      let s := s.setRole .spare 4
      { s with group.stepCount := 50 }
    else s

/-- RESYNC (R515): a write of 1 starts the attempts again. -/
def State.writeResync (v : List Byte) (s : State) : Done :=
  checkValue (v == [1]) s fun _ =>
    done { s with gcycle.resyncStopped := false, gcycle.resyncFailures := 0, gcycle.retryAt := none }.requestCopy

/-- RESYNC (R515). -/
def execResync (t : Nat) (req : Request) (s : State) : Out :=
  runHost t s fun s => s.hostWrite req (objId 0xB 0 7) [1] fun _ s => s.writeResync [1]

/-! ## Member index, stalls and periodic frames -/

/-- MEMBER_INDEX (R484, R519). -/
def State.writeIndex (c : WriteCtx) (v : List Byte) (s : State) : Done :=
  c.onlyIn s [.config] fun _ => checkValue (v.length == 1 && decide (beVal v ≤ 2)) s fun _ =>
    done { s with group.memberIndex := BitVec.ofNat 8 (beVal v) }

/-- MEMBER_INDEX (R484). -/
def execMemberIndex (t : Nat) (req : Request) (value : BitVec 8) (s : State) : Out :=
  runHost t s fun s => s.hostWrite req (objId 0xB 0 1) [value] fun c s => s.writeIndex c [value]

/-- LNK_CREDIT_STALL (R489): once, for a frame that has waited more than 10 ms. -/
def execLnkCreditStall (t : Nat) (link : Fin 2) (s : State) : Out :=
  runPowered t s fun s =>
    let k := s.group.links[link]
    match k.waitingSince with
    | some a =>
      if !k.stallRaised && decide (a + 10 * ms < s.now) then
        (s.setLink link fun k => { k with stallRaised := true }).raise 106
      else s
    | none => s

/-- LLP_PERIODIC_SEND (R489): every 1 ms, HELLO on each link and on the backup path, TIME on each link, with the stamps of the
peer's last one (R90). -/
def execLlpPeriodicSend (t : Nat) (s : State) : Out :=
  runPowered t s fun s =>
    let due := match s.gcycle.periodicAt with | some a => decide (a + ms ≤ s.now) | none => true
    if s.cyc.groupSize ≤ 1 || !due then s
    else
      let s := { s with gcycle.periodicAt := some s.now }.sendHello
      let time (l : LinkState) : LlpFrame :=
        let (tx, rx) := l.lastTime.getD (0, 0)
        .time { tx := s.tb3, echoTx := tx, echoRx := rx }
      { s with group.links := s.group.links.map fun l => l.send s.now (s.llp (time l)) }

/-! ## The objects of the island (R519, R520) -/

/-- A write of an object of island 0x0B. -/
def State.lnkWrite (c : WriteCtx) (inst num : Nat) (v : List Byte) (s : State) : Done :=
  let n := beVal v
  if inst = 0 then
    match num with
    | 0 | 2 | 3 | 8 | 9 => refuse .badValue s
    | 1 => s.writeIndex c v
    | 4 => c.notPositioning s fun _ => checkValue (v.length == 1 && (decide (n ≤ 4) || n == 0xFF)) s fun _ =>
        done { s with group.backupPort := BitVec.ofNat 8 n }
    | 5 => checkValue (v.length == 2 && decide (1 ≤ n) && decide (n ≤ 4094)) s fun _ => done { s with group.backupVlan := n }
    | 6 => s.transfer v
    | 7 => s.writeResync v
    | _ => refuse .badObject s
  else if inst ≤ 2 ∧ num = 0 then refuse .badValue s
  else refuse .badObject s

/-- GROUP_STATUS (R520). -/
def State.groupStatus (s : State) : Nat :=
  let g := s.group
  let seen := maskOf ([0, 1, 2].map fun m => m == s.me || s.inContact m)
  s.inStepMask.toNat * 2 ^ 24 + s.leadIndex.toNat * 2 ^ 20 + seen * 2 ^ 16 + g.stepCount * 256 + flagBit g.auth 7 +
    flagBit g.split 6 + flagBit g.versionHold 5 + flagBit g.imageHold 4 + flagBit s.indexHold 3 + g.role.code

/-- A row of PEER_TABLE. -/
def State.peerRow (s : State) (m : Nat) : List Byte :=
  let p := at? s.group.peers m
  if m = s.me then
    nat8 1 ++ nat8 s.group.role.code ++ nat8 s.modes.mode.code ++ nat8 0 ++ be32 s.group.epoch ++
      nat32 (s.group.granted.getD 0) ++ sliceAt s.image.digest 0 4
  else
    nat8 (flagBit (s.inContact m) 0) ++ be8 (p.role.setWidth 8) ++ be8 (p.mode.setWidth 8) ++ be8 (p.linkMask.setWidth 8) ++
      be32 p.epoch ++ nat32 p.granted ++ sliceAt p.digest 0 4

/-- A read of an object of island 0x0B. -/
def State.lnkRead (inst num : Nat) (s : State) : ReadResult :=
  let g := s.group
  if inst = 0 then
    match num with
    | 0 => readAs (nat32 s.groupStatus) s
    | 1 => readAs (be8 g.memberIndex) s
    | 2 => readAs (([0, 1, 2].map fun i => [ownVersions.getD (2 * i) 0, ownVersions.getD (2 * i + 1) 0,
        s.negotiatedMinor i]).flatten ++ zeros 3) s
    | 3 => readAs (([0, 1, 2].map s.peerRow).flatten) s
    | 4 => readAs (be8 g.backupPort) s
    | 5 => readAs (nat16 g.backupVlan) s
    | 8 => readAs (nat8 (flagBit g.auth 0) ++ be8 g.lastTakeoverCause ++ zeros 2 ++ be32 g.epoch ++ nat64 g.lastTakeoverAt) s
    | 9 => { value := (g.counters.toList.map nat32).flatten, state := { s with group.counters := .replicate 6 0 } }
    | 6 | 7 => noRead .badValue s
    | _ => noRead .badObject s
  else if inst ≤ 2 ∧ num = 0 then
    let k := at? g.links (inst - 1)
    readAs (nat8 (flagBit k.up 0) ++ be8 k.peer ++ zeros 2 ++ nat32 k.validFrames ++ nat32 k.crcFailures) s
  else noRead .badObject s

end Sys2Proof.Machine
end

