-- ==== Sys2Proof/Machine/Networks.lean ====
section
/-! DEFINITION. NET: the switch, the CAN FD controllers, the serial ports and IEC 61162-450
(spec/15_networks.md). -/

namespace Sys2Proof.Machine

/-! ## The switch (R524-R530) -/

/-- The packet memory, bytes (R527). -/
def packetMemory : Nat := 1048576

/-- A frame admitted to an egress port, and the bytes a port holds. -/
def SwitchPort.held (p : SwitchPort) : Nat :=
  ((p.queue ++ p.sending.toList).map fun (e : EgressFrame) => e.frame.length).sum

/-- The bytes of a datagram that waits for the parser, with its headers. -/
def ethInBytes (d : EthIn) : Nat :=
  max 64 (46 + d.payload.length + (d.lines.map List.length).sum)

/-- The bytes that wait for the Ethernet parser: they lie in HPT's share (R44). -/
def State.waitingBytes (s : State) : Nat := (s.net.ethWait.map ethInBytes).sum

/-- The packet memory in use. -/
def State.memoryInUse (s : State) : Nat := (s.net.ports.toList.map SwitchPort.held).sum + s.waitingBytes

/-- Time of a frame on a 1 Gbit/s line with preamble and gap, ns. -/
def frameTime (length : Nat) : Nat := (length + 20) * 8

/-- Residence entries older than 1 s are discarded (R116, R529). -/
def State.ageResidences (s : State) : State :=
  let old := s.time.residences.filter fun e => decide (e.madeAt + second < s.now)
  { s with time.residences := s.time.residences.filter fun e => decide (s.now ≤ e.madeAt + second),
           net.tcCounters := upd s.net.tcCounters 2 fun c => satAdd 0xFFFFFFFF c old.length }

/-- The residence time of a frame that leaves at TB0 = `at_`, scaled by TB1's rate while TB1 is LOCKED (R115). -/
def State.residence (s : State) (f : SwitchFrame) (at_ : Nat) : Int :=
  let r : Int := at_ - f.ingressAt
  let b := s.time.tb[1]
  if b.state == 2 then r + r * b.rate / 1000000000 else r

/-- The 16-bit words of a correctionField: 64 bits in units of 2^-16 ns. -/
def correctionWords (ns : Int) : List Nat :=
  let v := BitVec.ofInt 64 (ns * 65536)
  [(v.extractLsb' 48 16).toNat, (v.extractLsb' 32 16).toNat, (v.extractLsb' 16 16).toNat, (v.extractLsb' 0 16).toNat]

/-- A one's-complement sum of 16 bits. -/
def onesSum (xs : List Nat) : Nat := xs.foldl (fun a x => let v := a + x; if 65536 ≤ v then v - 65535 else v) 0

/-- A residence is added to the correctionField; the UDP checksum of the changed message is set to zero on IPv4 and recomputed on IPv6
(R115), from the words that change, a sum of zero being sent as all ones (PRESUMED, log 5). -/
def correctFrame (f : SwitchFrame) (r : Int) : SwitchFrame :=
  let g := { f with correction := f.correction + r }
  match f.transport with
  | .layer2 => g
  | .udp4 => { g with udpChecksum := 0 }
  | .udp6 =>
    let sum := onesSum ((0xFFFF - f.udpChecksum.toNat) :: (correctionWords f.correction).map (0xFFFF - ·) ++ correctionWords g.correction)
    { g with udpChecksum := if sum = 0xFFFF then 0xFFFF else BitVec.ofNat 16 (0xFFFF - sum) }

/-- What the transparent clock does with a frame that begins to leave a port (R115, R116). -/
def State.transparent (s : State) (n : Nat) (f : SwitchFrame) (at_ : Nat) : SwitchFrame × State :=
  if !(at? s.net.ports n).ptpTc then (f, s)
  else
    let r := s.residence f at_
    let corrected : SwitchFrame × State :=
      (correctFrame f r, { s with net.tcCounters := upd s.net.tcCounters 0 sat32 })
    match f.ptp with
    | .sync false _ | .delayReq => corrected
    | .sync true key =>
      let rest := s.time.residences.filter fun e => e.key != key
      let full := decide (64 ≤ rest.length)
      (f, { s with time.residences := (if full then rest.drop 1 else rest) ++ [{ key := key, residence := r, madeAt := at_ }],
                   net.tcCounters := if full then upd s.net.tcCounters 3 sat32 else s.net.tcCounters })
    | _ => (f, s)

/-- The frame an egress port sends next: the oldest of the highest priority (R526). -/
def nextEgress (q : List EgressFrame) : Option (EgressFrame × List EgressFrame) :=
  match q.foldl (fun (m : Option Nat) e => some (max e.priority (m.getD 0))) none with
  | none => none
  | some p =>
    match q.findIdx? fun e => e.priority == p with
    | some i => (q[i]?).map fun e => (e, q.eraseIdx i)
    | none => none

/-- Frames leave a port from the instant `start`, one after another, as far as now. -/
def State.egressFrom (s : State) (n start : Nat) : Nat → State
  | 0 => s
  | fuel + 1 =>
    match nextEgress (at? s.net.ports n).queue with
    | none => s
    | some (e, rest) =>
      let (f, s) := s.transparent n e.frame start
      let stop := start + frameTime f.length
      let s := s.setPort n fun p => { p with queue := rest, sending := some { e with frame := f }, sendEnd := stop }
      if stop ≤ s.now then
        (s.setPort n fun p => { p with sending := none, counters := upd p.counters 1 sat32 }).egressFrom n stop fuel
      else s

/-- A port's line as of now. -/
def State.egress (s : State) (n : Nat) : State :=
  let p := at? s.net.ports n
  match p.sending with
  | some _ =>
    if p.sendEnd ≤ s.now then
      (s.setPort n fun p => { p with sending := none, counters := upd p.counters 1 sat32 }).egressFrom n p.sendEnd
        p.queue.length
    else s
  | none => s.egressFrom n s.now p.queue.length

/-- The ports that forward Ethernet frames: ETH0-ETH3 and HPT. -/
def forwarding : List Nat := [0, 1, 2, 3, 4]

/-- Every line as of now. -/
def State.egressAll (s : State) : State := forwarding.foldl State.egress s

/-- Is the destination a group address? -/
def frameIsGroup (f : SwitchFrame) : Bool := f.dst.getLsbD 40

/-- A PTP message. -/
def frameIsPtp (f : SwitchFrame) : Bool := f.ptp != .none

/-- A PTP event message. -/
def frameIsPtpEvent (f : SwitchFrame) : Bool := match f.ptp with | .sync .. | .delayReq | .event => true | _ => false

/-- The priority of the module's own traffic (R526). -/
def ownTrafficPriority : OwnTraffic → Nat
  | .delayReq | .backupHello => 7
  | .command | .qcp => 6
  | .events => 4
  | .update => 1

/-- The priority of a frame that entered at port `n` with a PCP (R526). -/
def framePriority (f : SwitchFrame) (n pcp : Nat) : Nat :=
  if frameIsPtpEvent f then 7 else if n = 4 then (f.own.map ownTrafficPriority).getD pcp else pcp

/-- A frame with its tag: an untagged one gains the four bytes of it (R525). -/
def tagFrame (f : SwitchFrame) (vid pcp : Nat) : SwitchFrame :=
  { f with tag := some (BitVec.ofNat 12 vid, BitVec.ofNat 3 pcp), length := if f.tag.isNone then f.length + 4 else f.length }
/-- A frame without its tag, not shorter than Ethernet's 64 bytes (R525). -/
def untagFrame (f : SwitchFrame) : SwitchFrame :=
  if f.tag.isNone then f else { f with tag := none, length := max 64 (f.length - 4) }
/-- A tagged frame as it leaves a port: the tag is removed where the untagged-egress mask says so (R525). -/
def leavingFrame (e : Option VlanEntry) (n : Nat) (f : SwitchFrame) : SwitchFrame :=
  if (e.map fun (v : VlanEntry) => v.untagged.getLsbD n).getD false then untagFrame f else f

/-- The entry of a VID in VLAN_TABLE (R525). -/
def State.vlan? (s : State) (vid : Nat) : Option VlanEntry :=
  s.net.vlans.toList.find? fun e => e.vid.toNat == vid && vid != 0

/-- The VID and priority of a frame at its ingress port (R525); none when untagged frames are not admitted. -/
def SwitchPort.classify (p : SwitchPort) (f : SwitchFrame) : Option (Nat × Nat) :=
  match f.tag with
  | none => if p.admitUntagged then some (p.pvid.toNat, p.defaultPcp.toNat) else none
  | some (vid, pcp) => if vid == 0 then some (p.pvid.toNat, p.defaultPcp.toNat) else some (vid.toNat, pcp.toNat)

/-- Learn a source address (R524): entries not seen for 300 s are gone; a full table learns nothing new. -/
def State.learn (s : State) (vid : Nat) (f : SwitchFrame) (port : Nat) : State :=
  let live := s.net.macs.filter fun m =>
    decide (s.now ≤ m.seenAt + 300 * second) && !(m.vid.toNat == vid && m.mac == f.src)
  if 4096 ≤ live.length then { s with net.macs := live }
  else { s with net.macs := live ++ [{ vid := BitVec.ofNat 12 vid, mac := f.src, port := port, seenAt := s.now }] }

/-- The egress ports of a frame (R524): the learned port, or every member port but the ingress. -/
def State.egressPorts (s : State) (vid : Nat) (e : VlanEntry) (f : SwitchFrame) (ingress : Nat) : List Nat :=
  let members := forwarding.filter fun p => p != ingress && e.members.getLsbD p && (at? s.net.ports p).en
  let known := s.net.macs.find? fun m =>
    m.vid.toNat == vid && m.mac == f.dst && decide (s.now ≤ m.seenAt + 300 * second)
  match (if frameIsGroup f then none else known) with
  | some m => members.filter (· == m.port)
  | none => members

/-- The storm limit (R528): group frames at ETH0-ETH3 beyond STORM_LIMIT per cent of 1 Gbit/s over 1 ms. Answers whether
the frame passes. -/
def State.storm (s : State) (n : Nat) (f : SwitchFrame) : Bool × State :=
  if !frameIsGroup f || frameIsPtp f || 4 ≤ n then (true, s)
  else
    let p := at? s.net.ports n
    let w := s.now / ms
    let used := if p.stormWindow = w then p.stormBytes else 0
    let ok := decide (used + f.length ≤ 1250 * p.stormLimit.toNat)
    (ok, s.setPort n fun p =>
      { p with stormWindow := w, stormBytes := if ok then used + f.length else used,
               counters := if ok then p.counters else upd p.counters 4 sat32 })

/-- Admission to an egress port, or tail-drop (R527). -/
def State.admitFrame (s : State) (n priority : Nat) (f : SwitchFrame) : Bool × State :=
  let p := at? s.net.ports n
  let share := p.held + (if n = 4 then s.waitingBytes else 0)
  if s.memoryInUse * 100 < at? s.net.dropThresh priority * packetMemory ∧ share < packetMemory / 2 then
    (true, (s.setPort n fun p => { p with queue := p.queue ++ [{ priority := priority, frame := f }], dropRun := false }).egress n)
  else
    let s := s.setPort n fun p => { p with counters := upd p.counters (6 + priority) sat32, dropRun := true }
    (false, if p.dropRun then s else s.raise 97)

/-- A frame for its VLAN: learned, corrected from the table when it is a Follow_Up, admitted port by port. -/
def State.forward (s : State) (ingress vid priority : Nat) (e : VlanEntry) (f : SwitchFrame) : State :=
  let s := (s.learn vid f ingress).ageResidences
  let (entry, f) := match f.ptp with
    | .followUp key =>
      match s.time.residences.find? fun (r : ResidenceEntry) => r.key == key with
      | some r => (some r, correctFrame f r.residence)
      | none => (none, f)
    | _ => ((none : Option ResidenceEntry), f)
  let step (a : Bool × State) (n : Nat) : Bool × State :=
    let (ok, s) := a.2.admitFrame n priority (leavingFrame (some e) n f)
    (a.1 || ok, s)
  let (any, s) := (s.egressPorts vid e f ingress).foldl step (false, s)
  match f.ptp with
  | .followUp key =>
    if !any then s
    else if entry.isSome then { s with time.residences := s.time.residences.filter fun r => r.key != key }
    else { s with net.tcCounters := upd s.net.tcCounters 1 sat32 }
  | _ => s

/-- SWITCH_FRAME_INGRESS (R524-R530). At a lane-link port only LLP frames pass, to the LNK island; what they carry comes
with the commands of the group. -/
def execSwitchFrameIngress (t : Nat) (port : Fin 7) (frame : SwitchFrame) (s : State) : Out :=
  runPowered t s fun s =>
    let n := port.val
    let p := at? s.net.ports n
    if !p.en then s
    else
      let s := (s.egressAll).setPort n fun p => { p with counters := upd p.counters 0 sat32 }
      if !frame.crcOk then s.setPort n fun p => { p with counters := upd p.counters 5 sat32 }
      else if 5 ≤ n then s
      else if 1522 < frame.length then s.setPort n fun p => { p with counters := upd p.counters 2 sat32 }
      else match p.classify frame with
        | none => s
        | some (vid, pcp) =>
          match (s.vlan? vid).filter fun e => e.members.getLsbD n with
          | none => s.setPort n fun p => { p with counters := upd p.counters 3 sat32 }
          | some e =>
            let (passes, s) := s.storm n frame
            if !passes then s
            else
              s.forward n vid (framePriority frame n pcp) e (tagFrame frame vid pcp)

/-- A frame of the module's own for one port, in the VLAN of a PVID, at its priority of R526. -/
def State.sendOwn (s : State) (n : Nat) (pvid : BitVec 12) (kind : OwnTraffic) (f : SwitchFrame) : State :=
  if !(at? s.net.ports n).en then s
  else
    let p := ownTrafficPriority kind
    let f := tagFrame { f with src := Config.factoryMac, own := some kind, ingressAt := s.now } pvid.toNat p
    (s.egressAll.admitFrame n p (leavingFrame (s.vlan? pvid.toNat) n f)).2

/-- The Delay_Req of TB1's slave clock (R117, R526), with the destination of IEEE 1588's Layer 2 mapping (PRESUMED, log 5). -/
def delayReqFrame : SwitchFrame := { dst := 0x011B19000000, length := 64, ptp := .delayReq }

/-- PTP_DELAY_REQ (R117): at each logMinDelayReqInterval a Delay_Req leaves on the port on which the chosen grandmaster's Sync arrives. -/
def execPtpDelayReq (t : Nat) (s : State) : Out :=
  runPowered t s fun s =>
    let due := match s.time.ptp.delayAt with | some a => decide (a + logInterval s.time.ptp.delayLog ≤ s.now) | none => true
    match s.ptpMaster with
    | some _ =>
      if s.time.ptp.syncPort == 0xFF || !due then s
      else
        let s := { s with time.ptp.delaySent := some (s.time.ptp.delayReqSeq, (s.tb1 : Int)), time.ptp.delayAt := some s.now,
                          time.ptp.delayReqSeq := s.time.ptp.delayReqSeq + 1, time.ptp.sentDelayReqs := s.time.ptp.sentDelayReqs + 1 }
        s.sendOwn s.time.ptp.syncPort.toNat (at? s.net.ports 4).pvid .delayReq delayReqFrame
    | none => s

/-- ETH_LINK (R554). -/
def execEthLink (t : Nat) (port : Fin 4) (status : BitVec 8) (s : State) : Out :=
  runPowered t s fun s =>
    let old := (at? s.net.ports port).status
    let new := status &&& 3
    let s := s.setPort port fun p => { p with status := new }
    if old.getLsbD 0 != new.getLsbD 0 then s.raiseN 96 port (some new.toNat) else s

/-! ## Datagrams and IEC 61162-450 (R532, R552) -/

/-- A datagram, or what the parser left of it, waits in switch memory, where HPT's share and the memory bound it (R44, R527). -/
def State.storeEth (s : State) (d : EthIn) : State :=
  let s := s.egressAll
  let pcp := (at? s.net.ports d.port).defaultPcp.toNat
  let hpt := at? s.net.ports 4
  if s.memoryInUse * 100 < at? s.net.dropThresh pcp * packetMemory ∧ hpt.held + s.waitingBytes < packetMemory / 2 then
    { s with net.ethWait := s.net.ethWait ++ [d] }.setPort 4 fun p => { p with dropRun := false }
  else
    let s := s.setPort 4 fun p => { p with counters := upd p.counters (6 + pcp) sat32, dropRun := true }
    if hpt.dropRun then s else s.raise 97

/-- A datagram reaches the Ethernet parser; while the parser is stopped it waits in switch memory (R44). -/
def State.ethArrives (s : State) (d : EthIn) : State :=
  if !s.running then s
  else
    let (left, s) := if s.net.ethWait.isEmpty then s.takeEth d else (some d, s)
    match left with
    | none => s.tryRelease
    | some d =>
      (s.storeEth d).tryRelease

/-- An IPv4 address in its IPv4-mapped form. -/
def mapped4 (a : Word) : Addr := (0xFFFF#96 ++ a).setWidth 128
/-- The IPv6 link-local address that EUI-64 forms from a MAC address (R557; the form is RFC 4291's, PRESUMED, log 17). -/
def linkLocal (mac : BitVec 48) : Addr :=
  (0xFE80000000000000#64 ++ ((mac.extractLsb' 24 24 ^^^ 0x020000#24) ++ 0xFFFE#16 ++ mac.extractLsb' 0 24)).setWidth 128

/-- Is a destination one that R532 takes: a unicast address of the module, a broadcast address or a multicast address? -/
def State.takesDestination (s : State) (dst : Addr) : Bool :=
  let a := s.qcp.address
  let host : Word := (0xFFFFFFFF : Word) >>> a.prefix4.toNat
  if dst.extractLsb' 32 96 == 0xFFFF#96 then
    let d := dst.extractLsb' 0 32
    d == a.v4 || d == 0xFFFFFFFF || d == a.v4 ||| host || d.extractLsb' 28 4 == 0xE#4
  else dst == linkLocal Config.factoryMac || (a.v6 != 0 && dst == a.v6) || dst.extractLsb' 120 8 == 0xFF#8

/-- DATAGRAM_RECEIVED (R532, R536); a fragment of a datagram brings no payload. -/
def execDatagramReceived (t : Nat) (port : Fin 4) (dst : Addr) (udpPort : BitVec 16) (stamp : Nat)
    (payload : Option (List Byte)) (s : State) : Out :=
  runPowered t s fun s =>
    if !(at? s.net.ports port).en || !s.takesDestination dst then s
    else match payload with
      | none => s.setPort port fun p => { p with counters := upd p.counters 14 sat32 }
      | some bytes =>
        if ((s.ownPoints 10 port).filter fun p => p.period != 0 && p.selector == udpPort.setWidth 32).isEmpty then s
        else s.ethArrives { port := port, stamp := stamp, udp := some udpPort, payload := bytes }

/-- Is a datagram addressed to an enabled transmission group: group g is 239.192.0.g at UDP port 60 000 + g (R552)? -/
def State.takesGroup (s : State) (dst : Addr) (udpPort : BitVec 16) : Bool :=
  (List.range 16).any fun i =>
    s.net.groups450.getLsbD i && dst == mapped4 (BitVec.ofNat 32 (0xEFC00001 + i)) && udpPort == BitVec.ofNat 16 (60001 + i)

/-- IEC450_DATAGRAM (R552): the datagram begins with "UdPbC" and NUL. -/
def execIec450Datagram (t : Nat) (port : Fin 4) (dst : Addr) (udpPort : BitVec 16) (stamp : Nat)
    (payload : List Byte) (s : State) : Out :=
  runPowered t s fun s =>
    if !(at? s.net.ports port).en || !s.takesGroup dst udpPort then s
    else if payload.take 6 != [0x55, 0x64, 0x50, 0x62, 0x43, 0x00] then
      s.setPort port fun p => { p with counters := upd p.counters 15 sat32 }
    else s.ethArrives { port := port, stamp := stamp, lines := linesOf (payload.drop 6) }

/-- FEEDBACK_TIMEOUT (R536): counted from the last valid record, or from the load of the image. -/
def execFeedbackTimeout (t : Nat) (slice : Fin 16) (s : State) : Out :=
  runPowered t s fun s =>
    match s.image.loaded.bind fun i => i.thrusterPoint slice s.me false with
    | none => s
    | some p =>
      let since := (at? s.net.feedbackAt slice).getD 0
      if at? s.net.feedbackLost slice || decide (s.now < since + 3 * p.period) then s
      else
        let s := { s with net.feedbackLost := upd s.net.feedbackLost slice fun _ => true }
        (s.judgeFeedback slice).raiseN 76 (slice.val + 256) (some 0xFF)

/-! ## CAN FD (R537-R546) -/

/-- The points of the loaded image on a controller. -/
def State.canPoints (s : State) (n : Nat) : List PointRec := s.ownPoints 9 n
/-- Does a controller carry a thruster command or feedback point (R545)? -/
def State.canThruster (s : State) (n : Nat) : Bool :=
  (List.range 16).any fun k => [true, false].any fun out =>
    match s.image.loaded.bind fun i => i.thrusterPoint k s.me out with
    | some p => p.kind == 9 && p.channel == n
    | none => false

/-- Sources 98 and 99 (R542). -/
def State.canReport (s : State) (n source : Nat) (entry : Bool) : State :=
  let c := at? s.net.can n
  s.raise source (some (BitVec.ofNat 32 (n + flagBit entry 8))) (some (Config.canErrorParam c.tec c.recCount))

/-- Fault confinement after the counters moved (R542). -/
def State.confine (s : State) (n : Nat) : State :=
  let c := at? s.net.can n
  if c.busOff then s
  else if 255 < c.tec then
    let lost := c.tx.length
    let s := if c.passive then (s.setCan n fun c => { c with passive := false }).canReport n 98 false else s
    let s := s.setCan n fun c =>
      { c with busOff := true, recovering := c.autoRecover, recoverAt := s.now, tx := [],
               counters := upd (upd c.counters 4 fun v => satAdd 0xFFFFFFFF v lost) 5 sat32 }
    s.canReport n 99 true
  else
    let passive := decide (128 ≤ c.tec) || decide (128 ≤ c.recCount)
    if passive == c.passive then s
    else (s.setCan n fun c => { c with passive := passive }).canReport n 98 passive

/-- Does a controller take part in the bus? -/
def CanController.active (c : CanController) : Bool := c.en && !c.busOff

/-- CAN_FRAME_RECEIVED (R544): REC falls with a good frame; the filter; the FIFO, the shadow, or an overrun. -/
def execCanFrameReceived (t : Nat) (ctl : Fin 4) (frame : CanFrame) (s : State) : Out :=
  runPowered t s fun s =>
    let c := at? s.net.can ctl
    if !c.active || (frame.fd && !c.fdEn) then s
    else
      let (k, s) := s.draw
      let rec_ := if 128 ≤ c.recCount then 119 + (Config.canRecAfter k).val else c.recCount - 1
      let s := (s.setCan ctl fun c => { c with recCount := rec_ }).confine ctl
      let key := BitVec.ofNat 32 (frame.id.toNat + flagBit frame.extended 31)
      if !(c.listenOnly || (s.canPoints ctl).any fun p => p.selector == key) then s
      else
        let s := s.setCan ctl fun c => { c with counters := upd c.counters 0 sat32 }
        if c.rx.length < 64 then
          let s := s.setCan ctl fun c => { c with rx := c.rx ++ [frame], overrunRun := false }
          if s.running then (s.drainCan ctl 65).tryRelease else s
        else if c.locked && c.shadow.isNone then s.setCan ctl fun c => { c with shadow := some frame, overrunRun := false }
        else
          let s := s.setCan ctl fun c => { c with counters := upd c.counters 2 sat32, overrunRun := true }
          s.raiseN 100 ctl

/-- The order of arbitration (R543): the identifier lowest, a base identifier before the extended ones that begin with
it. -/
def canArbitration (f : CanFrame) : Nat :=
  if f.extended then f.id.toNat * 2 + 1 else f.id.toNat * 2 ^ 18 * 2

/-- The pending frame that goes next; an ISO CAN FD frame waits while FD_EN is 0 (R545). -/
def CanController.head (c : CanController) : Option Nat :=
  (c.tx.zipIdx.foldl (fun (m : Option (Nat × Nat)) x =>
    let a := canArbitration x.1.frame
    if x.1.frame.fd && !c.fdEn then m
    else match m with
    | some (b, _) => if a < b then some (a, x.2) else m
    | none => some (a, x.2)) none).map (·.2)

/-- CAN_FRAME_TRANSMITTED (R543). -/
def execCanFrameTransmitted (t : Nat) (ctl : Fin 4) (s : State) : Out :=
  runPowered t s fun s =>
    let c := at? s.net.can ctl
    match c.head with
    | none => s
    | some i =>
      if !c.active || c.listenOnly then s
      else (s.setCan ctl fun c => { c with tx := c.tx.eraseIdx i, tec := c.tec - 1, counters := upd c.counters 1 sat32 }).confine ctl

/-- CAN_TX_ATTEMPT_FAILED (R543): a lost arbitration (error 0) or a transmit error; after RETRY_LIMIT + 1 attempts the
frame is abandoned. -/
def execCanTxAttemptFailed (t : Nat) (ctl : Fin 4) (error : BitVec 4) (dataPhase : Bool) (s : State) : Out :=
  runPowered t s fun s =>
    let c := at? s.net.can ctl
    match c.head with
    | none => s
    | some i =>
      if !c.active || c.listenOnly || 6 < error.toNat then s
      else
        let count (x : CanTx) : CanTx := { x with attempts := x.attempts + 1 }
        let tried := ((c.tx[i]?).map (·.attempts)).getD 0 + 1
        let gone := decide (c.retryLimit.toNat + 1 ≤ tried)
        let s := s.setCan ctl fun c =>
          { c with tx := if gone then c.tx.eraseIdx i else updL c.tx i count,
                   counters := if gone then upd c.counters 4 sat32 else c.counters }
        if error == 0 then s
        else
          let grows := !(error == 3 && c.passive)
          (s.setCan ctl fun c => { c with lastError := error, dataPhase := dataPhase,
                                          tec := if grows then min 256 (c.tec + 8) else c.tec }).confine ctl

/-- CAN_RX_ERROR (R542). -/
def execCanRxError (t : Nat) (ctl : Fin 4) (error : BitVec 4) (dataPhase : Bool) (s : State) : Out :=
  runPowered t s fun s =>
    if !(at? s.net.can ctl).active || error == 0 || 6 < error.toNat then s
    else (s.setCan ctl fun c => { c with lastError := error, dataPhase := dataPhase,
                                         recCount := min 255 (c.recCount + 1) }).confine ctl

/-- A nominal bit, ns (R537). -/
def CanNbt.bitTime (b : CanNbt) : Nat := b.brp * 8 * (1 + b.seg1 + b.seg2)

/-- CAN_RECOVERY_DONE (R542): 128 sequences of 11 recessive bits at the soonest. -/
def execCanRecoveryDone (t : Nat) (ctl : Fin 4) (s : State) : Out :=
  runPowered t s fun s =>
    let c := at? s.net.can ctl
    if !c.en || !c.busOff || !c.recovering || decide (s.now < c.recoverAt + 1408 * c.nbt.bitTime) then s
    else (s.setCan ctl fun c => { c with busOff := false, recovering := false, tec := 0, recCount := 0 }).canReport ctl 99 false

/-- CAN_CONTROL as a number, RECOVER read as 0 (R545). -/
def CanController.word (c : CanController) : Nat :=
  c.retryLimit.toNat * 32 + flagBit c.autoRecover 4 + flagBit c.fdEn 3 + flagBit c.brsEn 2 + flagBit c.listenOnly 1 +
    flagBit c.en 0

/-- A write of CAN_CONTROL (R545, R553). -/
def State.canControl (c : WriteCtx) (n : Nat) (v : List Byte) (s : State) : Done :=
  let w := beVal v
  let k := at? s.net.can n
  if (c.mode s).positioning && w % 256 != k.word then refuse .wrongMode s
  else checkValue (v.length == 4 && decide (w < 512) && (c.load || bitOf w 0 || (s.canPoints n).isEmpty) &&
      (bitOf w 3 || !s.canThruster n)) s fun _ =>
    let begins := k.busOff && !k.recovering && (bitOf w 8 || bitOf w 4)
    done (s.setCan n fun k =>
      { k with retryLimit := BitVec.ofNat 3 (bitsOf w 5 3), autoRecover := bitOf w 4, fdEn := bitOf w 3, brsEn := bitOf w 2,
               listenOnly := bitOf w 1, en := bitOf w 0, recovering := k.recovering || begins, recoverAt := if begins then s.now else k.recoverAt })

/-- CAN_NBT from a word (R538). -/
def nbtOf (w : Nat) : CanNbt := { brp := bitsOf w 26 6, seg1 := bitsOf w 17 9, seg2 := bitsOf w 9 8, sjw := bitsOf w 1 8 }
/-- CAN_DBT from a word (R539). -/
def dbtOf (w : Nat) : CanDbt :=
  { brp := bitsOf w 27 5, seg1 := bitsOf w 20 7, seg2 := bitsOf w 14 6, sjw := bitsOf w 8 6, tdcEn := bitOf w 7, tdco := bitsOf w 0 7 }

/-- The conditions on the bit timings that R540 states. -/
def timingOk (a : CanNbt) (b : CanDbt) : Bool :=
  let nominal := a.brp * (1 + a.seg1 + a.seg2)
  let data := b.brp * (1 + b.seg1 + b.seg2)
  decide (1 ≤ a.brp) && decide (a.brp ≤ 32) && decide (2 ≤ a.seg1) && decide (a.seg1 ≤ 256) && decide (2 ≤ a.seg2) &&
    decide (a.seg2 ≤ 128) && decide (1 ≤ a.sjw) && decide (a.sjw ≤ 128) && decide (1 ≤ b.brp) && decide (b.brp ≤ 16) &&
    decide (1 ≤ b.seg1) && decide (b.seg1 ≤ 64) && decide (1 ≤ b.seg2) && decide (b.seg2 ≤ 32) && decide (1 ≤ b.sjw) &&
    decide (b.sjw ≤ 32) && decide (a.sjw ≤ a.seg2) && decide (b.sjw ≤ b.seg2) && decide (8 ≤ 1 + a.seg1 + a.seg2) &&
    decide (5 ≤ 1 + b.seg1 + b.seg2) && decide (125 ≤ nominal) && decide (25 ≤ data) && decide (data ≤ nominal) &&
    (b.tdcEn || decide (125 ≤ data))

/-- A write of CAN_NBT or CAN_DBT (R540): a load is judged by the timing alone. -/
def State.canTiming (c : WriteCtx) (n : Nat) (data : Bool) (v : List Byte) (s : State) : Done :=
  let k := at? s.net.can n
  let w := beVal v
  let nbt := if data then k.nbt else nbtOf w
  let dbt := if data then dbtOf w else k.dbt
  c.notPositioning s fun _ =>
    if !c.load && k.en then refuse .busy s
    else checkValue (v.length == 4 && (data || !bitOf w 0) && timingOk nbt dbt) s fun _ =>
      done (s.setCan n fun k => { k with nbt := nbt, dbt := dbt })

/-- The lengths of CAN FD frames. -/
def canLengths : List Nat := [0, 1, 2, 3, 4, 5, 6, 7, 8, 12, 16, 20, 24, 32, 48, 64]

/-- A write of CAN_TX (R543): a free buffer, or BUSY. -/
def State.canTx (n : Nat) (v : List Byte) (s : State) : Done :=
  let w := fieldAt v 0 4
  let flags := fieldAt v 4 1
  let len := fieldAt v 5 1
  let ext := bitOf w 31
  let ok := v.length == 72 && bitsOf w 29 2 == 0 && (ext || decide (bitsOf w 0 29 ≤ 0x7FF)) && decide (flags < 4) &&
    zeroAt v 6 2 && canLengths.contains len && (bitOf flags 0 || decide (len ≤ 8))
  checkValue ok s fun _ =>
    if 16 ≤ (at? s.net.can n).tx.length then refuse .busy s
    else
      let f : CanFrame := { id := BitVec.ofNat 29 w, extended := ext, fd := bitOf flags 0, brs := bitOf flags 1 && (at? s.net.can n).brsEn,
                            data := sliceAt v 8 len }
      done (s.setCan n fun k => { k with tx := k.tx ++ [{ frame := f }] })

/-- The bytes of a command record (R534). -/
def CommandRecord.bytes (r : CommandRecord) : List Byte :=
  be16 r.seq ++ nat8 (flagBit r.armed 1 + flagBit r.authority 0) ++ be8 r.member ++ be32 r.thrust ++ be32 r.azimuth ++
    be32 r.pitch ++ be32 r.speed ++ be32 r.time

/-- The CAN frame of a command record at data byte MODE: the smallest valid length, padded with zeros (R534). -/
def recordFrame (p : PointRec) (brs : Bool) (r : CommandRecord) : CanFrame :=
  let n := p.mode + 24
  let len := (canLengths.find? fun l => decide (n ≤ l)).getD 64
  let data := zeros p.mode ++ r.bytes
  { id := p.selector.extractLsb' 0 29, extended := p.selector.getLsbD 31, fd := true, brs := brs,
    data := data ++ zeros (len - data.length) }

/-- A command record is queued (R543): in place of a pending one of its point, in a free buffer, or in the buffer of the
pending host frame with the highest identifier. -/
def State.queueRecord (s : State) (p : PointRec) (r : CommandRecord) : State :=
  s.setCan p.channel fun c =>
    let x : CanTx := { frame := recordFrame p c.brsEn r, record := some r }
    match c.tx.findIdx? fun y => (y.record.map (·.point)) == some p.id with
    | some i => { c with tx := updL c.tx i fun _ => x, counters := upd c.counters 3 sat32 }
    | none =>
      if c.tx.length < 16 then { c with tx := c.tx ++ [x] }
      else
        let worst := c.tx.zipIdx.foldl (fun (m : Option (Nat × Nat)) y =>
          if y.1.record.isSome then m
          else
            let a := canArbitration y.1.frame
            match m with
            | some (b, _) => if b < a then some (a, y.2) else m
            | none => some (a, y.2)) none
        match worst with
        | some (_, i) => { c with tx := c.tx.eraseIdx i ++ [x], counters := upd c.counters 4 sat32 }
        | none => { c with tx := c.tx ++ [x] }

/-- The datagram of a command record (R535): to the multicast address 239.255.81.n of its slice, from the port CHANNEL in that port's
PVID; the MAC address is RFC 1112's (PRESUMED, log 17). -/
def State.sendRecord (s : State) (p : PointRec) (r : CommandRecord) : State :=
  { s with net.sentRecords := s.net.sentRecords ++ [r] }.sendOwn p.channel (at? s.net.ports p.channel).pvid .command
    { dst := BitVec.ofNat 48 (0x01005E7F5100 + r.slice), length := 70, authority := r.authority }

/-! ## Serial ports (R547-R551) -/

/-- Characters a second at a BAUD code: ten bits each (R547, R548). -/
def charRate (baud : BitVec 4) : Nat :=
  match baud.toNat with | 0 => 480 | 1 => 960 | 2 => 1920 | 3 => 3840 | 4 => 5760 | _ => 11520

/-- The instant from which the transmitter may drive: in RS-485 two character times after the last character on the line (R547). -/
def SerialPort.freeAt (p : SerialPort) : Nat := if p.wiring = 1 then p.lineAt + 2 * second / charRate p.baud else 0

/-- The transmit buffer as of now (R551); nothing leaves while TX_EN is 0 (R548). -/
def SerialPort.sent (p : SerialPort) (now : Nat) : SerialPort :=
  if p.tx.isEmpty || !p.txEn then { p with txAt := max now p.freeAt }
  else
    let n := min p.tx.length ((now - p.txAt) * charRate p.baud / second)
    { p with tx := p.tx.drop n, txAt := if n = p.tx.length then now else p.txAt + n * second / charRate p.baud,
             counters := upd p.counters 4 fun c => satAdd 0xFFFFFFFF c n }

/-- SERIAL_CHARACTER (R44, R549): the FIFO of 2 KiB. -/
def execSerialCharacter (t : Nat) (port : Fin 8) (char : BitVec 8) (stamp : Nat) (lineError : Bool) (s : State) : Out :=
  runPowered t s fun s =>
    let p := at? s.net.ser port
    let s := s.setSer port fun p =>
      let p := { p.sent s.now with lineAt := s.now }
      { p with txAt := if s.now ≤ p.txAt then max p.txAt p.freeAt else p.txAt, lineErrorRun := lineError,
               counters := if lineError then upd p.counters 2 sat32 else p.counters }
    let s := if lineError && !p.lineErrorRun then s.raiseN 101 port else s
    if p.rx.length < 2048 then
      s.setSer port fun p =>
        { p with rx := p.rx ++ [{ char := char, stamp := stamp, lineError := lineError, lostBefore := p.dropPending }],
                 dropPending := false, overrunRun := false }
    else
      let s := s.setSer port fun p => { p with counters := upd p.counters 3 sat32, overrunRun := true, dropPending := true }
      if p.overrunRun then s else s.raiseN 102 port

/-- The bytes the parser reads as one sentence: up to the first LF, or the first 83 of a run without one. -/
def takeSentence (rx : List SerByte) : Option (List SerByte × List SerByte) :=
  match rx.findIdx? fun b => b.char == 0x0A with
  | some i => some (rx.take (i + 1), rx.drop (i + 1))
  | none => if 82 < rx.length then some (rx.take 83, rx.drop 83) else none

/-- SENTENCE_PARSE (R549, R550): the parser, unless it is stopped, reads one sentence, judges it and converts it. -/
def execSentenceParse (t : Nat) (port : Fin 8) (s : State) : Out :=
  runRunning t s fun s =>
    let p := at? s.net.ser port
    if s.cycle.stopped then s
    else match takeSentence p.rx with
      | none => s
      | some (read, rest) =>
        let line := read.dropWhile fun b => !(b.char == 0x24 || b.char == 0x21)
        let lost := (read.drop 1).any (·.lostBefore) ||
          (match read.head? with | some b => b.lostBefore && !(b.char == 0x24 || b.char == 0x21) | none => false)
        let bad := lost || line.any (·.lineError)
        let body := if bad then none else sentenceBody (line.map (·.char)) p.checksumRequired
        let take (s : State) : State := s.setSer port fun p => { p with rx := rest }
        if line.isEmpty && !lost then take s
        else match body with
          | none =>
            let s := (take s).setSer port fun p => { p with rejectRun := true, counters := upd p.counters 1 sat32 }
            if p.rejectRun then s else s.raiseN 103 port
          | some text =>
            let stamp := (line.head?.map (·.stamp)).getD s.tb3
            let points := s.ownPoints 8 port
            let need := (points.filter fun q => selectorMatches q.selector (fieldOf (splitCommas text) 0)).length
            if 0 < need ∧ 1024 < s.cycle.buffer.length + s.cycle.held.length + need then s.meetFull
            else
              let s := (take s).setSer port fun p => { p with rejectRun := false, counters := upd p.counters 0 sat32 }
              let (xs, s) := s.sentenceSamples points text stamp
              (xs.foldl State.enterBuffer s).tryRelease

/-- The character of a hexadecimal digit. -/
def hexDigit (n : Nat) : Byte := BitVec.ofNat 8 (if n < 10 then 0x30 + n else 0x37 + n)

/-- A write of SER_TX (R551). -/
def State.serTx (n : Nat) (v : List Byte) (s : State) : Done :=
  let s' := s.setSer n fun p => p.sent s.now
  let p := at? s'.net.ser n
  checkValue (decide (11 ≤ v.length) && decide (v.length ≤ 77)) s fun _ =>
    if !p.txEn then refuse .wrongMode s
    else if 1024 < p.tx.length + v.length + 5 then refuse .busy s
    else
      let sum := (sentenceSum (v.drop 1)).toNat
      let text := v ++ [0x2A, hexDigit (sum / 16), hexDigit (sum % 16), 0x0D, 0x0A]
      done (s'.setSer n fun p => { p with tx := p.tx ++ text })

/-- SER_CONFIG as a number (R548). -/
def SerialPort.word (p : SerialPort) : Nat :=
  p.baud.toNat * 2 ^ 28 + p.protocol.toNat * 2 ^ 26 + p.wiring.toNat * 2 ^ 24 + flagBit p.term 23 +
    flagBit p.checksumRequired 22 + flagBit p.txEn 21

/-- A write of SER_CONFIG (R548). -/
def State.serConfig (c : WriteCtx) (n : Nat) (v : List Byte) (s : State) : Done :=
  let w := beVal v
  let baud := bitsOf w 28 4
  let ok := v.length == 4 && decide (baud ≤ 5) && decide (bitsOf w 26 2 ≤ 1) && decide (bitsOf w 24 2 ≤ 1) && bitsOf w 0 21 == 0 &&
    !(bitsOf w 26 2 == 1 && decide (4 ≤ baud))
  c.notPositioning s fun _ => checkValue ok s fun _ =>
    done (s.setSer n fun p =>
      { p.sent s.now with baud := BitVec.ofNat 4 baud, protocol := BitVec.ofNat 2 (bitsOf w 26 2), wiring := BitVec.ofNat 2 (bitsOf w 24 2),
                          term := bitOf w 23, checksumRequired := bitOf w 22, txEn := bitOf w 21 })

/-! ## Objects (R553, R554) -/

/-- PORT_CONFIG as a number (R554). -/
def SwitchPort.word (p : SwitchPort) : Nat :=
  p.pvid.toNat * 2 ^ 20 + p.defaultPcp.toNat * 2 ^ 17 + flagBit p.admitUntagged 16 + p.stormLimit.toNat * 256 + flagBit p.ptpTc 1 +
    flagBit p.en 0

/-- A write of PORT_CONFIG (R554). -/
def State.portConfig (c : WriteCtx) (n : Nat) (v : List Byte) (s : State) : Done :=
  let w := beVal v
  let pvid := bitsOf w 20 12
  let ok := v.length == 4 && decide (1 ≤ pvid) && decide (pvid ≤ 4094) && (s.vlan? pvid).isSome && decide (1 ≤ bitsOf w 8 8) &&
    decide (bitsOf w 8 8 ≤ 100) && bitsOf w 2 6 == 0 && !(n == 4 && !bitOf w 0)
  c.notPositioning s fun _ => checkValue ok s fun _ =>
    done (s.setPort n fun p =>
      { p with pvid := BitVec.ofNat 12 pvid, defaultPcp := BitVec.ofNat 3 (bitsOf w 17 3), admitUntagged := bitOf w 16,
               stormLimit := BitVec.ofNat 8 (bitsOf w 8 8), ptpTc := bitOf w 1, en := bitOf w 0 })

/-- The entries of VLAN_TABLE. -/
def vlansOf (v : List Byte) : Vector VlanEntry 64 :=
  Vector.ofFn fun (i : Fin 64) =>
    { vid := BitVec.ofNat 16 (fieldAt v (4 * i) 2), members := BitVec.ofNat 8 (fieldAt v (4 * i + 2) 1),
      untagged := BitVec.ofNat 8 (fieldAt v (4 * i + 3) 1) }

/-- Does a list of numbers rise? -/
def rising : List Nat → Bool
  | a :: b :: r => decide (a ≤ b) && rising (b :: r)
  | _ => true

/-- A write of an object of island 0x0A. -/
def State.netWrite (c : WriteCtx) (inst num : Nat) (v : List Byte) (s : State) : Done :=
  if inst = 0 then
    match num with
    | 0 =>
      let xs := v.map (·.toNat)
      c.notPositioning s fun _ =>
        checkValue (v.length == 8 && xs.all (fun x => decide (10 ≤ x) && decide (x ≤ 100)) && rising xs) s fun _ =>
          done { s with net.dropThresh := Vector.ofFn fun (i : Fin 8) => xs.getD i 0 }
    | 1 =>
      let t := vlansOf v
      c.notPositioning s fun _ =>
        checkValue (v.length == 256 && t.toList.all fun e => decide (e.vid.toNat ≤ 4094)) s fun _ =>
          done { s with net.vlans := t }
    | 2 => refuse .badValue s
    | 3 => c.notPositioning s fun _ => checkValue (v.length == 2) s fun _ =>
        done { s with net.groups450 := BitVec.ofNat 16 (beVal v) }
    | _ => refuse .badObject s
  else if 0x10 ≤ inst ∧ inst ≤ 0x16 then
    match num with
    | 0 => if 0x15 ≤ inst then refuse .badObject s else s.portConfig c (inst - 0x10) v
    | 1 | 2 => refuse .badValue s
    | _ => refuse .badObject s
  else if 0x20 ≤ inst ∧ inst ≤ 0x23 then
    let n := inst - 0x20
    match num with
    | 0 => s.canControl c n v
    | 1 => s.canTiming c n false v
    | 2 => s.canTiming c n true v
    | 3 | 4 => refuse .badValue s
    | 5 => s.canTx n v
    | _ => refuse .badObject s
  else if 0x30 ≤ inst ∧ inst ≤ 0x37 then
    let n := inst - 0x30
    match num with
    | 0 => s.serConfig c n v
    | 1 => refuse .badValue s
    | 2 => s.serTx n v
    | _ => refuse .badObject s
  else refuse .badObject s

/-- PORT_STATUS: HPT is always up; a lane-link port is up with its link. -/
def State.portStatus (s : State) (n : Nat) : Nat :=
  if n < 4 then (at? s.net.ports n).status.toNat else if n = 4 then 3
  else if (at? s.group.links (n - 5)).up then 3 else 0

/-- CAN_STATUS (R546). -/
def CanController.statusWord (c : CanController) : Nat :=
  let state := if !c.en then 3 else if c.busOff then 2 else if c.passive then 1 else 0
  c.tec * 2 ^ 23 + c.recCount * 2 ^ 15 + state * 2 ^ 13 + c.lastError.toNat * 512 + flagBit c.dataPhase 8 +
    flagBit c.shadow.isSome 7 + c.rx.length

/-- A read of an object of island 0x0A. -/
def State.netRead (inst num : Nat) (s : State) : ReadResult :=
  if inst = 0 then
    match num with
    | 0 => readAs (s.net.dropThresh.toList.flatMap nat8) s
    | 1 => readAs (s.net.vlans.toList.flatMap fun (e : VlanEntry) => be16 e.vid ++ be8 e.members ++ be8 e.untagged) s
    | 2 =>
      let s := s.ageResidences
      readAs (s.net.tcCounters.toList.flatMap nat32) { s with net.tcCounters := .replicate 4 0 }
    | 3 => readAs (be16 s.net.groups450) s
    | _ => noRead .badObject s
  else if 0x10 ≤ inst ∧ inst ≤ 0x16 then
    let n := inst - 0x10
    match num with
    | 0 => if 5 ≤ n then noRead .badObject s else readAs (nat32 (at? s.net.ports n).word) s
    | 1 => readAs (nat8 (s.portStatus n)) s
    | 2 =>
      let s := s.egressAll
      readAs ((at? s.net.ports n).counters.toList.flatMap nat32) (s.setPort n fun p => { p with counters := .replicate 16 0 })
    | _ => noRead .badObject s
  else if 0x20 ≤ inst ∧ inst ≤ 0x23 then
    let n := inst - 0x20
    let k := at? s.net.can n
    match num with
    | 0 => readAs (nat32 k.word) s
    | 1 => readAs (nat32 (k.nbt.brp * 2 ^ 26 + k.nbt.seg1 * 2 ^ 17 + k.nbt.seg2 * 512 + k.nbt.sjw * 2)) s
    | 2 => readAs (nat32 (k.dbt.brp * 2 ^ 27 + k.dbt.seg1 * 2 ^ 20 + k.dbt.seg2 * 2 ^ 14 + k.dbt.sjw * 256 + flagBit k.dbt.tdcEn 7 +
        k.dbt.tdco)) s
    | 3 => readAs (nat32 k.statusWord) s
    | 4 => readAs (k.counters.toList.flatMap nat32) (s.setCan n fun k => { k with counters := .replicate 6 0 })
    | 5 => noRead .badValue s
    | _ => noRead .badObject s
  else if 0x30 ≤ inst ∧ inst ≤ 0x37 then
    let n := inst - 0x30
    let s := s.setSer n fun p => p.sent s.now
    let p := at? s.net.ser n
    match num with
    | 0 => readAs (nat32 p.word) s
    | 1 => readAs (p.counters.toList.flatMap nat32) (s.setSer n fun p => { p with counters := .replicate 5 0 })
    | 2 => noRead .badValue s
    | _ => noRead .badObject s
  else noRead .badObject s

/-! ## Host rows -/

/-- CAN_RECOVER (R542, R545): the control word with RECOVER set. -/
def execCanRecover (t : Nat) (req : Request) (ctl : Fin 4) (s : State) : Out :=
  runHost t s fun s =>
    let v := nat32 ((at? s.net.can ctl).word + 256)
    s.hostWrite req (objId 0x0A (0x20 + ctl) 0) v fun c s => s.canControl c ctl v

/-- CAN_TX (R543). -/
def execCanTx (t : Nat) (req : Request) (ctl : Fin 4) (value : List (BitVec 8)) (s : State) : Out :=
  runHost t s fun s => s.hostWrite req (objId 0x0A (0x20 + ctl) 5) value fun _ s => s.canTx ctl value

/-- CAN_TIMING_WRITE (R540). -/
def execCanTimingWrite (t : Nat) (req : Request) (ctl : Fin 4) (data : Bool) (value : Word) (s : State) : Out :=
  runHost t s fun s =>
    s.hostWrite req (objId 0x0A (0x20 + ctl) (if data then 2 else 1)) (be32 value) fun c s =>
      s.canTiming c ctl data (be32 value)

/-- SER_TX (R551). -/
def execSerTx (t : Nat) (req : Request) (port : Fin 8) (value : List (BitVec 8)) (s : State) : Out :=
  runHost t s fun s => s.hostWrite req (objId 0x0A (0x30 + port) 2) value fun _ s => s.serTx port value

/-! ## Image load (R58, R540, R545, R555) -/

/-- Factory values of the settings, before the PARAMETERS entries. -/
def State.netStart (s : State) : State :=
  let port (p : SwitchPort) : SwitchPort :=
    { p with pvid := 1, defaultPcp := 0, admitUntagged := true, stormLimit := 10, ptpTc := true, en := true }
  let can (c : CanController) : CanController :=
    { c with retryLimit := 3, autoRecover := true, fdEn := true, brsEn := true, listenOnly := false, en := false, nbt := {},
             dbt := {}, rx := [], shadow := none, locked := false, tx := [] }
  let ser (p : SerialPort) : SerialPort :=
    { p.sent s.now with baud := 0, protocol := 0, wiring := 0, term := false, checksumRequired := true, txEn := false }
  { s with net := { s.net with ports := s.net.ports.map port, can := s.net.can.map can, ser := s.net.ser.map ser,
                               vlans := defaultVlans, dropThresh := defaultThresh, groups450 := 0x004D,
                               feedbackAt := .replicate 16 (some s.now), feedbackLost := .replicate 16 false, sentRecords := [],
                               ethSentences := [], ethWait := [] } }

/-- The end of a load (R540, R545): a controller that carries a point takes part in the bus. -/
def State.netLoaded (s : State) : State :=
  (List.range 4).foldl (fun s n => s.setCan n fun c =>
    { c with en := c.en || !(s.canPoints n).isEmpty, fdEn := c.fdEn || s.canThruster n }) s

end Sys2Proof.Machine
end

