-- ==== Sys2Proof/Machine/Image.lean ====
section
/-! DEFINITION. Reading a structure image: steps 2 to 10 of R85 over the bytes of a slot, and the records
(spec/02_structure_image.md). -/

namespace Sys2Proof.Machine

/-- A refused image: the status, and what the response of R572 names. -/
structure ImgErr where
  status : Status := .badValue
  step : Nat := 0
  type_ : Nat := 0
  inst : Nat := 0
  offset : Nat := 0
  deriving DecidableEq, Repr

/-- A section as it stands in the image: `off` is the offset of its header, `body` its body, decrypted where the image is
encrypted, and `len` its LENGTH. -/
structure Sec where
  type_ : Nat := 0
  inst : Nat := 0
  flags : Nat := 0
  off : Nat := 0
  len : Nat := 0
  body : List Byte := []
  deriving DecidableEq, Repr, Inhabited

/-- A condition, or the refusal it makes. -/
def need (ok : Bool) (e : ImgErr) : Except ImgErr Unit := if ok then .ok () else .error e

/-- The refusal of a section at a step, its offset from the section header. -/
def Sec.err (x : Sec) (step : Nat) (at_ : Nat := 0) (status : Status := .badValue) : ImgErr :=
  { status := status, step := step, type_ := x.type_, inst := x.inst, offset := x.off + at_ }

/-! ## Steps 2 to 8 -/

/-- Steps 2, 3 and 4. -/
def checkHeader (b : List Byte) : Except ImgErr Unit := do
  need (decide (64 ≤ b.length)) { step := 2 }
  need (fieldAt b 0 4 == 0x51534946) { step := 2 }
  let len := fieldAt b 8 4
  need (len == b.length && decide (208 ≤ len) && decide (len ≤ 16777216)) { step := 2, offset := 8 }
  need (fieldAt b 4 1 == 4) { status := .version, step := 3, offset := 4 }
  need ((crc32c (b.take 60)).toNat == fieldAt b 60 4) { step := 4, offset := 60 }

/-- Step 5: the SIGNATURE section at IMAGE_LENGTH − 160, made with the enrolled owner key (R83). -/
def checkSignature (b : List Byte) (owner : Option (List Byte)) : Except ImgErr Unit := do
  let at_ := b.length - 160
  let err : ImgErr := { status := .notSigned, step := 5, type_ := 0xFFFF, offset := at_ }
  need (fieldAt b at_ 2 == 0xFFFF && fieldAt b (at_ + 2) 1 == 0 && fieldAt b (at_ + 4) 4 == 144) err
  match owner with
  | none => .error err
  | some key =>
    need (sliceAt b (at_ + 16) 48 == sha384 key &&
      ecdsaVerify key (sha384 (b.take at_)) (sliceAt b (at_ + 64) 96)) err

/-- Walk the sections from an offset (step 6): lengths and CRCs. -/
def walkSections (b : List Byte) (at_ : Nat) : Nat → Except ImgErr (List Sec)
  | 0 => .ok []
  | fuel + 1 =>
    if b.length ≤ at_ then .ok []
    else do
      need (decide (at_ + 16 ≤ b.length)) { step := 6, offset := at_ }
      let len := fieldAt b (at_ + 4) 4
      let x : Sec := { type_ := fieldAt b at_ 2, inst := fieldAt b (at_ + 2) 1, flags := fieldAt b (at_ + 3) 1, off := at_,
                       len := len, body := sliceAt b (at_ + 16) (min len b.length) }
      need (len % 4 == 0 && decide (at_ + 16 + len ≤ b.length)) (x.err 6)
      need ((crc32c (sliceAt b at_ 12 ++ x.body)).toNat == fieldAt b (at_ + 12) 4) (x.err 6)
      let rest ← walkSections b (at_ + 16 + len) fuel
      .ok (x :: rest)

/-- Are two neighbours in the order of R64? -/
def Sec.before (a b : Sec) : Bool := decide (a.type_ < b.type_) || (a.type_ == b.type_ && decide (a.inst ≤ b.inst))

/-- Step 6. -/
def sectionsOf (b : List Byte) : Except ImgErr (List Sec) := do
  let xs ← walkSections b 64 (b.length / 16 + 1)
  let n := fieldAt b 12 2
  need (decide (2 ≤ n) && decide (n ≤ 64) && n == xs.length) { step := 6, offset := 12 }
  (xs.zip (xs.drop 1)).forM fun (a, c) => need (a.before c) (c.err 6)
  match xs.getLast? with
  | some x => need (x.type_ == 0xFFFF && x.off + 160 == b.length) (x.err 6)
  | none => .ok ()
  .ok xs

/-- The section types of R69. -/
def knownType (t : Nat) : Bool := (decide (1 ≤ t) && decide (t ≤ 0x11)) || t == 0xFFFF

/-- Step 7 (R70). -/
def checkUnknown (minor : Nat) (xs : List Sec) : Except ImgErr Unit :=
  xs.forM fun x =>
    if knownType x.type_ then .ok ()
    else if minor ≤ 1 then .error (x.err 7)
    else need (bitOf x.flags 0) (x.err 7 0 .version)

/-- Step 8 (R84, R610): every section but SIGNATURE is decrypted. -/
def decryptSections (b : List Byte) (key : Option (List Byte)) (xs : List Sec) : Except ImgErr (List Sec) :=
  if fieldAt b 6 2 % 2 = 0 then .ok xs
  else xs.mapM fun x =>
    if x.type_ = 0xFFFF then .ok x
    else match key with
      | none => .error (x.err 8 0 .notSigned)
      | some k =>
        let nonce := sliceAt b 16 4 ++ nat16 x.type_ ++ nat8 x.inst ++ [0] ++ sliceAt b 24 4
        match gcmDecrypt k nonce (b.take 60 ++ sliceAt b x.off 12) (x.body.take (x.body.length - 16)) (sliceAt x.body (x.body.length - 16) 16) with
        | some body => .ok { x with body := body }
        | none => .error (x.err 8 0 .notSigned)

/-! ## Records -/

/-- Where each of `count` records starts, and the end, each `size` bytes by what stands at its start. -/
def recOffsets (size : Nat → Nat) (at_ : Nat) : Nat → List Nat × Nat
  | 0 => ([], at_)
  | n + 1 => let (r, e) := recOffsets size (at_ + size at_) n; (at_ :: r, e)

/-- The records of a body that begins with a 2-byte count and 2 reserved bytes. -/
def counted (b : List Byte) (size : Nat → Nat) : List Nat × Nat := recOffsets size 4 (fieldAt b 0 2)

/-- R68: the content fills the body but for at most 3 zero bytes. -/
def fits (b : List Byte) (n : Nat) : Bool := decide (n ≤ b.length) && decide (b.length ≤ n + 3) && zeroAt b n (b.length - n)

/-- A list of FP32. -/
def f32s (b : List Byte) (o n : Nat) : List F32 := (List.range n).map fun i => f32At b (o + 4 * i)
/-- A list of FP64. -/
def f64s (b : List Byte) (o n : Nat) : List F64 := (List.range n).map fun i => f64At b (o + 8 * i)
/-- A list of pairs of FP32. -/
def f32Pairs (b : List Byte) (o n : Nat) : List (F32 × F32) := (List.range n).map fun i => (f32At b (o + 8 * i), f32At b (o + 8 * i + 4))

/-- The CYCLE body (R72). -/
def cycleOf (b : List Byte) : CycleRec :=
  { period := fieldAt b 0 4, waitLimit := fieldAt b 4 4, deadline := fieldAt b 8 4, commandAt := fieldAt b 12 4,
    samples := fieldAt b 16 2, lateWindow := fieldAt b 18 1, groupSize := fieldAt b 19 1, iterCap := fieldAt b 20 2,
    netLimit := fieldAt b 22 2, tolerance := f64At b 24, defaultVariant := fieldAt b 32 1 }
/-- A POINTS record (R73). -/
def pointOf (b : List Byte) (o : Nat) : PointRec :=
  { id := fieldAt b o 2, member := fieldAt b (o + 2) 1, kind := fieldAt b (o + 3) 1, channel := fieldAt b (o + 4) 1,
    mode := fieldAt b (o + 5) 1, period := fieldAt b (o + 8) 4, selector := BitVec.ofNat 32 (fieldAt b (o + 12) 4) }
/-- The eight POINT_IDs of a SLICES record. -/
def sliceIds (b : List Byte) (o : Nat) : List Nat := (List.range 8).map fun i => fieldAt b (o + 4 + 2 * i) 2
/-- A SLICES record (R75). -/
def sliceOf (b : List Byte) (o : Nat) : SliceRec :=
  { kind := fieldAt b o 1, index := fieldAt b (o + 1) 1, principle := fieldAt b (o + 3) 1,
    points := (sliceIds b o).take (fieldAt b (o + 2) 1), lever := f32s b (o + 20) 3 }
/-- The VESSEL body (R76). -/
def vesselOf (b : List Byte) : VesselRec :=
  { lengthPp := f64At b 0, vrpX := f64At b 8, mass := f64s b 16 9, damping := f64s b 88 9, aFrontal := f64At b 160,
    aLateral := f64At b 168, wind := (List.range (fieldAt b 176 2)).map fun i =>
      let o := 180 + 16 * i
      { angle := f32At b o, cx := f32At b (o + 4), cy := f32At b (o + 8), cn := f32At b (o + 12) } }
/-- The length of a THRUSTERS record. -/
def thrusterSize (b : List Byte) (o : Nat) : Nat :=
  40 + 8 * fieldAt b (o + 2) 1 + 8 * fieldAt b (o + 3) 1 + 8 * fieldAt b (o + 4) 1 + 12 * fieldAt b (o + 5) 1
/-- A THRUSTERS record (R77). -/
def thrusterOf (b : List Byte) (o : Nat) : ThrusterRec :=
  let nv := fieldAt b (o + 2) 1
  let ns := fieldAt b (o + 3) 1
  let np := fieldAt b (o + 4) 1
  let o1 := o + 40 + 8 * nv
  let o2 := o1 + 8 * ns
  let o3 := o2 + 8 * np
  { slice := fieldAt b o 1, type_ := fieldAt b (o + 1) 1, x := f64At b (o + 8), y := f64At b (o + 16), rated := f32At b (o + 24),
    ratedPower := f32At b (o + 28), azRateMax := f32At b (o + 32), azSlot := fieldAt b (o + 36) 1, pitchSlot := fieldAt b (o + 37) 1,
    speedSlot := fieldAt b (o + 38) 1, generator := fieldAt b (o + 39) 1, region := f32Pairs b (o + 40) nv,
    sectors := f32Pairs b o1 ns, power := f32Pairs b o2 np,
    map := (List.range (fieldAt b (o + 5) 1)).map fun i =>
      { thrust := f32At b (o3 + 12 * i), pitch := f32At b (o3 + 12 * i + 4), speed := f32At b (o3 + 12 * i + 8) } }
/-- A FILTERS record (R78); RATE_CODE as its byte stands. -/
def filterOf (b : List Byte) (o : Nat) : FilterRec :=
  { point := fieldAt b o 2, rateCode := BitVec.ofNat 4 (fieldAt b (o + 2) 1), dcBlock := bitOf (fieldAt b (o + 3) 1) 0,
    scs := bitOf (fieldAt b (o + 3) 1) 1, dcCutoff := f32At b (o + 4) }
/-- A LOOPS record (R78). -/
def loopOf (b : List Byte) (o : Nat) : LoopRec :=
  { slot := fieldAt b o 1, outer := fieldAt b (o + 1) 1, feedback := fieldAt b (o + 2) 2, output := fieldAt b (o + 4) 2,
    rate := fieldAt b (o + 8) 4, kp := f32At b (o + 12), ki := f32At b (o + 16), kd := f32At b (o + 20), bq1 := f32s b (o + 24) 5,
    bq2 := f32s b (o + 44) 5, ffGain := f32At b (o + 64), outMin := f32At b (o + 68), outMax := f32At b (o + 72) }
/-- A FUSION record (R78). -/
def fusionOf (b : List Byte) (o : Nat) : FusionRec :=
  { kind := fieldAt b o 1, index := fieldAt b (o + 1) 1, level := fieldAt b (o + 2) 1, gate := f32At b (o + 4), sigma := f32At b (o + 8),
    leverBound := f32At b (o + 12), angleBound := f32At b (o + 16),
    reflectors := (List.range (fieldAt b (o + 3) 1)).map fun i =>
      (f32At b (o + 20 + 12 * i), f32At b (o + 24 + 12 * i), f32At b (o + 28 + 12 * i)) }

/-- The offsets of COLPTR, ROWS, ORDER and SCHEDULE in a SOLVER_VARIANT body, and its end (R79). -/
def variantLayout (b : List Byte) : Nat × Nat × Nat × Nat × Nat :=
  let nvar := fieldAt b 4 2
  let n := nvar + fieldAt b 6 2
  let nnz := fieldAt b 8 4
  let colptr := 20 + 4 * nvar
  let rows := colptr + 4 * (n + 1)
  let order := (rows + 2 * nnz + 3) / 4 * 4
  let sched := (order + 2 * n + 3) / 4 * 4
  (colptr, rows, order, sched, sched + 8 * fieldAt b 12 4)
/-- A SOLVER_VARIANT section (R79). -/
def variantOf (x : Sec) : VariantRec :=
  let b := x.body
  let (colptr, rows, order, sched, _) := variantLayout b
  let nvar := fieldAt b 4 2
  let n := nvar + fieldAt b 6 2
  { number := x.inst, horizon := fieldAt b 0 1, modes := BitVec.ofNat 8 (fieldAt b 1 1), thrusters := BitVec.ofNat 16 (fieldAt b 2 2),
    vars := (List.range nvar).map fun i =>
      let o := 20 + 4 * i
      { kind := fieldAt b o 1, slice := fieldAt b (o + 1) 1, step := fieldAt b (o + 2) 1, comp := fieldAt b (o + 3) 1 },
    ncon := fieldAt b 6 2, nnz := fieldAt b 8 4, colptr := (List.range (n + 1)).map fun i => fieldAt b (colptr + 4 * i) 4,
    rows := (List.range (fieldAt b 8 4)).map fun i => fieldAt b (rows + 2 * i) 2,
    order := (List.range n).map fun i => fieldAt b (order + 2 * i) 2,
    schedule := (List.range (fieldAt b 12 4)).map fun i => BitVec.ofNat 64 (fieldAt b (sched + 8 * i) 8) }

/-- The maps of VARIABLE_MAP in order, each with its offset; the last may be one without a defined length (R80). -/
def mapsOf (vs : List VariantRec) (b : List Byte) (at_ : Nat) : Nat → List (Nat × VarMap × Bool) × Nat
  | 0 => ([], at_)
  | n + 1 =>
    let from_ := fieldAt b at_ 1
    let dest := fieldAt b (at_ + 1) 1
    match (if from_ = dest || !(vs.any (·.number == from_)) then none else vs.find? (·.number == dest)) with
    | none => ([(at_, { from_ := from_, dest := dest }, false)], b.length)
    | some v =>
      let m : VarMap := { from_ := from_, dest := dest, entries := (List.range v.nvar).map fun i => fieldAt b (at_ + 4 + 2 * i) 2 }
      let (r, e) := mapsOf vs b (at_ + 4 + 2 * v.nvar) n
      ((at_, m, true) :: r, e)

/-- The size of a PARAMETERS_LONG record. -/
def longSize (b : List Byte) (o : Nat) : Nat := 8 + (fieldAt b (o + 4) 2 + 3) / 4 * 4
/-- A SAFE_STATES record. -/
def safeOf (b : List Byte) (o : Nat) : SafeRec := { point := fieldAt b o 2, state := fieldAt b (o + 2) 1, value := f32At b (o + 4) }
/-- A SAFETY record. -/
def safetyOf (b : List Byte) (o : Nat) : SafRecord :=
  { channel := fieldAt b o 1, function := fieldAt b (o + 1) 1, thr := fieldAt b (o + 2) 1, tp := fieldAt b (o + 3) 1,
    filterUs := fieldAt b (o + 4) 2, raw := sliceAt b o 8 }
/-- A DISPLAY_LAYOUT record. -/
def layoutOf (b : List Byte) (o : Nat) : LayoutRec :=
  { x := fieldAt b o 2, y := fieldAt b (o + 2) 2, w := fieldAt b (o + 4) 2, h := fieldAt b (o + 6) 2,
    object := BitVec.ofNat 32 (fieldAt b (o + 8) 4), format := fieldAt b (o + 12) 1, font := fieldAt b (o + 13) 1,
    strip := fieldAt b (o + 14) 1 == 1 }

/-- The records of a section of a type in the image: their offsets in its body. -/
def recordsAt (x : Sec) : List Nat × Nat :=
  let b := x.body
  match x.type_ with
  | 2 => counted b fun _ => 16
  | 3 => counted b fun _ => 32
  | 5 => counted b (thrusterSize b)
  | 6 => counted b fun _ => 8
  | 7 => counted b fun _ => 76
  | 8 => counted b fun o => 20 + 12 * fieldAt b (o + 3) 1
  | 0xB => counted b fun _ => 12
  | 0xD => recOffsets (fun _ => 8) 4 (fieldAt b 2 2)
  | 0xE => counted b fun _ => 16
  | 0xF => counted b fun _ => 8
  | 0x11 => counted b (longSize b)
  | _ => ([], b.length)

/-- The first section of a type. -/
def secOf (xs : List Sec) (t : Nat) : Sec := (xs.find? (·.type_ == t)).getD {}

/-- The variants of an image. -/
def variantsOf (xs : List Sec) : List VariantRec := (xs.filter (·.type_ == 9)).map variantOf

/-- Step 9 for one section: its length (R68), its padding and its reserved fields (R65). R68 names no step of R85 for a length or a
padding that breaks it; the model takes step 9 (DESIGN CHOICE, log 36). -/
def bodyOk (xs : List Sec) (x : Sec) : Bool :=
  let b := x.body
  let (os, e) := recordsAt x
  let head := zeroAt b 2 2
  match x.type_ with
  | 1 => fits b 36 && zeroAt b 33 3
  | 2 => fits b e && head && os.all fun o => zeroAt b (o + 6) 2
  | 3 => fits b e && head
  | 4 => fits b (180 + 16 * fieldAt b 176 2) && zeroAt b 178 2
  | 5 => fits b e && head && os.all fun o => zeroAt b (o + 6) 2
  | 6 => fits b e && head && os.all fun o => decide (fieldAt b (o + 3) 1 < 4)
  | 7 => fits b e && head && os.all fun o => zeroAt b (o + 6) 2
  | 8 => fits b e && head
  | 9 =>
    let (_, rows, order, sched, stop) := variantLayout b
    let rowsEnd := rows + 2 * fieldAt b 8 4
    let orderEnd := order + 2 * (fieldAt b 4 2 + fieldAt b 6 2)
    let desc := fieldAt b (sched + 8) 4
    fits b stop && decide (fieldAt b 1 1 < 16) && zeroAt b 16 4 && zeroAt b rowsEnd (order - rowsEnd) &&
      zeroAt b orderEnd (sched - orderEnd) && zeroAt b (sched + 3) 1 &&
      (List.range (fieldAt b 12 4 - 2 - desc)).all fun i => bitsOf (fieldAt b (sched + 16 + 8 * (desc + i)) 8) 52 2 == 0
  | 0xA =>
    let (ms, e) := mapsOf (variantsOf xs) b 4 (fieldAt b 0 2)
    (fits b e || ms.any fun m => !m.2.2) && head && ms.all fun m => !m.2.2 || zeroAt b (m.1 + 2) 2
  | 0xB => fits b e && head
  | 0xC => fits b 512 && (List.range 128).all fun n =>
      let w := fieldAt b (4 * n) 4
      bitsOf w 24 8 == 0 && bitsOf w 8 7 == 0
  | 0xD => fits b e && os.all fun o => zeroAt b (o + 3) 1
  | 0xE => fits b e && head && os.all fun o => zeroAt b (o + 15) 1
  | 0xF => fits b e && head && os.all fun o => zeroAt b (o + 6) 2
  | 0x11 => fits b e && head && os.all fun o =>
      zeroAt b (o + 6) 2 && (let n := fieldAt b (o + 4) 2; zeroAt b (o + 8 + n) ((n + 3) / 4 * 4 - n))
  | 0xFFFF => b.length == 144
  | _ => true

/-- The required section types in order (R69). -/
def requiredTypes : List Nat := [1, 2, 3, 4, 5, 6, 7, 8, 9, 0xA, 0xB, 0xC, 0xD, 0xF, 0xFFFF]

/-- Step 9. DESIGN CHOICE (log 36): byte 47 of COMPILER_ID is taken as a reserved byte (R66 says Any, and byte 47 zero); an INSTANCE out
of its type's range is refused here (R67 names no step); the INSTANCE of an unknown section is not judged. -/
def checkContents (b : List Byte) (xs : List Sec) : Except ImgErr Unit := do
  need (fieldAt b 6 2 < 2 && zeroAt b 14 2 && zeroAt b 47 1 && zeroAt b 48 12) { step := 9 }
  requiredTypes.forM fun t =>
    need (xs.any (·.type_ == t))
      { step := 9, type_ := t, offset := ((xs.find? fun x => decide (t < x.type_)).map (·.off)).getD 0 }
  xs.zipIdx.forM fun (x, i) => do
    need (zeroAt b (x.off + 8) 4 && decide (x.flags < 2)) (x.err 9)
    if knownType x.type_ then do
      need (if x.type_ = 9 then decide (x.inst ≤ 7) else x.inst == 0) (x.err 9)
      need (!(xs.take i).any fun y => y.type_ == x.type_ && y.inst == x.inst) (x.err 9)
      need (x.type_ != 0x10 || (bitOf x.flags 0 && decide (x.len ≤ 65536))) (x.err 9)
      need (bodyOk xs x) (x.err 9)
    else .ok ()

/-- The structure the sections describe. -/
def structureOf (b : List Byte) (xs : List Sec) : Structure :=
  let body (t : Nat) : List Byte := (secOf xs t).body
  let all {α : Type} (t : Nat) (f : List Byte → Nat → α) : List α := (recordsAt (secOf xs t)).1.map (f (body t))
  let vs := variantsOf xs
  { serial := BitVec.ofNat 32 (fieldAt b 16 4), fmtMajor := BitVec.ofNat 8 (fieldAt b 4 1), fmtMinor := BitVec.ofNat 8 (fieldAt b 5 1),
    vessel := sliceAt b 28 16, cyc := cycleOf (body 1), points := all 2 pointOf, slices := all 3 sliceOf, hull := vesselOf (body 4),
    thrusters := all 5 thrusterOf, filters := all 6 filterOf, loops := all 7 loopOf, fusion := all 8 fusionOf, variants := vs,
    maps := (mapsOf vs (body 0xA) 4 (fieldAt (body 0xA) 0 2)).1.map (·.2.1),
    params := all 0xB fun b o => { object := BitVec.ofNat 32 (fieldAt b o 4), value := sliceAt b (o + 4) 8 },
    paramsLong := if xs.any (·.type_ == 0x11) then
        all 0x11 fun b o => { object := BitVec.ofNat 32 (fieldAt b o 4), value := sliceAt b (o + 8) (fieldAt b (o + 4) 2) }
      else [],
    routes := (List.range 128).map fun n => BitVec.ofNat 32 (fieldAt (body 0xC) (4 * n) 4), watchdog := fieldAt (body 0xD) 0 2,
    safe := all 0xD safeOf, layout := if xs.any (·.type_ == 0xE) then all 0xE layoutOf else [], safety := all 0xF safetyOf }

/-! ## Step 10 (R7, R11, R73, R74, R75, R484) -/

/-- What a module knows of itself when it judges an image. -/
structure Judge where
  member : Nat := 0
  optG : Bool := true
  optS : Bool := true
  optP : Bool := true

/-- The channels of a kind (R73). -/
def channelsOf (kind : Nat) : Nat :=
  match kind with
  | 1 | 2 => 32 | 3 | 4 => 16 | 5 | 8 => 8 | 6 | 9 | 10 | 11 => 4 | 7 => 2 | _ => 0
/-- The largest MODE of a kind (R73). -/
def modeLimit (kind : Nat) : Nat := match kind with | 1 => 1 | 3 | 4 => 2 | 9 => 63 | _ => 0
/-- The channel class in which a channel appears in one point only (R74). -/
def exclusiveClass (kind : Nat) : Option Nat := match kind with | 1 | 2 => some 1 | 3 => some 3 | 4 => some 4 | 5 => some 5 | 6 => some 6 | _ => none

/-- The formatters with a whole-sentence form (R550): GGA, GNS, ZDA and RMC. -/
def wholeFormatters : List Nat := [0x474741, 0x474E53, 0x5A4441, 0x524D43]

/-- SELECTOR, its reserved bits included (R73, R550). -/
def pointSelectorOk (kind : Nat) (sel : BitVec 32) : Bool :=
  let v := sel.toNat
  match kind with
  | 8 | 11 =>
    let f := bitsOf v 8 24
    let letter (c : Nat) : Bool := (decide (0x30 ≤ c) && decide (c ≤ 0x39)) || (decide (0x41 ≤ c) && decide (c ≤ 0x5A))
    letter (bitsOf v 24 8) && letter (bitsOf v 16 8) && letter (bitsOf v 8 8) &&
      (bitsOf v 0 7 != 0 || (!bitOf v 7 && wholeFormatters.contains f))
  | 9 => bitsOf v 29 2 == 0 && (bitOf v 31 || decide (v ≤ 0x7FF))
  | 10 => decide (1 ≤ v) && decide (v ≤ 0xFFFF)
  | _ => v == 0

/-- Is a point within its ranges (R71, R73, R74)? `i` is its place. -/
def pointOk (group i : Nat) (p : PointRec) : Bool :=
  p.id == i && decide (1 ≤ p.kind) && decide (p.kind ≤ 11) && decide (p.channel < channelsOf p.kind) && decide (p.mode ≤ modeLimit p.kind) &&
    pointSelectorOk p.kind p.selector && (if p.member = 0xFF then p.kind == 7 else decide (p.member < group)) &&
    (!(p.kind == 2 || p.kind == 4 || p.kind == 6) || p.period == 0)

/-- Is a slice within its ranges (R11, R75)? -/
def sliceOk (i : Structure) (ids : List Nat) (count : Nat) (x : SliceRec) : Bool :=
  let limit := match x.kind with | 0 => 16 | 1 => 12 | 2 | 3 | 4 => 4 | _ => 0
  decide (x.index < limit) && decide (1 ≤ count) && decide (count ≤ 8) && decide (x.principle ≤ 9) &&
    x.points.all (fun id => decide (id < i.points.length)) && (ids.drop count).all (· == 0xFFFF) &&
    (x.kind != 0 || (x.principle == 0 && x.lever.all fun v => F32.eq v 0))

/-- Step 10. Its refusals of options (BAD_OBJECT) and of ranges and uniqueness (BAD_VALUE) are judged point by point; R85 gives no order
among them (DESIGN CHOICE, log 36). -/
def checkPoints (j : Judge) (xs : List Sec) (i : Structure) : Except ImgErr Unit := do
  let sc := secOf xs 1
  let sp := secOf xs 2
  let ss := secOf xs 3
  let group := i.cyc.groupSize
  need (decide (1 ≤ group) && decide (group ≤ 3)) (sc.err 10 (16 + 19))
  i.points.zipIdx.forM fun (p, n) => do
    let at_ := 16 + 4 + 16 * n
    let own := p.member == j.member || (p.member == 0xFF && group == 1)
    need (pointOk group n p) (sp.err 10 at_)
    need (!(own && ((p.kind == 6 && !j.optS) || (p.kind == 7 && !j.optG)))) (sp.err 10 at_ .badObject)
    need (!(i.points.take n).any fun q =>
      (exclusiveClass p.kind).isSome && exclusiveClass q.kind == exclusiveClass p.kind && q.member == p.member &&
        q.channel == p.channel) (sp.err 10 at_)
  i.slices.zipIdx.forM fun (x, n) => do
    let o := 4 + 32 * n
    need (sliceOk i (sliceIds ss.body o) (fieldAt ss.body (o + 2) 1) x &&
      !(i.slices.take n).any fun y => y.kind == x.kind && y.index == x.index) (ss.err 10 (16 + o))

end Sys2Proof.Machine
end

