-- ==== Sys2Proof/Machine/ImageCheck.lean ====
section
/-! DEFINITION. Step 11 of R85: the record contents of every section but POINTS and the entries of PARAMETERS
(spec/02_structure_image.md and the rules each section's owner states). -/

namespace Sys2Proof.Machine

/-- A finite FP32 as a whole number of units of 2^-149, which is exact. -/
def exact32 (x : F32) : Option Int :=
  match F32.val x with
  | .fin neg m e => some (Fp.scaled neg m e (-149))
  | _ => none

/-! ## CYCLE and SLICES -/

/-- R29, R34, R72. -/
def cycleOk (i : Structure) : Bool :=
  let c := i.cyc
  let whole (n : Nat) : Bool := n % us == 0
  decide (10 * ms ≤ c.period) && decide (c.period ≤ 100 * ms) && whole c.period && decide (500 * us ≤ c.waitLimit) &&
    decide (c.waitLimit ≤ 8 * ms) && decide (c.waitLimit + 1350 * us ≤ c.deadline) && whole c.deadline &&
    decide (c.deadline + 500 * us ≤ c.commandAt) && decide (c.commandAt + 500 * us ≤ c.period) && whole c.commandAt &&
    decide (1 ≤ c.samples) && decide (c.samples ≤ 512) && decide (c.lateWindow ≤ 8) && decide (1 ≤ c.iterCap) &&
    decide (c.iterCap ≤ 200) && decide (3 ≤ c.netLimit) && decide (c.netLimit ≤ 1000) &&
    F64.within (f64OfRat 1 1000000000000) (f64OfRat 1 100) c.tolerance && i.variants.any (·.number == c.defaultVariant)

/-- A point that carries a value in a unit (R190). -/
def valuePoint (p : PointRec) : Bool :=
  p.kind == 3 || p.kind == 9 || ((p.kind == 8 || p.kind == 11) && p.selector.extractLsb' 0 7 != 0)
/-- A whole GGA or GNS sentence (R189, R190). -/
def wholeFix (p : PointRec) : Bool :=
  (p.kind == 8 || p.kind == 11) && p.selector.extractLsb' 0 8 == 0 &&
    [0x474741, 0x474E53].contains (p.selector.extractLsb' 8 24).toNat

/-- The points of a reference by its principle (R189). -/
def referencePointsOk (x : SliceRec) (ps : List PointRec) : Bool :=
  let n := ps.length
  let values := ps.all valuePoint
  let ants := ps.zipIdx.all fun (p, k) => p.kind == 7 && p.channel == k
  match x.principle, x.kind with
  | 1, 1 => (ants && decide (n ≤ 2)) || (n == 1 && ps.all wholeFix)
  | 1, 2 => (ants && n == 2) || (n == 1 && values)
  | 2, 1 => (n == 2 || n == 3) && values
  | 3, 1 | 4, 1 | 5, 1 | 9, 1 => n == 1 && ps.all (·.kind == 10)
  | 7, 2 | 9, 2 => n == 1 && values
  | 6, 3 => (n == 2 || n == 3) && values
  | 8, 4 => n == 2 && values
  | _, _ => false

/-- The command and feedback points of a thruster slice (R533, R534). -/
def thrusterPointsOk (ps : List PointRec) : Bool :=
  let bus := ps.filter fun p => p.kind == 9 || p.kind == 10
  bus.zipIdx.all fun (p, k) =>
    !((bus.take k).any fun q => q.member == p.member && (q.period == 0) == (p.period == 0)) &&
      (p.kind != 9 || decide (p.mode + (if p.period = 0 then 24 else 20) ≤ 64))

/-- The points of a slice as records. -/
def Structure.slicePoints (i : Structure) (x : SliceRec) : List PointRec := x.points.filterMap i.point?

/-- A slice's points. -/
def slicePointsOk (i : Structure) (x : SliceRec) : Bool :=
  let ps := i.slicePoints x
  if x.kind = 0 then thrusterPointsOk ps else referencePointsOk x ps

/-! ## VESSEL and THRUSTERS -/

/-- Are FP32 values strictly rising? -/
def rising32 : List F32 → Bool
  | a :: b :: r => F32.lt a b && rising32 (b :: r)
  | _ => true

/-- R76. -/
def vesselOk (i : Structure) : Bool :=
  let w := i.hull.wind.map (·.angle)
  decide (2 ≤ w.length) && decide (w.length ≤ 72) && rising32 w && w.all fun a => F32.le 0 a && F64.lt (F64.of32 a) F64.twoPi

/-- The vertices of a region exactly; none when a coordinate is not finite. -/
def exactRegion (r : List (F32 × F32)) : Option (List (Int × Int)) :=
  r.mapM fun (x, y) => do let a ← exact32 x; let b ← exact32 y; pure (a, b)

/-- Twice the signed area of the triangle a, b, c. -/
def cross3 (a b c : Int × Int) : Int := (b.1 - a.1) * (c.2 - a.2) - (b.2 - a.2) * (c.1 - a.1)

/-- A convex region, counter-clockwise, that contains the origin; with two vertices a segment through it (R77, R289). -/
def regionOk (vs : List (Int × Int)) : Bool :=
  match vs with
  | [a, b] => cross3 a b (0, 0) == 0 && decide (a.1 * b.1 + a.2 * b.2 ≤ 0)
  | _ =>
    let edges := vs.zip (vs.drop 1 ++ vs.take 1)
    let area : Int := edges.foldl (fun (z : Int) (a, b) => z + (a.1 * b.2 - a.2 * b.1)) 0
    decide (0 < area) && edges.all fun (a, b) => decide (0 ≤ cross3 a b (0, 0)) && vs.all fun c => decide (0 ≤ cross3 a b c)

/-- Does MAP cover the thrust range of REGION (R289)? Magnitudes are compared by their squares. -/
def mapCovers (type_ : Nat) (vs : List (Int × Int)) (lo hi : Int) : Bool :=
  match type_ with
  | 0 => vs.all fun v => decide (lo ≤ v.2) && decide (v.2 ≤ hi)
  | 3 => vs.all fun v => decide (lo ≤ v.1) && decide (v.1 ≤ hi)
  | _ => decide (lo ≤ 0) && decide (0 ≤ hi) && vs.all fun v => decide (v.1 * v.1 + v.2 * v.2 ≤ hi * hi)

/-- One THRUSTERS record (R77, R289, R362), the ones before it in `before`. The fixed thrusters whose AZ_RATE_MAX must be 0 are those of
TYPE 0 alone (DESIGN CHOICE, log 36: R77 does not say whether a propeller with rudder is one). -/
def thrusterOk (i : Structure) (before : List ThrusterRec) (t : ThrusterRec) : Bool :=
  let slots (t : ThrusterRec) : List Nat := [t.azSlot, t.pitchSlot, t.speedSlot].filter (· != 0xFF)
  let taken := before.flatMap slots
  let mine := slots t
  let outermost (n : Nat) : Bool := i.loops.any fun l => l.slot == n && l.outer == 0xFF
  let range := match t.map.head?, t.map.getLast? with
    | some a, some b => (exact32 a.thrust).bind fun lo => (exact32 b.thrust).map fun hi => (lo, hi)
    | _, _ => none
  i.slices.any (fun x => x.kind == 0 && x.index == t.slice) && !before.any (·.slice == t.slice) && decide (t.type_ ≤ 3) &&
    decide (2 ≤ t.region.length) && decide (t.region.length ≤ 16) && decide (t.sectors.length ≤ 4) && decide (2 ≤ t.power.length) &&
    decide (t.power.length ≤ 8) && decide (2 ≤ t.map.length) && decide (t.map.length ≤ 32) && F32.le 0 t.azRateMax &&
    (t.type_ != 0 || F32.eq t.azRateMax 0) && mine.all (fun n => decide (n ≤ 31) && outermost n && !taken.contains n) &&
    mine.eraseDups.length == mine.length &&
    (t.generator == 0xFF || (decide (t.generator ≤ 15) && !before.any (·.generator == t.generator))) &&
    ((t.power.head?.map fun p => F32.eq p.1 0) == some true) && rising32 (t.power.map (·.1)) && rising32 (t.map.map (·.thrust)) &&
    (match exactRegion t.region, range with
     | some vs, some (lo, hi) => regionOk vs && mapCovers t.type_ vs lo hi
     | _, _ => false)

/-! ## FILTERS, LOOPS and FUSION -/

/-- Output period of a RATE_CODE in ns (R166). -/
def outputPeriod (code : Nat) : Nat :=
  [20000, 40000, 100000, 200000, 400000, 1000000, 2000000, 4000000, 10000000, 20000000, 50000000, 100000000].getD code 100000000

/-- One FILTERS record (R167); `code` is its RATE_CODE byte. -/
def filterOk (i : Structure) (before : List FilterRec) (f : FilterRec) (code : Nat) : Bool :=
  let cut := F64.of32 f.dcCutoff
  ((i.point? f.point).map (·.kind)) == some 3 && !before.any (·.point == f.point) && decide (code ≤ 11) &&
    (!f.scs || decide (3 ≤ code)) &&
    (!f.dcBlock || (F64.le (f64OfRat 1 1000) cut && F64.le cut (f64OfRat (1000000000 : Nat) (20 * outputPeriod code))))

/-- The rate code and mode of an AI point (R167). -/
def Structure.aiRate (i : Structure) (id : Nat) : Nat × Bool :=
  match i.filters.find? (·.point == id) with | some f => (f.rateCode.toNat, f.scs) | none => (5, false)

/-- An AI point against its rate (R171, R173). -/
def aiPointOk (i : Structure) (p : PointRec) : Bool :=
  let (code, scs) := i.aiRate p.id
  let out := outputPeriod code
  let chain2 := (if scs then out else 5 * out) - 400
  let reference := i.slices.any fun x => x.kind != 0 && x.points.contains p.id
  p.kind != 3 || (p.period % out == 0 && (!reference || decide (chain2 + 4000 ≤ 2 * (i.cyc.waitLimit + i.cyc.lateWindow * i.cyc.period))))

/-- The slots outward from a slot; longer than the number of slots when OUTER forms a cycle (R78). -/
def Structure.outward (i : Structure) (n : Nat) : Nat → List Nat
  | 0 => [n]
  | fuel + 1 => match i.loops.find? (·.slot == n) with
    | some l => if l.outer = 0xFF then [n] else n :: i.outward l.outer fuel
    | none => [n]

/-- One LOOPS record (R78, R362, R369). -/
def loopOk (i : Structure) (before : List LoopRec) (l : LoopRec) : Bool :=
  let inner := i.loops.any (·.outer == l.slot)
  let fb := i.point? l.feedback
  let out := i.point? l.output
  let outer := i.loops.find? (·.slot == l.outer)
  let member := (fb.map (·.member)).getD 0
  let vals := [l.kp, l.ki, l.kd, l.ffGain, l.outMin, l.outMax] ++ l.bq1 ++ l.bq2
  decide (l.slot ≤ 31) && !before.any (·.slot == l.slot) && decide (1000 ≤ l.rate) && decide (l.rate ≤ 50000) &&
    (match fb with
     | some p => p.kind == 5 || (p.kind == 3 && (1000000000 / outputPeriod (i.aiRate p.id).1) % l.rate == 0)
     | none => false) &&
    (if l.output = 0xFFFF then inner
     else match out with
       | some p => (p.kind == 4 || p.kind == 6 || p.kind == 2) && !inner && !before.any (·.output == l.output) &&
           p.member == member && (p.kind != 2 || decide (l.rate ≤ 5000))
       | none => false) &&
    (l.outer == 0xFF || (match outer with
       | some o => decide (0 < o.rate) && l.rate % o.rate == 0 && ((i.point? o.feedback).map (·.member)) == some member &&
           decide ((i.outward l.slot 33).length ≤ 32)
       | none => false)) &&
    vals.all F32.finite && biquadStable l.bq1 && biquadStable l.bq2 && F32.lt l.outMin l.outMax

/-- One FUSION record (R78, R192). -/
def fusionOk (i : Structure) (before : List FusionRec) (f : FusionRec) : Bool :=
  match i.slices.find? fun x => (f.kind == 1 || f.kind == 2) && x.kind == f.kind && x.index == f.index with
  | none => false
  | some x =>
    !before.any (fun g => g.kind == f.kind && g.index == f.index) &&
      (f.level == 2 || (f.level == 1 && f.kind == 1 && (i.slicePoints x).all (·.kind == 7))) && decide (f.reflectors.length ≤ 16) &&
      [f.gate, f.sigma, f.leverBound, f.angleBound].all F32.finite && F32.lt 0 f.gate && F32.lt 0 f.sigma &&
      F32.le 0 f.leverBound && F32.le 0 f.angleBound

/-! ## SOLVER_VARIANT and VARIABLE_MAP -/

/-- The fields of a program word (R324): OP, PE, COL_J, COL_K. -/
def progWord (w : BitVec 64) : Nat × Nat × Nat × Nat :=
  let v := w.toNat
  (bitsOf v 60 4, bitsOf v 54 6, bitsOf v 38 14, bitsOf v 24 14)

/-- The program words with the wave each lies in. -/
def VariantRec.waves (v : VariantRec) : List (Nat × Nat × Nat × Nat × Nat) :=
  (v.program.foldl (fun (a : Nat × List (Nat × Nat × Nat × Nat × Nat)) w =>
    let (op, pe, j, k) := progWord w
    (if op = 4 then a.1 + 1 else a.1, a.2 ++ [(a.1, op, pe, j, k)])) (0, [])).2

/-- The schedule against the pattern and ORDER (R325): every CMOD and CDIV that the factorisation requires once, a CMOD in
a later wave than the CDIV of its source, and no column written by two PEs in one wave. -/
def VariantRec.scheduleOk (v : VariantRec) : Bool :=
  let cols := v.columns
  let n := v.nvar + v.ncon
  let ws := v.waves
  let cdiv (j : Nat) := ws.filter fun (_, op, _, c, _) => op == 3 && c == j
  let cmod (j k : Nat) := ws.filter fun (_, op, _, c, d) => op == 2 && c == j && d == k
  let writes := ws.filter fun (_, op, _, _, _) => op == 1 || op == 2 || op == 3
  (List.range n).all (fun j => (cdiv j).length == 1) &&
    cols.zipIdx.all (fun (rows, k) => rows.all fun j => (cmod j k).length == 1) &&
    ws.all (fun (w, op, _, _, k) => op != 2 || (cdiv k).all fun (u, _, _, _, _) => decide (u < w)) &&
    writes.all fun (w, _, pe, j, _) => writes.all fun (u, _, qe, i, _) => !(u == w && i == j) || pe == qe

/-- A constraint descriptor (R323). -/
def descriptorOk (v : VariantRec) (row : Nat) : Bool :=
  let (t, family, slice, step) := v.rowKey row
  decide (t ≤ 1) && decide (1 ≤ family) && decide (family ≤ 6) && decide (step < v.horizon) &&
    (slice == 0xFF || (decide (slice < 16) && v.thrusters.getLsbD slice))

/-- The frame of SCHEDULE (R322, R324). -/
def VariantRec.frameOk (v : VariantRec) : Bool :=
  let w0 := (v.schedule.getD 0 0).toNat
  let w1 := (v.schedule.getD 1 0).toNat
  let n := v.nvar + v.ncon
  decide (2 ≤ v.schedule.length) && bitsOf w0 48 16 == 0x5348 && bitsOf w0 40 8 == 1 && bitsOf w1 32 32 == (v.ncon + 1) / 2 &&
    v.schedule.length == 2 + bitsOf w1 32 32 + bitsOf w1 0 32 && (v.ncon % 2 == 0 || v.descriptor v.ncon == 0) &&
    (List.range v.ncon).all (descriptorOk v) &&
    v.program.all fun w =>
      let (op, _, j, k) := progWord w
      decide (op ≤ 5) && (!(op == 1 || op == 2 || op == 3) || decide (j < n)) && (if op = 2 then decide (k < n) else k == 0)

/-- Are numbers strictly rising? -/
def risingStrict : List Nat → Bool
  | a :: b :: r => decide (a < b) && risingStrict (b :: r)
  | _ => true

/-- The stored pattern (R79, R320). -/
def VariantRec.patternOk (v : VariantRec) : Bool :=
  let n := v.nvar + v.ncon
  let col (c : Nat) : List Nat := let a := v.colptr.getD c 0; (v.rows.drop a).take (v.colptr.getD (c + 1) 0 - a)
  v.colptr.head? == some 0 && v.colptr.getLast? == some v.nnz && rising v.colptr &&
    (List.range n).all (fun c => (col c).head? == some c && risingStrict (col c) && (col c).all (fun r => decide (r < n)) &&
      (decide (c < v.nvar) || (col c).length == 1)) &&
    v.order.all (fun x => decide (x < n)) && v.order.eraseDups.length == n

/-- A variable descriptor (R79). Read from the descriptor's list (DEDUCED, log 36): a thrust component names a slice of the variant's
THRUSTERS, any other kind such a slice or 0xFF, and COMP is 0 for the kinds that have no component. -/
def varOk (v : VariantRec) (d : VarDesc) : Bool :=
  let inMask := decide (d.slice < 16) && v.thrusters.getLsbD d.slice
  decide (1 ≤ d.kind) && decide (d.kind ≤ 6) && decide (d.step < v.horizon) &&
    decide (d.comp ≤ (match d.kind with | 3 => 5 | 4 => 2 | _ => 0)) &&
    (if d.kind ≤ 2 then inMask else d.slice == 0xFF || inMask)

/-- One SOLVER_VARIANT section (R79, R320, R322-R325, R356), the ones before it in `before`. A THRUSTERS bit that names a slice the
image lacks is refused (DEDUCED, log 36). -/
def variantOk (i : Structure) (before : List VariantRec) (v : VariantRec) : Bool :=
  let words := ((before ++ [v]).map fun x => x.schedule.length).foldl (· + ·) 0
  decide (5 ≤ v.horizon) && decide (v.horizon ≤ 40) && decide (1 ≤ v.nvar) && decide (v.nvar ≤ 4096) && decide (v.ncon ≤ 8192) &&
    decide (v.nnz ≤ 262144) &&
    (List.range 16).all (fun n => !v.thrusters.getLsbD n || i.slices.any fun x => x.kind == 0 && x.index == n) &&
    !before.any (fun x => x.horizon == v.horizon && x.modes &&& v.modes != 0) && v.vars.all (varOk v) && v.patternOk && v.frameOk &&
    v.scheduleOk && decide (v.lnz * 8 ≤ 6291456) && decide (words ≤ 524288) &&
    decide (v.fullTime + v.startTime + v.iterTimes.2 + i.cyc.waitLimit + 850 * us ≤ i.cyc.deadline)

/-- One map (R80). -/
def mapOk (i : Structure) (before : List VarMap) (m : VarMap) (defined : Bool) : Bool :=
  defined && !before.any (fun x => x.from_ == m.from_ && x.dest == m.dest) &&
    (match i.variants.find? (·.number == m.from_), i.variants.find? (·.number == m.dest) with
     | some f, some t => m.entries.zipIdx.all fun (e, j) =>
         e == 0xFFFF || (match f.vars[e]?, t.vars[j]? with
           | some a, some b => a.kind == b.kind && a.slice == b.slice && a.comp == b.comp
           | _, _ => false)
     | _, _ => false)

/-! ## EVENT_ROUTES, SAFE_STATES, DISPLAY_LAYOUT and SAFETY -/

/-- Does source `n` belong to an option that is not fitted (R6)? -/
def Judge.sourceFitted (j : Judge) (n : Nat) : Bool :=
  if 24 ≤ n ∧ n ≤ 31 then j.optG else if n = 78 ∨ n = 79 ∨ n = 95 then j.optS else if n = 126 ∨ n = 127 then j.optP else true

/-- One word of EVENT_ROUTES (R51, R56, R81). A word for a source of an option that is not fitted is handled under R82 alone, whatever it
holds (DEDUCED, log 36). -/
def routeOk (j : Judge) (n : Nat) (w : Word) : Bool :=
  if reservedSource n then w == 0
  else if !j.sourceFitted n || fixedRoute n then true
  else !w.getLsbD 17 || (w.extractLsb' 22 2 != 0 && !(n == 7 || n == 8 || n == 9))

/-- One SAFE_STATES record (R81, R425). -/
def safeOk (i : Structure) (before : List SafeRec) (r : SafeRec) : Bool :=
  !before.any (·.point == r.point) && (match i.point? r.point with
    | some p =>
      if p.kind = 2 then decide (r.state ≤ 2)
      else p.kind == 4 && (r.state == 2 || (r.state == 3 && F32.within (aoSpan p.mode).1 (aoSpan p.mode).2 r.value))
    | none => false)

/-- One DISPLAY_LAYOUT record (R81, R643, R655). -/
def layoutOk (before : List LayoutRec) (l : LayoutRec) (stripByte : Nat) : Bool :=
  let overlap (m : LayoutRec) : Bool :=
    decide (l.x < m.x + m.w) && decide (m.x < l.x + l.w) && decide (l.y < m.y + m.h) && decide (m.y < l.y + l.h)
  let height := [8, 12, 16, 24].getD l.font 1000
  !before.any overlap && l.x % 8 == 0 && l.w % 8 == 0 && decide (l.x + l.w ≤ 400) && decide (l.y + l.h ≤ 300) &&
    decide (stripByte ≤ 1) && (if l.strip then decide (l.y + l.h ≤ 40) else decide (40 ≤ l.y)) && decide (l.format ≤ 4) &&
    Config.formatSuits l.object.toNat l.format && decide (height ≤ l.h)

/-- Is a record's safety function applied on a member: its CHANNEL is a U_IN point there (R440)? -/
def Structure.safetyApplies (i : Structure) (r : SafRecord) (m : Nat) : Bool :=
  i.points.any fun p => p.kind == 1 && p.channel == r.channel && p.member == m
/-- Does a member carry the enable of a thruster slice (R436)? -/
def Structure.enableOn (i : Structure) (m n : Nat) : Bool :=
  decide (n < 16) && i.slices.any (fun x => x.kind == 0 && x.index == n) &&
    i.points.any fun p => p.kind == 2 && p.channel == n && p.member == m

/-- One SAFETY record (R440). -/
def safetyOk (i : Structure) (before : List SafRecord) (r : SafRecord) : Bool :=
  decide (24 ≤ r.channel) && decide (r.channel ≤ 31) && !before.any (·.channel == r.channel) &&
    i.points.any (fun p => p.kind == 1 && p.channel == r.channel) && decide (r.function ≤ 2) &&
    (r.function != 1 || r.thr == 0xFF) &&
    (r.function != 2 || [0, 1, 2].any fun m => i.safetyApplies r m && i.enableOn m r.thr) && decide (r.tp ≤ 3) &&
    decide (500 ≤ r.filterUs) && decide (r.filterUs ≤ 20000)

/-- Every member with a thruster enable has an SF-ESD record that applies on it (R440). -/
def safetyCovers (i : Structure) : Bool :=
  [0, 1, 2].all fun m => !((List.range 16).any (i.enableOn m)) || i.safety.any fun r => r.function == 1 && i.safetyApplies r m

/-! ## Step 11 -/

/-- Judge every record of a section against those before it; a refusal names the record's offset. -/
def eachRecord {α : Type} (x : Sec) (rs : List α) (ok : List α → α → Nat → Bool) : Except ImgErr Unit :=
  let os := (recordsAt x).1
  rs.zipIdx.forM fun (r, n) => need (ok (rs.take n) r (os.getD n 0)) (x.err 11 (16 + os.getD n 0))

/-- Step 11, in section-type order. The records of a DISPLAY_LAYOUT that stays inactive are not judged (DESIGN CHOICE, log 36: R82 does
not say). -/
def checkRecords (j : Judge) (xs : List Sec) (i : Structure) : Except ImgErr Unit := do
  let sec (t : Nat) : Sec := secOf xs t
  need (cycleOk i) ((sec 1).err 11 16)
  i.points.zipIdx.forM fun (p, n) => need (i.filters.any (·.point == p.id) || aiPointOk i p)
    ((sec 2).err 11 (16 + 4 + 16 * n))
  eachRecord (sec 3) i.slices fun _ x _ => slicePointsOk i x
  need (vesselOk i) ((sec 4).err 11 16)
  eachRecord (sec 5) i.thrusters fun before t _ => thrusterOk i before t
  need (i.slices.all fun x => x.kind != 0 || i.thrusters.any (·.slice == x.index)) ((sec 5).err 11)
  eachRecord (sec 6) i.filters fun before f o => filterOk i before f (fieldAt (sec 6).body (o + 2) 1) &&
    (match i.point? f.point with | some p => aiPointOk i p | none => false)
  eachRecord (sec 7) i.loops fun before l _ => loopOk i before l
  eachRecord (sec 8) i.fusion fun before f _ => fusionOk i before f
  need (i.slices.all fun x => !(x.kind == 1 || x.kind == 2) || i.fusion.any fun f => f.kind == x.kind && f.index == x.index)
    ((sec 8).err 11)
  i.variants.zipIdx.forM fun (v, n) =>
    need (variantOk i (i.variants.take n) v) (((xs.filter (·.type_ == 9)).getD n {}).err 11 16)
  let (maps, _) := mapsOf i.variants (sec 0xA).body 4 (fieldAt (sec 0xA).body 0 2)
  maps.zipIdx.forM fun (m, n) => need (mapOk i ((maps.take n).map (·.2.1)) m.2.1 m.2.2) ((sec 0xA).err 11 (16 + m.1))
  need (i.variants.all fun a => i.variants.all fun b =>
    a.number == b.number || maps.any fun m => m.2.1.from_ == a.number && m.2.1.dest == b.number) ((sec 0xA).err 11)
  need (maps.length == fieldAt (sec 0xA).body 0 2) ((sec 0xA).err 11)
  i.routes.zipIdx.forM fun (w, n) => need (routeOk j n w) ((sec 0xC).err 11 (16 + 4 * n))
  need (decide (5 ≤ i.watchdog) && decide (i.watchdog ≤ 1000)) ((sec 0xD).err 11 16)
  eachRecord (sec 0xD) i.safe fun before r _ => safeOk i before r
  if j.optP then
    eachRecord (sec 0xE) i.layout fun before l o => layoutOk before l (fieldAt (sec 0xE).body (o + 14) 1)
  else .ok ()
  need (decide (i.safety.length ≤ 8)) ((sec 0xF).err 11 16)
  eachRecord (sec 0xF) i.safety fun before r _ => safetyOk i before r
  need (safetyCovers i) ((sec 0xF).err 11)

/-! ## What stays inactive (R82) -/

/-- The inactive items of an accepted image: sections, then points, then event sources. -/
def inactiveItems (j : Judge) (xs : List Sec) (i : Structure) : List Word :=
  let secs := xs.filter fun x => !knownType x.type_ || (x.type_ == 0xE && !j.optP)
  let points := i.points.filter fun p => p.kind == 7 && p.member == 0xFF && decide (1 < i.cyc.groupSize) && !j.optG
  let sources := (List.range 128).filter fun n => !reservedSource n && !j.sourceFitted n && i.routes.getD n 0 != 0
  secs.map (fun x => BitVec.ofNat 32 (x.inst * 65536 + x.type_)) ++
    points.map (fun p => BitVec.ofNat 32 (0x40000000 + p.id)) ++ sources.map fun n => BitVec.ofNat 32 (0x80000000 + n)

/-- IMAGE_INACTIVE as it is listed: 64 entries, the last all ones when more follow. -/
def inactiveListed (all : List Word) : List Word := if 64 < all.length then all.take 63 ++ [0xFFFFFFFF] else all

/-- An image that passed steps 2 to 11. -/
structure Passed where
  image : Structure
  secs : List Sec
  inactive : List Word

/-- Steps 2 to 11 of R85 over the bytes of a slot. -/
def checkImage (j : Judge) (owner imageKey : Option (List Byte)) (b : List Byte) : Except ImgErr Passed := do
  checkHeader b
  checkSignature b owner
  let xs ← sectionsOf b
  checkUnknown (fieldAt b 5 1) xs
  let xs ← decryptSections b imageKey xs
  checkContents b xs
  let i := structureOf b xs
  checkPoints j xs i
  checkRecords j xs i
  .ok { image := i, secs := xs, inactive := inactiveItems j xs i }

end Sys2Proof.Machine
end

