-- ==== Sys2Proof/Machine/Panel.lean ====
section
/-! DEFINITION. PNL: frame memory, requests, waveforms, rails, temperature and the frame-memory check
(spec/19_front_panel_display.md). -/

namespace Sys2Proof.Machine

/-! ## Frame memory: 120 000 pixels at y * 400 + x, an unlisted one at level 0 (R643, R644) -/

/-- The pixels of the panel. -/
def panelPixels : Nat := 120000

/-- A memory in canonical form: addresses strictly rising and inside the panel, no entry equal to what an unlisted address
reads as. -/
def Memory.wfFrom (lo : Nat) : List Host.Cell → Bool
  | [] => true
  | (a, v) :: rest => decide (lo ≤ a) && decide (a < panelPixels) && v != 0 && Memory.wfFrom (a + 1) rest
/-- See `Memory.wfFrom`. -/
def Memory.wf (m : List Host.Cell) : Bool := Memory.wfFrom 0 m

/-- The level of a pixel. -/
def Memory.get : List Host.Cell → Nat → Byte
  | [], _ => 0
  | (b, v) :: rest, a => if a = b then v else Memory.get rest a

/-- Set the level of a pixel; level 0 is unlisted. A pixel outside the panel does not exist. -/
def Memory.put (a : Nat) (v : Byte) : List Host.Cell → List Host.Cell
  | [] => if v = 0 then [] else [(a, v)]
  | (b, w) :: rest =>
    if a < b then (if v = 0 then (b, w) :: rest else (a, v) :: (b, w) :: rest)
    else if a = b then (if v = 0 then rest else (a, v) :: rest)
    else (b, w) :: Memory.put a v rest
/-- See `Memory.put`. -/
def Memory.set (m : List Host.Cell) (a : Nat) (v : Byte) : List Host.Cell := if a < panelPixels then Memory.put a v m else m

/-- The addresses of a rectangle, row by row from the top. -/
def rectAddresses (x y w h : Nat) : List Nat := (List.range (w * h)).map fun i => (y + i / w) * 400 + x + i % w

/-- Write the levels of a rectangle: `level` of a pixel's address and of its place in the rectangle. -/
def Memory.paint (m : List Host.Cell) (r : PnlRequest) (level : Nat → Nat → Byte) : List Host.Cell :=
  ((rectAddresses r.x r.y r.w r.h).zipIdx).foldl (fun m p => Memory.set m p.1 (level p.1 p.2)) m

/-- The level of pixel `i` of a request (R645, R660): 2 bits for GREY; 1 bit for MONO, black where it is 1. -/
def PnlRequest.level (r : PnlRequest) (i : Nat) : Byte :=
  if r.grey then ((r.pixels.getD (i / 4) 0) >>> (6 - 2 * (i % 4))) &&& 3
  else if (r.pixels.getD (i / 8) 0).getLsbD (7 - i % 8) then 3 else 0

/-- The CRC-32 of an image: rows 0 to 299 in order, 2 bits per pixel, the leftmost in the most significant bits (R659). -/
def Memory.crc (m : List Host.Cell) : Word :=
  crc32 ((List.range (panelPixels / 4)).map fun b =>
    (Memory.get m (4 * b) <<< 6) ||| (Memory.get m (4 * b + 1) <<< 4) ||| (Memory.get m (4 * b + 2) <<< 2) ||| Memory.get m (4 * b + 3))

/-! ## Requests (R649, R657) -/

/-- Do two requests share a pixel? -/
def PnlRequest.overlaps (a b : PnlRequest) : Bool :=
  decide (a.x < b.x + b.w) && decide (b.x < a.x + a.w) && decide (a.y < b.y + b.h) && decide (b.y < a.y + a.h)
/-- The identical rectangle. -/
def PnlRequest.sameRect (a b : PnlRequest) : Bool := a.x == b.x && a.y == b.y && a.w == b.w && a.h == b.h
/-- The rules of R645 and R649 for a rectangle and a waveform. -/
def PnlRequest.wellFormed (r : PnlRequest) : Bool :=
  r.x % 8 == 0 && r.w % 8 == 0 && decide (1 ≤ r.w) && decide (1 ≤ r.h) && decide (r.x + r.w ≤ 400) && decide (r.y + r.h ≤ 300) &&
    (decide (r.y + r.h ≤ 40) || decide (40 ≤ r.y)) && (!r.grey || decide (40 ≤ r.y))

/-- The repaint of the main area. -/
def repaintMain : PnlRequest := { x := 0, y := 40, w := 400, h := 260, grey := true, repaint := true }
/-- The repaint of the strip. -/
def repaintStrip : PnlRequest := { x := 0, y := 0, w := 400, h := 40, grey := false, repaint := true }

/-- A full repaint is queued (R657). -/
def PanelState.queueRepaint (p : PanelState) : PanelState :=
  { p with repaintGrey := some repaintMain, repaintMono := some repaintStrip }
/-- REPAINT_PENDING is set, which queues a repaint (R644, R657). -/
def PanelState.setRepaint (p : PanelState) : PanelState := { p.queueRepaint with repaintPending := true }

/-- Updates are deferred (R648, R652). -/
def PanelState.deferred (p : PanelState) : Bool := p.deferredCold || p.deferredHot || p.railFault || p.railLocked || p.powerStopped

/-- Replace the newest queued request of the identical rectangle that no later one overlaps (R649). -/
def replaceIn (r : PnlRequest) : List PnlRequest → Option (List PnlRequest)
  | [] => none
  | q :: rest =>
    match replaceIn r rest with
    | some rest' => some (q :: rest')
    | none =>
      if q.sameRect r && !(rest.any fun x => x.overlaps q) then some ({ q with grey := r.grey, pixels := r.pixels } :: rest) else none

/-- A request enters the queue (R649); none where it is full. -/
def PanelState.enqueue (p : PanelState) (r : PnlRequest) : Option PanelState :=
  match replaceIn r p.queue with
  | some q => some { p with queue := q, counters := upd p.counters 1 sat32 }
  | none => if 16 ≤ p.queue.length then none else some { p with queue := p.queue ++ [r] }

/-- A BUSY refusal is counted (R660). -/
def State.panelBusy (s : State) : State := { s with panel.counters := upd s.panel.counters 2 sat32 }

/-- Every request that waits, in the order in which they are taken: the repaints first (R657). -/
def PanelState.waiting (p : PanelState) : List PnlRequest := p.repaintGrey.toList ++ p.repaintMono.toList ++ p.queue

/-- May `r` start, with `ahead` ahead of it, but for the rails (R650)? -/
def PanelState.ready (p : PanelState) (ahead : List PnlRequest) (r : PnlRequest) : Bool :=
  decide (p.flight.length < 4) && !(p.flight.any fun w => w.req.overlaps r) && !(ahead.any fun q => q.overlaps r) && !p.deferred &&
    (p.checkPending.isEmpty || !p.flight.isEmpty)

/-- Is a request ready to start but for the rails? -/
def PanelState.anyReady (p : PanelState) : Bool :=
  (List.range p.waiting.length).any fun i => match p.waiting[i]? with
    | some r => p.ready (p.waiting.take i) r
    | none => false

/-! ## Temperature bands (R652, R653) -/

/-- BAND of a temperature in 0.01 degrees; 0xF outside 0 to 50 (R661). -/
def bandOf (centi : Int) : Nat := if centi < 0 ∨ 5000 ≤ centi then 0xF else (centi / 625).toNat
/-- The duration of a waveform in ms (R653). -/
def waveformMs (grey : Bool) (band : Nat) : Nat :=
  if grey then [1990, 1500, 1100, 800, 650, 550, 480, 420].getD band 1990
  else [600, 450, 330, 240, 200, 170, 150, 130].getD band 600

/-! ## The rows of PNL -/

/-- An effect of PNL: only with option P (R5). -/
def runPanel (t : Nat) (s : State) (f : State → State) : Out := runPowered t s fun s => if s.factory.optP then f s else s

/-- Start request `r`, taken out of what waits. -/
def PanelState.start (p : PanelState) (now : Nat) (r : PnlRequest) : PanelState :=
  let band := bandOf p.temp
  { p with flight := p.flight ++ [{ req := r, band := band, startedAt := now, endsAt := now + waveformMs r.grey band * ms }],
           idleSince := none }

/-- WAVEFORM_START (R650): request `index` of the queue; 16 names the repaint of the main area, 17 that of the strip. -/
def execWaveformStart (t : Nat) (index : Fin 18) (s : State) : Out :=
  runPanel t s fun s =>
    let p := s.panel
    if !p.railsOn then s
    else
      match index.val with
      | 16 => match p.repaintGrey with
        | some r => if p.ready [] r then { s with panel := { p.start s.now r with repaintGrey := none } } else s
        | none => s
      | 17 => match p.repaintMono with
        | some r => if p.ready [] r then { s with panel := { p.start s.now r with repaintMono := none } } else s
        | none => s
      | i => match p.queue[i]? with
        | some r =>
          if p.ready (p.repaintGrey.toList ++ p.repaintMono.toList ++ p.queue.take i) r then
            { s with panel := { p.start s.now r with queue := p.queue.eraseIdx i } }
          else s
        | none => s

/-- The check of R659 against a value, or against SUP's. -/
def State.panelCheck (s : State) (against : Option Word) : State :=
  let p := s.panel
  let crc := Memory.crc p.frame
  let value := against.getD (Memory.crc p.image)
  let s := { s with panel.crcLast := crc, panel.crcCompared := value, panel.crcAt := s.tb3 }
  if crc == value then { s with panel.crcFail := false }
  else
    let s := { s with panel := { s.panel.setRepaint with crcFail := true, counters := upd s.panel.counters 4 sat32 } }
    s.raise 126 crc value

/-- The checks that waited for the last waveform to end run (R659). -/
def State.panelChecks (s : State) : State :=
  if s.panel.flight.isEmpty then
    let waiting := s.panel.checkPending
    waiting.foldl State.panelCheck { s with panel.checkPending := [] }
  else s

/-- A check is asked for: it runs at the first instant at which no waveform is in flight. -/
def State.askCheck (s : State) (against : Option Word) : State :=
  { s with panel.checkPending := s.panel.checkPending ++ [against] }.panelChecks

/-- WAVEFORM_END (R644): the content enters frame memory; a repaint drives from a full clear to the image that SUP holds. -/
def execWaveformEnd (t : Nat) (index : Fin 4) (s : State) : Out :=
  runPanel t s fun s =>
    match s.panel.flight[index.val]? with
    | none => s
    | some w =>
      if s.now < w.endsAt then s
      else
        let p := s.panel
        let r := w.req
        let held := p.image
        let level (a i : Nat) : Byte := if r.repaint then Memory.get held a else r.level i
        let flight := p.flight.eraseIdx index
        let repainting := p.repaintGrey.isSome || p.repaintMono.isSome || flight.any (·.req.repaint)
        let s := { s with panel := { p with frame := Memory.paint p.frame r level,
                                            image := if r.repaint then p.image else Memory.paint p.image r level,
                                            flight := flight, counters := upd p.counters 0 sat32,
                                            idleSince := if flight.isEmpty then some s.now else none,
                                            railsOn := p.railsOn && !(flight.isEmpty && p.deferred),
                                            repaintPending := p.repaintPending && (!r.repaint || repainting) } }
        s.panelChecks

/-- RAILS_ON (R646, R647): a request is ready to start and the rails are off; PNL_VCOM takes effect. -/
def execRailsOn (t : Nat) (s : State) : Out :=
  runPanel t s fun s =>
    let p := s.panel
    if !p.railsOn && p.anyReady then
      { s with panel := { p with railsOn := true, vcom := p.vcomNext.getD p.vcom, vcomNext := none, idleSince := some s.now } }
    else s

/-- RAILS_OFF (R647). -/
def execRailsOff (t : Nat) (s : State) : Out :=
  runPanel t s fun s =>
    let p := s.panel
    let idle := match p.idleSince with | some a => decide (a + 100 * ms ≤ s.now) | none => false
    if p.railsOn && p.flight.isEmpty && !p.anyReady && idle then { s with panel := { p with railsOn := false, idleSince := none } } else s

/-- PANEL_DEFERRED (R648, R652). -/
def State.panelDeferred (s : State) (entry : Bool) (cause : Nat) : State :=
  s.raise 127 (BitVec.ofNat 32 (flagBit entry 8 + cause)) (BitVec.ofInt 32 s.panel.temp)

/-- Every waveform stops and the rails go off: what was in flight needs a repaint (R644). -/
def PanelState.stopWaveforms (p : PanelState) : PanelState := { p with flight := [], railsOn := false, idleSince := none }

/-- RAIL_FAULT (R648). -/
def execRailFault (t : Nat) (s : State) : Out :=
  runPanel t s fun s =>
    let p := s.panel
    if !p.railsOn then s
    else
      let again := match p.railFaultAt with | some a => decide (s.now < a + 60 * second) | none => false
      let s := { s with panel := { p.stopWaveforms.setRepaint with railFault := true, railFaultAt := some s.now,
                                                                    railLocked := p.railLocked || again,
                                                                    counters := upd p.counters 3 sat32 } }
      s.panelDeferred true 3

/-- RAIL_RETRY (R648): a second after the fault, with the repaint that waits. -/
def execRailRetry (t : Nat) (s : State) : Out :=
  runPanel t s fun s =>
    let p := s.panel
    let due := match p.railFaultAt with | some a => decide (a + second ≤ s.now) | none => false
    if p.railFault && !p.railLocked && due then { s with panel.railFault := false }.panelDeferred false 3 else s

/-- PANEL_TEMPERATURE (R652): read every 1 s. While updates are deferred the rails are off once no waveform runs (R647, R651). -/
def execPanelTemperature (t : Nat) (centi : Int) (s : State) : Out :=
  runPanel t s fun s =>
    if s.panel.tempRead && decide (s.now < s.panel.tempAt + second) then s
    else
      let wasCold := s.panel.deferredCold
      let wasHot := s.panel.deferredHot
      let cold := if wasCold then decide (centi < 100) else decide (centi < 0)
      let hot := if wasHot then decide (4900 ≤ centi) else decide (5000 ≤ centi)
      let s := { s with panel.temp := centi, panel.tempRead := true, panel.tempAt := s.now, panel.deferredCold := cold,
                        panel.deferredHot := hot }
      let s := if s.panel.deferred && s.panel.flight.isEmpty then { s with panel.railsOn := false } else s
      let s := if cold != wasCold then s.panelDeferred cold 1 else s
      if hot != wasHot then s.panelDeferred hot 2 else s

/-- PANEL_CRC_CHECK (R659): the check of each 60 s of TB0. -/
def execPanelCrcCheck (t : Nat) (s : State) : Out :=
  runPanel t s fun s =>
    let n := s.now / (60 * second)
    if n ≤ s.panel.crcPeriod then s else { s with panel.crcPeriod := n }.askCheck none

/-- The panel at the declaration of a power failure (R658). -/
def PanelState.powerFail (p : PanelState) : PanelState :=
  let q := { p.stopWaveforms with powerStopped := true }
  if p.flight.isEmpty then q else q.setRepaint
/-- The panel when the supply returns before the reserve is reached: PNL starts waveforms again (R600). -/
def PanelState.powerReturn (p : PanelState) : PanelState := { p with powerStopped := false }
/-- The panel at a cold start (R657): a repaint is the first update. -/
def PanelState.coldStart (vcom : Int) : PanelState := ({ vcom := vcom } : PanelState).setRepaint

/-! ## Host commands and objects (R656-R661) -/

/-- The request a PNL_DRAW value spells (R660). -/
def drawRequest (v : List Byte) : Option PnlRequest :=
  let r : PnlRequest := { x := fieldAt v 0 2, y := fieldAt v 2 2, w := fieldAt v 4 2, h := fieldAt v 6 2,
                          grey := fieldAt v 8 1 == 0, pixels := v.drop 12 }
  let bits := if r.grey then 2 else 1
  if v.length < 12 ∨ 1416 < v.length ∨ 1 < fieldAt v 8 1 ∨ !zeroAt v 9 3 ∨ r.pixels.length ≠ r.w * r.h * bits / 8 then none
  else if r.wellFormed then some r else none

/-- The layout fields of the loaded structure. -/
def State.layout (s : State) : List LayoutRec := match s.image.loaded with | some i => i.layout | none => []
/-- The rectangle of a layout field. -/
def layoutRect (l : LayoutRec) : PnlRequest := { x := l.x, y := l.y, w := l.w, h := l.h, grey := !l.strip }

/-- A write of PNL_DRAW (R656). -/
def State.pnlDraw (v : List Byte) (s : State) : Done :=
  match drawRequest v with
  | none => refuse .badValue s
  | some r =>
    if s.layout.any fun l => (layoutRect l).overlaps r then refuse .badValue s
    else match s.panel.enqueue r with
      | some p => done { s with panel := p }
      | none => { refuse .busy s with count := State.panelBusy }

/-- A write of PNL_REFRESH (R657). -/
def State.pnlRefresh (v : List Byte) (s : State) : Done :=
  checkValue (v == [1]) s fun _ => done { s with panel := s.panel.setRepaint }

/-- A write of PNL_CHECK (R659). -/
def State.pnlCheck (v : List Byte) (s : State) : Done :=
  checkValue (v.length == 4) s fun _ => done (s.askCheck (some (BitVec.ofNat 32 (beVal v))))

/-- A write of PNL_VCOM (R660). -/
def State.pnlVcom (c : WriteCtx) (v : List Byte) (s : State) : Done :=
  let x := intAt v 0 2
  checkValue (v.length == 2 && decide (-3000 ≤ x) && decide (x ≤ 0) && decide (x % 10 = 0)) s fun _ =>
    c.onlyIn s [.idle, .config, .test] fun _ => done { s with panel.vcomNext := some x }

/-- A write of an object of island 0x0F. -/
def State.pnlWrite (c : WriteCtx) (inst num : Nat) (v : List Byte) (s : State) : Done :=
  if !s.factory.optP ∨ inst ≠ 0 then refuse .badObject s
  else match num with
    | 1 => s.pnlDraw v
    | 2 => s.pnlVcom c v
    | 3 => s.pnlCheck v
    | 6 => s.pnlRefresh v
    | 0 | 4 | 5 | 7 => refuse .badValue s
    | _ => refuse .badObject s

/-- PNL_STATUS (R661). -/
def PanelState.status (p : PanelState) : Nat :=
  (if p.tempRead then bandOf p.temp else 0xF) * 2 ^ 28 + p.flight.length * 2 ^ 25 + p.queue.length * 2 ^ 20 + flagBit p.railsOn 7 +
    flagBit p.deferredCold 6 + flagBit p.deferredHot 5 + flagBit p.railFault 4 + flagBit p.crcFail 3 + flagBit p.repaintPending 2

/-- A read of an object of island 0x0F. -/
def State.pnlRead (inst num : Nat) (s : State) : ReadResult :=
  let p := s.panel
  if !s.factory.optP ∨ inst ≠ 0 then noRead .badObject s
  else match num with
    | 0 => readAs (nat32 p.status) s
    | 1 | 3 | 6 => noRead .badValue s
    | 2 => readAs (int16 (p.vcomNext.getD p.vcom)) s
    | 4 => readAs (be32 p.crcLast ++ be32 p.crcCompared ++ nat64 p.crcAt) s
    | 5 => readAs (be32 (f32OfRat p.temp 100)) s
    | 7 => readAs (p.counters.toList.flatMap nat32) { s with panel.counters := .replicate 5 0 }
    | _ => noRead .badObject s

/-- A write of a panel object by a host. -/
def State.pnlHostWrite (s : State) (req : Request) (num : Nat) (v : List Byte) : State :=
  s.hostWrite req (objId 0x0F 0 num) v fun c s => s.pnlWrite c 0 num v

/-- PNL_DRAW (R656). -/
def execPnlDraw (t : Nat) (req : Request) (value : List (BitVec 8)) (s : State) : Out :=
  runHost t s fun s => s.pnlHostWrite req 1 value
/-- PNL_VCOM (R660). -/
def execPnlVcom (t : Nat) (req : Request) (value : BitVec 16) (s : State) : Out :=
  runHost t s fun s => s.pnlHostWrite req 2 (be16 value)
/-- PNL_CHECK (R659). -/
def execPnlCheck (t : Nat) (req : Request) (value : Word) (s : State) : Out :=
  runHost t s fun s => s.pnlHostWrite req 3 (be32 value)
/-- PNL_REFRESH (R657). -/
def execPnlRefresh (t : Nat) (req : Request) (s : State) : Out :=
  runHost t s fun s => s.pnlHostWrite req 6 [1]

end Sys2Proof.Machine
end

