-- ==== Sys2Proof/Machine/Recorder.lean ====
section
/-! DEFINITION. REC and the Caldera: flushes, seals, the chain, keys, enrolment and attestation
(spec/17_incident_recorder_and_trust.md). -/

namespace Sys2Proof.Machine

/-! ## Flushes (R595-R598) -/

/-- The open block is sealed (R602). -/
def State.sealOpen (s : State) (geyser : Bool) : State :=
  { s with recorder := s.recorder.seal s.tb3 s.factory.deviceKey geyser }

/-- The records of RAM that have not been copied, oldest first. -/
def RecorderState.uncopied (r : RecorderState) : List Record := (r.ram.filter fun x => !x.2).map (·.1)

/-- Copy every uncopied record of RAM, oldest first (R596). Answers the number copied: a full store takes none (R604). -/
def State.copyRam (s : State) (geyser : Bool) : Nat × State :=
  let r := { s.recorder with ram := s.recorder.ram.map fun x => (x.1, true) }
  let after := s.recorder.uncopied.foldl (fun r x => r.copy s.tb3 s.factory.deviceKey geyser x) r
  (after.stored.length - r.stored.length, { s with recorder := after })

/-- A window that lasts until the holdup runs out (R596, trigger 2). -/
def endless : Nat := 2 ^ 64

/-- FLUSH_DONE (R596): the oldest flush in progress ends, 0.32 us for each record after it began; its block is sealed, and an F1 flush
opens or restarts the window. -/
def execFlushDone (t : Nat) (s : State) : Out :=
  runPowered t s fun s =>
    match s.recorder.flushing with
    | [] => s
    | trigger :: rest =>
      if s.now < s.recorder.flushAt + 320 * s.recorder.uncopied.length then s
      else
        let (n, s) := s.copyRam false
        let s := s.sealOpen false
        let tail := s.recorder.flushTail * second
        let s := { s with recorder.flushing := rest, recorder.flushAt := s.now, recorder.counters := upd s.recorder.counters 0 sat32,
                          recorder.window := if trigger == 1 && tail != 0 then some (s.now + tail) else s.recorder.window }
        s.raiseN 112 trigger.toNat (some n)

/-- FLUSH_WINDOW_END (R597). -/
def execFlushWindowEnd (t : Nat) (s : State) : Out :=
  runPowered t s fun s =>
    match s.recorder.window with
    | some e =>
      if e ≤ s.now then
        let s := { s with recorder.window := none }.sealOpen false
        { s with hsk.geyserDepth := s.hsk.depthNext.getD s.hsk.geyserDepth, hsk.depthNext := none }
      else s
    | none => s

/-- A write of REC_CONTROL (R598). -/
def State.recControl (v : List Byte) (s : State) : Done :=
  checkValue (v == [0] || v == [1]) s fun _ =>
    if v == [0] then done s
    else if (match s.recorder.lastFlushWrite with | some a => decide (s.now < a + 10 * second) | none => false) then refuse .busy s
    else if !s.recorder.flushing.isEmpty || s.recorder.window.isSome then done s
    else done ({ s with recorder.lastFlushWrite := some s.now }.startFlush 3)

/-- REC_CONTROL_FLUSH (R598). -/
def execRecControlFlush (t : Nat) (req : Request) (s : State) : Out :=
  runHost t s fun s => s.hostWrite req (objId 0x0C 0 2) [1] fun _ s => s.recControl [1]

/-! ## Signing (R601-R603, R612) -/

/-- How many draws of the per-signature value a signature tries at most: the standard draws again where one is not in 1..n-1. -/
def signDraws : Nat := 8

/-- Sign a seal with the device key (R603). -/
def State.signSeal (s : State) (i : Nat) : State :=
  match s.recorder.seals[i]? with
  | none => s
  | some b =>
    let (k, s) := s.draw
    let late := decide (i < s.recorder.sealsAtStart)
    let sign (b : Seal) : Seal :=
      { b with sig := ecdsaSign s.factory.deviceSecret (sha384 b.head) (Config.signNonce k) signDraws, signState := if late then 2 else 1 }
    let s := { s with recorder.seals := updL s.recorder.seals i sign,
                      recorder.counters := if late then upd s.recorder.counters 3 sat32 else s.recorder.counters }
    s.raiseN 115 b.blockSeq

/-- Seals that wait for a signature. -/
def State.unsigned (s : State) : Nat := (s.recorder.seals.filter fun b => b.signState == 0).length

/-- SEAL_SIGNED (R603): the first unsigned seal in block order. -/
def execSealSigned (t : Nat) (s : State) : Out :=
  runPowered t s fun s =>
    if s.trust.entropyFail || s.recorder.geyserRunning || s.recorder.stopped then s
    else match s.recorder.seals.findIdx? fun b => b.signState == 0 with
      | some i => s.signSeal i
      | none => s

/-- ENTROPY_FAIL (R612). -/
def execEntropyFail (t : Nat) (s : State) : Out :=
  runPowered t s fun s => { s with trust.entropyFail := true }

/-- ENTROPY_PASS (R612). -/
def execEntropyPass (t : Nat) (s : State) : Out :=
  runPowered t s fun s => { s with trust.entropyFail := false }

/-! ## Full store and re-arm (R604, R605) -/

/-- REC_FULL (R604): raised once when the last block has been sealed. -/
def execRecFull (t : Nat) (s : State) : Out :=
  runPowered t s fun s =>
    if s.recorder.full && !s.recorder.fullRaised then { s with recorder.fullRaised := true }.raise 113 else s

/-- A write of REC_REARM (R605). -/
def State.recRearm (v : List Byte) (s : State) : Done :=
  let r := s.recorder
  match r.seals.getLast? with
  | none => refuse .badValue s
  | some newest =>
    checkValue (v == newest.hash) s fun _ =>
      if !r.flushing.isEmpty || r.window.isSome || s.unsigned != 0 then refuse .busy s
      else
        let held := r.stored.length
        let s := { s with recorder := { r with store := [], seals := [], openBlock := [], full := false, fullRaised := false, lost := 0,
                                               rearmFirst := true, rearms := r.rearms + 1, sealsAtStart := 0 },
                          qcp.sources := [] }
        let s := s.record 0x0004 0x0C (BitVec.ofNat 32 r.lost) (BitVec.ofNat 32 newest.blockSeq) (BitVec.ofNat 32 held) 0 s.tb3 true
        done ((s.raise 114).startFlush 4)

/-- REC_REARM (R605). -/
def execRecRearm (t : Nat) (req : Request) (hash : List (BitVec 8)) (s : State) : Out :=
  runHost t s fun s => s.hostWrite req (objId 0x0C 0 3) hash fun _ s => s.recRearm hash

/-! ## The geyser (R599, R600) -/

/-- Does a connected input stand at 18 V or more? The ORed supply then does too, and has not failed (R599, R669). -/
def State.supplied (s : State) : Bool := (s.power.aOk && !s.power.aCut) || (s.power.bOk && !s.power.bCut)

/-- POWER_FAIL (R599): declared at the ORed supply; its record is the last that the geyser copies. The bank feeds the module
from here on. -/
def execPowerFail (t : Nat) (s : State) : Out :=
  runPowered t s fun s =>
    if s.power.onHoldup || s.supplied then s
    else
      let s := { s with power.onHoldup := true, recorder.geyserRunning := true,
                        recorder.geyserFrom := s.recorder.stored.length, recorder.flushing := [],
                        recorder.window := some endless, recorder.headerGeyser := 1, panel := s.panel.powerFail }
      let copyThen (s : State) : State := (s.copyRam true).2
      copyThen ({ s with recorder.window := none }.raise 123) |> fun s => { s with recorder.window := some endless }

/-- GEYSER_DONE (R599): the open block is sealed and that seal signed, the header written; REC then writes no more until
the next start, or until the supply has returned (R600). -/
def execGeyserDone (t : Nat) (s : State) : Out :=
  runPowered t s fun s =>
    if !s.recorder.geyserRunning then s
    else
      let n := s.recorder.seals.length
      let copied := s.recorder.stored.length - s.recorder.geyserFrom
      let s := s.sealOpen true
      let s := { s with recorder.geyserRunning := false, recorder.stopped := s.power.onHoldup,
                        recorder.window := if s.power.onHoldup then some endless else none,
                        recorder.counters := upd s.recorder.counters 0 sat32 }
      let s := if n < s.recorder.seals.length && !s.trust.entropyFail then s.signSeal n else s
      let s := { s with recorder.headerSeq := s.recorder.nextSeq, recorder.headerGeyser := 2 }
      s.raiseN 112 2 (some copied)

/-- REC at the return of the supply (R600): it resumes normal flushing at the next trigger. -/
def State.recResume (s : State) : State :=
  if s.recorder.geyserRunning then s else { s with recorder.stopped := false, recorder.window := none, recorder.headerGeyser := 0 }

/-! ## Reading (R573, R606) -/

/-- HEAD and TAIL (R606). -/
def RecorderState.headTail (r : RecorderState) : Word × Word :=
  let next := BitVec.ofNat 32 r.nextSeq
  match r.stored.head?, r.stored.getLast? with
  | some a, some b => (a.seq, b.seq + 1)
  | _, _ => (next, next)

/-- REC_READ (R573, R606). -/
def execRecRead (t : Nat) (req : Request) (first : Word) (count : BitVec 8) (s : State) : Out :=
  runHost t s fun s =>
    s.serve req 0x31 (be32 first ++ be8 count ++ zeros 3) none fun s =>
      let limit := if req.dtls.isSome then 43 else 44
      checkValue (decide (1 ≤ count.toNat) && decide (count.toNat ≤ limit)) s fun _ =>
        let (head, tail) := s.recorder.headTail
        let from_ (x : Record) : Bool := decide ((first - head).toNat ≤ (x.seq - head).toNat)
        let xs := (s.recorder.stored.dropWhile fun x => !from_ x).take count.toNat
        { state := s, body := be32 head ++ be32 tail ++ nat32 s.recorder.lost ++ nat16 xs.length ++ zeros 2 ++ xs.flatMap Record.bytes }

/-! ## Enrolment (R608, R609) -/

/-- ENROL (R608, R609). -/
def State.enrol (body : List Byte) (s : State) : Done :=
  let op := fieldAt body 0 1
  let key := sliceAt body 4 97
  let sig := sliceAt body 156 96
  if s.modes.mode != .config then refuse .wrongMode s
  else if s.trust.entropyFail then refuse .busy s
  else if body.length ≠ 252 ∨ op = 0 ∨ 3 < op then refuse .badValue s
  else if (op == 1) == s.trust.ownerKey.isSome then refuse .wrongMode s
  else if (curvePointOf key).isNone || fieldAt body 104 4 != s.trust.enrolCount.toNat || !zeroAt body 1 3 || !zeroAt body 101 3 ||
      (op != 3 && !zeroAt body 108 48) || (op == 1 && !zeroAt body 156 96) then refuse .badValue s
  else
    let signed := match s.trust.ownerKey with
      | some owner => ecdsaVerify owner (sha384 (body.take 156 ++ be64 s.factory.serial)) sig
      | none => true
    if !signed then refuse .notSigned s
    else
      let image := unwrapImageKey s.factory.deviceSecret key (be64 s.factory.serial) (sliceAt body 108 32) (sliceAt body 140 16) (body.take 108)
      if op = 3 ∧ image = none then refuse .notSigned s
      else
        let count := s.trust.enrolCount + 1
        let s := if op = 3 then { s with trust.imageKey := image } else { s with trust.ownerKey := some key }
        let id := sha384 ((s.trust.ownerKey).getD [])
        let note := if op = 3 then Config.imageKeyCheck (s.trust.imageKey.getD []) else BitVec.ofNat 64 (fieldAt id 0 8)
        let s := { s with trust.enrolCount := count }
        let s := s.record 0x0007 0x0D (BitVec.ofNat 32 op) count (note.extractLsb' 32 32) (note.extractLsb' 0 32) s.tb3
        { state := s.raise 117, body := id ++ be32 count }

/-- ENROL (R608, R609). -/
def execEnrol (t : Nat) (req : Request) (body : List (BitVec 8)) (s : State) : Out :=
  runHost t s fun s => s.serve req 0x33 body (some (0, [])) fun s => s.enrol body

/-! ## Attestation (R565, R574, R611) -/

/-- ATTEST (R574): deferred. -/
def execAttest (t : Nat) (req : Request) (nonce : List (BitVec 8)) (s : State) : Out :=
  runHost t s fun s =>
    s.serve req 0x32 nonce none fun s =>
      checkValue (nonce.length == 32 && nonce.any (· != 0)) s fun _ =>
        if s.qcp.deferredAttest.isSome then refuse .busy s
        else { state := { s with qcp.deferredAttest := some { req := req, opcode := 0x32, body := nonce },
                                 qcp.deferredAt := (s.qcp.deferredAt.1, s.now), qcp.deferredTb3 := (s.qcp.deferredTb3.1, s.tb3) },
               deferred := true }

/-- The ATTEST response but for its signature (R611). -/
def State.attestation (s : State) (nonce : List Byte) : List Byte :=
  let newest := s.recorder.seals.getLast?
  nonce ++ be64 s.factory.serial ++ be32 s.optionsWord ++ be32 s.trust.bootCount ++ nat64 s.tb3 ++ nat64 s.now ++ s.factory.romMeas ++
    s.factory.factoryMeas ++ s.trust.extMeas ++ (if s.hasStructure then s.image.digest else zeros 48) ++
    (match s.trust.ownerKey with | some k => sha384 k | none => zeros 48) ++
    nat32 ((newest.map (·.blockSeq)).getD 0) ++ nat32 s.recorder.lost ++ (newest.map (·.hash)).getD (zeros 48)

/-- ATTEST_DONE (R611). -/
def execAttestDone (t : Nat) (s : State) : Out :=
  runRunning t s fun s =>
    match s.qcp.deferredAttest with
    | none => s
    | some c =>
      if s.trust.entropyFail || decide (s.qcp.deferredAt.2 + 100 * ms < s.now) then s
      else
        let w (i : Nat) : Word := BitVec.ofNat 32 (fieldAt c.body (4 * i) 4)
        let body := s.attestation c.body
        let (k, s) := s.draw
        let sig := ecdsaSign s.factory.deviceSecret (sha384 body) (Config.signNonce k) signDraws
        let accepted := s.qcp.deferredTb3.2
        let s := { s with qcp.deferredAttest := none }
        let s := (s.record 0x0008 0x0D (w 0) (w 1) (w 2) (w 3) s.tb3).raise 116
        s.complete c.req 0x32 0 accepted .ok (body ++ sig)

/-- DEFERRED_TIMEOUT (R61, R565): the work has not ended within its bound and is stopped. -/
def execDeferredTimeout (t : Nat) (attest : Bool) (s : State) : Out :=
  runRunning t s fun s =>
    if attest then
      match s.qcp.deferredAttest with
      | some c =>
        if s.qcp.deferredAt.2 + 100 * ms ≤ s.now then
          { s with qcp.deferredAttest := none }.complete c.req 0x32 0 s.qcp.deferredTb3.2 .timeout []
        else s
      | none => s
    else
      match s.qcp.deferredCommit, s.image.verifying with
      | some c, some j =>
        let slot := if j.slot == 0 then s.image.pending else s.image.previous
        let bound := 500 * ms + 100 * ms * slot.bytes.length / 1048576
        if j.startedAt + bound ≤ s.now then
          { s with qcp.deferredCommit := none, image.verifying := none }.complete c.req 0x30 (j.slot.setWidth 32) s.qcp.deferredTb3.1
            .timeout []
        else s
      | _, _ => s

/-! ## Objects (R613-R615) -/

/-- A write of an object of island 0x0C. -/
def State.recWrite (inst num : Nat) (v : List Byte) (s : State) : Done :=
  if inst = 0 then
    match num with
    | 0 | 1 | 5 => refuse .badValue s
    | 2 => s.recControl v
    | 3 => checkValue (v.length == 48) s fun _ => s.recRearm v
    | 4 => checkValue (v.length == 2 && decide (beVal v ≤ 600)) s fun _ => done { s with recorder.flushTail := beVal v }
    | _ => refuse .badObject s
  else if inst = 1 ∧ num < s.recorder.seals.length then refuse .badValue s
  else refuse .badObject s

/-- A read of an object of island 0x0C. -/
def State.recReadObject (inst num : Nat) (s : State) : ReadResult :=
  let r := s.recorder
  if inst = 0 then
    match num with
    | 0 => readAs (nat32 (flagBit r.full 28 + flagBit r.window.isSome 27 + flagBit (!r.flushing.isEmpty || r.geyserRunning) 26 +
        flagBit r.geyserLast 25 + flagBit r.geyserIncomplete 24 + s.unsigned)) s
    | 1 =>
      let (head, tail) := r.headTail
      readAs (be32 head ++ be32 tail ++ nat32 r.lost ++ nat32 r.stored.length ++ nat32 r.seals.length ++ nat32 r.rearms) s
    | 2 | 3 => noRead .badValue s
    | 4 => readAs (nat16 r.flushTail) s
    | 5 => readAs (r.counters.toList.flatMap nat32) { s with recorder.counters := .replicate 4 0 }
    | _ => noRead .badObject s
  else match (if inst = 1 then r.seals[num]? else none) with
    | some b => readAs b.bytes s
    | none => noRead .badObject s

/-- A write of an object of island 0x0D: all are RO. -/
def State.cldWrite (inst num : Nat) (s : State) : Done :=
  if inst = 0 ∧ num ≤ 2 then refuse .badValue s else refuse .badObject s

/-- A read of an object of island 0x0D. -/
def State.cldRead (inst num : Nat) (s : State) : ReadResult :=
  match inst, num with
  | 0, 0 => readAs s.factory.deviceKey s
  | 0, 1 => readAs ((match s.trust.ownerKey with | some k => sha384 k | none => zeros 48) ++ be32 s.trust.enrolCount) s
  | 0, 2 => readAs (nat32 (flagBit s.trust.entropyFail 7 + flagBit s.trust.imageKey.isSome 6 + flagBit s.trust.ownerKey.isSome 5 +
      flagBit s.factory.valid 4)) s
  | _, _ => noRead .badObject s

end Sys2Proof.Machine
end

