-- ==== Sys2Proof/Machine/Ageing.lean ====
section
/-! DEFINITION. HSK: the ageing monitors and their ledger, clock bins, the holdup plan and the refresh of the recorder
store (spec/18_ageing_and_field_update.md, R616-R629, R640, R641). -/

namespace Sys2Proof.Machine

/-! ## The monitors (R616, R619) -/

/-- A limit: the value lies beyond it below, above, or on either side. -/
inductive LimitSide where
  | below | above | either
  deriving DecidableEq, Repr

/-- The limit of a monitor (R616). -/
def monitorLimit (n : Nat) : LimitSide × F64 :=
  if n ≤ 0x0B then (.below, f64OfRat 5 1)
  else match n with
    | 0x0C => (.above, f64OfRat 40 1)
    | 0x0D => (.above, f64OfRat 150 1)
    | 0x0E => (.below, f64OfRat 12 10)
    | 0x0F => (.below, f64OfRat 20 1)
    | 0x10 => (.either, f64OfRat 2000 1)
    | 0x11 => (.above, f64OfRat 1 10)
    | 0x12 | 0x13 | 0x14 => (.above, f64OfRat 3 10)
    | 0x15 | 0x16 => (.either, f64OfRat 300 1)
    | _ => (.above, f64OfRat 40 1)

/-- Does a value lie beyond a monitor's limit? -/
def beyondLimit (n : Nat) (v : F64) : Bool :=
  match monitorLimit n with
  | (.below, l) => F64.lt v l
  | (.above, l) => F64.lt l v
  | (.either, l) => F64.lt l (F64.abs v)

/-- A year of A_eq, or of powered time, in seconds: 365.25 days (log 20). -/
def yearSeconds : F64 := f64OfRat 31557600 1
/-- Seconds as years. -/
def inYears (x : F64) : F64 := F64.div x yearSeconds

/-- The least-squares line through points: intercept and slope. -/
def linearFit (ps : List (F64 × F64)) : F64 × F64 :=
  let n := F64.ofNat ps.length
  let sum (f : F64 × F64 → F64) : F64 := ps.foldl (fun a p => F64.add a (f p)) 0
  let mx := F64.div (sum (·.1)) n
  let my := F64.div (sum (·.2)) n
  let sxy := sum fun p => F64.mul (F64.sub p.1 mx) (F64.sub p.2 my)
  let sxx := sum fun p => F64.mul (F64.sub p.1 mx) (F64.sub p.1 mx)
  let b := F64.div sxy sxx
  (F64.sub my (F64.mul b mx), b)

/-- The mean of FP32 values. -/
def mean32 (xs : List F32) : F32 :=
  F64.to32 (F64.div (xs.foldl (fun a x => F64.add a (F64.of32 x)) 0) (F64.ofNat xs.length))

/-- An equivalent age is advanced by 60 s at a baseplate temperature in degrees Celsius (R617). -/
def ageStep (baseplate : F32) : F64 :=
  let tb := F64.add (F64.of32 baseplate) (f64OfRat 27315 100)
  let x := F64.mul (f64OfRat 8123 1) (F64.sub (f64OfRat 100 32815) (F64.div F64.one tb))
  F64.mul (f64OfRat 60 1) (F64.exp x)

/-- One sample of a monitor. -/
def Monitor.sample (m : Monitor) (now : Nat) (v : F32) : Monitor :=
  { m with today := m.today ++ [v], present := v, lastAt := now / second }

/-- The mean of the day enters the ledger: the daily points of 1 024 powered days, and the monthly means, a month being 30
daily points (log 20). A day without a sample enters no point (R616, R618). -/
def Monitor.endDay (m : Monitor) (n : Nat) (aEq powered : F64) : Monitor :=
  if m.today.isEmpty then m
  else
    let d := mean32 m.today
    let month := m.month ++ [d]
    let oldest := F64.sub powered (F64.ofNat (1024 * 86400))
    let daily := (m.daily ++ [(aEq, powered, d)]).filter fun p => F64.lt oldest p.2.1
    let m := { m with today := [], daily := daily, baseline := if m.daily.isEmpty then Config.ledgerBaseline n d else m.baseline }
    if 30 ≤ month.length then { m with month := [], monthly := m.monthly ++ [mean32 month] } else { m with month := month }

/-- The fit, the projection and the state of a monitor with 30 daily points or more (R619). `rate`: equivalent years that a
calendar year adds. -/
def Monitor.judge (m : Monitor) (n : Nat) (aEq rate : F64) : Monitor :=
  if m.daily.length < 30 then { m with state := if m.state == 4 && beyondLimit n (F64.of32 m.present) then 4 else 0 }
  else
    let xy := m.daily.map fun p => (inYears (if n = 0x17 then p.2.1 else p.1), F64.of32 p.2.2)
    let (a, b) := linearFit xy
    let forty := f64OfRat 40 1
    let projected := F64.add a (F64.mul b forty)
    let limit := match monitorLimit n with
      | (.either, l) => if F64.lt b 0 then F64.neg l else l
      | (_, l) => l
    let toward := match (monitorLimit n).1 with
      | .below => F64.lt b 0
      | .above => F64.lt 0 b
      | .either => !F64.eq b 0
    let now := inYears aEq
    let left := if n = 0x17 then F64.sub forty now
      else F64.sub (F64.div (F64.sub limit a) b) now
    let years := if !toward && n != 0x17 then F64.inf else F64.max 0 (F64.div left rate)
    let state : BitVec 8 :=
      if beyondLimit n (F64.of32 m.present) then 4
      else if beyondLimit n projected then 3
      else if F64.le years (f64OfRat 5 1) then 2
      else 1
    { m with slope := F64.to32 b, projected := F64.to32 projected, years := F64.to32 years, state := state }

/-- AGEING_MARGIN for a change of state (R620). -/
def State.ageingMargin (s : State) (n : Nat) (old : BitVec 8) : State :=
  let m := at? s.hsk.monitors n
  if m.state == old then s
  else
    let cent := (F64.nearest (F64.mul (F64.of32 m.years) (f64OfRat 100 1)))
    let cent : Nat := if F64.finite (F64.of32 m.years) then min 0xFFFFFFFF cent.toNat else 0xFFFFFFFF
    s.raise 121 (BitVec.ofNat 32 n) (BitVec.ofNat 32 (old.toNat * 256 + m.state.toNat)) (BitVec.ofNat 32 cent) m.projected

/-! ## Clock bins (R622, R627, R628) -/

/-- The island codes of bins 0 to 11: monitors 0x00 to 0x0B (R616). -/
def binIslands : List Nat := [1, 2, 3, 4, 5, 6, 7, 8, 0xA, 0xB, 0xC, 0xD]
/-- Change one clock bin. -/
def State.setBin (s : State) (i : Nat) (f : ClockBin → ClockBin) : State := { s with hsk.bins := upd s.hsk.bins i f }

/-- LIMIT of loop 1 (R629). -/
def State.binLimit (s : State) (i : Nat) (crossed upper : Bool) : State :=
  let b := at? s.hsk.bins i
  s.raise 122 (BitVec.ofNat 32 (1 + flagBit upper 8 + flagBit crossed 9)) (BitVec.ofNat 32 (binIslands.getD i 0))
    (F32.ofNat (if upper then b.binMax else b.binMin)) (F32.ofNat b.bin) crossed

/-- Enter a measured slack of the present bin; the time above 18 % runs on or ends (R622). -/
def ClockBin.measure (b : ClockBin) (now : Nat) (aEq : F64) (slack : F32) : ClockBin :=
  { b with slack := slack, slackAt := updL b.slackAt b.bin fun _ => some (slack, aEq),
           aboveSince := if F32.lt (F32.ofNat 18) slack then b.aboveSince <|> some now else none }

/-- The slack last measured at a bin of an island, moved by the ledger's fitted slope for the time since (R622). -/
def State.binSlack (s : State) (i k : Nat) : Option F64 :=
  ((at? s.hsk.bins i).slackAt.getD k none).map fun (x : F32 × F64) =>
    F64.add (F64.of32 x.1) (F64.mul (F64.of32 (at? s.hsk.monitors i).slope) (inYears (F64.sub s.hsk.aEq x.2)))

/-- One step up: within the envelope below 10 % of slack; past BIN_MAX below 5 %, to bin 15 at most (R622, R627). At bin 15
and below 5 %, the island's monitor is OUT (R628). -/
def State.raiseBin (i : Nat) (s : State) : State :=
  let b := at? s.hsk.bins i
  if !F32.lt b.slack (F32.ofNat 10) then s
  else if b.bin < b.binMax then s.setBin i fun b => { b with bin := b.bin + 1, atLimit := false }
  else if F32.lt b.slack (F32.ofNat 5) then
    if b.bin < 15 then (s.setBin i fun b => { b with bin := b.bin + 1, crossed := true, atLimit := true }).binLimit i true true
    else
      let old := (at? s.hsk.monitors i).state
      let s := { s with hsk.monitors := upd s.hsk.monitors i fun m => { m with state := 4 } }
      s.ageingMargin i old
  else if b.atLimit then s
  else (s.setBin i fun b => { b with atLimit := true }).binLimit i false true

/-- One step down, after 24 h above 18 % (R622, R627). -/
def State.lowerBin (i : Nat) (s : State) : State :=
  let b := at? s.hsk.bins i
  if (match b.aboveSince with | some a => decide (s.now < a + 86400 * second) | none => true) then s
  else if b.binMin < b.bin then
    s.setBin i fun b => { b with bin := b.bin - 1, aboveSince := none, atLimit := false, crossed := b.crossed && decide (b.binMax < b.bin - 1) }
  else if b.atLimit then s
  else (s.setBin i fun b => { b with atLimit := true }).binLimit i false false

/-- A bin that a write has left outside its envelope moves to the nearer bound; a lower BIN_MAX waits until the slack
there would be 10 % or more, and counts as a crossing until then (R628). -/
def State.settleBin (i : Nat) (s : State) : State :=
  let b := at? s.hsk.bins i
  if b.bin < b.binMin then s.setBin i fun b => { b with bin := b.binMin }
  else if b.bin ≤ b.binMax then s
  else
    let would := match s.binSlack i b.binMax with | some x => F64.le (f64OfRat 10 1) x | none => false
    if would then s.setBin i fun b => { b with bin := b.binMax, crossed := false }
    else if b.crossed then s
    else (s.setBin i fun b => { b with crossed := true }).binLimit i true true

/-- BIN_RAISE (R622). -/
def execBinRaise (t : Nat) (island : Fin 12) (slack : F32) (s : State) : Out :=
  runPowered t s fun s => (s.setBin island fun b => b.measure s.now s.hsk.aEq slack).raiseBin island

/-- BIN_LOWER (R622). -/
def execBinLower (t : Nat) (island : Fin 12) (slack : F32) (s : State) : Out :=
  runPowered t s fun s => (s.setBin island fun b => b.measure s.now s.hsk.aEq slack).lowerBin island

/-- The planned bin at a cold start: the lowest in the envelope whose slack, last measured there and moved by the fitted
slope, is 12 % or more (R622). Where no bin has been measured so, no rule names one (log 20). -/
def State.planBin (s : State) (i : Nat) : ClockBin :=
  let b := at? s.hsk.bins i
  let ok (k : Nat) : Bool := match s.binSlack i k with | none => false | some x => F64.le (f64OfRat 12 1) x
  let bins := (List.range 16).filter fun k => decide (b.binMin ≤ k) && decide (k ≤ b.binMax)
  let k := (bins.find? ok).getD (min b.binMax (max b.binMin (Config.startBin i).val))
  { b with bin := k, planned := k, aboveSince := none, atLimit := false, crossed := false }

/-- Every island starts at its planned bin (R622). -/
def State.planBins (s : State) : State := { s with hsk.bins := s.hsk.bins.mapIdx fun i _ => s.planBin i }

/-- A write of BIN_ENVELOPE (R640). -/
def State.binEnvelope (i : Nat) (v : List Byte) (s : State) : Done :=
  let lo := fieldAt v 0 1
  let hi := fieldAt v 1 1
  checkValue (v.length == 2 && decide (hi ≤ 15) && decide (lo ≤ hi)) s fun _ =>
    done (s.setBin i fun b => { b with binMin := lo, binMax := hi })

/-- BIN_ENVELOPE (R628). -/
def execBinEnvelope (t : Nat) (req : Request) (island : Fin 12) (value : BitVec 16) (s : State) : Out :=
  runHost t s fun s =>
    s.hostWrite req (objId 0x0E (0x40 + binIslands.getD island 0) 1) (be16 value) fun _ s => s.binEnvelope island (be16 value)

/-! ## The holdup (R623-R625) -/

/-- Plan the holdup from the capacitance, and report what changed (R623-R625). -/
def State.planHoldup (s : State) : State :=
  let m := at? s.hsk.monitors 0x0E
  let c := if m.lastAt = 0 then s.hsk.capMf else m.present
  let cF := F64.div (F64.of32 c) (f64OfRat 1000 1)
  let v2 := F64.add (f64OfRat 256 1) (F64.div (f64OfRat 38 100) cF)
  let th := F64.div (F64.mul cF (F64.sub (f64OfRat 2500 1) v2)) (f64OfRat 76 1)
  let half := F64.sub (F64.mul F64.half th) (f64OfRat 53 10000)
  let depth := min 8192 (F64.floor (F64.div half (f64OfRat 32 100000000))).toNat
  let thMs := F64.to32 (F64.mul th (f64OfRat 1000 1))
  let thUs := (F64.nearest (F64.mul th (f64OfRat 1000000 1))).toNat
  let wasLow := s.hsk.holdupLow
  let low := if wasLow then !F32.le (F32.ofNat 32) thMs else F32.lt thMs (F32.ofNat 30)
  let before := s.hsk.depthNext.getD s.hsk.geyserDepth
  let open_ := s.recorder.window.isSome
  let s := { s with hsk.capMf := c, hsk.vRes := F64.to32 (F64.sqrt v2), hsk.tHold := thMs, hsk.holdupLow := low,
                    hsk.geyserDepth := if open_ then s.hsk.geyserDepth else depth,
                    hsk.depthNext := if open_ then some depth else none }
  let report (s : State) (bits : Nat) : State := s.raiseN 125 (thUs + bits) (some depth)
  let s := if low && !wasLow then report s (2 ^ 31) else s
  let s := if !low && wasLow then report s 0 else s
  if depth < 8192 ∧ before = 8192 then report s (2 ^ 30) else s

/-! ## The rows of HSK's own clock -/

/-- The baseplate temperature in degrees Celsius, read on AUX7 (R175, R617). -/
def State.baseplate (s : State) : F32 := s.ain.channels[23].value

/-- FUMAROLE_SAMPLE (R616, R617): the slacks of the path-delay rings, then the other monitors, by instance, none where a monitor
has no valid sample; the oscillator counts only while TB2 is LOCKED, and its 600 s points feed R621. -/
def execFumaroleSample (t : Nat) (slacks others : List (Option F32)) (s : State) : Out :=
  runPowered t s fun s =>
    if s.now / (60 * second) ≤ s.hsk.sampledAt then s
    else
      let s := { s with hsk.sampledAt := s.now / (60 * second), hsk.aEq := F64.add s.hsk.aEq (ageStep s.baseplate),
                        hsk.poweredTime := s.hsk.poweredTime + 60, hsk.samples := s.hsk.samples + 1 }
      let locked := s.time.tb[2].state == 2
      let reading (n : Nat) : Option F32 :=
        if n = 0x17 then some (F64.to32 (inYears s.hsk.aEq))
        else if n = 0x10 && !locked then none
        else if n < 12 then slacks.getD n none
        else others.getD (n - 12) none
      let now := s.now
      let s := { s with hsk.monitors := s.hsk.monitors.mapIdx fun n m =>
                          match reading n with | some v => m.sample now v | none => m }
      let s := match reading 0x10 with
        | some v => if s.hsk.samples % 10 = 0 then
            { s with hsk.oscPoints := (s.hsk.oscPoints ++ [v]).drop (s.hsk.oscPoints.length + 1 - 4320) } else s
        | none => s
      (List.range 12).foldl (fun s i =>
        let s := match reading i with
          | some v => s.setBin i fun b => b.measure s.now s.hsk.aEq v
          | none => s
        s.settleBin i) s

/-- The oscillator coefficients from the 600 s points (R621): never below the factory's. -/
def oscCoefficients (points : List F32) (f a : F32) : F32 × F32 :=
  let ys := points.map fun x => F64.mul (F64.of32 x) (f64OfRat 1 1000000000)
  let ds := (ys.zip (ys.drop 1)).map fun p => F64.sub p.2 p.1
  if ds.isEmpty then (f, a)
  else
    let n := F64.ofNat ds.length
    let mean := F64.div (ds.foldl F64.add 0) n
    let var := F64.div (ds.foldl (fun acc d => F64.add acc (F64.mul (F64.sub d mean) (F64.sub d mean))) 0) n
    let three := f64OfRat 3 1
    let slope := (linearFit (ys.zipIdx.map fun p => (F64.ofNat (600 * p.2), p.1))).2
    (F32.max f (F64.to32 (F64.mul three (F64.sqrt var))), F32.max a (F64.to32 (F64.mul three (F64.abs slope))))

/-- The refresh interval a read margin asks for, in days (R626). -/
def refreshDays (m : F32) : Nat :=
  if F32.le (F32.ofNat 60) m then 365 else if F32.le (F32.ofNat 40) m then 90 else if F32.le (F32.ofNat 30) m then 30 else 7

/-- The refresh interval follows the read margin once it has been sampled (R626). -/
def State.planRefresh (s : State) : State :=
  let m := at? s.hsk.monitors 0x0F
  if m.lastAt = 0 then s else { s with hsk.mramInterval := refreshDays m.present }

/-- Equivalent years that a calendar year adds, from the last 365 days of powered time, or from those there are (R619). -/
def yearRate (days : List F64) (aEq : F64) : F64 :=
  match days.getLast? with
  | none => 0
  | some a => F64.div (F64.mul (inYears (F64.sub aEq a)) (f64OfRat 36525 100)) (F64.ofNat days.length)

/-- LEDGER_DAILY (R616-R626): the day's means, the fits and states, the oscillator coefficients, the plans. -/
def execLedgerDaily (t : Nat) (s : State) : Out :=
  runPowered t s fun s =>
    if s.now / (86400 * second) ≤ s.hsk.dayAt then s
    else
      let s := { s with hsk.dayAt := s.now / (86400 * second) }
      let aEq := s.hsk.aEq
      let powered := F64.ofNat s.hsk.poweredTime
      let rate := yearRate s.hsk.aEqDays aEq
      let olds := s.hsk.monitors.map (·.state)
      let (f, a) := oscCoefficients s.hsk.oscPoints s.factory.oscF s.factory.oscA
      let s := { s with hsk.monitors := s.hsk.monitors.mapIdx fun n (m : Monitor) => (m.endDay n aEq powered).judge n aEq rate,
                        hsk.aEqDays := (aEq :: s.hsk.aEqDays).take 365, hsk.oscF := f, hsk.oscA := a }
      let s := (List.range 24).foldl (fun s n => s.ageingMargin n (at? olds n)) s
      s.planRefresh.planHoldup

/-- Is the refresh of the store due: the interval has passed since the last one started (R626)? -/
def State.refreshDue (s : State) : Bool :=
  match s.hsk.mramStart with | some a => decide (a + s.hsk.mramInterval * 86400 * second ≤ s.tb3) | none => true

/-- MRAM_REFRESH (R626): a refresh that is due begins with block 0; every further one completes the block in progress and goes on, 10
ms apart, unless a flush or the geyser has the store. A refresh changes no byte. -/
def execMramRefresh (t : Nat) (s : State) : Out :=
  runPowered t s fun s =>
    if s.power.noNvWrites || !s.recorder.flushing.isEmpty || s.recorder.geyserRunning then s
    else match s.hsk.mramBlock with
      | none =>
        if s.refreshDue then { s with hsk.mramBlock := some 0, hsk.mramStart := some s.tb3, hsk.mramAt := s.now } else s
      | some b =>
        if s.now < s.hsk.mramAt + 10 * ms then s
        else if b + 1 < 8192 then { s with hsk.mramBlock := some (b + 1), hsk.mramAt := s.now }
        else { s with hsk.mramBlock := none, hsk.mramLast := s.tb3 }

/-! ## Objects (R640, R641) -/

/-- The monitor in the highest state, lowest instance first, and that state; 0xFF where every state is NONE (R641). -/
def Housekeeping.worst (h : Housekeeping) : Nat × Nat :=
  h.monitors.toList.zipIdx.foldl (fun best x => if best.2 < x.1.state.toNat then (x.2, x.1.state.toNat) else best) (0xFF, 0)

/-- HSK_STATUS (R641). -/
def State.hskStatus (s : State) : Nat :=
  let (m, st) := s.hsk.worst
  m * 2 ^ 16 + st * 2 ^ 13 + flagBit s.hsk.holdupLow 12 + flagBit (decide (s.hsk.geyserDepth < 8192)) 11 +
    flagBit (s.hsk.bins.toList.any fun b => decide (b.binMax < b.bin)) 10 + flagBit s.hsk.mramBlock.isSome 9

/-- LEDGER_ENTRY (R640). -/
def Monitor.entry (m : Monitor) (n : Nat) : List Byte :=
  be32 m.present ++ be32 m.baseline ++ be32 m.slope ++ be32 m.projected ++ be32 (F64.to32 (monitorLimit n).2) ++ be32 m.years ++
    nat16 m.daily.length ++ be8 m.state ++ [0] ++ nat32 m.lastAt

/-- The clock bin whose object instance is given (R640). -/
def binOf (inst : Nat) : Option Nat := if inst < 0x40 then none else binIslands.findIdx? (· == inst - 0x40)

/-- A read of an object of HSK's own: 0x0E.n, 0x0E.00.01xx and 0x0E.(0x40+c). -/
def State.ageRead (inst num : Nat) (s : State) : Option (List Byte) :=
  let h := s.hsk
  match binOf inst with
  | some i =>
    let b := at? h.bins i
    match num with
    | 0 => some (nat8 b.bin ++ nat8 b.planned ++ nat8 (flagBit b.atLimit 0 + flagBit b.crossed 1) ++ [0] ++ be32 b.slack)
    | 1 => some (nat8 b.binMin ++ nat8 b.binMax)
    | _ => none
  | none =>
    if inst < 24 ∧ num = 0 then some ((at? h.monitors inst).entry inst)
    else if inst < 24 ∧ num = 1 then some (((at? h.monitors inst).daily.reverse.take 1024).flatMap fun p => be32 p.2.2)
    else if inst = 0 then
      match num with
      | 0x100 => some (nat32 s.hskStatus)
      | 0x101 => some (nat64 (F64.floor h.aEq).toNat ++ nat64 h.poweredTime)
      | 0x102 => some (be32 h.oscF ++ be32 h.oscA ++ be32 s.factory.oscF ++ be32 s.factory.oscA)
      | 0x103 => some (be32 h.capMf ++ be32 h.vRes ++ be32 h.tHold ++ nat16 h.geyserDepth ++ zeros 2)
      | 0x104 => some (nat16 h.mramInterval ++ zeros 2 ++ nat64 h.mramLast ++ nat32 (h.mramBlock.getD 0xFFFFFFFF))
      | _ => none
    else none

end Sys2Proof.Machine
end

