-- ==== Sys2Proof/Machine/Analog.lean ====
section
/-! DEFINITION. AIN: the decimation chain, calibration, the DC block, stamps and delivery
(spec/05_analog_acquisition.md). -/

namespace Sys2Proof.Machine

/-! ## Rates (R166) -/

/-- f_out of a RATE_CODE in Hz. -/
def rateHz : Nat → Nat
  | 0 => 50000 | 1 => 25000 | 2 => 10000 | 3 => 5000 | 4 => 2500 | 5 => 1000 | 6 => 500 | 7 => 250 | 8 => 100 | 9 => 50
  | 10 => 20 | _ => 10
/-- The CIC ratio R. -/
def cicRatio (code : Nat) (scs : Bool) : Nat := (if scs then 2500000 else 5000000) / rateHz code
/-- d_chain in ns. -/
def chainDelay (code : Nat) (scs : Bool) : Nat := (if scs then 500000000 else 2500000000) / rateHz code - 200
/-- Modulator samples in one output: twice R in normal mode, four times in SCS. -/
def samplesPerOutput (code : Nat) (scs : Bool) : Nat := (if scs then 4 else 2) * cicRatio code scs

/-! ## The chain (R163-R165) -/

/-- One modulator sample through the four integrators, modulo 2^80. -/
def AinChain.integrate (c : AinChain) (bit : Bool) : AinChain :=
  let x : BitVec 80 := if bit then 1 else -1
  let a := c.integ[0] + x
  let b := c.integ[1] + a
  let d := c.integ[2] + b
  let e := c.integ[3] + d
  { c with integ := #v[a, b, d, e], phase := c.phase + 1 }

/-- The four combs at a decimation instant: the true CIC output modulo 2^80. -/
def AinChain.decimate (c : AinChain) : BitVec 80 × AinChain :=
  let y0 := c.integ[3]
  let y1 := y0 - c.comb[0]
  let y2 := y1 - c.comb[1]
  let y3 := y2 - c.comb[2]
  let y4 := y3 - c.comb[3]
  (y4, { c with comb := #v[y0, y1, y2, y3], phase := 0 })

/-- Round a quotient to the nearest integer, ties to even. -/
def roundDiv (n : Int) (d : Nat) : Int :=
  let q := n / d
  let r := n % d
  if 2 * r > d ∨ (2 * r = d ∧ q % 2 = 1) then q + 1 else q

/-- Cut to a signed range of `n` bits; full scale itself is taken at its nearest code (log 26). -/
def clampBits (n : Nat) (v : Int) : Int := max (-(2 ^ (n - 1))) (min (2 ^ (n - 1) - 1) v)

/-- Normalisation by 1/R^4 to a 32-bit signed fraction of full scale (R165). -/
def normalise (r : Nat) (y : BitVec 80) : BitVec 32 :=
  BitVec.ofInt 32 (clampBits 32 (roundDiv (y.toInt * 2 ^ 31) (r ^ 4)))

/-- 2^20 times what each tap pair of the FIR, from the outermost in to the middle tap, adds to the chain's response: the CIC's sinc^4
times cos(k w), at 0 to 0.2 f_out in steps of 0.01 f_out. -/
def passRows : List (List Int) :=
  [[2097152, 2097152, 2097152, 1048576], [2087501, 2092669, 2095772, 1048404], [2058651, 2079247, 2091637, 1047886],
   [2010902, 2056958, 2084756, 1047025], [1944757, 2025926, 2075146, 1045820], [1860906, 1986323, 2062830, 1044272],
   [1760226, 1938367, 2047839, 1042383], [1643767, 1882321, 2030209, 1040155], [1512740, 1818493, 2009983, 1037589],
   [1368503, 1747232, 1987209, 1034688], [1212548, 1668929, 1961943, 1031455], [1046479, 1584008, 1934246, 1027891],
   [871997, 1492930, 1904185, 1024001], [690882, 1396186, 1871831, 1019788], [504968, 1294296, 1837261, 1015255],
   [316125, 1187805, 1800559, 1010407], [126240, 1077277, 1761810, 1005247], [-62808, 963296, 1721107, 999781],
   [-249166, 846460, 1678545, 994012], [-431028, 727375, 1634223, 987947], [-606656, 606656, 1588245, 981589]]
/-- The same at 0.8 to 1.0 f_out, from where inputs alias into 0 to 0.2 f_out. -/
def stopRows : List (List Int) :=
  [[212617, 212617, -556639, 344022], [145683, 245845, -552349, 333915], [81204, 275865, -547044, 323952],
   [19735, 302674, -540783, 314138], [-38236, 326291, -533626, 304474], [-92285, 346752, -525632, 294965],
   [-142058, 364113, -516860, 285613], [-187268, 378445, -507371, 276420], [-227698, 389837, -497224, 267389],
   [-263197, 398390, -486477, 258522], [-293683, 404220, -475189, 249822], [-319134, 407454, -463416, 241289],
   [-339590, 408228, -451215, 232925], [-355147, 406688, -438640, 224733], [-365951, 402987, -425746, 216712],
   [-372198, 397282, -412584, 208864], [-374122, 389736, -399205, 201189], [-371996, 380516, -385658, 193689],
   [-366123, 369786, -371990, 186363], [-356832, 357715, -358246, 179211], [-344469, 344469, -344469, 172235]]
/-- Do four taps, the outermost first, as 2^-31, give the response of R165: within 0.1 dB up to 0.2 f_out, and 25 dB down where inputs
would alias there? The bounds are 10^(-0.1/20), 10^(0.1/20) and 10^(-25/20) times 2^51 (log 7). -/
def firMeets (taps : List Int) : Bool :=
  let at_ (row : List Int) : Int := ((row.zip taps).map fun (a, b) => a * b).sum
  (passRows.all fun r => decide (2226023674366470 ≤ at_ r) && decide (at_ r ≤ 2277874426630264)) &&
    stopRows.all fun r => decide ((at_ r).natAbs ≤ 126628009129114)

/-- The taps 0 to 3 of the FIR; taps 4 to 6 mirror 2 to 0. A free value among those that meet R165's response: where the one Config
gives does not, a set that does (log 7). -/
def firTaps : List Int :=
  let free := [0, 1, 2, 3].map fun i => (Config.firTap i).toInt
  if firMeets free then free else [-246913224, 175484015, 677659737, 913345351]

/-- The symmetric 7-tap FIR over the newest inputs, newest first (R165). -/
def firOutput (xs : List (BitVec 32)) : BitVec 32 :=
  let tap (i : Nat) : Int := firTaps.getD (if i ≤ 3 then i else 6 - i) 0
  let acc := ((xs.take 7).zipIdx.map fun (x, i) => tap i * x.toInt).foldl (· + ·) 0
  BitVec.ofInt 32 (clampBits 32 (roundDiv acc (2 ^ 31)))

/-- Run modulator samples; the normalised CIC outputs come in order, oldest first. -/
def AinChain.run (r : Nat) : List Bool → AinChain → List (BitVec 32) × AinChain
  | [], c => ([], c)
  | b :: rest, c =>
    let c := c.integrate b
    if r ≤ c.phase then
      let (y, c) := c.decimate
      let (ys, c) := AinChain.run r rest c
      (normalise r y :: ys, c)
    else AinChain.run r rest c

/-- The modulator samples of one output, to the 24-bit code c (R163 steps 2 to 5). -/
def AinChain.output (c : AinChain) (r : Nat) (scs : Bool) (stream : List Bool) : Int × AinChain :=
  let (ys, c) := AinChain.run r stream c
  let x :=
    if scs then ys.getLastD 0
    else firOutput ((ys.reverse ++ c.fir).take 7)
  let c := { c with fir := (ys.reverse ++ c.fir).take 7, settling := c.settling - 1 }
  (clampBits 24 (roundDiv x.toInt 256), c)

/-! ## Calibration (R162, R176, R177) -/

/-- The factory values of a channel for its range. -/
def State.rangeCal (s : State) (ch : Nat) (range : BitVec 2) : RangeCal :=
  let f := at? s.factory.cal ch
  let c := if range == 0 then f.volt else f.amp
  if s.factory.valid then c
  else { gain := Config.nominalGain range.toNat, delay := F32.ofNat (1200 + (Config.nominalDelay range.toNat).val) }

/-- Delta T: the latest AUX6 reading less 25 degrees. -/
def State.deltaT (s : State) : F32 := F32.sub s.ain.channels[22].value (F32.ofNat 25)

/-- The factory layer (R176). -/
def factoryValue (k : RangeCal) (dT : F32) (code : Int) : F32 :=
  let g := F32.mul k.gain (F32.add F32.one (F32.mul k.kGain dT))
  F32.add (F32.add (F32.mul g (F32.ofInt code)) k.offset) (F32.mul k.kOffset dT)

/-- OVER_RANGE and OPEN_WIRE of R162, on the value in V or A. -/
def rangeStatus (range : BitVec 2) (v : F32) : Bool × Bool :=
  if range == 0 then (F32.lt (f32OfRat 105 10) (F32.abs v), false)
  else (F32.lt (f32OfRat 21 1000) v || F32.lt v (f32OfRat (-5) 10000), range == 2 && F32.lt v (f32OfRat 36 10000))

/-- Interpolate between two points. -/
def lerp (a b : F32 × F32) (x : F32) : F32 :=
  F32.add a.2 (F32.mul (F32.div (F32.sub b.2 a.2) (F32.sub b.1 a.1)) (F32.sub x a.1))

/-- The segment of a rising table a value falls on: the end segments extend. -/
def tableAt : List (F32 × F32) → F32 → F32
  | a :: b :: rest, x => if rest.isEmpty || F32.lt x b.1 then lerp a b x else tableAt (b :: rest) x
  | _, x => x

/-- The user layer (R177): the value, and TABLE_EXTRAP. -/
def userValue (u : UserCal) (v : F32) : F32 × Bool :=
  let x := F32.add (F32.mul u.gain v) u.offset
  let n := u.count.toNat
  if 2 ≤ n ∧ n ≤ 8 then
    let tab := u.pairs.take n
    let first := (tab.headD (0, 0)).1
    let last := (tab.getLastD (0, 0)).1
    (tableAt tab x, F32.lt x first || F32.lt last x)
  else (x, false)

/-- May a staged copy be committed (R178)? -/
def UserCal.committable (u : UserCal) : Bool :=
  let n := u.count.toNat
  let rising : List (F32 × F32) → Bool
    | l => (l.zip (l.drop 1)).all fun (a, b) => F32.lt a.1 b.1
  F32.finite u.gain && !F32.eq u.gain 0 && n != 1 && decide (n ≤ 8) && rising (u.pairs.take n)

/-! ## The DC block (R181, R182) -/

/-- alpha = 1 - exp(-2 pi DC_CUTOFF / f_out). -/
def dcAlpha (cutoff : F32) (fout : Nat) : F32 :=
  let x := F64.div (F64.mul F64.twoPi (F64.of32 cutoff)) (F64.ofNat fout)
  F64.to32 (F64.sub F64.one (F64.exp (F64.neg x)))

/-- One output through the DC block: the value and DC_FROZEN. -/
def AinChannel.dcBlock (c : AinChannel) (v : F32) (flagged : Bool) : F32 × Bool × AinChannel :=
  if !c.dcEn then (v, false, c)
  else
    let fresh := !c.dcSet || c.preset
    let e0 := if fresh then v else c.dcE
    let hold := c.freeze || flagged
    let e := if hold || fresh then e0 else F32.add e0 (F32.mul (dcAlpha c.dcCutoff (rateHz c.rate.toNat)) (F32.sub v e0))
    (F32.sub v e, hold, { c with dcE := e, dcSet := true, preset := false })

/-! ## Telemetry (R577, R581) -/

/-- The bytes of an AI record. -/
def AiRecord.bytes (r : AiRecord) : List Byte := be8 r.channel ++ be8 r.status ++ zeros 2 ++ be32 r.stamp ++ be32 r.value

/-- Send an open AI frame. -/
def State.sendAi (s : State) (handle : Nat) : State :=
  match s.qcp.aiOpen.find? (·.1 == handle) with
  | none => s
  | some (_, _, recs) =>
    let s := { s with qcp.aiOpen := s.qcp.aiOpen.filter (·.1 != handle) }
    s.pushTele 5 0 (nat16 recs.length ++ zeros 2 ++ (recs.map AiRecord.bytes).flatten) [handle]

/-- Send every open AI frame whose first record is 1 ms old. -/
def State.flushAi (s : State) : State :=
  (s.qcp.aiOpen.filter fun x => decide (x.2.1 + ms ≤ s.now)).foldl (fun s x => s.sendAi x.1) s

/-- Offer an output of AI channel `ch` to the AI subscriptions: every m-th enters the open frame. -/
def State.streamAi (s : State) (ch : Nat) (r : AiRecord) : State :=
  (s.qcp.subs.filter (·.stream == 5)).foldl (fun s x =>
    let m := fieldAt x.select (2 * ch) 2
    if m = 0 then s
    else
      let skipped := match s.qcp.aiSkip.find? (fun k => k.1 == x.handle && k.2.1 == ch) with
        | some k => k.2.2
        | none => 0
      let others := s.qcp.aiSkip.filter fun k => !(k.1 == x.handle && k.2.1 == ch)
      if skipped + 1 < m then { s with qcp.aiSkip := others ++ [(x.handle, ch, skipped + 1)] }
      else
        let s := { s with qcp.aiSkip := others ++ [(x.handle, ch, 0)] }
        let (t0, recs) := match s.qcp.aiOpen.find? (·.1 == x.handle) with
          | some o => o.2
          | none => (s.now, [])
        let recs := recs ++ [r]
        let s := { s with qcp.aiOpen := s.qcp.aiOpen.filter (·.1 != x.handle) ++ [(x.handle, t0, recs)] }
        if (if x.dtls.isSome then 116 else 119) ≤ recs.length then s.sendAi x.handle else s) s

/-! ## Outputs -/

/-- Is a stamp's output the one to deliver for a multiple of P (R171)? After a step of TB3 the grid starts at the first multiple after
it, `grid` (R172). -/
def deliveryMultiple (period stamp p grid : Nat) (last : Option Nat) : Option Nat :=
  if period = 0 then none
  else
    let m := (stamp + period - 1) / period
    if m * period < stamp + p && decide (grid ≤ m * period) && last != some m then some m else none

/-- Since when the baseplate is above 72 °C, and below 68 °C (R675). -/
def State.judgeBaseplate (s : State) (v : F32) : State :=
  let since (on : Bool) (x : Option Nat) : Option Nat := if on then some (x.getD s.now) else none
  { s with power.hotSince := since (F32.lt (F32.ofNat 72) v) s.power.hotSince,
           power.coolSince := since (F32.lt v (F32.ofNat 68)) s.power.coolSince }

/-- One output of a chain: calibrated, stamped, streamed, and delivered when R171 selects it. -/
def State.aiOutput (s : State) (ch : Nat) (stream : List Bool) : State :=
  let aux := decide (16 ≤ ch)
  let c := at? s.ain.channels ch
  let code := if aux then 3 else c.rate.toNat
  let scs := aux || c.scs
  let need := samplesPerOutput code scs + (if aux then 40 else 0)
  let turn := !aux || (at? s.ain.auxAt ((ch - 16) / 4)).val == (ch - 16) % 4
  if stream.length ≠ need || !turn then s
  else
    let start := if aux then { c.chain with integ := .replicate 4 0, comb := .replicate 4 0, phase := 0, settling := 0 }
      else c.chain
    let settling := decide (0 < start.settling)
    let (x, chain) := start.output (cicRatio code scs) scs (if aux then stream.drop 40 else stream)
    let k := s.rangeCal ch c.range
    let v := factoryValue k s.deltaT x
    let (beyond, wire) := if aux then (false, false) else rangeStatus c.range v
    let (u, extrap) := if aux then (v, false) else userValue c.activeCal v
    let (value, frozen, c) := c.dcBlock u (beyond || wire || settling)
    let status : BitVec 8 := BitVec.ofNat 8 (flagBit beyond 0 + flagBit wire 1 + flagBit frozen 2 + flagBit extrap 3 +
      flagBit settling 4 + flagBit (!s.factory.valid) 5)
    let delay : Int := chainDelay code scs + F32.nearest k.delay
    let stamp := ((s.tb3 : Int) - delay).toNat
    let stamp0 := ((s.now : Int) - delay).toNat
    let p := match c.prevStamps with
      | [a, b] => b - a
      | _ => second / rateHz code
    let point := c.pointId.toNat
    let m := if c.active then deliveryMultiple (s.pointPeriod point) stamp p c.gridFrom c.deliveredM else none
    let c := { c with chain := chain, stamp := stamp, stamp0 := stamp0, value := value, status := status,
                      outputs := c.outputs + 1, prevStamps := (c.prevStamps ++ [stamp]).drop (c.prevStamps.length - 1),
                      deliveredM := if m.isSome then m else c.deliveredM,
                      overRange := if beyond then satAdd 65535 c.overRange 1 else c.overRange,
                      openWire := if wire then satAdd 65535 c.openWire 1 else c.openWire }
    let s := { s with ain.channels := upd s.ain.channels ch fun _ => c }
    let s := if ch = 23 then s.judgeBaseplate value else s
    let s := if aux then
        { s with ain.auxAt := upd s.ain.auxAt ((ch - 16) / 4) fun i => i + 1 }
      else s.streamAi ch { channel := BitVec.ofNat 8 ch, status := status, stamp := BitVec.ofNat 32 stamp, value := value }
    let s := s.flushAi
    match m with
    | none => s
    | some _ => s.arriveSlotted { point := point, member := s.me, stamp := stamp, val := .ai value status }

/-- AI_OUTPUT (R163-R186): the modulator stream of one output becomes a calibrated, stamped value. -/
def execAiOutput (t : Nat) (channel : Fin 24) (stream : List Bool) (s : State) : Out :=
  runPowered t s fun s => s.aiOutput channel stream

/-! ## Starts of the chains (R168, R174, R180, R182, R185, R187) -/

/-- A channel as its point and FILTERS record set it; its chain starts. -/
def ainStartChannel (i : Option Structure) (me n : Nat) (c : AinChannel) : AinChannel :=
  let point := i.bind fun i => i.points.find? fun p => p.kind == 3 && p.channel == n && p.member == me
  let base : AinChannel := { staged := c.staged, activeCal := c.activeCal, overRange := c.overRange,
                             openWire := c.openWire, outputs := c.outputs, stamp := c.stamp, stamp0 := c.stamp0,
                             value := c.value, status := c.status }
  match point, i with
  | some p, some i =>
    let f := (i.filters.find? (·.point == p.id)).getD { point := p.id }
    { base with pointId := BitVec.ofNat 16 p.id, rate := f.rateCode, range := BitVec.ofNat 2 p.mode, scs := f.scs,
                dcEn := f.dcBlock, dcCutoff := f.dcCutoff, active := true,
                chain := { settling := if f.scs then 1 else 6 } }
  | _, _ => base

/-- Every chain starts: at power-on and at an image load. -/
def State.ainStart (s : State) : State :=
  { s with ain.channels := s.ain.channels.mapIdx fun n c =>
      if n < 16 then ainStartChannel s.image.loaded s.me n c
      else { rate := 3, scs := true, value := c.value, status := c.status, stamp := c.stamp, stamp0 := c.stamp0,
             outputs := c.outputs } }

/-- The user objects at their factory values (R180). -/
def State.ainFactoryCal (s : State) : State :=
  { s with ain.channels := s.ain.channels.map fun c => { c with staged := {}, activeCal := {} } }

/-- Every channel's staged copy is committed at the end of a load (R180). -/
def State.ainCommitAll (s : State) : State :=
  { s with ain.channels := s.ain.channels.map fun c => { c with activeCal := c.staged } }

/-- AI_CONFIG (R185). -/
def AinChannel.word (c : AinChannel) : Nat :=
  c.pointId.toNat * 2 ^ 16 + c.rate.toNat * 2 ^ 12 + c.range.toNat * 2 ^ 8 + flagBit c.scs 2 + flagBit c.dcEn 1 +
    flagBit c.active 0

/-- GROUP_DELAY (R170); an AUX chain always runs in SCS mode at RATE_CODE 3 (R174). -/
def State.groupDelay (s : State) (ch : Nat) : Nat :=
  let c := at? s.ain.channels ch
  ((if 16 ≤ ch then chainDelay 3 true else chainDelay c.rate.toNat c.scs) + F32.nearest (s.rangeCal ch c.range).delay : Int).toNat

/-- The layout of USER_GAIN, USER_OFFSET and USER_TABLE together (R184 USER_ACTIVE). -/
def UserCal.bytes (u : UserCal) : List Byte :=
  be32 u.gain ++ be32 u.offset ++ be8 u.count ++ zeros 3 ++ (u.pairs.map fun (x, y) => be32 x ++ be32 y).flatten

/-- The layout of FACTORY_CAL (R184). -/
def FactoryCal.bytes (f : FactoryCal) : List Byte :=
  let r (k : RangeCal) := be32 k.gain ++ be32 k.offset ++ be32 k.kGain ++ be32 k.kOffset ++ be32 k.delay ++ zeros 4
  r f.volt ++ r f.amp

/-- Does a point belong to a reference slice: PRS, HDG, MRU or WND (R179)? -/
def State.feedsReference (s : State) (point : Nat) : Bool :=
  match s.image.loaded with
  | some i => i.slices.any fun x => x.kind != 0 && x.points.contains point
  | none => false

end Sys2Proof.Machine
end

