-- ==== Sys2Proof/Machine/Gnss.lean ====
section
/-! DEFINITION. GNB: epochs, search, channels, interference, antenna supplies (spec/04_gnss_receiver.md). -/

namespace Sys2Proof.Machine

/-! ## Configuration (R125, R126, R129, R131) -/

/-- Is a system enabled in GNB_CONFIG (R129)? 0 GPS, 1 Galileo, 2 BeiDou, 3 GLONASS, 4 SBAS. -/
def GnssState.systemOn (g : GnssState) (sys : Nat) : Bool := decide (sys < 5) && g.config.getLsbD sys
/-- Is an antenna in use: enabled in GNB_CONFIG, its supply enabled and not in SHORT (R161)? -/
def GnssState.antennaOn (g : GnssState) (a : Nat) : Bool :=
  g.config.getLsbD (8 + a) && (at? g.supplies a).en && (at? g.supplies a).status != 3
/-- Is a signal in the lower band (R125)? -/
def lowerBand (signal : BitVec 8) : Bool := decide (0x10 ≤ signal.toNat)
/-- The upper-band signal of a system (R125). -/
def upperSignal (sys : Nat) : BitVec 8 := match sys with | 0 => 1 | 1 => 2 | 2 => 3 | 3 => 4 | _ => 5
/-- The lower-band signal of a system, if it has one (R125). -/
def lowerSignal (sys : Nat) : Option (BitVec 8) := match sys with | 0 => some 0x11 | 1 => some 0x12 | 2 => some 0x13 | _ => none
/-- The satellite numbers of a system (R126). -/
def systemSvs (sys : Nat) : List Nat := match sys with
  | 0 => (List.range 32).map (· + 1) | 1 => (List.range 36).map (· + 1) | 2 => (List.range 63).map (· + 1)
  | 3 => (List.range 24).map (· + 1) | _ => (List.range 39).map (· + 120)
/-- Code length in ns and in chips of a signal (R125). -/
def signalCode (signal : BitVec 8) : Nat × Nat := match signal.toNat with
  | 1 => (ms, 1023) | 2 => (4 * ms, 4092) | 3 => (10 * ms, 10230) | 4 => (ms, 511) | 5 => (ms, 1023) | _ => (ms, 10230)
/-- Carrier frequency in Hz (R125); `k` is the GLONASS frequency channel, signed. -/
def signalCarrier (signal : BitVec 8) (k : BitVec 8) : Nat := match signal.toNat with
  | 4 => (1602000000 + 562500 * k.toInt).toNat
  | 1 | 2 | 3 | 5 => 1575420000
  | _ => 1176450000
/-- The GLONASS frequency channels (R125). -/
def gloChannels : List (BitVec 8) := (List.range 14).map fun (i : Nat) => BitVec.ofInt 8 ((i : Int) - 7)
/-- The primary antenna: ANT_A, or ANT_B while ANT_A is disabled or its STATUS is SHORT or OFF (R137). -/
def GnssState.primary (g : GnssState) : Nat :=
  if g.antennaOn 0 && (at? g.supplies 0).status != 0 then 0 else 1

/-- May a channel keep its signal: its system, antenna and band are in use (R129, R161)? -/
def GnssState.keeps (g : GnssState) (c : Channel) : Bool :=
  g.systemOn c.system.toNat && g.antennaOn c.antenna.toNat && (!lowerBand c.signal || g.config.getLsbD 5)

/-! ## Searches (R135-R138) -/

/-- u_f: the oscillator's fractional frequency uncertainty (R136). -/
def State.oscUncertainty (s : State) : F64 :=
  let b := s.time.tb[2]
  if b.state == 2 then f64OfRat 1 1000000000
  else if b.neverLocked then f64OfRat 2 1000000
  else
    let tau := match b.lossAt with | some l => secondsOf (s.now - l) | none => 0
    F64.add (F64.of32 b.f) (F64.mul (F64.of32 b.a) tau)

/-- c. -/
def lightSpeed : F64 := F64.ofNat 299792458

/-- u_p: EST's reported horizontal position uncertainty. -/
def State.positionUncertainty (s : State) : F64 := s.obsOut.posSigmaMajor

/-- The code half-window of R136 in metres. -/
def State.codeHalfWindow (s : State) : F64 :=
  F64.add (F64.add (F64.mul lightSpeed (secondsOf (s.uncertainty 2))) s.positionUncertainty) (F64.ofNat 30)

/-- The frequency half-window of R136 in Hz. -/
def State.freqHalfWindow (s : State) (signal k : BitVec 8) : F64 :=
  let fc := F64.ofNat (signalCarrier signal k)
  F64.add (F64.add (F64.mul fc s.oscUncertainty) (F64.div (F64.mul s.obsOut.velSigma fc) lightSpeed)) (F64.ofNat 50)

/-- The least integer not below a value. -/
def F64ceil (x : F64) : Int := -(F64.floor (F64.neg x))

/-- The number of frequency bins for a half-window (R136). -/
def State.searchBins (s : State) (h : F64) : Nat :=
  let bin := F64.ofNat s.gnss.searchBin.toNat
  let half := F64.div bin F64.two
  if F64.le h half then 1 else 2 * (F64ceil (F64.div (F64.sub h half) bin)).toNat + 1

/-- The orbit held for a satellite: ephemeris or almanac (R136). -/
def GnssState.orbit (g : GnssState) (sys sv : BitVec 8) : Option Orbit :=
  (g.ephemerides.map (·.1) ++ g.almanacs).find? fun o => o.system == sys && o.sv == sv

/-- Is a valid ephemeris held (R136, R145)? -/
def State.validEphemeris (s : State) (sys sv : BitVec 8) : Bool :=
  s.gnss.ephemerides.any fun e => e.1.system == sys && e.1.sv == sv && decide (s.now ≤ e.2)

/-- The elevation the receiver was last told for a satellite. -/
def GnssState.told (g : GnssState) (sys sv : BitVec 8) : Option F32 :=
  (g.elevations.find? fun x => x.1 == sys && x.2.1 == sv).map (·.2.2)
/-- The predicted elevation of a satellite (R137); a free value before any was told (log 6). -/
def GnssState.elevationOf (g : GnssState) (sys sv : BitVec 8) : F32 :=
  (g.told sys sv).getD (Config.predictedElevation g.epochSeq sys.toNat sv.toNat)
/-- Is a satellite known to be below the horizon (R141)? -/
def GnssState.belowHorizon (g : GnssState) (sys sv : BitVec 8) : Bool :=
  match g.told sys sv with | some e => F32.lt e 0 | none => false

/-- The search type of a satellite (R136): 1 HOT, 2 WARM, 3 COLD. -/
def State.searchKind (s : State) (sys sv signal : BitVec 8) : BitVec 2 :=
  let codeLen := F64.mul lightSpeed (secondsOf (signalCode signal).1)
  if s.validEphemeris sys sv && F64.lt (F64.mul F64.two s.codeHalfWindow) codeLen then 1
  else if (s.gnss.orbit sys sv).isSome && F64.le s.positionUncertainty (F64.ofNat 10000) then 2
  else 3

/-- The half-chip cells of a signal's whole code, and of the code window (R136). -/
def State.searchCells (s : State) (kind : BitVec 2) (signal : BitVec 8) : Nat :=
  let (len, chips) := signalCode signal
  if kind == 1 then
    (F64ceil (F64.div (F64.mul (F64.mul F64.two s.codeHalfWindow) (F64.ofNat (2 * chips)))
      (F64.mul lightSpeed (secondsOf len)))).toNat
  else 2 * chips

/-- The passes of a search: for each frequency bin, those that cover its code range at 2 048 half-chip cells each (R125, R135). -/
def State.searchPasses (s : State) (kind : BitVec 2) (signal k : BitVec 8) : Nat :=
  s.searchBins (if kind == 3 then F64.ofNat s.gnss.coldSpan.toNat else s.freqHalfWindow signal k) *
    max 1 ((s.searchCells kind signal + 2047) / 2048)

/-- Is a signal of a satellite already assigned a channel on an antenna? -/
def GnssState.assigned (g : GnssState) (id : SignalId) : Bool :=
  g.channels.any fun c => c.state != 0 && c.system == id.system && c.sv == id.sv && c.signal == id.signal &&
    c.antenna == id.antenna

/-- Is a signal waiting for a channel (R142)? -/
def GnssState.waits (g : GnssState) (id : SignalId) : Bool := g.wanting.any (·.target == id)

/-- The job for a satellite on an antenna: its search type, and its predicted elevation. -/
def State.searchJob (s : State) (sys sv : Nat) (ant : Nat) : SearchJob :=
  let system := BitVec.ofNat 8 sys
  let number := BitVec.ofNat 8 sv
  let signal := upperSignal sys
  let k := match s.gnss.orbit system number with | some o => if sys = 3 then o.gloK else 0 | none => 0
  let kind := s.searchKind system number signal
  { kind := kind, target := { system := system, sv := number, signal := signal, antenna := BitVec.ofNat 1 ant },
    elevation := s.gnss.elevationOf system number, passes := s.searchPasses kind signal k, gloK := k }

/-- Insert by elevation, highest first. -/
def insertByElevation (j : SearchJob) : List SearchJob → List SearchJob
  | [] => [j]
  | x :: rest => if F32.lt x.elevation j.elevation then j :: x :: rest else x :: insertByElevation j rest

/-- The COLD jobs of GLONASS, one for each frequency channel (R135): the pass itself says which slot it found. They run while an
orbit is missing for some slot, on the channels that no satellite is tracked on. -/
def State.gloSearch (s : State) (ant : Nat) : List SearchJob :=
  if (systemSvs 3).all fun sv => (s.gnss.orbit 3 (BitVec.ofNat 8 sv)).isSome then []
  else
    (gloChannels.filter fun k => !s.gnss.channels.any fun c => c.state != 0 && c.system == 3 && c.signal == 4 && c.gloK == k &&
        (c.antenna.toNat == ant || c.antenna.toNat == s.gnss.primary)).map fun k =>
      { kind := 3, target := { system := 3, sv := 0, signal := 4, antenna := BitVec.ofNat 1 ant },
        passes := s.searchPasses 3 4 k, gloK := k }

/-- Is a satellite looked for? One whose orbit is held is left out while it is predicted below ELEV_MASK, as the outage example of
R161 counts its jobs (DEDUCED, log 38). -/
def State.looksFor (s : State) (sys sv : BitVec 8) : Bool :=
  match s.gnss.orbit sys sv, s.gnss.told sys sv with
  | some _, some e => !F32.lt e s.gnss.elevMask
  | _, _ => true

/-- A complete sweep in the order of R137: HOT, WARM by elevation, COLD by system. Satellites the primary antenna has not
acquired are searched on the other antenna in the next sweep. The channel predictions that a restart with state handover brings back
are the first sweep, every search of it HOT (R161). -/
def State.sweep (s : State) : List SearchJob :=
  let p := s.gnss.primary
  let other := 1 - p
  let ant := if s.gnss.sweepOther && s.gnss.antennaOn other then other else p
  let free (j : SearchJob) := !s.gnss.assigned j.target && !s.gnss.waits j.target &&
    !s.gnss.assigned { j.target with antenna := BitVec.ofNat 1 p }
  if !s.gnss.predictions.isEmpty then
    (s.gnss.predictions.filter fun j => !s.gnss.assigned j.target).map fun j =>
      { j with kind := 1, passes := s.searchPasses 1 j.target.signal j.gloK }
  else if !s.gnss.antennaOn ant then []
  else
    let all := ([0, 3, 1, 2, 4].filter s.gnss.systemOn).flatMap fun sys =>
      let one := (systemSvs sys).filter fun sv => (sys != 3 || (s.gnss.orbit 3 (BitVec.ofNat 8 sv)).isSome) &&
        s.looksFor (BitVec.ofNat 8 sys) (BitVec.ofNat 8 sv)
      (one.map fun sv => s.searchJob sys sv ant).filter free ++ (if sys = 3 then s.gloSearch ant else [])
    all.filter (·.kind == 1) ++ (all.filter (·.kind == 2)).foldr insertByElevation [] ++ all.filter (·.kind == 3)

/-- An engine takes the next job; an empty carousel begins a new sweep. -/
def State.feedEngine (s : State) (e : Nat) : State :=
  let s := if s.gnss.jobs.isEmpty then
      { s with gnss.jobs := s.sweep, gnss.sweepOther := !s.gnss.sweepOther, gnss.predictions := [] } else s
  match s.gnss.jobs with
  | [] => { s with gnss.engines := upd s.gnss.engines e fun _ => none }
  | j :: rest => { s with gnss.jobs := rest, gnss.engines := upd s.gnss.engines e fun _ => some j }

/-! ## Assignment (R142) -/

/-- The assignment class of a signal (R142): 0 the highest. -/
def assignClass (signal : BitVec 8) (ant : BitVec 1) : Nat := (if lowerBand signal then 2 else 0) + ant.toNat

/-- Does an elevation pass ELEV_MASK? -/
def GnssState.passes (g : GnssState) (elev : F32) : Bool := !F32.lt elev g.elevMask

/-- Does `a` come before `b` in the order of assignment: a signal that passes the masks first, then by class, then by elevation
(R142)? -/
def GnssState.before (g : GnssState) (a b : SearchJob) : Bool :=
  let pa := g.passes a.elevation
  let pb := g.passes b.elevation
  let ca := assignClass a.target.signal a.target.antenna
  let cb := assignClass b.target.signal b.target.antenna
  if pa != pb then pa else if ca ≠ cb then decide (ca < cb) else F32.lt b.elevation a.elevation

/-- A signal takes its place among those that wait for a channel. -/
def GnssState.insertWanting (g : GnssState) (j : SearchJob) : List SearchJob → List SearchJob
  | [] => [j]
  | x :: rest => if g.before j x then j :: x :: rest else x :: g.insertWanting j rest

/-- A signal waits for a channel, once. -/
def GnssState.want (g : GnssState) (j : SearchJob) : GnssState :=
  if g.waits j.target then g else { g with wanting := g.insertWanting j g.wanting }

/-- The lowest-elevation channel of those that a test selects. -/
def GnssState.lowest (g : GnssState) (f : Channel → Bool) : Option Nat :=
  (g.channels.toList.zipIdx.foldl (fun best (c, i) =>
    if c.state == 0 || !f c then best
    else match best with
      | none => some (c, i)
      | some (b, _) => if F32.lt c.elevation b.elevation then some (c, i) else best) (none : Option (Channel × Nat))).map (·.2)

/-- The channel a new signal takes: a free one; else, when it passes the masks, that of the lowest-elevation signal below the masks,
which do not compete, or of the lowest class in use when that class is below its own (R142). -/
def GnssState.channelFor (g : GnssState) (j : SearchJob) : Option Nat :=
  match g.channels.toList.findIdx? (·.state == 0) with
  | some i => some i
  | none =>
    if !g.passes j.elevation then none
    else match g.lowest (!·.pass) with
      | some i => some i
      | none =>
        let cls (c : Channel) := assignClass c.signal c.antenna
        let worst := g.channels.toList.foldl (fun m c => max m (cls c)) 0
        if worst ≤ assignClass j.target.signal j.target.antenna then none else g.lowest (fun c => cls c == worst)

/-- Assign a channel to a confirmed signal; it starts in PULL_IN (R139). Without one it waits, and so does the signal whose channel it
takes (R142). -/
def State.assignChannel (s : State) (j : SearchJob) : State :=
  if s.gnss.assigned j.target || s.gnss.belowHorizon j.target.system j.target.sv then s
  else match s.gnss.channelFor j with
    | none => { s with gnss := s.gnss.want j }
    | some i =>
      let old := at? s.gnss.channels i
      let c : Channel := { system := j.target.system, sv := j.target.sv, signal := j.target.signal, antenna := j.target.antenna,
                           state := 1, enteredAt := s.now, elevation := j.elevation, pass := s.gnss.passes j.elevation,
                           gloK := j.gloK }
      let s := { s with gnss.channels := upd s.gnss.channels i fun _ => c,
                        gnss.wanting := s.gnss.wanting.filter fun w => w.target != j.target }
      if old.state == 0 then s else { s with gnss := s.gnss.want old.job }

/-- The signals that wait take the channels that are free, in the order of R142. -/
def State.serveWanting : Nat → State → State
  | 0, s => s
  | n + 1, s =>
    match s.gnss.wanting with
    | [] => s
    | j :: rest =>
      if s.gnss.channels.any (·.state == 0) then ({ s with gnss.wanting := rest }.assignChannel j).serveWanting n else s

/-- CHANNEL_SHORTAGE (R130): a signal that passes the masks waits for a channel. -/
def GnssState.shortage (g : GnssState) : Bool := g.wanting.any fun j => g.passes j.elevation

/-- Channel `i` is free, for a signal that waits (R139, R142). -/
def State.freeChannel (s : State) (i : Nat) : State :=
  { s with gnss.channels := upd s.gnss.channels i fun c => { c with state := 0, slip := false },
           gnss.jobs := s.gnss.jobs.filter fun j => j.channel != some i }.serveWanting 256

/-! ## Search passes and handovers (R135, R138) -/

/-- SEARCH_PASS_DONE (R135): a detection takes one further pass to confirm; a confirmed one is assigned a channel. A pass on a GLONASS
frequency channel says which slot it found. -/
def execSearchPassDone (t : Nat) (engine : Fin 8) (detected : Option (BitVec 8)) (s : State) : Out :=
  runRunning t s fun s =>
    if !s.factory.optG then s
    else match s.gnss.engines[engine] with
      | none => s.feedEngine engine
      | some j =>
        let keep (j : SearchJob) := { s with gnss.engines := upd s.gnss.engines engine fun _ => some j }
        let target := if j.target.sv == 0 then { j.target with sv := detected.getD 0 } else j.target
        let found := detected.isSome && (systemSvs target.system.toNat).contains target.sv.toNat
        if j.confirming && found then
          let s := match j.channel with
            | some _ => s
            | none => s.assignChannel { j with target := target, elevation :=
                if j.target.sv == 0 then s.gnss.elevationOf target.system target.sv else j.elevation }
          s.feedEngine engine
        else if !j.confirming && found then keep { j with confirming := true }
        else if j.passes ≤ 1 then s.feedEngine engine
        else keep { j with confirming := false, passes := j.passes - 1 }

/-- HANDOVER_DONE (R138): the first handover waiting starts its signal, or after three failures becomes a HOT job. -/
def execHandoverDone (t : Nat) (started : Bool) (s : State) : Out :=
  runRunning t s fun s =>
    match s.gnss.handovers with
    | [] => s
    | j :: rest =>
      if started then { s with gnss.handovers := rest }.assignChannel j
      else if j.failures + 1 < 3 then
        { s with gnss.handovers := rest ++ [{ j with failures := j.failures + 1 }] }
      else
        let hot := { j with kind := 1, failures := 0, passes := s.searchPasses 1 j.target.signal j.gloK }
        let front := s.gnss.jobs.takeWhile fun x => x.kind == 0 || x.kind == 1
        { s with gnss.handovers := rest, gnss.jobs := front ++ [hot] ++ s.gnss.jobs.drop front.length }

/-- The other enabled signals of a satellite tracked on the upper band of one antenna, as far as nothing brings them yet (R138). -/
def State.handoversFor (s : State) (c : Channel) : List SearchJob :=
  let mk (sig : BitVec 8) (ant : Nat) : SearchJob :=
    { c.job with target := { system := c.system, sv := c.sv, signal := sig, antenna := BitVec.ofNat 1 ant } }
  let here := c.antenna.toNat
  let other := 1 - here
  let lower := (lowerSignal c.system.toNat).filter fun _ => s.gnss.config.getLsbD 5
  let own := match lower with | some l => [mk l here] | none => []
  let far := if s.gnss.antennaOn other then
      mk c.signal other :: (match lower with | some l => [mk l other] | none => []) else []
  let pending := s.gnss.handovers ++ s.gnss.jobs ++ s.gnss.engines.toList.filterMap id
  (own ++ far).filter fun j => !s.gnss.assigned j.target && !s.gnss.waits j.target && !pending.any (·.target == j.target)

/-- Every satellite tracked on an upper band has its other signals started (R138): those that were enabled or freed since, too. -/
def State.startHandovers (s : State) : State :=
  s.gnss.channels.toList.foldl (fun s c =>
    if c.state == 2 && !lowerBand c.signal then { s with gnss.handovers := s.gnss.handovers ++ s.handoversFor c } else s) s

/-! ## Tracking (R139, R141) -/

/-- How long a channel's state may last: PULL_IN 200 ms, REACQ as REACQ_WINDOW says (R139). -/
def GnssState.stateLimit (g : GnssState) (c : Channel) : Nat := if c.state == 1 then 200 * ms else g.reacqWindow.toNat * second

/-- CHANNEL_LOCK (R139): PULL_IN or REACQ to TRACKING within the time the state allows. A channel in PULL_IN that has not locked in
200 ms is freed, and one in REACQ after REACQ_WINDOW. -/
def execChannelLock (t : Nat) (channel : Fin 256) (locked : Bool) (s : State) : Out :=
  runRunning t s fun s =>
    let c := s.gnss.channels[channel]
    let age := s.now - c.enteredAt
    if c.state != 1 && c.state != 3 then s
    else if locked && decide (age ≤ s.gnss.stateLimit c) then
      let s := { s with gnss.channels := upd s.gnss.channels channel fun c =>
                          { c with state := 2, lockedAt := s.now, enteredAt := s.now },
                        gnss.jobs := s.gnss.jobs.filter fun j => j.channel != some channel.val }
      if lowerBand c.signal then s else { s with gnss.handovers := s.gnss.handovers ++ s.handoversFor c }
    else if s.gnss.stateLimit c ≤ age then s.freeChannel channel
    else s

/-- LOSS_OF_LOCK (R141): REACQ, SLIP in the next measurement, and a reacquisition at the head of the carousel. -/
def execLossOfLock (t : Nat) (channel : Fin 256) (s : State) : Out :=
  runRunning t s fun s =>
    let c := s.gnss.channels[channel]
    if c.state != 2 then s
    else
      let j : SearchJob := { c.job with channel := some channel.val }
      let front := s.gnss.jobs.takeWhile (·.kind == 0)
      { s with gnss.channels := upd s.gnss.channels channel fun c => { c with state := 3, slip := true, enteredAt := s.now },
               gnss.jobs := front ++ [j] ++ s.gnss.jobs.drop front.length }

/-- REACQ_WINDOW_EXPIRY (R141): a channel not back in TRACKING after REACQ_WINDOW is freed. -/
def execReacqWindowExpiry (t : Nat) (channel : Fin 256) (s : State) : Out :=
  runRunning t s fun s =>
    let c := s.gnss.channels[channel]
    if c.state == 3 && decide (s.gnss.reacqWindow.toNat * second ≤ s.now - c.enteredAt) then s.freeChannel channel else s

/-! ## Epochs (R132-R146, R153-R159) -/

/-- The front end of a signal on an antenna (R124). -/
def frontEndOf (signal : BitVec 8) (antenna : Nat) : Nat := 2 * antenna + (if lowerBand signal then 1 else 0)

/-- The distance in Hz of a notch from a signal's carrier: the centres of the bands are those of R124. -/
def notchDistance (signal k : BitVec 8) (n : Notch) : Int :=
  (if lowerBand signal then 1176450000 else 1588000000) + n.centre * 10 - (signalCarrier signal k : Int)

/-- NOTCH_NEAR (R148): an active notch within 1.023 MHz of an upper-band carrier, or 10.23 MHz of a lower-band one. -/
def GnssState.notchNear (g : GnssState) (c : Channel) : Bool :=
  let reach := if lowerBand c.signal then 10230000 else 1023000
  (at? g.frontEnds (frontEndOf c.signal c.antenna.toNat)).notches.any fun n =>
    n.active && decide ((notchDistance c.signal c.gloK n).natAbs ≤ reach)

/-- The delay in ns that is taken out of a channel's measurements: its front end's, and the group delay of that front end's active
notches (R146, R147). -/
def State.signalDelay (s : State) (c : Channel) : F64 :=
  let f := frontEndOf c.signal c.antenna.toNat
  ((at? s.gnss.frontEnds f).notches.toList.filter (·.active)).foldl (fun d n =>
    F64.add d (Config.notchDelay (notchDistance c.signal c.gloK n) n.depth.toNat)) (at? s.factory.feDelay f)

/-- TAI minus a system's time, ns: the nominal offsets of R156. SBAS time is GPS time (R259). -/
def State.nominalOffset (s : State) (sys : BitVec 8) : Int :=
  match sys.toNat with
  | 2 => 33 * 1000000000
  | 3 => (s.time.taiUtc - 10800) * 1000000000
  | _ => 19 * 1000000000

/-- The pseudorange (R146): c times the difference between RXT at the epoch and the transmit time, this carried to RXT's TAI scale by
the nominal offset of its system, so that whole seconds drop out and a sub-second offset of the system stays. -/
def State.pseudorange (s : State) (c : Channel) (m : MeasInput) : F64 :=
  let whole : Int := (s.gnss.rxt : Int) - (m.txTime + s.nominalOffset c.system)
  F64.mul metresPerNs (F64.sub (F64.sub (F64.ofInt whole) m.txFrac) (s.signalDelay c))

/-- The carrier phase (R146), moved with RXT by the milliseconds of R132. -/
def State.carrierPhase (s : State) (c : Channel) (m : MeasInput) : F64 :=
  let f := F64.ofNat (signalCarrier c.signal c.gloK)
  F64.sub (F64.add m.phase (F64.mul f (f64OfRat s.gnss.msShift 1000)))
    (F64.div (F64.mul f (s.signalDelay c)) (F64.ofNat 1000000000))

/-- PR_VALID (R140): TB2_UNCERTAINTY is below half the code period, or bit or secondary-code synchronisation was reached. -/
def State.codeResolved (s : State) (c : Channel) (m : MeasInput) : Bool :=
  m.bitSync || decide (2 * s.uncertainty 2 < (signalCode c.signal).1)

/-- A channel's time of continuous phase lock in 10 ms units (R145). -/
def State.lockTime (s : State) (c : Channel) : Nat := min 65535 ((s.now - c.lockedAt) / (10 * ms))

/-- MASKED (R141, R145): below ELEV_MASK or CN0_MASK. -/
def GnssState.masked (g : GnssState) (c : Channel) (cn0 : BitVec 16) : Bool :=
  F32.lt c.elevation g.elevMask || F32.lt (F32.div (F32.ofNat cn0.toNat) (F32.ofNat 100)) g.cn0Mask

/-- A measurement entry's FLAGS (R145): CP_VALID after 100 ms of phase lock (R140); an SBAS indication not to use a satellite counts
as unhealthy (R127). -/
def State.measFlags (s : State) (c : Channel) (m : MeasInput) : BitVec 16 :=
  BitVec.ofNat 16 (flagBit (s.codeResolved c m) 0 + flagBit (decide (100 * ms ≤ s.now - c.lockedAt)) 1 + flagBit m.halfCycle 2 +
    flagBit (c.slip || m.slip) 3 + flagBit (s.gnss.notchNear c) 4 + flagBit (m.unhealthy || m.doNotUse) 5 +
    flagBit (s.validEphemeris c.system c.sv) 6 + flagBit (s.gnss.masked c m.cn0) 7)

/-- The measurement entry of a channel in TRACKING (R145). -/
def State.measEntry (s : State) (m : MeasInput) : Option Meas :=
  let c := at? s.gnss.channels m.channel.toNat
  if c.state != 2 then none
  else some { system := c.system, sv := c.sv, signal := c.signal, antenna := c.antenna.setWidth 8, channel := m.channel,
              flags := s.measFlags c m, pseudorange := s.pseudorange c m, carrierPhase := s.carrierPhase c m,
              doppler := m.doppler, cn0 := m.cn0, lockTime := BitVec.ofNat 16 (s.lockTime c), prSigma := m.prSigma,
              cpSigma := m.cpSigma, gloK := if c.system == 3 then c.gloK else 0 }

/-- NOTCH_ACTIVE of the epoch header (R144). -/
def GnssState.notchMask (g : GnssState) : Nat :=
  (g.frontEnds.toList.zipIdx.map fun (f, i) =>
    (f.notches.toList.zipIdx.map fun (n, j) => flagBit n.active (4 * i + j)).sum).sum

/-- Take what the messages brought, and the elevations predicted from it: an orbit or a broadcast value replaces the one held. -/
def State.takeData (s : State) (x : EpochInput) : State :=
  let other (o : Orbit) (p : Orbit) : Bool := !(o.system == p.system && o.sv == p.sv)
  let g := s.gnss
  let eph := x.ephemerides.foldl (fun l e => l.filter (fun p => other e.1 p.1) ++ [(e.1, s.now + e.2)]) g.ephemerides
  let alm := x.almanacs.foldl (fun l o => l.filter (other o) ++ [o]) g.almanacs
  let elev := x.elevations.foldl (fun l e => l.filter (fun p => !(p.1 == e.1 && p.2.1 == e.2.1)) ++ [e]) g.elevations
  let bro := x.broadcast.foldl (fun l b => l.filter (fun p => !(p.1.system == b.system && p.1.reference == b.reference)) ++
    [(b, s.now)]) g.broadcast
  let g := { g with ephemerides := eph, almanacs := alm, elevations := elev, broadcast := bro }
  { s with gnss := { g with
      channels := g.channels.map fun c => { c with elevation := (g.told c.system c.sv).getD c.elevation },
      wanting := g.wanting.map fun j => { j with elevation := (g.told j.target.system j.target.sv).getD j.elevation } } }

/-- May a signal be tracked: its system, antenna and band are in use (R129, R161) and its satellite is not below the horizon (R141)? -/
def GnssState.keepsSignal (g : GnssState) (j : SearchJob) : Bool :=
  let id := j.target
  g.keeps { system := id.system, signal := id.signal, antenna := id.antenna } && !g.belowHorizon id.system id.sv

/-- Free the channels that lost their system, antenna or band, and those of satellites below the horizon (R129, R141, R161); the
signals that wait, or wait for a handover, go with them. Free channels then serve those that wait still (R142), and new handovers
start (R138). -/
def State.freeChannels (s : State) : State :=
  let g := s.gnss
  let s := { s with gnss.channels := g.channels.map fun (c : Channel) =>
      if c.state != 0 && !g.keepsSignal c.job then { c with state := 0, slip := false } else c,
                    gnss.wanting := (g.wanting.filter g.keepsSignal).foldr g.insertWanting [],
                    gnss.handovers := g.handovers.filter g.keepsSignal }
  (s.serveWanting 256).startHandovers

/-! ### The solution (R153, R156-R158) -/

/-- The system whose time a satellite keeps: SBAS keeps GPS time (R259). -/
def clockSystem (sys : Nat) : Nat := if sys = 4 then 0 else sys

/-- The satellites the solution may use: unmasked, healthy, with a valid pseudorange and an ephemeris, on either antenna (R153;
DEDUCED from R259, log 38). -/
def usableSats (meas : List Meas) : List (Nat × Nat) :=
  ((meas.filter fun m => m.flags.getLsbD 0 && !m.flags.getLsbD 5 && m.flags.getLsbD 6 && !m.flags.getLsbD 7).map fun m =>
    (m.system.toNat, m.sv.toNat)).eraseDups

/-- How many of some satellites keep a system's time. -/
def satsOf (sats : List (Nat × Nat)) (sys : Nat) : Nat := (sats.filter fun x => clockSystem x.1 == sys).length

/-- The broadcast offset of a system to a reference, decoded within 24 h (R157). -/
def State.broadcastOffset (s : State) (sys ref : Nat) : Option BroadcastOffset :=
  (s.gnss.broadcast.find? fun b => b.1.system.toNat == sys && b.1.reference.toNat == ref &&
    decide (s.now ≤ b.2 + 86400 * second)).map (·.1)

/-- SOURCE of a system's offset when `sats` are in the solution (R157). -/
def State.offsetSource (s : State) (ref : Nat) (estimated : List (F64 × F32)) (sats : List (Nat × Nat)) (sys : Nat) : Nat :=
  if sys = ref then 1
  else if 2 ≤ satsOf sats sys ∧ 5 ≤ sats.length ∧ sys < estimated.length then 1
  else if (s.broadcastOffset sys ref).isSome then 2
  else 0

/-- The satellites of the solution: a system without a known offset is left out (R157), which may leave another without one. -/
def State.solutionSats (s : State) (ref : Nat) (estimated : List (F64 × F32)) : Nat → List (Nat × Nat) → List (Nat × Nat)
  | 0, sats => sats
  | n + 1, sats => s.solutionSats ref estimated n
      (sats.filter fun x => s.offsetSource ref estimated sats (clockSystem x.1) != 0)

/-- The system whose time disciplines TB2, and the offset held for it (R156): TIME_SYSTEM while the solution holds one of its
satellites; else the next of GPS, Galileo, BeiDou and GLONASS that is enabled, has satellites and a known offset. A change adds the
offset of the new system to the old one, so that TB2 sees no jump; one that is not known adds none (log 38). -/
def GnssState.timeSystem (g : GnssState) (sats : List (Nat × Nat)) : BitVec 2 × F64 :=
  let has (n : Nat) := sats.any (·.1 == n)
  let cur := g.timeSystemInUse.toNat
  let known (n : Nat) := n == cur || (at? g.sysOffsets n).source != 0
  let want := bitsOf g.config.toNat 10 2
  let pick := if has want then some want else [0, 1, 2, 3].find? fun n => g.systemOn n && has n && known n
  match pick with
  | none => (g.timeSystemInUse, g.heldOffset)
  | some n =>
    if n == cur then (g.timeSystemInUse, g.heldOffset)
    else (BitVec.ofNat 2 n, if known n then F64.add g.heldOffset (at? g.sysOffsets n).offset else g.heldOffset)

/-- An entry of SYSTEM_OFFSETS (R157): the reference's own is zero with SOURCE 1, and one without a source is zero (log 38). -/
def State.sysOffset (s : State) (ref : Nat) (estimated : List (F64 × F32)) (sats : List (Nat × Nat)) (sys : Nat) : SysOffset :=
  let n := BitVec.ofNat 8 (sats.filter fun x => x.1 == sys).length
  match s.offsetSource ref estimated sats sys with
  | 1 => if sys = ref then { source := 1, sats := n }
         else { offset := (estimated.getD sys (0, 0)).1, sigma := (estimated.getD sys (0, 0)).2, source := 1, sats := n }
  | 2 => match s.broadcastOffset sys ref with
    | some b => { offset := b.offset, sigma := b.sigma, source := 2, sats := n }
    | none => { sats := n }
  | _ => { sats := n }

/-- The fix type of a solution from so many satellites (R153): 3D from four, 2D from three for at most 300 s after the last 3D
fix. -/
def State.fixOf (s : State) (solved : Bool) (n : Nat) : BitVec 3 :=
  if !solved || decide (n < 3) then 0
  else if 4 ≤ n then 3
  else match s.gnss.last3d with | some l => if s.now - l ≤ 300 * second then 2 else 0 | none => 0

/-- L of R158: the length of ANT_BASELINE. -/
def baselineLength (b : List F32) : F64 :=
  let sq (x : F32) := F64.mul (F64.of32 x) (F64.of32 x)
  F64.sqrt (b.foldl (fun a x => F64.add a (sq x)) 0)

/-- HEADING of an epoch (R158, R159): NONE without both antennas, a baseline or a solution; FIXED when integer ambiguities came with
it and the solved length agrees with the configured one; else FLOAT. Body x points at the baseline's azimuth less its angle in the
body frame, in [0, 2 pi). -/
def State.headingOf (s : State) (meas : List Meas) (b : Option BaselineInput) : GnssHeading :=
  let base := s.gnss.antBaseline.toList
  let len := baselineLength base
  let on (a : BitVec 8) := ((meas.filter (·.antenna == a)).map fun m => (m.system, m.sv)).eraseDups
  let common := ((on 0).filter (on 1).contains).length
  match b with
  | none => { tb3 := s.tb3, sats := BitVec.ofNat 8 common }
  | some x =>
    if !(s.gnss.antennaOn 0 && s.gnss.antennaOn 1) || F64.eq len 0 || common == 0 then { tb3 := s.tb3 }
    else
      let limit := F64.add (f64OfRat 2 100) (F64.mul (f64OfRat 2 1000) len)
      let fixed := x.ambiguities && F64.le (F64.abs (F64.sub (F64.of32 x.length) len)) limit
      let angle := F64.atan2 (F64.of32 (base.getD 1 0)) (F64.of32 (base.getD 0 0))
      { tb3 := s.tb3, heading := F64.wrap2Pi (F64.sub x.azimuth angle), elevation := x.elevation, sigma := x.sigma,
        length := x.length, state := if fixed then 2 else 1, sats := BitVec.ofNat 8 common }

/-- A new fix type: its events, and when a time solution began (R153). -/
def State.setFix (s : State) (f : BitVec 3) : State :=
  let old := s.gnss.fixType
  let s := { s with gnss.fixType := f, gnss.last3d := if f == 3 then some s.now else s.gnss.last3d,
                    gnss.lastSolution := if f == 0 then s.gnss.lastSolution else some s.now,
                    time.timeSolutionSince := if f == 0 then none
                      else some (s.time.timeSolutionSince.getD s.now) }
  if old == 0 && f != 0 then s.raiseN 24 f.toNat
  else if old != 0 && f == 0 then s.raiseN 25 f.toNat
  else s

/-- RXT against the solution's clock bias (R132): set once at the first fix, then moved by 1 ms when the bias exceeds
0.5 ms. The header of the next epoch, the first measured on the RXT so moved, flags it (R262, R264; log 38). -/
def State.moveRxt (s : State) (bias : F64) : State :=
  if !s.gnss.rxtFixed then
    { s with gnss.rxt := ((s.gnss.rxt : Int) + F64.nearest bias).toNat, gnss.rxtFixed := true, gnss.jumpFlags := 4 }
  else if F64.lt (F64.ofNat 500000) (F64.abs bias) then
    let step : Int := if F64.lt bias 0 then -1 else 1
    { s with gnss.rxt := ((s.gnss.rxt : Int) + step * 1000000).toNat, gnss.msShift := s.gnss.msShift + step,
             gnss.jumpFlags := if step < 0 then 3 else 1 }
  else s

/-- The UTC parameters of an epoch (R97, R155): those of the reference system's own message, for 7 days from their decoding. The three
objects of R97 take them when they come, and when TIME_SYSTEM names another system that has some. -/
def State.takeUtc (s : State) (u : List UtcParams) : State :=
  let held := u.foldl (fun l p => l.filter (fun q => q.1.system != p.system) ++ [(p, s.now)]) s.gnss.utcHeld
  let ref := BitVec.ofNat 2 (bitsOf s.gnss.config.toNat 10 2)
  let s := { s with gnss.utcHeld := held }
  match held.find? fun q => q.1.system == ref && decide (s.now ≤ q.2 + 7 * 86400 * second) with
  | none => { s with time.utcProvided := false, gnss.utcFrom := none }
  | some (p, _) =>
    let fresh := u.any (·.system == ref) || s.gnss.utcFrom != some ref
    let s := { s with time.utcProvided := true, gnss.utcFrom := some ref }
    if fresh then { s with time.taiUtc := p.taiUtc, time.leapNext := p.leapNext, time.leapAt := p.leapAt } else s

/-- The entries an epoch takes in the measurement FIFO: its header and its measurements (R143). -/
def epochEntries (e : Epoch) : Nat := 1 + e.meas.length

/-- The entries of the measurement FIFO that waiting samples take: an epoch counts once, however many points it is for. -/
def fifoEntries (l : List Sample) : Nat :=
  (((l.filterMap fun x => match x.val with | .epoch e _ _ => some (e.seq, epochEntries e) | _ => none).eraseDups).map (·.2)).sum

/-- The points an epoch's samples carry: every ANT point of the image that this member delivers (R73, R192, R518). -/
def State.antPoints (s : State) : List Nat :=
  match s.image.loaded with
  | some i => (i.points.filter fun p => p.kind == 7 && (p.member == 0xFF || p.member == s.me)).map (·.id)
  | none => []

/-- The bytes of an epoch header with a COUNT of its own (R144). -/
def epochHeaderBytes (e : Epoch) (count : Nat) : List Byte :=
  nat8 1 ++ be8 e.flags ++ nat16 count ++ be32 e.seq ++ nat64 e.rxt ++ nat64 e.tb2 ++ nat64 e.tb3 ++
    (e.jam.map be8).flatten ++ be16 e.notchActive ++ zeros 6

/-- The bytes of a measurement entry (R145). -/
def measBytes (m : Meas) : List Byte :=
  nat8 2 ++ be8 m.system ++ be8 m.sv ++ be8 m.signal ++ be8 m.antenna ++ be8 m.channel ++ be16 m.flags ++
    be64 m.pseudorange ++ be64 m.carrierPhase ++ be32 m.doppler ++ be16 m.cn0 ++ be16 m.lockTime ++ be32 m.prSigma ++
    be32 m.cpSigma ++ be8 m.gloK ++ zeros 3

/-- Cut a list into pieces of `n`, with fuel. -/
def chunksOf {α : Type} (n : Nat) : Nat → List α → List (List α)
  | 0, _ => []
  | _ + 1, [] => []
  | f + 1, l => l.take n :: chunksOf n f (l.drop n)

/-- The GNSS_RAW frames of an epoch for each subscription whose divider is due (R577, R580). -/
def State.sendRaw (s : State) (e : Epoch) : State :=
  let subs := s.qcp.subs.filter (·.stream == 4)
  let s := subs.foldl (fun s x =>
    if x.counter + 1 < x.divider then s
    else
      let sel := (x.select.headD 0)
      let kept := e.meas.filter fun m => sel.getLsbD m.antenna.toNat
      let n := if x.dtls.isSome then 30 else 31
      let parts := match chunksOf n (kept.length + 1) kept with | [] => [[]] | p => p
      parts.zipIdx.foldl (fun s (p, i) =>
        s.pushTele 4 0 (nat8 (i + 1) ++ nat8 parts.length ++ zeros 2 ++ epochHeaderBytes e kept.length ++
          (p.map measBytes).flatten) [x.handle]) s) s
  { s with qcp.subs := s.qcp.subs.map fun x =>
      if x.stream == 4 then { x with counter := if x.counter + 1 < x.divider then x.counter + 1 else 0 } else x }

/-- Is RXT on the epoch grid, far enough from the last epoch when EPOCH_OFFSET has changed (R133)? An instant gives one epoch: a
move of RXT by -1 ms does not repeat it, while the first fix may set RXT back (R132). -/
def State.epochDue (s : State) : Bool :=
  s.factory.optG && s.gnss.rxt % (50 * ms) == s.gnss.epochOffset.toNat * ms % (50 * ms) &&
    (match s.gnss.lastEpoch with | some l => decide (l < s.gnss.rxt) || s.gnss.jumpFlags == 4 | none => true) &&
    (match s.gnss.epochAt with
      | some a => decide (a < s.now) && (!s.gnss.offsetWritten || decide (a + 25 * ms ≤ s.now))
      | none => true)

/-- The epoch's header and entries (R144, R145). -/
def State.formEpoch (s : State) (meas : List Meas) : Epoch :=
  let flags := s.gnss.jumpFlags.toNat + flagBit s.gnss.tb2SteppedSince 3 + flagBit s.gnss.dropped 4
  { flags := BitVec.ofNat 8 flags, seq := BitVec.ofNat 32 s.gnss.epochSeq, rxt := s.gnss.rxt, tb2 := s.tb2, tb3 := s.tb3,
    jam := s.gnss.frontEnds.toList.map (fun f => BitVec.ofNat 8 f.jam), notchActive := BitVec.ofNat 16 s.gnss.notchMask,
    meas := meas }

/-- What the channels keep of an epoch's measurements: C/N0, whether they pass the masks, and SLIP delivered. -/
def State.seeMeasurements (s : State) (meas : List Meas) : State :=
  let seen (i : Nat) (c : Channel) : Channel :=
    match meas.find? (fun m => m.channel.toNat == i) with
    | some m => { c with slip := false, cn0 := BitVec.ofNat 8 (m.cn0.toNat / 100), pass := !(m.flags.getLsbD 7) }
    | none => c
  { s with gnss.channels := s.gnss.channels.mapIdx seen }

/-- The receiver's own solution (R153-R158): fix, PVT, offsets and time system; in 2D the height is the last 3D one. -/
def State.solve (s : State) (x : EpochInput) (meas : List Meas) : State :=
  let usable := usableSats meas
  let (sys, held) := s.gnss.timeSystem usable
  let sats := s.solutionSats sys.toNat x.estimated 4 usable
  let f := s.fixOf x.solved sats.length
  let used := if f == 0 then [] else sats
  let s := s.setFix f
  let height := if f == 2 then s.gnss.height3d else x.pvt.height
  let pvt := { x.pvt with tb3 := s.tb3, tb2 := s.tb2, fixType := f.setWidth 8, sats := BitVec.ofNat 8 used.length,
                          antenna := BitVec.ofNat 8 s.gnss.primary,
                          systems := BitVec.ofNat 8 (maskOf ((List.range 5).map fun n => used.any (·.1 == n))),
                          height := height }
  { s with gnss.pvt := pvt, gnss.satsInFix := min 127 used.length, gnss.height3d := if f == 3 then height else s.gnss.height3d,
           gnss.heading := s.headingOf meas x.baseline,
           gnss.timeSystemInUse := if f == 0 then s.gnss.timeSystemInUse else sys,
           gnss.heldOffset := if f == 0 then s.gnss.heldOffset else held,
           gnss.sysOffsets := .ofFn fun i =>
             s.sysOffset (if f == 0 then s.gnss.timeSystemInUse.toNat else sys.toNat) x.estimated used i }

/-- The receiver's part of an epoch: data, channels, measurements, solution, RXT. Answers the epoch and whether the FIFO has room for
it (R143). -/
def State.takeEpoch (s : State) (x : EpochInput) : State × Epoch × Bool :=
  let s := (s.takeData x).freeChannels
  let meas := (x.meas.filterMap s.measEntry).take 256
  let e := s.formEpoch meas
  let fits := decide (fifoEntries s.gnss.fifo + epochEntries e ≤ 512)
  let s := (s.seeMeasurements meas).solve x meas
  let s := { s with gnss.epochSeq := (s.gnss.epochSeq + 1) % 2 ^ 32, gnss.lastEpoch := some e.rxt, gnss.epochAt := some s.now,
                    gnss.offsetWritten := false, gnss.dropped := !fits, gnss.tb2SteppedSince := false, gnss.jumpFlags := 0 }
  let s := if s.gnss.fixType == 0 then s else s.moveRxt x.pvt.clockBias
  (s.takeUtc x.utc, e, fits)

/-- TB2 against the receiver's time solution: the time of the system in use is RXT plus the clock bias, less the offset held for it
(R132, R156). -/
def State.disciplineTb2 (s : State) (rxtAt : Nat) (bias : F64) : State :=
  if s.time.tb2Source == 0 && s.gnss.fixType != 0 then
    s.measure 2 ((rxtAt : Int) + F64.nearest (F64.sub bias s.gnss.heldOffset) - s.tb2)
  else s

/-- GNSS_EPOCH (R133): the epoch is delivered whole or dropped (R143, R44); PVT, HEADING and TB2 follow. -/
def execGnssEpoch (t : Nat) (input : EpochInput) (s : State) : Out :=
  runRunning t s fun s =>
    if !s.epochDue then s
    else
      let (s, e, fits) := s.takeEpoch input
      let s := s.disciplineTb2 e.rxt input.pvt.clockBias
      let s := s.sendRaw e
      if !fits then s.raise 30
      else
        s.arriveEpoch (s.antPoints.map fun p =>
          { point := p, member := s.me, stamp := e.tb3, val := .epoch e s.gnss.pvt s.gnss.heading })

/-! ## Interference (R147-R152) -/

/-- LIMIT's parameters for a notch (R629). -/
def State.notchLimit (s : State) (fe : Nat) (notch : Nat) (upper : Bool) (bound held : Int) : State :=
  s.raise 122 (BitVec.ofNat 32 (flagBit upper 8 + 3)) (BitVec.ofNat 32 (0x10 + fe + notch * 256))
    (F32.ofInt (bound * 10)) (F32.ofInt (held * 10))

/-- The window of a front end in 10 Hz steps. -/
def FrontEnd.lo (f : FrontEnd) : Int := f.windowLo * 1000
/-- See `FrontEnd.lo`. -/
def FrontEnd.hi (f : FrontEnd) : Int := f.windowHi * 1000

/-- The peak of a notch in a new spectrum: the strongest within 55 kHz, half a notch's width and the 5 kHz it may move in 1 ms, of
where its peak stood in the last one (DESIGN CHOICE, log 38: R147 does not say how a peak is told from another). -/
def followedPeak (peaks : List Peak) (at_ : Int) : Option Peak :=
  (peaks.filter fun p => decide ((p.centre - at_).natAbs ≤ 5500)).foldl
    (fun b p => match b with | none => some p | some q => if q.level < p.level then some p else b) none

/-- One active notch against a spectrum (R147, R149): it follows its peak by at most 5 kHz, held inside the window, and is released
when the peak has stayed below NOTCH_THRESHOLD - 3 dB for 100 ms. -/
def moveNotch (f : FrontEnd) (peaks : List Peak) (now : Nat) (n : Notch) : Notch :=
  if !n.active then n
  else
    let found := followedPeak peaks n.peakAt
    let low := match found with | some p => decide (p.level + 3 < f.notchThreshold.toNat) | none => true
    let since := if low then some (n.belowSince.getD now) else none
    if (match since with | some t => decide (100 * ms ≤ now - t) | none => false) then {}
    else
      let peak := match found with | some p => p.centre | none => n.centre
      let want := n.centre + max (-500) (min 500 (peak - n.centre))
      let c := max f.lo (min f.hi want)
      { n with centre := c, atLimit := c != want || (n.atLimit && found.isNone), belowSince := since,
               peakAt := match found with | some p => p.centre | none => n.peakAt,
               depth := match found with
                 | some p => BitVec.ofNat 6 (max n.depth.toNat (min 40 (p.level - 3)))
                 | none => n.depth }

/-- Insert a peak, strongest first. -/
def insertPeak (p : Peak) : List Peak → List Peak
  | [] => [p]
  | x :: rest => if x.level < p.level then p :: x :: rest else x :: insertPeak p rest

/-- LIMIT for a peak that gets no notch (R149, R629): the bound it lies beyond. -/
def State.refusePeak (s : State) (fe : Nat) (p : Peak) (inside : Bool) : State :=
  let f := at? s.gnss.frontEnds fe
  let upper := inside || decide (f.hi < p.centre)
  let bound : Int := if inside then f.notchMax.toNat else if upper then f.hi * 10 else f.lo * 10
  s.raise 122 (BitVec.ofNat 32 (flagBit upper 8 + 3)) (BitVec.ofNat 32 (0x10 + fe)) (F32.ofInt bound)
    (F32.ofInt (if inside then f.notchMax.toNat else p.centre * 10))

/-- Give a new peak a notch; outside the window or beyond NOTCH_MAX it gets none and raises LIMIT once, at the spectrum that first shows
it (R149). `known` says that an earlier spectrum showed it. -/
def State.newPeak (s : State) (fe : Nat) (known : Bool) (p : Peak) : State :=
  let f := at? s.gnss.frontEnds fe
  let inside := decide (f.lo ≤ p.centre) && decide (p.centre ≤ f.hi)
  let used := (f.notches.toList.filter (·.active)).length
  let set (g : FrontEnd → FrontEnd) : State := { s with gnss.frontEnds := upd s.gnss.frontEnds fe g }
  match (if inside && decide (used < f.notchMax.toNat) then f.notches.toList.findIdx? (!·.active) else none) with
  | some i => set fun f => { f with notches := upd f.notches i fun _ =>
      { active := true, centre := p.centre, peakAt := p.centre, depth := BitVec.ofNat 6 (min 40 (p.level - 3)) } }
  | none =>
    let s := set fun f => { f with refused := f.refused ++ [p.centre] }
    if known then s else s.refusePeak fe p inside

/-- NOTCH_SPECTRUM (R147, R149). LIMIT is raised when a peak's drift brings its notch to an edge; a notch that a write to the window
left outside moves to the edge and sets AT_LIMIT. -/
def execNotchSpectrum (t : Nat) (frontEnd : Fin 4) (peaks : List Peak) (s : State) : Out :=
  runRunning t s fun s =>
    if !s.factory.optG then s
    else
      let f := s.gnss.frontEnds[frontEnd]
      let moved := f.notches.toList.map (moveNotch f peaks s.now)
      let taken := (f.notches.toList.filter (·.active)).filterMap fun n => followedPeak peaks n.peakAt
      let s := { s with gnss.frontEnds := upd s.gnss.frontEnds frontEnd fun f =>
          { f with notches := f.notches.mapIdx fun i n => (moved[i]?).getD n, refused := [] } }
      let s := (moved.zip f.notches.toList).zipIdx.foldl (fun s ((n, old), i) =>
        if n.atLimit && !old.atLimit && decide (f.lo ≤ old.centre) && decide (old.centre ≤ f.hi) then
          s.notchLimit frontEnd i (n.centre == f.hi) n.centre n.centre
        else s) s
      let fresh := (peaks.filter fun p => decide (f.notchThreshold.toNat ≤ p.level) && !taken.contains p).foldr insertPeak []
      fresh.foldl (fun s p => s.newPeak frontEnd (f.refused.any fun r => decide ((p.centre - r).natAbs ≤ 5500)) p) s

/-- J of R150. -/
def jamIndex (p p0 : F32) : Nat :=
  let x := F32.nearest (F32.mul (F32.div (F32.ofNat 5) (F32.ofNat 2)) (F32.sub p p0))
  min 100 x.toNat

/-- JAM_UPDATE (R150, R151): the source asserts on a rise to the threshold and on a fall below it less 10. -/
def execJamUpdate (t : Nat) (frontEnd : Fin 4) (power : F32) (s : State) : Out :=
  runRunning t s fun s =>
    if !s.factory.optG then s
    else
      let f := s.gnss.frontEnds[frontEnd]
      let j := jamIndex power s.factory.jamP0[frontEnd]
      let th := f.jamThreshold.toNat
      let rise := decide (th ≠ 0) && !f.jamHigh && decide (th ≤ j)
      let fall := decide (th ≠ 0) && f.jamHigh && decide (j + 10 < th)
      let s := { s with gnss.frontEnds := upd s.gnss.frontEnds frontEnd fun f =>
          { f with jam := j, jamHigh := (f.jamHigh || rise) && !fall } }
      if rise then s.raiseN (26 + frontEnd) (j + 256) else if fall then s.raiseN (26 + frontEnd) j else s

/-! ## Antenna supplies (R131) and restarts of the receiver (R161) -/

/-- STATUS changes: source 31; how parameter 0 packs the antenna and the new STATUS is a free value (log 6). CURRENT shows 0 to 150 mA,
and nothing flows through a supply that is off. -/
def State.setSupply (s : State) (a : Nat) (status : BitVec 2) (current : BitVec 16) : State :=
  let old := (at? s.gnss.supplies a).status
  let shown : BitVec 16 := if status == 0 || status == 3 then 0 else BitVec.ofNat 16 (min 150 current.toNat)
  let s := { s with gnss.supplies := upd s.gnss.supplies a fun x => { x with status := status, current := shown } }
  if old == status then s else s.raise 31 (Config.antSupplyParam a status.toNat)

/-- Antenna `a`'s supply switches on or off, or tries again, now. -/
def State.supplySwitched (s : State) (a : Nat) : State :=
  { s with gnss.supplies := upd s.gnss.supplies a fun x => { x with switchedAt := s.now } }

/-- OK, OPEN or, beyond 100 mA, SHORT by the measured current. -/
def supplyStatus (current : BitVec 16) : BitVec 2 :=
  if 100 < current.toNat then 3 else if current.toNat < 5 then 2 else 1

/-- ANT_SUPPLY_SHORT (R131): a supply that has carried more than 100 mA for 10 ms, and so has been on as long, switches off. -/
def execAntSupplyShort (t : Nat) (antenna : Fin 2) (current : BitVec 16) (s : State) : Out :=
  runPowered t s fun s =>
    let x := s.gnss.supplies[antenna]
    if s.factory.optG && x.en && x.status != 3 && decide (100 < current.toNat) && decide (10 * ms ≤ s.now - x.switchedAt) then
      (s.setSupply antenna 3 current).supplySwitched antenna
    else s

/-- ANT_SUPPLY_RETRY (R131): the supply tries again, once every 1 s; still above 100 mA it stays in SHORT. -/
def execAntSupplyRetry (t : Nat) (antenna : Fin 2) (current : BitVec 16) (s : State) : Out :=
  runPowered t s fun s =>
    let x := s.gnss.supplies[antenna]
    if s.factory.optG && x.en && x.status == 3 && decide (second ≤ s.now - x.switchedAt) then
      (s.setSupply antenna (supplyStatus current) current).supplySwitched antenna
    else s

/-- ANT_SUPPLY_OPEN (R131): a current of a supply that is on: OPEN below 5 mA, OK above. -/
def execAntSupplyOpen (t : Nat) (antenna : Fin 2) (current : BitVec 16) (s : State) : Out :=
  runPowered t s fun s =>
    let x := s.gnss.supplies[antenna]
    if s.factory.optG && x.en && x.status != 3 then
      s.setSupply antenna (if current.toNat < 5 then 2 else 1) current
    else s

/-- The carousel's searches end and begin anew: reacquisitions alone go on. -/
def State.dropSearches (s : State) : State :=
  { s with gnss.jobs := s.gnss.jobs.filter (·.kind == 0), gnss.predictions := [],
           gnss.engines := s.gnss.engines.map fun e => match e with | some j => if j.kind == 0 then e else none | none => none }

/-- Every channel, and every job that would bring one, is dropped. -/
def State.clearTracking (s : State) : State :=
  { s with gnss.channels := .replicate 256 {}, gnss.jobs := [], gnss.engines := .replicate 8 none, gnss.handovers := [],
           gnss.wanting := [], gnss.predictions := [] }

/-- The write of GNB_RESTART (R128, R161): 1 discards the ephemerides, so that searches are WARM; 2 all receiver data, so that the
receiver is as at power-on and every search is COLD (log 38). -/
def State.gnbRestart (s : State) (kind : Nat) : State :=
  if kind = 1 then { s with gnss.ephemerides := [] }.dropSearches
  else
    { s with gnss.ephemerides := [], gnss.almanacs := [], gnss.elevations := [], gnss.broadcast := [], gnss.utcHeld := [],
             gnss.utcFrom := none, gnss.sysOffsets := .replicate 4 default, gnss.heldOffset := 0, gnss.last3d := none,
             time.utcProvided := false }.clearTracking

/-- GNB starts (R132, R144, R161): RXT takes TB2, every channel is free, EPOCH_SEQ counts anew. -/
def State.gnbStart (s : State) : State :=
  { s with gnss.rxt := s.tb2, gnss.rxtFixed := false, gnss.epochSeq := 0, gnss.lastEpoch := none, gnss.epochAt := none,
           gnss.jumpFlags := 0, gnss.msShift := 0, gnss.dropped := false, gnss.fifo := [], gnss.fixType := 0,
           gnss.satsInFix := 0, gnss.heading := {}, time.timeSolutionSince := none }.clearTracking

end Sys2Proof.Machine
end

