-- ==== Sys2Proof/Machine/Update.lean ====
section
/-! DEFINITION. The update transfer, the extension store and its verification (spec/18_ageing_and_field_update.md,
R630-R642). -/

namespace Sys2Proof.Machine

/-! ## The transfers (R630-R635) -/

/-- The size of a chunk. -/
def chunkSize : Nat := 4096
/-- CHUNKS: chunks of a transfer of a length. -/
def Transfer.total (x : Transfer) : Nat := (x.length + chunkSize - 1) / chunkSize
/-- The bytes chunk `c` holds (R632). -/
def Transfer.sizeOf (x : Transfer) (c : Nat) : Nat := min chunkSize (x.length - chunkSize * c)
/-- Is chunk `c` written? -/
def Transfer.has (x : Transfer) (c : Nat) : Bool := x.chunks.any (·.1 == c)
/-- The image as stored. -/
def Transfer.image (x : Transfer) : List Byte :=
  (List.range x.total).flatMap fun c => match x.chunks.find? (·.1 == c) with | some p => p.2 | none => zeros (x.sizeOf c)
/-- CHUNKS_DONE. -/
def Transfer.doneCount (x : Transfer) : Nat := x.chunks.length

/-- The transfer of a target. -/
def UpdateState.transfer (u : UpdateState) (target : Nat) : Transfer := if target = 1 then u.ext else u.struct
/-- Set the transfer of a target. -/
def State.setTransfer (s : State) (target : Nat) (x : Transfer) : State :=
  if target = 1 then { s with update.ext := x } else { s with update.struct := x }
/-- The largest image of a target (R630). -/
def largestImage (target : Nat) : Nat := if target = 1 then 32 * 2 ^ 20 else 16 * 2 ^ 20

/-- The state of a target's transfer as R642 lists it: a pending activation shows in target 1's. -/
def UpdateState.shown (u : UpdateState) (target : Nat) : Nat :=
  if target = 1 then match u.activation with
    | some (_, false) => 5
    | some (_, true) => 6
    | none => u.ext.state.toNat
  else u.struct.state.toNat

/-- UPDATE_OPEN (R631). -/
def State.updateOpen (target id length crc : Nat) (s : State) : Done :=
  if target ≠ 1 ∧ target ≠ 2 then refuse .badValue s
  else if length = 0 ∨ id = 0 then refuse .badValue s
  else if largestImage target < length then refuse .noSpace s
  else if (target == 2 && s.image.verifying.isSome) ||
      (target == 1 && (match s.update.activation with | some (_, now) => now | none => false)) then refuse .busy s
  else
    let x := s.update.transfer target
    let answer (x : Transfer) (resumed : Bool) (s : State) : Done :=
      { state := s, body := nat32 x.total ++ nat32 x.doneCount ++ nat8 (flagBit resumed 0) ++ zeros 3 }
    if x.id.toNat = id ∧ x.length = length ∧ x.crc.toNat = crc ∧ x.state != 4 then
      let x := if x.state == 2 then { x with state := 1 } else x
      answer x true (s.setTransfer target x)
    else
      let x : Transfer := { id := BitVec.ofNat 32 id, length := length, crc := BitVec.ofNat 32 crc, state := 1 }
      let s := { s with update.area := s.update.area.filter fun e => e.target != target }
      let s := if target = 1 then { s with update.fallback := none, update.activation := none } else { s with image.pending := {} }
      answer x false (s.setTransfer target x)

/-- UPDATE_OPEN (R631). -/
def execUpdateOpen (t : Nat) (req : Request) (target : BitVec 8) (id length crc : Word) (s : State) : Out :=
  runHost t s fun s =>
    s.serve req 0x40 (be8 target ++ zeros 3 ++ be32 id ++ be32 length ++ be32 crc) (some (0, [])) fun s =>
      s.updateOpen target.toNat id.toNat length.toNat crc.toNat

/-- Every part of an entry is held. -/
def PartsEntry.whole (e : PartsEntry) : Bool := decide (0 < e.count) && (List.range e.count).all fun i => e.parts.any (·.1 == i)
/-- The chunk of an entry. -/
def PartsEntry.data (e : PartsEntry) : List Byte :=
  (List.range e.count).flatMap fun i => match e.parts.find? (·.1 == i) with | some p => p.2 | none => []

/-- UPDATE_CHUNK (R632). RESULT 1 is answered when the last part arrives and the CRC matches; CHUNK_WRITTEN marks the chunk
within 2 ms (log 29). -/
def State.updateChunk (id chunk part parts crc : Nat) (data : List Byte) (s : State) : Done :=
  let u := s.update
  let held (x : Transfer) : Bool := x.id.toNat == id && x.id != 0
  match (if held u.ext then some 1 else if held u.struct then some 2 else none) with
  | none => refuse .badValue s
  | some target =>
    let x := u.transfer target
    let count := (x.sizeOf chunk + 1023) / 1024
    let size := min 1024 (x.sizeOf chunk - 1024 * part)
    if x.state == 2 then refuse .wrongMode s
    else if target == 2 && s.image.verifying.isSome then refuse .busy s
    else if x.total ≤ chunk ∨ 3 < part ∨ parts ≠ count ∨ count ≤ part ∨ data.length ≠ size then refuse .badValue s
    else
      let answer (result : Nat) (extra : Nat) (s : State) : Done :=
        { state := s, body := nat32 id ++ nat32 chunk ++ nat8 result ++ zeros 3 ++ nat32 (x.doneCount + extra) }
      if x.has chunk then answer 2 0 s
      else
        let mine (e : PartsEntry) : Bool := e.target == target && e.chunk == chunk
        let old := (u.area.find? mine).getD { target := target, chunk := chunk, count := count, startedAt := s.now }
        let new := { old with crc := BitVec.ofNat 32 crc, parts := (old.parts.filter (·.1 != part)) ++ [(part, data)] }
        let others := u.area.filter fun e => !mine e
        let room := if u.area.length < 32 then u.area else u.area.drop 1
        let area := if u.area.any mine then u.area.map fun e => if mine e then new else e else room ++ [new]
        if !new.whole then answer 0 0 { s with update.area := area }
        else if crc32c new.data != new.crc then answer 3 0 { s with update.area := others }
        else answer 1 1 { s with update.area := area }

/-- UPDATE_CHUNK (R632). -/
def execUpdateChunk (t : Nat) (req : Request) (id chunk : Word) (part parts : BitVec 8) (crc : Word) (data : List (BitVec 8))
    (s : State) : Out :=
  runHost t s fun s =>
    s.serve req 0x41 (be32 id ++ be32 chunk ++ be8 part ++ be8 parts ++ nat16 data.length ++ be32 crc ++ data) (some (0, [])) fun s =>
      s.updateChunk id.toNat chunk.toNat part.toNat parts.toNat crc.toNat data

/-- CHUNK_WRITTEN (R632, R633): `target` true names the structure image. -/
def execChunkWritten (t : Nat) (target : Bool) (chunk : Nat) (s : State) : Out :=
  runRunning t s fun s =>
    let n := if target then 2 else 1
    match s.update.area.find? fun e => e.target == n && e.chunk == chunk && e.whole with
    | none => s
    | some e =>
      let x := s.update.transfer n
      if s.power.noNvWrites || x.state == 2 then s
      else
        let x := { x with chunks := x.chunks ++ [(chunk, e.data)] }
        let s := { s with update.area := s.update.area.filter fun e => !(e.target == n && e.chunk == chunk) }
        let s := (s.setTransfer n x).raiseN 118 n (some chunk) (some x.doneCount)
        if x.doneCount < x.total then s
        else
          let image := x.image
          let ok := crc32c image == x.crc
          let s := s.setTransfer n { x with state := if ok then 3 else 4 }
          let s := if n = 2 then { s with image.pending := { bytes := image } } else s
          if ok then s.raise 119 else s

/-- CHUNK_PARTS_EXPIRY (R632). -/
def execChunkPartsExpiry (t : Nat) (s : State) : Out :=
  runRunning t s fun s =>
    let old (e : PartsEntry) : Bool := !e.whole && decide (e.startedAt + 60 * second ≤ s.now)
    { s with update.area := s.update.area.filter fun e => !old e }

/-- A byte of the chunk bitmap, bit 7 for chunk `c` (R634). -/
def Transfer.bitmapByte (x : Transfer) (c : Nat) : Byte :=
  BitVec.ofNat 8 ((List.range 8).map fun i => flagBit (x.has (c + i)) (7 - i)).sum

/-- UPDATE_QUERY (R634). -/
def State.updateQuery (target first : Nat) (s : State) : Done :=
  if (target ≠ 1 ∧ target ≠ 2) ∨ first % 8 ≠ 0 then refuse .badValue s
  else
    let x := s.update.transfer target
    let bytes := min 1024 ((x.total - first + 7) / 8)
    { state := s,
      body := be32 x.id ++ nat32 x.length ++ be32 x.crc ++ nat32 x.total ++ nat32 x.doneCount ++ nat8 (s.update.shown target) ++
        zeros 3 ++ nat32 first ++ (List.range bytes).map fun i => x.bitmapByte (first + 8 * i) }

/-- UPDATE_QUERY (R634). -/
def execUpdateQuery (t : Nat) (req : Request) (target : BitVec 8) (first : Word) (s : State) : Out :=
  runHost t s fun s =>
    s.serve req 0x42 (be8 target ++ zeros 3 ++ be32 first) (some (0, [])) fun s => s.updateQuery target.toNat first.toNat

/-- ABORT of UPDATE_STATUS (R635): every open transfer stops; the bitmap is kept. -/
def State.stopTransfers (s : State) : State :=
  let stop (x : Transfer) : Transfer := if x.state == 1 then { x with state := 2 } else x
  { s with update.ext := stop s.update.ext, update.struct := stop s.update.struct, update.area := [] }
/-- Is a transfer open? -/
def State.transferring (s : State) : Bool := s.update.ext.state == 1 || s.update.struct.state == 1

/-! ## Extension images (R636-R639) -/

/-- BUILD, SEC_VERSION and LENGTH of an image in a bank. -/
def ExtImage.info : ExtImage → List Byte
  | .delivered => be32 Config.deliveredBuild ++ be32 Config.deliveredVersion ++ be32 Config.deliveredLength
  | .bytes b => sliceAt b 12 4 ++ sliceAt b 16 4 ++ sliceAt b 8 4
/-- SEC_FLOOR of an image. -/
def ExtImage.floor : ExtImage → Nat
  | .delivered => 0
  | .bytes b => fieldAt b 20 4
/-- SEC_VERSION of an image. -/
def ExtImage.version : ExtImage → Nat
  | .delivered => Config.deliveredVersion.toNat
  | .bytes b => fieldAt b 16 4
/-- Does an image restore retained blocks of VERSION 1 (R636)? -/
def ExtImage.retains : ExtImage → Bool
  | .delivered => true
  | .bytes b => decide (fieldAt b 24 2 ≤ 1) && decide (1 ≤ fieldAt b 26 2)

/-- The checks of R638, in order: the first that fails. The image of manufacture passes 1 to 3 (log 3). -/
def State.verifyExt (s : State) (x : ExtImage) (handover : Bool) : Option Nat :=
  let form := match x with
    | .delivered => none
    | .bytes b =>
      if b.length < 208 ∨ fieldAt b 0 4 ≠ 0x51455854 ∨ fieldAt b 4 2 ≠ 1 ∨ fieldAt b 8 4 ≠ b.length then some 1
      else if sliceAt b 64 48 ≠ sha384 s.factory.releaseKey then some 2
      else if !ecdsaVerify s.factory.releaseKey (sha384 (b.take 112 ++ b.drop 208)) (sliceAt b 112 96) then some 3
      else none
  match form with
  | some c => some c
  | none =>
    if x.version < s.trust.floor.toNat then some 4
    else if handover && !x.retains then some 5
    else none

/-- The image a pending activation names: the STAGED one, or the fallback. -/
def State.activationImage (s : State) (fallback : Bool) : Option ExtImage :=
  if fallback then s.update.fallback
  else if s.update.ext.state == 3 then some (.bytes s.update.ext.image) else none

/-- The banks exchange: the image named becomes ACTIVE, the old ACTIVE the fallback, and the floor rises (R638). -/
def State.exchangeBanks (s : State) (x : ExtImage) : State :=
  { s with update.active := x, update.fallback := some s.update.active, update.activeBank := !s.update.activeBank,
           update.activation := none, update.ext := {}, update.lastVerifyFail := false,
           trust.floor := if s.trust.floor.toNat < x.floor then BitVec.ofNat 32 x.floor else s.trust.floor }

/-- Step 3 of a cold start, or step 4 of a restart with state handover: a pending activation is verified (R638). -/
def State.activatePending (handover : Bool) (s : State) : State :=
  match s.update.activation with
  | none => s
  | some (fallback, _) =>
    match s.activationImage fallback with
    | none => { s with update.activation := none }
    | some x =>
      match s.verifyExt x handover with
      | none => s.exchangeBanks x
      | some c => { s with update.activation := none, update.lastVerifyFail := true }.raiseN 120 0 (some c)

/-- The ACTIVE image is verified at a start, and the fallback runs in its place when it fails (R639). Answers whether an
image can run. -/
def State.verifyActive (handover : Bool) (s : State) : Bool × State :=
  match s.verifyExt s.update.active handover with
  | none => (true, { s with update.rolledBack := false })
  | some c =>
    let s := s.raiseN 120 1 (some c)
    match s.update.fallback with
    | some x =>
      match s.verifyExt x handover with
      | none => (true, { s with update.rolledBack := true, update.active := x, update.fallback := some s.update.active,
                                update.activeBank := !s.update.activeBank })
      | some _ => (false, s)
    | none => (false, s)

/-! ## Restarts asked for (R478, R511) -/

/-- A requested restart with state handover waits for the next command instant; a LEAD with an in-step successor yields at it,
naming an instant 50 us away or more (R478, R509, R511). -/
def State.planRestart (s : State) (kind : RestartKind) : State :=
  let instant := s.commandInstantFrom (s.tb3 + 50 * us)
  let s := { s with modes.restartPending := some kind, modes.restartInstant := instant }
  match (if s.group.role == .lead then s.successor else none) with
  | some m => (s.yieldTo m instant).setRole .alone 3
  | none => s

/-- IMAGE_STATE (R63). -/
def State.imageState (s : State) : Nat := if s.image.verifying.isSome then 2 else if s.hasStructure then 1 else 0

/-- UPDATE_ACTIVATE (R637). -/
def State.updateActivate (target source when_ id crc : Nat) (s : State) : Done :=
  let u := s.update
  let staged := u.ext.state == 3 && u.ext.id.toNat == id && u.ext.crc.toNat == crc
  let present := if source = 0 then staged else u.fallback.isSome && decide (id = 0) && decide (crc = 0)
  if target ≠ 1 ∨ 1 < source ∨ 2 < when_ ∨ !present then refuse .badValue s
  else match when_ with
    | 0 =>
      let cancel := s.modes.restartPending == some .update
      done { s with update.activation := none, modes.restartPending := if cancel then none else s.modes.restartPending }
    | 1 => done { s with update.activation := some (source == 1, false) }
    | _ =>
      let out := s.contacts.any fun m => !(s.inStepPeers.contains m)
      let retains := match s.activationImage (source == 1) with | some x => x.retains | none => false
      if s.imageState ≠ 1 then refuse .wrongMode s
      else if out then refuse .busy s
      else if !retains then refuse .version s
      else done ({ s with update.activation := some (source == 1, true) }.planRestart .update)

/-- UPDATE_ACTIVATE (R637). -/
def execUpdateActivate (t : Nat) (req : Request) (target source when_ : BitVec 8) (id crc : Word) (s : State) : Out :=
  runHost t s fun s =>
    s.serve req 0x43 (be8 target ++ be8 source ++ be8 when_ ++ [0] ++ be32 id ++ be32 crc) (some (0, [])) fun s =>
      s.updateActivate target.toNat source.toNat when_.toNat id.toNat crc.toNat

/-! ## Objects of island 0x0E (R640, R642, R674) -/

/-- UPDATE_STATUS (R642). -/
def State.updateStatus (s : State) : Nat :=
  s.update.shown 1 * 2 ^ 28 + s.update.shown 2 * 2 ^ 24 + flagBit s.update.fallback.isSome 19 + flagBit s.update.rolledBack 18 +
    flagBit s.update.lastVerifyFail 17 + flagBit s.update.activeBank 16

/-- UPDATE_INFO (R640). -/
def State.updateInfo (s : State) : List Byte :=
  s.update.active.info ++ (match s.update.fallback with | some x => x.info | none => zeros 12) ++ be32 s.trust.floor ++
    be32 s.update.ext.id ++ be32 s.update.struct.id ++ zeros 4

end Sys2Proof.Machine
end

