-- ==== Sys2Proof/Machine/Registers.lean ====
section
/-! DEFINITION. The objects of the time bases (R95-R119), of the receiver (R128-R159) and of the analog inputs
(R184-R186), as a host reads and writes them, with the commands that are writes or reads of one of them. -/

namespace Sys2Proof.Machine

/-! ## TIM: island 0x02 -/

/-- Change a capture unit. -/
def State.setCapture (s : State) (m : Nat) (f : CaptureUnit → CaptureUnit) : State :=
  { s with field.captures := upd s.field.captures m f }

/-- CAPm_CONFIG (R107): what the unit has caught stays, extended on the base it was caught on. -/
def State.captureConfig (s : State) (m n : Nat) : Done :=
  let input := bitsOf n 8 8
  checkValue (decide (n < 2 ^ 16) && bitsOf n 6 2 == 0 && bitsOf n 1 1 == 0 && decide (input ≤ 0x28)) s fun _ =>
    done (s.setCapture m fun c =>
      { c.drain (at? s.time.tb c.base.toNat).count with
          input := BitVec.ofNat 8 input, base := BitVec.ofNat 2 (bitsOf n 4 2), edge := BitVec.ofNat 2 (bitsOf n 2 2),
          en := bitOf n 0 })

/-- CAPm_CONFIG as read. -/
def CaptureUnit.word (c : CaptureUnit) : Nat :=
  c.input.toNat * 256 + c.base.toNat * 16 + c.edge.toNat * 4 + flagBit c.en 0

/-- CAPm_DATA (R108): count, overruns, and up to 8 stamps; the stamps go and the overrun count clears. -/
def State.readCapture (s : State) (m : Nat) : ReadResult :=
  let c := at? s.field.captures m
  let d := c.drain (at? s.time.tb c.base.toNat).count
  readAs (nat32 d.stamps.length ++ nat32 d.overrun ++ (d.stamps.map nat64).flatten ++ zeros (8 * (8 - d.stamps.length)))
    (s.setCapture m fun _ => { d with stamps := [], overrun := 0 })

/-- CMPm_CONFIG (R110): ACTION 1 needs a WIDTH of 1 to 255; FIRED clears on a 1; a unit armed after its TARGET acts at once and reports it (R111). -/
def State.compareConfig (s : State) (m n : Nat) : Done :=
  checkValue (bitsOf n 18 3 == 0 && (bitsOf n 16 2 != 1 || bitsOf n 24 8 != 0)) s fun _ =>
    let c := at? s.time.compares m
    let arm := bitOf n 0
    let s := { s with time.compares := upd s.time.compares m fun c =>
      { c with width := BitVec.ofNat 8 (bitsOf n 24 8), line := BitVec.ofNat 3 (bitsOf n 21 3),
               action := BitVec.ofNat 2 (bitsOf n 16 2), period := BitVec.ofNat 12 (bitsOf n 4 12),
               base := BitVec.ofNat 2 (bitsOf n 2 2), fired := c.fired && !bitOf n 1, en := arm,
               actedAt := if c.en then c.actedAt else none } }
    let past := decide (c.target ≤ (at? s.time.tb (bitsOf n 2 2)).count)
    done (if arm && !c.en && past then (s.compareAct m (gridUp 4 s.now)).reportOverruns.raise 23 else s)

/-- CMPm_CONFIG as read. -/
def CompareUnit.word (c : CompareUnit) : Nat :=
  c.width.toNat * 2 ^ 24 + c.line.toNat * 2 ^ 21 + c.action.toNat * 2 ^ 16 + c.period.toNat * 16 + c.base.toNat * 4 +
    flagBit c.fired 1 + flagBit c.en 0

/-- A compare unit as a host reads it: those of the module itself mark the tick, the command instant and the whole
seconds of TB2 (R109; DEDUCED, log 5). -/
def State.compareUnit (s : State) (m : Nat) : CompareUnit :=
  match m with
  | 0 => { target := s.cycle.nextTick, base := 3, en := s.cycle.ticking }
  | 1 => { target := s.commandInstantFrom s.tb3, base := 3, en := s.cycle.ticking }
  | 2 => { target := (s.tb2 + second - 1) / second * second, base := 2, en := s.time.ppsMode != 0 }
  | _ => at? s.time.compares m

/-- Change a link's asymmetry. -/
def State.setAsym (s : State) (l : Nat) (v : Int) : State := { s with time.linkAsym := upd s.time.linkAsym l fun _ => v }

/-- A write to an object of island 0x02 (R95-R97, R107-R110, R119). -/
def State.timWrite (c : WriteCtx) (inst num : Nat) (v : List Byte) (s : State) : Done :=
  let n := beVal v
  let len (k : Nat) : Bool := v.length == k
  match inst, num with
  | 0, 0x30 => checkValue (len 4 && bitsOf n 3 13 == 0 && decide (1 ≤ n / 2 ^ 16) && decide (n / 2 ^ 16 ≤ 500) &&
        decide (n % 4 < 3)) s fun _ =>
      done { s with time.ppsWidth := BitVec.ofNat 16 (n / 2 ^ 16), time.ppsPolarity := bitOf n 2,
                    time.ppsMode := BitVec.ofNat 2 n }
  | 0, 0x40 => refuse .badValue s
  | 0, 0x41 => refuse (if s.factory.optT then .badValue else .badObject) s
  | 1, 0x10 => c.notPositioning s fun _ => checkValue (len 1 && decide (n ≤ 127)) s fun _ =>
      done { s with time.ptpDomain := BitVec.ofNat 8 n }.ptpRetune
  | 1, 0x11 => c.notPositioning s fun _ => checkValue (len 1 && decide (n < 32)) s fun _ =>
      done { s with time.ptpPorts := BitVec.ofNat 5 n }.ptpRetune
  | 2, 0x10 => c.notPositioning s fun _ => checkValue (len 1 && decide (n ≤ 1)) s fun _ =>
      if n = 0 && !s.factory.optG then refuse .badObject s
      else done ({ s with time.tb2Source := BitVec.ofNat 8 n }.setTb 2 fun b => { b with source := BitVec.ofNat 8 n })
  | 2, 0x11 => c.notPositioning s fun _ => checkValue (len 2) s fun _ =>
      done { s with time.tb2Sentence := BitVec.ofNat 16 n }
  | 2, 0x12 => c.notPositioning s fun _ =>
      checkValue (len 4 && decide (-10000 ≤ intAt v 0 4) && decide (intAt v 0 4 ≤ 10000)) s fun _ =>
        done { s with time.ppsInDelay := intAt v 0 4 }
  | 2, 0x20 => if s.time.utcProvided then refuse .busy s else
      checkValue (len 2 && decide (0 ≤ intAt v 0 2) && decide (intAt v 0 2 ≤ 100)) s fun _ =>
        done { s with time.taiUtc := intAt v 0 2 }
  | 2, 0x21 => if s.time.utcProvided then refuse .busy s else
      checkValue (len 1 && decide (-1 ≤ intAt v 0 1) && decide (intAt v 0 1 ≤ 1)) s fun _ =>
        done { s with time.leapNext := intAt v 0 1 }
  | 2, 0x22 => if s.time.utcProvided then refuse .busy s else
      checkValue (len 8) s fun _ => done { s with time.leapAt := n }
  | 3, 0x10 | 3, 0x11 => c.notPositioning s fun _ =>
      checkValue (len 2 && decide (-1000 ≤ intAt v 0 2) && decide (intAt v 0 2 ≤ 1000)) s fun _ =>
        done (s.setAsym (num - 0x10) (intAt v 0 2))
  | _, _ =>
    if inst < 4 then
      if num < 4 then refuse .badValue s
      else if num = 4 ∧ inst ≠ 0 then
        checkValue (len 4 && decide (1000 ≤ n) && decide (n ≤ 1000000000)) s fun _ =>
          done (s.setTb inst fun b => { b with holdoverLimit := BitVec.ofNat 32 n })
      else refuse .badObject s
    else if 0x10 ≤ inst ∧ inst < 0x20 then
      match num with
      | 0 => checkValue (len 4) s fun _ => s.captureConfig (inst - 0x10) n
      | 1 => refuse .badValue s
      | _ => refuse .badObject s
    else if 0x20 ≤ inst ∧ inst < 0x28 then
      if 1 < num then refuse .badObject s
      else if inst < 0x23 then refuse .badValue s
      else if num = 0 then checkValue (len 4) s fun _ => s.compareConfig (inst - 0x20) n
      else checkValue (len 8) s fun _ =>
        done { s with time.compares := upd s.time.compares (inst - 0x20) fun c => { c with target := n, actedAt := none } }
    else refuse .badObject s

/-- A read of an object of island 0x02. -/
def State.timRead (inst num : Nat) (s : State) : ReadResult :=
  let x := s.time
  match inst, num with
  | 0, 0x30 => readAs (nat32 (x.ppsWidth.toNat * 2 ^ 16 + flagBit x.ppsPolarity 2 + x.ppsMode.toNat)) s
  | 0, 0x40 => readAs (nat8 (flagBit s.factory.optT 0)) s
  | 0, 0x41 => if s.factory.optT then readAs (be8 x.ovenStatus) s else noRead .badObject s
  | 1, 0x10 => readAs (be8 x.ptpDomain) s
  | 1, 0x11 => readAs (nat8 x.ptpPorts.toNat) s
  | 2, 0x10 => readAs (be8 x.tb2Source) s
  | 2, 0x11 => readAs (be16 x.tb2Sentence) s
  | 2, 0x12 => readAs (int32 x.ppsInDelay) s
  | 2, 0x20 => readAs (int16 x.taiUtc) s
  | 2, 0x21 => readAs (int8 x.leapNext) s
  | 2, 0x22 => readAs (nat64 x.leapAt) s
  | 3, 0x10 | 3, 0x11 => readAs (int16 (at? x.linkAsym (num - 0x10))) s
  | _, _ =>
    if inst < 4 then
      let b := at? x.tb inst
      match num with
      | 0 => readAs (nat64 b.count) s
      | 1 => readAs (nat32 (s.tbWord inst)) s
      | 2 => readAs (nat32 (cap32 (s.uncertainty inst))) s
      | 3 => readAs (int64 (if inst = 0 then 0 else b.offset)) s
      | 4 => if inst = 0 then noRead .badObject s else readAs (be32 b.holdoverLimit) s
      | _ => noRead .badObject s
    else if 0x10 ≤ inst ∧ inst < 0x20 then
      match num with
      | 0 => readAs (nat32 (at? s.field.captures (inst - 0x10)).word) s
      | 1 => s.readCapture (inst - 0x10)
      | _ => noRead .badObject s
    else if 0x20 ≤ inst ∧ inst < 0x28 then
      let c := s.compareUnit (inst - 0x20)
      match num with
      | 0 => readAs (nat32 c.word) s
      | 1 => readAs (nat64 c.target) s
      | _ => noRead .badObject s
    else noRead .badObject s

/-- CAPTURE_DATA_READ (R108). -/
def execCaptureDataRead (t : Nat) (req : Request) (unit : Fin 16) (s : State) : Out :=
  runHost t s fun s => s.hostRead req (objId 0x02 (0x10 + unit) 1) 0 (readLimit req) true
    fun s => s.readCapture unit

/-! ## GNB: island 0x03 -/

/-- GNB_CONFIG: reserved fields 0, a system enabled, and TIME_SYSTEM names one that is (R129). -/
def gnbConfigOk (n : Nat) : Bool :=
  decide (n < 2 ^ 12) && bitsOf n 6 2 == 0 && bitsOf n 0 5 != 0 && bitOf n (bitsOf n 10 2)

/-- A supply is switched (R131): off, STATUS is OFF; on, it is OK until a current says otherwise. -/
def State.switchSupply (s : State) (a : Nat) (on : Bool) : State :=
  let x := at? s.gnss.supplies a
  let s := { s with gnss.supplies := upd s.gnss.supplies a fun x => { x with en := on } }
  if !on then (s.setSupply a 0 0).supplySwitched a else if x.en then s else (s.setSupply a 1 x.current).supplySwitched a

/-- GNB_STATUS (R130). -/
def State.gnbStatus (s : State) : Nat :=
  let g := s.gnss
  let tracking := (g.channels.toList.filter (·.state == 2)).length
  let kinds := (g.jobs ++ g.engines.toList.filterMap id).map (·.kind.toNat)
  tracking * 2 ^ 23 + (g.satsInFix % 128) * 2 ^ 16 + g.timeSystemInUse.toNat * 2 ^ 10 + (g.heading.state.toNat % 4) * 256 +
    flagBit g.shortage 7 + (kinds.foldl max 0) * 16 + g.fixType.toNat

/-- An entry of CHANNEL_TABLE (R142). -/
def Channel.bytes (c : Channel) (now : Nat) : List Byte :=
  be8 c.system ++ be8 c.sv ++ be8 c.signal ++ nat8 c.antenna.toNat ++ nat8 c.state.toNat ++ be8 c.cn0 ++
    nat16 (if c.state == 2 then min 65535 ((now - c.lockedAt) / second) else 0)

/-- The PVT object (R154). -/
def Pvt.bytes (p : Pvt) : List Byte :=
  nat64 p.tb3 ++ nat64 p.tb2 ++ be8 p.fixType ++ be8 p.sats ++ be8 p.antenna ++ be8 p.systems ++ be64 p.lat ++ be64 p.lon ++
    be64 p.height ++ be32 p.vn ++ be32 p.ve ++ be32 p.vd ++ be32 p.hSigma ++ be32 p.vSigma ++ be32 p.pdop ++
    be64 p.clockBias ++ be32 p.clockDrift

/-- The HEADING object (R159). -/
def headingBytes (h : GnssHeading) : List Byte :=
  nat64 h.tb3 ++ be64 h.heading ++ be32 h.elevation ++ be32 h.sigma ++ be32 h.length ++ be8 h.state ++ be8 h.sats ++ zeros 2

/-- An entry of SYSTEM_OFFSETS (R157). -/
def offsetBytes (o : SysOffset) : List Byte :=
  be64 o.offset ++ be32 o.sigma ++ be8 o.source ++ be8 o.sats ++ zeros 2

/-- A NOTCH_STATUS word (R152). -/
def Notch.word (n : Notch) : List Byte :=
  nat8 (flagBit n.active 7 + flagBit n.atLimit 6 + n.depth.toNat) ++ (int32 n.centre).drop 1

/-- The write of a front end's configuration or window (R152). -/
def State.feWrite (s : State) (f num : Nat) (v : List Byte) : Done :=
  let n := beVal v
  let set (g : FrontEnd → FrontEnd) : Done := done { s with gnss.frontEnds := upd s.gnss.frontEnds f g }
  match num with
  | 0 =>
    let jam := bitsOf n 16 8
    let th := bitsOf n 8 8
    checkValue (v.length == 4 && decide (n < 2 ^ 24) && bitsOf n 3 5 == 0 && (jam == 0 || (decide (10 ≤ jam) && decide (jam ≤ 100))) &&
        decide (6 ≤ th) && decide (th ≤ 40) && decide (n % 8 ≤ 4)) s fun _ =>
      set fun x => { x with jamThreshold := BitVec.ofNat 8 jam, notchThreshold := BitVec.ofNat 8 th,
                            notchMax := BitVec.ofNat 3 n }
  | 1 =>
    let lo := intAt v 0 2
    let hi := intAt v 2 2
    checkValue (v.length == 4 && decide (-2500 ≤ lo) && decide (lo < hi) && decide (hi ≤ 2500)) s fun _ =>
      set fun x => { x with windowLo := lo, windowHi := hi }
  | 2 | 3 => refuse .badValue s
  | _ => refuse .badObject s

/-- A write to an object of island 0x03 (R128-R131, R152). -/
def State.gnbWrite (c : WriteCtx) (inst num : Nat) (v : List Byte) (s : State) : Done :=
  let n := beVal v
  let len (k : Nat) : Bool := v.length == k
  if !s.factory.optG then refuse .badObject s
  else match inst, num with
    | 0, 0 => c.notPositioning s fun _ => checkValue (len 4 && gnbConfigOk n) s fun _ =>
        done { s with gnss.config := BitVec.ofNat 32 n }
    | 0, 2 => checkValue (len 4 && F32.within 0 (f32OfRat 5236 10000) (f32At v 0)) s fun _ =>
        done { s with gnss.elevMask := f32At v 0 }
    | 0, 3 => checkValue (len 4 && F32.within (F32.ofNat 20) (F32.ofNat 45) (f32At v 0)) s fun _ =>
        done { s with gnss.cn0Mask := f32At v 0 }
    | 0, 4 => c.notPositioning s fun _ => checkValue (len 1 && decide (n ≤ 49)) s fun _ =>
        done { s with gnss.epochOffset := BitVec.ofNat 8 n, gnss.offsetWritten := true }
    | 0, 5 => c.notPositioning s fun _ => checkValue (len 1 && (n == 1 || n == 2)) s fun _ => done (s.gnbRestart n)
    | 0, 0x10 => c.notPositioning s fun _ => checkValue (len 2 && (n == 125 || n == 250 || n == 500)) s fun _ =>
        done { s with gnss.searchBin := BitVec.ofNat 16 n }
    | 0, 0x11 => c.notPositioning s fun _ =>
        checkValue (len 2 && decide (1 ≤ n / 256) && decide (n / 256 ≤ 10) && decide (1 ≤ n % 256) && decide (n % 256 ≤ 50)) s
          fun _ => done { s with gnss.searchDwell := BitVec.ofNat 16 n }
    | 0, 0x12 => c.notPositioning s fun _ => checkValue (len 2 && decide (1000 ≤ n) && decide (n ≤ 20000)) s fun _ =>
        done { s with gnss.coldSpan := BitVec.ofNat 16 n }
    | 0, 0x13 => checkValue (len 1 && decide (1 ≤ n) && decide (n ≤ 60)) s fun _ =>
        done { s with gnss.reacqWindow := BitVec.ofNat 8 n }
    | 0, 0x23 => c.notPositioning s fun _ =>
        checkValue (len 12 && F64.within F64.one (F64.ofNat 10) (baselineLength [f32At v 0, f32At v 4, f32At v 8])) s fun _ =>
          done { s with gnss.antBaseline := #v[f32At v 0, f32At v 4, f32At v 8] }
    | 1, 0 | 2, 0 => checkValue (len 4 && bitsOf n 6 10 == 0 && bitsOf n 1 3 == 0) s fun _ =>
        done (s.switchSupply (inst - 1) (bitOf n 0))
    | 0, 1 | 0, 0x14 | 0, 0x20 | 0, 0x21 | 0, 0x22 => refuse .badValue s
    | _, _ => if 0x10 ≤ inst ∧ inst ≤ 0x13 then s.feWrite (inst - 0x10) num v else refuse .badObject s

/-- A read of an object of island 0x03. -/
def State.gnbRead (inst num : Nat) (s : State) : ReadResult :=
  let g := s.gnss
  if !s.factory.optG then noRead .badObject s
  else match inst, num with
    | 0, 0 => readAs (be32 g.config) s
    | 0, 1 => readAs (nat32 s.gnbStatus) s
    | 0, 2 => readAs (be32 g.elevMask) s
    | 0, 3 => readAs (be32 g.cn0Mask) s
    | 0, 4 => readAs (be8 g.epochOffset) s
    | 0, 5 => noRead .badValue s
    | 0, 0x10 => readAs (be16 g.searchBin) s
    | 0, 0x11 => readAs (be16 g.searchDwell) s
    | 0, 0x12 => readAs (be16 g.coldSpan) s
    | 0, 0x13 => readAs (be8 g.reacqWindow) s
    | 0, 0x14 => readAs (g.channels.toList.map fun c => c.bytes s.now).flatten s
    | 0, 0x20 => readAs (Pvt.bytes g.pvt) s
    | 0, 0x21 => readAs (g.sysOffsets.toList.map offsetBytes).flatten s
    | 0, 0x22 => readAs (headingBytes g.heading) s
    | 0, 0x23 => readAs (g.antBaseline.toList.map be32).flatten s
    | 1, 0 | 2, 0 =>
      let x := at? g.supplies (inst - 1)
      readAs (nat32 (x.current.toNat * 2 ^ 16 + x.status.toNat * 16 + flagBit x.en 0)) s
    | _, _ =>
      if 0x10 ≤ inst ∧ inst ≤ 0x13 then
        let f := at? g.frontEnds (inst - 0x10)
        match num with
        | 0 => readAs (nat32 (f.jamThreshold.toNat * 2 ^ 16 + f.notchThreshold.toNat * 256 + f.notchMax.toNat)) s
        | 1 => readAs (int16 f.windowLo ++ int16 f.windowHi) s
        | 2 => readAs (f.notches.toList.map Notch.word).flatten s
        | 3 => readAs (nat32 f.jam) s
        | _ => noRead .badObject s
      else noRead .badObject s

/-- GNB_RESTART (R161). -/
def execGnbRestart (t : Nat) (req : Request) (kind : BitVec 8) (s : State) : Out :=
  runHost t s fun s => s.hostWrite req (objId 0x03 0 5) (be8 kind) fun c s => s.gnbWrite c 0 5 (be8 kind)

/-! ## AIN: island 0x04 -/

/-- Change a channel. -/
def State.setAin (s : State) (n : Nat) (f : AinChannel → AinChannel) : State :=
  { s with ain.channels := upd s.ain.channels n f }

/-- The USER_TABLE of 68 bytes (R184). -/
def tableOf (v : List Byte) (u : UserCal) : UserCal :=
  { u with count := BitVec.ofNat 8 (fieldAt v 0 1),
           pairs := (List.range 8).map fun j => (f32At v (4 + 8 * j), f32At v (8 + 8 * j)) }

/-- USER_COMMIT (R178, R179): the commit in one piece; refused in positioning modes for a point of a reference slice. -/
def State.userCommit (c : WriteCtx) (ch n : Nat) (s : State) : Done :=
  let x := at? s.ain.channels ch
  if n = 1 then
    if (c.mode s).positioning && x.active && s.feedsReference x.pointId.toNat then refuse .wrongMode s
    else checkValue x.staged.committable s fun _ => done (s.setAin ch fun x => { x with activeCal := x.staged })
  else if n = 2 then done (s.setAin ch fun x => { x with staged := x.activeCal })
  else refuse .badValue s

/-- DC_CONTROL (R186). -/
def State.dcControl (ch n : Nat) (s : State) : Done :=
  checkValue (decide (n < 4) && (at? s.ain.channels ch).dcEn) s fun _ =>
    done (s.setAin ch fun x => { x with freeze := bitOf n 0, preset := x.preset || bitOf n 1 })

/-- A write to an object of island 0x04 (R178-R186). -/
def State.ainWrite (c : WriteCtx) (inst num : Nat) (v : List Byte) (s : State) : Done :=
  let n := beVal v
  let len (k : Nat) : Bool := v.length == k
  if 0x18 ≤ inst then refuse .badObject s
  else if 0x10 ≤ inst then refuse (if num = 1 ∨ num = 2 ∨ num = 0x20 then .badValue else .badObject) s
  else match num with
    | 0 | 1 | 2 | 4 | 5 | 0x14 | 0x20 => refuse .badValue s
    | 3 => checkValue (len 4) s fun _ => s.dcControl inst n
    | 0x10 => checkValue (len 4) s fun _ => done (s.setAin inst fun x => { x with staged := { x.staged with gain := f32At v 0 } })
    | 0x11 => checkValue (len 4) s fun _ => done (s.setAin inst fun x => { x with staged := { x.staged with offset := f32At v 0 } })
    | 0x12 => checkValue (len 68 && zeroAt v 1 3) s fun _ => done (s.setAin inst fun x => { x with staged := tableOf v x.staged })
    | 0x13 => checkValue (len 1) s fun _ => s.userCommit c inst n
    | _ => refuse .badObject s

/-- A read of an object of island 0x04. -/
def State.ainRead (inst num : Nat) (s : State) : ReadResult :=
  if 0x18 ≤ inst then noRead .badObject s
  else
    let x := at? s.ain.channels inst
    match num with
    | 1 => readAs (nat64 x.stamp ++ be32 x.value ++ be8 x.status ++ (nat32 x.outputs.toNat).drop 1) s
    | 2 => readAs (nat32 (s.groupDelay inst)) s
    | 0x20 => readAs (at? s.factory.cal inst).bytes s
    | _ =>
      if 0x10 ≤ inst then noRead .badObject s
      else match num with
        | 0 => readAs (nat32 x.word) s
        | 3 => readAs (nat32 (flagBit x.freeze 0)) s
        | 4 => readAs (be32 x.dcE) s
        | 5 => readAs (nat16 (min 65535 x.overRange) ++ nat16 (min 65535 x.openWire))
            (s.setAin inst fun x => { x with overRange := 0, openWire := 0 })
        | 0x10 => readAs (be32 x.staged.gain) s
        | 0x11 => readAs (be32 x.staged.offset) s
        | 0x12 => readAs (x.staged.bytes.drop 8) s
        | 0x13 => noRead .badValue s
        | 0x14 => readAs x.activeCal.bytes s
        | _ => noRead .badObject s

/-- USER_COMMIT (R178). -/
def execUserCommit (t : Nat) (req : Request) (channel : Fin 16) (s : State) : Out :=
  runHost t s fun s => s.hostWrite req (objId 0x04 channel 0x13) [1] fun c s => s.ainWrite c channel 0x13 [1]

/-- USER_DISCARD (R178). -/
def execUserDiscard (t : Nat) (req : Request) (channel : Fin 16) (s : State) : Out :=
  runHost t s fun s => s.hostWrite req (objId 0x04 channel 0x13) [2] fun c s => s.ainWrite c channel 0x13 [2]

/-- DC_PRESET (R182, R186). -/
def execDcPreset (t : Nat) (req : Request) (channel : Fin 16) (freeze : Bool) (s : State) : Out :=
  let v := nat32 (2 + flagBit freeze 0)
  runHost t s fun s => s.hostWrite req (objId 0x04 channel 3) v fun c s => s.ainWrite c channel 3 v

/-- DC_FREEZE (R182, R186). -/
def execDcFreeze (t : Nat) (req : Request) (channel : Fin 16) (freeze : Bool) (s : State) : Out :=
  let v := nat32 (flagBit freeze 0)
  runHost t s fun s => s.hostWrite req (objId 0x04 channel 3) v fun c s => s.ainWrite c channel 3 v

end Sys2Proof.Machine
end

