-- ==== Sys2Proof/Machine/GroupObjects.lean ====
section
/-! DEFINITION. The objects of islands 0x05 and 0x06 as a host reads and writes them, with the commands that are a write of
one of them (spec/06_reference_fusion.md, R239-R242; spec/07_vessel_observer.md, R273-R275; spec/08_station_keeping_law.md,
R299-R316; spec/09_allocation_solver.md, R331, R358; spec/14_group_redundancy.md, R495). -/

namespace Sys2Proof.Machine

/-! ## Group writes (R495) -/

/-- An accepted group write: a load writes it at once; a member in role ALONE applies it at its next release, the LEAD
carries it in its next CLOSE; `now` is what a member in role ALONE does at once. -/
def State.groupWrite (s : State) (c : WriteCtx) (obj : Word) (v : List Byte) (now : State → State)
    (queue : State → SettingWrite → State) (apply : State → State) (judge : Unit → Status) : Done :=
  let w : SettingWrite := { object := obj, value := v, req := c.req }
  let accept (s : State) (k : Bool) : Done := { state := s, detail := BitVec.ofNat 32 (s.cycle.count + if k then 1 else 0) }
  if !c.load && s.group.role != .alone && s.group.role != .lead then refuse .notLead s
  else match judge () with
    | .ok =>
      if c.load then done (apply (now s))
      else if s.group.role == .alone then accept (queue (now s) w) s.cycle.released
      else accept { s with group.groupWrites := s.group.groupWrites ++ [w] } s.gcycle.closeDone
    | st => refuse st s

/-- Queue a write of island 0x05 for this member's release. -/
def State.queueFusion (s : State) (w : SettingWrite) : State := { s with fusion.pending := s.fusion.pending ++ [w] }
/-- Queue a write of island 0x06 for this member's release. -/
def State.queueLaw (s : State) (w : SettingWrite) : State := { s with law.pending := s.law.pending ++ [w] }

/-! ## Island 0x05 -/

/-- The range of an observer parameter held as FP32 (R273). -/
def obsRange (num : Nat) : Option (F32 × F32) :=
  let r (a b : Nat) (c d : Nat) : Option (F32 × F32) := some (f32OfRat a b, f32OfRat c d)
  match num with
  | 0x210 => r 3 10 16 10 | 0x211 => r 2 100 5 10 | 0x212 => r 1 100 10 1 | 0x213 => r 1 100000 1 10
  | 0x214 => r 100 1 1000000 1 | 0x215 => r 100 1 10000 1 | 0x216 => r 4 1 100 1 | 0x217 => r 4 1 100 1
  | 0x21A => r 0 1 5 100 | 0x21B => r 5 10 100 1 | 0x21C => r 1 1 15 10 | 0x21D => r 2 1 27 10 | 0x21E => r 1 100 1 1
  | 0x21F => r 1 100 5 1 | 0x220 => r 1 1000 10 1 | _ => none

/-- The range of a value of `k` bytes. -/
def natIn (v : List Byte) (k lo hi : Nat) : Bool := v.length == k && decide (lo ≤ beVal v) && decide (beVal v ≤ hi)
/-- An FP32 within a range. -/
def f32In (v : List Byte) (q : F32 × F32) : Bool := v.length == 4 && F32.within q.1 q.2 (f32At v 0)
/-- OK, or a refusal of the value. -/
def okIf (b : Bool) : Status := if b then .ok else .badValue

/-- The judgement of a write to the fusion-wide objects and the observer's (R241, R273, R275). -/
def State.fusionWideJudge (s : State) (num : Nat) (v : List Byte) : Status :=
  match num with
  | 0x100 | 0x107 | 0x10A => .badValue
  | 0x101 => okIf (natIn v 1 1 50)
  | 0x102 => okIf (natIn v 2 10 10000)
  | 0x103 => okIf (natIn v 1 0 1)
  | 0x104 => okIf (v.length == 1 && (match refOfInst (beVal v) with
      | some r => (s.refSlice r).isSome && (at? s.fusion.refs r).state == 4
      | none => false))
  | 0x105 => okIf (f32In v (F32.one, F32.ofNat 100))
  | 0x106 => okIf (natIn v 4 60 86400)
  | 0x108 => okIf (natIn v 1 3 100)
  | 0x109 => okIf (f32In v (f32OfRat 1 10, F32.ofNat 10))
  | 0x200 | 0x201 | 0x202 | 0x204 | 0x205 => .badValue
  | 0x203 => if s.tight then .badValue else .badObject
  | 0x218 => okIf (natIn v 1 3 100)
  | 0x219 => okIf (natIn v 2 100 10000)
  | _ => match obsRange num with
    | some q => okIf (f32In v q)
    | none => .badObject

/-- Does a reference's instance hold an object (R239)? -/
def State.refObject (s : State) (r num : Nat) : Bool :=
  match s.refSlice r with
  | none => false
  | some x =>
    if num = 0 ∨ num = 1 ∨ num = 2 ∨ num = 4 ∨ num = 5 then true
    else if 16 ≤ r ∨ 0xD < num then false
    else if num = 0xB then x.principle == 2
    else if num = 0xC ∨ num = 0xD then !(s.refFusion r).reflectors.isEmpty
    else true

/-- The judgement of a write to a reference's object. -/
def State.refJudge (s : State) (r num : Nat) (v : List Byte) : Status :=
  if !s.refObject r num then .badObject
  else match num with
    | 4 => okIf (natIn v 1 0 1)
    | 5 => okIf (natIn v 4 0 1000000000)
    | 6 | 7 => okIf (v.length == 4 && F32.lt 0 (f32At v 0))
    | 9 => okIf (natIn v 1 0 3)
    | 0xB => okIf (f32In v (F32.one, F32.ofNat 5000))
    | 0xC => okIf (v.length == 20)
    | _ => .badValue

/-- The judgement of a write to island 0x05. -/
def State.fusionJudge (s : State) (inst num : Nat) (v : List Byte) : Status :=
  if inst = 0 ∧ 0x100 ≤ num then s.fusionWideJudge num v
  else match refOfInst inst with
    | some r => s.refJudge r num v
    | none => .badObject

/-- A write to an object of island 0x05: a group write (R495). -/
def State.estWrite (c : WriteCtx) (inst num : Nat) (v : List Byte) (s : State) : Done :=
  match s.fusionJudge inst num v with
  | .ok => s.groupWrite c (objId 5 inst num) v id State.queueFusion (fun s => s.fusionWrite inst num v) fun _ => .ok
  | st => refuse st s

/-- An observer parameter as stored (R273). -/
def ObsParams.bytes (p : ObsParams) : Nat → Option (List Byte)
  | 0x210 => be32 p.waveFreq | 0x211 => be32 p.waveDamping | 0x212 => be32 p.waveSigma | 0x213 => be32 p.accelSigma
  | 0x214 => be32 p.biasSigma | 0x215 => be32 p.biasTau | 0x216 => be32 p.gatePos | 0x217 => be32 p.gateScalar
  | 0x218 => nat8 p.rejectLimit | 0x219 => nat16 p.drDelay | 0x21A => be32 p.drAccel | 0x21B => be32 p.uncertaintyLimit
  | 0x21C => be32 p.airDensity | 0x21D => be32 p.tropoZenith | 0x21E => be32 p.dopplerSigma | 0x21F => be32 p.heightNoise
  | 0x220 => be32 p.clockNoise | _ => none

/-- A read of the fusion-wide objects and the observer's. -/
def State.fusionWideRead (num : Nat) (s : State) : ReadResult :=
  let f := s.fusion
  match num with
  | 0x100 => readAs (be32 s.fusionSummary) s
  | 0x101 => readAs (nat8 f.quarantineCount) s
  | 0x102 => readAs (nat16 f.readmitCount) s
  | 0x103 => readAs (nat8 (flagBit f.autoReadmit 0)) s
  | 0x104 => noRead .badValue s
  | 0x105 => readAs (be32 f.sigmaEnvelope) s
  | 0x106 => readAs (nat32 f.refineTau) s
  | 0x107 => readAs s.consensusBytes s
  | 0x108 => readAs (nat8 f.admitCount) s
  | 0x109 => readAs (be32 f.assocGate) s
  | 0x10A => readAs (be8 f.windSelect) s
  | 0x200 => readAs (be32 s.obsStatus) s
  | 0x201 => readAs s.obsEstimate s
  | 0x202 => readAs s.obsUncertainty s
  | 0x203 => if s.tight then readAs s.obsClock s else noRead .badObject s
  | 0x204 => readAs s.obsCounters { s with obsOut.posUpdates := 0, obsOut.hdgUpdates := 0, obsOut.rawUpdates := 0,
                                           obsOut.gateRejects := 0, obsOut.resets := 0, obsOut.delayedUpdates := 0 }
  | 0x205 => readAs s.obsForces s
  | _ => match s.obsParams.bytes num with
    | some b => readAs b s
    | none => noRead .badObject s

/-- A read of a reference's object (R239). -/
def State.refRead (r num : Nat) (s : State) : ReadResult :=
  let c := at? s.fusion.sets r
  if !s.refObject r num then noRead .badObject s
  else match num with
    | 0 => readAs (be32 (s.refStatus r)) s
    | 1 => readAs (be32 (s.refAge r)) s
    | 2 => readAs (s.refCounters r) (s.setRef r fun q =>
        { q with cntLate := 0, cntLateDropped := 0, cntSuperseded := 0, cntFuture := 0, cntInvalid := 0 })
    | 3 => readAs (s.refResidual r) s
    | 4 => readAs (nat8 (flagBit c.enable 0)) s
    | 5 => readAs (nat32 c.latency) s
    | 6 => readAs (be32 c.sigma) s
    | 7 => readAs (be32 c.gate) s
    | 8 => readAs (s.refinement r) s
    | 9 => readAs (nat8 (flagBit c.freeze 0)) s
    | 0xA => readAs (be64 c.offset.1 ++ be64 c.offset.2) s
    | 0xB => readAs (be32 c.twDepth) s
    | 0xC => readAs (be64 c.targetPose.1 ++ be64 c.targetPose.2.1 ++ be32 c.targetPose.2.2) s
    | _ => readAs (s.assocResult r) s

/-- A read of an object of island 0x05. -/
def State.estRead (inst num : Nat) (s : State) : ReadResult :=
  if inst = 0 ∧ 0x100 ≤ num then s.fusionWideRead num
  else match refOfInst inst with
    | some r => s.refRead r num
    | none => noRead .badObject s

/-! ## Island 0x06 -/

/-- The range of a law or solver parameter held as FP32 (R313, R358). -/
def lawRange (num : Nat) : Option (F32 × F32) :=
  let r (a b : Nat) (c d : Nat) : Option (F32 × F32) := some (f32OfRat a b, f32OfRat c d)
  match num with
  | 0x020 => r 1 100 5 10 | 0x021 => r 1 100 5 10
  | 0x110 => r 0 1 100 1 | 0x111 => r 0 1 100 1 | 0x112 => r 0 1 1000000 1 | 0x113 => r 0 1 1000 1
  | 0x114 => r 0 1 1000000 1 | 0x115 => r 0 1 100 1 | 0x116 => r 0 1 1000 1 | 0x117 => r 0 1 10000 1
  | 0x118 => r 1 1 1000 1 | 0x119 => r 1 1000000 1 1 | 0x122 => r 5 100 2 1 | 0x123 => r 1 1000 2 10
  | 0x124 => r 2 1000 2 10 | 0x125 => r 1 10000 5 100 | 0x126 => r 0 1 60 1 | 0x127 => r 1 1 1000 1
  | 0x128 => r 5 10 50 1 | 0x129 => r 1 100 5 10 | 0x12A => r 0 1 1 10 | 0x134 => r 0 1 2 10 | 0x147 => r 5 10 50 1
  | _ => none

/-- The law as it will stand once the accepted writes that wait have taken effect: what a write that follows them is
judged against. -/
def State.ahead (s : State) : State :=
  (s.law.pending ++ s.group.groupWrites).foldl (fun s w =>
    if objIsland w.object ≠ 6 ∨ objInst w.object ≠ 0 then s
    else if objNum w.object = 0x102 then (s.moveOrigin (f64At w.value 0) (f64At w.value 8)).lawWrite 0x102 w.value
    else s.lawWrite (objNum w.object) w.value) s

/-- Does a set-point lie within SETPOINT_STEP_MAX of the present reference position (R299)? -/
def State.stepAllowed (s : State) (n e : F64) : Bool :=
  F64.le (norm2 (F64.sub n s.dyn.refN, F64.sub e s.dyn.refE)) (F64.of32 s.law.params.setpointStepMax)

/-- An FP64 angle in [0, 2 pi). -/
def angleOk (x : F64) : Bool := F64.le 0 x && F64.lt x F64.twoPi

/-- May a staged path be committed (R304)? -/
def pathOk (count : Nat) (ws : List Waypoint) : Bool :=
  decide (1 ≤ count) && decide (count ≤ 32) &&
    (ws.all fun w => F32.within (f32OfRat 1 100) (F32.ofNat 2) w.speed && angleOk (F64.of32 w.heading)) &&
    ((ws.zip (ws.drop 1)).all fun (a, b) =>
      F64.le (f64OfRat 1 10) (norm2 (F64.sub b.north a.north, F64.sub b.east a.east)))

/-- The value of a write to instance 0 of island 0x06 (R299, R303-R306, R313, R358). `arrived`: the TB3 time of its arrival. An unused
record of TRACK_PATH that is not zero is refused (DEDUCED, log 10). -/
def State.lawJudge (s : State) (num : Nat) (v : List Byte) (arrived : Nat) : Status :=
  let n := beVal v
  match num with
  | 0 | 1 | 2 | 3 | 4 | 5 | 6 | 0x24 | 0x100 | 0x101 | 0x105 | 0x135 | 0x143 | 0x148 => .badValue
  | 0x22 => okIf (v.length == 8 && F64.within (f64OfRat 1 100000000) (f64OfRat 1 10) (f64At v 0))
  | 0x102 =>
    if v.length ≠ 16 then .badValue
    else if !s.law.originValid then .wrongMode
    else
      let a := s.ahead
      let p := nedOf a.law.originLat a.law.originLon a.law.originH (f64At v 0) (f64At v 8) a.law.originH
      okIf (a.stepAllowed (p.at 0) (p.at 1))
  | 0x103 =>
    if v.length ≠ 12 || !zeroAt v 1 3 || decide (1 < fieldAt v 0 1) then .badValue
    else
      let a := s.ahead
      let b := { a with law.setN := a.law.setN }.lawWrite 0x103 v
      okIf (a.stepAllowed b.law.setN b.law.setE)
  | 0x104 => okIf (v.length == 8 && angleOk (f64At v 0))
  | 0x106 => okIf (v.length == 12 && ([0, 4, 8].all fun o => F32.within (F32.neg F32.one) F32.one (f32At v o)))
  | 0x107 => okIf (natIn v 2 100 5000)
  | 0x108 => okIf (natIn v 1 0 1)
  | 0x120 => okIf (natIn v 1 1 100)
  | 0x121 => okIf (v.length == 4 && ([0, 1, 2, 3].all fun o => decide (5 ≤ fieldAt v o 1) && decide (fieldAt v o 1 ≤ 40)))
  | 0x130 => okIf (v.length == 4 && F32.le 0 (f32At v 0))
  | 0x131 => if v.length ≠ 2 then .badValue else if n = 0xFFFF || (s.point? n).isSome then .ok else .badObject
  | 0x132 => okIf (v.length == 2 && (n == 0 || (decide (100 ≤ n) && decide (n ≤ 10000))))
  | 0x133 => okIf (v.length == 4 && (F32.eq (f32At v 0) (F32.neg F32.one) || F32.le 0 (f32At v 0)))
  | 0x140 => okIf (natIn v 1 0 1)
  | 0x141 => okIf (v.length == 1028 && zeroAt v 1 3 &&
      (List.range 32).all fun i => decide (fieldAt v (28 + 32 * i) 1 < 4) && zeroAt v (29 + 32 * i) 7 &&
        (decide (i < fieldAt v 0 1) || zeroAt v (4 + 32 * i) 32))
  | 0x142 =>
    if v.length = 1 ∧ n = 1 then
      let t := s.ahead.law.track
      okIf (pathOk t.stagedCount.toNat (t.staged.take t.stagedCount.toNat))
    else okIf (v.length == 1 && n == 2)
  | 0x144 => okIf (v.length == 44 && decide (fieldAt v 0 8 ≤ arrived + ms))
  | 0x145 => okIf (natIn v 2 1000 60000)
  | 0x146 =>
    let h : F32 := F32.ofNat 500
    let p : F32 := F64.to32 F64.pi
    okIf (v.length == 12 && F32.within (F32.neg h) h (f32At v 0) && F32.within (F32.neg h) h (f32At v 4) &&
      F32.within (F32.neg p) p (f32At v 8))
  | _ => match lawRange num with
    | some q => okIf (f32In v q)
    | none => if 0x10 ≤ num ∧ num < 0x18 then (if (s.variantRec (num - 0x10)).isSome then .badValue else .badObject)
        else .badObject

/-- The modes in which a write to the law is accepted (R299, R303). -/
def State.lawMode (s : State) (c : WriteCtx) (num : Nat) (v : List Byte) : Status :=
  let m := c.mode s
  let ok (b : Bool) : Status := if b then .ok else .wrongMode
  match num with
  | 0x102 => ok (m == .idle || m == .station)
  | 0x103 => ok (m == .station)
  | 0x104 => ok (m == .autohead || m == .station)
  | 0x140 => ok (m != .track || s.ahead.law.track.source == (beVal v == 1))
  | _ => .ok

/-- What a member in role ALONE does at once: a demand is fresh from the moment it is written (R294, R309). -/
def State.lawNow (num : Nat) (s : State) : State :=
  match num with
  | 0x106 => { s with law.joyAt := s.tb3, law.joyStale := false }
  | 0x130 => { s with law.power.writtenAt := some s.tb3 }
  | _ => s

/-- CHECK_START (R331): a member write (R495); a full job queue refuses it (R44). -/
def State.checkStart (c : WriteCtx) (v : List Byte) (s : State) : Done :=
  checkValue (v.length == 1 && beVal v == 1) s fun _ =>
    c.onlyIn s [.idle, .test] fun _ =>
      if 4 ≤ s.sol.queue.length then refuse .busy s
      else done { s with sol.queue := s.sol.queue ++ [{ check := true }] }

/-- Is a thruster slice in the image (R315)? -/
def State.hasThruster (s : State) (n : Nat) : Bool :=
  match s.image.loaded with
  | some i => i.slices.any fun x => x.kind == 0 && x.index == n
  | none => false

/-- A write to an object of a thruster slice (R315). -/
def State.thrObjectWrite (c : WriteCtx) (n num : Nat) (v : List Byte) (s : State) : Done :=
  if !s.hasThruster n then refuse .badObject s
  else
    let w (ok : Bool) : Done := checkValue ok s fun _ =>
      s.groupWrite c (objId 6 (0x10 + n) num) v id State.queueLaw (fun s => s.thrWrite n num v) fun _ => .ok
    match num with
    | 0 | 3 => refuse .badValue s
    | 1 => w (natIn v 1 0 1)
    | 2 => w (f32In v (f32OfRat 1 10, F32.one))
    | _ => refuse .badObject s

/-- A load's write of the law: the origin moves with SETPOINT_GEO (R298). -/
def State.lawLoad (num : Nat) (v : List Byte) (s : State) : State :=
  (if num = 0x102 then s.moveOrigin (f64At v 0) (f64At v 8) else s).lawWrite num v

/-- A write to an object of island 0x06: a group write, CHECK_START excepted (R495). -/
def State.solWrite (c : WriteCtx) (inst num : Nat) (v : List Byte) (s : State) : Done :=
  if inst = 0 then
    if num = 0x23 then s.checkStart c v
    else match s.lawJudge num v (c.arrived.getD s.tb3) with
      | .ok => s.groupWrite c (objId 6 0 num) v (State.lawNow num) State.queueLaw (State.lawLoad num v) fun _ =>
          s.lawMode c num v
      | st => refuse st s
  else if 0x10 ≤ inst ∧ inst < 0x20 then s.thrObjectWrite c (inst - 0x10) num v
  else refuse .badObject s

/-- A parameter of the law as stored (R313). -/
def LawParams.bytes (p : LawParams) : Nat → Option (List Byte)
  | 0x107 => nat16 p.joyTimeout | 0x108 => nat8 (flagBit p.windComp 0) | 0x110 => be32 p.qPosAlong | 0x111 => be32 p.qPosAcross
  | 0x112 => be32 p.qHdg | 0x113 => be32 p.qVel | 0x114 => be32 p.qYawrate | 0x115 => be32 p.wEffort
  | 0x116 => be32 p.wChange | 0x117 => be32 p.wForce | 0x118 => be32 p.terminalFactor | 0x119 => be32 p.powerSlackWeight
  | 0x120 => nat8 p.stepMult | 0x121 => (p.preferredHorizon.toList.map nat8).flatten | 0x122 => be32 p.refSpeed
  | 0x123 => be32 p.refAccel | 0x124 => be32 p.refYawRate | 0x125 => be32 p.refYawAccel | 0x126 => be32 p.windFfTau
  | 0x127 => be32 p.setpointStepMax | 0x128 => be32 p.posAlarmRadius | 0x129 => be32 p.hdgAlarmAngle
  | 0x12A => be32 p.azHoldFraction | _ => none

/-- A read of the law's objects. -/
def State.lawRead (num : Nat) (s : State) : ReadResult :=
  let l := s.law
  let t := l.track
  match num with
  | 0x100 => readAs (be32 s.lawStatus) s
  | 0x101 => readAs s.setpointBytes s
  | 0x102 | 0x103 | 0x104 | 0x142 | 0x144 => noRead .badValue s
  | 0x105 => readAs s.referenceBytes s
  | 0x106 => readAs (l.joy.map be32).flatten s
  | 0x130 => readAs (be32 l.power.available) s
  | 0x131 => readAs (be16 l.power.point) s
  | 0x132 => readAs (nat16 l.power.timeout) s
  | 0x133 => readAs (be32 l.power.fallback) s
  | 0x134 => readAs (be32 l.power.margin) s
  | 0x135 => readAs s.powerStateBytes s
  | 0x140 => readAs (nat8 (flagBit t.source 0)) s
  | 0x141 => readAs (pathBytes t.stagedCount.toNat t.staged) s
  | 0x143 => readAs (pathBytes (t.path.getD []).length (t.path.getD [])) s
  | 0x145 => readAs (nat16 t.targetTimeout) s
  | 0x146 => readAs (t.offset.map be32).flatten s
  | 0x147 => readAs (be32 t.xteLimit) s
  | 0x148 => readAs s.trackProgress s
  | _ => match l.params.bytes num with
    | some b => readAs b s
    | none => noRead .badObject s

/-- A read of the solver's objects (R358). -/
def State.solverRead (num : Nat) (s : State) : ReadResult :=
  let c := s.cyc
  match num with
  | 0 => readAs (be32 s.solStatus) s
  | 1 => readAs s.solveResult s
  | 2 => readAs (s.res.counters.toList.map nat32).flatten { s with res.counters := .replicate 8 0 }
  | 3 => readAs (nat16 c.iterCap) s
  | 4 => readAs (be64 c.tolerance) s
  | 5 => readAs (nat16 c.netLimit) s
  | 6 => readAs (nat16 (min 65535 s.res.netRun) ++ nat16 (min 65535 s.res.consecNet)) s
  | 0x20 => readAs (be32 s.solParams.fbBandwidth) s
  | 0x21 => readAs (be32 s.solParams.fbYawBandwidth) s
  | 0x22 => readAs (be64 s.solParams.warmFloor) s
  | 0x23 => noRead .badValue s
  | 0x24 => readAs (nat64 s.res.checkAt ++ be8 s.res.checkResult ++ zeros 7) s
  | _ =>
    if 0x10 ≤ num ∧ num < 0x18 then
      match s.variantRec (num - 0x10) with
      | some v => readAs (v.info c.iterCap) s
      | none => noRead .badObject s
    else noRead .badObject s

/-- A read of an object of island 0x06. -/
def State.solRead (inst num : Nat) (s : State) : ReadResult :=
  if inst = 0 then (if num < 0x100 then s.solverRead num else s.lawRead num)
  else if 0x10 ≤ inst ∧ inst < 0x20 then
    let t := at? s.law.thr (inst - 0x10)
    if !s.hasThruster (inst - 0x10) then noRead .badObject s
    else match num with
      | 0 => readAs (be32 t.status) s
      | 1 => readAs (nat8 (flagBit t.enable 0)) s
      | 2 => readAs (be32 t.limit) s
      | 3 => readAs t.command s
      | _ => noRead .badObject s
  else noRead .badObject s

/-! ## Commands that are a write of one of these objects -/

/-- A host's write to island 0x05. -/
def State.writeEst (s : State) (req : Request) (inst num : Nat) (v : List Byte) : State :=
  s.hostWrite req (objId 5 inst num) v fun c s => s.estWrite c inst num v
/-- A host's write to island 0x06. -/
def State.writeSol (s : State) (req : Request) (num : Nat) (v : List Byte) : State :=
  s.hostWrite req (objId 6 0 num) v fun c s => s.solWrite c 0 num v

/-- REF_READMIT (R223). -/
def execRefReadmit (t : Nat) (req : Request) (inst : BitVec 8) (s : State) : Out :=
  runHost t s fun s => s.writeEst req 0 0x104 [inst]
/-- REF_ENABLE (R239). -/
def execRefEnable (t : Nat) (req : Request) (inst : BitVec 8) (enable : BitVec 8) (s : State) : Out :=
  runHost t s fun s => s.writeEst req inst.toNat 4 [enable]
/-- TW_DEPTH (R239). -/
def execTwDepth (t : Nat) (req : Request) (inst : BitVec 8) (depth : F32) (s : State) : Out :=
  runHost t s fun s => s.writeEst req inst.toNat 0xB (be32 depth)
/-- TARGET_POSE (R235). -/
def execTargetPose (t : Nat) (req : Request) (inst : BitVec 8) (n e : F64) (rot : F32) (s : State) : Out :=
  runHost t s fun s => s.writeEst req inst.toNat 0xC (be64 n ++ be64 e ++ be32 rot)
/-- REFINE_RESET (R231). -/
def execRefineReset (t : Nat) (req : Request) (inst : BitVec 8) (freeze : Bool) (s : State) : Out :=
  runHost t s fun s => s.writeEst req inst.toNat 9 (nat8 (2 + flagBit freeze 0))
/-- SETPOINT_GEO (R299). -/
def execSetpointGeo (t : Nat) (req : Request) (lat lon : F64) (s : State) : Out :=
  runHost t s fun s => s.writeSol req 0x102 (be64 lat ++ be64 lon)
/-- SETPOINT_MOVE (R299). -/
def execSetpointMove (t : Nat) (req : Request) (frame : BitVec 8) (d1 d2 : F32) (s : State) : Out :=
  runHost t s fun s => s.writeSol req 0x103 (be8 frame ++ zeros 3 ++ be32 d1 ++ be32 d2)
/-- SETPOINT_HEADING (R299). -/
def execSetpointHeading (t : Nat) (req : Request) (psi : F64) (s : State) : Out :=
  runHost t s fun s => s.writeSol req 0x104 (be64 psi)
/-- JOY_DEMAND (R309). -/
def execJoyDemand (t : Nat) (req : Request) (x y mz : F32) (s : State) : Out :=
  runHost t s fun s => s.writeSol req 0x106 (be32 x ++ be32 y ++ be32 mz)
/-- TRACK_COMMIT (R304). -/
def execTrackCommit (t : Nat) (req : Request) (s : State) : Out :=
  runHost t s fun s => s.writeSol req 0x142 [1]
/-- TRACK_DISCARD (R304). -/
def execTrackDiscard (t : Nat) (req : Request) (s : State) : Out :=
  runHost t s fun s => s.writeSol req 0x142 [2]
/-- TARGET_STATE (R306). -/
def execTargetState (t : Nat) (req : Request) (stamp : BitVec 64) (n e : F64) (vn ve : F32) (psi : F64) (yawRate : F32)
    (s : State) : Out :=
  runHost t s fun s => s.writeSol req 0x144
    (be64 stamp ++ be64 n ++ be64 e ++ be32 vn ++ be32 ve ++ be64 psi ++ be32 yawRate)
/-- POWER_AVAILABLE (R294). -/
def execPowerAvailable (t : Nat) (req : Request) (watts : F32) (s : State) : Out :=
  runHost t s fun s => s.writeSol req 0x130 (be32 watts)
/-- CHECK_START (R331). -/
def execCheckStart (t : Nat) (req : Request) (s : State) : Out :=
  runHost t s fun s => s.writeSol req 0x23 [1]

end Sys2Proof.Machine
end

