-- ==== Sys2Proof/Machine/Objects.lean ====
section
/-! DEFINITION. The objects of SUP, SAF and HSK, and the two dispatchers over every island's objects: what a WRITE and a
READ of an object identifier do (spec/16_command_protocol.md, R567, R570, and each object's own chapter). -/

namespace Sys2Proof.Machine

/-! ## SAF: island 0x09 (R455) -/

/-- A write to an object of island 0x09. A self-test that a WRITE or an image runs has an outcome no command brings: it is a
free value (log 14). -/
def State.safWrite (c : WriteCtx) (inst num : Nat) (v : List Byte) (s : State) : Done :=
  if inst = 0 then
    match num with
    | 0 | 1 | 4 | 5 => refuse .badValue s
    | 2 => checkValue (v == [1]) s fun _ => s.safReset
    | 3 => checkValue (v == [1]) s fun _ => c.onlyIn s [.idle, .test] fun _ =>
        let (k, s) := s.draw
        s.hostSelftest (Config.selftestOutcome k)
    | _ => refuse .badObject s
  else if 0x18 ≤ inst ∧ inst < 0x20 ∧ num = 0 then refuse .badValue s
  else refuse .badObject s

/-- A read of an object of island 0x09. -/
def State.safRead (inst num : Nat) (s : State) : ReadResult :=
  if inst = 0 then
    match num with
    | 0 => readAs (be32 s.safStatus) s
    | 1 => readAs s.safConfig s
    | 2 | 3 => noRead .badValue s
    | 4 => readAs s.safCounters
        { s with saf.trips := 0, saf.patternFaults := 0, saf.darkPulses := 0, saf.selftestsPassed := 0 }
    | 5 => readAs s.safLastTrip s
    | _ => noRead .badObject s
  else if 0x18 ≤ inst ∧ inst < 0x20 ∧ num = 0 then
    let i := inst - 0x18
    readAs (be32 ((at? s.saf.inputs i).word (Config.sampleApart (inst + 8) s.now) (s.inputHolds i))) s
  else noRead .badObject s

/-- SAF_SELFTEST (R450): the command brings the outcome of the test. -/
def execSafSelftest (t : Nat) (req : Request) (outcome : Fin 6) (s : State) : Out :=
  runHost t s fun s => s.hostWrite req (objId 9 0 3) [1] fun _ s => s.hostSelftest outcome

/-- SAF_RESET (R452). -/
def execSafReset (t : Nat) (req : Request) (s : State) : Out :=
  runHost t s fun s => s.hostWrite req (objId 9 0 2) [1] fun c s => s.safWrite c 0 2 [1]

/-! ## HSK: island 0x0E -/

/-- SUPPLY_STATUS (R674). -/
def PowerState.word (p : PowerState) : Nat :=
  flagBit p.overtemp 11 + flagBit p.stpClamping 10 + flagBit p.holdupCharged 9 + flagBit p.onHoldup 8 + flagBit p.bCut 3 +
    flagBit p.aCut 2 + flagBit p.bOk 1 + flagBit p.aOk 0

/-- An object of island 0x0E. -/
def State.hskValue (s : State) (inst num : Nat) : Option (List Byte) :=
  match inst, num with
  | 0, 0x105 => some (nat32 s.power.word)
  | 0x20, 0 => some (nat32 s.updateStatus)
  | 0x20, 1 => some s.updateInfo
  | _, _ => s.ageRead inst num

/-- A write to an object of island 0x0E: BIN_ENVELOPE alone is writable. -/
def State.hskWrite (inst num : Nat) (v : List Byte) (s : State) : Done :=
  match binOf inst with
  | some i => if num = 1 then s.binEnvelope i v else refuse (if num = 0 then .badValue else .badObject) s
  | none => refuse (if (s.hskValue inst num).isSome then .badValue else .badObject) s

/-- A read of an object of island 0x0E. -/
def State.hskRead (inst num : Nat) (s : State) : ReadResult :=
  match s.hskValue inst num with
  | some v => readAs v s
  | none => noRead .badObject s

/-! ## SUP: island 0x01 -/

/-- A route word as read (R48). -/
def Route.word (r : Route) : Nat :=
  r.cls.toNat * 2 ^ 22 + r.line.toNat * 2 ^ 19 + flagBit r.lineEn 18 + flagBit r.fault 17 + flagBit r.toRec 16 +
    flagBit r.host 15 + (min 127 r.merged) * 2 + flagBit r.pending 0

/-- Write EVT_ROUTE (R48, R51, R56): MERGED and PENDING are kept, and of a fixed source REC, FAULT and CLASS. -/
def State.putRoute (s : State) (n w : Nat) : State :=
  { s with events.routes := upd s.events.routes n fun r =>
      let r := { r with line := BitVec.ofNat 3 (bitsOf w 19 3), lineEn := bitOf w 18, host := bitOf w 15 }
      if fixedRoute n then r
      else { r with cls := BitVec.ofNat 2 (bitsOf w 22 2), fault := bitOf w 17, toRec := bitOf w 16 } }

/-- A host's write of EVT_ROUTE. -/
def State.routeWrite (n : Nat) (v : List Byte) (s : State) : Done :=
  let w := beVal v
  if 128 ≤ n || reservedSource n || !s.sourceFitted n then refuse .badObject s
  else
    let fault := bitOf w 17 && !fixedRoute n
    checkValue (v.length == 4 && decide (w < 2 ^ 24) && bitsOf w 8 7 == 0 &&
        !(fault && (bitsOf w 22 2 == 0 || (decide (7 ≤ n) && decide (n ≤ 9))))) s fun _ =>
      done (s.putRoute n w)

/-- A read of EVT_ROUTE: MERGED clears (R48). The route of a source of an option that is not fitted answers BAD_OBJECT to a read as well:
R6 speaks of routing alone (DESIGN CHOICE, log 37). -/
def State.routeRead (n : Nat) (s : State) : ReadResult :=
  if 128 ≤ n || (!reservedSource n && !s.sourceFitted n) then noRead .badObject s
  else if reservedSource n then readAs (zeros 4) s
  else readAs (nat32 (s.route n).word)
    { s with events.routes := upd s.events.routes n fun r => { r with merged := 0 } }

/-- MODE_STATUS (R464). -/
def State.modeStatus (s : State) : Nat :=
  let pend := match s.pendingOf with | some m => m.code | none => 15
  pend * 2 ^ 20 + s.modes.previous.code * 2 ^ 16 + s.modes.startKind.toNat * 2 ^ 10 + flagBit s.modes.armed 8 +
    s.modes.mode.code

/-- START_REPORT (R477). -/
def StartReport.bytes (r : StartReport) : List Byte :=
  be8 r.kind ++ be8 r.outcome ++ be8 r.step ++ [0] ++ be32 r.duration ++ nat64 r.tb0At

/-- The newest valid copy of the retained state block. -/
def RetainedState.newest (r : RetainedState) : Option Copy :=
  match (if r.newerB then r.b else r.a) with
  | some c => some c
  | none => if r.newerB then r.a else r.b

/-- RETAINED_INFO (R463). -/
def State.retainedInfo (s : State) : List Byte :=
  match s.retained.newest with
  | some c => nat64 c.tb3At ++ nat32 c.cycle ++ nat32 (Config.copyEncode c).length
  | none => zeros 16

/-- QCP_ADDRESS (R588). -/
def QcpAddress.bytes (a : QcpAddress) : List Byte :=
  be32 a.v4 ++ be8 a.prefix4 ++ zeros 3 ++ be32 a.gateway4 ++ beNat 16 a.v6.toNat ++ be8 a.prefix6 ++ zeros 3 ++
    beNat 12 a.gateway6.toNat
/-- The address a QCP_ADDRESS value gives. -/
def addressOf (v : List Byte) : QcpAddress :=
  { v4 := BitVec.ofNat 32 (fieldAt v 0 4), prefix4 := BitVec.ofNat 8 (fieldAt v 4 1), gateway4 := BitVec.ofNat 32 (fieldAt v 8 4),
    v6 := BitVec.ofNat 128 (fieldAt v 12 16), prefix6 := BitVec.ofNat 8 (fieldAt v 28 1),
    gateway6 := BitVec.ofNat 96 (fieldAt v 32 12) }
/-- The factory value of QCP_ADDRESS (R588). -/
def factoryAddress (member : Nat) : QcpAddress := { v4 := BitVec.ofNat 32 (0xC0A8600A + member) }

/-- An entry of SUBSCRIPTIONS (R588). -/
def Subscription.bytes (x : Subscription) : List Byte :=
  be8 x.stream ++ nat8 (flagBit x.dtls.isSome 0) ++ be16 x.port ++ beNat 16 x.src.toNat ++ nat64 x.expires ++ nat16 x.divider ++
    zeros 2

/-- The values QCP_ADDRESS admits (R588). DEDUCED (log 18): the second prefix length is that of an IPv6 address, and is judged
only where the value names one. -/
def addressOk (v : List Byte) : Bool :=
  v.length == 44 && zeroAt v 5 3 && zeroAt v 29 3 && decide (8 ≤ fieldAt v 4 1) && decide (fieldAt v 4 1 ≤ 30) &&
    (zeroAt v 12 16 || (decide (16 ≤ fieldAt v 28 1) && decide (fieldAt v 28 1 ≤ 128)))

/-- A write of QCP_ADDRESS or QCP_SECURITY (R588): it takes effect 100 ms after the response. -/
def State.qcpWrite (c : WriteCtx) (num : Nat) (v : List Byte) (s : State) : Done :=
  let at_ := s.now + 100 * ms
  if num = 0x40 then
    checkValue (addressOk v) s fun _ =>
      c.onlyIn s [.idle, .config] fun _ => done { s with qcp.addressNext := some (at_, addressOf v) }
  else
    let n := beVal v
    checkValue (v.length == 4 && decide (n < 256) && ([0, 2, 4, 6].all fun b => bitsOf n b 2 != 3)) s fun _ =>
      c.onlyIn s [.idle, .config] fun _ => done { s with qcp.securityNext := some (at_, BitVec.ofNat 8 n) }

/-- A write of RESTART (R463, R474, R478): a cold start is refused while a positioning mode is active, a restart with state
handover while IMAGE_STATE is not ACTIVE. -/
def State.restartWrite (c : WriteCtx) (v : List Byte) (s : State) : Done :=
  match v with
  | [1] => c.notPositioning s fun _ => done { s with modes.restartPending := some .cold }
  | [2] => if s.imageState = 1 then done (s.planRestart .handover) else refuse .wrongMode s
  | _ => refuse .badValue s

/-- A write to an object of island 0x01. -/
def State.supWrite (c : WriteCtx) (inst num : Nat) (v : List Byte) (s : State) : Done :=
  if inst ≠ 0 then refuse .badObject s
  else if 0x200 ≤ num then s.routeWrite (num - 0x200) v
  else match num with
    | 0x31 => s.requestMode c v
    | 0x33 => s.restartWrite c v
    | 0x40 | 0x41 => s.qcpWrite c num v
    | 2 | 0x10 | 0x11 | 0x12 | 0x13 | 0x14 | 0x15 | 0x20 | 0x21 | 0x22 | 0x23 | 0x24 | 0x25 | 0x26 | 0x30 | 0x32 | 0x34 | 0x35
    | 0x42 | 0x43 | 0x44 => refuse .badValue s
    | _ => refuse .badObject s

/-- A read of an object of island 0x01. -/
def State.supRead (inst num : Nat) (s : State) : ReadResult :=
  let i := s.image
  let y := s.cyc
  let st := s.image.loaded
  if inst ≠ 0 then noRead .badObject s
  else if 0x200 ≤ num then s.routeRead (num - 0x200)
  else match num with
    | 2 => readAs (be32 s.optionsWord) s
    | 0x10 => readAs (nat32 y.period) s
    | 0x11 => readAs (nat32 y.waitLimit) s
    | 0x12 => readAs (nat32 y.deadline) s
    | 0x13 => readAs (nat32 y.commandAt) s
    | 0x14 => readAs (nat64 s.cycle.count) s
    | 0x15 => readAs (nat16 y.samples) s
    | 0x20 => readAs (nat8 s.imageState) s
    | 0x21 => readAs (be32 ((st.map (·.serial)).getD 0)) s
    | 0x22 => readAs (match st with | some x => be8 x.fmtMajor ++ be8 x.fmtMinor | none => zeros 2) s
    | 0x23 => readAs (if i.digest.isEmpty then zeros 48 else i.digest) s
    | 0x24 => readAs (match st with | some x => x.vessel | none => zeros 16) s
    | 0x25 => readAs (i.inactive.flatMap be32) s
    | 0x26 => readAs (nat32 i.pending.bytes.length ++ nat32 i.active.bytes.length ++ nat32 i.previous.bytes.length) s
    | 0x30 => readAs (nat32 s.modeStatus) s
    | 0x31 | 0x33 => noRead .badValue s
    | 0x32 => readAs (nat32 s.modes.cause.word) s
    | 0x34 => readAs s.modes.report.bytes s
    | 0x35 => readAs s.retainedInfo s
    | 0x40 => readAs (QcpAddress.bytes s.qcp.address) s
    | 0x41 => readAs (nat32 s.qcp.security.toNat) s
    | 0x42 => readAs (s.qcp.counters.toList.map nat32).flatten { s with qcp.counters := .replicate 10 0 }
    | 0x43 => readAs ((List.range 16).flatMap fun h => match s.qcp.subs.find? (·.handle == h) with
        | some x => x.bytes | none => zeros 32) s
    | 0x44 => readAs ((List.range 256).flatMap fun k => beNat 16 ((s.qcp.sources.getD k 0).toNat)) s
    | _ => noRead .badObject s

/-! ## Every island -/

/-- A WRITE of an object (R567, R570). -/
def State.writeObject (c : WriteCtx) (obj : Word) (v : List Byte) (s : State) : Done :=
  let inst := objInst obj
  let num := objNum obj
  match objIsland obj with
  | 0x01 => s.supWrite c inst num v
  | 0x02 => s.timWrite c inst num v
  | 0x03 => s.gnbWrite c inst num v
  | 0x04 => s.ainWrite c inst num v
  | 0x05 => s.estWrite c inst num v
  | 0x06 => s.solWrite c inst num v
  | 0x07 => s.srvWrite c inst num v
  | 0x08 => s.fioWrite c inst num v
  | 0x09 => s.safWrite c inst num v
  | 0x0A => s.netWrite c inst num v
  | 0x0B => s.lnkWrite c inst num v
  | 0x0C => s.recWrite inst num v
  | 0x0D => s.cldWrite inst num
  | 0x0E => s.hskWrite inst num v
  | 0x0F => s.pnlWrite c inst num v
  | _ => refuse .badObject s

/-- A READ of an object (R567, R570), with its side effect. -/
def State.readObject (obj : Word) (s : State) : ReadResult :=
  let inst := objInst obj
  let num := objNum obj
  match objIsland obj with
  | 0x01 => s.supRead inst num
  | 0x02 => s.timRead inst num
  | 0x03 => s.gnbRead inst num
  | 0x04 => s.ainRead inst num
  | 0x05 => s.estRead inst num
  | 0x06 => s.solRead inst num
  | 0x07 => s.srvRead inst num
  | 0x08 => s.fioRead inst num
  | 0x09 => s.safRead inst num
  | 0x0A => s.netRead inst num
  | 0x0B => s.lnkRead inst num
  | 0x0C => s.recReadObject inst num
  | 0x0D => s.cldRead inst num
  | 0x0E => s.hskRead inst num
  | 0x0F => s.pnlRead inst num
  | _ => noRead .badObject s

/-- Does a read of an object change state: an object of Access RC, the stamps of a capture unit, the advance of CAP_READ_AT
(R567, R570)? -/
def readChanges (obj : Word) : Bool :=
  let inst := objInst obj
  let num := objNum obj
  match objIsland obj with
  | 0x01 => inst == 0 && (num == 0x42 || (decide (0x200 ≤ num) && decide (num < 0x280)))
  | 0x02 => decide (0x10 ≤ inst) && decide (inst < 0x20) && num == 1
  | 0x04 => decide (inst < 0x10) && num == 5
  | 0x05 => (inst == 0 && num == 0x204) || (num == 2 && (refOfInst inst).isSome)
  | 0x06 => inst == 0 && num == 2
  | 0x07 => (decide (inst < 0x20) && num == 4) || (decide (0x38 ≤ inst) && decide (inst < 0x40) && num == 1) ||
      (inst == 0x50 && num == 0x14)
  | 0x09 => inst == 0 && num == 4
  | 0x0A => (inst == 0 && num == 2) || (decide (0x10 ≤ inst) && decide (inst < 0x17) && num == 2) ||
      (decide (0x20 ≤ inst) && decide (inst < 0x24) && num == 4) || (decide (0x30 ≤ inst) && decide (inst < 0x38) && num == 1)
  | 0x0B => inst == 0 && num == 9
  | 0x0C => inst == 0 && num == 5
  | 0x0F => inst == 0 && num == 7
  | _ => false

end Sys2Proof.Machine
end

