-- ==== Sys2Proof/Machine/Load.lean ====
section
/-! DEFINITION. Loading a structure image: the starting values, step 12 of R85, the exchange of slots, and the commit
(spec/02_structure_image.md, R57-R63, R81-R85; spec/16_command_protocol.md, R565, R572). -/

namespace Sys2Proof.Machine

/-! ## The starting values (R57, R58) -/

/-- TIM at its factory values. What the receiver provides of UTC is no parameter and stays. -/
def State.timeSettings (s : State) : State :=
  let x := s.time
  let base (b : TimeBase) : TimeBase := { b with holdoverLimit := 1000000 }
  { s with time := { x with
      tb := x.tb.map base, ptpDomain := 0, ptpPorts := 0x1F, tb2Source := if s.factory.optG then 0 else 1, tb2Sentence := 0xFFFF,
      ppsInDelay := 0, taiUtc := if x.utcProvided then x.taiUtc else 37, leapNext := if x.utcProvided then x.leapNext else 0,
      leapAt := if x.utcProvided then x.leapAt else 0, linkAsym := .replicate 2 0, ppsWidth := 100, ppsPolarity := false,
      ppsMode := 2, compares := .replicate 8 {} },
           field.captures := .replicate 16 {}, field.overrunDue := 0 }.ptpRetune

/-- GNB at its factory values. -/
def State.gnssSettings (s : State) : State :=
  let fe (f : FrontEnd) : FrontEnd := { f with jamThreshold := 0x28, notchThreshold := 0x0F, notchMax := 4, windowLo := -2500, windowHi := 2500 }
  let s := { s with gnss := { s.gnss with
      config := 0x0000033F, elevMask := 0x3E32B021, cn0Mask := 0x41F00000, epochOffset := 5, offsetWritten := false,
      searchBin := 250, searchDwell := 0x010A, coldSpan := 6000, reacqWindow := 10, antBaseline := .replicate 3 0,
      frontEnds := s.gnss.frontEnds.map fe } }
  (s.switchSupply 0 true).switchSupply 1 true

/-- The objects of SUP, LNK, REC, HSK and PNL at their factory values. QCP_ADDRESS and QCP_SECURITY change as a write
changes them, 100 ms later (R588). -/
def State.otherSettings (s : State) : State :=
  let at_ := s.now + 100 * ms
  let route (r : Route) : Route := { merged := r.merged, pending := r.pending, mergedNow := r.mergedNow }
  let bin (b : ClockBin) : ClockBin := { b with binMin := 0, binMax := 12 }
  { s with events.routes := s.events.routes.map route,
           qcp.addressNext := some (at_, factoryAddress s.me), qcp.securityNext := some (at_, 0),
           group.backupPort := 0xFF, group.backupVlan := 4000, recorder.flushTail := 10, hsk.bins := s.hsk.bins.map bin,
           panel.vcomNext := some s.factory.vcom, panel.drawn := [] }

/-- The cycle under a new structure: its first tick is the next whole multiple of T (R31). -/
def State.cycleStart (s : State) : State :=
  let p := s.cyc.period
  let k := s.tb3 / p
  { s with cycle := { count := k, ticking := s.hasStructure && p != 0, tk := k * p, nextTick := (k + 1) * p, seqWritten := s.cycle.seqWritten,
                      front := { seq := s.cycle.front.seq, cycle := s.cycle.front.cycle } },
           gcycle := { s.gcycle with ownSet := none, closed := none, closeDone := true, ownDigest := none, exchangeLate := false } }

/-- Every run-time parameter takes its starting value, and every subsystem that depends on the structure starts (R58). -/
def State.startingValues (s : State) : State :=
  let s := { s with group.groupWrites := [] }.timeSettings.gnssSettings.otherSettings.cycleStart
  let s := { s with law := {}, dyn := {}, sol := {}, solParams := {}, res := { counters := s.res.counters }, obsParams := {} }
  s.ainFactoryCal.ainStart.fusionStart.observerStart.servoStart.fieldStart.safLoad.netStart

/-! ## Step 12 (R81, R85) -/

/-- The length of a write-only object's value, and whether a shorter one is allowed. -/
def writeOnlyLength (obj : Word) : Option (Nat × Bool) :=
  let inst := objInst obj
  match objIsland obj, objNum obj with
  | 0x01, 0x31 | 0x01, 0x33 | 0x03, 5 | 0x04, 0x13 | 0x05, 0x104 | 0x06, 0x142 | 0x06, 0x23 => some (1, false)
  | 0x06, 0x102 => some (16, false)
  | 0x06, 0x103 => some (12, false)
  | 0x06, 0x104 => some (8, false)
  | 0x06, 0x144 => some (44, false)
  | 0x07, 0x22 => some (4, false)
  | 0x07, 0x0A => some (12, false)
  | 0x07, 7 => if 0x40 ≤ inst ∧ inst < 0x44 then some (1, false) else none
  | 0x07, 1 | 0x07, 0x12 => if inst = 0x50 then some (1, false) else none
  | 0x08, 4 => if inst < 0x20 then some (1, false) else none
  | 0x08, 5 => if inst < 0x20 then some (1, false) else none
  | 0x08, 1 => if 0x20 ≤ inst ∧ inst < 0x30 then some (4, false) else none
  | 0x09, 2 | 0x09, 3 => some (1, false)
  | 0x0A, 5 => some (72, false)
  | 0x0A, 2 => if 0x30 ≤ inst then some (77, true) else none
  | 0x0B, 6 | 0x0B, 7 | 0x0C, 2 => some (1, false)
  | 0x0C, 3 => some (48, false)
  | 0x0F, 1 => some (1416, true)
  | 0x0F, 3 => some (4, false)
  | 0x0F, 6 => some (1, false)
  | _, _ => none

/-- The length of an object's value; none for an object that does not exist (R567), which a write refuses with BAD_OBJECT. -/
def State.objectLength (s : State) (obj : Word) : Option (Nat × Bool) :=
  let r := s.readObject obj
  if r.status == .ok then some (r.value.length, false)
  else if r.status == .badObject then none
  else writeOnlyLength obj

/-- Does an entry stand in the section that its value's length requires? -/
def State.entryFits (s : State) (long : Bool) (p : ParamRec) : Bool :=
  match s.objectLength p.object with
  | none => true
  | some (n, upTo) =>
    if long then decide (8 < p.value.length) && (p.value.length == n || (upTo && decide (p.value.length ≤ n)))
    else decide (n ≤ 8)

/-- The value of an entry at its object's own length; none when the fill on its left is not zero. -/
def State.paramValue (s : State) (long : Bool) (p : ParamRec) : Option (List Byte) :=
  if long then some p.value
  else match s.objectLength p.object with
    | none => some p.value
    | some (n, _) => if zeroAt p.value 0 (8 - n) then some (p.value.drop (8 - n)) else none

/-- Write one entry as a host in CONFIG and in role ALONE would (R81). Every answer but OK refuses the image, SAF_RESET's BUSY among
them, whose effect a host write keeps (DEDUCED, log 36). -/
def State.loadEntry (long : Bool) (p : ParamRec) (s : State) : Except Status State :=
  match s.paramValue long p with
  | none => .error .badValue
  | some v =>
    let d := s.writeObject { load := true } p.object v
    if d.status == .ok then .ok d.state else .error d.status

/-- The entries of both sections in order, each with its section and record number. -/
def Structure.entries (i : Structure) : List (Bool × Nat × ParamRec) :=
  (i.params.zipIdx.map fun (p, n) => (false, n, p)) ++ i.paramsLong.zipIdx.map fun (p, n) => (true, n, p)

/-- What a refusal at step 12 names. -/
def Passed.entryErr (x : Passed) (long : Bool) (n : Nat) (st : Status) : ImgErr :=
  let t := if long then 0x11 else 0xB
  let sec := (x.secs.find? (·.type_ == t)).getD {}
  { sec.err 12 (16 + (recordsAt sec).1.getD n 0) with status := st }

/-- The event routes of an image (R81, R82). -/
def State.loadRoutes (s : State) (i : Structure) : State :=
  i.routes.zipIdx.foldl (fun s (w, n) => if reservedSource n || !s.sourceFitted n then s else s.putRoute n w.toNat) s

/-- A load over a state: what the module holds after it, or the refusal of step 12. Role and mode are as R81 sets them and
come back afterwards. -/
def State.loadImage (s : State) (x : Passed) (digest : List Byte) : Except ImgErr State := do
  let role := s.group.role
  let mode := s.modes.mode
  let s := s.captureHolds
  let s := { s with image.loaded := some x.image, image.digest := digest, image.inactive := inactiveListed x.inactive,
                    group.role := .alone, modes.mode := .config }
  let s := s.startingValues
  let es := x.image.entries
  es.zipIdx.forM fun ((long, n, p), k) =>
    need (!((es.take k).any fun e => e.2.2.object == p.object) && s.entryFits long p) (x.entryErr long n .badValue)
  let s ← es.foldlM (fun s (long, n, p) => match s.loadEntry long p with
    | .ok s => .ok s
    | .error st => .error (x.entryErr long n st)) s
  need (s.ain.channels.toList.all fun c => c.staged.committable) (x.entryErr true 0 .badValue)
  let s := (s.loadRoutes x.image).ainCommitAll.observerStart.netLoaded
  .ok { s with group.role := role, modes.mode := if s.modes.mode == .safe then .safe else mode }

/-- The reports of a load (R82, R85): an IMAGE_NOTE record for each inactive item, and source 2. -/
def State.reportLoad (s : State) (x : Passed) : State :=
  (x.inactive.foldl (fun s w => s.record 0x0006 0x01 w x.image.serial 0 0 s.tb3) s).raise 2

/-- Every check of R85 over the bytes of a slot, and the load. -/
def State.verifyAndLoad (s : State) (bytes : List Byte) : Except ImgErr State := do
  let j : Judge := { member := s.me, optG := s.factory.optG, optS := s.factory.optS, optP := s.factory.optP }
  let x ← checkImage j s.trust.ownerKey s.trust.imageKey bytes
  let s ← s.loadImage x (sha384 bytes)
  .ok (s.reportLoad x)

/-! ## The commit (R59, R61, R565, R572) -/

/-- The response body of IMAGE_COMMIT. -/
def ImgErr.body (e : ImgErr) : List Byte :=
  nat8 e.step ++ [0] ++ nat16 e.type_ ++ nat8 e.inst ++ zeros 3 ++ nat32 e.offset

/-- The bytes of the slot a commit names. -/
def ImageState.slotBytes (i : ImageState) (slot : BitVec 8) : List Byte := if slot = 0 then i.pending.bytes else i.previous.bytes

/-- IMAGE_COMMIT is judged, and its work starts (R565, R572). -/
def State.imageCommit (req : Request) (slot : BitVec 8) (s : State) : Done :=
  let no (e : ImgErr) : Done := { refuse e.status s e.body with count := fun s => s.raise 3 }
  if s.qcp.deferredCommit.isSome || s.image.verifying.isSome then refuse .busy s
  else if slot != 0 && slot != 2 then refuse .badValue s ({} : ImgErr).body
  else if s.modes.mode != .config then no { status := .wrongMode, step := 1 }
  else if (s.image.slotBytes slot).isEmpty then no { status := .badValue, step := 2 }
  else
    { state := { s with image.verifying := some { slot := slot, req := req, startedAt := s.now },
                        qcp.deferredCommit := some { req := req, opcode := 0x30, body := be8 slot ++ zeros 3 },
                        qcp.deferredAt := (s.now, s.qcp.deferredAt.2), qcp.deferredTb3 := (s.tb3, s.qcp.deferredTb3.2) },
      deferred := true }

/-- IMAGE_COMMIT (R572). -/
def execImageCommit (t : Nat) (req : Request) (slot : BitVec 8) (s : State) : Out :=
  runHost t s fun s => s.serve req 0x30 (be8 slot ++ zeros 3) none fun s => s.imageCommit req slot

/-- The slots exchange (R59, R572). The transfer that filled PENDING is over. -/
def State.exchangeSlots (s : State) (slot : BitVec 8) : State :=
  let i := s.image
  if slot = 0 then { s with image.active := i.pending, image.previous := i.active, image.pending := {}, update.struct := {} }
  else { s with image.active := i.previous, image.previous := i.active }

/-- The work of a commit ends: the image is in force, or nothing has changed (R85). -/
def State.finishCommit (s : State) (slot : BitVec 8) : State × Status × List Byte :=
  let refused (e : ImgErr) : State × Status × List Byte := (s.raise 3, e.status, e.body)
  if s.modes.mode != .config then refused { status := .wrongMode, step := 1 }
  else match s.verifyAndLoad (s.image.slotBytes slot) with
    | .error e => refused e
    | .ok s => (s.exchangeSlots slot, .ok, ({} : ImgErr).body)

/-- A verification ends. -/
def State.imageVerifyDone (s : State) : State :=
  match s.image.verifying, s.qcp.deferredCommit with
  | some j, some c =>
    let accepted := s.qcp.deferredTb3.1
    let s := { s with image.verifying := none, qcp.deferredCommit := none }
    let (s, st, body) := s.finishCommit j.slot
    s.complete c.req 0x30 (j.slot.setWidth 32) accepted st body
  | _, _ => s

end Sys2Proof.Machine
end

