-- ==== Sys2Proof/Machine/Start.lean ====
section
/-! DEFINITION. Starts, restarts and the supply: the cold start, the restart with state handover, the retained block, power
and the end of the holdup (spec/13_modes_and_start_up.md, R474-R481; spec/20_connectors_power_environment.md, R667-R675). -/

namespace Sys2Proof.Machine

/-! ## What a cold start keeps -/

/-- REC after RAM is lost: the store, its seals and its header remain (R592, R602). -/
def RecorderState.afterLoss (r : RecorderState) : RecorderState :=
  { nextSeq := r.nextSeq, store := r.store, seals := r.seals, openBlock := r.openBlock, rearmFirst := r.rearmFirst,
    chainHash := r.chainHash, chainBegun := r.chainBegun, blockSeq := r.blockSeq, full := r.full, lost := r.lost,
    headerSeq := r.headerSeq, headerGeyser := r.headerGeyser, geyserLast := r.geyserLast, rearms := r.rearms,
    fullRaised := r.fullRaised }

/-- Everything but what survives the loss of every RAM: the factory block, keys and counts, the structure and extension stores,
MEMBER_INDEX, the recorder's store, the ledger, and what is wired to the pins. -/
def State.afterLoss (s : State) : State :=
  let input (u : UChannel) : UChannel := { raw := u.raw, filtered := u.raw, reported := u.raw }
  { factory := s.factory, image := { pending := s.image.pending, active := s.image.active, previous := s.image.previous },
    trust := s.trust, recorder := s.recorder.afterLoss, hsk := { s.hsk with depthNext := none },
    update := { s.update with area := [] }, group := { memberIndex := s.group.memberIndex },
    field := { u := s.field.u.map input, banks := s.field.banks },
    saf := { inputs := s.saf.inputs.map fun x => { raw := x.raw } },
    servo := { stpVoltageOff := s.servo.stpVoltageOff },
    net := { ports := s.net.ports.map fun p => { status := p.status } },
    power := { s.power with overtemp := false, onHoldup := false, noNvWrites := false, hotSince := none, coolSince := none },
    panel := PanelState.coldStart s.factory.vcom, qcp := { address := factoryAddress s.me }, free := s.free, pending := s.pending }

/-! ## The cold start (R474-R477) -/

/-- EXT_MEAS: the measurement of the active extension image (R611). -/
def State.extMeasure (s : State) : List Byte :=
  match s.update.active with
  | .bytes b => sha384 b
  | .delivered => beNat 48 Config.deliveredMeasure.toNat

/-- REC reads the store header (R601): a geyser that did not complete leaves a block without a seal, which is sealed now.
Answers how many seals were left unsigned. -/
def State.readHeader (s : State) : Nat × State :=
  let broken := s.recorder.headerGeyser == 1
  let unsigned := s.unsigned
  let s := if broken then s.sealOpen true else s
  (unsigned, { s with recorder.geyserLast := s.recorder.headerGeyser != 0, recorder.geyserIncomplete := broken,
                      recorder.headerGeyser := 0, recorder.sealsAtStart := s.recorder.seals.length })

/-- Step 5: the ACTIVE slot is verified and loaded; an empty slot is no refusal (R62). -/
def State.loadActive (s : State) : State :=
  if s.image.active.bytes.isEmpty then s
  else match s.verifyAndLoad s.image.active.bytes with
    | .ok s => s
    | .error _ => s.raise 3

/-- Step 6: SAF's self-test, the CHECK job and the read-back (R450, R331, R416). -/
def State.startTests (s : State) (f : StartFacts) : State :=
  let s := { s with saf.testedAt := s.now }.safTest f.safOutcome
  let s := { s with res.checkAt := s.tb3, res.checkResult := if f.checkOk then 1 else 2 }
  let s := if f.safOutcome ≠ 0 then { s with modes.cause := s.modes.cause.setBit 6 } else s
  if f.checkOk && f.readbackOk then s else { s with modes.cause := s.modes.cause.setBit 7 }

/-- The first mode (R475), and the report and the record of the start (R477, R593). `step` is the last step reached. -/
def State.firstMode (s : State) (step started unsigned : Nat) : State :=
  let m : Mode := if !s.modes.cause.none? then .safe else if s.hasStructure then .idle else .config
  let s := { s with modes.mode := m, modes.previous := .idle }
  let s := if m == .safe then
      let w := s.modes.cause.word
      s.raiseN 1 (((List.range 10).find? fun b => bitOf w b).getD 0)
    else s
  let s := s.raiseN 0 m.code (some Mode.idle.code) (some 0)
  let outcome := if m == .safe then 2 else if m == .config then 1 else 0
  let duration := BitVec.ofNat 32 ((s.now - started) / 1000)
  let s := s.record 0x0005 0x01 (BitVec.ofNat 32 (outcome * 256 + step)) duration (BitVec.ofNat 32 unsigned)
    (if s.recorder.geyserIncomplete then 1 else 0) s.tb3
  { s with modes.report := { kind := 0, outcome := BitVec.ofNat 8 outcome, step := BitVec.ofNat 8 step, duration := duration,
                             tb0At := s.now },
           modes.startKind := 0, modes.powerGoodAt := started, modes.restartPending := none,
           gcycle := { firstModeAt := s.now, roleSettled := decide (s.cyc.groupSize ≤ 1) } }

/-- The steps of a cold start after RAM is lost, at its end (R474): a start whose image or code fails ends in SAFE before a
structure is loaded (R476, R639). -/
def State.coldStart (s : State) (f : StartFacts) (started : Nat) : State :=
  let gates := s.saf.gates.mapIdx fun n g => { g with gateFault := f.gateFaults.getLsbD n }
  let s := { s with modes.phase := .running, factory.valid := f.factoryOk, trust.bootCount := s.trust.bootCount + 1,
                    trust.entropyFail := !f.entropyOk, saf.gates := gates, field.retriggeredAt := s.now }
  let (unsigned, s) := s.readHeader
  let (extOk, s) := (s.activatePending false).verifyActive false
  let s := { s with trust.extMeas := s.extMeasure }.planBins.planHoldup
  let failed (s : State) : State := { s with modes.cause := s.modes.cause.setBit 7 }
  if !extOk then (failed s).firstMode 3 started unsigned
  else if !f.codeOk then (failed s).firstMode 4 started unsigned
  else (s.gnbStart.loadActive.startTests f).firstMode 8 started unsigned

/-- POWER_GOOD (R474): TB0 starts at 0, and reads `t` at the end of the start. -/
def execPowerGood (t : Nat) (facts : StartFacts) (s : State) : Out :=
  if s.powered then .next (s.clock t)
  else
    let s := s.afterLoss
    let s := if s.power.aOk || s.power.bOk then s
      else
        let (k, s) := s.draw
        { s with power.aOk := Config.powerGoodInput k, power.bOk := !Config.powerGoodInput k }
    let s := { s with hsk.sampledAt := 0, hsk.dayAt := 0, hsk.mramAt := 0, time.tb := .replicate 4 { count := t }, time.tb2Source := if s.factory.optG then 0 else 1 }
    .next (s.coldStart facts 0)

/-- The cold start that RESTART 1 causes: a flush first (R596, trigger 5), then every step, up to TB0 = `ends`. TB0 runs on
(R88); the response already queued still leaves. -/
def State.restartNow (s : State) (f : StartFacts) (ends : Nat) : State :=
  let started := s.now
  let s :=
    if s.recorder.stopped || s.recorder.geyserRunning then s
    else
      let (n, s) := s.copyRam false
      { s.sealOpen false with recorder.counters := upd s.recorder.counters 0 sat32 }.raiseN 112 5 (some n)
  let s := s.clock ends
  let base (b : TimeBase) : TimeBase := { count := b.count }
  let kept := { s.afterLoss with time.tb := s.time.tb.map base, time.tb2Source := if s.factory.optG then 0 else 1,
                                 qcp.responses := s.qcp.responses, qcp.respondedAt := s.qcp.respondedAt, qcp.ownSlot := s.qcp.ownSlot }
  kept.coldStart f started

/-- A cold start that was asked for begins. -/
def State.beginCold (s : State) (f : StartFacts) (ends : Nat) : State :=
  if s.running && s.modes.restartPending == some .cold then s.restartNow f ends else s

/-- A cold start that a WRITE or an image asked for: what its tests yield and how long it takes are free (log 15). -/
def State.beginColdFree (s : State) : State :=
  if s.running && s.modes.restartPending == some .cold then
    let (k, s) := s.draw
    let c := Config.startChecks k
    let f : StartFacts :=
      { safOutcome := Config.selftestOutcome k, checkOk := c.getLsbD 0, readbackOk := c.getLsbD 1,
        codeOk := c.getLsbD 2, factoryOk := c.getLsbD 3, entropyOk := c.getLsbD 4, gateFaults := Config.startGateFaults k }
    s.restartNow f (s.now + (Config.startDuration k).val)
  else s

/-- RESTART_COLD (R474). -/
def execRestartCold (t : Nat) (req : Request) (facts : StartFacts) (ends : Nat) (s : State) : Out :=
  runHost t s fun s =>
    (s.hostWrite req (objId 1 0 0x33) [1] fun c s => s.restartWrite c [1]).beginCold facts ends

/-- IMAGE_VERIFY_DONE (R85). -/
def execImageVerifyDone (t : Nat) (s : State) : Out :=
  runRunning t s fun s => s.imageVerifyDone.beginColdFree

/-! ## The restart with state handover (R478-R481) -/

/-- RESTART_WITH_HANDOVER (R478): the write; the restart begins at the next command instant. -/
def execRestartWithHandover (t : Nat) (req : Request) (s : State) : Out :=
  runHost t s fun s => s.hostWrite req (objId 1 0 0x33) [2] fun c s => s.restartWrite c [2]

/-- Each fault that the handler still holds, in its contexts and its queues, gives its one record as the handler's memory is cleared
(R55). -/
def State.recordFaults (s : State) : State :=
  ([1, 2, 3].flatMap fun c => (s.events.context c).toList ++ s.events.queueOf c).foldl State.faultRecord s

/-- The restart begins (R479): SUP, EST, SOL, SRV and GNB stop, and RAM outside the retained block and the parsed structure is
cleared, the fault handler's among it. -/
def State.beginHandover (s : State) (fault : Bool) : State :=
  let s := s.recordFaults
  let idle (r : Route) : Route := { r with pending := false, mergedNow := 0 }
  { s with modes.phase := .restarting, modes.restartPending := none, modes.pendingMode := none, modes.restartAt := s.now,
           modes.restartCycle := s.cycle.count, modes.discardUpTo := if fault then s.tb3 else s.cycle.tk + s.cyc.commandAt,
           retained.supFault := fault, cycle.ticking := false, field.handover := true,
           events := { routes := s.events.routes.map idle }, image.verifying := none, qcp.deferredCommit := none,
           qcp.deferredAttest := none }

/-- A fault of the SUP core pair (R478, R481): the restart begins at once, LNK yielding for a LEAD (R511); a second one within
60 s of such a restart enters SAFE. -/
def State.supFault (s : State) (source : Nat) : State :=
  let again := match s.modes.faultRestartAt with | some a => decide (s.now ≤ a + 60 * second) | none => false
  let s := s.raise source (must := true)
  if again then s.enterSafe 9
  else
    let s := match (if s.group.role == .lead then s.successor else none) with
      | some m => (s.yieldTo m (s.commandInstantFrom (s.tb3 + 50 * us))).setRole .alone 3
      | none => s
    { s.beginHandover true with modes.faultRestartAt := some s.now }

/-- LOCKSTEP_MISMATCH (R478). -/
def execLockstepMismatch (t : Nat) (s : State) : Out := runRunning t s fun s => s.supFault 11
/-- SUP_RAM_ECC (R478). -/
def execSupRamEcc (t : Nat) (s : State) : Out := runRunning t s fun s => s.supFault 12

/-- The copy of the retained block that passes every check: the newer first (R481). -/
def State.goodCopy (s : State) : Option Copy :=
  let r := s.retained
  let both := if r.newerB then [r.b, r.a] else [r.a, r.b]
  (both.filterMap id).find? fun c => c.digest == s.image.digest && decide (s.tb3 ≤ c.tb3At + second)

/-- What GNB and SRV take back (R161, R400): each slot resumes by a release from the output that FIO held. -/
def State.restoreServo (s : State) (c : Copy) : State :=
  let slot (n : Nat) (l : LoopSlot) : LoopSlot := { l with injecting := false, hostSp := none, release := some (s.presented n) }
  let s1 := { s with servo := { c.servo with slots := c.servo.slots.mapIdx slot, ic := {}, stpVoltageOff := s.servo.stpVoltageOff } }
  let s2 := (s1.gnbRestart 2).gnbStart
  { s2 with gnss.ephemerides := c.ephemerides, gnss.almanacs := c.almanacs, gnss.utcHeld := c.utcHeld,
            gnss.predictions := c.predictions }

/-- The restarted islands start as after an image load: the starting values of their objects, then the entries of the loaded
structure (R58, R481). -/
def State.startIslands (s : State) : State :=
  let role := s.group.role
  let s := { s with law := {}, dyn := {}, sol := {}, solParams := {}, res := { counters := s.res.counters }, obsParams := {},
                    group.role := .alone }
  let s := (s.gnssSettings.gnbRestart 2).gnbStart.fusionStart.observerStart.servoStart
  let es : List (Bool × Nat × ParamRec) := match s.image.loaded with
    | some i => i.entries.filter fun (e : Bool × Nat × ParamRec) => [0x03, 0x05, 0x06, 0x07].contains (objIsland e.2.2.object)
    | none => []
  let s := es.foldl (fun (s : State) e => match s.loadEntry e.1 e.2.2 with | .ok s => s | .error _ => s) s
  { s.observerStart with group.role := role }

/-- The role after a restart (R522). -/
def State.roleAfterRestart (s : State) (recorded : Role) : State :=
  let lead := s.contacts.any fun m => (at? s.group.peers m).role == 0
  let s := { s with gcycle := { firstModeAt := s.now, roleSettled := decide (s.cyc.groupSize ≤ 1) || recorded == .alone } }
  if s.cyc.groupSize ≤ 1 then s
  else if lead then (if s.group.role == .resync then s.requestCopy else s.toResync 1)
  else if s.group.role == .alone then s
  else s.setRole .alone 6

/-- The first tick after a restart (R479, step 7): the first whole multiple of T at least 1 ms away; the alignment buffer starts
empty. -/
def State.resumeCycle (s : State) : State :=
  let p := s.cyc.period
  let first := (s.tb3 + ms + p - 1) / p * p
  { s with cycle := { s.cycle with ticking := s.hasStructure && p != 0, nextTick := first, released := true, buffer := [], held := [],
                                   slots := [], stopped := false, frame := [], late := [], frameDone := true, estDone := true,
                                   estEntry := none, back := none, acceptDone := true, commandLate := false,
                                   instantDone := true } }

/-- The end of a restart with state handover: steps 4 to 6 of R479. -/
def State.handoverReady (s : State) (f : StartFacts) : State :=
  let fault := s.retained.supFault
  let (extOk, s) := (s.activatePending true).verifyActive true
  let s := { s with trust.extMeas := s.extMeasure, trust.entropyFail := !f.entropyOk, modes.phase := .running,
                    retained.supFault := false }
  let copy := if extOk && f.codeOk then s.goodCopy else none
  let s := { s with modes.discardUpTo := (copy.map fun (c : Copy) => c.tb3At).getD s.modes.discardUpTo }
  let recorded := match copy with | some c => c.role | none => .alone
  let s := match copy with
    | some c => { (((s.takeCopy c).restoreServo c).adoptMode c.mode) with obs.resume := true }
    | none => s.startIslands
  let s := (s.resumeCycle.roleAfterRestart recorded)
  let s := if fault then s.raise 13 (must := true) else s
  let s := { s with modes.startKind := if copy.isSome then 1 else 2 }
  let s := if !extOk || !f.codeOk then s.enterSafe 7 else if copy.isNone then s.enterSafe 8 else s
  let outcome := if copy.isSome then 3 else if extOk && f.codeOk then 4 else 2
  let step := if !extOk then 4 else if !f.codeOk then 5 else 6
  let duration := BitVec.ofNat 32 ((s.now - s.modes.restartAt) / 1000)
  let s := s.record 0x0005 0x01 (BitVec.ofNat 32 (65536 + outcome * 256 + step)) duration (BitVec.ofNat 32 s.unsigned) 0 s.tb3
  { s with modes.report := { kind := 1, outcome := BitVec.ofNat 8 outcome, step := BitVec.ofNat 8 step, duration := duration,
                             tb0At := s.now } }

/-- HANDOVER_READY (R481). -/
def execHandoverReady (t : Nat) (facts : StartFacts) (s : State) : Out :=
  runPowered t s fun s => if s.modes.phase == .restarting then s.handoverReady facts else s

/-! ## The supply (R599-R601, R667-R675) -/

/-- SUPPLY_RETURN (R600): the module carries on without a restart. -/
def execSupplyReturn (t : Nat) (s : State) : Out :=
  runPowered t s fun s =>
    if s.power.onHoldup && s.supplied then { s with power.onHoldup := false, panel := s.panel.powerReturn }.recResume else s

/-- HOLDUP_EXHAUSTED (R671): the orderly stop, to its end. Every gate opens, every output is off, and every island is in reset;
what a geyser had not finished stays unsealed. -/
def execHoldupExhausted (t : Nat) (s : State) : Out :=
  runPowered t s fun s =>
    if s.power.onHoldup then
      let tb := s.time.tb
      { s.afterLoss with modes.phase := .off, power.noNvWrites := true, time.tb := tb }
    else s

/-- PWR_INPUT_CUT (R667). -/
def execPwrInputCut (t : Nat) (inputB : Bool) (s : State) : Out :=
  run (fun _ => true) t s fun s => if inputB then { s with power.bCut := true } else { s with power.aCut := true }

/-- PWR_INPUT_LEVEL (R669): an input crosses 18 V. One whose level is reported is connected again (log 15). -/
def execPwrInputLevel (t : Nat) (inputB ok : Bool) (s : State) : Out :=
  run (fun _ => true) t s fun s =>
    if inputB then { s with power.bOk := ok, power.bCut := false } else { s with power.aOk := ok, power.aCut := false }

/-- OVERTEMP (R675): the baseplate temperature on AUX7 has stayed above 72 °C (`hot`), or below 68 °C, for 10 s. -/
def execOvertemp (t : Nat) (hot : Bool) (s : State) : Out :=
  runPowered t s fun s =>
    let centi := F32.nearest (F32.mul s.ain.channels[23].value (F32.ofNat 100))
    let lasted (since : Option Nat) : Bool := match since with | some x => decide (10 * second ≤ s.now - x) | none => false
    let report (s : State) (on : Bool) : State :=
      { s with power.overtemp := on }.raise 124 (some (if on then 256 else 0)) (some (BitVec.ofInt 32 centi))
    if hot != s.power.overtemp && lasted (if hot then s.power.hotSince else s.power.coolSince) then report s hot
    else s

/-- STP_CLAMPING (R673). -/
def execStpClamping (t : Nat) (on : Bool) (s : State) : Out :=
  runPowered t s fun s => if s.factory.optS then { s with power.stpClamping := on } else s

/-- HOLDUP_CHARGED (R670). -/
def execHoldupCharged (t : Nat) (charged : Bool) (s : State) : Out :=
  runPowered t s fun s => { s with power.holdupCharged := charged }

end Sys2Proof.Machine
end

