-- ==== Sys2Proof/Machine/Host.lean ====
section
/-! DEFINITION. The command protocol: arriving frames, identity, READ and WRITE of any object, ABORT, subscriptions, telemetry,
associations and the settings of the host interface (spec/16_command_protocol.md; spec/13_modes_and_start_up.md, R482-R483). -/

namespace Sys2Proof.Machine

/-! ## READ and WRITE (R570) -/

/-- READ (R570). -/
def execRead (t : Nat) (req : Request) (object : Word) (offset : BitVec 32) (max : BitVec 16) (s : State) : Out :=
  runHost t s fun s =>
    s.hostRead req object offset.toNat max.toNat (readChanges object) fun s => s.readObject object

/-- WRITE (R570). A restart that it asks for begins once it is answered. -/
def execWrite (t : Nat) (req : Request) (object : Word) (value : List (BitVec 8)) (s : State) : Out :=
  runHost t s fun s =>
    (s.hostWrite req object value fun c s =>
      checkValue (decide (value.length ≤ if req.dtls.isSome then 1392 else 1424)) s fun _ => s.writeObject c object value).beginColdFree

/-! ## PING (R569) -/

/-- The body of a PING response. -/
def State.pingBody (s : State) (req : Request) : List Byte :=
  nat8 s.qcpInUse ++ [0x32] ++ be8 s.group.memberIndex ++ nat8 s.group.role.code ++ nat8 s.modes.mode.code ++
    nat8 (s.portSecurity req.ingress) ++ zeros 2 ++ be32 s.optionsWord ++ be32 ((s.image.loaded.map (·.serial)).getD 0) ++
    be64 s.factory.serial ++ nat64 s.tb3 ++ nat64 s.now

/-- PING (R569). -/
def execPing (t : Nat) (req : Request) (s : State) : Out :=
  runHost t s fun s => s.serve req 0x01 [] none fun s => { state := s, body := s.pingBody req }

/-! ## ABORT (R482, R483, R571) -/

/-- The functions that work a command has started may be stopped at: what each leaves, its bound in us; none when it is idle. -/
def State.abortFunction (obj : Word) (s : State) : Option (Nat × State) :=
  let inst := objInst obj
  let num := objNum obj
  match objIsland obj with
  | 0x01 =>
    if num = 0x31 then
      if s.pendingOf.isSome then
        some (10, { s with modes.pendingMode := none, group.groupWrites := s.group.groupWrites.filter fun w => !isModeWrite w })
      else none
    else if num = 0x33 then
      match s.modes.restartPending with
      | some _ => some (10, { s with modes.restartPending := none })
      | none => none
    else if 0x20 ≤ num ∧ num ≤ 0x26 then
      match s.image.verifying, s.qcp.deferredCommit with
      | some _, some c => some (100, { s with image.verifying := none, qcp.deferredCommit := none }.respond c.req 0x30 .aborted [])
      | _, _ => none
    else none
  | 0x06 =>
    let check := s.sol.queue.any (·.check) || (s.sol.running.map (·.check)) == some true
    if num = 0x23 && check then
      let run := if (s.sol.running.map (·.check)) == some true then none else s.sol.running
      some (30, { s with sol.queue := s.sol.queue.filter fun j => !j.check, sol.running := run, res.checkAt := s.tb3, res.checkResult := 3 })
    else none
  | 0x07 =>
    if inst < 0x20 then
      let l := at? s.servo.slots inst
      if num = 0x21 && l.holding then some (20, s.setSlot inst fun l => { l with holdLeft := 0 })
      else if num = 0x22 && l.hostSp.isSome then some (20, s.setSlot inst fun l => { l with hostSp := none })
      else none
    else if 0x20 ≤ inst ∧ inst < 0x30 ∧ num = 0xA then
      let g := inst - 0x20
      let moves (a : Nat) : Bool := (s.axis g a).host && (s.axis g a).moving
      if [0, 1, 2].any moves then
        some (20, [0, 1, 2].foldl (fun s a =>
          if moves a then s.setAxis g a fun x => { x with target := x.stopPoint, goal := x.stopPoint } else s) s)
      else none
    else if inst = 0x50 then
      if num ≤ 1 then if s.servo.ic.injRunning then some (20, s.stopInjection) else none
      else if s.servo.ic.capState = 1 ∨ s.servo.ic.capState = 2 then some (10, { s with servo.ic.capState := 0 })
      else none
    else none
  | 0x0D => match s.qcp.deferredAttest with
    | some _ => some (200, { s with qcp.deferredAttest := none })
    | none => none
  | 0x0E => if inst = 0x20 && s.transferring then some (50, s.stopTransfers) else none
  | 0x0F => if s.panel.queue.isEmpty then none else some (50, { s with panel.queue := [] })
  | _ => none

/-- Does an object exist on this module? -/
def State.objectExists (s : State) (obj : Word) : Bool := (s.readObject obj).status != .badObject

/-- An ABORT is judged and carried out. What it stops is recorded (R568), and reported by source 5. -/
def State.abort (req : Request) (obj : Word) (s : State) : Done :=
  let no (st : Status) : Done := refuse st s (be32 obj ++ zeros 4)
  let nothing : Done := { state := s, body := be32 obj ++ zeros 4 }
  if !s.objectExists obj then no .badObject
  else if objIsland obj = 9 then no .wrongMode
  else if objIsland obj = 6 && objNum obj != 0x23 && s.positioning then no .wrongMode
  else match s.abortFunction obj with
    | none => nothing
    | some (bound, s) =>
      let (k, s) := s.draw
      let us := min bound (Config.abortTime k)
      let s := (s.recordCommand req 0x12 obj [] s.tb3).raiseN 5 obj.toNat (some us)
      { state := s, body := be32 obj ++ nat32 us }

/-- ABORT (R482): taken from its own slot, ahead of the queue; while another waits there it is answered with BUSY (R571). -/
def execAbort (t : Nat) (req : Request) (object : Word) (s : State) : Out :=
  runHost t s fun s =>
    let c : Command := { req := req, opcode := 0x12, body := be32 object }
    let mine := match s.qcp.abortSlot with | some x => x == { c with at_ := x.at_ } | none => true
    if !s.running then s.ownBusy req 0x12
    else if !mine then s.respond req 0x12 .busy []
    else
      let s := { s with qcp.abortSlot := none }
      let d := if req.modPort != 47000 then refuse .badValue s
        else if s.group.versionHold then refuse .version s else s.abort req object
      d.state.respond req 0x12 d.status d.body

/-! ## Subscriptions (R576, R577) -/

/-- Subscriptions end: frames queued for them are sent to no one (R583). -/
def State.dropSubs (s : State) (gone : Subscription → Bool) : State :=
  let hs := (s.qcp.subs.filter gone).map (·.handle)
  { s with qcp.subs := s.qcp.subs.filter fun x => !gone x,
           qcp.tele := s.qcp.tele.map fun f => { f with dest := f.dest.filter fun h => !hs.contains h },
           qcp.aiOpen := s.qcp.aiOpen.filter fun x => !hs.contains x.1,
           qcp.aiSkip := s.qcp.aiSkip.filter fun x => !hs.contains x.1 }

/-- Outputs in a second that an AI SELECT asks for, as a fraction (R577). -/
def State.aiLoad (s : State) (select : List Byte) : Nat × Nat :=
  (List.range 16).foldl (fun (a : Nat × Nat) n =>
    let m := fieldAt select (2 * n) 2
    let c := at? s.ain.channels n
    if m = 0 || !c.active then a else (a.1 * m + 1000000000 / outputPeriod c.rate.toNat * a.2, a.2 * m)) (0, 1)

/-- The length of an OBJECTS body for these objects (R582). -/
def State.objectsLength (s : State) (objs : List Word) : Nat :=
  (objs.map fun o =>
    let r := s.readObject o
    8 + if r.status == .ok then (r.value.length + 3) / 4 * 4 else 0).foldl (· + ·) 12

/-- Is a SELECT in order (R577)? -/
def State.selectOk (s : State) (req : Request) (stream port : Nat) (select : List Byte) : Bool :=
  match stream with
  | 1 => select.length == 16
  | 2 | 3 => select.isEmpty
  | 4 => select.length == 1 && decide (beVal select < 4)
  | 5 =>
    let others := s.qcp.subs.filter fun x => x.stream == 5 && !(x.src == req.src && x.port.toNat == port)
    let load := (others.map (·.select) ++ [select]).foldl (fun (a : Nat × Nat) v =>
      let (n, d) := s.aiLoad v
      (a.1 * d + n * a.2, a.2 * d)) (0, 1)
    select.length == 32 && decide (load.1 ≤ 50000 * load.2)
  | 6 =>
    let n := fieldAt select 0 1
    let objs := (List.range n).map fun k => BitVec.ofNat 32 (fieldAt select (4 + 4 * k) 4)
    decide (1 ≤ n) && decide (n ≤ 16) && zeroAt select 1 3 && select.length == 4 + 4 * n && !objs.any readChanges &&
      decide (s.objectsLength objs ≤ if req.dtls.isSome then 1400 else 1432)
  | _ => false

/-- SUBSCRIBE (R576): a key that exists keeps its handle. -/
def State.subscribe (req : Request) (stream port lease divider : Nat) (select : List Byte) (s : State) : Done :=
  checkValue (port != 0 && decide (1 ≤ lease) && decide (lease ≤ 600) &&
      (stream == 2 || (decide (1 ≤ divider) && decide (divider ≤ 1000))) && s.selectOk req stream port select) s fun _ =>
    let key (x : Subscription) : Bool := x.src == req.src && x.port.toNat == port && x.stream.toNat == stream
    let free := (List.range 16).find? fun h => !s.qcp.subs.any (·.handle == h)
    match (s.qcp.subs.find? key).map (·.handle) <|> free with
    | none => refuse .noSpace s
    | some h =>
      let expires := s.tb3 + lease * second
      let x : Subscription := { handle := h, stream := BitVec.ofNat 8 stream, dtls := req.dtls, ingress := req.ingress, src := req.src,
                                port := BitVec.ofNat 16 port, expires := expires, divider := divider, select := select }
      { state := { s with qcp.subs := s.qcp.subs.filter (fun y => !key y) ++ [x] }, body := nat8 h ++ zeros 3 ++ nat64 expires }

/-- SUBSCRIBE (R576). -/
def execSubscribe (t : Nat) (req : Request) (stream : BitVec 8) (destPort lease divider : BitVec 16) (select : List (BitVec 8))
    (s : State) : Out :=
  runHost t s fun s =>
    s.serve req 0x20 (be8 stream ++ [0] ++ be16 destPort ++ be16 lease ++ be16 divider ++ select)
      (some (stream.setWidth 32, [])) fun s => s.subscribe req stream.toNat destPort.toNat lease.toNat divider.toNat select

/-- UNSUBSCRIBE (R576): one stream, or with 0xFF every stream, of the sender's DEST_PORT. -/
def execUnsubscribe (t : Nat) (req : Request) (stream : BitVec 8) (destPort : BitVec 16) (s : State) : Out :=
  runHost t s fun s =>
    s.serve req 0x21 (be8 stream ++ be16 destPort ++ [0]) (some (stream.setWidth 32, [])) fun s =>
      checkValue (stream == 0xFF || (decide (1 ≤ stream.toNat) && decide (stream.toNat ≤ 6))) s fun _ =>
        done (s.dropSubs fun x => x.src == req.src && x.port == destPort && (stream == 0xFF || x.stream == stream))

/-- LEASE_EXPIRY (R576). -/
def execLeaseExpiry (t : Nat) (handle : Fin 16) (s : State) : Out :=
  runPowered t s fun s => s.dropSubs fun x => x.handle == handle && decide (x.expires ≤ s.tb3)

/-! ## Telemetry (R578, R583) -/

/-- A frame as it is sent: an EVENT frame carries the MERGED count of its source at that moment (R578). -/
def State.sealTele (s : State) (f : TeleFrame) : TeleFrame :=
  if f.stream = 1 then { f with body := f.body.take 2 ++ nat16 (at? s.events.routes f.source).merged ++ f.body.drop 4 } else f

/-- The datagram of an unsolicited frame (R559, R561, R577): TSEQ is its SEQUENCE, the drop count its STATUS. -/
def TeleFrame.frame (f : TeleFrame) (version dropped : Nat) : List Byte :=
  qcpFrame version 4 f.tseq (0x007F + f.stream.setWidth 16) dropped f.body

/-- TELEMETRY_SEND (R583): the next frame goes to every subscription it was queued for, with the drop count. -/
def execTelemetrySend (t : Nat) (s : State) : Out :=
  runPowered t s fun s =>
    match s.qcp.tele with
    | [] => s
    | f :: rest =>
      let s := { s with qcp.tele := rest }
      if f.dest.isEmpty then s
      else
        let f := s.sealTele f
        { s with qcp.sentTele := f.dest.map fun h => (h, f.frame s.qcpInUse s.qcp.dropped), qcp.dropped := 0 }

/-! ## DTLS (R586, R587) -/

/-- A failed handshake or record: counted, and source 110 once for each run. -/
def State.dtlsFailed (s : State) (ingress : BitVec 8) : State :=
  let s := { s with qcp.counters := upd s.qcp.counters 8 sat32 }
  if s.qcp.dtlsFailRun then s else { s with qcp.dtlsFailRun := true }.raiseN 110 ingress.toNat

/-- An association closes: its subscriptions end. -/
def State.closeAssociation (s : State) (id : Nat) : State :=
  { s with qcp.associations := s.qcp.associations.filter (·.id != id) }.dropSubs fun x => x.dtls == some id

/-- DTLS_HANDSHAKE (R587): a ninth takes the place of the association idle longest, when that is 60 s or more. -/
def execDtlsHandshake (t : Nat) (req : Request) (ok : Bool) (s : State) : Out :=
  runPowered t s fun s =>
    if s.portSecurity req.ingress = 0 then { s with qcp.counters := upd s.qcp.counters 1 sat32 }
    else if !ok then s.dtlsFailed req.ingress
    else
      let oldest := s.qcp.associations.foldl (fun (m : Option Association) a => match m with
        | none => some a
        | some b => if a.lastUsed < b.lastUsed then some a else m) none
      let room : Option State :=
        if s.qcp.associations.length < 8 then some s
        else match oldest with
          | some a => if a.lastUsed + 60 * second ≤ s.now then some (s.closeAssociation a.id) else none
          | none => none
      match room with
      | none => s.dtlsFailed req.ingress
      | some s =>
        let (k, s) := s.draw
        let a : Association := { src := req.src, port := req.port, ingress := req.ingress, lastUsed := s.now, id := k }
        { s with qcp.associations := s.qcp.associations ++ [a], qcp.dtlsFailRun := false }

/-- QCP_SETTING_EFFECT (R588): what was written 100 ms ago takes effect; DTLS_ONLY ends the plain subscriptions of its port. -/
def execQcpSettingEffect (t : Nat) (s : State) : Out :=
  runPowered t s fun s =>
    let s := match s.qcp.addressNext with
      | some (at_, a) => if at_ ≤ s.now then { s with qcp.address := a, qcp.addressNext := none } else s
      | none => s
    match s.qcp.securityNext with
    | some (at_, v) =>
      if at_ ≤ s.now then
        let s := { s with qcp.security := v, qcp.securityNext := none }
        s.dropSubs fun x => x.dtls.isNone && s.portSecurity x.ingress == 2
      else s
    | none => s

/-! ## Arriving frames (R559-R568) -/

/-- Is an opcode known, and the length its body has (R562 steps 5 and 6)? -/
def bodyFits (op : Nat) (b : List Byte) : Option Bool :=
  match op with
  | 0x01 => some b.isEmpty
  | 0x10 => some (b.length == 12)
  | 0x11 => some (decide (8 ≤ b.length) && b.length == 8 + fieldAt b 6 2)
  | 0x12 | 0x21 | 0x30 => some (b.length == 4)
  | 0x20 => some (decide (8 ≤ b.length))
  | 0x31 | 0x42 => some (b.length == 8)
  | 0x32 => some (b.length == 32)
  | 0x33 => some (b.length == 252)
  | 0x40 => some (b.length == 16)
  | 0x41 => some (decide (16 ≤ b.length) && b.length == 16 + fieldAt b 10 2)
  | 0x43 => some (b.length == 12)
  | _ => none

/-- Are the reserved bytes of a request's body 0? A frame in which one is not breaks R567's rule and is refused as a body that does
not suit its opcode (DEDUCED, log 18). -/
def reservedZero (op : Nat) (b : List Byte) : Bool :=
  match op with
  | 0x10 => zeroAt b 10 2
  | 0x11 => zeroAt b 4 2
  | 0x20 => zeroAt b 1 1
  | 0x21 | 0x43 => zeroAt b 3 1
  | 0x30 | 0x40 | 0x42 => zeroAt b 1 3
  | 0x31 => zeroAt b 5 3
  | _ => true

/-- The largest body (R559). -/
def bodyLimit (req : Request) : Nat := if req.dtls.isSome then 1400 else 1432

/-- Does a request match one that is still deferred (R564), or one that still waits, which must not take effect twice (DEDUCED,
log 18)? -/
def State.isDeferred (s : State) (req : Request) : Bool :=
  let same (c : Command) : Bool := c.req.src == req.src && c.req.port == req.port && c.req.seq == req.seq && c.req.crc == req.crc
  s.qcp.deferredCommit.any same || s.qcp.deferredAttest.any same || s.qcp.abortSlot.any same || s.qcp.queue.any same

/-- A frame that passed every check is a command: ABORT waits in its own slot, any other in the queue; with no room, or while
SUP does not run, NET answers BUSY (R563, R566, R571). -/
def State.queueCommand (s : State) (c : Command) : State :=
  let op := c.opcode.toNat
  if !s.running then s.ownBusy c.req op
  else if op = 0x12 then
    if s.qcp.abortSlot.isSome then s.respond c.req op .busy []
    else { s with qcp.abortSlot := some c, qcp.busyRun := false }
  else if 32 ≤ s.qcp.queue.length then s.ownBusy c.req op
  else { s with qcp.queue := s.qcp.queue ++ [c], qcp.busyRun := false }

/-- A frame that passed steps 1 and 2: replayed, dropped as a duplicate, refused by NET, or queued. -/
def State.takeFrame (s : State) (req : Request) (b : List Byte) : State :=
  let op := fieldAt b 8 2
  let body := sliceAt b 16 (b.length - 20)
  let hit := s.qcp.cache.find? fun e => s.cacheLive e && e.resp.req.src == req.src && e.resp.req.port == req.port &&
    e.resp.req.seq == req.seq && e.resp.req.crc == req.crc
  let no (st : Status) (body : List Byte := []) : State := s.respond req op st body
  match hit with
    | some e =>
      { s with qcp.responses := (if s.qcp.respondedAt < s.now then [] else s.qcp.responses) ++ [{ e.resp with req := req, replay := true }],
               qcp.respondedAt := s.now, qcp.counters := upd s.qcp.counters 4 sat32 }
    | none =>
      if s.isDeferred req then { s with qcp.counters := upd s.qcp.counters 5 sat32 }
      else if fieldAt b 2 1 / 16 ≠ 3 then no .version (nat8 s.qcpInUse)
      else if fieldAt b 3 1 ≠ 0 ∨ fieldAt b 11 1 ≠ 0 then no .badValue
      else if 0x80 ≤ op ∧ op ≤ 0x85 then { s with qcp.counters := upd s.qcp.counters 0 sat32 }
      else if !portTakes op req.modPort then no .badValue
      else match bodyFits op body with
        | some true =>
          if reservedZero op body && decide (body.length ≤ bodyLimit req) then
            s.queueCommand { req := req, opcode := BitVec.ofNat 16 op, body := body, at_ := s.tb3 }
          else no .badValue
        | _ => no .badValue

/-- Step 1 of R562: the length, MAGIC, LENGTH and the CRC-32C of a datagram. -/
def frameIntact (frame : List Byte) : Bool :=
  let n := frame.length
  decide (20 ≤ n) && fieldAt frame 0 2 == 0x5158 && fieldAt frame 12 4 == n - 20 &&
    (crc32c (frame.take (n - 4))).toNat == fieldAt frame (n - 4) 4

/-- A frame that its port's security mode admits meets step 1 and those after it. The frame itself carries SEQUENCE and the CRC. -/
def State.admitQcp (s : State) (req : Request) (frame : List Byte) : State :=
  if !frameIntact frame then { s with qcp.counters := upd s.qcp.counters 0 sat32 }
  else s.takeFrame { req with seq := BitVec.ofNat 32 (fieldAt frame 4 4), crc := BitVec.ofNat 32 (fieldAt frame (frame.length - 4) 4) } frame

/-- QCP_FRAME_RECEIVED (R556, R562, R586): through an association the checks apply to the frame inside the record (R587), so a record on
a PLAIN port, and one of no association, fall before them. -/
def execQcpFrameReceived (t : Nat) (req : Request) (frame : List (BitVec 8)) (s : State) : Out :=
  runHost t s fun s =>
    let count (i : Nat) : State := { s with qcp.counters := upd s.qcp.counters i sat32 }
    let security := s.portSecurity req.ingress
    if !(at? s.net.ports (req.ingress.toNat - 0x10)).en then s
    else if req.modPort = 47001 then count 9
    else if req.modPort ≠ 47000 ∧ req.modPort ≠ 47002 then s
    else match req.dtls with
      | none => if frameIntact frame && security == 2 then count 1 else s.admitQcp req frame
      | some id =>
        if security = 0 then count 1
        else if s.qcp.associations.any fun (a : Association) => a.id == id && a.src == req.src && a.port == req.port then
          let used (a : Association) : Association := if a.id = id then { a with lastUsed := s.now } else a
          { s with qcp.associations := s.qcp.associations.map used, qcp.dtlsFailRun := false }.admitQcp req frame
        else s.dtlsFailed req.ingress

end Sys2Proof.Machine
end

