-- ==== Sys2Proof/Machine/Instant.lean ====
section
/-! DEFINITION. The command instant and the cycle's report (spec/01_cycle_and_islands.md, R36-R37; spec/14_group_redundancy.md,
R498; spec/15_networks.md, R535; spec/16_command_protocol.md, R577-R583; spec/19_front_panel_display.md, R654), and the end of a
fault's handling (spec/01_cycle_and_islands.md, R53-R56). -/

namespace Sys2Proof.Config
open Sys2Proof.Machine

/-- The pixels a field of the layout shows: the record, the status and value of its object, the mode, the role and the raised
sources, newest first; no rule draws a glyph (log 21). -/
opaque fieldPixels : LayoutRec → Nat → List Byte → Nat → Nat → List Nat → List Byte

end Sys2Proof.Config

namespace Sys2Proof.Machine

/-! ## AUTH (R498, R507) -/

/-- The instant `x` of a takeover or a yield has come. -/
def instantCame (now : Nat) (x : Option Nat) : Bool := match x with | some i => decide (i ≤ now) | none => false

/-- LNK judges AUTH at the command instant `at_` of a cycle that is granted or not: a takeover or a yield whose instant has come
clears it; in role ALONE while HANDOVER is set it keeps its state. A LEAD by takeover leads from its takeover instant (log 16). -/
def State.judgeAuth (s : State) (at_ : Nat) (granted : Bool) : State :=
  let y := instantCame s.tb3 s.group.yieldAt
  let o := instantCame s.tb3 s.group.takeoverAt
  if y || o then
    { s with group.yieldAt := if y then none else s.group.yieldAt, group.takeoverAt := if o then none else s.group.takeoverAt }.clearAuth
  else if s.group.role == .alone && s.field.handover then s
  else if granted && s.authority && !(s.group.role == .lead && decide (at_ < s.group.lastTakeoverAt)) then
    { s with group.auth := true }
  else s.clearAuth

/-! ## The flip (R36, R384) -/

/-- CMP1 flips SRV's command snapshot when this cycle's was written; SAF reads the new front copy (R445), and every shaped axis
takes its new target (R381). -/
def State.flip (s : State) (at_ : Nat) : State :=
  match s.cycle.back with
  | some b =>
    if b.cycle = s.cycle.count then
      { s with cycle.front := b, cycle.back := none, cycle.appliedBefore := s.cycle.applied, cycle.applied := b.setpoints,
               cycle.appliedAt := at_, cycle.flipsMissed := 0, cycle.staleRaised := false }.safReads.aimAll
    else { s with cycle.flipsMissed := s.cycle.flipsMissed + 1 }
  | none => { s with cycle.flipsMissed := s.cycle.flipsMissed + 1 }

/-- Does the flip happen at this command instant? -/
def State.flips (s : State) : Bool := (s.cycle.back.map (·.cycle)) == some s.cycle.count

/-- The command points of this member with the thruster slice of each (R535): the points of kinds 9 and 0xA a thruster slice
names that deliver nothing. -/
def State.commandPoints (s : State) : List (Nat × PointRec) :=
  match s.image.loaded with
  | none => []
  | some i =>
    (i.slices.filter (·.kind == 0)).flatMap fun x =>
      (i.points.filter fun p => x.points.contains p.id && (p.kind == 9 || p.kind == 10) && p.period == 0 && p.member == s.me).map
        fun p => (x.index, p)

/-- The command record of a slice (R534). -/
def State.commandRecord (s : State) (slice : Nat) (p : PointRec) (at_ : Nat) : CommandRecord :=
  let x := setOf s.cycle.front.setpoints slice
  { point := p.id, slice := slice, seq := s.cycle.front.seq, authority := s.group.auth, armed := s.cycle.front.armed,
    member := s.group.memberIndex, thrust := x.thrust, azimuth := x.azimuth, pitch := x.pitch, speed := x.speed,
    time := BitVec.ofNat 32 at_ }

/-- NET queues one command record for every command point of the member (R535). -/
def State.sendRecords (s : State) (at_ : Nat) : State :=
  s.commandPoints.foldl (fun (s : State) (x : Nat × PointRec) =>
    let r := s.commandRecord x.1 x.2 at_
    if x.2.kind = 9 then s.queueRecord x.2 r else s.sendRecord x.2 r)
    { s with net.sentRecords := [] }

/-! ## The cycle's report (R577-R583) -/

/-- The four bytes of a status object. -/
def State.peek (s : State) (obj : Word) : List Byte :=
  let r := s.readObject obj
  if r.status == .ok then r.value.take 4 else zeros 4

/-- The CYCLE body (R579). -/
def State.cycleBody (s : State) (at_ : Nat) : List Byte :=
  let pair (n : Nat) : List Byte :=
    if s.thrusters.any (·.slice == n) then
      let x := setOf s.cycle.front.setpoints n
      be32 x.thrust ++ be32 x.azimuth
    else zeros 8
  nat64 at_ ++ nat64 s.cycle.count ++ nat8 s.modes.mode.code ++ nat8 s.group.role.code ++ nat8 s.res.result.toNat ++
    nat8 s.res.stopReason.toNat ++ s.peek (objId 5 0 0x200) ++ s.peek (objId 5 0 0x100) ++ s.peek (objId 6 0 0x100) ++
    s.peek (objId 6 0 0) ++ s.peek (objId 0xB 0 0) ++ sliceAt s.obsEstimate 8 36 ++ f32Bytes s.obsOut.posSigmaMajor ++
    be32 s.law.power.truePower ++ be32 s.law.power.pLim ++ (List.range 16).flatMap pair

/-- One object of an OBJECTS body (R582). -/
def State.objectEntry (s : State) (obj : Word) : List Byte :=
  let r := s.readObject obj
  let v := if r.status == .ok then r.value else []
  be32 obj ++ nat8 r.status.code ++ zeros 1 ++ nat16 v.length ++ v ++ zeros ((4 - v.length % 4) % 4)

/-- The OBJECTS body of a SELECT (R582). -/
def State.objectsBody (s : State) (at_ : Nat) (select : List Byte) : List Byte :=
  let n := fieldAt select 0 1
  nat64 at_ ++ nat8 n ++ zeros 3 ++ (List.range n).flatMap fun i => s.objectEntry (BitVec.ofNat 32 (fieldAt select (4 + 4 * i) 4))

/-- Is a subscription served in this cycle: every DIVIDER-th? -/
def Subscription.due (x : Subscription) : Bool := decide (x.divider ≤ x.counter + 1)

/-- The streams CYCLE and OBJECTS enter the telemetry queue. -/
def State.reportStreams (s : State) (at_ : Nat) : State :=
  let cycles := s.qcp.subs.filter fun x => x.stream == 3 && x.due
  let s := if cycles.isEmpty then s else s.pushTele 3 0 (s.cycleBody at_) (cycles.map (·.handle))
  let objects := s.qcp.subs.filter fun x => x.stream == 6 && x.due
  let s := objects.foldl (fun (s : State) (x : Subscription) => s.pushTele 6 0 (s.objectsBody at_ x.select) [x.handle]) s
  let next (x : Subscription) : Subscription :=
    if x.stream == 3 || x.stream == 6 then { x with counter := if x.due then 0 else x.counter + 1 } else x
  { s with qcp.subs := s.qcp.subs.map next }

/-! ## The display (R654) -/

/-- The pixels of a layout field, at the length its rectangle has. -/
def State.drawField (s : State) (l : LayoutRec) : List Byte :=
  let r := s.readObject l.object
  let n := l.w * l.h * (if l.strip then 1 else 2) / 8
  let b := Config.fieldPixels l r.status.code r.value s.modes.mode.code s.group.role.code s.events.raised
  (b ++ zeros n).take n

/-- Field `i` of the layout is drawn; where its pixels differ from those last queued for it, SUP queues a request. A BUSY refusal is
drawn again at the next occasion. -/
def State.queueField (s : State) (i : Nat) (l : LayoutRec) : State :=
  let b := s.drawField l
  if ((s.panel.drawn.find? (·.1 == i)).map (·.2)) == some b then s
  else match s.panel.enqueue { layoutRect l with pixels := b } with
    | some p => { s with panel := { p with drawn := p.drawn.filter (·.1 != i) ++ [(i, b)] } }
    | none => s.panelBusy

/-- The report draws the layout in the first cycle after a whole second of TB3, and in a cycle in which the mode or the role has
changed. -/
def State.drawLayout (s : State) : State :=
  let sec := s.tb3 / second
  let shown := some (s.modes.mode.code, s.group.role.code)
  if !s.factory.optP || (s.panel.drawnSecond == sec && s.panel.drawnState == shown) then s
  else (s.layout.zipIdx.foldl (fun (s : State) (x : LayoutRec × Nat) => s.queueField x.2 x.1)
    { s with panel.drawnSecond := sec, panel.drawnState := shown })

/-! ## COMMAND_INSTANT (R36) -/

/-- A restart with state handover that waits for this command instant begins (R478). -/
def State.restartDue (s : State) : State :=
  match s.modes.restartPending with
  | some .handover | some .update => if s.modes.restartInstant ≤ s.tb3 then s.beginHandover false else s
  | _ => s

/-- The command instant of the present cycle. -/
def State.instant (s : State) : State :=
  let at_ := s.cycle.tk + s.cyc.commandAt
  let flipped := s.flips
  let s := { s with cycle.instantDone := true }.judgeAuth at_ (s.group.granted == some s.cycle.count)
  let s := s.flip at_
  let s := if flipped then s.sendRecords at_ else s
  (s.reportStreams at_).drawLayout.restartDue

/-- COMMAND_INSTANT (R36). During a restart with state handover no snapshot flips and no cycle is granted; LNK judges AUTH at the
command instants that follow its beginning (R498). -/
def execCommandInstant (t : Nat) (s : State) : Out :=
  runPowered t s fun s =>
    if s.running then
      (if s.cycle.ticking && !s.cycle.instantDone && decide (s.cycle.tk + s.cyc.commandAt ≤ s.tb3) then s.instant else s)
    else if s.modes.phase == .restarting && decide (s.commandInstantFrom (s.modes.discardUpTo + 1) ≤ s.tb3) then
      s.judgeAuth (s.commandInstantFrom (s.modes.discardUpTo + 1)) false
    else s

/-! ## FAULT_HANDLED (R53-R56) -/

/-- The bit of SAFE_CAUSE that the handling of a source sets (R472). -/
def safeBit : Nat → Option Nat
  | 84 => some 2 | 88 => some 3 | 90 => some 4 | 94 => some 5 | 93 => some 6 | _ => none

/-- A context that holds a fault not started, with no class above it at work, starts it. -/
def State.startIfFree (s : State) (c : Nat) : State := if s.events.higherBusy c then s else s.startHandler c

/-- The handler of class `c` finishes fault `f`: its record (R55), its PENDING bit, the next of the queue or the preempted class. -/
def State.finishFault (s : State) (c : Nat) (f : FaultEntry) : State :=
  let s := match safeBit f.source with | some b => s.enterSafe b | none => s
  let s := s.faultRecord f
  let s := { s with events.routes := upd s.events.routes f.source fun r => { r with pending := false, mergedNow := 0 } }
  let s := match s.events.queueOf c with
    | next :: rest => { s with events := (s.events.setQueue c rest).setContext c (some next) }
    | [] => { s with events := s.events.setContext c none }
  ((s.startIfFree c).startIfFree (if c < 2 then 2 else c)).startIfFree 3

/-- FAULT_HANDLED (R53): only a handler that runs can finish. -/
def execFaultHandled (t : Nat) (cls : Fin 3) (s : State) : Out :=
  runRunning t s fun s =>
    let c := cls.val + 1
    match s.events.context c with
    | some f => if f.started && !s.events.higherBusy c then s.finishFault c f else s
    | none => s

end Sys2Proof.Machine
end

