-- ==== Sys2Proof/Machine/Dispatch.lean ====
section
/-! DEFINITION. What each command does: one arm per row of spec/opcode_table.json, each one direct call of that
command's meaning. -/

namespace Sys2Proof.Machine

/-- The effect of a command on everything but the queue of waiting commands. -/
def exec (i : Instr) (s : State) : Host.Outcome State Fault Refusal :=
  match i with
  | .cycleTick t => Sys2Proof.Machine.execCycleTick t s
  | .sampleArrival t sample => Sys2Proof.Machine.execSampleArrival t sample s
  | .waitLimitExpiry t => Sys2Proof.Machine.execWaitLimitExpiry t s
  | .exchangeLimit t => Sys2Proof.Machine.execExchangeLimit t s
  | .closeMissing t => Sys2Proof.Machine.execCloseMissing t s
  | .drDelayExpiry t => Sys2Proof.Machine.execDrDelayExpiry t s
  | .estimateOverrun t => Sys2Proof.Machine.execEstimateOverrun t s
  | .refTimeoutExpiry t ref => Sys2Proof.Machine.execRefTimeoutExpiry t ref s
  | .refQuarantined t ref => Sys2Proof.Machine.execRefQuarantined t ref s
  | .refAdmitted t ref => Sys2Proof.Machine.execRefAdmitted t ref s
  | .autoReadmit t ref => Sys2Proof.Machine.execAutoReadmit t ref s
  | .solverJobStart t => Sys2Proof.Machine.execSolverJobStart t s
  | .solveStop t => Sys2Proof.Machine.execSolveStop t s
  | .solverDeadline t iterations inFactorisation => Sys2Proof.Machine.execSolverDeadline t iterations inFactorisation s
  | .solveReportTimeout t => Sys2Proof.Machine.execSolveReportTimeout t s
  | .allocationDegraded t => Sys2Proof.Machine.execAllocationDegraded t s
  | .fallbackOn t => Sys2Proof.Machine.execFallbackOn t s
  | .fallbackOff t => Sys2Proof.Machine.execFallbackOff t s
  | .commandLate t => Sys2Proof.Machine.execCommandLate t s
  | .commandInstant t => Sys2Proof.Machine.execCommandInstant t s
  | .commandStale t => Sys2Proof.Machine.execCommandStale t s
  | .faultHandled t cls => Sys2Proof.Machine.execFaultHandled t cls s
  | .clockLoss t => Sys2Proof.Machine.execClockLoss t s
  | .clockLossRelease t => Sys2Proof.Machine.execClockLossRelease t s
  | .imageCommit t req slot => Sys2Proof.Machine.execImageCommit t req slot s
  | .imageVerifyDone t => Sys2Proof.Machine.execImageVerifyDone t s
  | .deferredTimeout t attest => Sys2Proof.Machine.execDeferredTimeout t attest s
  | .ptpMessageReceived t port msg => Sys2Proof.Machine.execPtpMessageReceived t port msg s
  | .tbSourceLost t base => Sys2Proof.Machine.execTbSourceLost t base s
  | .tb3SourceChange t source => Sys2Proof.Machine.execTb3SourceChange t source s
  | .holdoverLimitExceeded t base => Sys2Proof.Machine.execHoldoverLimitExceeded t base s
  | .timeStep t base => Sys2Proof.Machine.execTimeStep t base s
  | .leapSecond t => Sys2Proof.Machine.execLeapSecond t s
  | .captureEdge t unit rising => Sys2Proof.Machine.execCaptureEdge t unit rising s
  | .captureDataRead t req unit => Sys2Proof.Machine.execCaptureDataRead t req unit s
  | .captureDrain t => Sys2Proof.Machine.execCaptureDrain t s
  | .compareFire t unit => Sys2Proof.Machine.execCompareFire t unit s
  | .ppsInEdge t => Sys2Proof.Machine.execPpsInEdge t s
  | .ppsInLost t => Sys2Proof.Machine.execPpsInLost t s
  | .gnssEpoch t input => Sys2Proof.Machine.execGnssEpoch t input s
  | .searchPassDone t engine detected => Sys2Proof.Machine.execSearchPassDone t engine detected s
  | .handoverDone t started => Sys2Proof.Machine.execHandoverDone t started s
  | .lossOfLock t channel => Sys2Proof.Machine.execLossOfLock t channel s
  | .reacqWindowExpiry t channel => Sys2Proof.Machine.execReacqWindowExpiry t channel s
  | .notchSpectrum t frontEnd peaks => Sys2Proof.Machine.execNotchSpectrum t frontEnd peaks s
  | .jamUpdate t frontEnd power => Sys2Proof.Machine.execJamUpdate t frontEnd power s
  | .antSupplyShort t antenna current => Sys2Proof.Machine.execAntSupplyShort t antenna current s
  | .antSupplyRetry t antenna current => Sys2Proof.Machine.execAntSupplyRetry t antenna current s
  | .gnbRestart t req kind => Sys2Proof.Machine.execGnbRestart t req kind s
  | .aiOutput t channel stream => Sys2Proof.Machine.execAiOutput t channel stream s
  | .userCommit t req channel => Sys2Proof.Machine.execUserCommit t req channel s
  | .userDiscard t req channel => Sys2Proof.Machine.execUserDiscard t req channel s
  | .dcPreset t req channel freeze => Sys2Proof.Machine.execDcPreset t req channel freeze s
  | .dcFreeze t req channel freeze => Sys2Proof.Machine.execDcFreeze t req channel freeze s
  | .refReadmit t req inst => Sys2Proof.Machine.execRefReadmit t req inst s
  | .refEnable t req inst enable => Sys2Proof.Machine.execRefEnable t req inst enable s
  | .twDepth t req inst depth => Sys2Proof.Machine.execTwDepth t req inst depth s
  | .targetPose t req inst n e rot => Sys2Proof.Machine.execTargetPose t req inst n e rot s
  | .refineReset t req inst freeze => Sys2Proof.Machine.execRefineReset t req inst freeze s
  | .setpointGeo t req lat lon => Sys2Proof.Machine.execSetpointGeo t req lat lon s
  | .setpointMove t req frame d1 d2 => Sys2Proof.Machine.execSetpointMove t req frame d1 d2 s
  | .setpointHeading t req psi => Sys2Proof.Machine.execSetpointHeading t req psi s
  | .joyDemand t req x y mz => Sys2Proof.Machine.execJoyDemand t req x y mz s
  | .joyTimeoutExpiry t => Sys2Proof.Machine.execJoyTimeoutExpiry t s
  | .trackCommit t req => Sys2Proof.Machine.execTrackCommit t req s
  | .trackDiscard t req => Sys2Proof.Machine.execTrackDiscard t req s
  | .targetState t req stamp n e vn ve psi yawRate => Sys2Proof.Machine.execTargetState t req stamp n e vn ve psi yawRate s
  | .trackTargetLost t => Sys2Proof.Machine.execTrackTargetLost t s
  | .powerAvailable t req watts => Sys2Proof.Machine.execPowerAvailable t req watts s
  | .powerTimeoutExpiry t => Sys2Proof.Machine.execPowerTimeoutExpiry t s
  | .powerLimitActive t => Sys2Proof.Machine.execPowerLimitActive t s
  | .thrustSaturated t => Sys2Proof.Machine.execThrustSaturated t s
  | .checkStart t req => Sys2Proof.Machine.execCheckStart t req s
  | .checkDone t pass => Sys2Proof.Machine.execCheckDone t pass s
  | .slotSample t slot latency => Sys2Proof.Machine.execSlotSample t slot latency s
  | .loopLimit t slot => Sys2Proof.Machine.execLoopLimit t slot s
  | .followingError t slot => Sys2Proof.Machine.execFollowingError t slot s
  | .coefficientWrite t req slot number value => Sys2Proof.Machine.execCoefficientWrite t req slot number value s
  | .slotHold t req slot samples => Sys2Proof.Machine.execSlotHold t req slot samples s
  | .slotHoldEnd t slot => Sys2Proof.Machine.execSlotHoldEnd t slot s
  | .slotSetpoint t req slot value => Sys2Proof.Machine.execSlotSetpoint t req slot value s
  | .pgMove t req generator axis target => Sys2Proof.Machine.execPgMove t req generator axis target s
  | .gearRatioWrite t req group slave p q => Sys2Proof.Machine.execGearRatioWrite t req group slave p q s
  | .gearMasterLost t group => Sys2Proof.Machine.execGearMasterLost t group s
  | .gearReengage t group => Sys2Proof.Machine.execGearReengage t group s
  | .latched t unit falling stamp count => Sys2Proof.Machine.execLatched t unit falling stamp count s
  | .stepperStall t drive => Sys2Proof.Machine.execStepperStall t drive s
  | .stallResume t drive => Sys2Proof.Machine.execStallResume t drive s
  | .stepperCurrentStep t drive angle emf => Sys2Proof.Machine.execStepperCurrentStep t drive angle emf s
  | .stepperThermal t drive current => Sys2Proof.Machine.execStepperThermal t drive current s
  | .stpClear t req drive => Sys2Proof.Machine.execStpClear t req drive s
  | .stpZero t req drive => Sys2Proof.Machine.execStpZero t req drive s
  | .stpSupply t out => Sys2Proof.Machine.execStpSupply t out s
  | .injStart t req => Sys2Proof.Machine.execInjStart t req s
  | .injStop t req => Sys2Proof.Machine.execInjStop t req s
  | .injectionDone t => Sys2Proof.Machine.execInjectionDone t s
  | .capArm t req => Sys2Proof.Machine.execCapArm t req s
  | .capStop t req => Sys2Proof.Machine.execCapStop t req s
  | .captureDone t => Sys2Proof.Machine.execCaptureDone t s
  | .capDataRead t req => Sys2Proof.Machine.execCapDataRead t req s
  | .inputTransition t channel level => Sys2Proof.Machine.execInputTransition t channel level s
  | .chatterQuiet t channel => Sys2Proof.Machine.execChatterQuiet t channel s
  | .inputStuck t channel => Sys2Proof.Machine.execInputStuck t channel s
  | .inputDelivery t channel => Sys2Proof.Machine.execInputDelivery t channel s
  | .uSet t req channel value => Sys2Proof.Machine.execUSet t req channel value s
  | .uClear t req channel => Sys2Proof.Machine.execUClear t req channel s
  | .countReset t req channel => Sys2Proof.Machine.execCountReset t req channel s
  | .outputOverload t channel => Sys2Proof.Machine.execOutputOverload t channel s
  | .outputReadback t channel => Sys2Proof.Machine.execOutputReadback t channel s
  | .openLoad t channel => Sys2Proof.Machine.execOpenLoad t channel s
  | .fieldSupply t bank out millivolt => Sys2Proof.Machine.execFieldSupply t bank out millivolt s
  | .uvlo t bank low millivolt => Sys2Proof.Machine.execUvlo t bank low millivolt s
  | .eventLinePulseEnd t line => Sys2Proof.Machine.execEventLinePulseEnd t line s
  | .watchdogRetrigger t => Sys2Proof.Machine.execWatchdogRetrigger t s
  | .watchdogExpired t => Sys2Proof.Machine.execWatchdogExpired t s
  | .aoSet t req channel value => Sys2Proof.Machine.execAoSet t req channel value s
  | .aoFault t channel present measured => Sys2Proof.Machine.execAoFault t channel present measured s
  | .pfbFrame t channel frame => Sys2Proof.Machine.execPfbFrame t channel frame s
  | .safetyDemand t input => Sys2Proof.Machine.execSafetyDemand t input s
  | .testPulseMismatch t tp => Sys2Proof.Machine.execTestPulseMismatch t tp s
  | .patternFault t input => Sys2Proof.Machine.execPatternFault t input s
  | .sfCmd t => Sys2Proof.Machine.execSfCmd t s
  | .darkPulse t thr fell => Sys2Proof.Machine.execDarkPulse t thr fell s
  | .heldOffCheckFail t thr => Sys2Proof.Machine.execHeldOffCheckFail t thr s
  | .safPeriodicSelftest t outcome => Sys2Proof.Machine.execSafPeriodicSelftest t outcome s
  | .safSelftest t req outcome => Sys2Proof.Machine.execSafSelftest t req outcome s
  | .safReset t req => Sys2Proof.Machine.execSafReset t req s
  | .modeRequest t req mode => Sys2Proof.Machine.execModeRequest t req mode s
  | .restartCold t req facts ends => Sys2Proof.Machine.execRestartCold t req facts ends s
  | .restartWithHandover t req => Sys2Proof.Machine.execRestartWithHandover t req s
  | .powerGood t facts => Sys2Proof.Machine.execPowerGood t facts s
  | .lockstepMismatch t => Sys2Proof.Machine.execLockstepMismatch t s
  | .supRamEcc t => Sys2Proof.Machine.execSupRamEcc t s
  | .handoverReady t facts => Sys2Proof.Machine.execHandoverReady t facts s
  | .abort t req object => Sys2Proof.Machine.execAbort t req object s
  | .llpHello t hdr body => Sys2Proof.Machine.execLlpHello t hdr body s
  | .linkDown t link => Sys2Proof.Machine.execLinkDown t link s
  | .llpTime t hdr body => Sys2Proof.Machine.execLlpTime t hdr body s
  | .llpSet t hdr set => Sys2Proof.Machine.execLlpSet t hdr set s
  | .llpClose t hdr body => Sys2Proof.Machine.execLlpClose t hdr body s
  | .llpSolveReport t hdr report => Sys2Proof.Machine.execLlpSolveReport t hdr report s
  | .llpCommit t hdr digest result => Sys2Proof.Machine.execLlpCommit t hdr digest result s
  | .llpYield t hdr instant successor => Sys2Proof.Machine.execLlpYield t hdr instant successor s
  | .llpTakeover t hdr epoch instant cause => Sys2Proof.Machine.execLlpTakeover t hdr epoch instant cause s
  | .llpResyncRequest t hdr => Sys2Proof.Machine.execLlpResyncRequest t hdr s
  | .llpCopyPlan t hdr j total => Sys2Proof.Machine.execLlpCopyPlan t hdr j total s
  | .llpCopyChunk t hdr offset data => Sys2Proof.Machine.execLlpCopyChunk t hdr offset data s
  | .copyFail t => Sys2Proof.Machine.execCopyFail t s
  | .resyncRetry t => Sys2Proof.Machine.execResyncRetry t s
  | .stepDone t => Sys2Proof.Machine.execStepDone t s
  | .missingCommit t => Sys2Proof.Machine.execMissingCommit t s
  | .contactLost t => Sys2Proof.Machine.execContactLost t s
  | .roleElectionTimeout t => Sys2Proof.Machine.execRoleElectionTimeout t s
  | .transfer t req member => Sys2Proof.Machine.execTransfer t req member s
  | .resync t req => Sys2Proof.Machine.execResync t req s
  | .memberIndex t req value => Sys2Proof.Machine.execMemberIndex t req value s
  | .lnkCreditStall t link => Sys2Proof.Machine.execLnkCreditStall t link s
  | .switchFrameIngress t port frame => Sys2Proof.Machine.execSwitchFrameIngress t port frame s
  | .ethLink t port status => Sys2Proof.Machine.execEthLink t port status s
  | .datagramReceived t port dst udpPort stamp payload => Sys2Proof.Machine.execDatagramReceived t port dst udpPort stamp payload s
  | .iec450Datagram t port dst udpPort stamp payload => Sys2Proof.Machine.execIec450Datagram t port dst udpPort stamp payload s
  | .feedbackTimeout t slice => Sys2Proof.Machine.execFeedbackTimeout t slice s
  | .canFrameReceived t ctl frame => Sys2Proof.Machine.execCanFrameReceived t ctl frame s
  | .canFrameTransmitted t ctl => Sys2Proof.Machine.execCanFrameTransmitted t ctl s
  | .canTxAttemptFailed t ctl error dataPhase => Sys2Proof.Machine.execCanTxAttemptFailed t ctl error dataPhase s
  | .canRecoveryDone t ctl => Sys2Proof.Machine.execCanRecoveryDone t ctl s
  | .canRecover t req ctl => Sys2Proof.Machine.execCanRecover t req ctl s
  | .canTx t req ctl value => Sys2Proof.Machine.execCanTx t req ctl value s
  | .canTimingWrite t req ctl data value => Sys2Proof.Machine.execCanTimingWrite t req ctl data value s
  | .serialCharacter t port char stamp lineError => Sys2Proof.Machine.execSerialCharacter t port char stamp lineError s
  | .sentenceParse t port => Sys2Proof.Machine.execSentenceParse t port s
  | .serTx t req port value => Sys2Proof.Machine.execSerTx t req port value s
  | .qcpFrameReceived t req frame => Sys2Proof.Machine.execQcpFrameReceived t req frame s
  | .ping t req => Sys2Proof.Machine.execPing t req s
  | .read t req object offset max => Sys2Proof.Machine.execRead t req object offset max s
  | .write t req object value => Sys2Proof.Machine.execWrite t req object value s
  | .subscribe t req stream destPort lease divider select => Sys2Proof.Machine.execSubscribe t req stream destPort lease divider select s
  | .unsubscribe t req stream destPort => Sys2Proof.Machine.execUnsubscribe t req stream destPort s
  | .leaseExpiry t handle => Sys2Proof.Machine.execLeaseExpiry t handle s
  | .recRead t req first count => Sys2Proof.Machine.execRecRead t req first count s
  | .attest t req nonce => Sys2Proof.Machine.execAttest t req nonce s
  | .attestDone t => Sys2Proof.Machine.execAttestDone t s
  | .enrol t req body => Sys2Proof.Machine.execEnrol t req body s
  | .telemetrySend t => Sys2Proof.Machine.execTelemetrySend t s
  | .dtlsHandshake t req ok => Sys2Proof.Machine.execDtlsHandshake t req ok s
  | .qcpSettingEffect t => Sys2Proof.Machine.execQcpSettingEffect t s
  | .flushDone t => Sys2Proof.Machine.execFlushDone t s
  | .flushWindowEnd t => Sys2Proof.Machine.execFlushWindowEnd t s
  | .recControlFlush t req => Sys2Proof.Machine.execRecControlFlush t req s
  | .sealSigned t => Sys2Proof.Machine.execSealSigned t s
  | .recFull t => Sys2Proof.Machine.execRecFull t s
  | .recRearm t req hash => Sys2Proof.Machine.execRecRearm t req hash s
  | .powerFail t => Sys2Proof.Machine.execPowerFail t s
  | .geyserDone t => Sys2Proof.Machine.execGeyserDone t s
  | .supplyReturn t => Sys2Proof.Machine.execSupplyReturn t s
  | .holdupExhausted t => Sys2Proof.Machine.execHoldupExhausted t s
  | .entropyFail t => Sys2Proof.Machine.execEntropyFail t s
  | .fumaroleSample t slacks others => Sys2Proof.Machine.execFumaroleSample t slacks others s
  | .ledgerDaily t => Sys2Proof.Machine.execLedgerDaily t s
  | .binRaise t island slack => Sys2Proof.Machine.execBinRaise t island slack s
  | .binLower t island slack => Sys2Proof.Machine.execBinLower t island slack s
  | .binEnvelope t req island value => Sys2Proof.Machine.execBinEnvelope t req island value s
  | .mramRefresh t => Sys2Proof.Machine.execMramRefresh t s
  | .updateOpen t req target id length crc => Sys2Proof.Machine.execUpdateOpen t req target id length crc s
  | .updateChunk t req id chunk part parts crc data => Sys2Proof.Machine.execUpdateChunk t req id chunk part parts crc data s
  | .chunkWritten t target chunk => Sys2Proof.Machine.execChunkWritten t target chunk s
  | .chunkPartsExpiry t => Sys2Proof.Machine.execChunkPartsExpiry t s
  | .updateQuery t req target first => Sys2Proof.Machine.execUpdateQuery t req target first s
  | .updateActivate t req target source when_ id crc => Sys2Proof.Machine.execUpdateActivate t req target source when_ id crc s
  | .pnlDraw t req value => Sys2Proof.Machine.execPnlDraw t req value s
  | .waveformStart t index => Sys2Proof.Machine.execWaveformStart t index s
  | .waveformEnd t index => Sys2Proof.Machine.execWaveformEnd t index s
  | .railsOn t => Sys2Proof.Machine.execRailsOn t s
  | .railsOff t => Sys2Proof.Machine.execRailsOff t s
  | .railFault t => Sys2Proof.Machine.execRailFault t s
  | .railRetry t => Sys2Proof.Machine.execRailRetry t s
  | .panelTemperature t centi => Sys2Proof.Machine.execPanelTemperature t centi s
  | .pnlRefresh t req => Sys2Proof.Machine.execPnlRefresh t req s
  | .pnlCheck t req value => Sys2Proof.Machine.execPnlCheck t req value s
  | .panelCrcCheck t => Sys2Proof.Machine.execPanelCrcCheck t s
  | .pnlVcom t req value => Sys2Proof.Machine.execPnlVcom t req value s
  | .pwrInputCut t inputB => Sys2Proof.Machine.execPwrInputCut t inputB s
  | .overtemp t hot => Sys2Proof.Machine.execOvertemp t hot s
  | .antSupplyOpen t antenna current => Sys2Proof.Machine.execAntSupplyOpen t antenna current s
  | .channelLock t channel locked => Sys2Proof.Machine.execChannelLock t channel locked s
  | .canRxError t ctl error dataPhase => Sys2Proof.Machine.execCanRxError t ctl error dataPhase s
  | .safetyInputHealthy t input => Sys2Proof.Machine.execSafetyInputHealthy t input s
  | .stpClamping t on => Sys2Proof.Machine.execStpClamping t on s
  | .stepperAtRest t drive => Sys2Proof.Machine.execStepperAtRest t drive s
  | .entropyPass t => Sys2Proof.Machine.execEntropyPass t s
  | .ovenStatus t status => Sys2Proof.Machine.execOvenStatus t status s
  | .holdupCharged t charged => Sys2Proof.Machine.execHoldupCharged t charged s
  | .pwrInputLevel t inputB ok => Sys2Proof.Machine.execPwrInputLevel t inputB ok s
  | .llpPeriodicSend t => Sys2Proof.Machine.execLlpPeriodicSend t s
  | .ptpDelayReq t => Sys2Proof.Machine.execPtpDelayReq t s

end Sys2Proof.Machine
end

