-- ==== Sys2Proof/Safety.lean ====
section
/-! DEFINITION. What a safe run is, and what a command may change, in the terms the statements use. -/

namespace Sys2Proof.Machine

/-- A step that ends in a next state. -/
def Continues (s : State) : Prop := ∃ t, step s = .next t

/-- The step relation of the block. -/
def Steps (s t : State) : Prop := step s = .next t

/-- A run of any number of steps. -/
inductive Runs : State → State → Prop where
  | refl (s : State) : Runs s s
  | tail {s t u : State} : Runs s t → Steps t u → Runs s u

/-! ## Frames -/

/-- The parts of the state, one for each field of State. -/
inductive Part where
  | factory | events | cycle | image | time | gnss | ain | fusion | wind | obs | obsParams | obsOut | history | law | dyn | sol | res | solParams | servo | field | saf | modes | retained | group | gcycle | net | qcp | recorder | trust | hsk | update | panel | power | free | pending
  deriving DecidableEq, Repr

/-- Two states agree in a part. -/
def Part.same : Part → State → State → Prop
  | .factory, s, u => u.factory = s.factory
  | .events, s, u => u.events = s.events
  | .cycle, s, u => u.cycle = s.cycle
  | .image, s, u => u.image = s.image
  | .time, s, u => u.time = s.time
  | .gnss, s, u => u.gnss = s.gnss
  | .ain, s, u => u.ain = s.ain
  | .fusion, s, u => u.fusion = s.fusion
  | .wind, s, u => u.wind = s.wind
  | .obs, s, u => u.obs = s.obs
  | .obsParams, s, u => u.obsParams = s.obsParams
  | .obsOut, s, u => u.obsOut = s.obsOut
  | .history, s, u => u.history = s.history
  | .law, s, u => u.law = s.law
  | .dyn, s, u => u.dyn = s.dyn
  | .sol, s, u => u.sol = s.sol
  | .res, s, u => u.res = s.res
  | .solParams, s, u => u.solParams = s.solParams
  | .servo, s, u => u.servo = s.servo
  | .field, s, u => u.field = s.field
  | .saf, s, u => u.saf = s.saf
  | .modes, s, u => u.modes = s.modes
  | .retained, s, u => u.retained = s.retained
  | .group, s, u => u.group = s.group
  | .gcycle, s, u => u.gcycle = s.gcycle
  | .net, s, u => u.net = s.net
  | .qcp, s, u => u.qcp = s.qcp
  | .recorder, s, u => u.recorder = s.recorder
  | .trust, s, u => u.trust = s.trust
  | .hsk, s, u => u.hsk = s.hsk
  | .update, s, u => u.update = s.update
  | .panel, s, u => u.panel = s.panel
  | .power, s, u => u.power = s.power
  | .free, s, u => u.free = s.free
  | .pending, s, u => u.pending = s.pending

/-- Nothing outside the listed parts has changed. -/
def FrameBut (ps : List Part) (s u : State) : Prop := ∀ p : Part, p ∉ ps → p.same s u

/-- The parts that the report of a source which is not routed to the fault handler may touch: records, telemetry, lines, an armed
capture, the raised sources, free values. -/
def quietParts : List Part := [.events, .servo, .field, .qcp, .recorder, .free]

/-- The parts that any report of a source may touch: those, and what entry to SAFE at a full F1 queue changes. -/
def reportParts : List Part := [.events, .law, .sol, .servo, .field, .modes, .group, .gcycle, .net, .qcp, .recorder, .free]

/-! ## Who acts, and what a host is answered -/

/-- The module has power. -/
abbrev Powered (s : State) : Prop := s.modes.phase ≠ .off
/-- SUP, EST, SOL, SRV and GNB run. -/
abbrev Running (s : State) : Prop := s.modes.phase = .running

/-- The next command SUP takes at TB0 = `t` is this one: SUP runs, the last start ended before, no other command waits ahead, a
response slot is free, the port is the one for its opcode, no version bars the member, and source 4, which reports the command, is
not routed to the fault handler. -/
structure Ready (s : State) (t : Nat) (req : Request) (op : Nat) (body : List Byte) : Prop where
  running : s.modes.phase = .running
  started : s.modes.report.tb0At ≤ t
  port : portTakes op req.modPort = true
  version : s.group.versionHold = false
  first : ∀ c, s.qcp.queue.head? = some c → c = { req := req, opcode := BitVec.ofNat 16 op, body := body, at_ := c.at_ }
  room : s.qcp.responses.length < 32
  report : (s.route 4).fault = false

/-- The newest response is to this request, in the version in use, with this status and body (R562). -/
def Answered (u : State) (req : Request) (op : Nat) (st : Status) (body : List Byte) : Prop :=
  u.qcp.responses.getLast? =
    some { req := req, version := BitVec.ofNat 8 u.qcpInUse, opcode := BitVec.ofNat 16 op, status := st, body := body }

/-- Who writes, for a WRITE that SUP takes: a host, with the time at which a command that waited had arrived (R306). -/
def State.hostCtx (s : State) (req : Request) : WriteCtx := { req := req, arrived := s.qcp.queue.head?.map (·.at_) }

/-- The state in which SUP carries out a WRITE that it takes at TB0 = `t`: the command has left the queue and is recorded. -/
def State.atWrite (s : State) (t : Nat) (req : Request) (obj : Word) (v : List Byte) : State :=
  (s.clock t).taken req 0x11 (some (obj, v))

/-- A WRITE that takes effect at once is answered OK with DETAIL all ones (R570). -/
def State.wrote (w : State) (req : Request) (obj : Word) : State := w.respond req 0x11 .ok (be32 obj ++ be32 0xFFFFFFFF)

/-- A group write that a member in role ALONE accepts is answered with the k of the release at which it takes effect (R495, R570). -/
def State.wroteAlone (w : State) (req : Request) (obj : Word) : State :=
  w.respond req 0x11 .ok (be32 obj ++ be32 (BitVec.ofNat 32 (w.cycle.count + if w.cycle.released then 1 else 0)))

/-- The body of a READ's answer: COUNT bytes of the value from OFFSET (R570). -/
def readReply (obj : Word) (offset max : Nat) (v : List Byte) : List Byte :=
  be32 obj ++ nat32 offset ++ nat32 v.length ++ nat16 ((v.drop offset).take max).length ++ zeros 2 ++ (v.drop offset).take max

/-- The snapshot of a READ at OFFSET 0 takes the place of the source's last (R570). -/
def State.snapshot (u : State) (req : Request) (obj : Word) (v : List Byte) (at_ : Nat) : State :=
  { u with qcp.snapshots := u.qcp.snapshots.filter (·.src != req.src) ++ [{ src := req.src, object := obj, at_ := at_, value := v }] }

end Sys2Proof.Machine
end

