-- ==== Sys2Proof/Certificates/Slice0/Obligations.lean ====
section
/-! DEFINITION. The statements for the provers. Each is listed in OBLIGATIONS.json with the rules of spec/ it formalises. -/

open Sys2Proof Sys2Proof.Machine

/-! ## The whole block (spec/00_scope.md, spec/01_cycle_and_islands.md) -/

/-- R563: a step takes the command at the front of the queue, and is that command's effect on the state with the rest of the queue;
with none waiting the block idles (log 24: the model's choice). -/
def Obligations.StepRunsTheFrontCommand : Prop :=
  (∀ (s : State) (c : Instr) (rest : List Instr), s.pending = c :: rest → step s = exec c { s with pending := rest }) ∧
  (∀ s : State, s.pending = [] → step s = .next s)

/-- R48, R94, R119, R128, R129, R152: what the spec gives for reset, read off the state that the model resets to; no command waits, the
panel's memory is in its canonical form, and no route, context or queue of the fault handler holds anything. -/
def Obligations.ResetLeavesTheStatedValues : Prop :=
  let s := State.reset
  (∀ n : Fin 128, s.events.routes[n] = {}) ∧ s.events.f1 = none ∧ s.events.f2 = none ∧ s.events.f3 = none ∧
  s.events.q1 = [] ∧ s.events.q2 = [] ∧ s.events.q3 = [] ∧
  (∀ n : Fin 4, (s.time.tb[n]).state = 0 ∧ (s.time.tb[n]).source = 0) ∧ s.time.taiUtc = 37 ∧ s.time.ppsWidth = 0x64 ∧
  s.time.ppsMode = 2 ∧ s.gnss.config = 0x33F ∧ s.gnss.epochOffset = 5 ∧
  (∀ n : Fin 4, (s.gnss.frontEnds[n]).jamThreshold = 0x28 ∧ (s.gnss.frontEnds[n]).notchThreshold = 0x0F ∧
    (s.gnss.frontEnds[n]).notchMax = 4) ∧
  s.image.loaded = none ∧ s.qcp.queue = [] ∧ s.qcp.subs = [] ∧ s.pending = [] ∧
  Memory.wf s.panel.frame = true ∧ Memory.wf s.panel.image = true

/-- R474, R600: every command of the table ends in a next state; without power all it does is to let time pass, but for POWER_GOOD
and what the two supply inputs tell. -/
def Obligations.EveryCommandCompletes : Prop :=
  (∀ (i : Instr) (s : State), ∃ u : State, exec i s = .next u) ∧
  (∀ (i : Instr) (s : State), s.modes.phase = .off → (∀ t f, i ≠ .powerGood t f) → (∀ t b, i ≠ .pwrInputCut t b) →
    (∀ t b o, i ≠ .pwrInputLevel t b o) → ∃ t : Nat, exec i s = .next (s.clock t))

/-- R3, R176: options are fitted at manufacture, and the factory block is read-only to every command: whatever command runs, and so
after any run, every field of it is as it was, but for what the last start found of its validity. -/
def Obligations.TheFactoryBlockIsReadOnly : Prop :=
  (∀ s u : State, step s = .next u → u.factory = { s.factory with valid := u.factory.valid }) ∧
  (∀ s u : State, Runs s u → u.factory.optG = s.factory.optG ∧ u.factory.optT = s.factory.optT ∧ u.factory.optS = s.factory.optS ∧
    u.factory.optP = s.factory.optP ∧ u.factory.serial = s.factory.serial ∧ u.factory.deviceKey = s.factory.deviceKey ∧
    u.factory.cal = s.factory.cal)

/-- R563: commands take effect one at a time, first in first out: each step takes exactly one command, no command adds to the queue,
drops from it or changes its order, and from every state some run ends with none left. -/
def Obligations.CommandsLeaveTheQueueInOrder : Prop :=
  (∀ s u : State, step s = .next u → u.pending = s.pending.drop 1) ∧
  (∀ s : State, ∃ u : State, step s = .next u) ∧
  (∀ s u : State, Runs s u → ∃ n : Nat, u.pending = s.pending.drop n) ∧
  (∀ s : State, ∃ u : State, Runs s u ∧ u.pending = [])

/-- R50-R54, R471: what a source that asserts does to the fault handler: nothing when it is not routed there, a merge while it is
pending, and else a fault that starts, waits, is escalated or forces SAFE. -/
def Obligations.SourcesEnterTheFaultHandler : Prop := ∀ (s : State) (n : Nat) (p0 p1 p2 p3 : Option Word) (must : Bool),
  let u := s.raise n p0 p1 p2 p3 must
  let r := s.route n
  let asserts : Prop := reservedSource n = false ∧ s.sourceFitted n = true
  -- a reserved source, or one of an option that is not fitted, never asserts
  (¬ asserts → u = s) ∧
  -- not routed to the handler
  (asserts → r.fault = false → u.modes = s.modes ∧ u.events.f1 = s.events.f1 ∧ u.events.f2 = s.events.f2 ∧
    u.events.f3 = s.events.f3 ∧ u.events.q1 = s.events.q1 ∧ u.events.q2 = s.events.q2 ∧ u.events.q3 = s.events.q3 ∧
    u.events.routes = s.events.routes ∧ FrameBut quietParts s u) ∧
  (n < 128 → n ≠ 10 → asserts → r.fault = true →
    -- pending: it merges, and is no new fault
    (r.pending = true → u.events.routes = upd s.events.routes n (fun x =>
        { x with merged := satAdd 127 x.merged 1, mergedNow := x.mergedNow + 1 }) ∧
      u.events.q1 = s.events.q1 ∧ u.events.q2 = s.events.q2 ∧ u.events.q3 = s.events.q3 ∧ u.events.f1 = s.events.f1 ∧
      u.events.f2 = s.events.f2 ∧ u.events.f3 = s.events.f3 ∧ u.modes = s.modes ∧ u.recorder = s.recorder ∧ u.qcp = s.qcp) ∧
    -- F1 with its handler idle: it starts, and preempts the classes below
    (r.pending = false → r.cls = 1 → s.events.f1 = none → (∃ f, u.events.f1 = some f ∧ f.source = n ∧ f.started = true ∧
        f.arrivalClass = 1 ∧ f.handledClass = 1 ∧ f.deferred = false) ∧
      (∀ f, s.events.f2 = some f → u.events.f2 = some { f with deferred := true }) ∧
      (∀ f, s.events.f3 = some f → u.events.f3 = some { f with deferred := true }) ∧ u.modes = s.modes) ∧
    -- F1 with its handler busy: it waits at the tail
    (r.pending = false → r.cls = 1 → s.events.f1.isSome = true → s.events.q1.length < 8 → ∃ f,
      u.events.q1 = s.events.q1 ++ [f] ∧ f.source = n ∧ f.deferred = true ∧ f.handledClass = 1 ∧
      u.events.f1 = s.events.f1 ∧ u.modes = s.modes) ∧
    -- F1 with its queue full: SAFE
    (r.pending = false → r.cls = 1 → s.events.f1.isSome = true → 8 ≤ s.events.q1.length →
      u.modes.mode = .safe ∧ u.modes.cause.f1Overflow = true) ∧
    -- F2 with its queue full and F1 idle: escalated, and handled at once
    (r.pending = false → r.cls = 2 → s.events.f2.isSome = true → 8 ≤ s.events.q2.length → s.events.f1 = none →
      (∃ f, u.events.f1 = some f ∧ f.source = n ∧ f.started = true ∧ f.arrivalClass = 2 ∧ f.handledClass = 1) ∧
      u.events.q2 = s.events.q2 ∧ u.modes = s.modes) ∧
    -- F3 waits behind a class above that has work
    (r.pending = false → r.cls = 3 → s.events.f3 = none → s.events.f2.isSome = true → (∃ f, u.events.f3 = some f ∧ f.source = n ∧
      f.started = false ∧ f.deferred = true) ∧ u.events.f2 = s.events.f2))
/-! ## The cycle and the islands (spec/01_cycle_and_islands.md, spec/09_allocation_solver.md) -/

/-- R31, R36, R466: a tick begins the cycle whose number is TB3 over the period; a pending mode takes effect at it, or is dropped. -/
def Obligations.CycleTickBeginsACycle : Prop := ∀ (s : State),
  (∀ t : Nat, Running s →
    let c := s.clock t
    let k := c.tb3 / c.cyc.period
    c.cycle.ticking = true → c.hasStructure = true → c.cyc.period ≠ 0 → c.cycle.nextTick ≤ c.tb3 → c.modes.pendingMode = none →
    State.dueComplete { c with cycle.tk := k * c.cyc.period } = false → c.tb3 < k * c.cyc.period + c.cyc.waitLimit →
    ∃ u : State, exec (.cycleTick t) s = .next u ∧ u.cycle.count = k ∧ u.cycle.tk = k * c.cyc.period ∧
      u.cycle.nextTick = (k + 1) * c.cyc.period ∧ u.cycle.released = false ∧ u.cycle.frameDone = false ∧
      u.cycle.acceptDone = false ∧ u.cycle.instantDone = false ∧ u.cycle.buffer = c.cycle.buffer ∧
      u.cycle.front = c.cycle.front ∧ u.cycle.applied = c.cycle.applied ∧
      FrameBut [.cycle, .gcycle, .sol, .law, .group] c u) ∧
  (∀ t : Nat, Running s → (s.clock t).tb3 < s.cycle.nextTick → exec (.cycleTick t) s = .next (s.clock t)) ∧
  (∀ m : Mode, s.modes.pendingMode = some m → (s.route 0).fault = false →
    (State.judgeMove { s with modes.pendingMode := none } m = .ok →
      s.pendingAtTick.modes.mode = m ∧ s.pendingAtTick.modes.previous = s.modes.mode ∧ s.pendingAtTick.modes.pendingMode = none ∧
        (s.modes.mode = .safe → s.pendingAtTick.modes.cause = {})) ∧
    (State.judgeMove { s with modes.pendingMode := none } m ≠ .ok →
      s.pendingAtTick.modes = { s.modes with pendingMode := none } ∧ FrameBut ([.modes] ++ quietParts) s s.pendingAtTick))

/-- R32, R44, R200, R493, R494: samples enter the alignment buffer, wait as late ones, or are counted; at a full buffer they wait in
their stores; a sample that comes at t_k + W or later releases the cycle, as the wait limit does; the exchange limit closes what is
there. -/
def Obligations.SamplesAreAlignedAndReleased : Prop := ∀ (s : State) (t : Nat), Running s →
  let c := s.clock t
  -- SAMPLE_ARRIVAL of a point the image does not hold is nothing
  (∀ x : Sample, c.point? x.point = none → exec (.sampleArrival t x) s = .next c) ∧
  (∀ x : Sample, (c.point? x.point).isSome = true → c.cycle.stopped = false → c.bufferFull = false →
    c.modes.discardUpTo = 0 →
    -- more than 1 ms in the future
    (c.tb3 + ms < x.stamp → c.cycle.released = true → exec (.sampleArrival t x) s = .next (c.countRef x.point 3)) ∧
    -- in the window
    (x.stamp ≤ c.tb3 + ms → c.releasedUpTo < x.stamp →
      let v : State := { c with cycle.buffer := c.cycle.buffer ++ [x] }
      ((v.cycle.released = true ∨ v.dueComplete = false ∧ c.tb3 < c.cycle.tk + c.cyc.waitLimit) →
        exec (.sampleArrival t x) s = .next v) ∧
      (c.cycle.ticking = true → c.cycle.released = false → c.cycle.tk + c.cyc.waitLimit ≤ c.tb3 →
        exec (.sampleArrival t x) s = .next v.release)) ∧
    -- late
    (x.stamp ≤ c.tb3 + ms → c.cycle.ticking = true → x.stamp ≤ c.releasedUpTo → c.cycle.released = true →
      exec (.sampleArrival t x) s = .next { c with cycle.held := c.cycle.held ++ [x] })) ∧
  -- a parser's sample that finds the parsers stopped waits in its store; one of a point with a slot waits there, and replaces
  (∀ x : Sample, (c.point? x.point).isSome = true → c.cycle.stopped = true → c.cycle.released = true →
    (c.slottedPoint x.point = false → exec (.sampleArrival t x) s = .next { c with cycle.waiting := c.cycle.waiting ++ [x] }) ∧
    (c.slottedPoint x.point = true → (∀ y ∈ c.cycle.slots, y.point ≠ x.point) →
      exec (.sampleArrival t x) s = .next { c with cycle.slots := c.cycle.slots ++ [x] })) ∧
  -- WAIT_LIMIT_EXPIRY, before and at t_k + W
  (c.cycle.ticking = true → c.cycle.released = false → c.cycle.tk + c.cyc.waitLimit ≤ c.tb3 →
    exec (.waitLimitExpiry t) s = .next c.release) ∧
  (c.tb3 < c.cycle.tk + c.cyc.waitLimit → exec (.waitLimitExpiry t) s = .next c) ∧
  -- EXCHANGE_LIMIT: the LEAD closes with the sets it holds
  (c.group.role = .lead → c.cycle.released = true → c.gcycle.closeDone = false → c.exchangeLimit ≤ c.tb3 →
    exec (.exchangeLimit t) s = .next c.closeFrame) ∧
  -- CLOSE_MISSING: a member without a listed set leaves step; the successor closes in the LEAD's place
  ((c.group.role = .spare ∨ c.group.role = .resync) → c.inStepSelf = true → c.cycle.frameDone = false → c.cycle.released = true →
    c.exchangeLimit + 100 * us ≤ c.tb3 →
    (∀ x : LlpClose, c.gcycle.closed = some x → x.cycle = c.cycle.count →
      exec (.closeMissing t) s = .next (c.setRole .resync 5)) ∧
    (c.gcycle.closed = none → c.successor = some c.me →
      exec (.closeMissing t) s = .next (c.completeFrame (c.setsOf c.heldMask))) ∧
    (c.gcycle.closed = none → c.successor ≠ some c.me → exec (.closeMissing t) s = .next c)) ∧
  -- ESTIMATE_OVERRUN with no fresh reference sample: the estimate and the runs of rejections go back, and it is propagated without
  -- update
  (∀ e : EstEntry, c.cycle.estEntry = some e → c.cycle.estDone = true → c.cycle.acceptDone = false → c.obs.overrun = false →
    c.sol.running = none → c.cycle.frame = [] → c.cycle.late = [] →
    let v : State := { c with
      obs := e.obs, obsOut := e.obsOut, history := e.history, law := e.law, dyn := e.dyn, sol := e.sol, cycle.late := [],
      cycle.frame := [] }
    let x := (List.range 24).foldl (fun v r => v.setRefCfg r fun q =>
      { q with rejectRun := (at? e.sets r).rejectRun, gateFirst := (at? e.sets r).gateFirst }) v
    let w := x.observeNothing false c.cycle.tk
    exec (.estimateOverrun t) s = .next (State.raise (State.build { w with obs.overrun := true } c.cycle.tk false false) 46))

/-- R329, R331, R333, R343, R350, R351, R468: solver jobs start, stop and meet their deadline; outside what the law accepts the hold
set is written; the counters' thresholds raise their sources. -/
def Obligations.SolverJobsStartAndStop : Prop := ∀ (s : State) (t : Nat), Running s →
  let c := s.clock t
  -- SOLVER_JOB_START of a CHECK job
  (∀ (j : SolverJob) (rest : List SolverJob), c.sol.running = none → c.sol.queue = j :: rest → j.check = true →
    exec (.solverJobStart t) s = .next { c with sol.queue := rest, sol.running := some j, sol.startedAt := c.tb3 }) ∧
  -- of a cycle job that starts warm
  (∀ (j : SolverJob) (rest : List SolverJob) (v : VariantRec), c.sol.running = none → c.sol.queue = j :: rest → j.check = false →
    c.tb3 < j.deadline → j.startCold = false → j.startMapped = false →
    let w : State := { c with
      sol.queue := rest, sol.startedAt := c.tb3, sol.iter := 0, sol.best := none, sol.bestBefore := none, sol.startIterate := none,
      res.startKind := 0 }
    (w.applyJob j).2 = true → (w.applyJob j).1.variantRec j.variant = some v →
    let x := (w.applyJob j).1
    let t0 := x.startPoint j v (qpOf v x.sol.values x.cyc.tolerance)
    exec (.solverJobStart t) s = .next { x with sol.running := some j, sol.cur := t0, sol.startIterate := some t0 }) ∧
  -- a job runs, or none waits
  ((c.sol.running ≠ none ∨ c.sol.queue = []) → exec (.solverJobStart t) s = .next c) ∧
  -- SOLVE_STOP before the deadline, and its report
  (∀ j : SolverJob, c.sol.running = some j → j.check = false → c.tb3 < j.deadline → c.cycle.acceptDone = true →
    let r := c.runJob j (c.jobCap j)
    ∃ u : State, exec (.solveStop t) s = .next u ∧ u.sol.running = none ∧ u.res.stopReason = BitVec.ofNat 4 (r.2.1.getD 3) ∧
      u.res.staticPivots = r.2.2 ∧ u.res.iterations = (if r.2.1.getD 3 ≠ 5 then r.1.sol.iter else 0) ∧
      FrameBut [.sol, .res, .group] c u) ∧
  -- SOLVER_DEADLINE with no job, where the law's set-points are not accepted: the hold set with ARMED 0
  (c.cycle.ticking = true → c.cycle.tk + c.cyc.deadline ≤ c.tb3 → c.sol.running = none → c.sol.queue = [] →
    c.cycle.acceptDone = false → c.lawAccepts = false →
    ∃ u : State, exec (.solverDeadline t 0 false) s = .next u ∧ u = c.acceptHold.afterAccept ∧
      u.cycle.acceptDone = true ∧ u.group.granted = some c.cycle.count ∧ u.image = c.image) ∧
  -- SOLVE_REPORT_TIMEOUT: the member's own candidate
  (∀ r : SolveReport, c.sol.stopped = some r → c.cycle.acceptDone = false → c.lawAccepts = true → c.group.role ≠ .alone →
    c.cycle.tk + c.cyc.deadline + 100 * us ≤ c.tb3 →
    exec (.solveReportTimeout t) s = .next (c.accept (c.ownCandidate r) r.iLast false true)) ∧
  -- ALLOCATION_DEGRADED after three safety nets in a row, and back after ten successes
  (c.res.degraded = false → 3 ≤ c.res.consecNet →
    exec (.allocationDegraded t) s = .next (State.raiseN { c with res.degraded := true } 50 256)) ∧
  (c.res.degraded = true → c.res.successRun = 10 →
    exec (.allocationDegraded t) s = .next (State.raiseN { c with res.degraded := false } 50 0)) ∧
  -- FALLBACK_ON and FALLBACK_OFF in a cycle whose Accept has not written
  (∀ v : VariantRec, c.law.variant.bind c.variantRec = some v → c.res.fallback = false → c.lawAccepts = true →
    c.cyc.netLimit ≤ c.res.netRun → c.cycle.back = none →
    exec (.fallbackOn t) s = .next (State.raise { c with res.fallback := true } 51)) ∧
  (∀ v : VariantRec, c.law.variant.bind c.variantRec = some v → c.res.fallback = true → 10 ≤ c.res.successRun →
    c.cycle.back = none →
    exec (.fallbackOff t) s = .next (State.raise { c with res.fallback := false } 52))

/-- R36, R37, R384: at a command instant the snapshot written for this cycle flips and no other does; a late or stale command is
reported and changes no set-point. -/
def Obligations.CommandsTakeEffectAtTheirInstant : Prop := ∀ (s : State) (t : Nat), Running s →
  let c := s.clock t
  -- COMMAND_INSTANT with the snapshot of this cycle
  (∀ b : Snapshot, c.cycle.ticking = true → c.cycle.instantDone = false → c.cycle.tk + c.cyc.commandAt ≤ c.tb3 →
    c.cycle.back = some b → b.cycle = c.cycle.count → c.modes.restartPending = none →
    ∃ u : State, exec (.commandInstant t) s = .next u ∧ u.cycle = { c.cycle with
      instantDone := true, front := b, back := none, appliedBefore := c.cycle.applied, applied := b.setpoints,
      appliedAt := c.cycle.tk + c.cyc.commandAt, flipsMissed := 0, staleRaised := false } ∧ u.image = c.image) ∧
  -- with none: the front copy stays
  (c.cycle.ticking = true → c.cycle.instantDone = false → c.cycle.tk + c.cyc.commandAt ≤ c.tb3 → c.cycle.back = none →
    c.modes.restartPending = none →
    ∃ u : State, exec (.commandInstant t) s = .next u ∧
      u.cycle = { c.cycle with instantDone := true, flipsMissed := c.cycle.flipsMissed + 1 } ∧ u.image = c.image) ∧
  -- before the instant nothing happens
  (c.tb3 < c.cycle.tk + c.cyc.commandAt → exec (.commandInstant t) s = .next c) ∧
  -- COMMAND_LATE
  (c.cycle.ticking = true → c.cycle.acceptDone = false → c.cycle.commandLate = false →
    c.cycle.tk + c.cyc.commandAt ≤ c.tb3 + 50 * us →
    exec (.commandLate t) s = .next (State.raise { c.countIdle with cycle.commandLate := true, cycle.acceptDone := true } 14)) ∧
  -- COMMAND_STALE
  (c.positioning = true → c.cycle.staleRaised = false → 3 ≤ c.cycle.flipsMissed →
    exec (.commandStale t) s = .next (State.raise { c with cycle.staleRaised := true } 75))

/-- R53-R56, R472: the end of a fault's handling writes its FAULT record and frees its source; the causes of R472 enter SAFE. -/
def Obligations.FaultHandlingEnds : Prop := ∀ (s : State) (t : Nat), Running s →
  let c := s.clock t
  (∀ f : FaultEntry, c.events.f1 = none → c.events.f2 = none → c.events.f3 = some f → c.events.q3 = [] → f.started = true →
    safeBit f.source = none → f.handledClass = 3 →
    let merged := (at? c.events.routes f.source).mergedNow
    let v := c.record 0x0003 (sourceIsland f.source) (BitVec.ofNat 32 f.source) (f.word merged) (BitVec.ofNat 32 merged)
      (BitVec.ofNat 32 f.depth) f.time false
    exec (.faultHandled t 2) s = .next { v with
      events.routes := upd v.events.routes f.source fun r => { r with pending := false, mergedNow := 0 }, events.f3 := none }) ∧
  (∀ (f : FaultEntry) (b : Nat), c.events.f1 = some f → f.started = true → safeBit f.source = some b →
    ∃ u : State, exec (.faultHandled t 0) s = .next u ∧ u.modes.mode = .safe ∧ u.modes.cause = c.modes.cause.setBit b ∧
      FrameBut reportParts c u) ∧
  -- a class with nothing in hand, or one that a higher class has preempted, does not end
  (c.events.f2 = none → exec (.faultHandled t 1) s = .next c) ∧
  (c.events.f1 ≠ none → exec (.faultHandled t 1) s = .next c ∧ exec (.faultHandled t 2) s = .next c)
/-! ## Time bases (spec/03_time_bases.md) -/

/-- R89, R93, R95, R97, R98, R100, R101, R104, R107-R112, R117, R123: a base that loses its source, exceeds its holdover limit, steps
or changes source; leap seconds, captures, compares, PPS_IN, the oven and PTP. -/
def Obligations.TimeBasesAndUnits : Prop :=
  (∀ (s : State) (t : Nat), Powered s →
    let c := s.clock t
    -- TB_SOURCE_LOST: a LOCKED base enters HOLDOVER, with no slew and no step, its uncertainty growing from now
    (∀ n : Fin 4, n ≠ 0 → (at? c.time.tb n).state = 2 → c.sourceLost n = true →
      let c1 := (c.setTb n fun b => { b with slewing := false, stepPending := false, goodRun := 0, lossAt := some c.now,
                                             f := c.hsk.oscF, a := c.hsk.oscA }).setTb n fun b => { b with state := 1, lockedSince := none }
      exec (.tbSourceLost t n) s = .next (State.dropSource (c1.raiseN (15 + n.val) 9 (some (cap32 (c1.uncertainty n)))) n)) ∧
    -- HOLDOVER_LIMIT_EXCEEDED: HOLDOVER becomes FREERUN
    (∀ n : Fin 4, n ≠ 0 → (at? c.time.tb n).state = 1 → (at? c.time.tb n).holdoverLimit.toNat < c.uncertainty n →
      let c1 := c.setTb n fun b => { b with state := 0, lockedSince := none }
      exec (.holdoverLimitExceeded t n) s = .next (c1.raiseN (15 + n.val) 4 (some (cap32 (c1.uncertainty n))))) ∧
    -- TIME_STEP of TB1 at a whole second: the count moves by the remaining offset, TIME_STEP carries it
    ((at? c.time.tb 1).stepPending = true → (at? c.time.tb 1).count % second < 4 → (at? c.time.tb 1).goodRun < 16 →
      (∀ m : Nat, (at? c.time.compares m).en = false) →
      let off := (at? c.time.tb 1).remaining
      let d := c.drainCaptures 1
      exec (.timeStep t 1) s = .next ((d.setTb 1 fun b =>
        { b with count := ((b.count : Int) + off).toNat, remaining := 0, stepPending := false, slewing := false }).raise 19
          (some (BitVec.ofNat 32 (2 ^ 30))) (some ((BitVec.ofInt 64 off).extractLsb' 32 32)) (some ((BitVec.ofInt 64 off).extractLsb' 0 32))
          (some 0))) ∧
    -- TB3_SOURCE_CHANGE: TB2, LOCKED for 10 s, becomes the source of a member that leads its own TB3 and does not follow it
    (∀ l : Nat, c.leadsTime = true → (at? c.time.tb 2).state = 2 → (at? c.time.tb 2).lockedSince = some l → 10 * second ≤ c.now - l →
      (c.tb3Source ≠ some 2 ∨ (at? c.time.tb 3).state ≠ 2) →
      ∃ u, exec (.tb3SourceChange t 0) s = .next u ∧ (at? u.time.tb 3).source = 0 ∧ (at? u.time.tb 3).sourced = true ∧
        FrameBut ([.time] ++ reportParts) c u) ∧
    -- with no source and no base that has been LOCKED for 10 s, the TB3 of a leading member runs at the TB0 rate
    (∀ b : Fin 2, c.leadsTime = true → c.tb3Source = none → c.lockedTen 2 = false → c.lockedTen 1 = false →
      exec (.tb3SourceChange t b) s = .next (c.setTb 3 fun x => { x with source := 2, sourced := false, rate := 0 }))) ∧
  (∀ (s : State) (t : Nat), Powered s →
    let c := s.clock t
    -- LEAP_SECOND
    (c.time.leapAt ≠ 0 → c.time.leapAt ≤ c.tb2 →
      exec (.leapSecond t) s = .next { c with time.taiUtc := c.time.taiUtc + c.time.leapNext, time.leapNext := 0, time.leapAt := 0 }) ∧
    -- CAPTURE_EDGE of the edge the unit waits for: its stamp, on the grid of its input, while fewer than eight are held
    (∀ (m : Fin 16) (up : Bool), (at? c.field.captures m).en = true → (at? c.field.captures m).edge.getLsbD (if up then 0 else 1) = true →
      (at? c.field.captures m).hw.length + (at? c.field.captures m).stamps.length < 8 →
      let at_ := gridUp (if (at? c.field.captures m).input.toNat < 0x20 then us else 4) c.now
      exec (.captureEdge t m up) s =
        .next { c with field.captures := upd c.field.captures m fun x => { x with hw := x.hw ++ [c.captureStamp x at_] } }) ∧
    -- with eight held, the edge is lost and counted, and source 22 is raised
    (∀ (m : Fin 16) (up : Bool), (at? c.field.captures m).en = true → (at? c.field.captures m).edge.getLsbD (if up then 0 else 1) = true →
      8 ≤ (at? c.field.captures m).hw.length + (at? c.field.captures m).stamps.length →
      exec (.captureEdge t m up) s =
        .next (State.raise { c with field.captures := upd c.field.captures m fun x => { x with overrun := sat32 x.overrun } } 22)) ∧
    -- CAPTURE_DRAIN: every stamp is extended to 64 bits, and every lost edge not reported yet raises source 22
    (Running s →
      let v : State := { c with
        field.captures := c.field.captures.map fun x =>
          { x with stamps := x.stamps ++ x.hw.map (extend · (at? c.time.tb x.base.toNat).count), hw := [] },
        field.overrunDue := 0 }
      exec (.captureDrain t) s = .next ((List.range c.field.overrunDue).foldl (fun v _ => v.raise 22) v)) ∧
    -- COMPARE_FIRE of a one-shot unit that asserts its line, at the first 4 ns edge at or after the instant of its TARGET
    (∀ m : Fin 8, 3 ≤ m.val → c.time.compares[m].en = true → c.time.compares[m].action = 2 → c.time.compares[m].period = 0 →
      c.time.compares[m].target ≤ (at? c.time.tb c.time.compares[m].base.toNat).count →
      c.time.compares[m].actedAt ≠ some c.time.compares[m].target →
      let line := c.time.compares[m].line.toNat
      let edge := gridUp 4 (c.now - ((at? c.time.tb c.time.compares[m].base.toNat).count - c.time.compares[m].target))
      let v := State.captureLine { c with field.lines := upd c.field.lines line fun l => { l with latch := true } } line
        (c.lineHigh line) edge
      exec (.compareFire t m) s = .next (State.reportOverruns { v with
        time.compares := upd v.time.compares m fun x =>
          { x with fired := true, actedAt := some x.target, edgeAt := some edge, en := false } })) ∧
    -- PPS_IN_EDGE: the units of PPS_IN stamp it; an edge 1 s +- 10 us after the last accepted one is accepted
    (∀ p : Nat, c.time.tb2Source = 1 → c.time.ppsEdge = some p →
      let v := c.captureInput 0x20 true (gridUp 4 c.now)
      let edge := ((c.now : Int) - c.time.ppsInDelay).toNat
      p + second ≤ edge + 10 * us → edge ≤ p + second + 10 * us →
      exec (.ppsInEdge t) s =
        .next { v with time.ppsEdge := some edge, time.ppsRun := v.time.ppsRun + 1, time.ppsLostRaised := false }) ∧
    -- PPS_IN_LOST: none for 1.5 s
    (∀ p : Nat, c.time.tb2Source = 1 → c.time.ppsEdge = some p → 3 * second / 2 ≤ c.now - p → c.time.ppsLostRaised = false →
      exec (.ppsInLost t) s = .next (State.raise { c with time.ppsLostRaised := true, time.ppsEdge := none, time.ppsRun := 0,
                                                          time.ppsLabelled := 0, time.ppsLabelledEdge := none } 21)) ∧
    -- OVEN_STATUS with option T
    (∀ v : BitVec 8, c.factory.optT = true → v.toNat ≤ 2 → exec (.ovenStatus t v) s = .next { c with time.ovenStatus := v }) ∧
    -- PTP_DELAY_REQ at its interval, out of the port of the chosen grandmaster
    (∀ g : PtpAnnounce, c.ptpMaster = some g → c.time.ptp.syncPort ≠ 0xFF →
      (∀ a : Nat, c.time.ptp.delayAt = some a → a + logInterval c.time.ptp.delayLog ≤ c.now) →
      let v : State := { c with
        time.ptp.delaySent := some (c.time.ptp.delayReqSeq, (c.tb1 : Int)), time.ptp.delayAt := some c.now,
        time.ptp.delayReqSeq := c.time.ptp.delayReqSeq + 1, time.ptp.sentDelayReqs := c.time.ptp.sentDelayReqs + 1 }
      exec (.ptpDelayReq t) s = .next (v.sendOwn c.time.ptp.syncPort.toNat (at? c.net.ports 4).pvid .delayReq delayReqFrame)) ∧
    -- PTP_MESSAGE_RECEIVED: the grandmaster's Delay_Resp to the request in hand gives the path delay
    (∀ (port : Fin 5) (q : BitVec 16) (t1 t2 t3 rx corr log : Int) (from_ : PtpPort), c.ptpListens port = true →
      c.ptpMaster.map (·.sender) = some from_ → -4 ≤ log → log ≤ 3 →
      c.time.ptp.delaySent = some (q, t3) → c.time.ptp.syncRx = some (t1, t2) →
      exec (.ptpMessageReceived t port (.delayResp c.time.ptpDomain from_ q rx corr log)) s = .next { c with
        time.ptp.delaySent := none, time.ptp.delayLog := log,
        time.ptp.pathDelay := ((t2 + ptpEpoch - t1) + (rx - corr - (t3 + ptpEpoch))) / 2 }))

/-! ## The GNSS receiver (spec/04_gnss_receiver.md) -/

/-- R128, R131, R133, R135, R138, R139, R141-R143, R147, R149-R151, R161: a satellite is searched, confirmed, assigned, tracked, lost
and given up; epochs, interference, antenna supplies and GNB_RESTART. -/
def Obligations.TheReceiverTracks : Prop :=
  (∀ (s : State) (t : Nat), Running s → s.factory.optG = true →
    let c := s.clock t
    -- SEARCH_PASS_DONE: a detection takes one further pass to confirm
    (∀ (e : Fin 8) (j : SearchJob) (v : BitVec 8), c.gnss.engines[e] = some j → j.confirming = false →
      (systemSvs j.target.system.toNat).contains (if j.target.sv == 0 then v else j.target.sv).toNat = true →
      exec (.searchPassDone t e (some v)) s =
        .next { c with gnss.engines := upd c.gnss.engines e fun _ => some { j with confirming := true } }) ∧
    -- a confirmed one, of the satellite sought or of the one that a GLONASS frequency channel showed, takes a free channel, in
    -- PULL_IN, and the engine takes the next job
    (∀ (e : Fin 8) (j next : SearchJob) (rest : List SearchJob) (i : Nat) (v : BitVec 8), c.gnss.engines[e] = some j →
      j.confirming = true → j.channel = none → c.gnss.jobs = next :: rest → c.gnss.wanting = [] →
      let sig : SignalId := if j.target.sv == 0 then { j.target with sv := v } else j.target
      let el : F32 := if j.target.sv == 0 then c.gnss.elevationOf sig.system sig.sv else j.elevation
      (systemSvs sig.system.toNat).contains sig.sv.toNat = true → c.gnss.assigned sig = false →
      c.gnss.belowHorizon sig.system sig.sv = false → c.gnss.channels.toList.findIdx? (·.state == 0) = some i →
      exec (.searchPassDone t e (some v)) s = .next { c with
        gnss.jobs := rest, gnss.engines := upd c.gnss.engines e fun _ => some next,
        gnss.channels := upd c.gnss.channels i fun _ =>
          { system := sig.system, sv := sig.sv, signal := sig.signal, antenna := sig.antenna, state := 1, enteredAt := c.now,
            elevation := el, pass := c.gnss.passes el, gloK := j.gloK } }) ∧
    -- without a detection the engine goes on to the next pass of its search
    (∀ (e : Fin 8) (j : SearchJob), c.gnss.engines[e] = some j → 1 < j.passes →
      exec (.searchPassDone t e none) s = .next { c with
        gnss.engines := upd c.gnss.engines e fun _ => some { j with confirming := false, passes := j.passes - 1 } }) ∧
    -- HANDOVER_DONE: a failure goes to the end of the queue, a third one becomes a HOT job behind the jobs of its class
    (∀ (j : SearchJob) (rest : List SearchJob), c.gnss.handovers = j :: rest → j.failures + 1 < 3 →
      exec (.handoverDone t false) s =
        .next { c with gnss.handovers := rest ++ [{ j with failures := j.failures + 1 }] }) ∧
    (∀ (j : SearchJob) (rest : List SearchJob), c.gnss.handovers = j :: rest → 3 ≤ j.failures + 1 → c.gnss.jobs = [] →
      exec (.handoverDone t false) s = .next { c with
        gnss.handovers := rest,
        gnss.jobs := [{ j with kind := 1, failures := 0, passes := c.searchPasses 1 j.target.signal j.gloK }] }) ∧
    -- CHANNEL_LOCK of a lower-band signal: PULL_IN or REACQ becomes TRACKING
    (∀ i : Fin 256, (c.gnss.channels[i].state = 1 ∨ c.gnss.channels[i].state = 3) → lowerBand c.gnss.channels[i].signal = true →
      c.now - c.gnss.channels[i].enteredAt ≤ c.gnss.stateLimit c.gnss.channels[i] →
      exec (.channelLock t i true) s = .next { c with
        gnss.channels := upd c.gnss.channels i fun x => { x with state := 2, lockedAt := c.now, enteredAt := c.now },
        gnss.jobs := c.gnss.jobs.filter fun j => j.channel != some i.val }) ∧
    -- not locked after 200 ms in PULL_IN, the channel is free
    (∀ i : Fin 256, c.gnss.channels[i].state = 1 → 200 * ms ≤ c.now - c.gnss.channels[i].enteredAt → c.gnss.wanting = [] →
      exec (.channelLock t i false) s = .next { c with
        gnss.channels := upd c.gnss.channels i fun x => { x with state := 0, slip := false },
        gnss.jobs := c.gnss.jobs.filter fun j => j.channel != some i.val }) ∧
    -- LOSS_OF_LOCK: REACQ, SLIP, and a reacquisition ahead of every search
    (∀ i : Fin 256, c.gnss.channels[i].state = 2 → (∀ j ∈ c.gnss.jobs, j.kind ≠ 0) →
      exec (.lossOfLock t i) s = .next { c with
        gnss.channels := upd c.gnss.channels i fun x => { x with state := 3, slip := true, enteredAt := c.now },
        gnss.jobs := { kind := 0, target := { system := c.gnss.channels[i].system, sv := c.gnss.channels[i].sv,
                                              signal := c.gnss.channels[i].signal, antenna := c.gnss.channels[i].antenna },
                       elevation := c.gnss.channels[i].elevation, channel := some i.val,
                       gloK := c.gnss.channels[i].gloK } :: c.gnss.jobs }) ∧
    -- REACQ_WINDOW_EXPIRY: a channel not back after REACQ_WINDOW is free
    (∀ i : Fin 256, c.gnss.channels[i].state = 3 → c.gnss.reacqWindow.toNat * second ≤ c.now - c.gnss.channels[i].enteredAt →
      c.gnss.wanting = [] →
      exec (.reacqWindowExpiry t i) s = .next { c with
        gnss.channels := upd c.gnss.channels i fun x => { x with state := 0, slip := false },
        gnss.jobs := c.gnss.jobs.filter fun j => j.channel != some i.val })) ∧
  (∀ (s : State) (t : Nat), Running s → s.factory.optG = true →
    let c := s.clock t
    -- GNSS_EPOCH on the epoch grid: EPOCH_SEQ counts it
    (∀ x : EpochInput, c.epochDue = true → c.antPoints = [] → c.cycle.released = true →
      ∃ u, exec (.gnssEpoch t x) s = .next u ∧ u.gnss.epochSeq = (c.gnss.epochSeq + 1) % 2 ^ 32 ∧
        u.gnss.lastEpoch = some c.gnss.rxt ∧ FrameBut ([.time, .gnss] ++ reportParts) c u) ∧
    -- NOTCH_SPECTRUM: a new peak inside the window takes a notch
    (∀ (f : Fin 4) (p : Peak), (∀ n ∈ c.gnss.frontEnds[f].notches.toList, n.active = false) →
      c.gnss.frontEnds[f].notchThreshold.toNat ≤ p.level → c.gnss.frontEnds[f].lo ≤ p.centre → p.centre ≤ c.gnss.frontEnds[f].hi →
      0 < c.gnss.frontEnds[f].notchMax.toNat →
      exec (.notchSpectrum t f [p]) s = .next { c with gnss.frontEnds := upd c.gnss.frontEnds f fun q =>
        { q with refused := [], notches := upd q.notches 0 fun _ =>
            { active := true, centre := p.centre, peakAt := p.centre, depth := BitVec.ofNat 6 (min 40 (p.level - 3)) } } }) ∧
    -- JAM_UPDATE: J rises to the threshold, and its source asserts with bit 8 set
    (∀ (f : Fin 4) (w : F32), let j := jamIndex w c.factory.jamP0[f]
      c.gnss.frontEnds[f].jamThreshold ≠ 0 → c.gnss.frontEnds[f].jamHigh = false → c.gnss.frontEnds[f].jamThreshold.toNat ≤ j →
      exec (.jamUpdate t f w) s = .next (State.raiseN { c with
        gnss.frontEnds := upd c.gnss.frontEnds f fun q => { q with jam := j, jamHigh := true } } (26 + f.val) (j + 256))) ∧
    -- J between the two bounds: nothing is reported
    (∀ (f : Fin 4) (w : F32), let j := jamIndex w c.factory.jamP0[f]
      c.gnss.frontEnds[f].jamHigh = true → c.gnss.frontEnds[f].jamThreshold.toNat ≤ j + 10 →
      exec (.jamUpdate t f w) s = .next { c with
        gnss.frontEnds := upd c.gnss.frontEnds f fun q => { q with jam := j, jamHigh := true } }) ∧
    -- ANT_SUPPLY_SHORT: above 100 mA for 10 ms, and it is off; ANT_SUPPLY_RETRY, 1 s later, and ANT_SUPPLY_OPEN judge the current again
    (∀ (a : Fin 2) (i : BitVec 16), c.gnss.supplies[a].en = true → c.gnss.supplies[a].status = 1 → 100 < i.toNat →
      10 * ms ≤ c.now - c.gnss.supplies[a].switchedAt →
      exec (.antSupplyShort t a i) s = .next (State.supplySwitched (State.raise { c with
        gnss.supplies := upd c.gnss.supplies a fun x => { x with status := 3, current := 0 } } 31 (some (Config.antSupplyParam a 3))) a)) ∧
    (∀ (a : Fin 2) (i : BitVec 16), c.gnss.supplies[a].en = true → c.gnss.supplies[a].status = 3 → 5 ≤ i.toNat → i.toNat ≤ 100 →
      second ≤ c.now - c.gnss.supplies[a].switchedAt →
      exec (.antSupplyRetry t a i) s = .next (State.supplySwitched (State.raise { c with
        gnss.supplies := upd c.gnss.supplies a fun x => { x with status := 1, current := i } } 31 (some (Config.antSupplyParam a 1))) a)) ∧
    (∀ (a : Fin 2) (i : BitVec 16), c.gnss.supplies[a].en = true → c.gnss.supplies[a].status = 1 → i.toNat < 5 →
      exec (.antSupplyOpen t a i) s = .next (State.raise { c with
        gnss.supplies := upd c.gnss.supplies a fun x => { x with status := 2, current := i } } 31 (some (Config.antSupplyParam a 2)))) ∧
    -- GNB_RESTART 1 discards the ephemerides and the searches in hand, outside the positioning modes; reacquisitions go on
    (∀ req : Request, Ready s t req 0x11 (writeBody (objId 3 0 5) [1]) → s.modes.mode.positioning = false →
      let w := s.atWrite t req (objId 3 0 5) [1]
      exec (.gnbRestart t req 1) s = .next (State.wrote { w with
        gnss.ephemerides := [], gnss.jobs := w.gnss.jobs.filter (·.kind == 0), gnss.predictions := [],
        gnss.engines := w.gnss.engines.map fun e => e.filter (·.kind == 0) } req (objId 3 0 5))))

/-! ## Analog acquisition (spec/05_analog_acquisition.md) -/

/-- R169, R176-R179, R181, R182, R186: an output of an analog channel that carries no point is counted, stamped less the delay of its
chain, and goes through the factory layer and the user layer; a channel whose DC block is off delivers that value; the user layer is
committed in one piece or put back, and the DC block is preset or frozen. -/
def Obligations.AnalogChannelsStampAndScale : Prop :=
  (∀ (s : State) (t : Nat) (ch : Fin 24) (stream : List Bool), Powered s →
    let c := s.clock t
    let x := c.ain.channels[ch]
    ch.val < 16 → x.active = false → x.dcEn = false → stream.length = samplesPerOutput x.rate.toNat x.scs →
    let o := x.chain.output (cicRatio x.rate.toNat x.scs) x.scs stream
    let k := c.rangeCal ch x.range
    ∃ u, exec (.aiOutput t ch stream) s = .next u ∧
      u.ain.channels[ch].outputs = x.outputs + 1 ∧
      u.ain.channels[ch].stamp = ((c.tb3 : Int) - (chainDelay x.rate.toNat x.scs + F32.nearest k.delay)).toNat ∧
      u.ain.channels[ch].stamp0 = ((c.now : Int) - (chainDelay x.rate.toNat x.scs + F32.nearest k.delay)).toNat ∧
      u.ain.channels[ch].value = (userValue x.activeCal (factoryValue k c.deltaT o.1)).1 ∧
      u.ain.channels[ch].chain = o.2 ∧
      (∀ n : Fin 24, n ≠ ch → u.ain.channels[n] = c.ain.channels[n]) ∧ FrameBut [.ain, .qcp] c u) ∧
  (∀ (s : State) (t : Nat) (req : Request) (ch : Fin 16),
    -- USER_COMMIT
    (Ready s t req 0x11 (writeBody (objId 4 ch 0x13) [1]) → s.modes.mode.positioning = false →
      (at? s.ain.channels ch).staged.committable = true →
      let w := s.atWrite t req (objId 4 ch 0x13) [1]
      exec (.userCommit t req ch) s = .next (State.wrote { w with
        ain.channels := upd w.ain.channels ch fun x => { x with activeCal := x.staged } } req (objId 4 ch 0x13))) ∧
    -- USER_DISCARD
    (Ready s t req 0x11 (writeBody (objId 4 ch 0x13) [2]) →
      let w := s.atWrite t req (objId 4 ch 0x13) [2]
      exec (.userDiscard t req ch) s = .next (State.wrote { w with
        ain.channels := upd w.ain.channels ch fun x => { x with staged := x.activeCal } } req (objId 4 ch 0x13))) ∧
    -- DC_PRESET and DC_FREEZE of a channel with a DC block
    (∀ f : Bool, Ready s t req 0x11 (writeBody (objId 4 ch 3) (nat32 (2 + if f then 1 else 0))) → (at? s.ain.channels ch).dcEn = true →
      let w := s.atWrite t req (objId 4 ch 3) (nat32 (2 + if f then 1 else 0))
      exec (.dcPreset t req ch f) s = .next (State.wrote { w with
        ain.channels := upd w.ain.channels ch fun x => { x with freeze := f, preset := true } } req (objId 4 ch 3))) ∧
    (∀ f : Bool, Ready s t req 0x11 (writeBody (objId 4 ch 3) (nat32 (if f then 1 else 0))) → (at? s.ain.channels ch).dcEn = true →
      let w := s.atWrite t req (objId 4 ch 3) (nat32 (if f then 1 else 0))
      exec (.dcFreeze t req ch f) s = .next (State.wrote { w with
        ain.channels := upd w.ain.channels ch fun x => { x with freeze := f } } req (objId 4 ch 3))))

/-! ## References and fusion (spec/06_reference_fusion.md) -/

/-- R216, R220, R222, R223, R231, R235, R239, R266, R495: a reference goes stale, is quarantined, admitted or readmitted, and dead
reckoning begins; the writes that name a reference are accepted in role ALONE and wait for the release. -/
def Obligations.ReferencesAndTheirWrites : Prop :=
  (∀ (s : State) (t : Nat) (r : Fin 24), Running s →
    let c := s.clock t
    let q := c.fusion.refs[r]
    -- REF_TIMEOUT_EXPIRY: an ADMITTING, ACTIVE or SUSPECT reference becomes STALE
    ((c.refSlice r).isSome = true → (q.state = 1 ∨ q.state = 2 ∨ q.state = 3) → q.lastValidAt + c.refTimeout r ≤ c.tb3 →
      exec (.refTimeoutExpiry t r) s = .next { c with fusion.refs := upd c.fusion.refs r fun x =>
        { x with state := 5, cause := 0, consec := 0, admitSum := (0, 0), admission := none } }) ∧
    -- REF_QUARANTINED: SUSPECT for QUARANTINE_COUNT cycles
    (q.state = 3 → c.fusion.quarantineCount ≤ q.consec →
      exec (.refQuarantined t r) s = .next (State.raise { c with fusion.refs := upd c.fusion.refs r fun x =>
        { x with state := 4, cause := 1, consec := 0 } } 34)) ∧
    -- REF_ADMITTED: an absolute reference becomes ACTIVE; a relative one takes the offset its admission found as well
    (∀ o : F64 × F64, q.admission = some o → q.state = 1 → c.relative r = false →
      exec (.refAdmitted t r) s = .next { c with fusion.refs := upd c.fusion.refs r fun x =>
        { x with state := 2, cause := 0, consec := 0, admitSum := (0, 0), admission := none } }) ∧
    (∀ o : F64 × F64, q.admission = some o → q.state = 1 → c.relative r = true →
      exec (.refAdmitted t r) s = .next { c with
        fusion.refs := upd c.fusion.refs r fun x =>
          { x with state := 2, cause := 0, consec := 0, admitSum := (0, 0), admission := none },
        fusion.sets := upd c.fusion.sets r fun x => { x with offset := o } }) ∧
    -- AUTO_READMIT: an outlier inside for READMIT_COUNT cycles
    (q.state = 4 → q.cause = 1 → c.fusion.autoReadmit = true → c.fusion.readmitCount ≤ q.consec →
      exec (.autoReadmit t r) s = .next (State.raise { c with fusion.refs := upd c.fusion.refs r fun x =>
        { x with state := 2, cause := 0, consec := 0 } } 35)) ∧
    -- DR_DELAY_EXPIRY: no position sample applied for DR_DELAY, while heading is kept
    (c.obs.state = 3 → c.obs.posDr = false → c.obs.lastPosAt + c.obsParams.drDelay * ms ≤ c.tb3 →
      c.tb3 < c.obs.lastHdgAt + c.obsParams.drDelay * ms →
      exec (.drDelayExpiry t) s = .next (State.raiseN { c with obs.posDr := true } 37 1))) ∧
  (∀ (s : State) (t : Nat) (req : Request), s.group.role = .alone →
    let write (obj : Word) (v : List Byte) : SettingWrite := { object := obj, value := v, req := req }
    -- REF_READMIT of a quarantined reference
    (∀ (i : BitVec 8) (r : Nat), Ready s t req 0x11 (writeBody (objId 5 0 0x104) [i]) → refOfInst i.toNat = some r →
      (s.refSlice r).isSome = true → (at? s.fusion.refs r).state = 4 →
      let w := s.atWrite t req (objId 5 0 0x104) [i]
      exec (.refReadmit t req i) s =
        .next (State.wroteAlone { w with fusion.pending := w.fusion.pending ++ [write (objId 5 0 0x104) [i]] } req (objId 5 0 0x104))) ∧
    -- REF_ENABLE
    (∀ (i e : BitVec 8) (r : Nat), Ready s t req 0x11 (writeBody (objId 5 i.toNat 4) [e]) → refOfInst i.toNat = some r →
      (s.refSlice r).isSome = true → e.toNat ≤ 1 →
      let w := s.atWrite t req (objId 5 i.toNat 4) [e]
      exec (.refEnable t req i e) s =
        .next (State.wroteAlone { w with fusion.pending := w.fusion.pending ++ [write (objId 5 i.toNat 4) [e]] } req (objId 5 i.toNat 4))) ∧
    -- TW_DEPTH of a taut wire: 1 to 5000 m
    (∀ (i : BitVec 8) (r : Nat) (x : SliceRec) (d : F32), Ready s t req 0x11 (writeBody (objId 5 i.toNat 0xB) (be32 d)) →
      refOfInst i.toNat = some r → s.refSlice r = some x → r < 16 → x.principle = 2 → F32.within F32.one (F32.ofNat 5000) d = true →
      let w := s.atWrite t req (objId 5 i.toNat 0xB) (be32 d)
      exec (.twDepth t req i d) s =
        .next (State.wroteAlone { w with fusion.pending := w.fusion.pending ++ [write (objId 5 i.toNat 0xB) (be32 d)] } req
          (objId 5 i.toNat 0xB))) ∧
    -- TARGET_POSE of a reference with reflectors
    (∀ (i : BitVec 8) (r : Nat) (n e : F64) (rot : F32),
      Ready s t req 0x11 (writeBody (objId 5 i.toNat 0xC) (be64 n ++ be64 e ++ be32 rot)) →
      refOfInst i.toNat = some r → (s.refSlice r).isSome = true → r < 16 → (s.refFusion r).reflectors ≠ [] →
      let w := s.atWrite t req (objId 5 i.toNat 0xC) (be64 n ++ be64 e ++ be32 rot)
      exec (.targetPose t req i n e rot) s =
        .next (State.wroteAlone { w with
          fusion.pending := w.fusion.pending ++ [write (objId 5 i.toNat 0xC) (be64 n ++ be64 e ++ be32 rot)] } req
          (objId 5 i.toNat 0xC))) ∧
    -- REFINE_RESET
    (∀ (i : BitVec 8) (r : Nat) (f : Bool), Ready s t req 0x11 (writeBody (objId 5 i.toNat 9) (nat8 (2 + if f then 1 else 0))) →
      refOfInst i.toNat = some r → (s.refSlice r).isSome = true → r < 16 →
      let w := s.atWrite t req (objId 5 i.toNat 9) (nat8 (2 + if f then 1 else 0))
      exec (.refineReset t req i f) s =
        .next (State.wroteAlone { w with
          fusion.pending := w.fusion.pending ++ [write (objId 5 i.toNat 9) (nat8 (2 + if f then 1 else 0))] } req
          (objId 5 i.toNat 9))))

/-! ## The law (spec/08_station_keeping_law.md) -/

/-- R294, R295, R299, R304, R306, R307, R309, R312, R331, R495: the writes to the law are accepted in role ALONE and wait for the
release; what is fresh from the moment it is written is fresh at once; time-outs and alarms of the law, and the end of a check job. -/
def Obligations.LawWritesAndSupervision : Prop :=
  (∀ (s : State) (t : Nat) (req : Request), s.group.role = .alone →
    let write (obj : Word) (v : List Byte) : SettingWrite := { object := obj, value := v, req := req }
    -- SETPOINT_GEO, in IDLE or STATION with a valid origin
    (∀ lat lon : F64, let obj := objId 6 0 0x102; let v := be64 lat ++ be64 lon
      Ready s t req 0x11 (writeBody obj v) → (s.modes.mode = .idle ∨ s.modes.mode = .station) →
      let w := s.atWrite t req obj v
      let arrived := (s.hostCtx req).arrived.getD w.tb3
      w.lawJudge 0x102 v arrived = .ok →
      exec (.setpointGeo t req lat lon) s = .next (State.wroteAlone { w with law.pending := w.law.pending ++ [write obj v] } req obj)) ∧
    -- SETPOINT_MOVE, in STATION
    (∀ (f : BitVec 8) (d1 d2 : F32), let obj := objId 6 0 0x103; let v := be8 f ++ zeros 3 ++ be32 d1 ++ be32 d2
      Ready s t req 0x11 (writeBody obj v) → s.modes.mode = .station →
      let w := s.atWrite t req obj v
      let arrived := (s.hostCtx req).arrived.getD w.tb3
      w.lawJudge 0x103 v arrived = .ok →
      exec (.setpointMove t req f d1 d2) s = .next (State.wroteAlone { w with law.pending := w.law.pending ++ [write obj v] } req obj)) ∧
    -- SETPOINT_HEADING, in AUTOHEAD or STATION, of an angle in [0, 2 pi)
    (∀ psi : F64, let obj := objId 6 0 0x104; let v := be64 psi
      Ready s t req 0x11 (writeBody obj v) → (s.modes.mode = .autohead ∨ s.modes.mode = .station) → angleOk psi = true →
      let w := s.atWrite t req obj v
      exec (.setpointHeading t req psi) s = .next (State.wroteAlone { w with law.pending := w.law.pending ++ [write obj v] } req obj)) ∧
    -- JOY_DEMAND, each of -1 to 1
    (∀ x y m : F32, let obj := objId 6 0 0x106; let v := be32 x ++ be32 y ++ be32 m
      Ready s t req 0x11 (writeBody obj v) → F32.within (F32.neg F32.one) F32.one x = true →
      F32.within (F32.neg F32.one) F32.one y = true → F32.within (F32.neg F32.one) F32.one m = true →
      let w := s.atWrite t req obj v
      exec (.joyDemand t req x y m) s = .next (State.wroteAlone { w with
        law.joyAt := w.tb3, law.joyStale := false, law.pending := w.law.pending ++ [write obj v] } req obj)) ∧
    -- TRACK_COMMIT of a staged path that may be committed, and TRACK_DISCARD
    (
      let obj := objId 6 0 0x142
      Ready s t req 0x11 (writeBody obj [1]) →
      let w := s.atWrite t req obj [1]
      let arrived := (s.hostCtx req).arrived.getD w.tb3
      w.lawJudge 0x142 [1] arrived = .ok →
      exec (.trackCommit t req) s = .next (State.wroteAlone { w with law.pending := w.law.pending ++ [write obj [1]] } req obj)) ∧
    (
      let obj := objId 6 0 0x142
      Ready s t req 0x11 (writeBody obj [2]) →
      let w := s.atWrite t req obj [2]
      exec (.trackDiscard t req) s = .next (State.wroteAlone { w with law.pending := w.law.pending ++ [write obj [2]] } req obj)) ∧
    -- TARGET_STATE with a stamp no more than 1 ms ahead of its arrival
    (∀ (st : BitVec 64) (n e psi : F64) (vn ve yr : F32), let obj := objId 6 0 0x144
      let v := be64 st ++ be64 n ++ be64 e ++ be32 vn ++ be32 ve ++ be64 psi ++ be32 yr
      Ready s t req 0x11 (writeBody obj v) →
      let w := s.atWrite t req obj v
      st.toNat ≤ (s.hostCtx req).arrived.getD w.tb3 + ms →
      exec (.targetState t req st n e vn ve psi yr) s =
        .next (State.wroteAlone { w with law.pending := w.law.pending ++ [write obj v] } req obj)) ∧
    -- POWER_AVAILABLE, not negative
    (∀ p : F32, let obj := objId 6 0 0x130; let v := be32 p
      Ready s t req 0x11 (writeBody obj v) → F32.le 0 p = true →
      let w := s.atWrite t req obj v
      exec (.powerAvailable t req p) s = .next (State.wroteAlone { w with
        law.power.writtenAt := some w.tb3, law.pending := w.law.pending ++ [write obj v] } req obj)) ∧
    -- CHECK_START, in IDLE or TEST with room in the job queue
    (
      let obj := objId 6 0 0x23
      Ready s t req 0x11 (writeBody obj [1]) → (s.modes.mode = .idle ∨ s.modes.mode = .test) → s.sol.queue.length < 4 →
      let w := s.atWrite t req obj [1]
      exec (.checkStart t req) s = .next (State.wrote { w with sol.queue := w.sol.queue ++ [{ check := true }] } req obj))) ∧
  (∀ (s : State) (t : Nat), Running s →
    let c := s.clock t
    -- JOY_TIMEOUT_EXPIRY
    ((c.modes.mode = .joystick ∨ c.modes.mode = .autohead) → c.law.joyAt + c.law.params.joyTimeout * ms ≤ c.tb3 →
      exec (.joyTimeoutExpiry t) s = .next { c with law.joyStale := true }) ∧
    -- TRACK_TARGET_LOST
    (∀ g : TargetState, c.modes.mode = .track → c.law.track.source = true → c.law.track.lost = false → c.law.track.target = some g →
      g.stamp + c.law.track.targetTimeout * ms < c.cycle.tk + c.cyc.commandAt →
      exec (.trackTargetLost t) s = .next (State.raise { c with law.track.lost := true } 60)) ∧
    -- POWER_TIMEOUT_EXPIRY: a value that is too old at t_k gives way to the fall-back
    ((c.powerLimit c.cycle.tk).2 = true →
      exec (.powerTimeoutExpiry t) s = .next { c with law.power.pLim := (c.powerLimit c.cycle.tk).1, law.power.stale := true }) ∧
    -- POWER_LIMIT_ACTIVE on entry, and on exit after 10 cycles
    (c.law.power.bindingNow = true → c.law.power.active = false →
      exec (.powerLimitActive t) s = .next (State.raiseN { c with law.power.active := true } 56 256
        (some (F32.nearest c.law.power.slack0).toNat))) ∧
    (c.law.power.bindingNow = false → c.law.power.active = true → 10 ≤ c.law.power.releasedCycles →
      exec (.powerLimitActive t) s = .next (State.raiseN { c with law.power.active := false } 56 0
        (some (F32.nearest c.law.power.slack0).toNat))) ∧
    -- THRUST_SATURATED on exit, when no available thruster has been at an edge for 10 cycles
    (c.law.saturated = true → (∀ n : Nat, n < 16 → (at? c.law.thr n).edgeCycles < 10) →
      exec (.thrustSaturated t) s = .next (State.raiseN { c with law.saturated := false } 57 0)) ∧
    -- and on entry, for one that has
    (∀ n : Nat, n < 16 → c.law.saturated = false → (at? c.law.thr n).available = true → 10 ≤ (at? c.law.thr n).edgeCycles →
      ∃ mask : Nat, mask.testBit n = true ∧
        exec (.thrustSaturated t) s = .next (State.raiseN { c with law.saturated := true } 57 256 (some mask))) ∧
    -- CHECK_DONE
    (∀ (j : SolverJob) (pass : Bool), c.sol.running = some j → j.check = true →
      exec (.checkDone t pass) s = .next { c with sol.running := none, res.checkAt := c.tb3, res.checkResult := if pass then 1 else 2 }))

/-! ## Thruster servo and motion (spec/10_thruster_servo_and_motion.md) -/

/-- R366-R369, R372: a sample of an outermost slot that a thruster's snapshot feeds. A valid sample with nothing held computes e, d,
ff, I, the biquads and the clamp in that order; a trigger inside the previous sample is an overrun; a SETTLING sample is skipped;
the third invalid sample puts the slot in FAULT at FAULT_OUTPUT, and an output that misses its bound by more than 1 us is skipped as an
overrun is. The feedback is that of the slot's point, and each trigger clocks the capture. -/
def Obligations.ServoSampleIsTheFixedArithmetic : Prop := ∀ (s : State) (t : Nat) (n : Fin 32) (r : LoopRec) (th : ThrusterRec) (a : Nat),
  Running s → s.slotHere n = some r → r.outer = 0xFF → s.servo.slots[n].hostSp = none → s.gearOf n = none →
  s.namedBy n = some (th, a) → th.generator = 0xFF → s.modes.gatheredHold = false → s.servo.ic.injRunning = false →
  (s.route 65).fault = false → (s.route 76).fault = false →
  let c := s.clock t
  let l := c.servo.slots[n]
  let k := c.servo.coeffs[n]
  -- the bound of R365, and 1 us beyond it
  (∀ y : Nat, s.innermost n = true → c.slotLatency n r + 1000 < y → c.missesBound n r y = true) ∧
  (∀ y : Nat, y ≤ c.slotLatency n r + 1000 → c.missesBound n r y = false) ∧ (∃ g : Nat, g ≤ 4 ∧ c.slotLatency n r = 1000 + 550 * g) ∧
  -- the sample
  (∀ (fb : F32) (y : Nat), c.missesBound n r y = false → c.slotFeedback r = { value := fb } → c.servo.counts[n].busyUntil ≤ c.now → l.faulted = false → l.holdLeft = 0 → l.release = none →
    s.slotFrozen n = false → (∀ m ∈ s.innerOf n, (at? s.servo.slots m).faulted = false) → fieldAt s.servo.ic.injConfig 1 1 = 0 →
    let sp := F32.add (axisValue (setOf c.cycle.front.setpoints th.slice) a) 0
    let dt := f32OfRat 1 r.rate
    let e := F32.sub sp fb
    let d := F32.div (F32.sub l.fbPrev fb) dt
    let ke := F32.mul k.ki e
    let blocked := l.outAtLimit && (if l.clampSide then F32.lt 0 ke else F32.lt ke 0)
    let i := F32.clamp (if blocked then l.integ else F32.add l.integ (F32.mul ke dt)) k.outMin k.outMax
    ∃ u : State, exec (.slotSample t n y) s = .next u ∧
      (let x := F32.add (F32.add (F32.add (F32.mul k.kp e) i) (F32.mul k.kd d)) (F32.mul k.ffGain u.servo.slots[n].spRate)
       let z := F32.add (biquad k.bq2 l.d2 (biquad k.bq1 l.d1 x).1).1 0
       u.servo.slots[n].out = F32.clamp z k.outMin k.outMax) ∧
      u.servo.slots[n].integ = i ∧ u.servo.slots[n].err = e ∧ u.servo.slots[n].fbPrev = fb ∧ u.servo.slots[n].state = 1 ∧
      u.servo.slots[n].sp = sp ∧ u.servo.slots[n].outPrev = l.out ∧
      (∀ m : Fin 32, m ≠ n → u.servo.slots[m] = c.servo.slots[m]) ∧ u.servo.coeffs = c.servo.coeffs ∧
      u.servo.axes = c.servo.axes ∧ u.servo.gears = c.servo.gears ∧ FrameBut quietParts c u) ∧
  -- an overrun
  (∀ y : Nat, (c.now < c.servo.counts[n].busyUntil ∨ c.missesBound n r y = true) →
    exec (.slotSample t n y) s = .next (State.captureTick (State.raise { c with
      servo.counts := upd c.servo.counts n fun k => { k with overruns := sat32 k.overruns } } 74) n)) ∧
  -- a SETTLING sample
  (∀ y : Nat, c.missesBound n r y = false → (c.slotFeedback r).settling = true → c.servo.counts[n].busyUntil ≤ c.now →
    exec (.slotSample t n y) s = .next (c.captureTick n)) ∧
  -- the third invalid sample
  (∀ y : Nat, c.missesBound n r y = false → (c.slotFeedback r).settling = false → (c.slotFeedback r).valid = false → c.servo.counts[n].busyUntil ≤ c.now →
    c.servo.counts[n].invalidRun = 2 → l.faulted = false →
    ∃ u : State, exec (.slotSample t n y) s = .next u ∧ u.servo.slots[n].faulted = true ∧
      u.servo.slots[n].state = 3 ∧ u.servo.slots[n].out = F32.clamp k.faultOutput k.outMin k.outMax ∧
      (∀ m : Fin 32, m ≠ n → u.servo.slots[m] = c.servo.slots[m]) ∧ FrameBut ([.law] ++ quietParts) c u)

/-- R374, R376, R378, R383, R386: the writes of slots, generators and gear ratios: accepted, recorded, and answered OK. -/
def Obligations.ServoObjectsTakeWrites : Prop := ∀ (s : State) (t : Nat) (req : Request),
  -- COEFFICIENT_WRITE of a value that leaves the set valid
  (∀ (n : Fin 32) (r : LoopRec) (num : BitVec 16) (v : F32) (k : SlotCoeffs),
    Ready s t req 0x11 (writeBody (objId 7 n num.toNat) (be32 v)) → s.slotHere n = some r →
    ((0x10 ≤ num.toNat ∧ num.toNat ≤ 0x20) ∨ num.toNat = 0x23) → (at? s.servo.coeffs n).set num.toNat v = some k →
    let w := s.atWrite t req (objId 7 n num.toNat) (be32 v)
    exec (.coefficientWrite t req n num v) s =
      .next (State.wrote { w with servo.coeffs := upd w.servo.coeffs n fun _ => k } req (objId 7 n num.toNat))) ∧
  -- KP, KI and KD take any finite value
  (∀ (k : SlotCoeffs) (v : F32), v.finite = true →
    k.set 0x10 v = some { k with kp := v } ∧ k.set 0x11 v = some { k with ki := v } ∧ k.set 0x12 v = some { k with kd := v }) ∧
  -- an unstable biquad is refused
  (∀ (k : SlotCoeffs) (v : F32) (j : Nat), j < 5 → biquadStable (k.bq1.set j v) = false → k.set (0x13 + j) v = none) ∧
  -- SLOT_HOLD of N samples, and of 0
  (∀ (n : Fin 32) (r : LoopRec) (v : BitVec 16), Ready s t req 0x11 (writeBody (objId 7 n 0x21) (be16 v)) →
    s.slotHere n = some r → 0 < v.toNat → v.toNat ≤ r.rate →
    let w := s.atWrite t req (objId 7 n 0x21) (be16 v)
    exec (.slotHold t req n v) s = .next (State.wrote { w with servo.slots := upd w.servo.slots n fun l =>
      { l with holdLeft := v.toNat, holding := true, release := if l.release.isNone then some l.out else l.release } } req
        (objId 7 n 0x21))) ∧
  (∀ (n : Fin 32) (r : LoopRec), Ready s t req 0x11 (writeBody (objId 7 n 0x21) (be16 0)) → s.slotHere n = some r →
    let w := s.atWrite t req (objId 7 n 0x21) (be16 0)
    exec (.slotHold t req n 0) s =
      .next (State.wrote { w with servo.slots := upd w.servo.slots n fun l => { l with holdLeft := 0 } } req (objId 7 n 0x21))) ∧
  -- SLOT_SETPOINT of an outermost slot in TEST
  (∀ (n : Fin 32) (r : LoopRec) (v : F32), Ready s t req 0x11 (writeBody (objId 7 n 0x22) (be32 v)) → s.slotHere n = some r →
    r.outer = 0xFF → s.modes.mode = .test →
    let w := s.atWrite t req (objId 7 n 0x22) (be32 v)
    exec (.slotSetpoint t req n v) s =
      .next (State.wrote { w with servo.slots := upd w.servo.slots n fun l => { l with hostSp := some (v, w.tb3) } } req
        (objId 7 n 0x22))) ∧
  -- PG_MOVE of an axis without forbidden sectors in TEST
  (∀ (g : Fin 16) (r : ThrusterRec) (a : BitVec 8) (x : F64),
    Ready s t req 0x11 (writeBody (objId 7 (0x20 + g) 0xA) (be8 a ++ zeros 3 ++ be64 x)) → s.generatorHere g = some r →
    s.modes.mode = .test → a.toNat ≤ 2 → axisSlot r a.toNat ≠ 0xFF → a ≠ 0 →
    let w := s.atWrite t req (objId 7 (0x20 + g) 0xA) (be8 a ++ zeros 3 ++ be64 x)
    exec (.pgMove t req g a x) s = .next (State.wrote
      (w.setAxis r.generator a.toNat fun _ =>
        let y := w.axis r.generator a.toNat
        ProfileAxis.aim { y with host := true, moving := true } x) req
        (objId 7 (0x20 + g) 0xA))) ∧
  -- GEAR_RATIO re-bases the slave at the present master count
  (∀ (g : Fin 8) (i : Fin 4) (p q : Word),
    Ready s t req 0x11 (writeBody (objId 7 (0x30 + g) (0x10 + i)) (be32 p ++ be32 q)) → q ≠ 0 →
    let w := s.atWrite t req (objId 7 (0x30 + g) (0x10 + i)) (be32 p ++ be32 q)
    exec (.gearRatioWrite t req g i p q) s = .next (State.wrote (w.setSlave g i fun x =>
      let m := w.servo.gears[g].count
      { x with s0 := x.s0 + (x.p * (m - x.m0)).fdiv x.q, m0 := m, p := p.toInt, q := q.toNat }) req
        (objId 7 (0x30 + g) (0x10 + i))))

/-- R370, R371, R376, R387, R388: what a slot reports, the fall-back and the return of a gear group, and latches. -/
def Obligations.ServoReportsGearsAndLatches : Prop := ∀ (s : State) (t : Nat), Running s →
  let c := s.clock t
  -- LOOP_LIMIT on entry and on exit
  (∀ n : Fin 32, c.servo.counts[n].loopLimit = false → 1000 ≤ c.servo.counts[n].clampedRun →
    exec (.loopLimit t n) s = .next (State.raiseN { c with
      servo.counts := upd c.servo.counts n fun k => { k with loopLimit := true } } 64 (n.val + 256))) ∧
  (∀ n : Fin 32, c.servo.counts[n].loopLimit = true → 1000 ≤ c.servo.counts[n].unclampedRun →
    exec (.loopLimit t n) s = .next (State.raiseN { c with
      servo.counts := upd c.servo.counts n fun k => { k with loopLimit := false } } 64 n.val)) ∧
  -- FOLLOWING_ERROR on entry and on exit
  (∀ (n : Fin 32) (r : LoopRec), c.slotHere n = some r → c.servo.counts[n].following = false → 0 < c.servo.counts[n].aboveRun →
    c.servo.coeffs[n].followingTime * r.rate ≤ c.servo.counts[n].aboveRun * 1000 →
    exec (.followingError t n) s = .next (State.raise { c with
      servo.counts := upd c.servo.counts n fun k => { k with following := true } } 70 (BitVec.ofNat 32 (n.val + 256))
        (F32.abs c.servo.slots[n].err))) ∧
  (∀ (n : Fin 32) (r : LoopRec), c.slotHere n = some r → c.servo.counts[n].following = true → 0 < c.servo.counts[n].belowRun →
    c.servo.coeffs[n].followingTime * r.rate ≤ c.servo.counts[n].belowRun * 1000 →
    exec (.followingError t n) s = .next (State.raise { c with
      servo.counts := upd c.servo.counts n fun k => { k with following := false } } 70 (BitVec.ofNat 32 n.val)
        (F32.abs c.servo.slots[n].err))) ∧
  -- SLOT_HOLD_END
  (∀ n : Fin 32, c.servo.slots[n].holding = true → c.servo.slots[n].holdLeft = 0 → c.servo.slots[n].state = 2 →
    c.modes.gatheredHold = false → c.servo.slots[n].faulted = false →
    exec (.slotHoldEnd t n) s = .next (State.raiseN { c with
      servo.slots := upd c.servo.slots n fun l => { l with holding := false } } 73 n.val)) ∧
  -- GEAR_MASTER_LOST: every slave moves from its present target to its place at the fall-back count, all in the time of the longest;
  -- so does a group whose slaves are still engaging again
  (∀ g : Fin 8,
    let x := c.servo.gears[g]
    let mf := if x.fbSource then x.fallbackCount else x.count
    let present (q : GearSlave) : Int := if x.engaging && !q.engaged then F64.floor q.axis.pos else q.at x.count
    let time (q : GearSlave) : Nat :=
      (F64.nearest (F64.div (F64.mul (F64.ofInt (q.at mf - present q).natAbs) (F64.ofNat second)) (F64.of32 q.vmax))).toNat
    x.en = true → (x.fallback = false ∨ x.engaging = true) → c.masterLost x.master.toNat = true →
    ∃ n : Nat, (∀ i : Fin 4, x.slaves[i].slot ≠ 0xFF → time x.slaves[i] ≤ n) ∧
      (n = 0 ∨ ∃ i : Fin 4, x.slaves[i].slot ≠ 0xFF ∧ time x.slaves[i] = n) ∧
      exec (.gearMasterLost t g) s = .next (State.raiseN (c.setGear g fun y =>
        { y with fallback := true, engaging := false, moveStart := c.now, moveTime := n,
                 slaves := y.slaves.map fun q => { q with from_ := present q, moveTo := q.at mf, engaged := false } }) 68 256)) ∧
  -- GEAR_REENGAGE: 100 ms after the master's return each slave starts from where it is
  (∀ (g : Fin 8) (a : Nat),
    let x := c.servo.gears[g]
    x.en = true → x.fallback = true → x.engaging = false → x.validSince = some a → a + 100 * ms ≤ c.now →
    (∃ i : Fin 4, x.slaves[i].slot ≠ 0xFF) →
    ∃ f : GearSlave → GearSlave,
      (∀ q, { f q with axis := q.axis } = q ∧
        (f q).axis.pos = F64.ofInt (q.fallTarget (c.now - x.moveStart) x.moveTime) ∧ (f q).axis.vmax = q.vmax) ∧
      exec (.gearReengage t g) s = .next (c.setGear g fun y => { y with engaging := true, slaves := y.slaves.map f })) ∧
  -- LATCHED: an edge of the armed kind, of an incremental channel or a drive within the time the latch's filter takes, of an SSI or
  -- BiSS-C channel once a frame has come after it: the position lies on the line between the frames on either side
  (∀ (unit : Fin 8) (falling : Bool) (stamp : Nat) (count : Int),
    let x := c.servo.latches[unit]
    let w := x.config.toNat
    bitOf w 0 = true → bitOf w (if falling then 3 else 2) = true → stamp ≤ c.tb3 →
    let taken (count : Int) (position : F64) : State := { c with servo.latches := upd c.servo.latches unit fun _ =>
      { config := if bitOf w 1 then x.config else x.config &&& 0xFFFFFFFE, stamp := stamp, count := count, position := position,
        valid := true, overwritten := bitOf w 1 && x.valid, falling := falling } }
    let soon : Prop := c.tb3 ≤ stamp + (bitsOf w 22 5 + 1) * us
    let p := at? c.field.pfb (bitsOf w 8 3)
    (bitOf w 11 = false → p.mode ≠ 1 → p.mode ≠ 2 → soon →
      exec (.latched t unit falling stamp count) s =
        .next (State.raiseN (taken count (F64.add p.offset (F64.mul p.scale (F64.ofInt count)))) 69 unit.val)) ∧
    (∀ (before : Nat) (k : Int), bitOf w 11 = false → (p.mode = 1 ∨ p.mode = 2) → p.prev = some (before, k) → before < p.stamp →
      before ≤ stamp → stamp ≤ p.stamp →
      let n : Int := k * (p.stamp - before : Nat) + (p.count - k) * (stamp - before : Nat)
      let d := p.stamp - before
      exec (.latched t unit falling stamp count) s =
        .next (State.raiseN (taken (n.fdiv d) (F64.add p.offset (F64.mul p.scale (f64OfRat n d)))) 69 unit.val)) ∧
    (bitOf w 11 = true → soon →
      let q := at? c.servo.steppers (bitsOf w 8 3)
      let k : Int := if c.now < q.stepAt + (c.tb3 - stamp) then q.countBefore else q.count
      let v := taken k (f64OfRat k 256)
      exec (.latched t unit falling stamp count) s = .next (State.raiseN { v with
        servo.steppers := upd v.servo.steppers (bitsOf w 8 3) fun q => { q with posValid := true } } 69 unit.val)))

/-- R389-R393: the stepper drives: the current follows the load angle between I_MIN and I_MAX, a stall stops a drive and a third
within a second locks it, heat and the supply take the current down. -/
def Obligations.StepperDrivesFollowTheLoad : Prop := ∀ (s : State) (t : Nat) (d : Fin 4), Powered s → s.factory.optS = true →
  let c := s.clock t
  let q := c.servo.steppers[d]
  -- STEPPER_CURRENT_STEP: a full step toward the target, once STP_VMAX and STP_AMAX allow it
  (∀ angle emf : BitVec 8, c.drives q = true → q.mayStep c.now = true →
    let fast : Prop := F32.le q.stallMinRate (F64.to32 (q.rateOf c.now)) = true
    let stepped : Stepper := { q with
      countBefore := q.count, count := q.count + q.nextMove, rate := F64.to32 (q.rateOf c.now), stepAt := c.now, moving := true,
      loadAngle := min 180 angle.toNat, weakSteps := if emf.toNat < 25 ∧ fast then q.weakSteps + 1 else 0 }
    let span := F32.sub q.iMax q.iMin
    let up := F32.clamp (F32.add q.current (F32.div span (F32.ofNat 16))) q.iMin q.iMax
    let down := F32.clamp (F32.sub q.current (F32.div span (F32.ofNat 64))) q.iMin q.iMax
    let moved (x : F32) : State := { c with servo.steppers := upd c.servo.steppers d fun _ =>
      { stepped with moving := stepped.count != q.target, current := x, atImax := false, limitRaised := false } }
    (q.thermal = false → 30 ≤ angle.toNat → angle.toNat ≤ 60 →
      exec (.stepperCurrentStep t d angle emf) s = .next (moved (F32.clamp q.current q.iMin q.iMax))) ∧
    (q.thermal = false → 60 < angle.toNat → angle.toNat ≤ 120 → F32.le q.iMax up = false →
      exec (.stepperCurrentStep t d angle emf) s = .next (moved up)) ∧
    (q.thermal = false → angle.toNat < 30 → F32.le down q.iMin = false →
      exec (.stepperCurrentStep t d angle emf) s = .next (moved down)) ∧
    -- above 120 degrees, at STALL_MIN_RATE and above, it is a stall
    (120 < angle.toNat → fast →
      exec (.stepperCurrentStep t d angle emf) s =
        .next (State.stepperStall { c with servo.steppers := upd c.servo.steppers d fun _ => stepped } d stepped))) ∧
  (q.mayStep c.now = false → ∀ angle emf : BitVec 8, exec (.stepperCurrentStep t d angle emf) s = .next c) ∧
  -- STEPPER_STALL, after four weak steps: the first two stop the drive at I_MAX, a third within 1 s locks it
  ((q.weakSteps < 4 → exec (.stepperStall t d) s = .next c) ∧ (c.drives q = true → q.watchesStall = true → 4 ≤ q.weakSteps →
    let recent := (q.stalls.filter fun a => decide (c.now ≤ a + second)) ++ [c.now]
    let stalled (locks : Bool) : State := State.raiseN { c with servo.steppers := upd c.servo.steppers d fun q =>
      { q with stopped := true, moving := false, rate := 0, weakSteps := 0, current := q.iMax, posValid := false, stalls := recent,
               stalledAt := some c.now, locked := locks } } 78 d.val
    (recent.length < 3 → exec (.stepperStall t d) s = .next (stalled false)) ∧
    (3 ≤ recent.length → (stalled true).driveSlot d = none → exec (.stepperStall t d) s = .next (stalled true)))) ∧
  -- STALL_RESUME
  (∀ a : Nat, q.stalledAt = some a → q.locked = false → a + 50 * ms ≤ c.now →
    exec (.stallResume t d) s = .next { c with servo.steppers := upd c.servo.steppers d fun q =>
      { q with stopped := false, stalledAt := none } }) ∧
  -- STEPPER_AT_REST: 100 ms after the last step
  (c.drives q = true → q.thermal = false → q.moving = false → q.stepAt + 100 * ms ≤ c.now →
    exec (.stepperAtRest t d) s = .next { c with servo.steppers := upd c.servo.steppers d fun q =>
      { q with current := q.iMin, rate := 0, atImax := false } }) ∧
  -- STEPPER_THERMAL below I_MIN, recorded whatever the route holds
  (∀ v : BitVec 16, c.drives q = true → F32.lt (f32OfRat v.toNat 1000) q.iMin = true → q.thermal = false →
    exec (.stepperThermal t d v) s = .next (State.raise { c with servo.steppers := upd c.servo.steppers d fun q =>
      { q with current := F32.min (f32OfRat v.toNat 1000) q.iMin, thermal := true, atImax := false } } 122 (BitVec.ofNat 32 514)
        (BitVec.ofNat 32 d.val) q.iMin (f32OfRat v.toNat 1000) true)) ∧
  -- STP_SUPPLY out of range, and back
  (c.servo.stpVoltageOff = false → exec (.stpSupply t true) s = .next (State.raise { c with
    servo.stpVoltageOff := true, servo.steppers := c.servo.steppers.map fun q =>
      { q with current := 0, moving := false, atImax := false } } 95)) ∧
  (c.servo.stpVoltageOff = true → exec (.stpSupply t false) s = .next { c with
    servo.stpVoltageOff := false, servo.steppers := c.servo.steppers.map fun q => { q with current := q.iMin } }) ∧
  -- STP_CLEAR and STP_ZERO
  (∀ (req : Request) (p : PointRec), s.ownPoint? 6 d.val = some p →
    (Ready s t req 0x11 (writeBody (objId 7 (0x40 + d) 7) [1]) →
      let w := s.atWrite t req (objId 7 (0x40 + d) 7) [1]
      exec (.stpClear t req d) s = .next (State.wrote { w with servo.steppers := upd w.servo.steppers d fun q =>
        { q with locked := false, stopped := false, stalledAt := none, stalls := [] } } req (objId 7 (0x40 + d) 7))) ∧
    (Ready s t req 0x11 (writeBody (objId 7 (0x40 + d) 7) [2]) →
      (s.modes.mode = .idle ∨ s.modes.mode = .config ∨ s.modes.mode = .test) →
      let w := s.atWrite t req (objId 7 (0x40 + d) 7) [2]
      exec (.stpZero t req d) s = .next (State.wrote { w with servo.steppers := upd w.servo.steppers d fun q =>
        { q with count := 0 } } req (objId 7 (0x40 + d) 7))))

/-- R393, R394: an injection runs in TEST until it is stopped or its time is over; a capture is armed, stopped, and done when its
count is reached. -/
def Obligations.InjectionAndCapture : Prop := ∀ (s : State) (t : Nat), Running s →
  let c := s.clock t
  (∀ req : Request, Ready s t req 0x11 (writeBody (objId 7 0x50 1) [1]) → s.modes.mode = .test →
    s.injOk s.servo.ic.injConfig = true → (s.servo.ic.capState ≠ 1 ∨ fieldAt s.servo.ic.capConfig 1 1 ≠ 1) →
    let w := s.atWrite t req (objId 7 0x50 1) [1]
    exec (.injStart t req) s =
      .next (State.wrote { w with servo.ic.injRunning := true, servo.ic.injN := 0, servo.ic.injSignal := 0 } req (objId 7 0x50 1))) ∧
  (∀ req : Request, Ready s t req 0x11 (writeBody (objId 7 0x50 1) [0]) → s.modes.mode = .test →
    let w := s.atWrite t req (objId 7 0x50 1) [0]
    exec (.injStop t req) s = .next (State.wrote { w with
      servo.ic.injRunning := false, servo.ic.injSignal := 0, servo.slots := w.servo.slots.map fun l => { l with injecting := false } } req (objId 7 0x50 1))) ∧
  (∀ r : LoopRec, c.slotHere c.servo.ic.slot = some r → c.servo.ic.injRunning = true →
    c.servo.ic.finished r.rate c.servo.ic.injN = true →
    exec (.injectionDone t) s = .next (State.raise { c with
      servo.ic.injRunning := false, servo.ic.injSignal := 0, servo.slots := upd c.servo.slots c.servo.ic.slot fun l => { l with injecting := false } } 72)) ∧
  (∀ req : Request, Ready s t req 0x11 (writeBody (objId 7 0x50 0x12) [1]) → s.capOk s.servo.ic.capConfig = true →
    let w := s.atWrite t req (objId 7 0x50 0x12) [1]
    exec (.capArm t req) s = .next (State.wrote { w with
      servo.ic.capState := if fieldAt w.servo.ic.capConfig 1 1 = 0 then 2 else 1, servo.ic.capData := [], servo.ic.capPre := [],
      servo.ic.capReadAt := 0, servo.ic.capT0 := 0, servo.ic.capDiv := fieldAt w.servo.ic.capConfig 4 2,
      servo.ic.capInterval := fieldAt w.servo.ic.capConfig 4 2 * second /
        max 1 (((w.loopRec? (fieldAt w.servo.ic.capConfig 0 1)).map (·.rate)).getD 1),
      servo.ic.capLast0 := none } req (objId 7 0x50 0x12))) ∧
  (∀ req : Request, Ready s t req 0x11 (writeBody (objId 7 0x50 0x12) [0]) →
    let w := s.atWrite t req (objId 7 0x50 0x12) [0]
    exec (.capStop t req) s = .next (State.wrote { w with servo.ic.capState := 0 } req (objId 7 0x50 0x12))) ∧
  (c.servo.ic.capState = 2 → c.servo.ic.capCount ≤ c.servo.ic.capData.length →
    exec (.captureDone t) s = .next (State.raise { c with servo.ic.capState := 3 } 71))
/-! ## Field channels (spec/11_field_channels.md) -/

/-- R406-R410: an accepted level of a universal input is counted and reported; chatter freezes the reported value and quiet returns
it; an input active longer than ON_MAX is STUCK; at a multiple of NOMINAL_PERIOD its reported value is delivered. -/
def Obligations.FieldInputsAreCountedAndReported : Prop := ∀ (s : State) (t : Nat) (ch : Fin 32), Powered s →
  let c := s.clock t
  let x := c.field.u[ch]
  -- INPUT_TRANSITION of an unfrozen input whose chatter limit is not passed; the capture units that name it take the first sample of
  -- the new level
  (∀ level : Bool, x.cfg.output = false → x.filtered ≠ level → x.frozen = false → x.cfg.chatterCount = 0 → x.stuck = false →
    x.acceptedAt + x.cfg.filterUs * us ≤ c.now →
    let recent := (x.transitions.filter fun e => decide (c.now ≤ e.1 + x.cfg.chatterWindow * ms)) ++ [(c.now, x.filtered != x.cfg.invert)]
    let counts := if level then x.cfg.countEdge.getLsbD 0 else x.cfg.countEdge.getLsbD 1
    let v := level != x.cfg.invert
    let first := c.now / us * us - x.cfg.filterUs * us
    let taken : State := { c with field.u := upd c.field.u ch fun x =>
      { x with raw := level, filtered := level, acceptedAt := c.now, transitions := recent.drop (recent.length - 256),
               count := if counts then x.count + 1 else x.count,
               countStamp := if counts then c.tb3 - (c.now - first) else x.countStamp } }
    let w := taken.captureInput ch level first
    exec (.inputTransition t ch level) s = .next { w with field.u := upd w.field.u ch fun x =>
      { x with reported := v, activeSince := if v then x.activeSince.or (some w.now) else none, stuck := false } }) ∧
  -- INPUT_TRANSITION of an output, to the level it has, or before FILTER_US has passed, is nothing
  (∀ level : Bool, (x.cfg.output = true ∨ x.filtered = level ∨ c.now < x.acceptedAt + x.cfg.filterUs * us) →
    exec (.inputTransition t ch level) s = .next c) ∧
  -- CHATTER_QUIET
  (x.frozen = true → x.stuck = false → (x.transitions.getLast?.map (·.1)).getD 0 + x.cfg.chatterWindow * ms ≤ c.now →
    let v := x.filtered != x.cfg.invert
    exec (.chatterQuiet t ch) s = .next (State.raiseN { c with field.u := upd c.field.u ch fun x =>
      { x with frozen := false, reported := v, activeSince := if v then x.activeSince.or (some c.now) else none,
               stuck := false } } 81 ch)) ∧
  -- INPUT_STUCK
  (∀ a : Nat, x.activeSince = some a → x.cfg.output = false → x.cfg.onMax ≠ 0 → x.stuck = false → a + x.cfg.onMax * ms ≤ c.now →
    exec (.inputStuck t ch) s = .next (State.raiseN { c with field.u := upd c.field.u ch fun x => { x with stuck := true } } 80
      (ch.val + 256))) ∧
  -- INPUT_DELIVERY
  (∀ p : PointRec, c.ownPoint? 1 ch.val = some p → p.period ≠ 0 → x.deliveredM ≠ some (c.tb3 / p.period) →
    let w : State := { c with field.u := upd c.field.u ch fun x => { x with deliveredM := some (c.tb3 / p.period) } }
    exec (.inputDelivery t ch) s = .next (w.arriveSlotted
      { point := p.id, member := c.me, stamp := c.tb3 / p.period * p.period, val := .scalar (if x.reported then F64.one else 0) true }))

/-- R412, R415, R426, R432: the writes of universal channels and of analog outputs. -/
def Obligations.FieldObjectsTakeWrites : Prop := ∀ (s : State) (t : Nat) (req : Request),
  -- U_SET of an output without a slot, in the modes that drive outputs
  (∀ (ch : Fin 32) (v : BitVec 8), Ready s t req 0x11 (writeBody (objId 8 ch 4) [v]) →
    s.field.u[ch].cfg.output = true → s.field.u[ch].cfg.source = 0 → v.toNat ≤ 1 →
    s.modes.mode ≠ .idle → s.modes.mode ≠ .config → s.modes.mode ≠ .safe →
    let w := s.atWrite t req (objId 8 ch 4) [v]
    exec (.uSet t req ch v) s = .next (State.wrote (State.clearOverloads { w with
      field.u := upd w.field.u ch fun x => { x with setTo := some (v == 1) } }) req (objId 8 ch 4))) ∧
  -- U_CLEAR and COUNT_RESET
  (∀ ch : Fin 32, Ready s t req 0x11 (writeBody (objId 8 ch 5) [1]) →
    let w := s.atWrite t req (objId 8 ch 5) [1]
    exec (.uClear t req ch) s = .next (State.wrote { w with
      field.u := upd w.field.u ch fun x => { x with overload := false } } req (objId 8 ch 5))) ∧
  (∀ ch : Fin 32, Ready s t req 0x11 (writeBody (objId 8 ch 5) [2]) →
    let w := s.atWrite t req (objId 8 ch 5) [2]
    exec (.countReset t req ch) s = .next (State.wrote { w with
      field.u := upd w.field.u ch fun x => { x with count := 0 } } req (objId 8 ch 5))) ∧
  -- AO_SET of a wired output that no slot drives
  (∀ (ch : Fin 16) (v : F32) (p : PointRec), Ready s t req 0x11 (writeBody (objId 8 (0x20 + ch) 1) (be32 v)) →
    s.ownPoint? 4 ch.val = some p → s.slotFor p.id = none → v.finite = true →
    s.modes.mode ≠ .idle → s.modes.mode ≠ .config → s.modes.mode ≠ .safe →
    let w := s.atWrite t req (objId 8 (0x20 + ch) 1) (be32 v)
    exec (.aoSet t req ch v) s = .next (State.wrote { w with
      field.ao := upd w.field.ao ch fun a => { a with setTo := some v } } req (objId 8 (0x20 + ch) 1)))

/-- R414-R417, R422, R423, R427, R430, R431: overloads, read-back, open loads, supplies, pulses, the output watchdog, analog output
faults and position feedback. -/
def Obligations.FieldSupervisionAndFeedback : Prop := ∀ (s : State) (t : Nat), Powered s →
  let c := s.clock t
  -- OUTPUT_OVERLOAD of an output that is on
  (∀ ch : Fin 32, c.field.u[ch].overload = false → F32.le (c.uValue ch) 0 = false →
    exec (.outputOverload t ch) s = .next (State.raiseN { c with
      field.u := upd c.field.u ch fun x => { x with overload := true } } 82 ch)) ∧
  -- OUTPUT_READBACK
  (∀ ch : Fin 32, c.field.u[ch].cfg.output = true → c.field.u[ch].overload = false → c.field.u[ch].readbackFail = false →
    (at? c.field.banks (ch.val / 16)).uvlo = false → c.isEnable ch = false →
    exec (.outputReadback t ch) s = .next (State.raise { c with
      field.u := upd c.field.u ch fun x => { x with readbackFail := true } } 83)) ∧
  -- OPEN_LOAD
  (∀ ch : Fin 32, F32.le (c.uValue ch) 0 = false →
    exec (.openLoad t ch) s = .next { c with field.u := upd c.field.u ch fun x => { x with openLoad := true } }) ∧
  -- FIELD_SUPPLY outside 18 V to 32 V, and back inside
  (∀ (b : Fin 2) (out : Bool) (mv : BitVec 16), c.field.banks[b].outOfRange ≠ out →
    (out = true ↔ mv.toNat < 18000 ∨ 32000 < mv.toNat) →
    exec (.fieldSupply t b out mv) s = .next (State.raiseN { c with
      field.banks := c.field.banks.set b { c.field.banks[b] with outOfRange := out, millivolt := mv } } 87
        (b.val + if out then 256 else 0))) ∧
  (∀ (b : Fin 2) (out : Bool) (mv : BitVec 16), c.field.banks[b].outOfRange = out →
    (out = true ↔ mv.toNat < 18000 ∨ 32000 < mv.toNat) →
    exec (.fieldSupply t b out mv) s = .next { c with
      field.banks := c.field.banks.set b { c.field.banks[b] with millivolt := mv } }) ∧
  -- UVLO below 15 V, and its end above 16 V
  (∀ (b : Fin 2) (low : Bool) (mv : BitVec 16), (if low then mv.toNat < 15000 else 16000 < mv.toNat) → exec (.uvlo t b low mv) s = .next { c with
    field.banks := c.field.banks.set b { c.field.banks[b] with uvlo := low, millivolt := mv } }) ∧
  -- EVENT_LINE_PULSE_END
  (∀ (n : Fin 8) (a : Nat), c.field.lines[n].pulseUntil = some a → a ≤ c.now →
    exec (.eventLinePulseEnd t n) s = .next (State.clearOverloads { c with
      field.lines := c.field.lines.set n { c.field.lines[n] with pulseUntil := none } })) ∧
  -- WATCHDOG_RETRIGGER: the first after a restart with state handover exchanges the program banks
  (s.modes.phase = .running → c.field.handover = false →
    exec (.watchdogRetrigger t) s = .next { c with field.retriggeredAt := c.now }) ∧
  (s.modes.phase = .running → c.field.handover = true →
    exec (.watchdogRetrigger t) s = .next { c with
      field.retriggeredAt := c.now, field.handover := false, field.programBank := !c.field.programBank, saf.cmdFresh := true }) ∧
  -- WATCHDOG_EXPIRED
  (c.field.expired = false → c.field.retriggeredAt + (if c.field.handover then 400 else c.field.watchdog) * ms ≤ c.now →
    let h := c.captureHolds
    exec (.watchdogExpired t) s = .next (State.raise (State.clearOverloads { h with
      field.expired := true, servo.steppers := h.servo.steppers.map fun q =>
        { q with target := q.count, moving := false, rate := 0, current := q.iMin, atImax := false } }) 84)) ∧
  -- AO_FAULT that begins, and one that ends
  (∀ (ch : Fin 16) (p : PointRec) (v : F32), c.ownPoint? 4 ch.val = some p → c.field.ao[ch].short = false →
    c.field.ao[ch].open_ = false → c.aoBears ch p true v = true →
    exec (.aoFault t ch true v) s = .next (State.raiseN { c with field.ao := upd c.field.ao ch fun a =>
      { a with measured := v, short := p.mode == 0, open_ := p.mode != 0 } } 85 (ch.val + 256))) ∧
  (∀ (ch : Fin 16) (p : PointRec) (v : F32), c.ownPoint? 4 ch.val = some p →
    (c.field.ao[ch].short = true ∨ c.field.ao[ch].open_ = true) → c.aoBears ch p false v = true →
    exec (.aoFault t ch false v) s = .next (State.raiseN { c with field.ao := upd c.field.ao ch fun a =>
      { a with measured := v, short := false, open_ := false } } 85 ch.val)) ∧
  -- PFB_FRAME with a fault: the first of a run is reported
  (∀ (ch : Fin 8) (f : PfbFrame), c.field.pfb[ch].mode ≠ 0 → c.field.pfb[ch].causeOf f ≠ 0 → c.field.pfb[ch].faultRun = false →
    exec (.pfbFrame t ch f) s = .next (State.raiseN { c with
      field.pfb := upd c.field.pfb ch fun p =>
        { p with cause := p.causeOf f, faults := sat32 p.faults, faultRun := true, warning := f.warning && p.mode == 2 },
      servo.gears := c.servo.gears.map fun x => if x.master.toNat != ch.val then x else { x with validSince := none } } 86 ch
        (some (c.field.pfb[ch].causeOf f).toNat))) ∧
  -- a good PFB_FRAME: the count follows the raw position by the shortest way round, and the channel's point may deliver it
  (∀ (ch : Fin 8) (f : PfbFrame), c.field.pfb[ch].mode ≠ 0 → c.field.pfb[ch].causeOf f = 0 → c.field.pfb[ch].gray = false →
    c.field.pfb[ch].dir = false →
    ∃ u : State, exec (.pfbFrame t ch f) s = .next (u.deliverPfb ch c.field.pfb[ch].stamp) ∧ u.field.pfb[ch].stamp = f.stamp ∧
      u.field.pfb[ch].faultRun = false ∧
      let n := u.field.pfb[ch].count
      let m : Int := (2 ^ c.field.pfb[ch].bits : Nat)
      (n - f.raw) % m = 0 ∧ 2 * (n - c.field.pfb[ch].count) < m ∧ -m ≤ 2 * (n - c.field.pfb[ch].count) ∧
      (∀ k : Fin 8, k ≠ ch → u.field.pfb[k] = c.field.pfb[k]) ∧ u.field.u = c.field.u ∧ u.field.ao = c.field.ao ∧
      FrameBut [.field, .servo] c u)

/-! ## Safety functions (spec/12_safety_functions.md) -/

/-- R437, R440-R446, R450, R451: what removes every thruster enable this module carries. -/
def Obligations.SafetyFunctionsRemoveEveryEnable : Prop := ∀ (s : State) (t : Nat), Powered s →
  let c := s.clock t
  let allRemoved (u : State) : Prop := ∀ n : Fin 16, c.isEnable n = true → u.saf.gates[n].removed = true
  let frame (u : State) : Prop := FrameBut ([.saf, .law] ++ reportParts) c u
  -- SAFETY_DEMAND of an SF-ESD input that has read 0 for FILTER_US on SAF's ring, which may run 3 % fast
  (∀ i : Fin 8, c.saf.inputs[i].function = 1 → c.saf.inputs[i].latched = false →
    (∀ h : Nat, c.saf.inputs[i].highSince = some h → c.saf.inputs[i].filterUs * us * 100 ≤ (c.now - h) * 103) →
    ∃ u, exec (.safetyDemand t i) s = .next u ∧ allRemoved u ∧ u.saf.inputs[i].latched = true ∧ u.saf.inputs[i].demand = true ∧
      u.saf.lastTripSource = 88 ∧ u.saf.lastTripChannel = BitVec.ofNat 8 (24 + i.val) ∧ frame u) ∧
  -- TEST_PULSE_MISMATCH of the source that feeds an SF-ESD input
  (∀ (p : Fin 4) (i : Fin 8), (at? c.field.banks 0).uvlo = false → c.saf.tpFault[p] = false → c.saf.inputs[i].function = 1 →
    c.saf.inputs[i].tp.toNat = p.val → c.saf.inputs[i].latched = false →
    ∃ u, exec (.testPulseMismatch t p) s = .next u ∧ allRemoved u ∧ u.saf.tpFault[p] = true ∧ u.saf.inputs[i].latched = true ∧ frame u) ∧
  -- PATTERN_FAULT of an SF-ESD input
  (∀ i : Fin 8, c.saf.inputs[i].function = 1 → c.saf.inputs[i].demand = false → c.saf.inputs[i].latched = false →
    (at? c.field.banks 0).uvlo = false →
    ∃ u, exec (.patternFault t i) s = .next u ∧ allRemoved u ∧ u.saf.inputs[i].patternFail = true ∧
      u.saf.inputs[i].latched = true ∧ frame u) ∧
  -- SF_CMD: the armed command sequence has stood still for CMD_LIMIT
  (c.saf.cmdArmed = true → c.saf.cmdFresh = false → c.saf.cmdTripped = false →
    c.cmdLimit * us * 100 ≤ (c.now - c.saf.cmdChangedAt) * 103 →
    ∃ u, exec (.sfCmd t) s = .next u ∧ allRemoved u ∧ u.saf.cmdTripped = true ∧ u.saf.lastTripSource = 90 ∧ frame u) ∧
  -- SAF_PERIODIC_SELFTEST that fails
  (∀ v : Fin 6, v ≠ 0 → c.saf.selftestFail = false → 10 * second * 100 ≤ (c.now - c.saf.testedAt) * 103 →
    ∃ u, exec (.safPeriodicSelftest t v) s = .next u ∧ allRemoved u ∧ u.saf.selftestFail = true ∧ frame u) ∧
  -- CLOCK_LOSS
  (c.saf.clockLost = false →
    ∃ u, exec (.clockLoss t) s = .next u ∧ allRemoved u ∧ u.saf.clockLost = true ∧ u.saf.clockReleasable = false ∧
      u.saf.clockLostAt = c.now ∧ frame u)

/-- R441, R447, R448, R450-R452, R455: the checks of one enable, the self-test and the reset. -/
def Obligations.SafetyChecksAndReset : Prop := ∀ (s : State) (t : Nat), Powered s →
  let c := s.clock t
  -- SAFETY_INPUT_HEALTHY
  (∀ i : Fin 8, exec (.safetyInputHealthy t i) s = .next { c with saf.inputs := upd c.saf.inputs i fun x =>
      { x with raw := true, filtered := true, demand := false, highSince := some c.now } }) ∧
  -- CLOCK_LOSS_RELEASE
  (c.saf.clockLost = true → c.saf.clockLostAt + 10 * ms ≤ c.now → exec (.clockLossRelease t) s = .next { c with saf.clockReleasable := true }) ∧
  -- DARK_PULSE of an enable that is on, when it is due, that the output follows: counted, and the next is the driver's turn
  (∀ n : Fin 16, c.isEnable n = true → c.saf.gates[n].removed = false → F32.le (c.uValue n) 0 = false → c.darkDue n = true →
    exec (.darkPulse t n true) s = .next { c with
      saf.darkPulses := sat32 c.saf.darkPulses, saf.darkDriver := c.saf.darkDriver.set n (!c.saf.darkDriver[n]),
      saf.darkAt := c.saf.darkAt.set n (some c.now) }) ∧
  -- one that is not due is not made
  (∀ (n : Fin 16) (fell : Bool), c.darkDue n = false → exec (.darkPulse t n fell) s = .next c) ∧
  -- one that it does not follow is a gate fault, and the enable is removed
  (∀ n : Fin 16, c.isEnable n = true → c.saf.gates[n].removed = false → F32.le (c.uValue n) 0 = false → c.darkDue n = true →
    c.saf.gates[n].gateFault = false →
    ∃ u, exec (.darkPulse t n false) s = .next u ∧ u.saf.gates[n].gateFault = true ∧ u.saf.gates[n].removed = true ∧
      FrameBut ([.saf, .law] ++ reportParts) c u) ∧
  -- HELD_OFF_CHECK_FAIL, 100 us of the pin high from 50 us after the removal
  (∀ n : Fin 16, c.isEnable n = true → c.saf.gates[n].removed = true →
    150 * us * 100 ≤ (c.now - c.saf.gates[n].offSince) * 103 →
    ∃ u, exec (.heldOffCheckFail t n) s = .next u ∧ u.saf.gates[n].gateFault = true ∧ u.saf.gates[n].removed = true ∧
      FrameBut ([.saf, .law] ++ reportParts) c u) ∧
  -- SAF_PERIODIC_SELFTEST that passes
  (10 * second * 100 ≤ (c.now - c.saf.testedAt) * 103 →
    exec (.safPeriodicSelftest t 0) s =
      .next { c with saf.testedAt := c.now, saf.selftestsPassed := sat32 c.saf.selftestsPassed }) ∧
  -- SAF_SELFTEST from a host, in IDLE or TEST
  (∀ req : Request, Ready s t req 0x11 (writeBody (objId 9 0 3) [1]) → (s.modes.mode = .idle ∨ s.modes.mode = .test) →
    let w := s.atWrite t req (objId 9 0 3) [1]
    exec (.safSelftest t req 0) s =
      .next (State.wrote { w with saf.selftestsPassed := sat32 w.saf.selftestsPassed } req (objId 9 0 3))) ∧
  -- SAF_RESET with every cause releasable closes every gate this module carries
  (∀ req : Request, Ready s t req 0x11 (writeBody (objId 9 0 2) [1]) →
    let w := s.atWrite t req (objId 9 0 2) [1]
    w.safReady = true →
    ∃ u, exec (.safReset t req) s = .next u ∧ Answered u req 0x11 .ok (be32 (objId 9 0 2) ++ be32 0xFFFFFFFF) ∧
      (∀ n : Fin 16, w.isEnable n = true → u.saf.gates[n].removed = false) ∧ FrameBut [.saf, .law, .qcp] w u)

/-! ## Modes, starts and the supply (spec/13_modes_and_start_up.md, spec/20_connectors_power_environment.md) -/

/-- R465, R467, R471, R472: SAFE is entered at once and its cause set; the present mode changes nothing; any other move that R465 and
R467 allow pends until the tick; one they do not allow is refused and changes nothing. -/
def Obligations.ModeRequestsAreJudged : Prop := ∀ (s : State) (t : Nat) (req : Request) (m : Mode),
  Ready s t req 0x11 (writeBody (objId 1 0 0x31) (nat8 m.code)) →
  let w := s.atWrite t req (objId 1 0 0x31) (nat8 m.code)
  (s.group.role = .alone → m = s.modes.mode →
    exec (.modeRequest t req (BitVec.ofNat 8 m.code)) s = .next (w.wrote req (objId 1 0 0x31))) ∧
  (s.group.role = .alone → m = .safe → s.modes.mode ≠ .safe →
    ∃ u : State, exec (.modeRequest t req (BitVec.ofNat 8 m.code)) s = .next (u.wrote req (objId 1 0 0x31)) ∧
      u.modes.mode = .safe ∧ u.modes.previous = s.modes.mode ∧ u.modes.cause.requested = true ∧ u.modes.pendingMode = none ∧
      u.group.role = .alone ∧ FrameBut reportParts w u) ∧
  (s.group.role = .alone → m ≠ s.modes.mode → m ≠ .safe → w.judgeMove m = .ok →
    exec (.modeRequest t req (BitVec.ofNat 8 m.code)) s = .next (State.respond { w with modes.pendingMode := some m } req 0x11 .ok
      (be32 (objId 1 0 0x31) ++ be32 (BitVec.ofNat 32 (w.cycle.count + 1))))) ∧
  (s.group.role = .spare → ∃ u : State, exec (.modeRequest t req (BitVec.ofNat 8 m.code)) s = .next u ∧
    u.modes = s.modes ∧ u.group = s.group ∧ (∃ d, Answered u req 0x11 .notLead (be32 (objId 1 0 0x31) ++ be32 d)) ∧
      FrameBut [.time, .gnss, .qcp] s u) ∧
  (s.group.role = .alone → m ≠ s.modes.mode → w.judgeMove m = .wrongMode →
    ∃ u : State, exec (.modeRequest t req (BitVec.ofNat 8 m.code)) s = .next u ∧ u.modes = s.modes ∧
      Answered u req 0x11 .wrongMode (be32 (objId 1 0 0x31) ++ be32 0) ∧ FrameBut [.time, .gnss, .qcp] s u)

/-- R465: which moves there are. A member in CONFIG or TEST leaves it for IDLE alone, nothing but IDLE leads into CONFIG or TEST,
and a member in SAFE leaves it for IDLE alone, when its causes allow. -/
def Obligations.ModeMovesAreThoseOfTheTable : Prop := ∀ (s : State) (m : Mode), s.judgeMove m = .ok → m ≠ .safe →
  (s.modes.mode = .config → m = .idle ∧ s.hasStructure = true) ∧ (s.modes.mode = .test → m = .idle) ∧
  (s.modes.mode = .safe → m = .idle ∧ s.exitAllowed = true) ∧
  (m = .config → s.modes.mode = .idle) ∧ (m = .test → s.modes.mode = .idle) ∧
  (m.positioning = true → s.modes.cause = {} ∧ (s.modes.mode = .idle ∨ s.modes.mode.positioning = true)) ∧
  (m = .station ∨ m = .track → s.obs.state = 3)

/-- R471, R472, R481, R512: entry to SAFE for a cause of the member's own; a second fault of the SUP core pair within 60 s of the restart
that one caused is such an entry, with SUP_REPEAT set. -/
def Obligations.EntryToSafe : Prop := ∀ (s : State) (b : Nat),
  (s.enterSafe b).modes.mode = .safe ∧ (s.enterSafe b).modes.cause = s.modes.cause.setBit b ∧
  (s.modes.mode ≠ .safe → (s.enterSafe b).modes.previous = s.modes.mode ∧ (s.enterSafe b).modes.pendingMode = none ∧
    (s.enterSafe b).modes.gatheredHold = true ∧ (s.enterSafe b).servo.ic.injRunning = false ∧
    (s.group.role = .spare → (s.enterSafe b).group.role = .alone)) ∧
  FrameBut reportParts s (s.enterSafe b) ∧
  (∀ t a : Nat, Running s → s.modes.faultRestartAt = some a → (s.clock t).now ≤ a + 60 * second →
    (∃ u : State, exec (.lockstepMismatch t) s = .next u ∧ u.modes.mode = .safe ∧ u.modes.cause.supRepeat = true ∧
      FrameBut reportParts (s.clock t) u) ∧
    (∃ u : State, exec (.supRamEcc t) s = .next u ∧ u.modes.mode = .safe ∧ u.modes.cause.supRepeat = true ∧
      FrameBut reportParts (s.clock t) u))

/-- R474-R476: what ends a cold start without a stored image: the first mode is CONFIG, or SAFE where a test has failed; BOOT_COUNT
has risen, TB0 reads the end of the start, and the report names it. A restart that a host asks for runs the same steps. -/
def Obligations.ColdStartEndsInItsFirstMode : Prop := ∀ (s : State) (t : Nat) (f : StartFacts),
  (s.modes.phase = .off → s.image.active.bytes = [] → s.update.activation = none → s.verifyExt s.update.active false = none →
  ∃ u : State, exec (.powerGood t f) s = .next u ∧ u.modes.phase = .running ∧ u.image.loaded = none ∧
    (f.codeOk = true → f.safOutcome = 0 → f.checkOk = true → f.readbackOk = true → u.modes.mode = .config) ∧
    ((f.codeOk = false ∨ f.safOutcome ≠ 0 ∨ f.checkOk = false ∨ f.readbackOk = false) → u.modes.mode = .safe) ∧
    u.trust.bootCount = s.trust.bootCount + 1 ∧ u.modes.report.kind = 0 ∧ u.factory = { s.factory with valid := f.factoryOk } ∧
    u.group.memberIndex = s.group.memberIndex ∧ u.pending = s.pending) ∧
  (∀ (req : Request) (ends : Nat), Ready s t req 0x11 (writeBody (objId 1 0 0x33) [1]) → s.modes.mode.positioning = false →
    ∃ u : State, exec (.restartCold t req f ends) s = .next u ∧ u.modes.phase = .running ∧ u.modes.report.kind = 0 ∧
      u.trust.bootCount = s.trust.bootCount + 1 ∧ (f.codeOk = false → u.modes.mode = .safe) ∧ u.pending = s.pending)

/-- R474, R478, R479, R481: restarts are asked for by a write or by a fault of the SUP core pair, and a restart with state handover
ends with a report of its kind. -/
def Obligations.RestartsBeginAndEnd : Prop := ∀ (s : State) (t : Nat),
  -- POWER_GOOD while the module has power is nothing
  (∀ f : StartFacts, Powered s → exec (.powerGood t f) s = .next (s.clock t)) ∧
  -- RESTART 1: the answer, then the cold start
  (∀ (req : Request) (f : StartFacts) (ends : Nat), Ready s t req 0x11 (writeBody (objId 1 0 0x33) [1]) →
    s.modes.mode.positioning = false →
    let w := s.atWrite t req (objId 1 0 0x33) [1]
    exec (.restartCold t req f ends) s =
      .next (State.restartNow (State.wrote { w with modes.restartPending := some .cold } req (objId 1 0 0x33)) f ends)) ∧
  -- RESTART 2: at the next command instant, for which a LEAD with an in-step successor yields
  (∀ req : Request, Ready s t req 0x11 (writeBody (objId 1 0 0x33) [2]) → s.imageState = 1 →
    let w := s.atWrite t req (objId 1 0 0x33) [2]
    let at_ := w.commandInstantFrom (w.tb3 + 50 * us)
    let x : State := { w with modes.restartPending := some .handover, modes.restartInstant := at_ }
    ((s.group.role ≠ .lead ∨ x.successor = none) →
      exec (.restartWithHandover t req) s = .next (State.wrote x req (objId 1 0 0x33))) ∧
    (∀ m : Nat, s.group.role = .lead → x.successor = some m →
      exec (.restartWithHandover t req) s = .next (State.wrote ((x.yieldTo m at_).setRole .alone 3) req (objId 1 0 0x33)))) ∧
  -- LOCKSTEP_MISMATCH: the restart begins at once; a LEAD yields first to its successor
  (Running s →
    let c := s.clock t
    let v := c.raise 11 (must := true)
    (∀ a : Nat, c.modes.faultRestartAt = some a → a + 60 * second < c.now) →
    ((v.group.role ≠ .lead ∨ v.successor = none) →
      exec (.lockstepMismatch t) s = .next { v.beginHandover true with modes.faultRestartAt := some v.now }) ∧
    (∀ m : Nat, v.group.role = .lead → v.successor = some m →
      let y := (v.yieldTo m (v.commandInstantFrom (v.tb3 + 50 * us))).setRole .alone 3
      exec (.lockstepMismatch t) s = .next { y.beginHandover true with modes.faultRestartAt := some y.now })) ∧
  -- SUP_RAM_ECC, likewise
  (Running s →
    let c := s.clock t
    let v := c.raise 12 (must := true)
    (∀ a : Nat, c.modes.faultRestartAt = some a → a + 60 * second < c.now) →
    ((v.group.role ≠ .lead ∨ v.successor = none) →
      exec (.supRamEcc t) s = .next { v.beginHandover true with modes.faultRestartAt := some v.now }) ∧
    (∀ m : Nat, v.group.role = .lead → v.successor = some m →
      let y := (v.yieldTo m (v.commandInstantFrom (v.tb3 + 50 * us))).setRole .alone 3
      exec (.supRamEcc t) s = .next { y.beginHandover true with modes.faultRestartAt := some y.now })) ∧
  -- the restart stops SUP, EST, SOL, SRV and GNB, and sets HANDOVER; each fault in hand gives its record
  (∀ b : Bool, (s.beginHandover b).modes.phase = .restarting ∧ (s.beginHandover b).field.handover = true ∧
    (s.beginHandover b).cycle.ticking = false ∧
    FrameBut [.modes, .retained, .cycle, .field, .events, .image, .qcp, .recorder] s (s.beginHandover b)) ∧
  -- HANDOVER_READY: SUP runs again, and a start that the code check stops enters SAFE
  (∀ f : StartFacts, s.modes.phase = .restarting →
    ∃ u : State, exec (.handoverReady t f) s = .next u ∧ u.modes.phase = .running ∧ u.retained.supFault = false ∧
      u.modes.report.kind = 1 ∧ (u.modes.report.outcome = 2 ∨ u.modes.report.outcome = 3 ∨ u.modes.report.outcome = 4) ∧
      (f.codeOk = false → u.modes.report.outcome = 2 ∧ u.modes.mode = .safe))

/-- R59, R61, R85, R565, R572: a commit is deferred, its end answers with the result, and one whose bound has passed is answered
TIMEOUT and changes no slot. -/
def Obligations.ImageCommitIsDeferred : Prop := ∀ (s : State) (t : Nat),
  (∀ (req : Request) (slot : BitVec 8), Ready s t req 0x30 (be8 slot ++ zeros 3) → (slot = 0 ∨ slot = 2) → s.modes.mode = .config →
    s.qcp.deferredCommit = none → s.image.verifying = none → s.image.slotBytes slot ≠ [] →
    let w := (s.clock t).taken req 0x30 none
    exec (.imageCommit t req slot) s = .next { w with
      image.verifying := some { slot := slot, req := req, startedAt := w.now },
      qcp.deferredCommit := some { req := req, opcode := 0x30, body := be8 slot ++ zeros 3 },
      qcp.deferredAt := (w.now, w.qcp.deferredAt.2), qcp.deferredTb3 := (w.tb3, w.qcp.deferredTb3.2) }) ∧
  (Running s → ∀ (j : CommitJob) (k : Command), s.image.verifying = some j → s.qcp.deferredCommit = some k →
    let c := s.clock t
    let v : State := { c with image.verifying := none, qcp.deferredCommit := none }
    -- an image that passes is in force and the slots exchange; the response of either outcome answers the command
    (s.modes.mode = .config →
      let y := match v.verifyAndLoad (v.image.slotBytes j.slot) with
        | .ok x => (x.exchangeSlots j.slot).complete k.req 0x30 (j.slot.setWidth 32) c.qcp.deferredTb3.1 .ok ({} : ImgErr).body
        | .error e => (v.raise 3).complete k.req 0x30 (j.slot.setWidth 32) c.qcp.deferredTb3.1 e.status e.body
      y.modes.restartPending ≠ some .cold → exec (.imageVerifyDone t) s = .next y) ∧
    -- one that does not: source 3, the reason, and every slot as it was
    (∀ e : ImgErr, s.modes.mode = .config → v.verifyAndLoad (v.image.slotBytes j.slot) = .error e → e.status ≠ .ok →
      s.modes.restartPending ≠ some .cold →
      ∃ u : State, exec (.imageVerifyDone t) s = .next u ∧ Answered u k.req 0x30 e.status e.body ∧
        u.image = { s.image with verifying := none } ∧ FrameBut ([.image] ++ reportParts) c u) ∧
    -- DEFERRED_TIMEOUT
    (j.startedAt + (500 * ms + 100 * ms * (if j.slot = 0 then s.image.pending else s.image.previous).bytes.length / 1048576) ≤ c.now →
      exec (.deferredTimeout t false) s = .next (State.respond v k.req 0x30 .timeout []))) ∧
  (Running s → ∀ k : Command, s.qcp.deferredAttest = some k → s.qcp.deferredAt.2 + 100 * ms ≤ (s.clock t).now →
    exec (.deferredTimeout t true) s = .next (State.respond { s.clock t with qcp.deferredAttest := none } k.req 0x32 .timeout []))

/-- R482, R483, R571: ABORT of a pending mode request discards it within 10 us; ABORT of an idle function of the same object answers
0 us and changes nothing else. -/
def Obligations.AbortStopsWhatPends : Prop := ∀ (s : State) (t : Nat) (req : Request), Running s → s.modes.report.tb0At ≤ t →
  s.group.versionHold = false → req.modPort = 47000 →
  (∀ x : Command, s.qcp.abortSlot = some x → x = { req := req, opcode := 0x12, body := be32 (objId 1 0 0x31), at_ := x.at_ }) →
  let c : State := s.clock t
  let v : State := { c with qcp.abortSlot := none }
  (s.pendingOf = none →
    exec (.abort t req (objId 1 0 0x31)) s = .next (v.respond req 0x12 .ok (be32 (objId 1 0 0x31) ++ zeros 4))) ∧
  (s.pendingOf ≠ none → (s.route 4).fault = false → (s.route 5).fault = false →
    ∃ (u : State) (n : Nat), exec (.abort t req (objId 1 0 0x31)) s = .next u ∧ n ≤ 10 ∧
      Answered u req 0x12 .ok (be32 (objId 1 0 0x31) ++ nat32 n) ∧ u.modes = { s.modes with pendingMode := none } ∧
      u.group = { s.group with groupWrites := s.group.groupWrites.filter fun w => !isModeWrite w } ∧
      FrameBut ([.modes, .group] ++ quietParts) c u)

/-- R599-R601, R667-R675: the geyser copies every record at once; the supply's return and the end of the holdup; the inputs, the
charge and the heat. -/
def Obligations.SupplyAndHoldup : Prop := ∀ (s : State) (t : Nat),
  let c := s.clock t
  -- POWER_FAIL, when no connected input stands at 18 V
  (Powered s → c.power.onHoldup = false → c.supplied = false →
    ∃ u : State, exec (.powerFail t) s = .next u ∧ u.power.onHoldup = true ∧ u.recorder.geyserRunning = true ∧
      u.recorder.headerGeyser = 1 ∧ u.recorder.window = some endless ∧ (∀ x ∈ u.recorder.ram, x.2 = true) ∧
      FrameBut ([.power, .panel] ++ reportParts) c u) ∧
  -- SUPPLY_RETURN while the geyser does not run
  (Powered s → c.power.onHoldup = true → c.supplied = true → c.recorder.geyserRunning = false →
    exec (.supplyReturn t) s = .next { c with
      power.onHoldup := false, panel := c.panel.powerReturn, recorder.stopped := false, recorder.window := none,
      recorder.headerGeyser := 0 }) ∧
  -- HOLDUP_EXHAUSTED: only what survives the loss of RAM is left, and the bases' readings
  (Powered s → c.power.onHoldup = true →
    exec (.holdupExhausted t) s = .next { c.afterLoss with
      modes.phase := .off, power.noNvWrites := true, time.tb := c.time.tb }) ∧
  -- PWR_INPUT_CUT and PWR_INPUT_LEVEL, with or without power
  (exec (.pwrInputCut t false) s = .next { c with power.aCut := true } ∧
    exec (.pwrInputCut t true) s = .next { c with power.bCut := true }) ∧
  (∀ ok : Bool, exec (.pwrInputLevel t false ok) s = .next { c with power.aOk := ok, power.aCut := false } ∧
    exec (.pwrInputLevel t true ok) s = .next { c with power.bOk := ok, power.bCut := false }) ∧
  -- OVERTEMP: the baseplate on AUX7 above 72 °C, or below 68 °C, for 10 s
  (Powered s →
    let centi := F32.nearest (F32.mul c.ain.channels[23].value (F32.ofNat 100))
    (∀ x : Nat, c.power.overtemp = false → c.power.hotSince = some x → 10 * second ≤ c.now - x →
      exec (.overtemp t true) s =
        .next (State.raise { c with power.overtemp := true } 124 (some 256) (some (BitVec.ofInt 32 centi)))) ∧
    (∀ x : Nat, c.power.overtemp = true → c.power.coolSince = some x → 10 * second ≤ c.now - x →
      exec (.overtemp t false) s =
        .next (State.raise { c with power.overtemp := false } 124 (some 0) (some (BitVec.ofInt 32 centi)))) ∧
    exec (.overtemp t c.power.overtemp) s = .next c) ∧
  -- STP_CLAMPING with option S, and HOLDUP_CHARGED
  (∀ b : Bool, Powered s → (c.factory.optS = true → exec (.stpClamping t b) s = .next { c with power.stpClamping := b }) ∧
    exec (.holdupCharged t b) s = .next { c with power.holdupCharged := b })
/-! ## Group redundancy (spec/14_group_redundancy.md) -/

/-- R487, R489, R493-R497, R506, R509, R514: what a valid frame of a peer does to a member of the group. -/
def Obligations.GroupFramesAreTaken : Prop := ∀ (s : State) (t : Nat) (h : LlpHeader) (l : Fin 2), Running s →
  h.crcOk = true → h.sender.val ≠ s.me → h.link = some l →
  let c := s.clock t
  let v := c.heard h false
  -- contact, and the link's count
  (at? v.group.peers h.sender.val).lastValid = some c.now ∧ (at? v.group.peers h.sender.val).epoch = h.epoch ∧
  v.group.links[l].validFrames = sat32 c.group.links[l].validFrames ∧ FrameBut [.group] c v ∧
  -- LLP_HELLO of an in-step SPARE, to a LEAD, on a link that is up
  (∀ b : Hello, c.group.role = .lead → c.gcycle.roleSettled = true → c.gcycle.takeoverTest = none → b.role = 1 →
    c.group.links[l].up = true →
    ∃ u : State, exec (.llpHello t h b) s = .next u ∧ (at? u.group.peers h.sender.val).role = 1 ∧
      (at? u.group.peers h.sender.val).mode = b.mode.setWidth 4 ∧ (at? u.group.peers h.sender.val).digest = b.digest ∧
      (at? u.group.peers h.sender.val).granted = max (at? c.group.peers h.sender.val).granted b.granted ∧
      u.group.inStep = c.group.inStep ||| (1#3 <<< h.sender.val) ∧ FrameBut [.group] c u) ∧
  -- LLP_TIME: its stamps are kept for the next frame to that peer; one of the LEAD that echoes this member's corrects TB3
  (∀ b : TimeBody,
    let w : State := { v with group.links := upd v.group.links l fun k => { k with lastTime := some (b.tx, b.rx) } }
    (b.echoTx = 0 → b.echoRx = 0 → exec (.llpTime t h b) s = .next w) ∧
    (c.group.role = .spare → v.leadIndex.toNat = h.sender.val → (b.echoTx ≠ 0 ∨ b.echoRx ≠ 0) →
      let off := ((b.echoRx - b.echoTx) + (b.tx - b.rx) - at? c.time.linkAsym l).tdiv 2
      let x := State.correct { w with time.tb := upd w.time.tb 3 fun b => { b with source := 3, sourced := true } } 3 off
      ((x.tb3Held = true ∨ off.natAbs ≤ 100000) → exec (.llpTime t h b) s = .next x) ∧
      (x.tb3Held = false → 100000 < off.natAbs →
        exec (.llpTime t h b) s = .next (x.stepBase 3 off (if x.tb3 % second ≤ 2 * ms then x.tb3 % second else 0))))) ∧
  -- LLP_SET: the credits return, and the set is held
  (∀ x : ReleasedSet, c.group.role = .spare → c.gcycle.closed = none →
    exec (.llpSet t h x) s = .next { v with
      group.links := upd v.group.links l fun k => k.refill c.now,
      group.peers := upd v.group.peers h.sender.val fun p => { p with set := some { x with member := h.sender } } }) ∧
  -- LLP_CLOSE of a lower epoch is nothing, nor is one of a cycle closed already; a member not in step keeps it and takes no epoch
  (∀ b : LlpClose, c.group.role = .spare → h.epoch.toNat < c.group.epoch.toNat → exec (.llpClose t h b) s = .next v) ∧
  (∀ b : LlpClose, c.group.role = .spare → c.gcycle.closed = some b → exec (.llpClose t h b) s = .next v) ∧
  (∀ b : LlpClose, c.group.role = .resync → c.gcycle.copyApplied = false → c.group.epoch.toNat ≤ h.epoch.toNat →
    c.gcycle.closed = none → exec (.llpClose t h b) s = .next { v with gcycle.closed := some b }) ∧
  -- to a SPARE that the mask does not name: out of step
  (∀ b : LlpClose, c.group.role = .spare → c.group.epoch.toNat ≤ h.epoch.toNat → b.writes = [] → c.modes.mode ≠ .safe →
    c.gcycle.closed = none → b.mode.toNat = c.modes.mode.code → b.cycle = c.cycle.count → b.mask.getLsbD c.me = false →
    exec (.llpClose t h b) s = .next (State.toResync { v with
      group.epoch := h.epoch, gcycle.closed := some b, modes.pendingMode := none } 5)) ∧
  -- LLP_SOLVE_REPORT
  (∀ r : SolveReport, h.cycle ≠ c.cycle.count → exec (.llpSolveReport t h r) s = .next v) ∧
  (∀ r : SolveReport, h.cycle = c.cycle.count → c.cycle.acceptDone = true →
    exec (.llpSolveReport t h r) s = .next { v with
      sol.peers := v.sol.peers.filter (fun (x : Nat × SolveReport) => x.1 != h.sender.val) ++ [(h.sender.val, r)] }) ∧
  -- LLP_COMMIT before the own digest, and one of the LEAD that differs from it
  (∀ (d : Word) (r : BitVec 8), c.group.role = .spare → c.cycle.acceptDone = true → c.gcycle.ownDigest = none →
    (at? c.group.peers h.sender.val).commit ≠ some (h.cycle, d) → exec (.llpCommit t h d r) s = .next { v with
      group.peers := upd v.group.peers h.sender.val fun p => { p with commit := some (h.cycle, d) } }) ∧
  (∀ (d e : Word) (r : BitVec 8), c.group.role = .spare → c.cycle.acceptDone = true → c.gcycle.ownDigest = some (h.cycle, e) →
    d ≠ e → (at? c.group.peers h.sender.val).role = 0 → (at? c.group.peers h.sender.val).commit = none → (c.route 107).fault = false →
    ∃ u : State, exec (.llpCommit t h d r) s = .next u ∧ u.group.role = .resync ∧ u.group.auth = false ∧
      u.gcycle.copyApplied = false ∧ u.group.counters[2] = sat32 c.group.counters[2]) ∧
  -- LLP_YIELD to another successor
  (∀ (i : Nat) (n : BitVec 8), n.toNat ≠ c.me → c.cycle.acceptDone = true →
    exec (.llpYield t h i n) s = .next { v with
      group.inStep := c.group.inStep &&& ~~~(1#3 <<< h.sender.val),
      group.peers := upd v.group.peers h.sender.val fun p => { p with role := 3 } }) ∧
  -- LLP_TAKEOVER
  (∀ (e : Word) (i : Nat) (n : BitVec 8), c.cycle.acceptDone = true → c.gcycle.ownDigest = none →
    ∃ u : State, exec (.llpTakeover t h e i n) s = .next u ∧ (at? u.group.peers h.sender.val).role = 0 ∧
      (at? u.group.peers h.sender.val).epoch = e ∧
      u.group.takeoverAt = (if c.group.epoch.toNat < e.toNat then some i else c.group.takeoverAt) ∧
      (∀ m : Nat, m < 3 → m ≠ h.sender.val → (at? c.group.peers m).role = 0 →
        (at? u.group.peers m).role = 3 ∧ u.group.inStep.getLsbD m = false) ∧ FrameBut [.group] c u)

/-- R514, R515: the copy of a member in RESYNC: the LEAD plans it, its chunks are gathered, a whole one is applied, one that cannot
be read or that stays incomplete fails, and 50 matching cycles make the member SPARE. -/
def Obligations.ResyncCopiesTheState : Prop := ∀ (s : State) (t : Nat), Running s →
  let c := s.clock t
  (∀ (h : LlpHeader) (l : Fin 2), h.crcOk = true → h.sender.val ≠ s.me → h.link = some l →
    let v := c.heard h false
    -- LLP_RESYNC_REQUEST
    (c.group.role = .lead → c.cyc.period ≠ 0 →
      let j := (c.tb3 + 2 * ms + c.cyc.period - 1) / c.cyc.period
      exec (.llpResyncRequest t h) s = .next (State.sendLaneTo { v with gcycle.copyTo := some (j, h.sender.val) } h.sender
        (.copyPlan j (Config.copyEncode (v.copyNow true)).length))) ∧
    -- LLP_COPY_PLAN
    (∀ j total : Nat, c.group.role = .resync → c.gcycle.copyApplied = false →
      exec (.llpCopyPlan t h j total) s = .next { v with gcycle.copyPlan := some (j, total), gcycle.copyBytes := [] }) ∧
    -- LLP_COPY_CHUNK, after the frame of cycle j + 1 and before it
    (∀ (j total offset : Nat) (data : List Byte), c.group.role = .resync → c.gcycle.copyApplied = false →
      c.gcycle.copyPlan = some (j, total) → j < c.cycle.count → c.gcycle.closed.isSome = true →
      exec (.llpCopyChunk t h offset data) s = .next v.copyFailed) ∧
    (∀ (j total offset : Nat) (data : List Byte), c.group.role = .resync → c.gcycle.copyApplied = false →
      c.gcycle.copyPlan = some (j, total) → (j < c.cycle.count → c.gcycle.closed = none) →
      let chunks := c.gcycle.copyBytes.filter (·.1 != offset) ++ [(offset, data)]
      let w : State := { v with gcycle.copyBytes := chunks }
      let whole := (chunks.mergeSort fun a b => decide (a.1 ≤ b.1)).flatMap (·.2)
      ((chunks.map (·.2.length)).sum < total → exec (.llpCopyChunk t h offset data) s = .next w) ∧
      (total ≤ (chunks.map (·.2.length)).sum →
        exec (.llpCopyChunk t h offset data) s = .next (match Config.copyDecode whole with
          | some x => w.applyCopy x
          | none => w.copyFailed)))) ∧
  -- what a copy brings
  (∀ x : Copy, c.time.tb[3].remaining = 0 →
    let u := c.applyCopy x
    u.fusion = x.fusion ∧ u.obs = x.obs ∧ u.law = x.law ∧ u.dyn = x.dyn ∧ u.group.epoch = x.epoch ∧
      u.gcycle.copyApplied = true ∧ u.group.role = c.group.role ∧ (c.modes.mode ≠ .safe → u.modes.mode = x.mode)) ∧
  -- COPY_FAIL
  (∀ j total : Nat, c.gcycle.copyPlan = some (j, total) → c.group.role = .resync → c.gcycle.copyApplied = false →
    (j + 1 < c.cycle.count ∨ (j + 1 = c.cycle.count ∧ (c.gcycle.closed.isSome = true ∨ c.exchangeLimit ≤ c.tb3))) →
    c.gcycle.resyncFailures < 4 →
    exec (.copyFail t) s = .next { c with
      gcycle.copyPlan := none, gcycle.copyBytes := [], gcycle.requested := false,
      gcycle.resyncFailures := c.gcycle.resyncFailures + 1, gcycle.retryAt := some (c.cycle.count + 10),
      group.counters := upd c.group.counters 4 sat32 }) ∧
  -- RESYNC_RETRY ten cycles later
  (∀ k : Nat, c.group.role = .resync → c.gcycle.retryAt = some k → k ≤ c.cycle.count → c.gcycle.requested = false →
    c.gcycle.resyncStopped = false → c.gcycle.copyApplied = false → c.leadIndex ≠ 0xF →
    exec (.resyncRetry t) s = .next (State.sendLaneTo { c with
      gcycle.requested := true, gcycle.retryAt := none, group.counters := upd c.group.counters 3 sat32 } c.leadIndex.toNat
        .resyncRequest)) ∧
  -- STEP_DONE
  (c.group.role = .resync → c.gcycle.copyApplied = true → 50 ≤ c.group.stepCount → (c.route 107).fault = false →
    ∃ u : State, exec (.stepDone t) s = .next u ∧ u.group.role = .spare ∧ u.group.stepCount = 50 ∧
      FrameBut ([.group] ++ quietParts) c u)

/-- R486, R489, R503, R508-R510, R513: contact, links, the takeover that a missing COMMIT brings, and the frames sent each period. -/
def Obligations.GroupSupervision : Prop := ∀ (s : State) (t : Nat), Running s →
  let c := s.clock t
  -- a frame whose CRC fails, and one that carries this member's own index
  (∀ (h : LlpHeader) (l : Fin 2) (b : Hello), h.crcOk = false → h.link = some l →
    exec (.llpHello t h b) s = .next { c with
      group.links := upd c.group.links l fun k => { k with crcFailures := sat32 k.crcFailures, helloRun := 0 } }) ∧
  (∀ (h : LlpHeader) (b : Hello), h.crcOk = true → h.sender.val = s.me → c.group.role = .alone →
    exec (.llpHello t h b) s = .next { c with group.clashAt := some c.now }) ∧
  -- LINK_DOWN of a link that is up
  (∀ l : Fin 2, c.group.links[l].up = true →
    let k := c.group.links[l]
    exec (.linkDown t l) s = .next (State.raiseN { c with
      group.links := upd c.group.links l fun k => { k.refill c.now with up := false, helloRun := 0 },
      group.peers := upd c.group.peers k.peer.toNat fun p =>
        { p with linkMask := p.linkMask &&& ~~~(BitVec.ofNat 3 (2 ^ l.val)) } } (104 + l.val) 0 (some k.peer.toNat))) ∧
  -- MISSING_COMMIT: the successor takes over with the next epoch
  (∀ m : Nat, c.group.role = .spare → c.successor = some c.me → c.cycle.ticking = true →
    c.cycle.tk + c.cyc.commandAt ≤ c.tb3 + 20 * us → c.group.backupPort = 0xFF →
    [0, 1, 2].find? (fun m => m != c.me && (at? c.group.peers m).role == 0) = some m →
    (at? c.group.peers m).commit = none → c.gcycle.closeDone = true → (c.route 107).fault = false → (c.route 108).fault = false →
    ∃ u : State, exec (.missingCommit t) s = .next u ∧ u.group.role = .lead ∧ u.group.epoch = c.group.epoch + 1 ∧
      u.group.lastTakeoverCause = 2 ∧ u.group.lastTakeoverAt = c.cycle.tk + c.cyc.commandAt ∧ u.group.split = false ∧
      u.gcycle.takeoverTest = some (c.cycle.tk + c.cyc.commandAt, c.cycle.count) ∧
      FrameBut ([.group, .gcycle] ++ quietParts) c u) ∧
  -- and no takeover where the backup path shows a grant of the cycle
  (∀ m : Nat, c.group.role = .spare → c.successor = some c.me → c.cycle.ticking = true →
    c.cycle.tk + c.cyc.commandAt ≤ c.tb3 + 20 * us → c.group.backupPort ≠ 0xFF →
    [0, 1, 2].find? (fun m => m != c.me && (at? c.group.peers m).role == 0) = some m →
    (at? c.group.peers m).commit = none → (at? c.group.peers m).lastBackup.isSome = true →
    c.cycle.count ≤ (at? c.group.peers m).grantedBackup → (c.route 107).fault = false →
    ∃ u : State, exec (.missingCommit t) s = .next u ∧ u.group.role = .resync ∧ u.group.split = true ∧
      u.group.counters[5] = sat32 c.group.counters[5] ∧ u.group.epoch = c.group.epoch) ∧
  -- and nothing while the LEAD's COMMIT of the cycle is there
  (∀ (m : Nat) (d : Word), [0, 1, 2].find? (fun m => m != c.me && (at? c.group.peers m).role == 0) = some m →
    (at? c.group.peers m).commit = some (c.cycle.count, d) → exec (.missingCommit t) s = .next c) ∧
  -- CONTACT_LOST of every peer
  (1 < c.cyc.groupSize → c.contacts = [] → c.group.role ≠ .alone → (c.route 107).fault = false →
    ∃ u : State, exec (.contactLost t) s = .next u ∧ u.group.role = .alone ∧
      (∀ m : Nat, m < 3 → m ≠ c.me → u.group.inStep.getLsbD m = false) ∧ FrameBut ([.group] ++ quietParts) c u) ∧
  (c.cyc.groupSize ≤ 1 → exec (.contactLost t) s = .next c) ∧
  -- ROLE_ELECTION_TIMEOUT
  (c.gcycle.roleSettled = false → c.gcycle.firstModeAt + 2 * second ≤ c.now →
    exec (.roleElectionTimeout t) s = .next { c with gcycle.roleSettled := true }) ∧
  -- LNK_CREDIT_STALL
  (∀ (l : Fin 2) (a : Nat), c.group.links[l].waitingSince = some a → c.group.links[l].stallRaised = false → a + 10 * ms < c.now →
    exec (.lnkCreditStall t l) s = .next (State.raise { c with
      group.links := upd c.group.links l fun k => { k with stallRaised := true } } 106)) ∧
  -- LLP_PERIODIC_SEND
  (1 < c.cyc.groupSize → c.group.backupPort = 0xFF → (∀ a : Nat, c.gcycle.periodicAt = some a → a + ms ≤ c.now) →
    exec (.llpPeriodicSend t) s = .next { c with
      gcycle.periodicAt := some c.now,
      group.links := c.group.links.map fun l =>
        let k := LinkState.send l c.now (c.llp (.hello c.helloBody))
        let stamps := k.lastTime.getD (0, 0)
        k.send c.now (c.llp (.time { tx := c.tb3, echoTx := stamps.1, echoRx := stamps.2 })) }) ∧
  (∀ a : Nat, c.gcycle.periodicAt = some a → c.now < a + ms → exec (.llpPeriodicSend t) s = .next c) ∧
  (c.cyc.groupSize ≤ 1 → exec (.llpPeriodicSend t) s = .next c)

/-- R484, R511, R515, R519: the writes of the group's objects. -/
def Obligations.GroupObjectsTakeWrites : Prop := ∀ (s : State) (t : Nat) (req : Request),
  -- TRANSFER to an in-step SPARE: the LEAD yields and enters ALONE
  (∀ m : BitVec 8, Ready s t req 0x11 (writeBody (objId 0xB 0 6) [m]) → s.group.role = .lead →
    s.inStepPeers.contains m.toNat = true → (at? s.group.peers m.toNat).role = 1 → (s.route 107).fault = false →
    let w := s.atWrite t req (objId 0xB 0 6) [m]
    let i := w.commandInstantFrom (w.tb3 + 50 * us)
    ∃ u : State, exec (.transfer t req m) s = .next (u.wrote req (objId 0xB 0 6)) ∧ u.group.role = .alone ∧
      u.group.yieldAt = some i ∧ (∀ l : Fin 2, w.group.links[l].up = true → 0 < w.group.links[l].credits →
        ∃ f : LlpSent, f ∈ u.group.links[l].sent ∧ f.frame = .yield_ i m.toNat) ∧ FrameBut ([.group] ++ quietParts) w u) ∧
  (∀ m : BitVec 8, Ready s t req 0x11 (writeBody (objId 0xB 0 6) [m]) → s.group.role = .spare →
    ∃ (u : State) (d : Word), exec (.transfer t req m) s = .next u ∧
      Answered u req 0x11 .notLead (be32 (objId 0xB 0 6) ++ be32 d) ∧ FrameBut [.time, .gnss, .qcp] s u) ∧
  -- RESYNC of a member that is not in RESYNC: the attempts are reset
  (Ready s t req 0x11 (writeBody (objId 0xB 0 7) [1]) → s.group.role ≠ .resync →
    let w := s.atWrite t req (objId 0xB 0 7) [1]
    exec (.resync t req) s = .next (State.wrote { w with
      gcycle.resyncStopped := false, gcycle.resyncFailures := 0, gcycle.retryAt := none } req (objId 0xB 0 7))) ∧
  -- MEMBER_INDEX in CONFIG
  (∀ v : BitVec 8, Ready s t req 0x11 (writeBody (objId 0xB 0 1) [v]) → s.modes.mode = .config → v.toNat ≤ 2 →
    let w := s.atWrite t req (objId 0xB 0 1) [v]
    exec (.memberIndex t req v) s = .next (State.wrote { w with group.memberIndex := v } req (objId 0xB 0 1)))
/-! ## Networks (spec/15_networks.md) -/

/-- R524-R528: the switch counts, filters and forwards a frame: a disabled port takes nothing, a bad or long frame and one of a VLAN
the port is not in are counted, group frames beyond the storm limit are dropped, and a frame leaves by member ports alone, never by
its own. -/
def Obligations.SwitchFiltersAndForwards : Prop := ∀ (s : State) (t : Nat) (n : Fin 7) (f : SwitchFrame), Powered s →
  let c := s.clock t
  let v := c.egressAll.setPort n fun p => { p with counters := upd p.counters 0 sat32 }
  let port := c.net.ports[n]
  (port.en = false → exec (.switchFrameIngress t n f) s = .next c) ∧
  (port.en = true → f.crcOk = false → exec (.switchFrameIngress t n f) s =
    .next (v.setPort n fun p => { p with counters := upd p.counters 5 sat32 })) ∧
  (port.en = true → f.crcOk = true → 5 ≤ n.val → exec (.switchFrameIngress t n f) s = .next v) ∧
  (port.en = true → f.crcOk = true → n.val < 5 → 1522 < f.length → exec (.switchFrameIngress t n f) s =
    .next (v.setPort n fun p => { p with counters := upd p.counters 2 sat32 })) ∧
  (∀ vid pcp : Nat, port.en = true → f.crcOk = true → n.val < 5 → f.length ≤ 1522 → port.classify f = some (vid, pcp) →
    ((∀ e : VlanEntry, c.vlan? vid = some e → e.members.getLsbD n = false) →
      exec (.switchFrameIngress t n f) s = .next (v.setPort n fun p => { p with counters := upd p.counters 3 sat32 })) ∧
    (∀ e : VlanEntry, c.vlan? vid = some e → e.members.getLsbD n = true →
      -- a unicast frame, or one within the limit, is forwarded
      ((v.storm n f).1 = true → exec (.switchFrameIngress t n f) s = .next ((v.storm n f).2.forward n vid
        (if frameIsPtpEvent f then 7 else if n.val = 4 then (f.own.map ownTrafficPriority).getD pcp else pcp) e (tagFrame f vid pcp))) ∧
      ((v.storm n f).1 = false → exec (.switchFrameIngress t n f) s = .next (v.storm n f).2) ∧
      (frameIsGroup f = false → v.storm n f = (true, v)) ∧
      (∀ p ∈ c.egressPorts vid e f n, p ≠ n.val ∧ e.members.getLsbD p = true ∧ (at? c.net.ports p).en = true) ∧
      (frameIsGroup f = true → ∀ p ∈ forwarding, p ≠ n.val → e.members.getLsbD p = true → (at? c.net.ports p).en = true →
        p ∈ c.egressPorts vid e f n)))

/-- R532, R536, R552, R554: links, datagrams, IEC 61162-450 and the loss of a thruster's feedback. -/
def Obligations.EthernetInputsAreTaken : Prop := ∀ (s : State) (t : Nat), Powered s →
  let c := s.clock t
  -- ETH_LINK
  (∀ (n : Fin 4) (v : BitVec 8), (at? c.net.ports n).status.getLsbD 0 ≠ (v &&& 3).getLsbD 0 →
    exec (.ethLink t n v) s = .next (State.raiseN (c.setPort n fun p => { p with status := v &&& 3 }) 96 n.val
      (some (v &&& 3).toNat))) ∧
  (∀ (n : Fin 4) (v : BitVec 8), (at? c.net.ports n).status.getLsbD 0 = (v &&& 3).getLsbD 0 →
    exec (.ethLink t n v) s = .next (c.setPort n fun p => { p with status := v &&& 3 })) ∧
  -- DATAGRAM_RECEIVED: a fragment is counted; one that no point takes is nothing; any other goes to the parser
  (∀ (n : Fin 4) (dst : Addr) (u : BitVec 16) (stamp : Nat) (b : List Byte),
    let wanted := (c.ownPoints 10 n).filter fun p => p.period != 0 && p.selector == u.setWidth 32
    let d : EthIn := { port := n, stamp := stamp, udp := some u, payload := b }
    (((at? c.net.ports n).en = false ∨ c.takesDestination dst = false) →
      ∀ x : Option (List Byte), exec (.datagramReceived t n dst u stamp x) s = .next c) ∧
    ((at? c.net.ports n).en = true → c.takesDestination dst = true →
      exec (.datagramReceived t n dst u stamp none) s =
        .next (c.setPort n fun p => { p with counters := upd p.counters 14 sat32 }) ∧
      (wanted = [] → exec (.datagramReceived t n dst u stamp (some b)) s = .next c) ∧
      (wanted ≠ [] → Running s → c.net.ethWait = [] → c.ethStops (c.ownPoints 10 n).length = false →
        exec (.datagramReceived t n dst u stamp (some b)) s = .next (c.takeEth d).2.tryRelease) ∧
      (wanted ≠ [] → Running s → c.net.ethWait ≠ [] →
        exec (.datagramReceived t n dst u stamp (some b)) s = .next (c.storeEth d).tryRelease))) ∧
  -- IEC450_DATAGRAM
  (∀ (n : Fin 4) (dst : Addr) (u : BitVec 16) (stamp : Nat) (b : List Byte),
    let d : EthIn := { port := n, stamp := stamp, lines := linesOf (b.drop 6) }
    (((at? c.net.ports n).en = false ∨ c.takesGroup dst u = false) → exec (.iec450Datagram t n dst u stamp b) s = .next c) ∧
    ((at? c.net.ports n).en = true → c.takesGroup dst u = true →
      (b.take 6 ≠ [0x55, 0x64, 0x50, 0x62, 0x43, 0x00] → exec (.iec450Datagram t n dst u stamp b) s =
        .next (c.setPort n fun p => { p with counters := upd p.counters 15 sat32 })) ∧
      (b.take 6 = [0x55, 0x64, 0x50, 0x62, 0x43, 0x00] → Running s → c.net.ethWait = [] → (c.takeEth d).1 = none →
        exec (.iec450Datagram t n dst u stamp b) s = .next (c.takeEth d).2.tryRelease) ∧
      (b.take 6 = [0x55, 0x64, 0x50, 0x62, 0x43, 0x00] → Running s → c.net.ethWait ≠ [] →
        exec (.iec450Datagram t n dst u stamp b) s = .next (c.storeEth d).tryRelease))) ∧
  -- FEEDBACK_TIMEOUT: three periods of the feedback point after its last valid record
  (∀ (n : Fin 16) (i : Structure) (p : PointRec), c.image.loaded = some i → i.thrusterPoint n c.me false = some p →
    c.net.feedbackLost[n] = false → (c.net.feedbackAt[n]).getD 0 + 3 * p.period ≤ c.now →
    exec (.feedbackTimeout t n) s = .next (State.raiseN (State.judgeFeedback { c with
      net.feedbackLost := upd c.net.feedbackLost n fun _ => true } n) 76 (n.val + 256) (some 0xFF)))

/-- R542-R544: a CAN controller receives, transmits, counts its errors and leaves the bus. -/
def Obligations.CanControllersConfineFaults : Prop := ∀ (s : State) (t : Nat) (n : Fin 4), Powered s →
  let c := s.clock t
  let k := c.net.can[n]
  k.en = true → k.busOff = false →
  -- CAN_FRAME_RECEIVED that the filter refuses
  (∀ f : CanFrame, (f.fd = true → k.fdEn = true) → k.recCount < 128 → k.tec < 128 → k.passive = false → k.listenOnly = false →
    (∀ p ∈ c.canPoints n, p.selector ≠ BitVec.ofNat 32 (f.id.toNat + if f.extended then 2 ^ 31 else 0)) →
    exec (.canFrameReceived t n f) s = .next { c with
      free := c.free + 1, net.can := upd c.net.can n fun k => { k with recCount := k.recCount - 1 } }) ∧
  -- one that finds 64 frames waiting is an overrun, reported
  (∀ f : CanFrame, (f.fd = true → k.fdEn = true) → k.recCount < 128 → k.tec < 128 → k.passive = false → k.listenOnly = true →
    64 ≤ k.rx.length → k.locked = false →
    exec (.canFrameReceived t n f) s = .next (State.raiseN { c with
      free := c.free + 1, net.can := upd c.net.can n fun k => { k with
        recCount := k.recCount - 1, counters := upd (upd k.counters 0 sat32) 2 sat32, overrunRun := true } } 100 n.val)) ∧
  -- while the parser is stopped it waits in the FIFO, whose head is locked
  (∀ f : CanFrame, (f.fd = true → k.fdEn = true) → k.recCount < 128 → k.tec < 128 → k.passive = false → k.listenOnly = true →
    k.rx.length < 64 → c.cycle.stopped = true → c.cycle.released = true → Running s →
    exec (.canFrameReceived t n f) s = .next { c with
      free := c.free + 1, net.can := upd c.net.can n fun k => { k with
        recCount := k.recCount - 1, counters := upd k.counters 0 sat32, rx := k.rx ++ [f], overrunRun := false, locked := true } }) ∧
  -- CAN_FRAME_TRANSMITTED: the pending frame that wins arbitration
  (∀ i : Nat, k.head = some i → k.listenOnly = false → k.tec ≤ 128 → k.recCount < 128 → k.passive = false →
    exec (.canFrameTransmitted t n) s = .next { c with net.can := upd c.net.can n fun k =>
      { k with tx := k.tx.eraseIdx i, tec := k.tec - 1, counters := upd k.counters 1 sat32 } }) ∧
  -- CAN_TX_ATTEMPT_FAILED by arbitration: tried again, and abandoned after RETRY_LIMIT + 1
  (∀ (i : Nat) (x : CanTx) (d : Bool), k.head = some i → k.tx[i]? = some x → k.listenOnly = false →
    (x.attempts < k.retryLimit.toNat → exec (.canTxAttemptFailed t n 0 d) s = .next { c with net.can := upd c.net.can n fun k =>
      { k with tx := updL k.tx i fun x => { x with attempts := x.attempts + 1 } } }) ∧
    (k.retryLimit.toNat ≤ x.attempts → exec (.canTxAttemptFailed t n 0 d) s = .next { c with net.can := upd c.net.can n fun k =>
      { k with tx := k.tx.eraseIdx i, counters := upd k.counters 4 sat32 } })) ∧
  -- CAN_RX_ERROR
  (∀ (e : BitVec 4) (d : Bool), e ≠ 0 → e.toNat ≤ 6 → k.recCount < 127 → k.tec < 128 → k.passive = false →
    exec (.canRxError t n e d) s = .next { c with net.can := upd c.net.can n fun k =>
      { k with lastError := e, dataPhase := d, recCount := k.recCount + 1 } }) ∧
  -- an error that takes TEC past 255: the controller leaves the bus and abandons what was pending
  (∀ (i : Nat) (e : BitVec 4) (d : Bool), k.head = some i → k.listenOnly = false → e ≠ 0 → e ≠ 3 → e.toNat ≤ 6 → 248 ≤ k.tec →
    (c.route 98).fault = false → (c.route 99).fault = false →
    ∃ u : State, exec (.canTxAttemptFailed t n e d) s = .next u ∧ u.net.can[n].busOff = true ∧ u.net.can[n].tx = [] ∧
      u.net.can[n].recovering = k.autoRecover ∧ u.net.can[n].recoverAt = c.now ∧ u.net.can[n].lastError = e ∧ (∀ m : Fin 4, m ≠ n → u.net.can[m] = c.net.can[m]) ∧
      FrameBut ([.net] ++ quietParts) c u)

/-- R538-R540, R542, R543, R545: recovery from bus-off, and the writes of the CAN controllers. -/
def Obligations.CanObjectsTakeWrites : Prop := ∀ (s : State) (t : Nat) (n : Fin 4),
  -- CAN_RECOVERY_DONE
  (Powered s →
    let c := s.clock t
    c.net.can[n].en = true → c.net.can[n].busOff = true → c.net.can[n].recovering = true →
    -- 128 sequences of 11 recessive nominal bits
    c.net.can[n].recoverAt + 1408 * c.net.can[n].nbt.bitTime ≤ c.now →
    exec (.canRecoveryDone t n) s = .next (State.canReport (c.setCan n fun k =>
      { k with busOff := false, recovering := false, tec := 0, recCount := 0 }) n 99 false)) ∧
  -- CAN_RECOVER
  (∀ req : Request, s.net.can[n].en = true → s.net.can[n].fdEn = true →
    let v := nat32 (s.net.can[n].word + 256)
    Ready s t req 0x11 (writeBody (objId 0x0A (0x20 + n) 0) v) →
    let w := s.atWrite t req (objId 0x0A (0x20 + n) 0) v
    exec (.canRecover t req n) s = .next (State.wrote { w with net.can := upd w.net.can n fun k =>
      { k with recovering := k.recovering || k.busOff, recoverAt := if k.busOff && !k.recovering then w.now else k.recoverAt } } req (objId 0x0A (0x20 + n) 0))) ∧
  -- CAN_TX of a frame with a base or an extended identifier
  (∀ (req : Request) (id : BitVec 29) (ext brs : Bool) (len : Nat) (data : List Byte), data.length = 64 → canLengths.contains len = true →
    (ext = true ∨ id.toNat ≤ 0x7FF) → s.net.can[n].tx.length < 16 →
    let v := nat32 (id.toNat + if ext then 2 ^ 31 else 0) ++ nat8 (if brs then 3 else 1) ++ nat8 len ++ zeros 2 ++ data
    Ready s t req 0x11 (writeBody (objId 0x0A (0x20 + n) 5) v) →
    let w := s.atWrite t req (objId 0x0A (0x20 + n) 5) v
    exec (.canTx t req n v) s = .next (State.wrote { w with net.can := upd w.net.can n fun k =>
      { k with tx := k.tx ++ [{ frame := { id := id, extended := ext, fd := true, brs := brs && k.brsEn, data := data.take len } }] } } req
        (objId 0x0A (0x20 + n) 5))) ∧
  -- CAN_NBT of a controller that does not take part in the bus
  (∀ (req : Request) (v : Word), Ready s t req 0x11 (writeBody (objId 0x0A (0x20 + n) 1) (be32 v)) →
    s.modes.mode.positioning = false → s.net.can[n].en = false → v.getLsbD 0 = false →
    timingOk (nbtOf v.toNat) s.net.can[n].dbt = true →
    let w := s.atWrite t req (objId 0x0A (0x20 + n) 1) (be32 v)
    exec (.canTimingWrite t req n false v) s = .next (State.wrote { w with net.can := upd w.net.can n fun k =>
      { k with nbt := nbtOf v.toNat } } req (objId 0x0A (0x20 + n) 1)))

/-- R44, R549-R551: a serial port's characters enter its FIFO, a whole sentence is judged and taken, and a sentence for transmission
is given its checksum. -/
def Obligations.SerialPortsReadSentences : Prop := ∀ (s : State) (t : Nat) (n : Fin 8), Powered s →
  let c := s.clock t
  let p := c.net.ser[n]
  -- a character on the line: what was sent by then has left, and in RS-485 the transmitter waits anew
  let line (q : SerialPort) : SerialPort :=
    let q := { q.sent c.now with lineAt := c.now }
    { q with txAt := if c.now ≤ q.txAt then max q.txAt q.freeAt else q.txAt, lineErrorRun := false }
  -- SERIAL_CHARACTER with room
  (∀ (b : Byte) (stamp : Nat), p.rx.length < 2048 →
    exec (.serialCharacter t n b stamp false) s = .next (c.setSer n fun p =>
      { line p with
        rx := p.rx ++ [{ char := b, stamp := stamp, lineError := false, lostBefore := p.dropPending }],
        dropPending := false, overrunRun := false })) ∧
  -- with none: lost, counted, and reported once for each run
  (∀ (b : Byte) (stamp : Nat), 2048 ≤ p.rx.length → p.overrunRun = false →
    exec (.serialCharacter t n b stamp false) s = .next (State.raiseN (c.setSer n fun p =>
      { line p with counters := upd (line p).counters 3 sat32, overrunRun := true, dropPending := true }) 102 n.val)) ∧
  -- SENTENCE_PARSE with no whole sentence
  (takeSentence p.rx = none → exec (.sentenceParse t n) s = .next c) ∧
  (∀ read rest : List SerByte, Running s → c.cycle.stopped = false → takeSentence p.rx = some (read, rest) →
    (∀ b ∈ read, b.lostBefore = false ∧ b.lineError = false) →
    (read.head?.map (·.char)) = some 0x24 →
    -- rejected
    (sentenceBody (read.map (·.char)) p.checksumRequired = none → p.rejectRun = false →
      exec (.sentenceParse t n) s = .next (State.raiseN (c.setSer n fun p =>
        { p with rx := rest, rejectRun := true, counters := upd p.counters 1 sat32 }) 103 n.val)) ∧
    -- accepted, for no point of the port
    (∀ text : List Byte, sentenceBody (read.map (·.char)) p.checksumRequired = some text → c.ownPoints 8 n = [] →
      c.cycle.released = true →
      exec (.sentenceParse t n) s = .next (c.setSer n fun p =>
        { p with rx := rest, rejectRun := false, counters := upd p.counters 0 sat32 }))) ∧
  -- SER_TX
  (∀ (req : Request) (v : List Byte), Ready s t req 0x11 (writeBody (objId 0x0A (0x30 + n) 2) v) → 11 ≤ v.length → v.length ≤ 77 →
    s.net.ser[n].txEn = true → s.net.ser[n].tx = [] →
    let w := s.atWrite t req (objId 0x0A (0x30 + n) 2) v
    let sum := (sentenceSum (v.drop 1)).toNat
    exec (.serTx t req n v) s = .next (State.wrote (w.setSer n fun p =>
      { p with tx := v ++ [0x2A, hexDigit (sum / 16), hexDigit (sum % 16), 0x0D, 0x0A], txAt := max w.now p.freeAt }) req
        (objId 0x0A (0x30 + n) 2)))
/-! ## The command protocol (spec/16_command_protocol.md) -/

/-- R559, R561-R564, R566, R571: what becomes of an arriving frame. -/
def Obligations.ArrivingFramesAreChecked : Prop := ∀ (s : State) (t : Nat) (req : Request) (frame : List Byte),
  Running s → s.modes.report.tb0At ≤ t →
  let c := s.clock t
  let n := frame.length
  let op := fieldAt frame 8 2
  let body := sliceAt frame 16 (n - 20)
  let whole : Prop := 20 ≤ n ∧ fieldAt frame 0 2 = 0x5158 ∧ fieldAt frame 12 4 = n - 20 ∧
    (crc32c (frame.take (n - 4))).toNat = fieldAt frame (n - 4) 4
  let r : Request := { req with
    seq := BitVec.ofNat 32 (fieldAt frame 4 4), crc := BitVec.ofNat 32 (fieldAt frame (n - 4) 4) }
  let same (x : Request) : Prop := x.src = r.src ∧ x.port = r.port ∧ x.seq = r.seq ∧ x.crc = r.crc
  let known : Prop := (∃ e ∈ s.qcp.cache, c.now ≤ e.at_ + 2 * second ∧ same e.resp.req)
  let hostPort : Prop := req.modPort = 47000 ∨ req.modPort = 47002
  -- one that still waits, in the queue, in ABORT's slot or deferred
  let waits : Prop := ∃ x ∈ s.qcp.deferredCommit.toList ++ s.qcp.deferredAttest.toList ++ s.qcp.abortSlot.toList ++ s.qcp.queue,
    same x.req
  -- a port that is off, and the port of telemetry
  ((at? s.net.ports (req.ingress.toNat - 0x10)).en = false → exec (.qcpFrameReceived t req frame) s = .next c) ∧
  ((at? s.net.ports (req.ingress.toNat - 0x10)).en = true →
  (req.modPort = 47001 → exec (.qcpFrameReceived t req frame) s = .next { c with qcp.counters := upd c.qcp.counters 9 sat32 }) ∧
  -- step 1
  (hostPort → ¬ whole → req.dtls = none → exec (.qcpFrameReceived t req frame) s = .next { c with qcp.counters := upd c.qcp.counters 0 sat32 }) ∧
  -- step 2: plain frames of a DTLS_ONLY port
  (hostPort → whole → req.dtls = none → s.portSecurity req.ingress = 2 →
    exec (.qcpFrameReceived t req frame) s = .next { c with qcp.counters := upd c.qcp.counters 1 sat32 }) ∧
  -- a record: at a PLAIN port, of no association, and of one
  (∀ id : Nat, hostPort → req.dtls = some id →
    (s.portSecurity req.ingress = 0 →
      exec (.qcpFrameReceived t req frame) s = .next { c with qcp.counters := upd c.qcp.counters 1 sat32 }) ∧
    (s.portSecurity req.ingress ≠ 0 → (∀ a ∈ s.qcp.associations, ¬ (a.id = id ∧ a.src = req.src ∧ a.port = req.port)) →
      exec (.qcpFrameReceived t req frame) s = .next (c.dtlsFailed req.ingress)) ∧
    (∀ a ∈ s.qcp.associations, s.portSecurity req.ingress ≠ 0 → a.id = id → a.src = req.src → a.port = req.port → ¬ whole →
      exec (.qcpFrameReceived t req frame) s = .next { c with
        qcp.associations := s.qcp.associations.map fun x => if x.id = id then { x with lastUsed := c.now } else x,
        qcp.dtlsFailRun := false, qcp.counters := upd c.qcp.counters 0 sat32 })) ∧
  -- a plain frame that passes steps 1 and 2
  (hostPort → whole → req.dtls = none → s.portSecurity req.ingress ≠ 2 → (op < 0x80 ∨ 0x85 < op) →
    -- one that the response cache knows is answered from it, with REPLAY set, and executed no more
    (known → ∃ u e, exec (.qcpFrameReceived t req frame) s = .next u ∧ e ∈ s.qcp.cache ∧ same e.resp.req ∧
      u.qcp.responses.getLast? = some { e.resp with req := r, replay := true } ∧ u.qcp.queue = s.qcp.queue ∧
      u.qcp.counters = upd s.qcp.counters 4 sat32 ∧ FrameBut [.qcp] c u) ∧
    -- nor is one that still waits taken a second time
    (¬ known → waits →
      exec (.qcpFrameReceived t req frame) s = .next { c with qcp.counters := upd c.qcp.counters 5 sat32 }) ∧
    (¬ known → ¬ waits →
      -- step 3
      (fieldAt frame 2 1 / 16 ≠ 3 → exec (.qcpFrameReceived t req frame) s = .next (c.respond r op .version (nat8 c.qcpInUse))) ∧
      -- steps 4 to 6
      (fieldAt frame 2 1 / 16 = 3 →
        (fieldAt frame 3 1 ≠ 0 ∨ fieldAt frame 11 1 ≠ 0 ∨ portTakes op req.modPort = false ∨ bodyFits op body ≠ some true ∨
          reservedZero op body = false ∨ bodyLimit req < body.length) →
        exec (.qcpFrameReceived t req frame) s = .next (c.respond r op .badValue [])) ∧
      -- a command joins the queue's tail; with the queue full NET answers BUSY itself
      (fieldAt frame 2 1 / 16 = 3 → fieldAt frame 3 1 = 0 → fieldAt frame 11 1 = 0 → portTakes op req.modPort = true →
        bodyFits op body = some true → reservedZero op body = true → body.length ≤ bodyLimit req → op ≠ 0x12 →
        (s.qcp.queue.length < 32 → exec (.qcpFrameReceived t req frame) s = .next { c with
          qcp.queue := c.qcp.queue ++ [{ req := r, opcode := BitVec.ofNat 16 op, body := body, at_ := c.tb3 }], qcp.busyRun := false }) ∧
        (32 ≤ s.qcp.queue.length → exec (.qcpFrameReceived t req frame) s = .next (c.ownBusy r op))) ∧
      -- ABORT waits in a slot of its own; a second is answered BUSY
      (fieldAt frame 2 1 / 16 = 3 → fieldAt frame 3 1 = 0 → fieldAt frame 11 1 = 0 → req.modPort = 47000 → body.length = 4 →
        op = 0x12 →
        (s.qcp.abortSlot = none → exec (.qcpFrameReceived t req frame) s = .next { c with
          qcp.abortSlot := some { req := r, opcode := 0x12, body := body, at_ := c.tb3 }, qcp.busyRun := false }) ∧
        (s.qcp.abortSlot.isSome = true → exec (.qcpFrameReceived t req frame) s = .next (c.respond r 0x12 .busy []))))))

/-- R569, R570, R108, R394: PING tells who answers; READ takes a snapshot and its side effects once, and reads it on; a read of
CAPm_DATA removes the stamps, and one of CAP_DATA advances CAP_READ_AT. -/
def Obligations.IdentityAndReadsAreAnswered : Prop := ∀ (s : State) (t : Nat) (req : Request),
  -- PING
  (Ready s t req 0x01 [] →
    let w := (s.clock t).taken req 0x01 none
    exec (.ping t req) s = .next (w.respond req 0x01 .ok
      (nat8 w.qcpInUse ++ [0x32] ++ be8 w.group.memberIndex ++ nat8 w.group.role.code ++ nat8 w.modes.mode.code ++
        nat8 (w.portSecurity req.ingress) ++ zeros 2 ++ be32 w.optionsWord ++ be32 ((w.image.loaded.map (·.serial)).getD 0) ++
        be64 w.factory.serial ++ nat64 w.tb3 ++ nat64 w.now)) ∧ (w.pingBody req).length = 40) ∧
  -- READ at OFFSET 0
  (∀ (obj : Word) (max : BitVec 16) (v : List Byte) (u : State), Ready s t req 0x10 (readBody obj 0 max.toNat) →
    1 ≤ max.toNat → max.toNat ≤ readLimit req →
    let w := (s.clock t).taken req 0x10 (if readChanges obj then some (obj, []) else none)
    w.readObject obj = { status := .ok, value := v, state := u } → v ≠ [] → v.length ≤ 4096 →
    exec (.read t req obj 0 max) s = .next (State.respond (u.snapshot req obj v w.now) req 0x10 .ok (readReply obj 0 max.toNat v))) ∧
  -- READ of an absent object, or of one that is not read
  (∀ (obj : Word) (max : BitVec 16), Ready s t req 0x10 (readBody obj 0 max.toNat) → 1 ≤ max.toNat → max.toNat ≤ readLimit req →
    readChanges obj = false →
    let w := (s.clock t).taken req 0x10 none
    (w.readObject obj).status ≠ .ok → exec (.read t req obj 0 max) s = .next (w.respond req 0x10 (w.readObject obj).status [])) ∧
  -- READ on: from the snapshot of the same object and source; TIMEOUT without one
  (∀ (obj : Word) (o : BitVec 32) (max : BitVec 16), Ready s t req 0x10 (readBody obj o.toNat max.toNat) →
    1 ≤ max.toNat → max.toNat ≤ readLimit req → o ≠ 0 →
    let w := (s.clock t).taken req 0x10 none
    let live (x : ReadSnapshot) : Bool := x.src == req.src && x.object == obj && decide (w.now ≤ x.at_ + second)
    (∀ x, w.qcp.snapshots.find? live = some x → o.toNat < x.value.length →
      exec (.read t req obj o max) s = .next (w.respond req 0x10 .ok (readReply obj o.toNat max.toNat x.value))) ∧
    (∀ x, w.qcp.snapshots.find? live = some x → x.value.length ≤ o.toNat →
      exec (.read t req obj o max) s = .next (w.respond req 0x10 .badValue [])) ∧
    (w.qcp.snapshots.find? live = none → exec (.read t req obj o max) s = .next (w.respond req 0x10 .timeout []))) ∧
  -- READ of CAPm_DATA
  (∀ m : Fin 16, Ready s t req 0x10 (readBody (objId 2 (0x10 + m.val) 1) 0 (readLimit req)) →
    let obj := objId 2 (0x10 + m.val) 1
    let w := (s.clock t).taken req 0x10 (some (obj, []))
    let d := w.field.captures[m].drain (at? w.time.tb w.field.captures[m].base.toNat).count
    let v := nat32 d.stamps.length ++ nat32 d.overrun ++ (d.stamps.map nat64).flatten ++ zeros (8 * (8 - d.stamps.length))
    d.stamps.length ≤ 8 → exec (.captureDataRead t req m) s = .next (State.respond
      (State.snapshot { w with field.captures := upd w.field.captures m fun _ => { d with stamps := [], overrun := 0 } } req obj v w.now)
      req 0x10 .ok (readReply obj 0 (readLimit req) v))) ∧
  -- READ of CAP_DATA: the next 256 samples at most
  (Ready s t req 0x10 (readBody (objId 7 0x50 0x14) 0 (readLimit req)) →
    let obj := objId 7 0x50 0x14
    let w := (s.clock t).taken req 0x10 (some (obj, []))
    let part := (w.servo.ic.capData.drop w.servo.ic.capReadAt).take 256
    let v := (part.map fun xs => (xs.map be32).flatten).flatten
    v ≠ [] → v.length ≤ 4096 → exec (.capDataRead t req) s = .next (State.respond
      (State.snapshot { w with servo.ic.capReadAt := w.servo.ic.capReadAt + part.length } req obj v w.now)
      req 0x10 .ok (readReply obj 0 (readLimit req) v)))

/-- R566, R567, R570, R575, R474, R478: a WRITE has its object's effect and is answered OK, or is refused and leaves what it wrote to
as it was; while SUP does not run, NET answers every command with BUSY, and the command is not executed. -/
def Obligations.WritesActOrAreRefused : Prop :=
  (∀ (s : State) (t : Nat) (req : Request) (obj : Word) (v : List Byte),
    Ready s t req 0x11 (writeBody obj v) →
    let w := s.atWrite t req obj v
    let plain := (s.clock t).taken req 0x11 none
    let fits : Prop := v.length ≤ if req.dtls.isSome then 1392 else 1424
    -- what takes effect at once
    (∀ u : State, fits → w.writeObject (s.hostCtx req) obj v = done u → u.modes.restartPending ≠ some .cold →
      exec (.write t req obj v) s = .next (u.wrote req obj)) ∧
    -- a value that is too long
    (¬ fits → s.modes.restartPending ≠ some .cold →
      exec (.write t req obj v) s = .next (plain.respond req 0x11 .badValue (be32 obj ++ be32 0))) ∧
    -- an object that does not exist
    (fits → s.modes.restartPending ≠ some .cold → w.writeObject (s.hostCtx req) obj v = refuse .badObject w →
      exec (.write t req obj v) s = .next (plain.respond req 0x11 .badObject (be32 obj ++ be32 0))) ∧
    (fits → s.modes.restartPending ≠ some .cold → 0x10 ≤ objIsland obj →
      exec (.write t req obj v) s = .next (plain.respond req 0x11 .badObject (be32 obj ++ be32 0))) ∧
    -- a refusal changes nothing but the protocol's own record of it
    FrameBut [.qcp] (s.clock t) plain) ∧
  (∀ (s : State) (t : Nat) (req : Request), Powered s → ¬ Running s →
    let c := s.clock t
    (∀ (obj : Word) (v : List Byte), exec (.write t req obj v) s = .next (c.ownBusy req 0x11)) ∧
    (∀ (obj : Word) (o : BitVec 32) (m : BitVec 16), exec (.read t req obj o m) s = .next (c.ownBusy req 0x10)) ∧
    exec (.ping t req) s = .next (c.ownBusy req 0x01) ∧
    (∀ obj : Word, exec (.abort t req obj) s = .next (c.ownBusy req 0x12)) ∧
    (∀ (o : BitVec 8) (n : List Byte), exec (.recRead t req 0 o) s = .next (c.ownBusy req 0x31) ∧
      exec (.attest t req n) s = .next (c.ownBusy req 0x32) ∧ exec (.enrol t req n) s = .next (c.ownBusy req 0x33)) ∧
    (∀ op : Nat, (c.ownBusy req op).qcp.ownSlot = some { req := req, version := BitVec.ofNat 8 c.qcpInUse, opcode := BitVec.ofNat 16 op, status := .busy } ∧
      (s.qcp.busyRun = true → c.ownBusy req op = { c with
        qcp.ownSlot := some { req := req, version := BitVec.ofNat 8 c.qcpInUse, opcode := BitVec.ofNat 16 op, status := .busy },
        qcp.counters := upd c.qcp.counters 3 sat32 })))

/-- R576, R583: subscriptions begin, are renewed and end; the telemetry queue is sent in its order. -/
def Obligations.SubscriptionsAndTelemetry : Prop := ∀ (s : State) (t : Nat),
  let c := s.clock t
  -- SUBSCRIBE
  (∀ (req : Request) (stream : BitVec 8) (port lease divider : BitVec 16) (select : List Byte),
    Ready s t req 0x20 (be8 stream ++ [0] ++ be16 port ++ be16 lease ++ be16 divider ++ select) →
    let w := c.taken req 0x20 (some (stream.setWidth 32, []))
    let mine (x : Subscription) : Bool := x.src == req.src && x.port.toNat == port.toNat && x.stream.toNat == stream.toNat
    let entry (h : Nat) : Subscription :=
      { handle := h, stream := stream, dtls := req.dtls, ingress := req.ingress, src := req.src, port := port,
        expires := w.tb3 + lease.toNat * second, divider := divider.toNat, select := select }
    let held (h : Nat) : State := State.respond { w with qcp.subs := w.qcp.subs.filter (fun y => !mine y) ++ [entry h] } req 0x20 .ok
      (nat8 h ++ zeros 3 ++ nat64 (w.tb3 + lease.toNat * second))
    port ≠ 0 → 1 ≤ lease.toNat → lease.toNat ≤ 600 → (stream = 2 ∨ (1 ≤ divider.toNat ∧ divider.toNat ≤ 1000)) →
    w.selectOk req stream.toNat port.toNat select = true →
    -- an existing key keeps its handle
    (∀ x, w.qcp.subs.find? mine = some x → exec (.subscribe t req stream port lease divider select) s = .next (held x.handle)) ∧
    -- a new key takes a free one, while there are fewer than 16
    ((∀ x ∈ w.qcp.subs, mine x = false) → w.qcp.subs.length < 16 → ∃ h : Nat, h < 16 ∧ (∀ x ∈ w.qcp.subs, x.handle ≠ h) ∧
      exec (.subscribe t req stream port lease divider select) s = .next (held h)) ∧
    -- a 17th is refused
    ((∀ x ∈ w.qcp.subs, mine x = false) → (∀ h < 16, ∃ x ∈ w.qcp.subs, x.handle = h) →
      exec (.subscribe t req stream port lease divider select) s = .next ((c.taken req 0x20 none).respond req 0x20 .noSpace []))) ∧
  -- UNSUBSCRIBE
  (∀ (req : Request) (stream : BitVec 8) (port : BitVec 16), Ready s t req 0x21 (be8 stream ++ be16 port ++ [0]) →
    (stream = 0xFF ∨ (1 ≤ stream.toNat ∧ stream.toNat ≤ 6)) →
    let w := c.taken req 0x21 (some (stream.setWidth 32, []))
    exec (.unsubscribe t req stream port) s = .next (State.respond
      (w.dropSubs fun x => x.src == req.src && x.port == port && (stream == 0xFF || x.stream == stream)) req 0x21 .ok [])) ∧
  -- LEASE_EXPIRY
  (Powered s → ∀ h : Fin 16,
    exec (.leaseExpiry t h) s = .next (c.dropSubs fun x => x.handle == h.val && decide (x.expires ≤ c.tb3))) ∧
  -- a subscription that ends leaves the others, and no queued frame goes to it
  (∀ gone : Subscription → Bool, (c.dropSubs gone).qcp.subs = c.qcp.subs.filter (fun x => !gone x) ∧
    (∀ f ∈ (c.dropSubs gone).qcp.tele, ∀ x ∈ c.qcp.subs, gone x = true → x.handle ∉ f.dest) ∧
    (c.dropSubs gone).qcp.tele.length = c.qcp.tele.length ∧ FrameBut [.qcp] c (c.dropSubs gone)) ∧
  -- TELEMETRY_SEND
  (Powered s → ∀ (f : TeleFrame) (rest : List TeleFrame), s.qcp.tele = f :: rest →
    (f.dest ≠ [] → f.stream ≠ 1 → exec (.telemetrySend t) s = .next { c with
      qcp.tele := rest, qcp.sentTele := f.dest.map fun h => (h, f.frame c.qcpInUse c.qcp.dropped), qcp.dropped := 0 }) ∧
    -- an EVENT frame carries the MERGED count of its source as it is now
    (f.dest ≠ [] → f.stream = 1 →
      let g : TeleFrame := { f with body := f.body.take 2 ++ nat16 (at? c.events.routes f.source).merged ++ f.body.drop 4 }
      exec (.telemetrySend t) s = .next { c with
        qcp.tele := rest, qcp.sentTele := f.dest.map fun h => (h, g.frame c.qcpInUse c.qcp.dropped), qcp.dropped := 0 }) ∧
    (f.dest = [] → exec (.telemetrySend t) s = .next { c with qcp.tele := rest }))

/-- R586-R588: DTLS handshakes, and the settings that take effect 100 ms after their answer. -/
def Obligations.AssociationsAndSettings : Prop := ∀ (s : State) (t : Nat), Powered s →
  let c := s.clock t
  let fresh (req : Request) : Association :=
    { src := req.src, port := req.port, ingress := req.ingress, lastUsed := c.now, id := c.free }
  -- DTLS_HANDSHAKE at a PLAIN port
  (∀ (req : Request) (ok : Bool), s.portSecurity req.ingress = 0 →
    exec (.dtlsHandshake t req ok) s = .next { c with qcp.counters := upd c.qcp.counters 1 sat32 }) ∧
  -- one that fails: source 110 for the first of a run
  (∀ req : Request, s.portSecurity req.ingress ≠ 0 →
    (s.qcp.dtlsFailRun = false → exec (.dtlsHandshake t req false) s = .next (State.raiseN { c with
      qcp.counters := upd c.qcp.counters 8 sat32, qcp.dtlsFailRun := true } 110 req.ingress.toNat)) ∧
    (s.qcp.dtlsFailRun = true →
      exec (.dtlsHandshake t req false) s = .next { c with qcp.counters := upd c.qcp.counters 8 sat32 })) ∧
  -- one that succeeds with fewer than eight held
  (∀ req : Request, s.portSecurity req.ingress ≠ 0 → s.qcp.associations.length < 8 →
    exec (.dtlsHandshake t req true) s = .next { c with
      free := c.free + 1, qcp.associations := c.qcp.associations ++ [fresh req], qcp.dtlsFailRun := false }) ∧
  -- a ninth, when every one has been used within 60 s, fails
  (∀ req : Request, s.portSecurity req.ingress ≠ 0 → 8 ≤ s.qcp.associations.length →
    (∀ a ∈ s.qcp.associations, c.now < a.lastUsed + 60 * second) → s.qcp.dtlsFailRun = true →
    exec (.dtlsHandshake t req true) s = .next { c with qcp.counters := upd c.qcp.counters 8 sat32 }) ∧
  -- QCP_SETTING_EFFECT
  (∀ (at_ : Nat) (a : QcpAddress), s.qcp.addressNext = some (at_, a) → at_ ≤ c.now → s.qcp.securityNext = none →
    exec (.qcpSettingEffect t) s = .next { c with qcp.address := a, qcp.addressNext := none }) ∧
  (∀ (at_ : Nat) (v : BitVec 8), s.qcp.securityNext = some (at_, v) → at_ ≤ c.now → s.qcp.addressNext = none →
    ∃ u, exec (.qcpSettingEffect t) s = .next u ∧ u.qcp.security = v ∧ u.qcp.securityNext = none ∧
      (∀ x ∈ u.qcp.subs, ¬ (x.dtls = none ∧ u.portSecurity x.ingress = 2)) ∧
      (∀ x ∈ s.qcp.subs, (x.dtls.isSome = true ∨ u.portSecurity x.ingress ≠ 2) → x ∈ u.qcp.subs) ∧ FrameBut [.qcp] c u) ∧
  -- nothing is due
  ((∀ at_ a, s.qcp.addressNext = some (at_, a) → c.now < at_) → (∀ at_ v, s.qcp.securityNext = some (at_, v) → c.now < at_) →
    exec (.qcpSettingEffect t) s = .next c)
/-! ## The incident recorder and the Caldera (spec/17_incident_recorder_and_trust.md) -/

/-- R595-R599, R602: what starts a flush, and what its end, the end of a window and the geyser leave. -/
def Obligations.FlushesCopyAndSeal : Prop := ∀ (s : State) (t : Nat),
  -- REC_CONTROL_FLUSH
  (∀ req : Request, Ready s t req 0x11 (writeBody (objId 0x0C 0 2) [1]) →
    let obj := objId 0x0C 0 2
    let w := s.atWrite t req obj [1]
    (w.recorder.lastFlushWrite = none → w.recorder.flushing = [] → w.recorder.window = none →
      exec (.recControlFlush t req) s =
        .next (State.wrote (State.startFlush { w with recorder.lastFlushWrite := some w.now } 3) req obj)) ∧
    (∀ a : Nat, w.recorder.lastFlushWrite = some a → w.now < a + 10 * second → exec (.recControlFlush t req) s =
      .next (((s.clock t).taken req 0x11 none).respond req 0x11 .busy (be32 obj ++ be32 0)))) ∧
  (Powered s →
    let c := s.clock t
    -- FLUSH_DONE, 0.32 us for each record after the flush began: every record of RAM is in the store, its block sealed; source 112
    -- tells the trigger and the number copied
    (∀ (trigger : BitVec 8) (rest : List (BitVec 8)), s.recorder.flushing = trigger :: rest →
      s.recorder.flushAt + 320 * s.recorder.uncopied.length ≤ c.now → ∃ v : State,
      exec (.flushDone t) s =
        .next (v.raiseN 112 trigger.toNat (some (v.recorder.stored.length - s.recorder.stored.length))) ∧
      (s.recorder.full = false → s.recorder.store.length + s.recorder.openBlock.length + s.recorder.uncopied.length < 8192 →
        v.recorder.stored = s.recorder.stored ++ s.recorder.uncopied ∧ v.recorder.lost = s.recorder.lost) ∧
      (s.recorder.full = true → v.recorder.lost = s.recorder.lost + s.recorder.uncopied.length) ∧
      (∀ x ∈ v.recorder.ram, x.2 = true) ∧ v.recorder.ram.map (·.1) = s.recorder.ram.map (·.1) ∧
      (s.recorder.full = false → v.recorder.openBlock = []) ∧ v.recorder.flushing = rest ∧
      (trigger = 1 → s.recorder.flushTail ≠ 0 → v.recorder.window = some (c.now + s.recorder.flushTail * second)) ∧
      FrameBut [.recorder] c v) ∧
    -- FLUSH_WINDOW_END seals the open block
    (∀ e : Nat, s.recorder.window = some e → e ≤ c.now → ∃ u : State, exec (.flushWindowEnd t) s = .next u ∧
      u.recorder.window = none ∧ u.recorder.openBlock = [] ∧ u.recorder.ram = s.recorder.ram ∧ FrameBut [.recorder, .hsk] c u) ∧
    -- nothing is due
    (s.recorder.flushing = [] → exec (.flushDone t) s = .next c) ∧
    (c.now < s.recorder.flushAt + 320 * s.recorder.uncopied.length → exec (.flushDone t) s = .next c) ∧
    -- GEYSER_DONE: the header is written, and on the holdup supply REC writes no more
    (s.recorder.geyserRunning = true → s.power.onHoldup = true → ∃ v : State, exec (.geyserDone t) s =
        .next (v.raiseN 112 2 (some (s.recorder.stored.length - s.recorder.geyserFrom))) ∧
      v.recorder.geyserRunning = false ∧ v.recorder.stopped = true ∧ v.recorder.openBlock = [] ∧ v.recorder.headerGeyser = 2) ∧
    -- REC_FULL is raised once
    (s.recorder.full = true → s.recorder.fullRaised = false →
      exec (.recFull t) s = .next (State.raise { c with recorder.fullRaised := true } 113)) ∧
    ((s.recorder.full = false ∨ s.recorder.fullRaised = true) → exec (.recFull t) s = .next c))

/-- R602, R603, R612: the Caldera signs in block order, and not at all while its entropy source is failed. -/
def Obligations.SealsAreSignedInOrder : Prop := ∀ (s : State) (t : Nat), Powered s →
  let c := s.clock t
  -- SEAL_SIGNED: the first unsigned seal, of which nothing else changes
  (∀ (i : Nat) (b : Seal), s.trust.entropyFail = false → s.recorder.geyserRunning = false → s.recorder.stopped = false →
    s.recorder.seals[i]? = some b → b.signState = 0 → (∀ j < i, ∀ x, s.recorder.seals[j]? = some x → x.signState ≠ 0) →
    ∃ (v : State) (sig : List Byte), exec (.sealSigned t) s = .next (v.raiseN 115 b.blockSeq) ∧
      v.recorder.seals = s.recorder.seals.set i { b with
        sig := sig, signState := if i < s.recorder.sealsAtStart then 2 else 1 } ∧
      sig.length = 96 ∧ v.recorder.store = s.recorder.store ∧ FrameBut [.recorder, .free] c v) ∧
  -- with none unsigned, with the entropy source failed, while the geyser has the store or after it, nothing is signed
  ((∀ x ∈ s.recorder.seals, x.signState ≠ 0) → exec (.sealSigned t) s = .next c) ∧
  ((s.trust.entropyFail = true ∨ s.recorder.geyserRunning = true ∨ s.recorder.stopped = true) → exec (.sealSigned t) s = .next c) ∧
  -- ENTROPY_FAIL and ENTROPY_PASS
  exec (.entropyFail t) s = .next { c with trust.entropyFail := true } ∧
  exec (.entropyPass t) s = .next { c with trust.entropyFail := false }

/-- R604-R606, R573: the store is read, and emptied only by the hash of its newest seal. -/
def Obligations.TheStoreIsReadAndRearmed : Prop := ∀ (s : State) (t : Nat) (req : Request),
  -- REC_READ
  (∀ (first : Word) (count : BitVec 8), Ready s t req 0x31 (be32 first ++ be8 count ++ zeros 3) →
    let w := (s.clock t).taken req 0x31 none
    let limit := if req.dtls.isSome then 43 else 44
    let head := w.recorder.headTail.1
    let xs := (w.recorder.stored.dropWhile fun x => decide ((x.seq - head).toNat < (first - head).toNat)).take count.toNat
    (1 ≤ count.toNat → count.toNat ≤ limit → exec (.recRead t req first count) s = .next (w.respond req 0x31 .ok
      (be32 head ++ be32 w.recorder.headTail.2 ++ nat32 w.recorder.lost ++ nat16 xs.length ++ zeros 2 ++ xs.flatMap Record.bytes))) ∧
    ((count = 0 ∨ limit < count.toNat) → exec (.recRead t req first count) s = .next (w.respond req 0x31 .badValue []))) ∧
  -- REC_REARM
  (∀ hash : List Byte, Ready s t req 0x11 (writeBody (objId 0x0C 0 3) hash) →
    let obj := objId 0x0C 0 3
    let w := s.atWrite t req obj hash
    let no (st : Status) : Out := .next (((s.clock t).taken req 0x11 none).respond req 0x11 st (be32 obj ++ be32 0))
    (w.recorder.seals = [] → exec (.recRearm t req hash) s = no .badValue) ∧
    (∀ newest : Seal, w.recorder.seals.getLast? = some newest →
      (hash ≠ newest.hash → exec (.recRearm t req hash) s = no .badValue) ∧
      (hash = newest.hash → (w.recorder.flushing ≠ [] ∨ w.recorder.window.isSome = true ∨ ∃ x ∈ w.recorder.seals, x.signState = 0) →
        exec (.recRearm t req hash) s = no .busy) ∧
      (hash = newest.hash → w.recorder.flushing = [] → w.recorder.window = none → (∀ x ∈ w.recorder.seals, x.signState ≠ 0) →
        ∃ e : State, e.recorder.store = [] ∧ e.recorder.seals = [] ∧ e.recorder.openBlock = [] ∧ e.recorder.full = false ∧
          e.recorder.lost = 0 ∧ e.recorder.rearms = w.recorder.rearms + 1 ∧ e.recorder.rearmFirst = true ∧
          e.recorder.ram = w.recorder.ram ∧ e.recorder.chainHash = w.recorder.chainHash ∧ e.qcp.sources = [] ∧
          FrameBut [.recorder, .qcp] w e ∧
          exec (.recRearm t req hash) s = .next (State.wrote (State.startFlush (State.raise (e.record 0x0004 0x0C
            (BitVec.ofNat 32 w.recorder.lost) (BitVec.ofNat 32 newest.blockSeq) (BitVec.ofNat 32 w.recorder.stored.length) 0 e.tb3 true)
            114) 4) req obj))))

/-- R608, R609, R611, R565, R574: keys are enrolled in CONFIG alone, each by the owner's signature; an attestation is deferred, and its
answer begins with the nonce. -/
def Obligations.KeysAndAttestation : Prop := ∀ (s : State) (t : Nat) (req : Request),
  -- ENROL
  (∀ body : List Byte, Ready s t req 0x33 body →
    let w := (s.clock t).taken req 0x33 (some (0, []))
    let no (st : Status) : Out := .next (((s.clock t).taken req 0x33 none).respond req 0x33 st [])
    let key := sliceAt body 4 97
    let formed : Prop := body.length = 252 ∧ fieldAt body 104 4 = w.trust.enrolCount.toNat ∧ zeroAt body 1 3 = true ∧
      zeroAt body 101 3 = true ∧ zeroAt body 108 48 = true
    let enrolled : Prop := ∃ u : State, exec (.enrol t req body) s = .next u ∧
      Answered u req 0x33 .ok (sha384 key ++ be32 (w.trust.enrolCount + 1)) ∧
      u.trust = { w.trust with ownerKey := some key, enrolCount := w.trust.enrolCount + 1 }
    (w.modes.mode ≠ .config → exec (.enrol t req body) s = no .wrongMode) ∧
    (w.modes.mode = .config → w.trust.entropyFail = true → exec (.enrol t req body) s = no .busy) ∧
    -- the first owner key: a point on the curve, or BAD_VALUE
    (w.modes.mode = .config → w.trust.entropyFail = false → fieldAt body 0 1 = 1 → formed → zeroAt body 156 96 = true →
      w.trust.ownerKey = none →
      if (curvePointOf key).isSome = true then enrolled else exec (.enrol t req body) s = no .badValue) ∧
    -- a change of owner that the owner has signed, or has not
    (∀ owner : List Byte, w.modes.mode = .config → w.trust.entropyFail = false → fieldAt body 0 1 = 2 → formed →
      w.trust.ownerKey = some owner →
      if (curvePointOf key).isNone = true then exec (.enrol t req body) s = no .badValue
      else if ecdsaVerify owner (sha384 (body.take 156 ++ be64 w.factory.serial)) (sliceAt body 156 96) = true then enrolled
      else exec (.enrol t req body) s = no .notSigned)) ∧
  -- ATTEST
  (∀ nonce : List Byte, Ready s t req 0x32 nonce →
    let w := (s.clock t).taken req 0x32 none
    (nonce.length = 32 → nonce.any (· != 0) = true → s.qcp.deferredAttest = none → exec (.attest t req nonce) s = .next { w with
      qcp.deferredAttest := some { req := req, opcode := 0x32, body := nonce },
      qcp.deferredAt := (w.qcp.deferredAt.1, w.now), qcp.deferredTb3 := (w.qcp.deferredTb3.1, w.tb3) }) ∧
    ((nonce.length ≠ 32 ∨ nonce.all (· == 0) = true) →
      exec (.attest t req nonce) s = .next (w.respond req 0x32 .badValue [])) ∧
    (nonce.length = 32 → nonce.any (· != 0) = true → s.qcp.deferredAttest.isSome = true →
      exec (.attest t req nonce) s = .next (w.respond req 0x32 .busy []))) ∧
  -- ATTEST_DONE
  (Running s → ∀ k : Command, s.qcp.deferredAttest = some k → s.trust.entropyFail = false →
    (s.clock t).now ≤ s.qcp.deferredAt.2 + 100 * ms →
    ∃ (u : State) (sig : List Byte), exec (.attestDone t) s = .next u ∧ sig.length = 96 ∧
      Answered u k.req 0x32 .ok ((s.clock t).attestation k.body ++ sig) ∧ u.trust = s.trust)
/-! ## Ageing, margins and the field update (spec/18_ageing_and_field_update.md) -/

/-- R616, R617, R621: a sample advances the equivalent age by 60 s at the baseplate temperature, and enters the day. -/
def Obligations.MonitorsAreSampled : Prop := ∀ (s : State) (t : Nat), Powered s →
  let c := s.clock t
  -- FUMAROLE_SAMPLE, once in each 60 s of TB0, at the baseplate temperature that AUX7 reads
  (∀ slacks others : List (Option F32), c.now / (60 * second) ≤ s.hsk.sampledAt → exec (.fumaroleSample t slacks others) s = .next c) ∧
  (∀ slacks others : List (Option F32), s.hsk.sampledAt < c.now / (60 * second) →
    let reading (n : Nat) : Option F32 := if n < 12 then slacks.getD n none else others.getD (n - 12) none
    ∃ u : State, exec (.fumaroleSample t slacks others) s = .next u ∧
    u.hsk.sampledAt = c.now / (60 * second) ∧ u.hsk.aEq = F64.add s.hsk.aEq (ageStep c.ain.channels[23].value) ∧
    u.hsk.poweredTime = s.hsk.poweredTime + 60 ∧
    (∀ (n : Fin 24) (v : F32), n.val ≠ 0x10 → n.val ≠ 0x17 → reading n = some v →
      u.hsk.monitors[n] = { s.hsk.monitors[n] with
        today := s.hsk.monitors[n].today ++ [v], present := v, lastAt := c.now / second }) ∧
    (∀ n : Fin 24, n.val ≠ 0x17 → reading n = none → u.hsk.monitors[n] = s.hsk.monitors[n]) ∧
    -- the oscillator's rate is a sample only while TB2 is LOCKED
    ((c.time.tb[2]).state ≠ 2 → u.hsk.monitors[(0x10 : Fin 24)] = s.hsk.monitors[(0x10 : Fin 24)] ∧
      u.hsk.oscPoints = s.hsk.oscPoints) ∧
    FrameBut ([.hsk] ++ reportParts) c u) ∧
  -- LEDGER_DAILY: the day's age joins the history, the day's samples are spent, no coefficient falls below the factory's
  (c.now / (86400 * second) ≤ s.hsk.dayAt → exec (.ledgerDaily t) s = .next c) ∧
  (s.hsk.dayAt < c.now / (86400 * second) → ∃ u : State, exec (.ledgerDaily t) s = .next u ∧
    u.hsk.dayAt = c.now / (86400 * second) ∧ u.hsk.aEqDays = (s.hsk.aEq :: s.hsk.aEqDays).take 365 ∧
    (∀ n : Fin 24, u.hsk.monitors[n].today = []) ∧ u.hsk.aEq = s.hsk.aEq ∧ u.hsk.poweredTime = s.hsk.poweredTime ∧
    FrameBut ([.hsk] ++ reportParts) c u) ∧
  -- MRAM_REFRESH: block by block, and not while a flush or the geyser has the store
  (s.power.noNvWrites = false → s.recorder.flushing = [] → s.recorder.geyserRunning = false →
    -- the interval has passed since the last one began, or has not
    (s.hsk.mramBlock = none → (∀ a : Nat, s.hsk.mramStart = some a → a + s.hsk.mramInterval * 86400 * second ≤ c.tb3) →
      exec (.mramRefresh t) s = .next { c with hsk.mramBlock := some 0, hsk.mramStart := some c.tb3, hsk.mramAt := c.now }) ∧
    (∀ a : Nat, s.hsk.mramBlock = none → s.hsk.mramStart = some a → c.tb3 < a + s.hsk.mramInterval * 86400 * second →
      exec (.mramRefresh t) s = .next c) ∧
    -- block by block, 10 ms apart
    (∀ b : Nat, s.hsk.mramBlock = some b → c.now < s.hsk.mramAt + 10 * ms → exec (.mramRefresh t) s = .next c) ∧
    (∀ b : Nat, s.hsk.mramBlock = some b → s.hsk.mramAt + 10 * ms ≤ c.now → b + 1 < 8192 →
      exec (.mramRefresh t) s = .next { c with hsk.mramBlock := some (b + 1), hsk.mramAt := c.now }) ∧
    (∀ b : Nat, s.hsk.mramBlock = some b → s.hsk.mramAt + 10 * ms ≤ c.now → 8191 ≤ b →
      exec (.mramRefresh t) s = .next { c with hsk.mramBlock := none, hsk.mramLast := c.tb3 })) ∧
  ((s.power.noNvWrites = true ∨ s.recorder.flushing ≠ [] ∨ s.recorder.geyserRunning = true) →
    exec (.mramRefresh t) s = .next c)

/-- R622, R627-R629, R640: a bin rises and falls by one step at a time, inside its envelope but for an island that would stop. -/
def Obligations.ClockBinsStepInsideTheirEnvelope : Prop := ∀ (s : State) (t : Nat),
  (Powered s → ∀ (i : Fin 12) (x : F32),
    let c := s.clock t
    let b := s.hsk.bins[i]
    let measured := b.measure c.now s.hsk.aEq x
    -- BIN_RAISE
    (F32.lt x (F32.ofNat 10) = true → b.bin < b.binMax → exec (.binRaise t i x) s = .next { c with
      hsk.bins := c.hsk.bins.set i { measured with bin := b.bin + 1, atLimit := false } }) ∧
    -- at BIN_MAX the loop reports its limit once
    (F32.lt x (F32.ofNat 10) = true → F32.lt x (F32.ofNat 5) = false → b.binMax ≤ b.bin → b.atLimit = false →
      exec (.binRaise t i x) s = .next (State.binLimit { c with
        hsk.bins := c.hsk.bins.set i { measured with atLimit := true } } i false true)) ∧
    (F32.lt x (F32.ofNat 10) = true → F32.lt x (F32.ofNat 5) = false → b.binMax ≤ b.bin → b.atLimit = true →
      exec (.binRaise t i x) s = .next { c with hsk.bins := c.hsk.bins.set i measured }) ∧
    -- below 5 % of slack the bin crosses it, and the limit says so
    (F32.lt x (F32.ofNat 10) = true → F32.lt x (F32.ofNat 5) = true → b.binMax ≤ b.bin → b.bin < 15 →
      exec (.binRaise t i x) s = .next (State.binLimit { c with
        hsk.bins := c.hsk.bins.set i { measured with bin := b.bin + 1, crossed := true, atLimit := true } } i true true)) ∧
    -- at bin 15 the island's monitor is OUT
    (F32.lt x (F32.ofNat 10) = true → F32.lt x (F32.ofNat 5) = true → b.binMax ≤ b.bin → 15 ≤ b.bin →
      exec (.binRaise t i x) s = .next (State.ageingMargin { c with
        hsk.bins := c.hsk.bins.set i measured, hsk.monitors := upd c.hsk.monitors i fun m => { m with state := 4 } } i
          (at? c.hsk.monitors i).state)) ∧
    -- with slack enough it stays
    (F32.lt x (F32.ofNat 10) = false → exec (.binRaise t i x) s = .next { c with hsk.bins := c.hsk.bins.set i measured }) ∧
    -- BIN_LOWER, when the slack has been above 18 % for 24 h
    (∀ a : Nat, F32.lt (F32.ofNat 18) x = true → b.aboveSince = some a → a + 86400 * second ≤ c.now →
      (b.binMin < b.bin → exec (.binLower t i x) s = .next { c with
        hsk.bins := c.hsk.bins.set i { measured with
          bin := b.bin - 1, aboveSince := none, atLimit := false, crossed := b.crossed && decide (b.binMax < b.bin - 1) } }) ∧
      (b.bin ≤ b.binMin → b.atLimit = false → exec (.binLower t i x) s = .next (State.binLimit { c with
        hsk.bins := c.hsk.bins.set i { measured with atLimit := true } } i false false))) ∧
    ((F32.lt (F32.ofNat 18) x = false ∨ b.aboveSince = none ∨ ∃ a : Nat, b.aboveSince = some a ∧ c.now < a + 86400 * second) →
      exec (.binLower t i x) s = .next { c with hsk.bins := c.hsk.bins.set i measured })) ∧
  -- BIN_ENVELOPE
  (∀ (req : Request) (i : Fin 12) (v : BitVec 16),
    let obj := objId 0x0E (0x40 + binIslands.getD i.val 0) 1
    Ready s t req 0x11 (writeBody obj (be16 v)) →
    let w := s.atWrite t req obj (be16 v)
    let lo := v.toNat / 256
    let hi := v.toNat % 256
    (hi ≤ 15 → lo ≤ hi → exec (.binEnvelope t req i v) s = .next (State.wrote { w with
      hsk.bins := upd w.hsk.bins i fun b => { b with binMin := lo, binMax := hi } } req obj)) ∧
    ((15 < hi ∨ hi < lo) → exec (.binEnvelope t req i v) s =
      .next (((s.clock t).taken req 0x11 none).respond req 0x11 .badValue (be32 obj ++ be32 0))))

/-- R630-R634: a transfer opens or is resumed, takes its chunks in parts, and ends STAGED or CORRUPT. -/
def Obligations.TransfersTakeTheirChunks : Prop := ∀ (s : State) (t : Nat) (req : Request),
  let c := s.clock t
  -- UPDATE_OPEN of an extension image
  (∀ id len crc : Word, Ready s t req 0x40 (be8 1 ++ zeros 3 ++ be32 id ++ be32 len ++ be32 crc) → len ≠ 0 → id ≠ 0 →
    len.toNat ≤ 32 * 2 ^ 20 →
    let w := c.taken req 0x40 (some (0, []))
    let x := w.update.ext
    let chunks := (len.toNat + 4095) / 4096
    -- resumed, when ID, LENGTH and CRC are the transfer's own
    (w.update.activation = none → x.id = id → x.length = len.toNat → x.crc = crc → x.state ≠ 4 →
      exec (.updateOpen t req 1 id len crc) s = .next (State.respond
        { w with update.ext := if x.state = 2 then { x with state := 1 } else x } req 0x40 .ok
        (nat32 chunks ++ nat32 x.chunks.length ++ [1] ++ zeros 3))) ∧
    -- begun anew, which discards the fallback image
    (w.update.activation = none → (x.id ≠ id ∨ x.length ≠ len.toNat ∨ x.crc ≠ crc ∨ x.state = 4) →
      exec (.updateOpen t req 1 id len crc) s = .next (State.respond { w with
        update.ext := { id := id, length := len.toNat, crc := crc, state := 1 },
        update.area := w.update.area.filter (fun e => e.target != 1), update.fallback := none, update.activation := none } req 0x40 .ok
        (nat32 chunks ++ nat32 0 ++ [0] ++ zeros 3)))) ∧
  -- one that is too long
  (∀ (target : BitVec 8) (id len crc : Word), Ready s t req 0x40 (be8 target ++ zeros 3 ++ be32 id ++ be32 len ++ be32 crc) →
    (target = 1 ∨ target = 2) → id ≠ 0 → largestImage target.toNat < len.toNat →
    exec (.updateOpen t req target id len crc) s = .next ((c.taken req 0x40 none).respond req 0x40 .noSpace [])) ∧
  -- UPDATE_CHUNK of one part, which holds the whole chunk of an extension image
  (∀ (id chunk crc : Word) (data : List Byte),
    Ready s t req 0x41 (be32 id ++ be32 chunk ++ be8 0 ++ be8 1 ++ nat16 data.length ++ be32 crc ++ data) →
    let w := c.taken req 0x41 (some (0, []))
    let x := w.update.ext
    let mine (e : PartsEntry) : Bool := e.target == 1 && e.chunk == chunk.toNat
    x.id = id → id ≠ 0 → x.state ≠ 2 → chunk.toNat < x.total → x.sizeOf chunk.toNat = data.length → 1 ≤ data.length →
    data.length ≤ 1024 →
    -- already written
    (x.has chunk.toNat = true → exec (.updateChunk t req id chunk 0 1 crc data) s = .next (w.respond req 0x41 .ok
      (be32 id ++ be32 chunk ++ [2] ++ zeros 3 ++ nat32 x.chunks.length))) ∧
    -- with a CRC that does not match: nothing of it is kept
    (x.has chunk.toNat = false → w.update.area.any mine = false → crc32c data ≠ crc →
      exec (.updateChunk t req id chunk 0 1 crc data) s = .next (State.respond w req 0x41 .ok
        (be32 id ++ be32 chunk ++ [3] ++ zeros 3 ++ nat32 x.chunks.length))) ∧
    -- whole and right: it waits to be written
    (x.has chunk.toNat = false → w.update.area.any mine = false → crc32c data = crc → w.update.area.length < 32 →
      exec (.updateChunk t req id chunk 0 1 crc data) s = .next (State.respond { w with
        update.area := w.update.area ++ [{ target := 1, chunk := chunk.toNat, crc := crc, count := 1, parts := [(0, data)],
                                           startedAt := w.now }] } req 0x41 .ok
        (be32 id ++ be32 chunk ++ [1] ++ zeros 3 ++ nat32 (x.chunks.length + 1))))) ∧
  -- CHUNK_WRITTEN before the last chunk of an extension image: source 118, and the chunk is marked
  (Running s → ∀ (chunk : Nat) (e : PartsEntry),
    (s.update.area.find? fun e => e.target == 1 && e.chunk == chunk && e.whole) = some e → s.power.noNvWrites = false →
    s.update.ext.state ≠ 2 →
    let x : Transfer := { s.update.ext with chunks := s.update.ext.chunks ++ [(chunk, e.data)] }
    let v : State := { c with
      update.area := c.update.area.filter (fun e => !(e.target == 1 && e.chunk == chunk)), update.ext := x }
    (x.chunks.length < x.total → exec (.chunkWritten t false chunk) s = .next (v.raiseN 118 1 (some chunk) (some x.chunks.length))) ∧
    -- the last one: the image's CRC decides
    (x.total ≤ x.chunks.length → (crc32c x.image = x.crc →
        ∃ u : State, exec (.chunkWritten t false chunk) s = .next u ∧ u.update.ext = { x with state := 3 }) ∧
      (crc32c x.image ≠ x.crc → ∃ u : State, exec (.chunkWritten t false chunk) s = .next u ∧ u.update.ext = { x with state := 4 }))) ∧
  -- CHUNK_PARTS_EXPIRY
  (Running s → exec (.chunkPartsExpiry t) s = .next { c with
    update.area := c.update.area.filter fun e => !(!e.whole && decide (e.startedAt + 60 * second ≤ c.now)) })

/-- R634, R637, R638: a transfer is queried, and an activation is judged; one during operation is followed by a restart with state
handover. -/
def Obligations.UpdatesAreQueriedAndActivated : Prop := ∀ (s : State) (t : Nat) (req : Request),
  let c := s.clock t
  -- UPDATE_QUERY
  (∀ (target : BitVec 8) (first : Word), Ready s t req 0x42 (be8 target ++ zeros 3 ++ be32 first) →
    let w := c.taken req 0x42 (some (0, []))
    let x := w.update.transfer target.toNat
    ((target = 1 ∨ target = 2) → first.toNat % 8 = 0 → exec (.updateQuery t req target first) s = .next (w.respond req 0x42 .ok
      (be32 x.id ++ nat32 x.length ++ be32 x.crc ++ nat32 x.total ++ nat32 x.doneCount ++ nat8 (w.update.shown target.toNat) ++
        zeros 3 ++ nat32 first.toNat ++
        (List.range (min 1024 ((x.total - first.toNat + 7) / 8))).map fun i => x.bitmapByte (first.toNat + 8 * i)))) ∧
    (((target ≠ 1 ∧ target ≠ 2) ∨ first.toNat % 8 ≠ 0) →
      exec (.updateQuery t req target first) s = .next ((c.taken req 0x42 none).respond req 0x42 .badValue []))) ∧
  -- UPDATE_ACTIVATE of the STAGED image
  (∀ (when_ : BitVec 8) (id crc : Word), Ready s t req 0x43 (be8 1 ++ be8 0 ++ be8 when_ ++ [0] ++ be32 id ++ be32 crc) →
    let w := c.taken req 0x43 (some (0, []))
    let no (st : Status) : Out := .next ((c.taken req 0x43 none).respond req 0x43 st [])
    let staged : Prop := w.update.ext.state = 3 ∧ w.update.ext.id = id ∧ w.update.ext.crc = crc
    (¬ staged → exec (.updateActivate t req 1 0 when_ id crc) s = no .badValue) ∧
    (staged → when_ = 1 → exec (.updateActivate t req 1 0 when_ id crc) s =
      .next (State.respond { w with update.activation := some (false, false) } req 0x43 .ok [])) ∧
    (staged → when_ = 0 → w.modes.restartPending ≠ some .update → exec (.updateActivate t req 1 0 when_ id crc) s =
      .next (State.respond { w with update.activation := none } req 0x43 .ok [])) ∧
    (staged → when_ = 2 → w.imageState ≠ 1 → exec (.updateActivate t req 1 0 when_ id crc) s = no .wrongMode) ∧
    (staged → when_ = 2 → w.imageState = 1 → (∀ m ∈ w.contacts, m ∈ w.inStepPeers) →
      (ExtImage.bytes w.update.ext.image).retains = true → exec (.updateActivate t req 1 0 when_ id crc) s =
        .next (State.respond (State.planRestart { w with update.activation := some (false, true) } .update) req 0x43 .ok [])) ∧
    (staged → when_ = 2 → w.imageState = 1 → (∀ m ∈ w.contacts, m ∈ w.inStepPeers) →
      (ExtImage.bytes w.update.ext.image).retains = false →
      exec (.updateActivate t req 1 0 when_ id crc) s = no .version))
/-! ## The panel (spec/19_front_panel_display.md) -/

/-- R656, R657, R659, R660: the four panel objects a host writes, taken at once and answered OK. -/
def Obligations.PanelObjectsTakeWrites : Prop := ∀ (s : State) (t : Nat) (req : Request), s.factory.optP = true →
  -- PNL_REFRESH: both repaints are queued
  (Ready s t req 0x11 (writeBody (objId 0xF 0 6) [1]) →
    let w := s.atWrite t req (objId 0xF 0 6) [1]
    exec (.pnlRefresh t req) s = .next (State.wrote { w with
      panel.repaintGrey := some { x := 0, y := 40, w := 400, h := 260, grey := true, repaint := true },
      panel.repaintMono := some { x := 0, y := 0, w := 400, h := 40, grey := false, repaint := true },
      panel.repaintPending := true } req (objId 0xF 0 6))) ∧
  -- PNL_VCOM: in IDLE, CONFIG or TEST, from -3.00 V to 0 in steps of 10 mV, it waits for the rails
  (∀ v : BitVec 16, Ready s t req 0x11 (writeBody (objId 0xF 0 2) (be16 v)) →
    (s.modes.mode = .idle ∨ s.modes.mode = .config ∨ s.modes.mode = .test) → -3000 ≤ v.toInt → v.toInt ≤ 0 → v.toInt % 10 = 0 →
    let w := s.atWrite t req (objId 0xF 0 2) (be16 v)
    exec (.pnlVcom t req v) s = .next (State.wrote { w with panel.vcomNext := some v.toInt } req (objId 0xF 0 2))) ∧
  -- PNL_CHECK: while a waveform runs, the check waits
  (∀ v : Word, Ready s t req 0x11 (writeBody (objId 0xF 0 3) (be32 v)) → s.panel.flight ≠ [] →
    let w := s.atWrite t req (objId 0xF 0 3) (be32 v)
    exec (.pnlCheck t req v) s =
      .next (State.wrote { w with panel.checkPending := w.panel.checkPending ++ [some v] } req (objId 0xF 0 3))) ∧
  -- PNL_CHECK with none in flight and a match: CRC_FAIL clears
  (∀ v : Word, Ready s t req 0x11 (writeBody (objId 0xF 0 3) (be32 v)) → s.panel.flight = [] → s.panel.checkPending = [] →
    Memory.crc s.panel.frame = v →
    let w := s.atWrite t req (objId 0xF 0 3) (be32 v)
    exec (.pnlCheck t req v) s =
      .next (State.wrote { w with panel.crcLast := v, panel.crcCompared := v, panel.crcAt := w.tb3, panel.crcFail := false } req
        (objId 0xF 0 3))) ∧
  -- PNL_DRAW: a well-formed request outside the layout, whose rectangle no queued request has, joins the queue's tail
  (∀ (v : List Byte) (r : PnlRequest), Ready s t req 0x11 (writeBody (objId 0xF 0 1) v) → drawRequest v = some r →
    (∀ l ∈ s.layout, (layoutRect l).overlaps r = false) → (∀ q ∈ s.panel.queue, q.sameRect r = false) →
    s.panel.queue.length < 16 →
    let w := s.atWrite t req (objId 0xF 0 1) v
    exec (.pnlDraw t req v) s = .next (State.wrote { w with panel.queue := w.panel.queue ++ [r] } req (objId 0xF 0 1)))

/-- R644, R646, R647, R650: a waveform starts where nothing that overlaps it runs or waits ahead of it, and its content enters
frame memory when it ends; the rails follow what is ready to start. -/
def Obligations.PanelWaveformsStartAndEnd : Prop := ∀ (s : State) (t : Nat), Powered s → s.factory.optP = true →
  let c := s.clock t
  -- WAVEFORM_START of the queued request i
  (∀ (i : Fin 18) (r : PnlRequest), i.val < 16 → s.panel.railsOn = true → s.panel.queue[i.val]? = some r →
    s.panel.flight.length < 4 → (∀ w ∈ s.panel.flight, w.req.overlaps r = false) →
    (∀ q ∈ s.panel.repaintGrey.toList ++ s.panel.repaintMono.toList ++ s.panel.queue.take i.val, q.overlaps r = false) →
    s.panel.deferred = false → s.panel.checkPending = [] →
    exec (.waveformStart t i) s = .next { c with
      panel.queue := c.panel.queue.eraseIdx i.val, panel.idleSince := none,
      panel.flight := c.panel.flight ++
        [{ req := r, band := bandOf c.panel.temp, startedAt := c.now,
           endsAt := c.now + waveformMs r.grey (bandOf c.panel.temp) * ms }] }) ∧
  -- WAVEFORM_END of a request of a host or of the layout, while another runs on
  (∀ (i : Fin 4) (w : Waveform), s.panel.flight[i.val]? = some w → w.endsAt ≤ c.now → w.req.repaint = false →
    s.panel.flight.eraseIdx i.val ≠ [] →
    exec (.waveformEnd t i) s = .next { c with
      panel.frame := Memory.paint c.panel.frame w.req (fun _ j => w.req.level j),
      panel.image := Memory.paint c.panel.image w.req (fun _ j => w.req.level j),
      panel.flight := c.panel.flight.eraseIdx i.val, panel.idleSince := none,
      panel.counters := upd c.panel.counters 0 sat32 }) ∧
  -- RAILS_ON: a request is ready; PNL_VCOM takes effect
  (s.panel.railsOn = false → s.panel.anyReady = true →
    exec (.railsOn t) s = .next { c with panel.railsOn := true, panel.vcom := c.panel.vcomNext.getD c.panel.vcom,
                                         panel.vcomNext := none, panel.idleSince := some c.now }) ∧
  -- RAILS_OFF: nothing has run nor been ready for 100 ms
  (∀ a : Nat, s.panel.railsOn = true → s.panel.flight = [] → s.panel.anyReady = false → s.panel.idleSince = some a →
    a + 100 * ms ≤ c.now → exec (.railsOff t) s = .next { c with panel.railsOn := false, panel.idleSince := none })

/-- R648, R652, R659: rail faults, the panel's temperature and the 60 s check. -/
def Obligations.PanelSupervision : Prop := ∀ (s : State) (t : Nat), Powered s → s.factory.optP = true →
  let c := s.clock t
  -- RAIL_FAULT: every waveform stops, the rails go off, a repaint waits, source 127 tells cause 3
  (s.panel.railsOn = true → s.panel.railFaultAt = none →
    exec (.railFault t) s = .next (State.panelDeferred { c with
      panel.flight := [], panel.railsOn := false, panel.idleSince := none, panel.repaintGrey := some repaintMain,
      panel.repaintMono := some repaintStrip, panel.repaintPending := true, panel.railFault := true,
      panel.railFaultAt := some c.now, panel.counters := upd c.panel.counters 3 sat32 } true 3)) ∧
  -- a second one within 60 s locks updates
  (∀ a : Nat, s.panel.railsOn = true → s.panel.railFaultAt = some a → c.now < a + 60 * second →
    exec (.railFault t) s = .next (State.panelDeferred { c with
      panel.flight := [], panel.railsOn := false, panel.idleSince := none, panel.repaintGrey := some repaintMain,
      panel.repaintMono := some repaintStrip, panel.repaintPending := true, panel.railFault := true, panel.railLocked := true,
      panel.railFaultAt := some c.now, panel.counters := upd c.panel.counters 3 sat32 } true 3)) ∧
  -- RAIL_RETRY: one second after the fault
  (∀ a : Nat, s.panel.railFault = true → s.panel.railLocked = false → s.panel.railFaultAt = some a → a + second ≤ c.now →
    exec (.railRetry t) s = .next (State.panelDeferred { c with panel.railFault := false } false 3)) ∧
  -- PANEL_TEMPERATURE, each 1 s
  (∀ k : Int, s.panel.tempRead = true → c.now < s.panel.tempAt + second → exec (.panelTemperature t k) s = .next c) ∧
  -- within the limits, with nothing deferred: only the reading changes
  ((s.panel.tempRead = true → s.panel.tempAt + second ≤ c.now) →
  (∀ k : Int, 0 ≤ k → k < 5000 → s.panel.deferred = false →
    exec (.panelTemperature t k) s = .next { c with panel.temp := k, panel.tempRead := true, panel.tempAt := c.now }) ∧
  -- below 0.0 degrees updates are deferred, and from 1.0 degree they resume
  (∀ k : Int, k < 0 → s.panel.deferredCold = false → s.panel.deferredHot = false → s.panel.flight ≠ [] →
    exec (.panelTemperature t k) s =
      .next (State.panelDeferred { c with panel.temp := k, panel.tempRead := true, panel.tempAt := c.now, panel.deferredCold := true } true 1)) ∧
  (∀ k : Int, 100 ≤ k → k < 5000 → s.panel.deferredCold = true → s.panel.deferredHot = false → s.panel.flight ≠ [] →
    exec (.panelTemperature t k) s =
      .next (State.panelDeferred { c with panel.temp := k, panel.tempRead := true, panel.tempAt := c.now, panel.deferredCold := false } false 1)) ∧
  -- at 50.0 degrees updates are deferred
  (∀ k : Int, 5000 ≤ k → s.panel.deferredCold = false → s.panel.deferredHot = false → s.panel.flight ≠ [] →
    exec (.panelTemperature t k) s =
      .next (State.panelDeferred { c with panel.temp := k, panel.tempRead := true, panel.tempAt := c.now, panel.deferredHot := true } true 2))) ∧
  -- PANEL_CRC_CHECK, once in each 60 s of TB0: with no waveform in flight, a difference sets CRC_FAIL and REPAINT_PENDING and raises source 126
  (c.now / (60 * second) ≤ s.panel.crcPeriod → exec (.panelCrcCheck t) s = .next c) ∧
  (s.panel.crcPeriod < c.now / (60 * second) → s.panel.flight = [] → s.panel.checkPending = [] → Memory.crc s.panel.frame ≠ Memory.crc s.panel.image →
    exec (.panelCrcCheck t) s = .next (State.raise { c with
      panel.crcLast := Memory.crc s.panel.frame, panel.crcCompared := Memory.crc s.panel.image, panel.crcAt := c.tb3, panel.crcPeriod := c.now / (60 * second),
      panel.repaintGrey := some repaintMain, panel.repaintMono := some repaintStrip, panel.repaintPending := true,
      panel.crcFail := true, panel.counters := upd c.panel.counters 4 sat32 } 126 (some (Memory.crc s.panel.frame))
        (some (Memory.crc s.panel.image))))


/-- R644, R645, R660: frame memory, read a pixel at a time: what a waveform writes is read back, every other pixel reads as before, and
the memory keeps its canonical form. -/
def Obligations.FrameMemoryIsWrittenByRectangle : Prop := ∀ (m : List Host.Cell) (r : PnlRequest) (level : Nat → Nat → Byte),
  Memory.wf m = true → r.x + r.w ≤ 400 → r.y + r.h ≤ 300 →
  -- the canonical form is kept
  Memory.wf (Memory.paint m r level) = true ∧
  -- a pixel of the rectangle reads the level written
  (∀ i j : Nat, i < r.h → j < r.w → Memory.get (Memory.paint m r level) ((r.y + i) * 400 + r.x + j) =
    level ((r.y + i) * 400 + r.x + j) (i * r.w + j)) ∧
  -- every other pixel reads as before
  (∀ a : Nat, (∀ i j : Nat, i < r.h → j < r.w → a ≠ (r.y + i) * 400 + r.x + j) →
    Memory.get (Memory.paint m r level) a = Memory.get m a) ∧
  -- equal readings are equal memories
  (∀ m' : List Host.Cell, Memory.wf m' = true → (∀ a : Nat, Memory.get m a = Memory.get m' a) → m = m') ∧
  -- the end of a waveform, the one command that writes it, keeps the form of both memories
  (∀ (s : State) (t : Nat) (i : Fin 4), Memory.wf s.panel.frame = true → Memory.wf s.panel.image = true →
    ∃ u : State, exec (.waveformEnd t i) s = .next u ∧
      ((∀ w ∈ s.panel.flight, w.req.x + w.req.w ≤ 400 ∧ w.req.y + w.req.h ≤ 300) →
        Memory.wf u.panel.frame = true ∧ Memory.wf u.panel.image = true))
end

