-- ==== Sys2Proof/Laws/Bytes.lean ====
section
/-! SUPPORT. What the big-endian fields of an operand read back as. -/

namespace Sys2Proof.Machine

@[simp] theorem be8_length (v : BitVec 8) : (be8 v).length = 1 := rfl
@[simp] theorem be16_length (v : BitVec 16) : (be16 v).length = 2 := rfl
@[simp] theorem be32_length (v : BitVec 32) : (be32 v).length = 4 := rfl
@[simp] theorem be64_length (v : BitVec 64) : (be64 v).length = 8 := rfl
@[simp] theorem nat8_length (n : Nat) : (nat8 n).length = 1 := rfl
@[simp] theorem nat16_length (n : Nat) : (nat16 n).length = 2 := rfl
@[simp] theorem nat32_length (n : Nat) : (nat32 n).length = 4 := rfl
@[simp] theorem nat64_length (n : Nat) : (nat64 n).length = 8 := rfl
@[simp] theorem nat8_toNat (v : BitVec 8) : nat8 v.toNat = be8 v := by simp [nat8]
@[simp] theorem nat16_toNat (v : BitVec 16) : nat16 v.toNat = be16 v := by simp [nat16]
@[simp] theorem nat32_toNat (v : BitVec 32) : nat32 v.toNat = be32 v := by simp [nat32]
@[simp] theorem nat64_toNat (v : BitVec 64) : nat64 v.toNat = be64 v := by simp [nat64]
@[simp] theorem zeros_length (n : Nat) : (zeros n).length = n := by simp [zeros]

@[simp] theorem beVal_nil : beVal [] = 0 := rfl

/-- A number in front of more bytes. -/
theorem beVal_append (a b : List Byte) : beVal (a ++ b) = beVal a * 256 ^ b.length + beVal b := by
  have key : ∀ (l : List Byte) (x : Nat), l.foldl (fun a b => a * 256 + b.toNat) x = x * 256 ^ l.length + beVal l := by
    intro l
    induction l with
    | nil => intro x; simp
    | cons h l ih =>
      intro x
      simp only [List.foldl_cons, beVal, List.length_cons]
      rw [ih, ih (0 * 256 + h.toNat)]
      rw [Nat.pow_succ]
      simp only [Nat.add_mul, Nat.zero_mul, Nat.zero_add, Nat.add_assoc]
      rw [Nat.mul_assoc, Nat.mul_comm 256]
  unfold beVal
  rw [List.foldl_append, key]
  rfl

@[simp] theorem beVal_be8 (v : BitVec 8) : beVal (be8 v) = v.toNat := by simp [be8, beVal]
@[simp] theorem beVal_be16 (v : BitVec 16) : beVal (be16 v) = v.toNat := by
  have := v.isLt
  simp [be16, beVal, BitVec.extractLsb'_toNat, Nat.shiftRight_eq_div_pow]
  omega
@[simp] theorem beVal_be32 (v : BitVec 32) : beVal (be32 v) = v.toNat := by
  have := v.isLt
  unfold be32
  rw [beVal_append, beVal_be16, beVal_be16]
  simp [BitVec.extractLsb'_toNat, Nat.shiftRight_eq_div_pow]
  omega
@[simp] theorem beVal_be64 (v : BitVec 64) : beVal (be64 v) = v.toNat := by
  have := v.isLt
  unfold be64
  rw [beVal_append, beVal_be32, beVal_be32]
  simp [BitVec.extractLsb'_toNat, Nat.shiftRight_eq_div_pow]
  omega

/-- A slice that the bytes reach. -/
theorem sliceAt_mid (a b c : List Byte) : sliceAt (a ++ b ++ c) a.length b.length = b := by
  simp [sliceAt, zeros]
/-- All of a field of its own width. -/
theorem sliceAt_all (b : List Byte) : sliceAt b 0 b.length = b := by simp [sliceAt, zeros]

@[simp] theorem fieldAt_be32 (v : BitVec 32) : fieldAt (be32 v) 0 4 = v.toNat := by
  unfold fieldAt
  rw [show (4 : Nat) = (be32 v).length from rfl, sliceAt_all, beVal_be32]
@[simp] theorem f32At_be32 (v : F32) : f32At (be32 v) 0 = v := by simp [f32At]
@[simp] theorem fieldAt_be64 (v : BitVec 64) : fieldAt (be64 v) 0 8 = v.toNat := by
  unfold fieldAt
  rw [show (8 : Nat) = (be64 v).length from rfl, sliceAt_all, beVal_be64]
@[simp] theorem f64At_be64 (v : F64) : f64At (be64 v) 0 = v := by simp [f64At]

/-- A signed number that fits its four bytes reads back. -/
theorem intAt_be32 (v : BitVec 32) : intAt (be32 v) 0 4 = v.toInt := by
  unfold intAt
  rw [fieldAt_be32, BitVec.toInt_eq_toNat_cond]
  simp only [Nat.reduceMul, Nat.reduceSub, Nat.reducePow]
  split <;> split <;> first | rfl | omega

end Sys2Proof.Machine
end

