-- ==== Sys2Proof/Laws/Crc.lean ====
section
/-! SUPPORT. The reflected CRCs of R14: no step of one loses information, so a change of the last byte changes the CRC. -/

namespace Sys2Proof.Machine
/-- Xor with one value is injective. -/
theorem xor_cancel {n : Nat} {x y z : BitVec n} (h : x ^^^ z = y ^^^ z) : x = y := by
  have := congrArg (· ^^^ z) h
  simpa [BitVec.xor_assoc] using this
/-- One bit of a CRC is injective when the polynomial has bit 31. -/
theorem crcBit_inj {poly c d : Word} (hp : poly.getLsbD 31 = true) (h : crcBit poly c = crcBit poly d) : c = d := by
  have key : ∀ x y : Word, x.getLsbD 0 = y.getLsbD 0 → x >>> 1 = y >>> 1 → x = y := by
    intro x y h0 h1
    apply BitVec.eq_of_getLsbD_eq
    intro i hi
    cases i with
    | zero => exact h0
    | succ n =>
      have := congrArg (BitVec.getLsbD · n) h1
      simpa [BitVec.getLsbD_ushiftRight, Nat.add_comm] using this
  have top : (crcBit poly c).getLsbD 31 = (crcBit poly d).getLsbD 31 := by rw [h]
  have bit : ∀ x : Word, (crcBit poly x).getLsbD 31 = x.getLsbD 0 := by
    intro x
    unfold crcBit
    split
    · rename_i hx
      rw [BitVec.getLsbD_xor, BitVec.getLsbD_ushiftRight, BitVec.getLsbD_of_ge x (1 + 31) (by omega), hp, hx]; rfl
    · rename_i hx
      rw [BitVec.getLsbD_ushiftRight, BitVec.getLsbD_of_ge x (1 + 31) (by omega)]; simpa using hx
  rw [bit, bit] at top
  refine key c d top ?_
  unfold crcBit at h
  rw [top] at h
  split at h
  · exact xor_cancel h
  · exact h
/-- One byte of a CRC is injective in the byte. -/
theorem crcByte_inj {poly c : Word} {a b : Byte} (hp : poly.getLsbD 31 = true) (h : crcByte poly c a = crcByte poly c b) : a = b := by
  unfold crcByte at h
  have h1 := crcBit_inj hp (crcBit_inj hp (crcBit_inj hp (crcBit_inj hp (crcBit_inj hp (crcBit_inj hp (crcBit_inj hp (crcBit_inj hp h)))))))
  rw [BitVec.xor_comm, BitVec.xor_comm c] at h1
  have h2 := xor_cancel h1
  apply BitVec.eq_of_toNat_eq
  have := congrArg BitVec.toNat h2
  simpa [BitVec.toNat_setWidth, Nat.mod_eq_of_lt (show a.toNat < 4294967296 by omega), Nat.mod_eq_of_lt (show b.toNat < 4294967296 by omega)] using this
/-- CRCs of strings that differ in the last byte differ. -/
theorem crcOf_last {poly : Word} (hp : poly.getLsbD 31 = true) {bs : List Byte} {a b : Byte} (h : a ≠ b) :
    crcOf poly (bs ++ [a]) ≠ crcOf poly (bs ++ [b]) := by
  intro e
  simp only [crcOf, List.foldl_append, List.foldl_cons, List.foldl_nil] at e
  exact h (crcByte_inj hp (xor_cancel e))
end Sys2Proof.Machine
end

