-- ==== Sys2Proof/Laws/Frame.lean ====
section
/-! SUPPORT. Frames: what the shared operations leave alone. -/

namespace Sys2Proof.Machine

theorem FrameBut.refl (ps : List Part) (s : State) : FrameBut ps s s := by
  intro p _; cases p <;> rfl

theorem FrameBut.mono {ps qs : List Part} {s u : State} (h : FrameBut ps s u) (hs : ps ⊆ qs) : FrameBut qs s u :=
  fun p hp => h p fun hq => hp (hs hq)

theorem Part.same_trans (p : Part) {s u v : State} (h : p.same s u) (k : p.same u v) : p.same s v := by
  cases p <;> exact Eq.trans k h

theorem FrameBut.trans {ps : List Part} {s u v : State} (h : FrameBut ps s u) (k : FrameBut ps u v) : FrameBut ps s v :=
  fun p hp => p.same_trans (h p hp) (k p hp)

/-- One frame after another, their parts joined. -/
theorem FrameBut.append {ps qs : List Part} {s u v : State} (h : FrameBut ps s u) (k : FrameBut qs u v) :
    FrameBut (ps ++ qs) s v :=
  (h.mono (List.subset_append_left ps qs)).trans (k.mono (List.subset_append_right ps qs))

theorem FrameBut.ite {ps : List Part} {s a b : State} {c : Prop} [Decidable c] (h : FrameBut ps s a) (k : FrameBut ps s b) :
    FrameBut ps s (if c then a else b) := by
  split
  · exact h
  · exact k

/-- A fold of framed steps. -/
theorem FrameBut.foldl {α : Type} {ps : List Part} {f : State → α → State} (h : ∀ s x, FrameBut ps s (f s x)) (l : List α) (s : State) :
    FrameBut ps s (l.foldl f s) := by
  induction l generalizing s with
  | nil => exact FrameBut.refl ps s
  | cons x l ih => exact (h s x).trans (ih (f s x))

theorem FrameBut.factory {ps : List Part} {s u : State} (h : FrameBut ps s u) (hp : Part.factory ∉ ps := by decide) : u.factory = s.factory := h .factory hp
theorem FrameBut.events {ps : List Part} {s u : State} (h : FrameBut ps s u) (hp : Part.events ∉ ps := by decide) : u.events = s.events := h .events hp
theorem FrameBut.cycle {ps : List Part} {s u : State} (h : FrameBut ps s u) (hp : Part.cycle ∉ ps := by decide) : u.cycle = s.cycle := h .cycle hp
theorem FrameBut.image {ps : List Part} {s u : State} (h : FrameBut ps s u) (hp : Part.image ∉ ps := by decide) : u.image = s.image := h .image hp
theorem FrameBut.time {ps : List Part} {s u : State} (h : FrameBut ps s u) (hp : Part.time ∉ ps := by decide) : u.time = s.time := h .time hp
theorem FrameBut.gnss {ps : List Part} {s u : State} (h : FrameBut ps s u) (hp : Part.gnss ∉ ps := by decide) : u.gnss = s.gnss := h .gnss hp
theorem FrameBut.ain {ps : List Part} {s u : State} (h : FrameBut ps s u) (hp : Part.ain ∉ ps := by decide) : u.ain = s.ain := h .ain hp
theorem FrameBut.fusion {ps : List Part} {s u : State} (h : FrameBut ps s u) (hp : Part.fusion ∉ ps := by decide) : u.fusion = s.fusion := h .fusion hp
theorem FrameBut.wind {ps : List Part} {s u : State} (h : FrameBut ps s u) (hp : Part.wind ∉ ps := by decide) : u.wind = s.wind := h .wind hp
theorem FrameBut.obs {ps : List Part} {s u : State} (h : FrameBut ps s u) (hp : Part.obs ∉ ps := by decide) : u.obs = s.obs := h .obs hp
theorem FrameBut.obsParams {ps : List Part} {s u : State} (h : FrameBut ps s u) (hp : Part.obsParams ∉ ps := by decide) : u.obsParams = s.obsParams := h .obsParams hp
theorem FrameBut.obsOut {ps : List Part} {s u : State} (h : FrameBut ps s u) (hp : Part.obsOut ∉ ps := by decide) : u.obsOut = s.obsOut := h .obsOut hp
theorem FrameBut.history {ps : List Part} {s u : State} (h : FrameBut ps s u) (hp : Part.history ∉ ps := by decide) : u.history = s.history := h .history hp
theorem FrameBut.law {ps : List Part} {s u : State} (h : FrameBut ps s u) (hp : Part.law ∉ ps := by decide) : u.law = s.law := h .law hp
theorem FrameBut.dyn {ps : List Part} {s u : State} (h : FrameBut ps s u) (hp : Part.dyn ∉ ps := by decide) : u.dyn = s.dyn := h .dyn hp
theorem FrameBut.sol {ps : List Part} {s u : State} (h : FrameBut ps s u) (hp : Part.sol ∉ ps := by decide) : u.sol = s.sol := h .sol hp
theorem FrameBut.res {ps : List Part} {s u : State} (h : FrameBut ps s u) (hp : Part.res ∉ ps := by decide) : u.res = s.res := h .res hp
theorem FrameBut.solParams {ps : List Part} {s u : State} (h : FrameBut ps s u) (hp : Part.solParams ∉ ps := by decide) : u.solParams = s.solParams := h .solParams hp
theorem FrameBut.servo {ps : List Part} {s u : State} (h : FrameBut ps s u) (hp : Part.servo ∉ ps := by decide) : u.servo = s.servo := h .servo hp
theorem FrameBut.field {ps : List Part} {s u : State} (h : FrameBut ps s u) (hp : Part.field ∉ ps := by decide) : u.field = s.field := h .field hp
theorem FrameBut.saf {ps : List Part} {s u : State} (h : FrameBut ps s u) (hp : Part.saf ∉ ps := by decide) : u.saf = s.saf := h .saf hp
theorem FrameBut.modes {ps : List Part} {s u : State} (h : FrameBut ps s u) (hp : Part.modes ∉ ps := by decide) : u.modes = s.modes := h .modes hp
theorem FrameBut.retained {ps : List Part} {s u : State} (h : FrameBut ps s u) (hp : Part.retained ∉ ps := by decide) : u.retained = s.retained := h .retained hp
theorem FrameBut.group {ps : List Part} {s u : State} (h : FrameBut ps s u) (hp : Part.group ∉ ps := by decide) : u.group = s.group := h .group hp
theorem FrameBut.gcycle {ps : List Part} {s u : State} (h : FrameBut ps s u) (hp : Part.gcycle ∉ ps := by decide) : u.gcycle = s.gcycle := h .gcycle hp
theorem FrameBut.net {ps : List Part} {s u : State} (h : FrameBut ps s u) (hp : Part.net ∉ ps := by decide) : u.net = s.net := h .net hp
theorem FrameBut.qcp {ps : List Part} {s u : State} (h : FrameBut ps s u) (hp : Part.qcp ∉ ps := by decide) : u.qcp = s.qcp := h .qcp hp
theorem FrameBut.recorder {ps : List Part} {s u : State} (h : FrameBut ps s u) (hp : Part.recorder ∉ ps := by decide) : u.recorder = s.recorder := h .recorder hp
theorem FrameBut.trust {ps : List Part} {s u : State} (h : FrameBut ps s u) (hp : Part.trust ∉ ps := by decide) : u.trust = s.trust := h .trust hp
theorem FrameBut.hsk {ps : List Part} {s u : State} (h : FrameBut ps s u) (hp : Part.hsk ∉ ps := by decide) : u.hsk = s.hsk := h .hsk hp
theorem FrameBut.update {ps : List Part} {s u : State} (h : FrameBut ps s u) (hp : Part.update ∉ ps := by decide) : u.update = s.update := h .update hp
theorem FrameBut.panel {ps : List Part} {s u : State} (h : FrameBut ps s u) (hp : Part.panel ∉ ps := by decide) : u.panel = s.panel := h .panel hp
theorem FrameBut.power {ps : List Part} {s u : State} (h : FrameBut ps s u) (hp : Part.power ∉ ps := by decide) : u.power = s.power := h .power hp
theorem FrameBut.free {ps : List Part} {s u : State} (h : FrameBut ps s u) (hp : Part.free ∉ ps := by decide) : u.free = s.free := h .free hp
theorem FrameBut.pending {ps : List Part} {s u : State} (h : FrameBut ps s u) (hp : Part.pending ∉ ps := by decide) : u.pending = s.pending := h .pending hp

/-! ## An update of one field changes its part alone -/

theorem frame_set_factory (s : State) (x) : FrameBut [.factory] s { s with factory := x } := by
  intro p hp; cases p <;> first | rfl | exact absurd (List.mem_singleton.mpr rfl) hp
theorem frame_set_events (s : State) (x) : FrameBut [.events] s { s with events := x } := by
  intro p hp; cases p <;> first | rfl | exact absurd (List.mem_singleton.mpr rfl) hp
theorem frame_set_cycle (s : State) (x) : FrameBut [.cycle] s { s with cycle := x } := by
  intro p hp; cases p <;> first | rfl | exact absurd (List.mem_singleton.mpr rfl) hp
theorem frame_set_image (s : State) (x) : FrameBut [.image] s { s with image := x } := by
  intro p hp; cases p <;> first | rfl | exact absurd (List.mem_singleton.mpr rfl) hp
theorem frame_set_time (s : State) (x) : FrameBut [.time] s { s with time := x } := by
  intro p hp; cases p <;> first | rfl | exact absurd (List.mem_singleton.mpr rfl) hp
theorem frame_set_gnss (s : State) (x) : FrameBut [.gnss] s { s with gnss := x } := by
  intro p hp; cases p <;> first | rfl | exact absurd (List.mem_singleton.mpr rfl) hp
theorem frame_set_ain (s : State) (x) : FrameBut [.ain] s { s with ain := x } := by
  intro p hp; cases p <;> first | rfl | exact absurd (List.mem_singleton.mpr rfl) hp
theorem frame_set_fusion (s : State) (x) : FrameBut [.fusion] s { s with fusion := x } := by
  intro p hp; cases p <;> first | rfl | exact absurd (List.mem_singleton.mpr rfl) hp
theorem frame_set_wind (s : State) (x) : FrameBut [.wind] s { s with wind := x } := by
  intro p hp; cases p <;> first | rfl | exact absurd (List.mem_singleton.mpr rfl) hp
theorem frame_set_obs (s : State) (x) : FrameBut [.obs] s { s with obs := x } := by
  intro p hp; cases p <;> first | rfl | exact absurd (List.mem_singleton.mpr rfl) hp
theorem frame_set_obsParams (s : State) (x) : FrameBut [.obsParams] s { s with obsParams := x } := by
  intro p hp; cases p <;> first | rfl | exact absurd (List.mem_singleton.mpr rfl) hp
theorem frame_set_obsOut (s : State) (x) : FrameBut [.obsOut] s { s with obsOut := x } := by
  intro p hp; cases p <;> first | rfl | exact absurd (List.mem_singleton.mpr rfl) hp
theorem frame_set_history (s : State) (x) : FrameBut [.history] s { s with history := x } := by
  intro p hp; cases p <;> first | rfl | exact absurd (List.mem_singleton.mpr rfl) hp
theorem frame_set_law (s : State) (x) : FrameBut [.law] s { s with law := x } := by
  intro p hp; cases p <;> first | rfl | exact absurd (List.mem_singleton.mpr rfl) hp
theorem frame_set_dyn (s : State) (x) : FrameBut [.dyn] s { s with dyn := x } := by
  intro p hp; cases p <;> first | rfl | exact absurd (List.mem_singleton.mpr rfl) hp
theorem frame_set_sol (s : State) (x) : FrameBut [.sol] s { s with sol := x } := by
  intro p hp; cases p <;> first | rfl | exact absurd (List.mem_singleton.mpr rfl) hp
theorem frame_set_res (s : State) (x) : FrameBut [.res] s { s with res := x } := by
  intro p hp; cases p <;> first | rfl | exact absurd (List.mem_singleton.mpr rfl) hp
theorem frame_set_solParams (s : State) (x) : FrameBut [.solParams] s { s with solParams := x } := by
  intro p hp; cases p <;> first | rfl | exact absurd (List.mem_singleton.mpr rfl) hp
theorem frame_set_servo (s : State) (x) : FrameBut [.servo] s { s with servo := x } := by
  intro p hp; cases p <;> first | rfl | exact absurd (List.mem_singleton.mpr rfl) hp
theorem frame_set_field (s : State) (x) : FrameBut [.field] s { s with field := x } := by
  intro p hp; cases p <;> first | rfl | exact absurd (List.mem_singleton.mpr rfl) hp
theorem frame_set_saf (s : State) (x) : FrameBut [.saf] s { s with saf := x } := by
  intro p hp; cases p <;> first | rfl | exact absurd (List.mem_singleton.mpr rfl) hp
theorem frame_set_modes (s : State) (x) : FrameBut [.modes] s { s with modes := x } := by
  intro p hp; cases p <;> first | rfl | exact absurd (List.mem_singleton.mpr rfl) hp
theorem frame_set_retained (s : State) (x) : FrameBut [.retained] s { s with retained := x } := by
  intro p hp; cases p <;> first | rfl | exact absurd (List.mem_singleton.mpr rfl) hp
theorem frame_set_group (s : State) (x) : FrameBut [.group] s { s with group := x } := by
  intro p hp; cases p <;> first | rfl | exact absurd (List.mem_singleton.mpr rfl) hp
theorem frame_set_gcycle (s : State) (x) : FrameBut [.gcycle] s { s with gcycle := x } := by
  intro p hp; cases p <;> first | rfl | exact absurd (List.mem_singleton.mpr rfl) hp
theorem frame_set_net (s : State) (x) : FrameBut [.net] s { s with net := x } := by
  intro p hp; cases p <;> first | rfl | exact absurd (List.mem_singleton.mpr rfl) hp
theorem frame_set_qcp (s : State) (x) : FrameBut [.qcp] s { s with qcp := x } := by
  intro p hp; cases p <;> first | rfl | exact absurd (List.mem_singleton.mpr rfl) hp
theorem frame_set_recorder (s : State) (x) : FrameBut [.recorder] s { s with recorder := x } := by
  intro p hp; cases p <;> first | rfl | exact absurd (List.mem_singleton.mpr rfl) hp
theorem frame_set_trust (s : State) (x) : FrameBut [.trust] s { s with trust := x } := by
  intro p hp; cases p <;> first | rfl | exact absurd (List.mem_singleton.mpr rfl) hp
theorem frame_set_hsk (s : State) (x) : FrameBut [.hsk] s { s with hsk := x } := by
  intro p hp; cases p <;> first | rfl | exact absurd (List.mem_singleton.mpr rfl) hp
theorem frame_set_update (s : State) (x) : FrameBut [.update] s { s with update := x } := by
  intro p hp; cases p <;> first | rfl | exact absurd (List.mem_singleton.mpr rfl) hp
theorem frame_set_panel (s : State) (x) : FrameBut [.panel] s { s with panel := x } := by
  intro p hp; cases p <;> first | rfl | exact absurd (List.mem_singleton.mpr rfl) hp
theorem frame_set_power (s : State) (x) : FrameBut [.power] s { s with power := x } := by
  intro p hp; cases p <;> first | rfl | exact absurd (List.mem_singleton.mpr rfl) hp
theorem frame_set_free (s : State) (x) : FrameBut [.free] s { s with free := x } := by
  intro p hp; cases p <;> first | rfl | exact absurd (List.mem_singleton.mpr rfl) hp
theorem frame_set_pending (s : State) (x) : FrameBut [.pending] s { s with pending := x } := by
  intro p hp; cases p <;> first | rfl | exact absurd (List.mem_singleton.mpr rfl) hp

end Sys2Proof.Machine
end

