-- ==== Sys2Proof/Laws/Report.lean ====
section
/-! SUPPORT. What recording, notification and the raising of a source can do: one lemma for each shared operation. -/

namespace Sys2Proof.Machine

theorem State.record_frame (s : State) (code island p0 p1 p2 p3 time tr) :
    FrameBut [.recorder] s (s.record code island p0 p1 p2 p3 time tr) := frame_set_recorder s _

theorem State.pushTele_frame (s : State) (st n b to_) : FrameBut [.qcp] s (s.pushTele st n b to_) := frame_set_qcp s _

theorem State.stampEdge_frame (s : State) (m r e) : FrameBut [.field] s (s.stampEdge m r e).2 := by
  unfold State.stampEdge
  dsimp only
  split
  · exact FrameBut.refl _ _
  · split
    · exact frame_set_field s _
    · exact frame_set_field s _

theorem State.stampInput_frame (s : State) (i r e) : FrameBut [.field] s (s.stampInput i r e).2 := by
  unfold State.stampInput
  generalize List.range 16 = ms
  suffices h : ∀ a : Nat × State, FrameBut [.field] s a.2 → FrameBut [.field] s (ms.foldl _ a).2 from h (0, s) (FrameBut.refl _ _)
  induction ms with
  | nil => exact fun _ h => h
  | cons m ms ih =>
    intro a h
    refine ih _ ?_
    dsimp only
    split
    · exact h.trans (State.stampEdge_frame _ _ _ _)
    · exact h

theorem State.captureLine_frame (s : State) (l w e) : FrameBut [.field] s (s.captureLine l w e) := by
  unfold State.captureLine
  split
  · exact FrameBut.refl _ _
  · have h := State.stampInput_frame s (0x21 + l) true e
    generalize s.stampInput (0x21 + l) true e = q at h
    obtain ⟨n, u⟩ := q
    exact h.trans (frame_set_field u { u.field with overrunDue := u.field.overrunDue + n })

theorem State.pulseFrom_frame (s : State) (l n r e) : FrameBut [.field] s (s.pulseFrom l n r e) := by
  unfold State.pulseFrom
  have h := frame_set_field s { s.field with lines := upd s.field.lines l fun x =>
    { x with pulseUntil := some (if r then e + n else max (e + n) (x.pulseUntil.getD 0)) } }
  exact h.trans (State.captureLine_frame _ l (s.lineHigh l) e)

theorem State.pulseLine_frame (s : State) (l n r) : FrameBut [.field] s (s.pulseLine l n r) := by
  unfold State.pulseLine; exact State.pulseFrom_frame s l n r _

theorem State.startFlush_frame (s : State) (tr) : FrameBut [.recorder] s (s.startFlush tr) := by
  unfold State.startFlush; exact (FrameBut.refl _ _).ite (frame_set_recorder s _)

theorem State.eventRecord_frame (s : State) (n e tr) : FrameBut [.recorder] s (s.eventRecord n e tr) := frame_set_recorder s _

theorem State.eventFrame_frame (s : State) (n e) : FrameBut [.qcp] s (s.eventFrame n e) := by
  unfold State.eventFrame; exact (FrameBut.refl _ _).ite (State.pushTele_frame _ _ _ _ _)

theorem State.eventPulse_frame (s : State) (n) : FrameBut [.field] s (s.eventPulse n) := by
  unfold State.eventPulse; exact (State.pulseLine_frame _ _ _ _).ite (FrameBut.refl _ _)

/-- What an assertion gives to the recorder, the host and a line. -/
theorem State.deliver_frame (s : State) (n p0 p1 p2 p3 tr mu) :
    FrameBut [.field, .qcp, .recorder, .free] s (s.deliver n p0 p1 p2 p3 tr mu) := by
  unfold State.deliver
  split
  · exact FrameBut.refl _ _
  · refine FrameBut.trans (FrameBut.trans ?_ ((State.eventFrame_frame _ _ _).mono (by decide)))
      ((State.eventPulse_frame _ _).mono (by decide))
    refine FrameBut.trans (u := s.draw.2) ((frame_set_free s _).mono (by decide)) ?_
    exact FrameBut.ite ((State.eventRecord_frame _ _ _ _).mono (by decide)) (FrameBut.refl _ _)

/-- The parts a delivery and the fault handler touch. -/
def handlerParts : List Part := [.events, .field, .qcp, .recorder, .free]

theorem State.startHandler_frame (s : State) (c) : FrameBut handlerParts s (s.startHandler c) := by
  unfold State.startHandler
  split
  · exact FrameBut.refl _ _
  · split
    · exact FrameBut.refl _ _
    · exact FrameBut.trans ((frame_set_events s _).mono (by decide)) ((State.deliver_frame _ _ _ _ _ _ _ _).mono (by decide))

/-- A fault that enters a class touches the handler's parts alone. -/
theorem State.admitFault_frame (c : Nat) (f : FaultEntry) (s : State) : FrameBut handlerParts s (State.admitFault c f s).1 := by
  induction c generalizing f s with
  | zero => exact FrameBut.refl _ _
  | succ c ih =>
    unfold State.admitFault
    have hf : FrameBut handlerParts s (if c = 0 then s.startFlush 1 else s) :=
      FrameBut.ite ((State.startFlush_frame s 1).mono (by decide)) (FrameBut.refl _ _)
    refine hf.trans ?_
    generalize (if c = 0 then s.startFlush 1 else s) = v
    simp only
    split
    · exact ((frame_set_events v _).mono (by decide)).trans (FrameBut.ite (FrameBut.refl _ _) (State.startHandler_frame _ _))
    · split
      · exact (frame_set_events v _).mono (by decide)
      · split
        · exact (frame_set_events v _).mono (by decide)
        · exact ((State.deliver_frame v _ _ _ _ _ _ _).mono (by decide)).trans (ih _ _)

theorem State.raiseCore_frame (s : State) (n p0 p1 p2 p3 mu) : FrameBut quietParts s (s.raiseCore n p0 p1 p2 p3 mu).1 := by
  unfold State.raiseCore
  split
  · exact FrameBut.refl _ _
  · have h0 : FrameBut quietParts s { s with servo.ic := s.servo.ic.onEvent n, events := s.events.noteRaised n p0 } :=
      (frame_set_servo s { s.servo with ic := s.servo.ic.onEvent n }).mono (by decide) |>.trans
        ((frame_set_events { s with servo.ic := s.servo.ic.onEvent n } _).mono (by decide))
    refine h0.trans ?_
    generalize ({ s with servo.ic := s.servo.ic.onEvent n, events := s.events.noteRaised n p0 } : State) = v
    simp only
    split
    · exact (frame_set_events v _).mono (by decide)
    · split
      · exact (((State.deliver_frame v _ _ _ _ _ _ _).mono (by decide)).trans ((frame_set_events _ _).mono (by decide))).trans
          ((State.admitFault_frame _ _ _).mono (by decide))
      · exact (State.deliver_frame v _ _ _ _ _ _ _).mono (by decide)

/-! ## Entry to SAFE and changes of role -/

theorem State.captureHolds_frame (s : State) : FrameBut [.field] s s.captureHolds := frame_set_field s _
theorem State.clearOverloads_frame (s : State) : FrameBut [.field] s s.clearOverloads := frame_set_field s _

theorem State.clearAuth_frame (s : State) : FrameBut [.field, .group, .net] s s.clearAuth := by
  unfold State.clearAuth
  exact ((State.captureHolds_frame s).mono (by decide)).trans
    (((frame_set_group _ _).mono (by decide)).trans ((frame_set_net { s.captureHolds with group.auth := false } _).mono (by decide)))

theorem State.setRoleCore_frame (s : State) (r c) : FrameBut reportParts s (s.setRoleCore r c).1 := by
  unfold State.setRoleCore
  have h0 : FrameBut reportParts s { s with group.role := r, group.stepCount := 0 } := (frame_set_group s _).mono (by decide)
  refine h0.trans (FrameBut.trans (FrameBut.ite ?_ (FrameBut.refl _ _)) ((State.raiseCore_frame _ _ _ _ _ _ _).mono (by decide)))
  exact ((frame_set_gcycle _ _).mono (by decide)).trans ((State.clearAuth_frame _).mono (by decide))

theorem State.sendLane_frame (s : State) (f) : FrameBut [.group] s (s.sendLane f) := frame_set_group s _
theorem State.sendLaneTo_frame (s : State) (m f) : FrameBut [.group] s (s.sendLaneTo m f) := frame_set_group s _

theorem State.yieldTo_frame (s : State) (m i) : FrameBut [.group] s (s.yieldTo m i) :=
  (frame_set_group s _).trans (State.sendLane_frame _ _)

theorem State.safeRole_frame (s : State) (b) : FrameBut reportParts s (s.safeRole b) := by
  unfold State.safeRole
  split
  · exact FrameBut.refl _ _
  · split
    · exact FrameBut.refl _ _
    · split
      · exact ((State.yieldTo_frame s _ _).mono (by decide)).trans (State.setRoleCore_frame _ _ _)
      · exact FrameBut.refl _ _
  · exact State.setRoleCore_frame _ _ _

theorem State.leaveTest_frame (s : State) : FrameBut [.servo] s s.leaveTest :=
  FrameBut.trans (u := s.stopInjection) (frame_set_servo s _) (frame_set_servo _ _)

theorem State.toSafe_frame (s : State) (b) : FrameBut reportParts s (s.toSafe b) := by
  unfold State.toSafe
  have h0 : FrameBut reportParts s { s with modes.cause := s.modes.cause.setBit b } := (frame_set_modes s _).mono (by decide)
  refine h0.trans ?_
  generalize ({ s with modes.cause := s.modes.cause.setBit b } : State) = v
  simp only
  refine FrameBut.ite (FrameBut.refl _ _) ?_
  have h1 : FrameBut reportParts v v.captureHolds.leaveTest :=
    ((State.captureHolds_frame v).mono (by decide)).trans ((State.leaveTest_frame _).mono (by decide))
  refine h1.trans ?_
  generalize v.captureHolds.leaveTest = w
  refine FrameBut.trans ?_ ((State.raiseCore_frame _ _ _ _ _ _ _).mono (by decide))
  refine FrameBut.trans ?_ ((State.clearOverloads_frame _).mono (by decide))
  intro p hp
  cases p <;> first | rfl | exact absurd (by decide) hp

/-- Entry to SAFE touches the reporting parts alone. -/
theorem State.enterSafe_frame (s : State) (b) : FrameBut reportParts s (s.enterSafe b) := by
  unfold State.enterSafe
  exact FrameBut.ite (State.toSafe_frame s b) ((State.toSafe_frame s b).trans (State.safeRole_frame _ _))

/-- A source that asserts touches the reporting parts alone. -/
theorem State.raise_frame (s : State) (n p0 p1 p2 p3 mu) : FrameBut reportParts s (s.raise n p0 p1 p2 p3 mu) := by
  unfold State.raise
  exact FrameBut.ite (((State.raiseCore_frame s n p0 p1 p2 p3 mu).mono (by decide)).trans (State.enterSafe_frame _ _))
    ((State.raiseCore_frame s n p0 p1 p2 p3 mu).mono (by decide))

theorem State.raiseN_frame (s : State) (n p0 p1 p2 p3) : FrameBut reportParts s (s.raiseN n p0 p1 p2 p3) :=
  State.raise_frame s n _ _ _ _ _

/-- A change of role touches the reporting parts alone. -/
theorem State.setRole_frame (s : State) (r c) : FrameBut reportParts s (s.setRole r c) := by
  unfold State.setRole
  exact FrameBut.ite ((State.setRoleCore_frame s r c).trans (State.enterSafe_frame _ _)) (State.setRoleCore_frame s r c)

/-- A source that is not with the fault handler cannot force SAFE. -/
theorem State.raise_quiet (s : State) (n p0 p1 p2 p3 mu) (h : (s.route n).fault = false) :
    FrameBut quietParts s (s.raise n p0 p1 p2 p3 mu) := by
  have hr : (s.raiseCore n p0 p1 p2 p3 mu).2 = false := by
    unfold State.raiseCore
    split
    · rfl
    · have : (State.route { s with servo.ic := s.servo.ic.onEvent n, events := s.events.noteRaised n p0 } n).fault = false := by
        have e : State.route { s with servo.ic := s.servo.ic.onEvent n, events := s.events.noteRaised n p0 } n = s.route n := by
          unfold State.route EventState.noteRaised; grind
        rw [e]; exact h
      simp [this]
  unfold State.raise
  simp only [hr]
  exact State.raiseCore_frame s n p0 p1 p2 p3 mu

/-! ## The event state under delivery and flushes -/

@[simp] theorem State.deliver_events (s : State) (n p0 p1 p2 p3 tr mu) : (s.deliver n p0 p1 p2 p3 tr mu).events = s.events :=
  (State.deliver_frame s n p0 p1 p2 p3 tr mu).events
@[simp] theorem State.deliver_modes (s : State) (n p0 p1 p2 p3 tr mu) : (s.deliver n p0 p1 p2 p3 tr mu).modes = s.modes :=
  (State.deliver_frame s n p0 p1 p2 p3 tr mu).modes
@[simp] theorem State.startFlush_events (s : State) (tr) : (s.startFlush tr).events = s.events := (State.startFlush_frame s tr).events
@[simp] theorem State.startFlush_modes (s : State) (tr) : (s.startFlush tr).modes = s.modes := (State.startFlush_frame s tr).modes
theorem State.route_noteRaised (s : State) (x n p0) :
    State.route { s with servo.ic := x, events := s.events.noteRaised n p0 } n = s.route n := by
  unfold State.route EventState.noteRaised; grind
@[simp] theorem EventState.noteRaised_f1 (e : EventState) (n p0) : (e.noteRaised n p0).f1 = e.f1 := by
  unfold EventState.noteRaised; grind
@[simp] theorem EventState.noteRaised_f2 (e : EventState) (n p0) : (e.noteRaised n p0).f2 = e.f2 := by
  unfold EventState.noteRaised; grind
@[simp] theorem EventState.noteRaised_f3 (e : EventState) (n p0) : (e.noteRaised n p0).f3 = e.f3 := by
  unfold EventState.noteRaised; grind
@[simp] theorem EventState.noteRaised_q1 (e : EventState) (n p0) : (e.noteRaised n p0).q1 = e.q1 := by
  unfold EventState.noteRaised; grind
@[simp] theorem EventState.noteRaised_q2 (e : EventState) (n p0) : (e.noteRaised n p0).q2 = e.q2 := by
  unfold EventState.noteRaised; grind
@[simp] theorem EventState.noteRaised_q3 (e : EventState) (n p0) : (e.noteRaised n p0).q3 = e.q3 := by
  unfold EventState.noteRaised; grind
@[simp] theorem EventState.noteRaised_routes (e : EventState) (n p0) : (e.noteRaised n p0).routes = e.routes := by
  unfold EventState.noteRaised; grind

end Sys2Proof.Machine
end

