-- ==== Sys2Proof/Laws/Serve.lean ====
section
/-! SUPPORT. What the gates of a command and the service of a host command can do: one lemma for each. -/

namespace Sys2Proof.Machine

/-! ## The clock and the gates -/

theorem State.clock_frame (t : Nat) (s : State) : FrameBut [.time, .gnss] s (s.clock t) := by
  unfold State.clock
  dsimp only
  refine (FrameBut.refl _ _).ite ?_
  intro p hp
  cases p <;> first | rfl | exact absurd (by decide) hp

@[simp] theorem State.clock_modes (t : Nat) (s : State) : (s.clock t).modes = s.modes := (s.clock_frame t).modes
@[simp] theorem State.clock_powered (t : Nat) (s : State) : (s.clock t).powered = s.powered := by simp [State.powered]
@[simp] theorem State.clock_running (t : Nat) (s : State) : (s.clock t).running = s.running := by simp [State.running]

theorem Running.powered {s : State} (h : Running s) : Powered s := by unfold Running at h; simp [Powered, h]

/-- A gated effect at an instant at which its gate holds. -/
theorem runPowered_next {t : Nat} {s : State} (f : State → State) (h : Powered s) : runPowered t s f = .next (f (s.clock t)) := by
  simp [runPowered, run, State.powered, Powered] at *; simp [h]

theorem runRunning_next {t : Nat} {s : State} (f : State → State) (h : Running s) : runRunning t s f = .next (f (s.clock t)) := by
  simp [runRunning, run, State.running, Running] at *; simp [h]

/-- Without power only time passes. -/
theorem runPowered_off {t : Nat} {s : State} (f : State → State) (h : ¬ Powered s) : runPowered t s f = .next (s.clock t) := by
  simp [runPowered, run, State.powered, Powered] at *; simp [h]

theorem runRunning_off {t : Nat} {s : State} (f : State → State) (h : ¬ Powered s) : runRunning t s f = .next (s.clock t) := by
  have : s.modes.phase = .off := by simpa [Powered] using h
  simp [runRunning, run, State.running, this]

theorem runHost_off {t : Nat} {s : State} (f : State → State) (h : ¬ Powered s) : runHost t s f = .next (s.clock t) := by
  unfold runHost; exact runPowered_off _ h

theorem runHost_next {t : Nat} {s : State} (f : State → State) (h : Running s) (ht : s.modes.report.tb0At ≤ t) :
    runHost t s f = .next (f (s.clock t)) := by
  unfold runHost
  rw [runPowered_next _ h.powered]
  have : ¬ t < s.modes.report.tb0At := by omega
  simp [this]

/-! ## Records and responses -/

theorem State.respond_frame (s : State) (req op st b) : FrameBut [.qcp] s (s.respond req op st b) := frame_set_qcp s _

theorem State.respond_last (s : State) (req op st b) :
    (s.respond req op st b).qcp.responses.getLast? =
      some { req := req, version := BitVec.ofNat 8 s.qcpInUse, opcode := BitVec.ofNat 16 op, status := st, body := b } := by
  simp only [State.respond]
  split <;> simp

theorem State.sourceIndex_frame (s : State) (a tm) : FrameBut [.qcp, .recorder] s (s.sourceIndex a tm).2 := by
  unfold State.sourceIndex
  split
  · exact FrameBut.refl _ _
  · exact ((frame_set_qcp s _).mono (by decide)).trans ((frame_set_recorder _ _).mono (by decide))

theorem State.recordCommand_frame (s : State) (req op p0 v tm) : FrameBut reportParts s (s.recordCommand req op p0 v tm) := by
  unfold State.recordCommand
  exact (((State.sourceIndex_frame s _ _).mono (by decide)).trans ((State.record_frame _ _ _ _ _ _ _ _ _).mono (by decide))).trans
    (State.raise_frame _ _ _ _ _ _ _)

theorem route_of_events {s u : State} {n : Nat} (h : u.events = s.events) : u.route n = s.route n := by
  unfold State.route; rw [h]

theorem State.recordCommand_quiet (s : State) (req op p0 v tm) (h : (s.route 4).fault = false) :
    FrameBut quietParts s (s.recordCommand req op p0 v tm) := by
  unfold State.recordCommand
  have h1 := (State.sourceIndex_frame s req.src tm).append (State.record_frame (s.sourceIndex req.src tm).2 0x0001 0x01 p0
    (BitVec.ofNat 32 (op * 2 ^ 16) ||| (req.seq &&& 0xFFFF))
    (BitVec.ofNat 32 ((s.sourceIndex req.src tm).1 * 2 ^ 24) ||| (req.ingress.setWidth 32 <<< 16) ||| req.port.setWidth 32) (valueParam v) tm
      (op == 0x11 && (s.sourceIndex req.src tm).2.writeFlushes p0 v))
  exact (h1.mono (by decide)).trans (State.raise_quiet _ _ _ _ _ _ _ (by rw [route_of_events h1.events]; exact h))

/-- A command that SUP takes touches, before its own effect, the quiet parts alone. -/
theorem State.taken_frame (s : State) (req op r) (h : (s.route 4).fault = false) : FrameBut quietParts s (s.taken req op r) := by
  unfold State.taken
  have h0 : FrameBut quietParts s { s with qcp.queue := s.qcp.queue.drop 1, qcp.busyRun := false } :=
    (frame_set_qcp s _).mono (by decide)
  cases r with
  | none => exact h0
  | some r => exact h0.trans (State.recordCommand_quiet _ _ _ _ _ _ h)

/-! ## Ready commands -/

theorem Ready.clock {s : State} {t req op body} (h : Ready s t req op body) : Ready (s.clock t) t req op body := by
  have c := s.clock_frame t
  exact { running := by rw [c.modes]; exact h.running, started := by rw [c.modes]; exact h.started, port := h.port,
          version := by rw [c.group]; exact h.version, first := by rw [c.qcp]; exact h.first, room := by rw [c.qcp]; exact h.room,
          report := by rw [route_of_events c.events]; exact h.report }

theorem Ready.canServe {s : State} {t req op body} (h : Ready s t req op body) :
    s.canServe { req := req, opcode := BitVec.ofNat 16 op, body := body } = true := by
  have room := h.room
  unfold State.canServe
  cases hq : s.qcp.queue with
  | nil => simp [room]
  | cons c l =>
    have e : (c == { req := req, opcode := BitVec.ofNat 16 op, body := body, at_ := c.at_ }) = true :=
      beq_iff_eq.mpr (h.first c (by simp [hq]))
    simp only [e, room]; rfl

/-- A ready command that its act accepts: its effect, and the response. -/
theorem State.serve_ok {s : State} {t req op body} (r act) (h : Ready s t req op body)
    (hv : changesState op = true → (s.taken req op r).group.versionHold = false)
    (ok : (act (s.taken req op r)).status = .ok) (nd : (act (s.taken req op r)).deferred = false) :
    s.serve req op body r act = (act (s.taken req op r)).state.respond req op .ok (act (s.taken req op r)).body := by
  have hr : s.running = true := by simp [State.running, h.running]
  have hj : (s.taken req op r).judged req op act = act (s.taken req op r) := by
    unfold State.judged
    rw [h.port]
    cases hc : changesState op with
    | false => simp
    | true => simp [hv hc]
  unfold State.serve
  simp only [hr, h.canServe, hj, ok, nd]
  simp

/-- A ready command that its act refuses: nothing but the refusal. -/
theorem State.serve_refused {s : State} {t req op body} (r act) (h : Ready s t req op body)
    (hv : changesState op = true → (s.taken req op r).group.versionHold = false)
    (no : (act (s.taken req op r)).status ≠ .ok) (nk : (act (s.taken req op r)).keep = false)
    (nd : (act (s.taken req op r)).deferred = false) :
    s.serve req op body r act =
      ((act (s.taken req op r)).count (s.taken req op none)).respond req op (act (s.taken req op r)).status (act (s.taken req op r)).body := by
  have hr : s.running = true := by simp [State.running, h.running]
  have hj : (s.taken req op r).judged req op act = act (s.taken req op r) := by
    unfold State.judged
    rw [h.port]
    cases hc : changesState op with
    | false => simp
    | true => simp [hv hc]
  unfold State.serve
  simp only [hr, h.canServe, hj, nk, nd]
  simp [no]

theorem State.atWrite_frame {s : State} {t req obj v} (h : Ready s t req 0x11 (writeBody obj v)) :
    FrameBut ([.time, .gnss] ++ quietParts) s (s.atWrite t req obj v) :=
  (s.clock_frame t).append (State.taken_frame _ _ _ _ h.clock.report)

/-- A ready WRITE that its object accepts at once: the object's effect, then the response OK. -/
theorem hostWrite_ok {s : State} {t req obj v} {act : WriteCtx → State → Done} (h : Ready s t req 0x11 (writeBody obj v))
    (ok : (act (s.hostCtx req) (s.atWrite t req obj v)).status = .ok)
    (nd : (act (s.hostCtx req) (s.atWrite t req obj v)).deferred = false)
    (dt : (act (s.hostCtx req) (s.atWrite t req obj v)).detail = 0xFFFFFFFF) :
    runHost t s (fun s => s.hostWrite req obj v act) =
      .next ((act (s.hostCtx req) (s.atWrite t req obj v)).state.wrote req obj) := by
  rw [runHost_next _ h.running h.started]
  unfold State.hostWrite
  have hv : (s.atWrite t req obj v).group.versionHold = false := by rw [(State.atWrite_frame h).group]; exact h.version
  have hq : (s.clock t).qcp = s.qcp := (s.clock_frame t).qcp
  unfold State.atWrite State.wrote State.hostCtx at *
  rw [State.serve_ok (t := t) _ _ h.clock (fun hc => absurd hc (by decide))] <;> simp [State.writeAct, hv, hq, ok, nd, dt]

/-- A ready WRITE whose act takes effect at once. -/
theorem hostWrite_done {s : State} {t req obj v} {act : WriteCtx → State → Done} {u : State} (h : Ready s t req 0x11 (writeBody obj v))
    (k : act (s.hostCtx req) (s.atWrite t req obj v) = done u) :
    runHost t s (fun s => s.hostWrite req obj v act) = .next (u.wrote req obj) := by
  rw [hostWrite_ok h (by rw [k]; rfl) (by rw [k]; rfl) (by rw [k]; rfl), k]; rfl

theorem Answered.respond (s : State) (req op st b) : Answered (s.respond req op st b) req op st b := State.respond_last s req op st b

end Sys2Proof.Machine
end

