-- ==== Sys2Proof/Laws/Vectors.lean ====
section
/-! SUPPORT. Reading and changing one entry of a numbered set of like things. -/

namespace Sys2Proof.Machine

variable {α : Type} {k : Nat}

/-- Inside the vector `at?` is the entry. -/
theorem at?_eq [Inhabited α] (v : Vector α k) (n : Nat) (h : n < k) : at? v n = v[n] := by
  simp [at?, h]

/-- One entry after a change of one entry. -/
theorem getElem_upd (v : Vector α k) (n m : Nat) (f : α → α) (h : m < k) :
    (upd v n f)[m] = if n = m then f v[m] else v[m] := by
  unfold upd
  split
  · rw [Vector.getElem_set]
    split
    · next h' => subst h'; rfl
    · rfl
  · split
    · omega
    · rfl

@[simp] theorem at?_upd_self [Inhabited α] (v : Vector α k) (n : Nat) (f : α → α) (h : n < k) :
    at? (upd v n f) n = f (at? v n) := by
  rw [at?_eq _ _ h, at?_eq _ _ h, getElem_upd]; simp

theorem at?_upd_ne [Inhabited α] (v : Vector α k) (n m : Nat) (f : α → α) (h : n ≠ m) :
    at? (upd v n f) m = at? v m := by
  by_cases hm : m < k
  · rw [at?_eq _ _ hm, at?_eq _ _ hm, getElem_upd]; simp [h]
  · simp [at?, hm]

/-- Two changes of one entry are one. -/
@[simp] theorem upd_upd (v : Vector α k) (n : Nat) (f g : α → α) : upd (upd v n f) n g = upd v n (fun x => g (f x)) := by
  apply Vector.ext
  intro i hi
  simp only [getElem_upd]
  split <;> rfl

/-- Changes that agree on the entry agree. -/
theorem upd_congr (v : Vector α k) (n : Nat) (f g : α → α) (h : ∀ hn : n < k, f v[n] = g v[n]) : upd v n f = upd v n g := by
  apply Vector.ext
  intro i hi
  simp only [getElem_upd]
  split
  · next e => subst e; exact h hi
  · rfl

end Sys2Proof.Machine
end

