-- ==== Sys2Proof/Laws/Fine.lean ====
section
/-! SUPPORT. Inside the parts that a report touches, what it leaves alone: of the field channels it touches the event lines and the
captures of their edges, of the servo island the armed capture, of the protocol the telemetry queue, the counters and the table of sources. -/

namespace Sys2Proof.Machine

/-- The fields inside field, servo and qcp that a report, or the record of a command, does not touch. -/
structure Fine (s u : State) : Prop where
  field : u.field = { s.field with lines := u.field.lines, captures := u.field.captures, overrunDue := u.field.overrunDue }
  servo : u.servo = { s.servo with ic := { s.servo.ic with capState := u.servo.ic.capState } }
  qcp : u.qcp = { s.qcp with tele := u.qcp.tele, tseq := u.qcp.tseq, dropped := u.qcp.dropped, counters := u.qcp.counters,
                             sources := u.qcp.sources }

theorem Fine.refl (s : State) : Fine s s := ⟨rfl, rfl, rfl⟩

theorem Fine.trans {s u v : State} (h : Fine s u) (k : Fine u v) : Fine s v := by
  obtain ⟨h1, h2, h3⟩ := h
  obtain ⟨k1, k2, k3⟩ := k
  refine ⟨k1.trans ?_, k2.trans ?_, k3.trans ?_⟩
  · rw [h1]
  · rw [h2]
  · rw [h3]

theorem Fine.ite {s a b : State} {c : Prop} [Decidable c] (h : Fine s a) (k : Fine s b) : Fine s (if c then a else b) := by
  split <;> assumption

theorem Fine.of_frame {s u : State} {ps : List Part} (h : FrameBut ps s u) (hf : Part.field ∉ ps) (hs : Part.servo ∉ ps)
    (hq : Part.qcp ∉ ps) : Fine s u := by
  have h1 : u.field = s.field := h .field hf
  have h2 : u.servo = s.servo := h .servo hs
  have h3 : u.qcp = s.qcp := h .qcp hq
  refine ⟨?_, ?_, ?_⟩
  · rw [h1]
  · rw [h2]
  · rw [h3]

theorem Fine.set_events (s : State) (x) : Fine s { s with events := x } := ⟨rfl, rfl, rfl⟩

theorem State.eventFrame_fine (s : State) (n e) : Fine s (s.eventFrame n e) := by
  unfold State.eventFrame State.pushTele
  exact Fine.ite (Fine.refl s) ⟨rfl, rfl, rfl⟩

theorem State.stampEdge_fine (s : State) (m r e) : Fine s (s.stampEdge m r e).2 := by
  unfold State.stampEdge
  dsimp only
  split
  · exact Fine.refl s
  · split
    · exact ⟨rfl, rfl, rfl⟩
    · exact ⟨rfl, rfl, rfl⟩

theorem State.stampInput_fine (s : State) (i r e) : Fine s (s.stampInput i r e).2 := by
  unfold State.stampInput
  generalize List.range 16 = ms
  suffices h : ∀ a : Nat × State, Fine s a.2 → Fine s (ms.foldl _ a).2 from h (0, s) (Fine.refl s)
  induction ms with
  | nil => exact fun _ h => h
  | cons m ms ih =>
    intro a h
    refine ih _ ?_
    dsimp only
    split
    · exact h.trans (State.stampEdge_fine _ _ _ _)
    · exact h

theorem State.captureLine_fine (s : State) (l w e) : Fine s (s.captureLine l w e) := by
  unfold State.captureLine
  split
  · exact Fine.refl s
  · have h := State.stampInput_fine s (0x21 + l) true e
    generalize s.stampInput (0x21 + l) true e = q at h
    obtain ⟨n, u⟩ := q
    exact h.trans (v := { u with field.overrunDue := u.field.overrunDue + n }) ⟨rfl, rfl, rfl⟩

theorem State.eventPulse_fine (s : State) (n) : Fine s (s.eventPulse n) := by
  unfold State.eventPulse State.pulseLine State.pulseFrom
  refine Fine.ite (Fine.trans ?_ (State.captureLine_fine _ _ (s.lineHigh _) _)) (Fine.refl s)
  exact ⟨rfl, rfl, rfl⟩

theorem State.deliver_fine (s : State) (n p0 p1 p2 p3 tr mu) : Fine s (s.deliver n p0 p1 p2 p3 tr mu) := by
  unfold State.deliver
  split
  · exact Fine.refl s
  · refine Fine.trans (Fine.trans ?_ (State.eventFrame_fine _ _ _)) (State.eventPulse_fine _ _)
    refine Fine.trans (u := s.draw.2) (Fine.of_frame (ps := [.free]) (frame_set_free s _) (by decide) (by decide) (by decide)) ?_
    exact Fine.ite (Fine.of_frame (State.eventRecord_frame _ _ _ _) (by decide) (by decide) (by decide)) (Fine.refl _)

theorem State.startHandler_fine (s : State) (c) : Fine s (s.startHandler c) := by
  unfold State.startHandler
  split
  · exact Fine.refl s
  · split
    · exact Fine.refl s
    · exact Fine.trans (Fine.set_events s _) (State.deliver_fine _ _ _ _ _ _ _ _)

theorem State.admitFault_fine (c : Nat) (f : FaultEntry) (s : State) : Fine s (State.admitFault c f s).1 := by
  induction c generalizing f s with
  | zero => exact Fine.refl s
  | succ c ih =>
    unfold State.admitFault
    have hf : Fine s (if c = 0 then s.startFlush 1 else s) := by
      refine Fine.ite ?_ (Fine.refl s)
      unfold State.startFlush; exact Fine.ite (Fine.refl s) ⟨rfl, rfl, rfl⟩
    refine hf.trans ?_
    generalize (if c = 0 then s.startFlush 1 else s) = v
    simp only
    split
    · exact Fine.trans (Fine.set_events v _) (Fine.ite (Fine.refl _) (State.startHandler_fine _ _))
    · split
      · exact Fine.set_events v _
      · split
        · exact Fine.set_events v _
        · exact (State.deliver_fine v _ _ _ _ _ _ _).trans (ih _ _)

theorem State.raiseCore_fine (s : State) (n p0 p1 p2 p3 mu) : Fine s (s.raiseCore n p0 p1 p2 p3 mu).1 := by
  unfold State.raiseCore
  split
  · exact Fine.refl s
  · have h0 : Fine s { s with servo.ic := s.servo.ic.onEvent n, events := s.events.noteRaised n p0 } := by
      refine ⟨rfl, ?_, rfl⟩
      simp only
      unfold InjCap.onEvent
      split <;> rfl
    refine h0.trans ?_
    generalize ({ s with servo.ic := s.servo.ic.onEvent n, events := s.events.noteRaised n p0 } : State) = v
    simp only
    split
    · exact Fine.set_events v _
    · split
      · exact ((State.deliver_fine v _ _ _ _ _ _ _).trans (Fine.set_events _ _)).trans (State.admitFault_fine _ _ _)
      · exact State.deliver_fine v _ _ _ _ _ _ _

/-- A source outside the fault handler leaves no more than its record, its frame, its line and an armed capture. -/
theorem State.raise_fine (s : State) (n p0 p1 p2 p3 mu) (h : (s.route n).fault = false) : Fine s (s.raise n p0 p1 p2 p3 mu) := by
  have hr : (s.raiseCore n p0 p1 p2 p3 mu).2 = false := by
    unfold State.raiseCore
    split
    · rfl
    · have : (State.route { s with servo.ic := s.servo.ic.onEvent n, events := s.events.noteRaised n p0 } n).fault = false := by
        have e : State.route { s with servo.ic := s.servo.ic.onEvent n, events := s.events.noteRaised n p0 } n = s.route n := by
          unfold State.route EventState.noteRaised; grind
        rw [e]; exact h
      simp [this]
  unfold State.raise
  simp only [hr]
  exact State.raiseCore_fine s n p0 p1 p2 p3 mu

theorem State.recordCommand_fine (s : State) (req op p0 v tm) (h : (s.route 4).fault = false) :
    Fine s (s.recordCommand req op p0 v tm) := by
  unfold State.recordCommand
  have f1 : Fine s (s.sourceIndex req.src tm).2 := by
    unfold State.sourceIndex
    split
    · exact Fine.refl s
    · refine Fine.trans (u := { s with qcp.sources := (if 256 ≤ s.qcp.sources.length then [] else s.qcp.sources) ++ [req.src] })
        ⟨rfl, rfl, rfl⟩ ?_
      exact Fine.of_frame (ps := [.recorder]) (frame_set_recorder _ _) (by decide) (by decide) (by decide)
  have e1 : (s.sourceIndex req.src tm).2.events = s.events := (State.sourceIndex_frame s req.src tm).events
  generalize s.sourceIndex req.src tm = q at f1 e1
  obtain ⟨i, w⟩ := q
  simp only at f1 e1 ⊢
  refine (f1.trans (Fine.of_frame (State.record_frame w _ _ _ _ _ _ _ _) (by decide) (by decide) (by decide))).trans
    (State.raise_fine _ _ _ _ _ _ _ ?_)
  rw [route_of_events (State.record_frame w _ _ _ _ _ _ _ _).events, route_of_events e1]
  exact h

/-- The state in which a WRITE acts: its command has left the queue, and field, servo and qcp are as they were but for the report. -/
theorem State.atWrite_fine {s : State} {t req obj v} (h : Ready s t req 0x11 (writeBody obj v)) :
    Fine { s with qcp.queue := s.qcp.queue.drop 1, qcp.busyRun := false } (s.atWrite t req obj v) := by
  have c := s.clock_frame t
  unfold State.atWrite State.taken
  refine Fine.trans ?_ (State.recordCommand_fine _ _ _ _ _ _ h.clock.report)
  have h1 : (s.clock t).field = s.field := c.field
  have h2 : (s.clock t).servo = s.servo := c.servo
  have h3 : (s.clock t).qcp = s.qcp := c.qcp
  refine ⟨?_, ?_, ?_⟩ <;> simp only [h1, h2, h3]

@[simp] theorem State.atWrite_field_u {s : State} {t req obj v} (h : Ready s t req 0x11 (writeBody obj v)) :
    (s.atWrite t req obj v).field.u = s.field.u := by rw [(State.atWrite_fine h).field]
@[simp] theorem State.atWrite_field_ao {s : State} {t req obj v} (h : Ready s t req 0x11 (writeBody obj v)) :
    (s.atWrite t req obj v).field.ao = s.field.ao := by rw [(State.atWrite_fine h).field]
@[simp] theorem State.atWrite_servo {s : State} {t req obj v} (h : Ready s t req 0x11 (writeBody obj v)) :
    (s.atWrite t req obj v).servo = { s.servo with ic.capState := (s.atWrite t req obj v).servo.ic.capState } :=
  (State.atWrite_fine h).servo

end Sys2Proof.Machine
end

