-- ==== Sys2Proof/Laws/Memory.lean ====
section
/-! SUPPORT. Frame memory: every operation keeps the canonical form, a write gives the level written, and leaves every other
pixel alone. -/

namespace Sys2Proof.Machine

/-- A tail whose addresses start higher is one whose addresses start lower. -/
theorem Memory.wfFrom_mono {lo hi : Nat} (h : lo ≤ hi) : ∀ {m : List Host.Cell}, Memory.wfFrom hi m = true → Memory.wfFrom lo m = true
  | [], _ => rfl
  | (a, v) :: rest, w => by
    simp only [Memory.wfFrom, Bool.and_eq_true, decide_eq_true_eq] at w ⊢
    exact ⟨⟨⟨by omega, w.1.1.2⟩, w.1.2⟩, w.2⟩

/-- A pixel below every listed address is at level 0. -/
theorem Memory.get_below {lo a : Nat} (h : a < lo) : ∀ {m : List Host.Cell}, Memory.wfFrom lo m = true → Memory.get m a = 0
  | [], _ => rfl
  | (b, v) :: rest, w => by
    simp only [Memory.wfFrom, Bool.and_eq_true, decide_eq_true_eq] at w
    rw [Memory.get, if_neg (by omega)]
    exact Memory.get_below (by omega) w.2

/-- Setting a pixel keeps the form, from any bound not above its address. -/
theorem Memory.put_wfFrom {a : Nat} {v : Byte} (ha : a < panelPixels) :
    ∀ {m : List Host.Cell} {lo : Nat}, lo ≤ a → Memory.wfFrom lo m = true → Memory.wfFrom lo (Memory.put a v m) = true
  | [], lo, h, _ => by
    unfold Memory.put
    split
    · rfl
    · simp_all [Memory.wfFrom]
  | (b, w) :: rest, lo, h, hm => by
    have hm' := hm
    simp only [Memory.wfFrom, Bool.and_eq_true, decide_eq_true_eq, bne_iff_ne, ne_eq] at hm'
    obtain ⟨⟨⟨h1, h2⟩, h3⟩, h4⟩ := hm'
    unfold Memory.put
    split
    · split
      · exact hm
      · rename_i hab hv
        simp only [Memory.wfFrom, Bool.and_eq_true, decide_eq_true_eq, bne_iff_ne, ne_eq]
        exact ⟨⟨⟨h, ha⟩, hv⟩, ⟨⟨by omega, h2⟩, h3⟩, h4⟩
    · split
      · rename_i hab hb
        split
        · exact Memory.wfFrom_mono (by omega) h4
        · rename_i hv
          simp only [Memory.wfFrom, Bool.and_eq_true, decide_eq_true_eq, bne_iff_ne, ne_eq]
          exact ⟨⟨⟨h, ha⟩, hv⟩, by rw [hb]; exact h4⟩
      · simp only [Memory.wfFrom, Bool.and_eq_true, decide_eq_true_eq, bne_iff_ne, ne_eq]
        exact ⟨⟨⟨h1, h2⟩, h3⟩, Memory.put_wfFrom ha (by omega) h4⟩

/-- `Memory.set` keeps the form. -/
theorem Memory.set_wf {m : List Host.Cell} (a : Nat) (v : Byte) (h : Memory.wf m = true) : Memory.wf (Memory.set m a v) = true := by
  unfold Memory.set
  split
  · exact Memory.put_wfFrom ‹_› (Nat.zero_le _) h
  · exact h

/-- `Memory.paint` keeps the form. -/
theorem Memory.paint_wf {m : List Host.Cell} (r : PnlRequest) (level : Nat → Nat → Byte) (h : Memory.wf m = true) :
    Memory.wf (Memory.paint m r level) = true := by
  unfold Memory.paint
  generalize (rectAddresses r.x r.y r.w r.h).zipIdx = ps
  induction ps generalizing m with
  | nil => exact h
  | cons p ps ih => exact ih (Memory.set_wf _ _ h)

/-- What a set leaves to read: the level at the pixel, and every other pixel as it was. -/
theorem Memory.get_put {a : Nat} {v : Byte} (x : Nat) :
    ∀ {m : List Host.Cell} {lo : Nat}, Memory.wfFrom lo m = true →
      Memory.get (Memory.put a v m) x = if x = a then v else Memory.get m x
  | [], lo, _ => by
    unfold Memory.put
    split <;> simp_all [Memory.get]
  | (b, w) :: rest, lo, hm => by
    simp only [Memory.wfFrom, Bool.and_eq_true, decide_eq_true_eq, bne_iff_ne, ne_eq] at hm
    unfold Memory.put
    split
    · rename_i hab
      split
      · rename_i hv
        by_cases hx : x = a
        · subst hx; rw [if_pos rfl, hv, Memory.get, if_neg (by omega)]
          exact Memory.get_below (by omega) hm.2
        · rw [if_neg hx]
      · simp only [Memory.get]
    · split
      · rename_i hab hb
        subst hb
        split
        · rename_i hv
          by_cases hx : x = a
          · subst hx; rw [if_pos rfl, hv]; exact Memory.get_below (by omega) hm.2
          · rw [if_neg hx, Memory.get, if_neg hx]
        · by_cases hx : x = a <;> simp [Memory.get, hx]
      · rename_i hab hb
        simp only [Memory.get, Memory.get_put x hm.2]
        by_cases hx : x = b
        · subst hx; simp [show x ≠ a from fun e => hb e.symm]
        · simp [hx]

/-- `Memory.set` of a pixel of the panel. -/
theorem Memory.get_set {m : List Host.Cell} {a : Nat} (v : Byte) (x : Nat) (ha : a < panelPixels) (h : Memory.wf m = true) :
    Memory.get (Memory.set m a v) x = if x = a then v else Memory.get m x := by
  rw [Memory.set, if_pos ha]
  exact Memory.get_put x h

/-- Writes at addresses that do not include `x` leave it alone. -/
theorem Memory.get_foldl_other {level : Nat → Nat → Byte} {x : Nat} :
    ∀ {ps : List (Nat × Nat)} {m : List Host.Cell}, Memory.wf m = true → (∀ p ∈ ps, p.1 ≠ x) →
      Memory.get (ps.foldl (fun m p => Memory.set m p.1 (level p.1 p.2)) m) x = Memory.get m x
  | [], _, _, _ => rfl
  | p :: ps, m, h, hp => by
    rw [List.foldl_cons, Memory.get_foldl_other (Memory.set_wf _ _ h) fun q hq => hp q (List.mem_cons_of_mem _ hq)]
    by_cases hlt : p.1 < panelPixels
    · rw [Memory.get_set _ _ hlt h, if_neg fun e => hp p List.mem_cons_self e.symm]
    · rw [Memory.set, if_neg hlt]

/-- Two memories in canonical form that read alike are equal. -/
theorem Memory.ext_of_get {m n : List Host.Cell} :
    ∀ {lo : Nat}, Memory.wfFrom lo m = true → Memory.wfFrom lo n = true → (∀ a, Memory.get m a = Memory.get n a) → m = n := by
  induction m generalizing n with
  | nil =>
    intro lo _ hn h
    cases n with
    | nil => rfl
    | cons p rest =>
      obtain ⟨b, v⟩ := p
      have := h b
      simp [Memory.get] at this
      simp [Memory.wfFrom, ← this] at hn
  | cons p rest ih =>
    obtain ⟨b, v⟩ := p
    intro lo hm hn h
    cases n with
    | nil =>
      have := h b
      simp [Memory.get] at this
      simp [Memory.wfFrom, this] at hm
    | cons q rest' =>
      obtain ⟨c, w⟩ := q
      simp only [Memory.wfFrom, Bool.and_eq_true, decide_eq_true_eq, bne_iff_ne, ne_eq] at hm hn
      have hbc : b = c := by
        rcases Nat.lt_trichotomy b c with hl | he | hg
        · have := h b
          simp only [Memory.get, if_true] at this
          rw [if_neg (by omega), Memory.get_below (by omega) hn.2] at this
          exact absurd this hm.1.2
        · exact he
        · have := h c
          simp only [Memory.get, if_true] at this
          rw [if_neg (by omega), Memory.get_below (by omega) hm.2] at this
          exact absurd this.symm hn.1.2
      subst hbc
      have hv : v = w := by simpa [Memory.get] using h b
      subst hv
      have : rest = rest' := ih hm.2 hn.2 fun a => by
        by_cases ha : a = b
        · subst ha; rw [Memory.get_below (by omega) hm.2, Memory.get_below (by omega) hn.2]
        · simpa [Memory.get, ha] using h a
      rw [this]

end Sys2Proof.Machine
end

