-- ==== Sys2Proof/Laws/State.lean ====
section
/-! SUPPORT. The named updates of State, field by field: each is true by unfolding, so no later proof opens a record update. -/

namespace Sys2Proof.Machine

/-! ### `State.setTb` changes `time.tb` alone -/

@[simp] theorem State.setTb_time_tb (s : State) (n : Nat) (f : TimeBase → TimeBase) : (s.setTb n f).time.tb = upd s.time.tb n f := rfl
@[simp] theorem State.setTb_factory (s : State) (n : Nat) (f : TimeBase → TimeBase) : (s.setTb n f).factory = s.factory := rfl
@[simp] theorem State.setTb_events (s : State) (n : Nat) (f : TimeBase → TimeBase) : (s.setTb n f).events = s.events := rfl
@[simp] theorem State.setTb_cycle (s : State) (n : Nat) (f : TimeBase → TimeBase) : (s.setTb n f).cycle = s.cycle := rfl
@[simp] theorem State.setTb_image (s : State) (n : Nat) (f : TimeBase → TimeBase) : (s.setTb n f).image = s.image := rfl
@[simp] theorem State.setTb_gnss (s : State) (n : Nat) (f : TimeBase → TimeBase) : (s.setTb n f).gnss = s.gnss := rfl
@[simp] theorem State.setTb_ain (s : State) (n : Nat) (f : TimeBase → TimeBase) : (s.setTb n f).ain = s.ain := rfl
@[simp] theorem State.setTb_fusion (s : State) (n : Nat) (f : TimeBase → TimeBase) : (s.setTb n f).fusion = s.fusion := rfl
@[simp] theorem State.setTb_wind (s : State) (n : Nat) (f : TimeBase → TimeBase) : (s.setTb n f).wind = s.wind := rfl
@[simp] theorem State.setTb_obs (s : State) (n : Nat) (f : TimeBase → TimeBase) : (s.setTb n f).obs = s.obs := rfl
@[simp] theorem State.setTb_obsParams (s : State) (n : Nat) (f : TimeBase → TimeBase) : (s.setTb n f).obsParams = s.obsParams := rfl
@[simp] theorem State.setTb_obsOut (s : State) (n : Nat) (f : TimeBase → TimeBase) : (s.setTb n f).obsOut = s.obsOut := rfl
@[simp] theorem State.setTb_history (s : State) (n : Nat) (f : TimeBase → TimeBase) : (s.setTb n f).history = s.history := rfl
@[simp] theorem State.setTb_law (s : State) (n : Nat) (f : TimeBase → TimeBase) : (s.setTb n f).law = s.law := rfl
@[simp] theorem State.setTb_dyn (s : State) (n : Nat) (f : TimeBase → TimeBase) : (s.setTb n f).dyn = s.dyn := rfl
@[simp] theorem State.setTb_sol (s : State) (n : Nat) (f : TimeBase → TimeBase) : (s.setTb n f).sol = s.sol := rfl
@[simp] theorem State.setTb_res (s : State) (n : Nat) (f : TimeBase → TimeBase) : (s.setTb n f).res = s.res := rfl
@[simp] theorem State.setTb_solParams (s : State) (n : Nat) (f : TimeBase → TimeBase) : (s.setTb n f).solParams = s.solParams := rfl
@[simp] theorem State.setTb_servo (s : State) (n : Nat) (f : TimeBase → TimeBase) : (s.setTb n f).servo = s.servo := rfl
@[simp] theorem State.setTb_field (s : State) (n : Nat) (f : TimeBase → TimeBase) : (s.setTb n f).field = s.field := rfl
@[simp] theorem State.setTb_saf (s : State) (n : Nat) (f : TimeBase → TimeBase) : (s.setTb n f).saf = s.saf := rfl
@[simp] theorem State.setTb_modes (s : State) (n : Nat) (f : TimeBase → TimeBase) : (s.setTb n f).modes = s.modes := rfl
@[simp] theorem State.setTb_retained (s : State) (n : Nat) (f : TimeBase → TimeBase) : (s.setTb n f).retained = s.retained := rfl
@[simp] theorem State.setTb_group (s : State) (n : Nat) (f : TimeBase → TimeBase) : (s.setTb n f).group = s.group := rfl
@[simp] theorem State.setTb_gcycle (s : State) (n : Nat) (f : TimeBase → TimeBase) : (s.setTb n f).gcycle = s.gcycle := rfl
@[simp] theorem State.setTb_net (s : State) (n : Nat) (f : TimeBase → TimeBase) : (s.setTb n f).net = s.net := rfl
@[simp] theorem State.setTb_qcp (s : State) (n : Nat) (f : TimeBase → TimeBase) : (s.setTb n f).qcp = s.qcp := rfl
@[simp] theorem State.setTb_recorder (s : State) (n : Nat) (f : TimeBase → TimeBase) : (s.setTb n f).recorder = s.recorder := rfl
@[simp] theorem State.setTb_trust (s : State) (n : Nat) (f : TimeBase → TimeBase) : (s.setTb n f).trust = s.trust := rfl
@[simp] theorem State.setTb_hsk (s : State) (n : Nat) (f : TimeBase → TimeBase) : (s.setTb n f).hsk = s.hsk := rfl
@[simp] theorem State.setTb_update (s : State) (n : Nat) (f : TimeBase → TimeBase) : (s.setTb n f).update = s.update := rfl
@[simp] theorem State.setTb_panel (s : State) (n : Nat) (f : TimeBase → TimeBase) : (s.setTb n f).panel = s.panel := rfl
@[simp] theorem State.setTb_power (s : State) (n : Nat) (f : TimeBase → TimeBase) : (s.setTb n f).power = s.power := rfl
@[simp] theorem State.setTb_free (s : State) (n : Nat) (f : TimeBase → TimeBase) : (s.setTb n f).free = s.free := rfl
@[simp] theorem State.setTb_pending (s : State) (n : Nat) (f : TimeBase → TimeBase) : (s.setTb n f).pending = s.pending := rfl

/-! ### `State.setCapture` changes `field.captures` alone -/

@[simp] theorem State.setCapture_field_captures (s : State) (m : Nat) (f : CaptureUnit → CaptureUnit) : (s.setCapture m f).field.captures = upd s.field.captures m f := rfl
@[simp] theorem State.setCapture_factory (s : State) (m : Nat) (f : CaptureUnit → CaptureUnit) : (s.setCapture m f).factory = s.factory := rfl
@[simp] theorem State.setCapture_events (s : State) (m : Nat) (f : CaptureUnit → CaptureUnit) : (s.setCapture m f).events = s.events := rfl
@[simp] theorem State.setCapture_cycle (s : State) (m : Nat) (f : CaptureUnit → CaptureUnit) : (s.setCapture m f).cycle = s.cycle := rfl
@[simp] theorem State.setCapture_image (s : State) (m : Nat) (f : CaptureUnit → CaptureUnit) : (s.setCapture m f).image = s.image := rfl
@[simp] theorem State.setCapture_time (s : State) (m : Nat) (f : CaptureUnit → CaptureUnit) : (s.setCapture m f).time = s.time := rfl
@[simp] theorem State.setCapture_gnss (s : State) (m : Nat) (f : CaptureUnit → CaptureUnit) : (s.setCapture m f).gnss = s.gnss := rfl
@[simp] theorem State.setCapture_ain (s : State) (m : Nat) (f : CaptureUnit → CaptureUnit) : (s.setCapture m f).ain = s.ain := rfl
@[simp] theorem State.setCapture_fusion (s : State) (m : Nat) (f : CaptureUnit → CaptureUnit) : (s.setCapture m f).fusion = s.fusion := rfl
@[simp] theorem State.setCapture_wind (s : State) (m : Nat) (f : CaptureUnit → CaptureUnit) : (s.setCapture m f).wind = s.wind := rfl
@[simp] theorem State.setCapture_obs (s : State) (m : Nat) (f : CaptureUnit → CaptureUnit) : (s.setCapture m f).obs = s.obs := rfl
@[simp] theorem State.setCapture_obsParams (s : State) (m : Nat) (f : CaptureUnit → CaptureUnit) : (s.setCapture m f).obsParams = s.obsParams := rfl
@[simp] theorem State.setCapture_obsOut (s : State) (m : Nat) (f : CaptureUnit → CaptureUnit) : (s.setCapture m f).obsOut = s.obsOut := rfl
@[simp] theorem State.setCapture_history (s : State) (m : Nat) (f : CaptureUnit → CaptureUnit) : (s.setCapture m f).history = s.history := rfl
@[simp] theorem State.setCapture_law (s : State) (m : Nat) (f : CaptureUnit → CaptureUnit) : (s.setCapture m f).law = s.law := rfl
@[simp] theorem State.setCapture_dyn (s : State) (m : Nat) (f : CaptureUnit → CaptureUnit) : (s.setCapture m f).dyn = s.dyn := rfl
@[simp] theorem State.setCapture_sol (s : State) (m : Nat) (f : CaptureUnit → CaptureUnit) : (s.setCapture m f).sol = s.sol := rfl
@[simp] theorem State.setCapture_res (s : State) (m : Nat) (f : CaptureUnit → CaptureUnit) : (s.setCapture m f).res = s.res := rfl
@[simp] theorem State.setCapture_solParams (s : State) (m : Nat) (f : CaptureUnit → CaptureUnit) : (s.setCapture m f).solParams = s.solParams := rfl
@[simp] theorem State.setCapture_servo (s : State) (m : Nat) (f : CaptureUnit → CaptureUnit) : (s.setCapture m f).servo = s.servo := rfl
@[simp] theorem State.setCapture_saf (s : State) (m : Nat) (f : CaptureUnit → CaptureUnit) : (s.setCapture m f).saf = s.saf := rfl
@[simp] theorem State.setCapture_modes (s : State) (m : Nat) (f : CaptureUnit → CaptureUnit) : (s.setCapture m f).modes = s.modes := rfl
@[simp] theorem State.setCapture_retained (s : State) (m : Nat) (f : CaptureUnit → CaptureUnit) : (s.setCapture m f).retained = s.retained := rfl
@[simp] theorem State.setCapture_group (s : State) (m : Nat) (f : CaptureUnit → CaptureUnit) : (s.setCapture m f).group = s.group := rfl
@[simp] theorem State.setCapture_gcycle (s : State) (m : Nat) (f : CaptureUnit → CaptureUnit) : (s.setCapture m f).gcycle = s.gcycle := rfl
@[simp] theorem State.setCapture_net (s : State) (m : Nat) (f : CaptureUnit → CaptureUnit) : (s.setCapture m f).net = s.net := rfl
@[simp] theorem State.setCapture_qcp (s : State) (m : Nat) (f : CaptureUnit → CaptureUnit) : (s.setCapture m f).qcp = s.qcp := rfl
@[simp] theorem State.setCapture_recorder (s : State) (m : Nat) (f : CaptureUnit → CaptureUnit) : (s.setCapture m f).recorder = s.recorder := rfl
@[simp] theorem State.setCapture_trust (s : State) (m : Nat) (f : CaptureUnit → CaptureUnit) : (s.setCapture m f).trust = s.trust := rfl
@[simp] theorem State.setCapture_hsk (s : State) (m : Nat) (f : CaptureUnit → CaptureUnit) : (s.setCapture m f).hsk = s.hsk := rfl
@[simp] theorem State.setCapture_update (s : State) (m : Nat) (f : CaptureUnit → CaptureUnit) : (s.setCapture m f).update = s.update := rfl
@[simp] theorem State.setCapture_panel (s : State) (m : Nat) (f : CaptureUnit → CaptureUnit) : (s.setCapture m f).panel = s.panel := rfl
@[simp] theorem State.setCapture_power (s : State) (m : Nat) (f : CaptureUnit → CaptureUnit) : (s.setCapture m f).power = s.power := rfl
@[simp] theorem State.setCapture_free (s : State) (m : Nat) (f : CaptureUnit → CaptureUnit) : (s.setCapture m f).free = s.free := rfl
@[simp] theorem State.setCapture_pending (s : State) (m : Nat) (f : CaptureUnit → CaptureUnit) : (s.setCapture m f).pending = s.pending := rfl

/-! ### `State.setAsym` changes `time.linkAsym` alone -/

@[simp] theorem State.setAsym_time_linkAsym (s : State) (l : Nat) (v : Int) : (s.setAsym l v).time.linkAsym = upd s.time.linkAsym l fun _ => v := rfl
@[simp] theorem State.setAsym_factory (s : State) (l : Nat) (v : Int) : (s.setAsym l v).factory = s.factory := rfl
@[simp] theorem State.setAsym_events (s : State) (l : Nat) (v : Int) : (s.setAsym l v).events = s.events := rfl
@[simp] theorem State.setAsym_cycle (s : State) (l : Nat) (v : Int) : (s.setAsym l v).cycle = s.cycle := rfl
@[simp] theorem State.setAsym_image (s : State) (l : Nat) (v : Int) : (s.setAsym l v).image = s.image := rfl
@[simp] theorem State.setAsym_gnss (s : State) (l : Nat) (v : Int) : (s.setAsym l v).gnss = s.gnss := rfl
@[simp] theorem State.setAsym_ain (s : State) (l : Nat) (v : Int) : (s.setAsym l v).ain = s.ain := rfl
@[simp] theorem State.setAsym_fusion (s : State) (l : Nat) (v : Int) : (s.setAsym l v).fusion = s.fusion := rfl
@[simp] theorem State.setAsym_wind (s : State) (l : Nat) (v : Int) : (s.setAsym l v).wind = s.wind := rfl
@[simp] theorem State.setAsym_obs (s : State) (l : Nat) (v : Int) : (s.setAsym l v).obs = s.obs := rfl
@[simp] theorem State.setAsym_obsParams (s : State) (l : Nat) (v : Int) : (s.setAsym l v).obsParams = s.obsParams := rfl
@[simp] theorem State.setAsym_obsOut (s : State) (l : Nat) (v : Int) : (s.setAsym l v).obsOut = s.obsOut := rfl
@[simp] theorem State.setAsym_history (s : State) (l : Nat) (v : Int) : (s.setAsym l v).history = s.history := rfl
@[simp] theorem State.setAsym_law (s : State) (l : Nat) (v : Int) : (s.setAsym l v).law = s.law := rfl
@[simp] theorem State.setAsym_dyn (s : State) (l : Nat) (v : Int) : (s.setAsym l v).dyn = s.dyn := rfl
@[simp] theorem State.setAsym_sol (s : State) (l : Nat) (v : Int) : (s.setAsym l v).sol = s.sol := rfl
@[simp] theorem State.setAsym_res (s : State) (l : Nat) (v : Int) : (s.setAsym l v).res = s.res := rfl
@[simp] theorem State.setAsym_solParams (s : State) (l : Nat) (v : Int) : (s.setAsym l v).solParams = s.solParams := rfl
@[simp] theorem State.setAsym_servo (s : State) (l : Nat) (v : Int) : (s.setAsym l v).servo = s.servo := rfl
@[simp] theorem State.setAsym_field (s : State) (l : Nat) (v : Int) : (s.setAsym l v).field = s.field := rfl
@[simp] theorem State.setAsym_saf (s : State) (l : Nat) (v : Int) : (s.setAsym l v).saf = s.saf := rfl
@[simp] theorem State.setAsym_modes (s : State) (l : Nat) (v : Int) : (s.setAsym l v).modes = s.modes := rfl
@[simp] theorem State.setAsym_retained (s : State) (l : Nat) (v : Int) : (s.setAsym l v).retained = s.retained := rfl
@[simp] theorem State.setAsym_group (s : State) (l : Nat) (v : Int) : (s.setAsym l v).group = s.group := rfl
@[simp] theorem State.setAsym_gcycle (s : State) (l : Nat) (v : Int) : (s.setAsym l v).gcycle = s.gcycle := rfl
@[simp] theorem State.setAsym_net (s : State) (l : Nat) (v : Int) : (s.setAsym l v).net = s.net := rfl
@[simp] theorem State.setAsym_qcp (s : State) (l : Nat) (v : Int) : (s.setAsym l v).qcp = s.qcp := rfl
@[simp] theorem State.setAsym_recorder (s : State) (l : Nat) (v : Int) : (s.setAsym l v).recorder = s.recorder := rfl
@[simp] theorem State.setAsym_trust (s : State) (l : Nat) (v : Int) : (s.setAsym l v).trust = s.trust := rfl
@[simp] theorem State.setAsym_hsk (s : State) (l : Nat) (v : Int) : (s.setAsym l v).hsk = s.hsk := rfl
@[simp] theorem State.setAsym_update (s : State) (l : Nat) (v : Int) : (s.setAsym l v).update = s.update := rfl
@[simp] theorem State.setAsym_panel (s : State) (l : Nat) (v : Int) : (s.setAsym l v).panel = s.panel := rfl
@[simp] theorem State.setAsym_power (s : State) (l : Nat) (v : Int) : (s.setAsym l v).power = s.power := rfl
@[simp] theorem State.setAsym_free (s : State) (l : Nat) (v : Int) : (s.setAsym l v).free = s.free := rfl
@[simp] theorem State.setAsym_pending (s : State) (l : Nat) (v : Int) : (s.setAsym l v).pending = s.pending := rfl

/-! ### `State.setAin` changes `ain.channels` alone -/

@[simp] theorem State.setAin_ain_channels (s : State) (n : Nat) (f : AinChannel → AinChannel) : (s.setAin n f).ain.channels = upd s.ain.channels n f := rfl
@[simp] theorem State.setAin_factory (s : State) (n : Nat) (f : AinChannel → AinChannel) : (s.setAin n f).factory = s.factory := rfl
@[simp] theorem State.setAin_events (s : State) (n : Nat) (f : AinChannel → AinChannel) : (s.setAin n f).events = s.events := rfl
@[simp] theorem State.setAin_cycle (s : State) (n : Nat) (f : AinChannel → AinChannel) : (s.setAin n f).cycle = s.cycle := rfl
@[simp] theorem State.setAin_image (s : State) (n : Nat) (f : AinChannel → AinChannel) : (s.setAin n f).image = s.image := rfl
@[simp] theorem State.setAin_time (s : State) (n : Nat) (f : AinChannel → AinChannel) : (s.setAin n f).time = s.time := rfl
@[simp] theorem State.setAin_gnss (s : State) (n : Nat) (f : AinChannel → AinChannel) : (s.setAin n f).gnss = s.gnss := rfl
@[simp] theorem State.setAin_fusion (s : State) (n : Nat) (f : AinChannel → AinChannel) : (s.setAin n f).fusion = s.fusion := rfl
@[simp] theorem State.setAin_wind (s : State) (n : Nat) (f : AinChannel → AinChannel) : (s.setAin n f).wind = s.wind := rfl
@[simp] theorem State.setAin_obs (s : State) (n : Nat) (f : AinChannel → AinChannel) : (s.setAin n f).obs = s.obs := rfl
@[simp] theorem State.setAin_obsParams (s : State) (n : Nat) (f : AinChannel → AinChannel) : (s.setAin n f).obsParams = s.obsParams := rfl
@[simp] theorem State.setAin_obsOut (s : State) (n : Nat) (f : AinChannel → AinChannel) : (s.setAin n f).obsOut = s.obsOut := rfl
@[simp] theorem State.setAin_history (s : State) (n : Nat) (f : AinChannel → AinChannel) : (s.setAin n f).history = s.history := rfl
@[simp] theorem State.setAin_law (s : State) (n : Nat) (f : AinChannel → AinChannel) : (s.setAin n f).law = s.law := rfl
@[simp] theorem State.setAin_dyn (s : State) (n : Nat) (f : AinChannel → AinChannel) : (s.setAin n f).dyn = s.dyn := rfl
@[simp] theorem State.setAin_sol (s : State) (n : Nat) (f : AinChannel → AinChannel) : (s.setAin n f).sol = s.sol := rfl
@[simp] theorem State.setAin_res (s : State) (n : Nat) (f : AinChannel → AinChannel) : (s.setAin n f).res = s.res := rfl
@[simp] theorem State.setAin_solParams (s : State) (n : Nat) (f : AinChannel → AinChannel) : (s.setAin n f).solParams = s.solParams := rfl
@[simp] theorem State.setAin_servo (s : State) (n : Nat) (f : AinChannel → AinChannel) : (s.setAin n f).servo = s.servo := rfl
@[simp] theorem State.setAin_field (s : State) (n : Nat) (f : AinChannel → AinChannel) : (s.setAin n f).field = s.field := rfl
@[simp] theorem State.setAin_saf (s : State) (n : Nat) (f : AinChannel → AinChannel) : (s.setAin n f).saf = s.saf := rfl
@[simp] theorem State.setAin_modes (s : State) (n : Nat) (f : AinChannel → AinChannel) : (s.setAin n f).modes = s.modes := rfl
@[simp] theorem State.setAin_retained (s : State) (n : Nat) (f : AinChannel → AinChannel) : (s.setAin n f).retained = s.retained := rfl
@[simp] theorem State.setAin_group (s : State) (n : Nat) (f : AinChannel → AinChannel) : (s.setAin n f).group = s.group := rfl
@[simp] theorem State.setAin_gcycle (s : State) (n : Nat) (f : AinChannel → AinChannel) : (s.setAin n f).gcycle = s.gcycle := rfl
@[simp] theorem State.setAin_net (s : State) (n : Nat) (f : AinChannel → AinChannel) : (s.setAin n f).net = s.net := rfl
@[simp] theorem State.setAin_qcp (s : State) (n : Nat) (f : AinChannel → AinChannel) : (s.setAin n f).qcp = s.qcp := rfl
@[simp] theorem State.setAin_recorder (s : State) (n : Nat) (f : AinChannel → AinChannel) : (s.setAin n f).recorder = s.recorder := rfl
@[simp] theorem State.setAin_trust (s : State) (n : Nat) (f : AinChannel → AinChannel) : (s.setAin n f).trust = s.trust := rfl
@[simp] theorem State.setAin_hsk (s : State) (n : Nat) (f : AinChannel → AinChannel) : (s.setAin n f).hsk = s.hsk := rfl
@[simp] theorem State.setAin_update (s : State) (n : Nat) (f : AinChannel → AinChannel) : (s.setAin n f).update = s.update := rfl
@[simp] theorem State.setAin_panel (s : State) (n : Nat) (f : AinChannel → AinChannel) : (s.setAin n f).panel = s.panel := rfl
@[simp] theorem State.setAin_power (s : State) (n : Nat) (f : AinChannel → AinChannel) : (s.setAin n f).power = s.power := rfl
@[simp] theorem State.setAin_free (s : State) (n : Nat) (f : AinChannel → AinChannel) : (s.setAin n f).free = s.free := rfl
@[simp] theorem State.setAin_pending (s : State) (n : Nat) (f : AinChannel → AinChannel) : (s.setAin n f).pending = s.pending := rfl

/-! ### `State.setRef` changes `fusion.refs` alone -/

@[simp] theorem State.setRef_fusion_refs (s : State) (r : Nat) (f : RefState → RefState) : (s.setRef r f).fusion.refs = upd s.fusion.refs r f := rfl
@[simp] theorem State.setRef_factory (s : State) (r : Nat) (f : RefState → RefState) : (s.setRef r f).factory = s.factory := rfl
@[simp] theorem State.setRef_events (s : State) (r : Nat) (f : RefState → RefState) : (s.setRef r f).events = s.events := rfl
@[simp] theorem State.setRef_cycle (s : State) (r : Nat) (f : RefState → RefState) : (s.setRef r f).cycle = s.cycle := rfl
@[simp] theorem State.setRef_image (s : State) (r : Nat) (f : RefState → RefState) : (s.setRef r f).image = s.image := rfl
@[simp] theorem State.setRef_time (s : State) (r : Nat) (f : RefState → RefState) : (s.setRef r f).time = s.time := rfl
@[simp] theorem State.setRef_gnss (s : State) (r : Nat) (f : RefState → RefState) : (s.setRef r f).gnss = s.gnss := rfl
@[simp] theorem State.setRef_ain (s : State) (r : Nat) (f : RefState → RefState) : (s.setRef r f).ain = s.ain := rfl
@[simp] theorem State.setRef_wind (s : State) (r : Nat) (f : RefState → RefState) : (s.setRef r f).wind = s.wind := rfl
@[simp] theorem State.setRef_obs (s : State) (r : Nat) (f : RefState → RefState) : (s.setRef r f).obs = s.obs := rfl
@[simp] theorem State.setRef_obsParams (s : State) (r : Nat) (f : RefState → RefState) : (s.setRef r f).obsParams = s.obsParams := rfl
@[simp] theorem State.setRef_obsOut (s : State) (r : Nat) (f : RefState → RefState) : (s.setRef r f).obsOut = s.obsOut := rfl
@[simp] theorem State.setRef_history (s : State) (r : Nat) (f : RefState → RefState) : (s.setRef r f).history = s.history := rfl
@[simp] theorem State.setRef_law (s : State) (r : Nat) (f : RefState → RefState) : (s.setRef r f).law = s.law := rfl
@[simp] theorem State.setRef_dyn (s : State) (r : Nat) (f : RefState → RefState) : (s.setRef r f).dyn = s.dyn := rfl
@[simp] theorem State.setRef_sol (s : State) (r : Nat) (f : RefState → RefState) : (s.setRef r f).sol = s.sol := rfl
@[simp] theorem State.setRef_res (s : State) (r : Nat) (f : RefState → RefState) : (s.setRef r f).res = s.res := rfl
@[simp] theorem State.setRef_solParams (s : State) (r : Nat) (f : RefState → RefState) : (s.setRef r f).solParams = s.solParams := rfl
@[simp] theorem State.setRef_servo (s : State) (r : Nat) (f : RefState → RefState) : (s.setRef r f).servo = s.servo := rfl
@[simp] theorem State.setRef_field (s : State) (r : Nat) (f : RefState → RefState) : (s.setRef r f).field = s.field := rfl
@[simp] theorem State.setRef_saf (s : State) (r : Nat) (f : RefState → RefState) : (s.setRef r f).saf = s.saf := rfl
@[simp] theorem State.setRef_modes (s : State) (r : Nat) (f : RefState → RefState) : (s.setRef r f).modes = s.modes := rfl
@[simp] theorem State.setRef_retained (s : State) (r : Nat) (f : RefState → RefState) : (s.setRef r f).retained = s.retained := rfl
@[simp] theorem State.setRef_group (s : State) (r : Nat) (f : RefState → RefState) : (s.setRef r f).group = s.group := rfl
@[simp] theorem State.setRef_gcycle (s : State) (r : Nat) (f : RefState → RefState) : (s.setRef r f).gcycle = s.gcycle := rfl
@[simp] theorem State.setRef_net (s : State) (r : Nat) (f : RefState → RefState) : (s.setRef r f).net = s.net := rfl
@[simp] theorem State.setRef_qcp (s : State) (r : Nat) (f : RefState → RefState) : (s.setRef r f).qcp = s.qcp := rfl
@[simp] theorem State.setRef_recorder (s : State) (r : Nat) (f : RefState → RefState) : (s.setRef r f).recorder = s.recorder := rfl
@[simp] theorem State.setRef_trust (s : State) (r : Nat) (f : RefState → RefState) : (s.setRef r f).trust = s.trust := rfl
@[simp] theorem State.setRef_hsk (s : State) (r : Nat) (f : RefState → RefState) : (s.setRef r f).hsk = s.hsk := rfl
@[simp] theorem State.setRef_update (s : State) (r : Nat) (f : RefState → RefState) : (s.setRef r f).update = s.update := rfl
@[simp] theorem State.setRef_panel (s : State) (r : Nat) (f : RefState → RefState) : (s.setRef r f).panel = s.panel := rfl
@[simp] theorem State.setRef_power (s : State) (r : Nat) (f : RefState → RefState) : (s.setRef r f).power = s.power := rfl
@[simp] theorem State.setRef_free (s : State) (r : Nat) (f : RefState → RefState) : (s.setRef r f).free = s.free := rfl
@[simp] theorem State.setRef_pending (s : State) (r : Nat) (f : RefState → RefState) : (s.setRef r f).pending = s.pending := rfl

/-! ### `State.setRefCfg` changes `fusion.sets` alone -/

@[simp] theorem State.setRefCfg_fusion_sets (s : State) (r : Nat) (f : RefSettings → RefSettings) : (s.setRefCfg r f).fusion.sets = upd s.fusion.sets r f := rfl
@[simp] theorem State.setRefCfg_factory (s : State) (r : Nat) (f : RefSettings → RefSettings) : (s.setRefCfg r f).factory = s.factory := rfl
@[simp] theorem State.setRefCfg_events (s : State) (r : Nat) (f : RefSettings → RefSettings) : (s.setRefCfg r f).events = s.events := rfl
@[simp] theorem State.setRefCfg_cycle (s : State) (r : Nat) (f : RefSettings → RefSettings) : (s.setRefCfg r f).cycle = s.cycle := rfl
@[simp] theorem State.setRefCfg_image (s : State) (r : Nat) (f : RefSettings → RefSettings) : (s.setRefCfg r f).image = s.image := rfl
@[simp] theorem State.setRefCfg_time (s : State) (r : Nat) (f : RefSettings → RefSettings) : (s.setRefCfg r f).time = s.time := rfl
@[simp] theorem State.setRefCfg_gnss (s : State) (r : Nat) (f : RefSettings → RefSettings) : (s.setRefCfg r f).gnss = s.gnss := rfl
@[simp] theorem State.setRefCfg_ain (s : State) (r : Nat) (f : RefSettings → RefSettings) : (s.setRefCfg r f).ain = s.ain := rfl
@[simp] theorem State.setRefCfg_wind (s : State) (r : Nat) (f : RefSettings → RefSettings) : (s.setRefCfg r f).wind = s.wind := rfl
@[simp] theorem State.setRefCfg_obs (s : State) (r : Nat) (f : RefSettings → RefSettings) : (s.setRefCfg r f).obs = s.obs := rfl
@[simp] theorem State.setRefCfg_obsParams (s : State) (r : Nat) (f : RefSettings → RefSettings) : (s.setRefCfg r f).obsParams = s.obsParams := rfl
@[simp] theorem State.setRefCfg_obsOut (s : State) (r : Nat) (f : RefSettings → RefSettings) : (s.setRefCfg r f).obsOut = s.obsOut := rfl
@[simp] theorem State.setRefCfg_history (s : State) (r : Nat) (f : RefSettings → RefSettings) : (s.setRefCfg r f).history = s.history := rfl
@[simp] theorem State.setRefCfg_law (s : State) (r : Nat) (f : RefSettings → RefSettings) : (s.setRefCfg r f).law = s.law := rfl
@[simp] theorem State.setRefCfg_dyn (s : State) (r : Nat) (f : RefSettings → RefSettings) : (s.setRefCfg r f).dyn = s.dyn := rfl
@[simp] theorem State.setRefCfg_sol (s : State) (r : Nat) (f : RefSettings → RefSettings) : (s.setRefCfg r f).sol = s.sol := rfl
@[simp] theorem State.setRefCfg_res (s : State) (r : Nat) (f : RefSettings → RefSettings) : (s.setRefCfg r f).res = s.res := rfl
@[simp] theorem State.setRefCfg_solParams (s : State) (r : Nat) (f : RefSettings → RefSettings) : (s.setRefCfg r f).solParams = s.solParams := rfl
@[simp] theorem State.setRefCfg_servo (s : State) (r : Nat) (f : RefSettings → RefSettings) : (s.setRefCfg r f).servo = s.servo := rfl
@[simp] theorem State.setRefCfg_field (s : State) (r : Nat) (f : RefSettings → RefSettings) : (s.setRefCfg r f).field = s.field := rfl
@[simp] theorem State.setRefCfg_saf (s : State) (r : Nat) (f : RefSettings → RefSettings) : (s.setRefCfg r f).saf = s.saf := rfl
@[simp] theorem State.setRefCfg_modes (s : State) (r : Nat) (f : RefSettings → RefSettings) : (s.setRefCfg r f).modes = s.modes := rfl
@[simp] theorem State.setRefCfg_retained (s : State) (r : Nat) (f : RefSettings → RefSettings) : (s.setRefCfg r f).retained = s.retained := rfl
@[simp] theorem State.setRefCfg_group (s : State) (r : Nat) (f : RefSettings → RefSettings) : (s.setRefCfg r f).group = s.group := rfl
@[simp] theorem State.setRefCfg_gcycle (s : State) (r : Nat) (f : RefSettings → RefSettings) : (s.setRefCfg r f).gcycle = s.gcycle := rfl
@[simp] theorem State.setRefCfg_net (s : State) (r : Nat) (f : RefSettings → RefSettings) : (s.setRefCfg r f).net = s.net := rfl
@[simp] theorem State.setRefCfg_qcp (s : State) (r : Nat) (f : RefSettings → RefSettings) : (s.setRefCfg r f).qcp = s.qcp := rfl
@[simp] theorem State.setRefCfg_recorder (s : State) (r : Nat) (f : RefSettings → RefSettings) : (s.setRefCfg r f).recorder = s.recorder := rfl
@[simp] theorem State.setRefCfg_trust (s : State) (r : Nat) (f : RefSettings → RefSettings) : (s.setRefCfg r f).trust = s.trust := rfl
@[simp] theorem State.setRefCfg_hsk (s : State) (r : Nat) (f : RefSettings → RefSettings) : (s.setRefCfg r f).hsk = s.hsk := rfl
@[simp] theorem State.setRefCfg_update (s : State) (r : Nat) (f : RefSettings → RefSettings) : (s.setRefCfg r f).update = s.update := rfl
@[simp] theorem State.setRefCfg_panel (s : State) (r : Nat) (f : RefSettings → RefSettings) : (s.setRefCfg r f).panel = s.panel := rfl
@[simp] theorem State.setRefCfg_power (s : State) (r : Nat) (f : RefSettings → RefSettings) : (s.setRefCfg r f).power = s.power := rfl
@[simp] theorem State.setRefCfg_free (s : State) (r : Nat) (f : RefSettings → RefSettings) : (s.setRefCfg r f).free = s.free := rfl
@[simp] theorem State.setRefCfg_pending (s : State) (r : Nat) (f : RefSettings → RefSettings) : (s.setRefCfg r f).pending = s.pending := rfl

/-! ### `State.setThr` changes `law.thr` alone -/

@[simp] theorem State.setThr_law_thr (s : State) (slice : Nat) (f : ThrusterLaw → ThrusterLaw) : (s.setThr slice f).law.thr = upd s.law.thr slice f := rfl
@[simp] theorem State.setThr_factory (s : State) (slice : Nat) (f : ThrusterLaw → ThrusterLaw) : (s.setThr slice f).factory = s.factory := rfl
@[simp] theorem State.setThr_events (s : State) (slice : Nat) (f : ThrusterLaw → ThrusterLaw) : (s.setThr slice f).events = s.events := rfl
@[simp] theorem State.setThr_cycle (s : State) (slice : Nat) (f : ThrusterLaw → ThrusterLaw) : (s.setThr slice f).cycle = s.cycle := rfl
@[simp] theorem State.setThr_image (s : State) (slice : Nat) (f : ThrusterLaw → ThrusterLaw) : (s.setThr slice f).image = s.image := rfl
@[simp] theorem State.setThr_time (s : State) (slice : Nat) (f : ThrusterLaw → ThrusterLaw) : (s.setThr slice f).time = s.time := rfl
@[simp] theorem State.setThr_gnss (s : State) (slice : Nat) (f : ThrusterLaw → ThrusterLaw) : (s.setThr slice f).gnss = s.gnss := rfl
@[simp] theorem State.setThr_ain (s : State) (slice : Nat) (f : ThrusterLaw → ThrusterLaw) : (s.setThr slice f).ain = s.ain := rfl
@[simp] theorem State.setThr_fusion (s : State) (slice : Nat) (f : ThrusterLaw → ThrusterLaw) : (s.setThr slice f).fusion = s.fusion := rfl
@[simp] theorem State.setThr_wind (s : State) (slice : Nat) (f : ThrusterLaw → ThrusterLaw) : (s.setThr slice f).wind = s.wind := rfl
@[simp] theorem State.setThr_obs (s : State) (slice : Nat) (f : ThrusterLaw → ThrusterLaw) : (s.setThr slice f).obs = s.obs := rfl
@[simp] theorem State.setThr_obsParams (s : State) (slice : Nat) (f : ThrusterLaw → ThrusterLaw) : (s.setThr slice f).obsParams = s.obsParams := rfl
@[simp] theorem State.setThr_obsOut (s : State) (slice : Nat) (f : ThrusterLaw → ThrusterLaw) : (s.setThr slice f).obsOut = s.obsOut := rfl
@[simp] theorem State.setThr_history (s : State) (slice : Nat) (f : ThrusterLaw → ThrusterLaw) : (s.setThr slice f).history = s.history := rfl
@[simp] theorem State.setThr_dyn (s : State) (slice : Nat) (f : ThrusterLaw → ThrusterLaw) : (s.setThr slice f).dyn = s.dyn := rfl
@[simp] theorem State.setThr_sol (s : State) (slice : Nat) (f : ThrusterLaw → ThrusterLaw) : (s.setThr slice f).sol = s.sol := rfl
@[simp] theorem State.setThr_res (s : State) (slice : Nat) (f : ThrusterLaw → ThrusterLaw) : (s.setThr slice f).res = s.res := rfl
@[simp] theorem State.setThr_solParams (s : State) (slice : Nat) (f : ThrusterLaw → ThrusterLaw) : (s.setThr slice f).solParams = s.solParams := rfl
@[simp] theorem State.setThr_servo (s : State) (slice : Nat) (f : ThrusterLaw → ThrusterLaw) : (s.setThr slice f).servo = s.servo := rfl
@[simp] theorem State.setThr_field (s : State) (slice : Nat) (f : ThrusterLaw → ThrusterLaw) : (s.setThr slice f).field = s.field := rfl
@[simp] theorem State.setThr_saf (s : State) (slice : Nat) (f : ThrusterLaw → ThrusterLaw) : (s.setThr slice f).saf = s.saf := rfl
@[simp] theorem State.setThr_modes (s : State) (slice : Nat) (f : ThrusterLaw → ThrusterLaw) : (s.setThr slice f).modes = s.modes := rfl
@[simp] theorem State.setThr_retained (s : State) (slice : Nat) (f : ThrusterLaw → ThrusterLaw) : (s.setThr slice f).retained = s.retained := rfl
@[simp] theorem State.setThr_group (s : State) (slice : Nat) (f : ThrusterLaw → ThrusterLaw) : (s.setThr slice f).group = s.group := rfl
@[simp] theorem State.setThr_gcycle (s : State) (slice : Nat) (f : ThrusterLaw → ThrusterLaw) : (s.setThr slice f).gcycle = s.gcycle := rfl
@[simp] theorem State.setThr_net (s : State) (slice : Nat) (f : ThrusterLaw → ThrusterLaw) : (s.setThr slice f).net = s.net := rfl
@[simp] theorem State.setThr_qcp (s : State) (slice : Nat) (f : ThrusterLaw → ThrusterLaw) : (s.setThr slice f).qcp = s.qcp := rfl
@[simp] theorem State.setThr_recorder (s : State) (slice : Nat) (f : ThrusterLaw → ThrusterLaw) : (s.setThr slice f).recorder = s.recorder := rfl
@[simp] theorem State.setThr_trust (s : State) (slice : Nat) (f : ThrusterLaw → ThrusterLaw) : (s.setThr slice f).trust = s.trust := rfl
@[simp] theorem State.setThr_hsk (s : State) (slice : Nat) (f : ThrusterLaw → ThrusterLaw) : (s.setThr slice f).hsk = s.hsk := rfl
@[simp] theorem State.setThr_update (s : State) (slice : Nat) (f : ThrusterLaw → ThrusterLaw) : (s.setThr slice f).update = s.update := rfl
@[simp] theorem State.setThr_panel (s : State) (slice : Nat) (f : ThrusterLaw → ThrusterLaw) : (s.setThr slice f).panel = s.panel := rfl
@[simp] theorem State.setThr_power (s : State) (slice : Nat) (f : ThrusterLaw → ThrusterLaw) : (s.setThr slice f).power = s.power := rfl
@[simp] theorem State.setThr_free (s : State) (slice : Nat) (f : ThrusterLaw → ThrusterLaw) : (s.setThr slice f).free = s.free := rfl
@[simp] theorem State.setThr_pending (s : State) (slice : Nat) (f : ThrusterLaw → ThrusterLaw) : (s.setThr slice f).pending = s.pending := rfl

/-! ### `State.setSlot` changes `servo.slots` alone -/

@[simp] theorem State.setSlot_servo_slots (s : State) (n : Nat) (f : LoopSlot → LoopSlot) : (s.setSlot n f).servo.slots = upd s.servo.slots n f := rfl
@[simp] theorem State.setSlot_factory (s : State) (n : Nat) (f : LoopSlot → LoopSlot) : (s.setSlot n f).factory = s.factory := rfl
@[simp] theorem State.setSlot_events (s : State) (n : Nat) (f : LoopSlot → LoopSlot) : (s.setSlot n f).events = s.events := rfl
@[simp] theorem State.setSlot_cycle (s : State) (n : Nat) (f : LoopSlot → LoopSlot) : (s.setSlot n f).cycle = s.cycle := rfl
@[simp] theorem State.setSlot_image (s : State) (n : Nat) (f : LoopSlot → LoopSlot) : (s.setSlot n f).image = s.image := rfl
@[simp] theorem State.setSlot_time (s : State) (n : Nat) (f : LoopSlot → LoopSlot) : (s.setSlot n f).time = s.time := rfl
@[simp] theorem State.setSlot_gnss (s : State) (n : Nat) (f : LoopSlot → LoopSlot) : (s.setSlot n f).gnss = s.gnss := rfl
@[simp] theorem State.setSlot_ain (s : State) (n : Nat) (f : LoopSlot → LoopSlot) : (s.setSlot n f).ain = s.ain := rfl
@[simp] theorem State.setSlot_fusion (s : State) (n : Nat) (f : LoopSlot → LoopSlot) : (s.setSlot n f).fusion = s.fusion := rfl
@[simp] theorem State.setSlot_wind (s : State) (n : Nat) (f : LoopSlot → LoopSlot) : (s.setSlot n f).wind = s.wind := rfl
@[simp] theorem State.setSlot_obs (s : State) (n : Nat) (f : LoopSlot → LoopSlot) : (s.setSlot n f).obs = s.obs := rfl
@[simp] theorem State.setSlot_obsParams (s : State) (n : Nat) (f : LoopSlot → LoopSlot) : (s.setSlot n f).obsParams = s.obsParams := rfl
@[simp] theorem State.setSlot_obsOut (s : State) (n : Nat) (f : LoopSlot → LoopSlot) : (s.setSlot n f).obsOut = s.obsOut := rfl
@[simp] theorem State.setSlot_history (s : State) (n : Nat) (f : LoopSlot → LoopSlot) : (s.setSlot n f).history = s.history := rfl
@[simp] theorem State.setSlot_law (s : State) (n : Nat) (f : LoopSlot → LoopSlot) : (s.setSlot n f).law = s.law := rfl
@[simp] theorem State.setSlot_dyn (s : State) (n : Nat) (f : LoopSlot → LoopSlot) : (s.setSlot n f).dyn = s.dyn := rfl
@[simp] theorem State.setSlot_sol (s : State) (n : Nat) (f : LoopSlot → LoopSlot) : (s.setSlot n f).sol = s.sol := rfl
@[simp] theorem State.setSlot_res (s : State) (n : Nat) (f : LoopSlot → LoopSlot) : (s.setSlot n f).res = s.res := rfl
@[simp] theorem State.setSlot_solParams (s : State) (n : Nat) (f : LoopSlot → LoopSlot) : (s.setSlot n f).solParams = s.solParams := rfl
@[simp] theorem State.setSlot_field (s : State) (n : Nat) (f : LoopSlot → LoopSlot) : (s.setSlot n f).field = s.field := rfl
@[simp] theorem State.setSlot_saf (s : State) (n : Nat) (f : LoopSlot → LoopSlot) : (s.setSlot n f).saf = s.saf := rfl
@[simp] theorem State.setSlot_modes (s : State) (n : Nat) (f : LoopSlot → LoopSlot) : (s.setSlot n f).modes = s.modes := rfl
@[simp] theorem State.setSlot_retained (s : State) (n : Nat) (f : LoopSlot → LoopSlot) : (s.setSlot n f).retained = s.retained := rfl
@[simp] theorem State.setSlot_group (s : State) (n : Nat) (f : LoopSlot → LoopSlot) : (s.setSlot n f).group = s.group := rfl
@[simp] theorem State.setSlot_gcycle (s : State) (n : Nat) (f : LoopSlot → LoopSlot) : (s.setSlot n f).gcycle = s.gcycle := rfl
@[simp] theorem State.setSlot_net (s : State) (n : Nat) (f : LoopSlot → LoopSlot) : (s.setSlot n f).net = s.net := rfl
@[simp] theorem State.setSlot_qcp (s : State) (n : Nat) (f : LoopSlot → LoopSlot) : (s.setSlot n f).qcp = s.qcp := rfl
@[simp] theorem State.setSlot_recorder (s : State) (n : Nat) (f : LoopSlot → LoopSlot) : (s.setSlot n f).recorder = s.recorder := rfl
@[simp] theorem State.setSlot_trust (s : State) (n : Nat) (f : LoopSlot → LoopSlot) : (s.setSlot n f).trust = s.trust := rfl
@[simp] theorem State.setSlot_hsk (s : State) (n : Nat) (f : LoopSlot → LoopSlot) : (s.setSlot n f).hsk = s.hsk := rfl
@[simp] theorem State.setSlot_update (s : State) (n : Nat) (f : LoopSlot → LoopSlot) : (s.setSlot n f).update = s.update := rfl
@[simp] theorem State.setSlot_panel (s : State) (n : Nat) (f : LoopSlot → LoopSlot) : (s.setSlot n f).panel = s.panel := rfl
@[simp] theorem State.setSlot_power (s : State) (n : Nat) (f : LoopSlot → LoopSlot) : (s.setSlot n f).power = s.power := rfl
@[simp] theorem State.setSlot_free (s : State) (n : Nat) (f : LoopSlot → LoopSlot) : (s.setSlot n f).free = s.free := rfl
@[simp] theorem State.setSlot_pending (s : State) (n : Nat) (f : LoopSlot → LoopSlot) : (s.setSlot n f).pending = s.pending := rfl

/-! ### `State.setCounts` changes `servo.counts` alone -/

@[simp] theorem State.setCounts_servo_counts (s : State) (n : Nat) (f : LoopCounts → LoopCounts) : (s.setCounts n f).servo.counts = upd s.servo.counts n f := rfl
@[simp] theorem State.setCounts_factory (s : State) (n : Nat) (f : LoopCounts → LoopCounts) : (s.setCounts n f).factory = s.factory := rfl
@[simp] theorem State.setCounts_events (s : State) (n : Nat) (f : LoopCounts → LoopCounts) : (s.setCounts n f).events = s.events := rfl
@[simp] theorem State.setCounts_cycle (s : State) (n : Nat) (f : LoopCounts → LoopCounts) : (s.setCounts n f).cycle = s.cycle := rfl
@[simp] theorem State.setCounts_image (s : State) (n : Nat) (f : LoopCounts → LoopCounts) : (s.setCounts n f).image = s.image := rfl
@[simp] theorem State.setCounts_time (s : State) (n : Nat) (f : LoopCounts → LoopCounts) : (s.setCounts n f).time = s.time := rfl
@[simp] theorem State.setCounts_gnss (s : State) (n : Nat) (f : LoopCounts → LoopCounts) : (s.setCounts n f).gnss = s.gnss := rfl
@[simp] theorem State.setCounts_ain (s : State) (n : Nat) (f : LoopCounts → LoopCounts) : (s.setCounts n f).ain = s.ain := rfl
@[simp] theorem State.setCounts_fusion (s : State) (n : Nat) (f : LoopCounts → LoopCounts) : (s.setCounts n f).fusion = s.fusion := rfl
@[simp] theorem State.setCounts_wind (s : State) (n : Nat) (f : LoopCounts → LoopCounts) : (s.setCounts n f).wind = s.wind := rfl
@[simp] theorem State.setCounts_obs (s : State) (n : Nat) (f : LoopCounts → LoopCounts) : (s.setCounts n f).obs = s.obs := rfl
@[simp] theorem State.setCounts_obsParams (s : State) (n : Nat) (f : LoopCounts → LoopCounts) : (s.setCounts n f).obsParams = s.obsParams := rfl
@[simp] theorem State.setCounts_obsOut (s : State) (n : Nat) (f : LoopCounts → LoopCounts) : (s.setCounts n f).obsOut = s.obsOut := rfl
@[simp] theorem State.setCounts_history (s : State) (n : Nat) (f : LoopCounts → LoopCounts) : (s.setCounts n f).history = s.history := rfl
@[simp] theorem State.setCounts_law (s : State) (n : Nat) (f : LoopCounts → LoopCounts) : (s.setCounts n f).law = s.law := rfl
@[simp] theorem State.setCounts_dyn (s : State) (n : Nat) (f : LoopCounts → LoopCounts) : (s.setCounts n f).dyn = s.dyn := rfl
@[simp] theorem State.setCounts_sol (s : State) (n : Nat) (f : LoopCounts → LoopCounts) : (s.setCounts n f).sol = s.sol := rfl
@[simp] theorem State.setCounts_res (s : State) (n : Nat) (f : LoopCounts → LoopCounts) : (s.setCounts n f).res = s.res := rfl
@[simp] theorem State.setCounts_solParams (s : State) (n : Nat) (f : LoopCounts → LoopCounts) : (s.setCounts n f).solParams = s.solParams := rfl
@[simp] theorem State.setCounts_field (s : State) (n : Nat) (f : LoopCounts → LoopCounts) : (s.setCounts n f).field = s.field := rfl
@[simp] theorem State.setCounts_saf (s : State) (n : Nat) (f : LoopCounts → LoopCounts) : (s.setCounts n f).saf = s.saf := rfl
@[simp] theorem State.setCounts_modes (s : State) (n : Nat) (f : LoopCounts → LoopCounts) : (s.setCounts n f).modes = s.modes := rfl
@[simp] theorem State.setCounts_retained (s : State) (n : Nat) (f : LoopCounts → LoopCounts) : (s.setCounts n f).retained = s.retained := rfl
@[simp] theorem State.setCounts_group (s : State) (n : Nat) (f : LoopCounts → LoopCounts) : (s.setCounts n f).group = s.group := rfl
@[simp] theorem State.setCounts_gcycle (s : State) (n : Nat) (f : LoopCounts → LoopCounts) : (s.setCounts n f).gcycle = s.gcycle := rfl
@[simp] theorem State.setCounts_net (s : State) (n : Nat) (f : LoopCounts → LoopCounts) : (s.setCounts n f).net = s.net := rfl
@[simp] theorem State.setCounts_qcp (s : State) (n : Nat) (f : LoopCounts → LoopCounts) : (s.setCounts n f).qcp = s.qcp := rfl
@[simp] theorem State.setCounts_recorder (s : State) (n : Nat) (f : LoopCounts → LoopCounts) : (s.setCounts n f).recorder = s.recorder := rfl
@[simp] theorem State.setCounts_trust (s : State) (n : Nat) (f : LoopCounts → LoopCounts) : (s.setCounts n f).trust = s.trust := rfl
@[simp] theorem State.setCounts_hsk (s : State) (n : Nat) (f : LoopCounts → LoopCounts) : (s.setCounts n f).hsk = s.hsk := rfl
@[simp] theorem State.setCounts_update (s : State) (n : Nat) (f : LoopCounts → LoopCounts) : (s.setCounts n f).update = s.update := rfl
@[simp] theorem State.setCounts_panel (s : State) (n : Nat) (f : LoopCounts → LoopCounts) : (s.setCounts n f).panel = s.panel := rfl
@[simp] theorem State.setCounts_power (s : State) (n : Nat) (f : LoopCounts → LoopCounts) : (s.setCounts n f).power = s.power := rfl
@[simp] theorem State.setCounts_free (s : State) (n : Nat) (f : LoopCounts → LoopCounts) : (s.setCounts n f).free = s.free := rfl
@[simp] theorem State.setCounts_pending (s : State) (n : Nat) (f : LoopCounts → LoopCounts) : (s.setCounts n f).pending = s.pending := rfl

/-! ### `State.setAxis` changes `servo.axes` alone -/

@[simp] theorem State.setAxis_servo_axes (s : State) (g a : Nat) (f : ProfileAxis → ProfileAxis) : (s.setAxis g a f).servo.axes = upd s.servo.axes g fun v => upd v a f := rfl
@[simp] theorem State.setAxis_factory (s : State) (g a : Nat) (f : ProfileAxis → ProfileAxis) : (s.setAxis g a f).factory = s.factory := rfl
@[simp] theorem State.setAxis_events (s : State) (g a : Nat) (f : ProfileAxis → ProfileAxis) : (s.setAxis g a f).events = s.events := rfl
@[simp] theorem State.setAxis_cycle (s : State) (g a : Nat) (f : ProfileAxis → ProfileAxis) : (s.setAxis g a f).cycle = s.cycle := rfl
@[simp] theorem State.setAxis_image (s : State) (g a : Nat) (f : ProfileAxis → ProfileAxis) : (s.setAxis g a f).image = s.image := rfl
@[simp] theorem State.setAxis_time (s : State) (g a : Nat) (f : ProfileAxis → ProfileAxis) : (s.setAxis g a f).time = s.time := rfl
@[simp] theorem State.setAxis_gnss (s : State) (g a : Nat) (f : ProfileAxis → ProfileAxis) : (s.setAxis g a f).gnss = s.gnss := rfl
@[simp] theorem State.setAxis_ain (s : State) (g a : Nat) (f : ProfileAxis → ProfileAxis) : (s.setAxis g a f).ain = s.ain := rfl
@[simp] theorem State.setAxis_fusion (s : State) (g a : Nat) (f : ProfileAxis → ProfileAxis) : (s.setAxis g a f).fusion = s.fusion := rfl
@[simp] theorem State.setAxis_wind (s : State) (g a : Nat) (f : ProfileAxis → ProfileAxis) : (s.setAxis g a f).wind = s.wind := rfl
@[simp] theorem State.setAxis_obs (s : State) (g a : Nat) (f : ProfileAxis → ProfileAxis) : (s.setAxis g a f).obs = s.obs := rfl
@[simp] theorem State.setAxis_obsParams (s : State) (g a : Nat) (f : ProfileAxis → ProfileAxis) : (s.setAxis g a f).obsParams = s.obsParams := rfl
@[simp] theorem State.setAxis_obsOut (s : State) (g a : Nat) (f : ProfileAxis → ProfileAxis) : (s.setAxis g a f).obsOut = s.obsOut := rfl
@[simp] theorem State.setAxis_history (s : State) (g a : Nat) (f : ProfileAxis → ProfileAxis) : (s.setAxis g a f).history = s.history := rfl
@[simp] theorem State.setAxis_law (s : State) (g a : Nat) (f : ProfileAxis → ProfileAxis) : (s.setAxis g a f).law = s.law := rfl
@[simp] theorem State.setAxis_dyn (s : State) (g a : Nat) (f : ProfileAxis → ProfileAxis) : (s.setAxis g a f).dyn = s.dyn := rfl
@[simp] theorem State.setAxis_sol (s : State) (g a : Nat) (f : ProfileAxis → ProfileAxis) : (s.setAxis g a f).sol = s.sol := rfl
@[simp] theorem State.setAxis_res (s : State) (g a : Nat) (f : ProfileAxis → ProfileAxis) : (s.setAxis g a f).res = s.res := rfl
@[simp] theorem State.setAxis_solParams (s : State) (g a : Nat) (f : ProfileAxis → ProfileAxis) : (s.setAxis g a f).solParams = s.solParams := rfl
@[simp] theorem State.setAxis_field (s : State) (g a : Nat) (f : ProfileAxis → ProfileAxis) : (s.setAxis g a f).field = s.field := rfl
@[simp] theorem State.setAxis_saf (s : State) (g a : Nat) (f : ProfileAxis → ProfileAxis) : (s.setAxis g a f).saf = s.saf := rfl
@[simp] theorem State.setAxis_modes (s : State) (g a : Nat) (f : ProfileAxis → ProfileAxis) : (s.setAxis g a f).modes = s.modes := rfl
@[simp] theorem State.setAxis_retained (s : State) (g a : Nat) (f : ProfileAxis → ProfileAxis) : (s.setAxis g a f).retained = s.retained := rfl
@[simp] theorem State.setAxis_group (s : State) (g a : Nat) (f : ProfileAxis → ProfileAxis) : (s.setAxis g a f).group = s.group := rfl
@[simp] theorem State.setAxis_gcycle (s : State) (g a : Nat) (f : ProfileAxis → ProfileAxis) : (s.setAxis g a f).gcycle = s.gcycle := rfl
@[simp] theorem State.setAxis_net (s : State) (g a : Nat) (f : ProfileAxis → ProfileAxis) : (s.setAxis g a f).net = s.net := rfl
@[simp] theorem State.setAxis_qcp (s : State) (g a : Nat) (f : ProfileAxis → ProfileAxis) : (s.setAxis g a f).qcp = s.qcp := rfl
@[simp] theorem State.setAxis_recorder (s : State) (g a : Nat) (f : ProfileAxis → ProfileAxis) : (s.setAxis g a f).recorder = s.recorder := rfl
@[simp] theorem State.setAxis_trust (s : State) (g a : Nat) (f : ProfileAxis → ProfileAxis) : (s.setAxis g a f).trust = s.trust := rfl
@[simp] theorem State.setAxis_hsk (s : State) (g a : Nat) (f : ProfileAxis → ProfileAxis) : (s.setAxis g a f).hsk = s.hsk := rfl
@[simp] theorem State.setAxis_update (s : State) (g a : Nat) (f : ProfileAxis → ProfileAxis) : (s.setAxis g a f).update = s.update := rfl
@[simp] theorem State.setAxis_panel (s : State) (g a : Nat) (f : ProfileAxis → ProfileAxis) : (s.setAxis g a f).panel = s.panel := rfl
@[simp] theorem State.setAxis_power (s : State) (g a : Nat) (f : ProfileAxis → ProfileAxis) : (s.setAxis g a f).power = s.power := rfl
@[simp] theorem State.setAxis_free (s : State) (g a : Nat) (f : ProfileAxis → ProfileAxis) : (s.setAxis g a f).free = s.free := rfl
@[simp] theorem State.setAxis_pending (s : State) (g a : Nat) (f : ProfileAxis → ProfileAxis) : (s.setAxis g a f).pending = s.pending := rfl

/-! ### `State.setSlave` changes `servo.gears` alone -/

@[simp] theorem State.setSlave_servo_gears (s : State) (g i : Nat) (f : GearSlave → GearSlave) : (s.setSlave g i f).servo.gears = upd s.servo.gears g fun x => { x with slaves := upd x.slaves i f } := rfl
@[simp] theorem State.setSlave_factory (s : State) (g i : Nat) (f : GearSlave → GearSlave) : (s.setSlave g i f).factory = s.factory := rfl
@[simp] theorem State.setSlave_events (s : State) (g i : Nat) (f : GearSlave → GearSlave) : (s.setSlave g i f).events = s.events := rfl
@[simp] theorem State.setSlave_cycle (s : State) (g i : Nat) (f : GearSlave → GearSlave) : (s.setSlave g i f).cycle = s.cycle := rfl
@[simp] theorem State.setSlave_image (s : State) (g i : Nat) (f : GearSlave → GearSlave) : (s.setSlave g i f).image = s.image := rfl
@[simp] theorem State.setSlave_time (s : State) (g i : Nat) (f : GearSlave → GearSlave) : (s.setSlave g i f).time = s.time := rfl
@[simp] theorem State.setSlave_gnss (s : State) (g i : Nat) (f : GearSlave → GearSlave) : (s.setSlave g i f).gnss = s.gnss := rfl
@[simp] theorem State.setSlave_ain (s : State) (g i : Nat) (f : GearSlave → GearSlave) : (s.setSlave g i f).ain = s.ain := rfl
@[simp] theorem State.setSlave_fusion (s : State) (g i : Nat) (f : GearSlave → GearSlave) : (s.setSlave g i f).fusion = s.fusion := rfl
@[simp] theorem State.setSlave_wind (s : State) (g i : Nat) (f : GearSlave → GearSlave) : (s.setSlave g i f).wind = s.wind := rfl
@[simp] theorem State.setSlave_obs (s : State) (g i : Nat) (f : GearSlave → GearSlave) : (s.setSlave g i f).obs = s.obs := rfl
@[simp] theorem State.setSlave_obsParams (s : State) (g i : Nat) (f : GearSlave → GearSlave) : (s.setSlave g i f).obsParams = s.obsParams := rfl
@[simp] theorem State.setSlave_obsOut (s : State) (g i : Nat) (f : GearSlave → GearSlave) : (s.setSlave g i f).obsOut = s.obsOut := rfl
@[simp] theorem State.setSlave_history (s : State) (g i : Nat) (f : GearSlave → GearSlave) : (s.setSlave g i f).history = s.history := rfl
@[simp] theorem State.setSlave_law (s : State) (g i : Nat) (f : GearSlave → GearSlave) : (s.setSlave g i f).law = s.law := rfl
@[simp] theorem State.setSlave_dyn (s : State) (g i : Nat) (f : GearSlave → GearSlave) : (s.setSlave g i f).dyn = s.dyn := rfl
@[simp] theorem State.setSlave_sol (s : State) (g i : Nat) (f : GearSlave → GearSlave) : (s.setSlave g i f).sol = s.sol := rfl
@[simp] theorem State.setSlave_res (s : State) (g i : Nat) (f : GearSlave → GearSlave) : (s.setSlave g i f).res = s.res := rfl
@[simp] theorem State.setSlave_solParams (s : State) (g i : Nat) (f : GearSlave → GearSlave) : (s.setSlave g i f).solParams = s.solParams := rfl
@[simp] theorem State.setSlave_field (s : State) (g i : Nat) (f : GearSlave → GearSlave) : (s.setSlave g i f).field = s.field := rfl
@[simp] theorem State.setSlave_saf (s : State) (g i : Nat) (f : GearSlave → GearSlave) : (s.setSlave g i f).saf = s.saf := rfl
@[simp] theorem State.setSlave_modes (s : State) (g i : Nat) (f : GearSlave → GearSlave) : (s.setSlave g i f).modes = s.modes := rfl
@[simp] theorem State.setSlave_retained (s : State) (g i : Nat) (f : GearSlave → GearSlave) : (s.setSlave g i f).retained = s.retained := rfl
@[simp] theorem State.setSlave_group (s : State) (g i : Nat) (f : GearSlave → GearSlave) : (s.setSlave g i f).group = s.group := rfl
@[simp] theorem State.setSlave_gcycle (s : State) (g i : Nat) (f : GearSlave → GearSlave) : (s.setSlave g i f).gcycle = s.gcycle := rfl
@[simp] theorem State.setSlave_net (s : State) (g i : Nat) (f : GearSlave → GearSlave) : (s.setSlave g i f).net = s.net := rfl
@[simp] theorem State.setSlave_qcp (s : State) (g i : Nat) (f : GearSlave → GearSlave) : (s.setSlave g i f).qcp = s.qcp := rfl
@[simp] theorem State.setSlave_recorder (s : State) (g i : Nat) (f : GearSlave → GearSlave) : (s.setSlave g i f).recorder = s.recorder := rfl
@[simp] theorem State.setSlave_trust (s : State) (g i : Nat) (f : GearSlave → GearSlave) : (s.setSlave g i f).trust = s.trust := rfl
@[simp] theorem State.setSlave_hsk (s : State) (g i : Nat) (f : GearSlave → GearSlave) : (s.setSlave g i f).hsk = s.hsk := rfl
@[simp] theorem State.setSlave_update (s : State) (g i : Nat) (f : GearSlave → GearSlave) : (s.setSlave g i f).update = s.update := rfl
@[simp] theorem State.setSlave_panel (s : State) (g i : Nat) (f : GearSlave → GearSlave) : (s.setSlave g i f).panel = s.panel := rfl
@[simp] theorem State.setSlave_power (s : State) (g i : Nat) (f : GearSlave → GearSlave) : (s.setSlave g i f).power = s.power := rfl
@[simp] theorem State.setSlave_free (s : State) (g i : Nat) (f : GearSlave → GearSlave) : (s.setSlave g i f).free = s.free := rfl
@[simp] theorem State.setSlave_pending (s : State) (g i : Nat) (f : GearSlave → GearSlave) : (s.setSlave g i f).pending = s.pending := rfl

/-! ### `State.setGear` changes `servo.gears` alone -/

@[simp] theorem State.setGear_servo_gears (s : State) (g : Nat) (f : GearGroup → GearGroup) : (s.setGear g f).servo.gears = upd s.servo.gears g f := rfl
@[simp] theorem State.setGear_factory (s : State) (g : Nat) (f : GearGroup → GearGroup) : (s.setGear g f).factory = s.factory := rfl
@[simp] theorem State.setGear_events (s : State) (g : Nat) (f : GearGroup → GearGroup) : (s.setGear g f).events = s.events := rfl
@[simp] theorem State.setGear_cycle (s : State) (g : Nat) (f : GearGroup → GearGroup) : (s.setGear g f).cycle = s.cycle := rfl
@[simp] theorem State.setGear_image (s : State) (g : Nat) (f : GearGroup → GearGroup) : (s.setGear g f).image = s.image := rfl
@[simp] theorem State.setGear_time (s : State) (g : Nat) (f : GearGroup → GearGroup) : (s.setGear g f).time = s.time := rfl
@[simp] theorem State.setGear_gnss (s : State) (g : Nat) (f : GearGroup → GearGroup) : (s.setGear g f).gnss = s.gnss := rfl
@[simp] theorem State.setGear_ain (s : State) (g : Nat) (f : GearGroup → GearGroup) : (s.setGear g f).ain = s.ain := rfl
@[simp] theorem State.setGear_fusion (s : State) (g : Nat) (f : GearGroup → GearGroup) : (s.setGear g f).fusion = s.fusion := rfl
@[simp] theorem State.setGear_wind (s : State) (g : Nat) (f : GearGroup → GearGroup) : (s.setGear g f).wind = s.wind := rfl
@[simp] theorem State.setGear_obs (s : State) (g : Nat) (f : GearGroup → GearGroup) : (s.setGear g f).obs = s.obs := rfl
@[simp] theorem State.setGear_obsParams (s : State) (g : Nat) (f : GearGroup → GearGroup) : (s.setGear g f).obsParams = s.obsParams := rfl
@[simp] theorem State.setGear_obsOut (s : State) (g : Nat) (f : GearGroup → GearGroup) : (s.setGear g f).obsOut = s.obsOut := rfl
@[simp] theorem State.setGear_history (s : State) (g : Nat) (f : GearGroup → GearGroup) : (s.setGear g f).history = s.history := rfl
@[simp] theorem State.setGear_law (s : State) (g : Nat) (f : GearGroup → GearGroup) : (s.setGear g f).law = s.law := rfl
@[simp] theorem State.setGear_dyn (s : State) (g : Nat) (f : GearGroup → GearGroup) : (s.setGear g f).dyn = s.dyn := rfl
@[simp] theorem State.setGear_sol (s : State) (g : Nat) (f : GearGroup → GearGroup) : (s.setGear g f).sol = s.sol := rfl
@[simp] theorem State.setGear_res (s : State) (g : Nat) (f : GearGroup → GearGroup) : (s.setGear g f).res = s.res := rfl
@[simp] theorem State.setGear_solParams (s : State) (g : Nat) (f : GearGroup → GearGroup) : (s.setGear g f).solParams = s.solParams := rfl
@[simp] theorem State.setGear_field (s : State) (g : Nat) (f : GearGroup → GearGroup) : (s.setGear g f).field = s.field := rfl
@[simp] theorem State.setGear_saf (s : State) (g : Nat) (f : GearGroup → GearGroup) : (s.setGear g f).saf = s.saf := rfl
@[simp] theorem State.setGear_modes (s : State) (g : Nat) (f : GearGroup → GearGroup) : (s.setGear g f).modes = s.modes := rfl
@[simp] theorem State.setGear_retained (s : State) (g : Nat) (f : GearGroup → GearGroup) : (s.setGear g f).retained = s.retained := rfl
@[simp] theorem State.setGear_group (s : State) (g : Nat) (f : GearGroup → GearGroup) : (s.setGear g f).group = s.group := rfl
@[simp] theorem State.setGear_gcycle (s : State) (g : Nat) (f : GearGroup → GearGroup) : (s.setGear g f).gcycle = s.gcycle := rfl
@[simp] theorem State.setGear_net (s : State) (g : Nat) (f : GearGroup → GearGroup) : (s.setGear g f).net = s.net := rfl
@[simp] theorem State.setGear_qcp (s : State) (g : Nat) (f : GearGroup → GearGroup) : (s.setGear g f).qcp = s.qcp := rfl
@[simp] theorem State.setGear_recorder (s : State) (g : Nat) (f : GearGroup → GearGroup) : (s.setGear g f).recorder = s.recorder := rfl
@[simp] theorem State.setGear_trust (s : State) (g : Nat) (f : GearGroup → GearGroup) : (s.setGear g f).trust = s.trust := rfl
@[simp] theorem State.setGear_hsk (s : State) (g : Nat) (f : GearGroup → GearGroup) : (s.setGear g f).hsk = s.hsk := rfl
@[simp] theorem State.setGear_update (s : State) (g : Nat) (f : GearGroup → GearGroup) : (s.setGear g f).update = s.update := rfl
@[simp] theorem State.setGear_panel (s : State) (g : Nat) (f : GearGroup → GearGroup) : (s.setGear g f).panel = s.panel := rfl
@[simp] theorem State.setGear_power (s : State) (g : Nat) (f : GearGroup → GearGroup) : (s.setGear g f).power = s.power := rfl
@[simp] theorem State.setGear_free (s : State) (g : Nat) (f : GearGroup → GearGroup) : (s.setGear g f).free = s.free := rfl
@[simp] theorem State.setGear_pending (s : State) (g : Nat) (f : GearGroup → GearGroup) : (s.setGear g f).pending = s.pending := rfl

/-! ### `State.setStepper` changes `servo.steppers` alone -/

@[simp] theorem State.setStepper_servo_steppers (s : State) (d : Nat) (f : Stepper → Stepper) : (s.setStepper d f).servo.steppers = upd s.servo.steppers d f := rfl
@[simp] theorem State.setStepper_factory (s : State) (d : Nat) (f : Stepper → Stepper) : (s.setStepper d f).factory = s.factory := rfl
@[simp] theorem State.setStepper_events (s : State) (d : Nat) (f : Stepper → Stepper) : (s.setStepper d f).events = s.events := rfl
@[simp] theorem State.setStepper_cycle (s : State) (d : Nat) (f : Stepper → Stepper) : (s.setStepper d f).cycle = s.cycle := rfl
@[simp] theorem State.setStepper_image (s : State) (d : Nat) (f : Stepper → Stepper) : (s.setStepper d f).image = s.image := rfl
@[simp] theorem State.setStepper_time (s : State) (d : Nat) (f : Stepper → Stepper) : (s.setStepper d f).time = s.time := rfl
@[simp] theorem State.setStepper_gnss (s : State) (d : Nat) (f : Stepper → Stepper) : (s.setStepper d f).gnss = s.gnss := rfl
@[simp] theorem State.setStepper_ain (s : State) (d : Nat) (f : Stepper → Stepper) : (s.setStepper d f).ain = s.ain := rfl
@[simp] theorem State.setStepper_fusion (s : State) (d : Nat) (f : Stepper → Stepper) : (s.setStepper d f).fusion = s.fusion := rfl
@[simp] theorem State.setStepper_wind (s : State) (d : Nat) (f : Stepper → Stepper) : (s.setStepper d f).wind = s.wind := rfl
@[simp] theorem State.setStepper_obs (s : State) (d : Nat) (f : Stepper → Stepper) : (s.setStepper d f).obs = s.obs := rfl
@[simp] theorem State.setStepper_obsParams (s : State) (d : Nat) (f : Stepper → Stepper) : (s.setStepper d f).obsParams = s.obsParams := rfl
@[simp] theorem State.setStepper_obsOut (s : State) (d : Nat) (f : Stepper → Stepper) : (s.setStepper d f).obsOut = s.obsOut := rfl
@[simp] theorem State.setStepper_history (s : State) (d : Nat) (f : Stepper → Stepper) : (s.setStepper d f).history = s.history := rfl
@[simp] theorem State.setStepper_law (s : State) (d : Nat) (f : Stepper → Stepper) : (s.setStepper d f).law = s.law := rfl
@[simp] theorem State.setStepper_dyn (s : State) (d : Nat) (f : Stepper → Stepper) : (s.setStepper d f).dyn = s.dyn := rfl
@[simp] theorem State.setStepper_sol (s : State) (d : Nat) (f : Stepper → Stepper) : (s.setStepper d f).sol = s.sol := rfl
@[simp] theorem State.setStepper_res (s : State) (d : Nat) (f : Stepper → Stepper) : (s.setStepper d f).res = s.res := rfl
@[simp] theorem State.setStepper_solParams (s : State) (d : Nat) (f : Stepper → Stepper) : (s.setStepper d f).solParams = s.solParams := rfl
@[simp] theorem State.setStepper_field (s : State) (d : Nat) (f : Stepper → Stepper) : (s.setStepper d f).field = s.field := rfl
@[simp] theorem State.setStepper_saf (s : State) (d : Nat) (f : Stepper → Stepper) : (s.setStepper d f).saf = s.saf := rfl
@[simp] theorem State.setStepper_modes (s : State) (d : Nat) (f : Stepper → Stepper) : (s.setStepper d f).modes = s.modes := rfl
@[simp] theorem State.setStepper_retained (s : State) (d : Nat) (f : Stepper → Stepper) : (s.setStepper d f).retained = s.retained := rfl
@[simp] theorem State.setStepper_group (s : State) (d : Nat) (f : Stepper → Stepper) : (s.setStepper d f).group = s.group := rfl
@[simp] theorem State.setStepper_gcycle (s : State) (d : Nat) (f : Stepper → Stepper) : (s.setStepper d f).gcycle = s.gcycle := rfl
@[simp] theorem State.setStepper_net (s : State) (d : Nat) (f : Stepper → Stepper) : (s.setStepper d f).net = s.net := rfl
@[simp] theorem State.setStepper_qcp (s : State) (d : Nat) (f : Stepper → Stepper) : (s.setStepper d f).qcp = s.qcp := rfl
@[simp] theorem State.setStepper_recorder (s : State) (d : Nat) (f : Stepper → Stepper) : (s.setStepper d f).recorder = s.recorder := rfl
@[simp] theorem State.setStepper_trust (s : State) (d : Nat) (f : Stepper → Stepper) : (s.setStepper d f).trust = s.trust := rfl
@[simp] theorem State.setStepper_hsk (s : State) (d : Nat) (f : Stepper → Stepper) : (s.setStepper d f).hsk = s.hsk := rfl
@[simp] theorem State.setStepper_update (s : State) (d : Nat) (f : Stepper → Stepper) : (s.setStepper d f).update = s.update := rfl
@[simp] theorem State.setStepper_panel (s : State) (d : Nat) (f : Stepper → Stepper) : (s.setStepper d f).panel = s.panel := rfl
@[simp] theorem State.setStepper_power (s : State) (d : Nat) (f : Stepper → Stepper) : (s.setStepper d f).power = s.power := rfl
@[simp] theorem State.setStepper_free (s : State) (d : Nat) (f : Stepper → Stepper) : (s.setStepper d f).free = s.free := rfl
@[simp] theorem State.setStepper_pending (s : State) (d : Nat) (f : Stepper → Stepper) : (s.setStepper d f).pending = s.pending := rfl

/-! ### `State.setU` changes `field.u` alone -/

@[simp] theorem State.setU_field_u (s : State) (n : Nat) (f : UChannel → UChannel) : (s.setU n f).field.u = upd s.field.u n f := rfl
@[simp] theorem State.setU_factory (s : State) (n : Nat) (f : UChannel → UChannel) : (s.setU n f).factory = s.factory := rfl
@[simp] theorem State.setU_events (s : State) (n : Nat) (f : UChannel → UChannel) : (s.setU n f).events = s.events := rfl
@[simp] theorem State.setU_cycle (s : State) (n : Nat) (f : UChannel → UChannel) : (s.setU n f).cycle = s.cycle := rfl
@[simp] theorem State.setU_image (s : State) (n : Nat) (f : UChannel → UChannel) : (s.setU n f).image = s.image := rfl
@[simp] theorem State.setU_time (s : State) (n : Nat) (f : UChannel → UChannel) : (s.setU n f).time = s.time := rfl
@[simp] theorem State.setU_gnss (s : State) (n : Nat) (f : UChannel → UChannel) : (s.setU n f).gnss = s.gnss := rfl
@[simp] theorem State.setU_ain (s : State) (n : Nat) (f : UChannel → UChannel) : (s.setU n f).ain = s.ain := rfl
@[simp] theorem State.setU_fusion (s : State) (n : Nat) (f : UChannel → UChannel) : (s.setU n f).fusion = s.fusion := rfl
@[simp] theorem State.setU_wind (s : State) (n : Nat) (f : UChannel → UChannel) : (s.setU n f).wind = s.wind := rfl
@[simp] theorem State.setU_obs (s : State) (n : Nat) (f : UChannel → UChannel) : (s.setU n f).obs = s.obs := rfl
@[simp] theorem State.setU_obsParams (s : State) (n : Nat) (f : UChannel → UChannel) : (s.setU n f).obsParams = s.obsParams := rfl
@[simp] theorem State.setU_obsOut (s : State) (n : Nat) (f : UChannel → UChannel) : (s.setU n f).obsOut = s.obsOut := rfl
@[simp] theorem State.setU_history (s : State) (n : Nat) (f : UChannel → UChannel) : (s.setU n f).history = s.history := rfl
@[simp] theorem State.setU_law (s : State) (n : Nat) (f : UChannel → UChannel) : (s.setU n f).law = s.law := rfl
@[simp] theorem State.setU_dyn (s : State) (n : Nat) (f : UChannel → UChannel) : (s.setU n f).dyn = s.dyn := rfl
@[simp] theorem State.setU_sol (s : State) (n : Nat) (f : UChannel → UChannel) : (s.setU n f).sol = s.sol := rfl
@[simp] theorem State.setU_res (s : State) (n : Nat) (f : UChannel → UChannel) : (s.setU n f).res = s.res := rfl
@[simp] theorem State.setU_solParams (s : State) (n : Nat) (f : UChannel → UChannel) : (s.setU n f).solParams = s.solParams := rfl
@[simp] theorem State.setU_servo (s : State) (n : Nat) (f : UChannel → UChannel) : (s.setU n f).servo = s.servo := rfl
@[simp] theorem State.setU_saf (s : State) (n : Nat) (f : UChannel → UChannel) : (s.setU n f).saf = s.saf := rfl
@[simp] theorem State.setU_modes (s : State) (n : Nat) (f : UChannel → UChannel) : (s.setU n f).modes = s.modes := rfl
@[simp] theorem State.setU_retained (s : State) (n : Nat) (f : UChannel → UChannel) : (s.setU n f).retained = s.retained := rfl
@[simp] theorem State.setU_group (s : State) (n : Nat) (f : UChannel → UChannel) : (s.setU n f).group = s.group := rfl
@[simp] theorem State.setU_gcycle (s : State) (n : Nat) (f : UChannel → UChannel) : (s.setU n f).gcycle = s.gcycle := rfl
@[simp] theorem State.setU_net (s : State) (n : Nat) (f : UChannel → UChannel) : (s.setU n f).net = s.net := rfl
@[simp] theorem State.setU_qcp (s : State) (n : Nat) (f : UChannel → UChannel) : (s.setU n f).qcp = s.qcp := rfl
@[simp] theorem State.setU_recorder (s : State) (n : Nat) (f : UChannel → UChannel) : (s.setU n f).recorder = s.recorder := rfl
@[simp] theorem State.setU_trust (s : State) (n : Nat) (f : UChannel → UChannel) : (s.setU n f).trust = s.trust := rfl
@[simp] theorem State.setU_hsk (s : State) (n : Nat) (f : UChannel → UChannel) : (s.setU n f).hsk = s.hsk := rfl
@[simp] theorem State.setU_update (s : State) (n : Nat) (f : UChannel → UChannel) : (s.setU n f).update = s.update := rfl
@[simp] theorem State.setU_panel (s : State) (n : Nat) (f : UChannel → UChannel) : (s.setU n f).panel = s.panel := rfl
@[simp] theorem State.setU_power (s : State) (n : Nat) (f : UChannel → UChannel) : (s.setU n f).power = s.power := rfl
@[simp] theorem State.setU_free (s : State) (n : Nat) (f : UChannel → UChannel) : (s.setU n f).free = s.free := rfl
@[simp] theorem State.setU_pending (s : State) (n : Nat) (f : UChannel → UChannel) : (s.setU n f).pending = s.pending := rfl

/-! ### `State.setAo` changes `field.ao` alone -/

@[simp] theorem State.setAo_field_ao (s : State) (n : Nat) (f : AoChannel → AoChannel) : (s.setAo n f).field.ao = upd s.field.ao n f := rfl
@[simp] theorem State.setAo_factory (s : State) (n : Nat) (f : AoChannel → AoChannel) : (s.setAo n f).factory = s.factory := rfl
@[simp] theorem State.setAo_events (s : State) (n : Nat) (f : AoChannel → AoChannel) : (s.setAo n f).events = s.events := rfl
@[simp] theorem State.setAo_cycle (s : State) (n : Nat) (f : AoChannel → AoChannel) : (s.setAo n f).cycle = s.cycle := rfl
@[simp] theorem State.setAo_image (s : State) (n : Nat) (f : AoChannel → AoChannel) : (s.setAo n f).image = s.image := rfl
@[simp] theorem State.setAo_time (s : State) (n : Nat) (f : AoChannel → AoChannel) : (s.setAo n f).time = s.time := rfl
@[simp] theorem State.setAo_gnss (s : State) (n : Nat) (f : AoChannel → AoChannel) : (s.setAo n f).gnss = s.gnss := rfl
@[simp] theorem State.setAo_ain (s : State) (n : Nat) (f : AoChannel → AoChannel) : (s.setAo n f).ain = s.ain := rfl
@[simp] theorem State.setAo_fusion (s : State) (n : Nat) (f : AoChannel → AoChannel) : (s.setAo n f).fusion = s.fusion := rfl
@[simp] theorem State.setAo_wind (s : State) (n : Nat) (f : AoChannel → AoChannel) : (s.setAo n f).wind = s.wind := rfl
@[simp] theorem State.setAo_obs (s : State) (n : Nat) (f : AoChannel → AoChannel) : (s.setAo n f).obs = s.obs := rfl
@[simp] theorem State.setAo_obsParams (s : State) (n : Nat) (f : AoChannel → AoChannel) : (s.setAo n f).obsParams = s.obsParams := rfl
@[simp] theorem State.setAo_obsOut (s : State) (n : Nat) (f : AoChannel → AoChannel) : (s.setAo n f).obsOut = s.obsOut := rfl
@[simp] theorem State.setAo_history (s : State) (n : Nat) (f : AoChannel → AoChannel) : (s.setAo n f).history = s.history := rfl
@[simp] theorem State.setAo_law (s : State) (n : Nat) (f : AoChannel → AoChannel) : (s.setAo n f).law = s.law := rfl
@[simp] theorem State.setAo_dyn (s : State) (n : Nat) (f : AoChannel → AoChannel) : (s.setAo n f).dyn = s.dyn := rfl
@[simp] theorem State.setAo_sol (s : State) (n : Nat) (f : AoChannel → AoChannel) : (s.setAo n f).sol = s.sol := rfl
@[simp] theorem State.setAo_res (s : State) (n : Nat) (f : AoChannel → AoChannel) : (s.setAo n f).res = s.res := rfl
@[simp] theorem State.setAo_solParams (s : State) (n : Nat) (f : AoChannel → AoChannel) : (s.setAo n f).solParams = s.solParams := rfl
@[simp] theorem State.setAo_servo (s : State) (n : Nat) (f : AoChannel → AoChannel) : (s.setAo n f).servo = s.servo := rfl
@[simp] theorem State.setAo_saf (s : State) (n : Nat) (f : AoChannel → AoChannel) : (s.setAo n f).saf = s.saf := rfl
@[simp] theorem State.setAo_modes (s : State) (n : Nat) (f : AoChannel → AoChannel) : (s.setAo n f).modes = s.modes := rfl
@[simp] theorem State.setAo_retained (s : State) (n : Nat) (f : AoChannel → AoChannel) : (s.setAo n f).retained = s.retained := rfl
@[simp] theorem State.setAo_group (s : State) (n : Nat) (f : AoChannel → AoChannel) : (s.setAo n f).group = s.group := rfl
@[simp] theorem State.setAo_gcycle (s : State) (n : Nat) (f : AoChannel → AoChannel) : (s.setAo n f).gcycle = s.gcycle := rfl
@[simp] theorem State.setAo_net (s : State) (n : Nat) (f : AoChannel → AoChannel) : (s.setAo n f).net = s.net := rfl
@[simp] theorem State.setAo_qcp (s : State) (n : Nat) (f : AoChannel → AoChannel) : (s.setAo n f).qcp = s.qcp := rfl
@[simp] theorem State.setAo_recorder (s : State) (n : Nat) (f : AoChannel → AoChannel) : (s.setAo n f).recorder = s.recorder := rfl
@[simp] theorem State.setAo_trust (s : State) (n : Nat) (f : AoChannel → AoChannel) : (s.setAo n f).trust = s.trust := rfl
@[simp] theorem State.setAo_hsk (s : State) (n : Nat) (f : AoChannel → AoChannel) : (s.setAo n f).hsk = s.hsk := rfl
@[simp] theorem State.setAo_update (s : State) (n : Nat) (f : AoChannel → AoChannel) : (s.setAo n f).update = s.update := rfl
@[simp] theorem State.setAo_panel (s : State) (n : Nat) (f : AoChannel → AoChannel) : (s.setAo n f).panel = s.panel := rfl
@[simp] theorem State.setAo_power (s : State) (n : Nat) (f : AoChannel → AoChannel) : (s.setAo n f).power = s.power := rfl
@[simp] theorem State.setAo_free (s : State) (n : Nat) (f : AoChannel → AoChannel) : (s.setAo n f).free = s.free := rfl
@[simp] theorem State.setAo_pending (s : State) (n : Nat) (f : AoChannel → AoChannel) : (s.setAo n f).pending = s.pending := rfl

/-! ### `State.setPfb` changes `field.pfb` alone -/

@[simp] theorem State.setPfb_field_pfb (s : State) (n : Nat) (f : PfbChannel → PfbChannel) : (s.setPfb n f).field.pfb = upd s.field.pfb n f := rfl
@[simp] theorem State.setPfb_factory (s : State) (n : Nat) (f : PfbChannel → PfbChannel) : (s.setPfb n f).factory = s.factory := rfl
@[simp] theorem State.setPfb_events (s : State) (n : Nat) (f : PfbChannel → PfbChannel) : (s.setPfb n f).events = s.events := rfl
@[simp] theorem State.setPfb_cycle (s : State) (n : Nat) (f : PfbChannel → PfbChannel) : (s.setPfb n f).cycle = s.cycle := rfl
@[simp] theorem State.setPfb_image (s : State) (n : Nat) (f : PfbChannel → PfbChannel) : (s.setPfb n f).image = s.image := rfl
@[simp] theorem State.setPfb_time (s : State) (n : Nat) (f : PfbChannel → PfbChannel) : (s.setPfb n f).time = s.time := rfl
@[simp] theorem State.setPfb_gnss (s : State) (n : Nat) (f : PfbChannel → PfbChannel) : (s.setPfb n f).gnss = s.gnss := rfl
@[simp] theorem State.setPfb_ain (s : State) (n : Nat) (f : PfbChannel → PfbChannel) : (s.setPfb n f).ain = s.ain := rfl
@[simp] theorem State.setPfb_fusion (s : State) (n : Nat) (f : PfbChannel → PfbChannel) : (s.setPfb n f).fusion = s.fusion := rfl
@[simp] theorem State.setPfb_wind (s : State) (n : Nat) (f : PfbChannel → PfbChannel) : (s.setPfb n f).wind = s.wind := rfl
@[simp] theorem State.setPfb_obs (s : State) (n : Nat) (f : PfbChannel → PfbChannel) : (s.setPfb n f).obs = s.obs := rfl
@[simp] theorem State.setPfb_obsParams (s : State) (n : Nat) (f : PfbChannel → PfbChannel) : (s.setPfb n f).obsParams = s.obsParams := rfl
@[simp] theorem State.setPfb_obsOut (s : State) (n : Nat) (f : PfbChannel → PfbChannel) : (s.setPfb n f).obsOut = s.obsOut := rfl
@[simp] theorem State.setPfb_history (s : State) (n : Nat) (f : PfbChannel → PfbChannel) : (s.setPfb n f).history = s.history := rfl
@[simp] theorem State.setPfb_law (s : State) (n : Nat) (f : PfbChannel → PfbChannel) : (s.setPfb n f).law = s.law := rfl
@[simp] theorem State.setPfb_dyn (s : State) (n : Nat) (f : PfbChannel → PfbChannel) : (s.setPfb n f).dyn = s.dyn := rfl
@[simp] theorem State.setPfb_sol (s : State) (n : Nat) (f : PfbChannel → PfbChannel) : (s.setPfb n f).sol = s.sol := rfl
@[simp] theorem State.setPfb_res (s : State) (n : Nat) (f : PfbChannel → PfbChannel) : (s.setPfb n f).res = s.res := rfl
@[simp] theorem State.setPfb_solParams (s : State) (n : Nat) (f : PfbChannel → PfbChannel) : (s.setPfb n f).solParams = s.solParams := rfl
@[simp] theorem State.setPfb_servo (s : State) (n : Nat) (f : PfbChannel → PfbChannel) : (s.setPfb n f).servo = s.servo := rfl
@[simp] theorem State.setPfb_saf (s : State) (n : Nat) (f : PfbChannel → PfbChannel) : (s.setPfb n f).saf = s.saf := rfl
@[simp] theorem State.setPfb_modes (s : State) (n : Nat) (f : PfbChannel → PfbChannel) : (s.setPfb n f).modes = s.modes := rfl
@[simp] theorem State.setPfb_retained (s : State) (n : Nat) (f : PfbChannel → PfbChannel) : (s.setPfb n f).retained = s.retained := rfl
@[simp] theorem State.setPfb_group (s : State) (n : Nat) (f : PfbChannel → PfbChannel) : (s.setPfb n f).group = s.group := rfl
@[simp] theorem State.setPfb_gcycle (s : State) (n : Nat) (f : PfbChannel → PfbChannel) : (s.setPfb n f).gcycle = s.gcycle := rfl
@[simp] theorem State.setPfb_net (s : State) (n : Nat) (f : PfbChannel → PfbChannel) : (s.setPfb n f).net = s.net := rfl
@[simp] theorem State.setPfb_qcp (s : State) (n : Nat) (f : PfbChannel → PfbChannel) : (s.setPfb n f).qcp = s.qcp := rfl
@[simp] theorem State.setPfb_recorder (s : State) (n : Nat) (f : PfbChannel → PfbChannel) : (s.setPfb n f).recorder = s.recorder := rfl
@[simp] theorem State.setPfb_trust (s : State) (n : Nat) (f : PfbChannel → PfbChannel) : (s.setPfb n f).trust = s.trust := rfl
@[simp] theorem State.setPfb_hsk (s : State) (n : Nat) (f : PfbChannel → PfbChannel) : (s.setPfb n f).hsk = s.hsk := rfl
@[simp] theorem State.setPfb_update (s : State) (n : Nat) (f : PfbChannel → PfbChannel) : (s.setPfb n f).update = s.update := rfl
@[simp] theorem State.setPfb_panel (s : State) (n : Nat) (f : PfbChannel → PfbChannel) : (s.setPfb n f).panel = s.panel := rfl
@[simp] theorem State.setPfb_power (s : State) (n : Nat) (f : PfbChannel → PfbChannel) : (s.setPfb n f).power = s.power := rfl
@[simp] theorem State.setPfb_free (s : State) (n : Nat) (f : PfbChannel → PfbChannel) : (s.setPfb n f).free = s.free := rfl
@[simp] theorem State.setPfb_pending (s : State) (n : Nat) (f : PfbChannel → PfbChannel) : (s.setPfb n f).pending = s.pending := rfl

/-! ### `State.setInput` changes `saf.inputs` alone -/

@[simp] theorem State.setInput_saf_inputs (s : State) (i : Nat) (f : SafInput → SafInput) : (s.setInput i f).saf.inputs = upd s.saf.inputs i f := rfl
@[simp] theorem State.setInput_factory (s : State) (i : Nat) (f : SafInput → SafInput) : (s.setInput i f).factory = s.factory := rfl
@[simp] theorem State.setInput_events (s : State) (i : Nat) (f : SafInput → SafInput) : (s.setInput i f).events = s.events := rfl
@[simp] theorem State.setInput_cycle (s : State) (i : Nat) (f : SafInput → SafInput) : (s.setInput i f).cycle = s.cycle := rfl
@[simp] theorem State.setInput_image (s : State) (i : Nat) (f : SafInput → SafInput) : (s.setInput i f).image = s.image := rfl
@[simp] theorem State.setInput_time (s : State) (i : Nat) (f : SafInput → SafInput) : (s.setInput i f).time = s.time := rfl
@[simp] theorem State.setInput_gnss (s : State) (i : Nat) (f : SafInput → SafInput) : (s.setInput i f).gnss = s.gnss := rfl
@[simp] theorem State.setInput_ain (s : State) (i : Nat) (f : SafInput → SafInput) : (s.setInput i f).ain = s.ain := rfl
@[simp] theorem State.setInput_fusion (s : State) (i : Nat) (f : SafInput → SafInput) : (s.setInput i f).fusion = s.fusion := rfl
@[simp] theorem State.setInput_wind (s : State) (i : Nat) (f : SafInput → SafInput) : (s.setInput i f).wind = s.wind := rfl
@[simp] theorem State.setInput_obs (s : State) (i : Nat) (f : SafInput → SafInput) : (s.setInput i f).obs = s.obs := rfl
@[simp] theorem State.setInput_obsParams (s : State) (i : Nat) (f : SafInput → SafInput) : (s.setInput i f).obsParams = s.obsParams := rfl
@[simp] theorem State.setInput_obsOut (s : State) (i : Nat) (f : SafInput → SafInput) : (s.setInput i f).obsOut = s.obsOut := rfl
@[simp] theorem State.setInput_history (s : State) (i : Nat) (f : SafInput → SafInput) : (s.setInput i f).history = s.history := rfl
@[simp] theorem State.setInput_law (s : State) (i : Nat) (f : SafInput → SafInput) : (s.setInput i f).law = s.law := rfl
@[simp] theorem State.setInput_dyn (s : State) (i : Nat) (f : SafInput → SafInput) : (s.setInput i f).dyn = s.dyn := rfl
@[simp] theorem State.setInput_sol (s : State) (i : Nat) (f : SafInput → SafInput) : (s.setInput i f).sol = s.sol := rfl
@[simp] theorem State.setInput_res (s : State) (i : Nat) (f : SafInput → SafInput) : (s.setInput i f).res = s.res := rfl
@[simp] theorem State.setInput_solParams (s : State) (i : Nat) (f : SafInput → SafInput) : (s.setInput i f).solParams = s.solParams := rfl
@[simp] theorem State.setInput_servo (s : State) (i : Nat) (f : SafInput → SafInput) : (s.setInput i f).servo = s.servo := rfl
@[simp] theorem State.setInput_field (s : State) (i : Nat) (f : SafInput → SafInput) : (s.setInput i f).field = s.field := rfl
@[simp] theorem State.setInput_modes (s : State) (i : Nat) (f : SafInput → SafInput) : (s.setInput i f).modes = s.modes := rfl
@[simp] theorem State.setInput_retained (s : State) (i : Nat) (f : SafInput → SafInput) : (s.setInput i f).retained = s.retained := rfl
@[simp] theorem State.setInput_group (s : State) (i : Nat) (f : SafInput → SafInput) : (s.setInput i f).group = s.group := rfl
@[simp] theorem State.setInput_gcycle (s : State) (i : Nat) (f : SafInput → SafInput) : (s.setInput i f).gcycle = s.gcycle := rfl
@[simp] theorem State.setInput_net (s : State) (i : Nat) (f : SafInput → SafInput) : (s.setInput i f).net = s.net := rfl
@[simp] theorem State.setInput_qcp (s : State) (i : Nat) (f : SafInput → SafInput) : (s.setInput i f).qcp = s.qcp := rfl
@[simp] theorem State.setInput_recorder (s : State) (i : Nat) (f : SafInput → SafInput) : (s.setInput i f).recorder = s.recorder := rfl
@[simp] theorem State.setInput_trust (s : State) (i : Nat) (f : SafInput → SafInput) : (s.setInput i f).trust = s.trust := rfl
@[simp] theorem State.setInput_hsk (s : State) (i : Nat) (f : SafInput → SafInput) : (s.setInput i f).hsk = s.hsk := rfl
@[simp] theorem State.setInput_update (s : State) (i : Nat) (f : SafInput → SafInput) : (s.setInput i f).update = s.update := rfl
@[simp] theorem State.setInput_panel (s : State) (i : Nat) (f : SafInput → SafInput) : (s.setInput i f).panel = s.panel := rfl
@[simp] theorem State.setInput_power (s : State) (i : Nat) (f : SafInput → SafInput) : (s.setInput i f).power = s.power := rfl
@[simp] theorem State.setInput_free (s : State) (i : Nat) (f : SafInput → SafInput) : (s.setInput i f).free = s.free := rfl
@[simp] theorem State.setInput_pending (s : State) (i : Nat) (f : SafInput → SafInput) : (s.setInput i f).pending = s.pending := rfl

/-! ### `State.setGates` changes `saf.gates` alone -/

@[simp] theorem State.setGates_factory (s : State) (ns : List Nat) (f : GateCauses → GateCauses) : (s.setGates ns f).factory = s.factory := rfl
@[simp] theorem State.setGates_events (s : State) (ns : List Nat) (f : GateCauses → GateCauses) : (s.setGates ns f).events = s.events := rfl
@[simp] theorem State.setGates_cycle (s : State) (ns : List Nat) (f : GateCauses → GateCauses) : (s.setGates ns f).cycle = s.cycle := rfl
@[simp] theorem State.setGates_image (s : State) (ns : List Nat) (f : GateCauses → GateCauses) : (s.setGates ns f).image = s.image := rfl
@[simp] theorem State.setGates_time (s : State) (ns : List Nat) (f : GateCauses → GateCauses) : (s.setGates ns f).time = s.time := rfl
@[simp] theorem State.setGates_gnss (s : State) (ns : List Nat) (f : GateCauses → GateCauses) : (s.setGates ns f).gnss = s.gnss := rfl
@[simp] theorem State.setGates_ain (s : State) (ns : List Nat) (f : GateCauses → GateCauses) : (s.setGates ns f).ain = s.ain := rfl
@[simp] theorem State.setGates_fusion (s : State) (ns : List Nat) (f : GateCauses → GateCauses) : (s.setGates ns f).fusion = s.fusion := rfl
@[simp] theorem State.setGates_wind (s : State) (ns : List Nat) (f : GateCauses → GateCauses) : (s.setGates ns f).wind = s.wind := rfl
@[simp] theorem State.setGates_obs (s : State) (ns : List Nat) (f : GateCauses → GateCauses) : (s.setGates ns f).obs = s.obs := rfl
@[simp] theorem State.setGates_obsParams (s : State) (ns : List Nat) (f : GateCauses → GateCauses) : (s.setGates ns f).obsParams = s.obsParams := rfl
@[simp] theorem State.setGates_obsOut (s : State) (ns : List Nat) (f : GateCauses → GateCauses) : (s.setGates ns f).obsOut = s.obsOut := rfl
@[simp] theorem State.setGates_history (s : State) (ns : List Nat) (f : GateCauses → GateCauses) : (s.setGates ns f).history = s.history := rfl
@[simp] theorem State.setGates_law (s : State) (ns : List Nat) (f : GateCauses → GateCauses) : (s.setGates ns f).law = s.law := rfl
@[simp] theorem State.setGates_dyn (s : State) (ns : List Nat) (f : GateCauses → GateCauses) : (s.setGates ns f).dyn = s.dyn := rfl
@[simp] theorem State.setGates_sol (s : State) (ns : List Nat) (f : GateCauses → GateCauses) : (s.setGates ns f).sol = s.sol := rfl
@[simp] theorem State.setGates_res (s : State) (ns : List Nat) (f : GateCauses → GateCauses) : (s.setGates ns f).res = s.res := rfl
@[simp] theorem State.setGates_solParams (s : State) (ns : List Nat) (f : GateCauses → GateCauses) : (s.setGates ns f).solParams = s.solParams := rfl
@[simp] theorem State.setGates_servo (s : State) (ns : List Nat) (f : GateCauses → GateCauses) : (s.setGates ns f).servo = s.servo := rfl
@[simp] theorem State.setGates_field (s : State) (ns : List Nat) (f : GateCauses → GateCauses) : (s.setGates ns f).field = s.field := rfl
@[simp] theorem State.setGates_modes (s : State) (ns : List Nat) (f : GateCauses → GateCauses) : (s.setGates ns f).modes = s.modes := rfl
@[simp] theorem State.setGates_retained (s : State) (ns : List Nat) (f : GateCauses → GateCauses) : (s.setGates ns f).retained = s.retained := rfl
@[simp] theorem State.setGates_group (s : State) (ns : List Nat) (f : GateCauses → GateCauses) : (s.setGates ns f).group = s.group := rfl
@[simp] theorem State.setGates_gcycle (s : State) (ns : List Nat) (f : GateCauses → GateCauses) : (s.setGates ns f).gcycle = s.gcycle := rfl
@[simp] theorem State.setGates_net (s : State) (ns : List Nat) (f : GateCauses → GateCauses) : (s.setGates ns f).net = s.net := rfl
@[simp] theorem State.setGates_qcp (s : State) (ns : List Nat) (f : GateCauses → GateCauses) : (s.setGates ns f).qcp = s.qcp := rfl
@[simp] theorem State.setGates_recorder (s : State) (ns : List Nat) (f : GateCauses → GateCauses) : (s.setGates ns f).recorder = s.recorder := rfl
@[simp] theorem State.setGates_trust (s : State) (ns : List Nat) (f : GateCauses → GateCauses) : (s.setGates ns f).trust = s.trust := rfl
@[simp] theorem State.setGates_hsk (s : State) (ns : List Nat) (f : GateCauses → GateCauses) : (s.setGates ns f).hsk = s.hsk := rfl
@[simp] theorem State.setGates_update (s : State) (ns : List Nat) (f : GateCauses → GateCauses) : (s.setGates ns f).update = s.update := rfl
@[simp] theorem State.setGates_panel (s : State) (ns : List Nat) (f : GateCauses → GateCauses) : (s.setGates ns f).panel = s.panel := rfl
@[simp] theorem State.setGates_power (s : State) (ns : List Nat) (f : GateCauses → GateCauses) : (s.setGates ns f).power = s.power := rfl
@[simp] theorem State.setGates_free (s : State) (ns : List Nat) (f : GateCauses → GateCauses) : (s.setGates ns f).free = s.free := rfl
@[simp] theorem State.setGates_pending (s : State) (ns : List Nat) (f : GateCauses → GateCauses) : (s.setGates ns f).pending = s.pending := rfl

/-! ### `State.setPeer` changes `group.peers` alone -/

@[simp] theorem State.setPeer_group_peers (s : State) (m : Nat) (f : Peer → Peer) : (s.setPeer m f).group.peers = upd s.group.peers m f := rfl
@[simp] theorem State.setPeer_factory (s : State) (m : Nat) (f : Peer → Peer) : (s.setPeer m f).factory = s.factory := rfl
@[simp] theorem State.setPeer_events (s : State) (m : Nat) (f : Peer → Peer) : (s.setPeer m f).events = s.events := rfl
@[simp] theorem State.setPeer_cycle (s : State) (m : Nat) (f : Peer → Peer) : (s.setPeer m f).cycle = s.cycle := rfl
@[simp] theorem State.setPeer_image (s : State) (m : Nat) (f : Peer → Peer) : (s.setPeer m f).image = s.image := rfl
@[simp] theorem State.setPeer_time (s : State) (m : Nat) (f : Peer → Peer) : (s.setPeer m f).time = s.time := rfl
@[simp] theorem State.setPeer_gnss (s : State) (m : Nat) (f : Peer → Peer) : (s.setPeer m f).gnss = s.gnss := rfl
@[simp] theorem State.setPeer_ain (s : State) (m : Nat) (f : Peer → Peer) : (s.setPeer m f).ain = s.ain := rfl
@[simp] theorem State.setPeer_fusion (s : State) (m : Nat) (f : Peer → Peer) : (s.setPeer m f).fusion = s.fusion := rfl
@[simp] theorem State.setPeer_wind (s : State) (m : Nat) (f : Peer → Peer) : (s.setPeer m f).wind = s.wind := rfl
@[simp] theorem State.setPeer_obs (s : State) (m : Nat) (f : Peer → Peer) : (s.setPeer m f).obs = s.obs := rfl
@[simp] theorem State.setPeer_obsParams (s : State) (m : Nat) (f : Peer → Peer) : (s.setPeer m f).obsParams = s.obsParams := rfl
@[simp] theorem State.setPeer_obsOut (s : State) (m : Nat) (f : Peer → Peer) : (s.setPeer m f).obsOut = s.obsOut := rfl
@[simp] theorem State.setPeer_history (s : State) (m : Nat) (f : Peer → Peer) : (s.setPeer m f).history = s.history := rfl
@[simp] theorem State.setPeer_law (s : State) (m : Nat) (f : Peer → Peer) : (s.setPeer m f).law = s.law := rfl
@[simp] theorem State.setPeer_dyn (s : State) (m : Nat) (f : Peer → Peer) : (s.setPeer m f).dyn = s.dyn := rfl
@[simp] theorem State.setPeer_sol (s : State) (m : Nat) (f : Peer → Peer) : (s.setPeer m f).sol = s.sol := rfl
@[simp] theorem State.setPeer_res (s : State) (m : Nat) (f : Peer → Peer) : (s.setPeer m f).res = s.res := rfl
@[simp] theorem State.setPeer_solParams (s : State) (m : Nat) (f : Peer → Peer) : (s.setPeer m f).solParams = s.solParams := rfl
@[simp] theorem State.setPeer_servo (s : State) (m : Nat) (f : Peer → Peer) : (s.setPeer m f).servo = s.servo := rfl
@[simp] theorem State.setPeer_field (s : State) (m : Nat) (f : Peer → Peer) : (s.setPeer m f).field = s.field := rfl
@[simp] theorem State.setPeer_saf (s : State) (m : Nat) (f : Peer → Peer) : (s.setPeer m f).saf = s.saf := rfl
@[simp] theorem State.setPeer_modes (s : State) (m : Nat) (f : Peer → Peer) : (s.setPeer m f).modes = s.modes := rfl
@[simp] theorem State.setPeer_retained (s : State) (m : Nat) (f : Peer → Peer) : (s.setPeer m f).retained = s.retained := rfl
@[simp] theorem State.setPeer_gcycle (s : State) (m : Nat) (f : Peer → Peer) : (s.setPeer m f).gcycle = s.gcycle := rfl
@[simp] theorem State.setPeer_net (s : State) (m : Nat) (f : Peer → Peer) : (s.setPeer m f).net = s.net := rfl
@[simp] theorem State.setPeer_qcp (s : State) (m : Nat) (f : Peer → Peer) : (s.setPeer m f).qcp = s.qcp := rfl
@[simp] theorem State.setPeer_recorder (s : State) (m : Nat) (f : Peer → Peer) : (s.setPeer m f).recorder = s.recorder := rfl
@[simp] theorem State.setPeer_trust (s : State) (m : Nat) (f : Peer → Peer) : (s.setPeer m f).trust = s.trust := rfl
@[simp] theorem State.setPeer_hsk (s : State) (m : Nat) (f : Peer → Peer) : (s.setPeer m f).hsk = s.hsk := rfl
@[simp] theorem State.setPeer_update (s : State) (m : Nat) (f : Peer → Peer) : (s.setPeer m f).update = s.update := rfl
@[simp] theorem State.setPeer_panel (s : State) (m : Nat) (f : Peer → Peer) : (s.setPeer m f).panel = s.panel := rfl
@[simp] theorem State.setPeer_power (s : State) (m : Nat) (f : Peer → Peer) : (s.setPeer m f).power = s.power := rfl
@[simp] theorem State.setPeer_free (s : State) (m : Nat) (f : Peer → Peer) : (s.setPeer m f).free = s.free := rfl
@[simp] theorem State.setPeer_pending (s : State) (m : Nat) (f : Peer → Peer) : (s.setPeer m f).pending = s.pending := rfl

/-! ### `State.setLink` changes `group.links` alone -/

@[simp] theorem State.setLink_group_links (s : State) (l : Nat) (f : LinkState → LinkState) : (s.setLink l f).group.links = upd s.group.links l f := rfl
@[simp] theorem State.setLink_factory (s : State) (l : Nat) (f : LinkState → LinkState) : (s.setLink l f).factory = s.factory := rfl
@[simp] theorem State.setLink_events (s : State) (l : Nat) (f : LinkState → LinkState) : (s.setLink l f).events = s.events := rfl
@[simp] theorem State.setLink_cycle (s : State) (l : Nat) (f : LinkState → LinkState) : (s.setLink l f).cycle = s.cycle := rfl
@[simp] theorem State.setLink_image (s : State) (l : Nat) (f : LinkState → LinkState) : (s.setLink l f).image = s.image := rfl
@[simp] theorem State.setLink_time (s : State) (l : Nat) (f : LinkState → LinkState) : (s.setLink l f).time = s.time := rfl
@[simp] theorem State.setLink_gnss (s : State) (l : Nat) (f : LinkState → LinkState) : (s.setLink l f).gnss = s.gnss := rfl
@[simp] theorem State.setLink_ain (s : State) (l : Nat) (f : LinkState → LinkState) : (s.setLink l f).ain = s.ain := rfl
@[simp] theorem State.setLink_fusion (s : State) (l : Nat) (f : LinkState → LinkState) : (s.setLink l f).fusion = s.fusion := rfl
@[simp] theorem State.setLink_wind (s : State) (l : Nat) (f : LinkState → LinkState) : (s.setLink l f).wind = s.wind := rfl
@[simp] theorem State.setLink_obs (s : State) (l : Nat) (f : LinkState → LinkState) : (s.setLink l f).obs = s.obs := rfl
@[simp] theorem State.setLink_obsParams (s : State) (l : Nat) (f : LinkState → LinkState) : (s.setLink l f).obsParams = s.obsParams := rfl
@[simp] theorem State.setLink_obsOut (s : State) (l : Nat) (f : LinkState → LinkState) : (s.setLink l f).obsOut = s.obsOut := rfl
@[simp] theorem State.setLink_history (s : State) (l : Nat) (f : LinkState → LinkState) : (s.setLink l f).history = s.history := rfl
@[simp] theorem State.setLink_law (s : State) (l : Nat) (f : LinkState → LinkState) : (s.setLink l f).law = s.law := rfl
@[simp] theorem State.setLink_dyn (s : State) (l : Nat) (f : LinkState → LinkState) : (s.setLink l f).dyn = s.dyn := rfl
@[simp] theorem State.setLink_sol (s : State) (l : Nat) (f : LinkState → LinkState) : (s.setLink l f).sol = s.sol := rfl
@[simp] theorem State.setLink_res (s : State) (l : Nat) (f : LinkState → LinkState) : (s.setLink l f).res = s.res := rfl
@[simp] theorem State.setLink_solParams (s : State) (l : Nat) (f : LinkState → LinkState) : (s.setLink l f).solParams = s.solParams := rfl
@[simp] theorem State.setLink_servo (s : State) (l : Nat) (f : LinkState → LinkState) : (s.setLink l f).servo = s.servo := rfl
@[simp] theorem State.setLink_field (s : State) (l : Nat) (f : LinkState → LinkState) : (s.setLink l f).field = s.field := rfl
@[simp] theorem State.setLink_saf (s : State) (l : Nat) (f : LinkState → LinkState) : (s.setLink l f).saf = s.saf := rfl
@[simp] theorem State.setLink_modes (s : State) (l : Nat) (f : LinkState → LinkState) : (s.setLink l f).modes = s.modes := rfl
@[simp] theorem State.setLink_retained (s : State) (l : Nat) (f : LinkState → LinkState) : (s.setLink l f).retained = s.retained := rfl
@[simp] theorem State.setLink_gcycle (s : State) (l : Nat) (f : LinkState → LinkState) : (s.setLink l f).gcycle = s.gcycle := rfl
@[simp] theorem State.setLink_net (s : State) (l : Nat) (f : LinkState → LinkState) : (s.setLink l f).net = s.net := rfl
@[simp] theorem State.setLink_qcp (s : State) (l : Nat) (f : LinkState → LinkState) : (s.setLink l f).qcp = s.qcp := rfl
@[simp] theorem State.setLink_recorder (s : State) (l : Nat) (f : LinkState → LinkState) : (s.setLink l f).recorder = s.recorder := rfl
@[simp] theorem State.setLink_trust (s : State) (l : Nat) (f : LinkState → LinkState) : (s.setLink l f).trust = s.trust := rfl
@[simp] theorem State.setLink_hsk (s : State) (l : Nat) (f : LinkState → LinkState) : (s.setLink l f).hsk = s.hsk := rfl
@[simp] theorem State.setLink_update (s : State) (l : Nat) (f : LinkState → LinkState) : (s.setLink l f).update = s.update := rfl
@[simp] theorem State.setLink_panel (s : State) (l : Nat) (f : LinkState → LinkState) : (s.setLink l f).panel = s.panel := rfl
@[simp] theorem State.setLink_power (s : State) (l : Nat) (f : LinkState → LinkState) : (s.setLink l f).power = s.power := rfl
@[simp] theorem State.setLink_free (s : State) (l : Nat) (f : LinkState → LinkState) : (s.setLink l f).free = s.free := rfl
@[simp] theorem State.setLink_pending (s : State) (l : Nat) (f : LinkState → LinkState) : (s.setLink l f).pending = s.pending := rfl

/-! ### `State.countGroup` changes `group.counters` alone -/

@[simp] theorem State.countGroup_group_counters (s : State) (i : Nat) : (s.countGroup i).group.counters = upd s.group.counters i sat32 := rfl
@[simp] theorem State.countGroup_factory (s : State) (i : Nat) : (s.countGroup i).factory = s.factory := rfl
@[simp] theorem State.countGroup_events (s : State) (i : Nat) : (s.countGroup i).events = s.events := rfl
@[simp] theorem State.countGroup_cycle (s : State) (i : Nat) : (s.countGroup i).cycle = s.cycle := rfl
@[simp] theorem State.countGroup_image (s : State) (i : Nat) : (s.countGroup i).image = s.image := rfl
@[simp] theorem State.countGroup_time (s : State) (i : Nat) : (s.countGroup i).time = s.time := rfl
@[simp] theorem State.countGroup_gnss (s : State) (i : Nat) : (s.countGroup i).gnss = s.gnss := rfl
@[simp] theorem State.countGroup_ain (s : State) (i : Nat) : (s.countGroup i).ain = s.ain := rfl
@[simp] theorem State.countGroup_fusion (s : State) (i : Nat) : (s.countGroup i).fusion = s.fusion := rfl
@[simp] theorem State.countGroup_wind (s : State) (i : Nat) : (s.countGroup i).wind = s.wind := rfl
@[simp] theorem State.countGroup_obs (s : State) (i : Nat) : (s.countGroup i).obs = s.obs := rfl
@[simp] theorem State.countGroup_obsParams (s : State) (i : Nat) : (s.countGroup i).obsParams = s.obsParams := rfl
@[simp] theorem State.countGroup_obsOut (s : State) (i : Nat) : (s.countGroup i).obsOut = s.obsOut := rfl
@[simp] theorem State.countGroup_history (s : State) (i : Nat) : (s.countGroup i).history = s.history := rfl
@[simp] theorem State.countGroup_law (s : State) (i : Nat) : (s.countGroup i).law = s.law := rfl
@[simp] theorem State.countGroup_dyn (s : State) (i : Nat) : (s.countGroup i).dyn = s.dyn := rfl
@[simp] theorem State.countGroup_sol (s : State) (i : Nat) : (s.countGroup i).sol = s.sol := rfl
@[simp] theorem State.countGroup_res (s : State) (i : Nat) : (s.countGroup i).res = s.res := rfl
@[simp] theorem State.countGroup_solParams (s : State) (i : Nat) : (s.countGroup i).solParams = s.solParams := rfl
@[simp] theorem State.countGroup_servo (s : State) (i : Nat) : (s.countGroup i).servo = s.servo := rfl
@[simp] theorem State.countGroup_field (s : State) (i : Nat) : (s.countGroup i).field = s.field := rfl
@[simp] theorem State.countGroup_saf (s : State) (i : Nat) : (s.countGroup i).saf = s.saf := rfl
@[simp] theorem State.countGroup_modes (s : State) (i : Nat) : (s.countGroup i).modes = s.modes := rfl
@[simp] theorem State.countGroup_retained (s : State) (i : Nat) : (s.countGroup i).retained = s.retained := rfl
@[simp] theorem State.countGroup_gcycle (s : State) (i : Nat) : (s.countGroup i).gcycle = s.gcycle := rfl
@[simp] theorem State.countGroup_net (s : State) (i : Nat) : (s.countGroup i).net = s.net := rfl
@[simp] theorem State.countGroup_qcp (s : State) (i : Nat) : (s.countGroup i).qcp = s.qcp := rfl
@[simp] theorem State.countGroup_recorder (s : State) (i : Nat) : (s.countGroup i).recorder = s.recorder := rfl
@[simp] theorem State.countGroup_trust (s : State) (i : Nat) : (s.countGroup i).trust = s.trust := rfl
@[simp] theorem State.countGroup_hsk (s : State) (i : Nat) : (s.countGroup i).hsk = s.hsk := rfl
@[simp] theorem State.countGroup_update (s : State) (i : Nat) : (s.countGroup i).update = s.update := rfl
@[simp] theorem State.countGroup_panel (s : State) (i : Nat) : (s.countGroup i).panel = s.panel := rfl
@[simp] theorem State.countGroup_power (s : State) (i : Nat) : (s.countGroup i).power = s.power := rfl
@[simp] theorem State.countGroup_free (s : State) (i : Nat) : (s.countGroup i).free = s.free := rfl
@[simp] theorem State.countGroup_pending (s : State) (i : Nat) : (s.countGroup i).pending = s.pending := rfl

/-! ### `State.setInStep` changes `group.inStep` alone -/

@[simp] theorem State.setInStep_factory (s : State) (m : Nat) (on : Bool) : (s.setInStep m on).factory = s.factory := rfl
@[simp] theorem State.setInStep_events (s : State) (m : Nat) (on : Bool) : (s.setInStep m on).events = s.events := rfl
@[simp] theorem State.setInStep_cycle (s : State) (m : Nat) (on : Bool) : (s.setInStep m on).cycle = s.cycle := rfl
@[simp] theorem State.setInStep_image (s : State) (m : Nat) (on : Bool) : (s.setInStep m on).image = s.image := rfl
@[simp] theorem State.setInStep_time (s : State) (m : Nat) (on : Bool) : (s.setInStep m on).time = s.time := rfl
@[simp] theorem State.setInStep_gnss (s : State) (m : Nat) (on : Bool) : (s.setInStep m on).gnss = s.gnss := rfl
@[simp] theorem State.setInStep_ain (s : State) (m : Nat) (on : Bool) : (s.setInStep m on).ain = s.ain := rfl
@[simp] theorem State.setInStep_fusion (s : State) (m : Nat) (on : Bool) : (s.setInStep m on).fusion = s.fusion := rfl
@[simp] theorem State.setInStep_wind (s : State) (m : Nat) (on : Bool) : (s.setInStep m on).wind = s.wind := rfl
@[simp] theorem State.setInStep_obs (s : State) (m : Nat) (on : Bool) : (s.setInStep m on).obs = s.obs := rfl
@[simp] theorem State.setInStep_obsParams (s : State) (m : Nat) (on : Bool) : (s.setInStep m on).obsParams = s.obsParams := rfl
@[simp] theorem State.setInStep_obsOut (s : State) (m : Nat) (on : Bool) : (s.setInStep m on).obsOut = s.obsOut := rfl
@[simp] theorem State.setInStep_history (s : State) (m : Nat) (on : Bool) : (s.setInStep m on).history = s.history := rfl
@[simp] theorem State.setInStep_law (s : State) (m : Nat) (on : Bool) : (s.setInStep m on).law = s.law := rfl
@[simp] theorem State.setInStep_dyn (s : State) (m : Nat) (on : Bool) : (s.setInStep m on).dyn = s.dyn := rfl
@[simp] theorem State.setInStep_sol (s : State) (m : Nat) (on : Bool) : (s.setInStep m on).sol = s.sol := rfl
@[simp] theorem State.setInStep_res (s : State) (m : Nat) (on : Bool) : (s.setInStep m on).res = s.res := rfl
@[simp] theorem State.setInStep_solParams (s : State) (m : Nat) (on : Bool) : (s.setInStep m on).solParams = s.solParams := rfl
@[simp] theorem State.setInStep_servo (s : State) (m : Nat) (on : Bool) : (s.setInStep m on).servo = s.servo := rfl
@[simp] theorem State.setInStep_field (s : State) (m : Nat) (on : Bool) : (s.setInStep m on).field = s.field := rfl
@[simp] theorem State.setInStep_saf (s : State) (m : Nat) (on : Bool) : (s.setInStep m on).saf = s.saf := rfl
@[simp] theorem State.setInStep_modes (s : State) (m : Nat) (on : Bool) : (s.setInStep m on).modes = s.modes := rfl
@[simp] theorem State.setInStep_retained (s : State) (m : Nat) (on : Bool) : (s.setInStep m on).retained = s.retained := rfl
@[simp] theorem State.setInStep_gcycle (s : State) (m : Nat) (on : Bool) : (s.setInStep m on).gcycle = s.gcycle := rfl
@[simp] theorem State.setInStep_net (s : State) (m : Nat) (on : Bool) : (s.setInStep m on).net = s.net := rfl
@[simp] theorem State.setInStep_qcp (s : State) (m : Nat) (on : Bool) : (s.setInStep m on).qcp = s.qcp := rfl
@[simp] theorem State.setInStep_recorder (s : State) (m : Nat) (on : Bool) : (s.setInStep m on).recorder = s.recorder := rfl
@[simp] theorem State.setInStep_trust (s : State) (m : Nat) (on : Bool) : (s.setInStep m on).trust = s.trust := rfl
@[simp] theorem State.setInStep_hsk (s : State) (m : Nat) (on : Bool) : (s.setInStep m on).hsk = s.hsk := rfl
@[simp] theorem State.setInStep_update (s : State) (m : Nat) (on : Bool) : (s.setInStep m on).update = s.update := rfl
@[simp] theorem State.setInStep_panel (s : State) (m : Nat) (on : Bool) : (s.setInStep m on).panel = s.panel := rfl
@[simp] theorem State.setInStep_power (s : State) (m : Nat) (on : Bool) : (s.setInStep m on).power = s.power := rfl
@[simp] theorem State.setInStep_free (s : State) (m : Nat) (on : Bool) : (s.setInStep m on).free = s.free := rfl
@[simp] theorem State.setInStep_pending (s : State) (m : Nat) (on : Bool) : (s.setInStep m on).pending = s.pending := rfl

/-! ### `State.setPort` changes `net.ports` alone -/

@[simp] theorem State.setPort_net_ports (s : State) (n : Nat) (f : SwitchPort → SwitchPort) : (s.setPort n f).net.ports = upd s.net.ports n f := rfl
@[simp] theorem State.setPort_factory (s : State) (n : Nat) (f : SwitchPort → SwitchPort) : (s.setPort n f).factory = s.factory := rfl
@[simp] theorem State.setPort_events (s : State) (n : Nat) (f : SwitchPort → SwitchPort) : (s.setPort n f).events = s.events := rfl
@[simp] theorem State.setPort_cycle (s : State) (n : Nat) (f : SwitchPort → SwitchPort) : (s.setPort n f).cycle = s.cycle := rfl
@[simp] theorem State.setPort_image (s : State) (n : Nat) (f : SwitchPort → SwitchPort) : (s.setPort n f).image = s.image := rfl
@[simp] theorem State.setPort_time (s : State) (n : Nat) (f : SwitchPort → SwitchPort) : (s.setPort n f).time = s.time := rfl
@[simp] theorem State.setPort_gnss (s : State) (n : Nat) (f : SwitchPort → SwitchPort) : (s.setPort n f).gnss = s.gnss := rfl
@[simp] theorem State.setPort_ain (s : State) (n : Nat) (f : SwitchPort → SwitchPort) : (s.setPort n f).ain = s.ain := rfl
@[simp] theorem State.setPort_fusion (s : State) (n : Nat) (f : SwitchPort → SwitchPort) : (s.setPort n f).fusion = s.fusion := rfl
@[simp] theorem State.setPort_wind (s : State) (n : Nat) (f : SwitchPort → SwitchPort) : (s.setPort n f).wind = s.wind := rfl
@[simp] theorem State.setPort_obs (s : State) (n : Nat) (f : SwitchPort → SwitchPort) : (s.setPort n f).obs = s.obs := rfl
@[simp] theorem State.setPort_obsParams (s : State) (n : Nat) (f : SwitchPort → SwitchPort) : (s.setPort n f).obsParams = s.obsParams := rfl
@[simp] theorem State.setPort_obsOut (s : State) (n : Nat) (f : SwitchPort → SwitchPort) : (s.setPort n f).obsOut = s.obsOut := rfl
@[simp] theorem State.setPort_history (s : State) (n : Nat) (f : SwitchPort → SwitchPort) : (s.setPort n f).history = s.history := rfl
@[simp] theorem State.setPort_law (s : State) (n : Nat) (f : SwitchPort → SwitchPort) : (s.setPort n f).law = s.law := rfl
@[simp] theorem State.setPort_dyn (s : State) (n : Nat) (f : SwitchPort → SwitchPort) : (s.setPort n f).dyn = s.dyn := rfl
@[simp] theorem State.setPort_sol (s : State) (n : Nat) (f : SwitchPort → SwitchPort) : (s.setPort n f).sol = s.sol := rfl
@[simp] theorem State.setPort_res (s : State) (n : Nat) (f : SwitchPort → SwitchPort) : (s.setPort n f).res = s.res := rfl
@[simp] theorem State.setPort_solParams (s : State) (n : Nat) (f : SwitchPort → SwitchPort) : (s.setPort n f).solParams = s.solParams := rfl
@[simp] theorem State.setPort_servo (s : State) (n : Nat) (f : SwitchPort → SwitchPort) : (s.setPort n f).servo = s.servo := rfl
@[simp] theorem State.setPort_field (s : State) (n : Nat) (f : SwitchPort → SwitchPort) : (s.setPort n f).field = s.field := rfl
@[simp] theorem State.setPort_saf (s : State) (n : Nat) (f : SwitchPort → SwitchPort) : (s.setPort n f).saf = s.saf := rfl
@[simp] theorem State.setPort_modes (s : State) (n : Nat) (f : SwitchPort → SwitchPort) : (s.setPort n f).modes = s.modes := rfl
@[simp] theorem State.setPort_retained (s : State) (n : Nat) (f : SwitchPort → SwitchPort) : (s.setPort n f).retained = s.retained := rfl
@[simp] theorem State.setPort_group (s : State) (n : Nat) (f : SwitchPort → SwitchPort) : (s.setPort n f).group = s.group := rfl
@[simp] theorem State.setPort_gcycle (s : State) (n : Nat) (f : SwitchPort → SwitchPort) : (s.setPort n f).gcycle = s.gcycle := rfl
@[simp] theorem State.setPort_qcp (s : State) (n : Nat) (f : SwitchPort → SwitchPort) : (s.setPort n f).qcp = s.qcp := rfl
@[simp] theorem State.setPort_recorder (s : State) (n : Nat) (f : SwitchPort → SwitchPort) : (s.setPort n f).recorder = s.recorder := rfl
@[simp] theorem State.setPort_trust (s : State) (n : Nat) (f : SwitchPort → SwitchPort) : (s.setPort n f).trust = s.trust := rfl
@[simp] theorem State.setPort_hsk (s : State) (n : Nat) (f : SwitchPort → SwitchPort) : (s.setPort n f).hsk = s.hsk := rfl
@[simp] theorem State.setPort_update (s : State) (n : Nat) (f : SwitchPort → SwitchPort) : (s.setPort n f).update = s.update := rfl
@[simp] theorem State.setPort_panel (s : State) (n : Nat) (f : SwitchPort → SwitchPort) : (s.setPort n f).panel = s.panel := rfl
@[simp] theorem State.setPort_power (s : State) (n : Nat) (f : SwitchPort → SwitchPort) : (s.setPort n f).power = s.power := rfl
@[simp] theorem State.setPort_free (s : State) (n : Nat) (f : SwitchPort → SwitchPort) : (s.setPort n f).free = s.free := rfl
@[simp] theorem State.setPort_pending (s : State) (n : Nat) (f : SwitchPort → SwitchPort) : (s.setPort n f).pending = s.pending := rfl

/-! ### `State.setCan` changes `net.can` alone -/

@[simp] theorem State.setCan_net_can (s : State) (n : Nat) (f : CanController → CanController) : (s.setCan n f).net.can = upd s.net.can n f := rfl
@[simp] theorem State.setCan_factory (s : State) (n : Nat) (f : CanController → CanController) : (s.setCan n f).factory = s.factory := rfl
@[simp] theorem State.setCan_events (s : State) (n : Nat) (f : CanController → CanController) : (s.setCan n f).events = s.events := rfl
@[simp] theorem State.setCan_cycle (s : State) (n : Nat) (f : CanController → CanController) : (s.setCan n f).cycle = s.cycle := rfl
@[simp] theorem State.setCan_image (s : State) (n : Nat) (f : CanController → CanController) : (s.setCan n f).image = s.image := rfl
@[simp] theorem State.setCan_time (s : State) (n : Nat) (f : CanController → CanController) : (s.setCan n f).time = s.time := rfl
@[simp] theorem State.setCan_gnss (s : State) (n : Nat) (f : CanController → CanController) : (s.setCan n f).gnss = s.gnss := rfl
@[simp] theorem State.setCan_ain (s : State) (n : Nat) (f : CanController → CanController) : (s.setCan n f).ain = s.ain := rfl
@[simp] theorem State.setCan_fusion (s : State) (n : Nat) (f : CanController → CanController) : (s.setCan n f).fusion = s.fusion := rfl
@[simp] theorem State.setCan_wind (s : State) (n : Nat) (f : CanController → CanController) : (s.setCan n f).wind = s.wind := rfl
@[simp] theorem State.setCan_obs (s : State) (n : Nat) (f : CanController → CanController) : (s.setCan n f).obs = s.obs := rfl
@[simp] theorem State.setCan_obsParams (s : State) (n : Nat) (f : CanController → CanController) : (s.setCan n f).obsParams = s.obsParams := rfl
@[simp] theorem State.setCan_obsOut (s : State) (n : Nat) (f : CanController → CanController) : (s.setCan n f).obsOut = s.obsOut := rfl
@[simp] theorem State.setCan_history (s : State) (n : Nat) (f : CanController → CanController) : (s.setCan n f).history = s.history := rfl
@[simp] theorem State.setCan_law (s : State) (n : Nat) (f : CanController → CanController) : (s.setCan n f).law = s.law := rfl
@[simp] theorem State.setCan_dyn (s : State) (n : Nat) (f : CanController → CanController) : (s.setCan n f).dyn = s.dyn := rfl
@[simp] theorem State.setCan_sol (s : State) (n : Nat) (f : CanController → CanController) : (s.setCan n f).sol = s.sol := rfl
@[simp] theorem State.setCan_res (s : State) (n : Nat) (f : CanController → CanController) : (s.setCan n f).res = s.res := rfl
@[simp] theorem State.setCan_solParams (s : State) (n : Nat) (f : CanController → CanController) : (s.setCan n f).solParams = s.solParams := rfl
@[simp] theorem State.setCan_servo (s : State) (n : Nat) (f : CanController → CanController) : (s.setCan n f).servo = s.servo := rfl
@[simp] theorem State.setCan_field (s : State) (n : Nat) (f : CanController → CanController) : (s.setCan n f).field = s.field := rfl
@[simp] theorem State.setCan_saf (s : State) (n : Nat) (f : CanController → CanController) : (s.setCan n f).saf = s.saf := rfl
@[simp] theorem State.setCan_modes (s : State) (n : Nat) (f : CanController → CanController) : (s.setCan n f).modes = s.modes := rfl
@[simp] theorem State.setCan_retained (s : State) (n : Nat) (f : CanController → CanController) : (s.setCan n f).retained = s.retained := rfl
@[simp] theorem State.setCan_group (s : State) (n : Nat) (f : CanController → CanController) : (s.setCan n f).group = s.group := rfl
@[simp] theorem State.setCan_gcycle (s : State) (n : Nat) (f : CanController → CanController) : (s.setCan n f).gcycle = s.gcycle := rfl
@[simp] theorem State.setCan_qcp (s : State) (n : Nat) (f : CanController → CanController) : (s.setCan n f).qcp = s.qcp := rfl
@[simp] theorem State.setCan_recorder (s : State) (n : Nat) (f : CanController → CanController) : (s.setCan n f).recorder = s.recorder := rfl
@[simp] theorem State.setCan_trust (s : State) (n : Nat) (f : CanController → CanController) : (s.setCan n f).trust = s.trust := rfl
@[simp] theorem State.setCan_hsk (s : State) (n : Nat) (f : CanController → CanController) : (s.setCan n f).hsk = s.hsk := rfl
@[simp] theorem State.setCan_update (s : State) (n : Nat) (f : CanController → CanController) : (s.setCan n f).update = s.update := rfl
@[simp] theorem State.setCan_panel (s : State) (n : Nat) (f : CanController → CanController) : (s.setCan n f).panel = s.panel := rfl
@[simp] theorem State.setCan_power (s : State) (n : Nat) (f : CanController → CanController) : (s.setCan n f).power = s.power := rfl
@[simp] theorem State.setCan_free (s : State) (n : Nat) (f : CanController → CanController) : (s.setCan n f).free = s.free := rfl
@[simp] theorem State.setCan_pending (s : State) (n : Nat) (f : CanController → CanController) : (s.setCan n f).pending = s.pending := rfl

/-! ### `State.setSer` changes `net.ser` alone -/

@[simp] theorem State.setSer_net_ser (s : State) (n : Nat) (f : SerialPort → SerialPort) : (s.setSer n f).net.ser = upd s.net.ser n f := rfl
@[simp] theorem State.setSer_factory (s : State) (n : Nat) (f : SerialPort → SerialPort) : (s.setSer n f).factory = s.factory := rfl
@[simp] theorem State.setSer_events (s : State) (n : Nat) (f : SerialPort → SerialPort) : (s.setSer n f).events = s.events := rfl
@[simp] theorem State.setSer_cycle (s : State) (n : Nat) (f : SerialPort → SerialPort) : (s.setSer n f).cycle = s.cycle := rfl
@[simp] theorem State.setSer_image (s : State) (n : Nat) (f : SerialPort → SerialPort) : (s.setSer n f).image = s.image := rfl
@[simp] theorem State.setSer_time (s : State) (n : Nat) (f : SerialPort → SerialPort) : (s.setSer n f).time = s.time := rfl
@[simp] theorem State.setSer_gnss (s : State) (n : Nat) (f : SerialPort → SerialPort) : (s.setSer n f).gnss = s.gnss := rfl
@[simp] theorem State.setSer_ain (s : State) (n : Nat) (f : SerialPort → SerialPort) : (s.setSer n f).ain = s.ain := rfl
@[simp] theorem State.setSer_fusion (s : State) (n : Nat) (f : SerialPort → SerialPort) : (s.setSer n f).fusion = s.fusion := rfl
@[simp] theorem State.setSer_wind (s : State) (n : Nat) (f : SerialPort → SerialPort) : (s.setSer n f).wind = s.wind := rfl
@[simp] theorem State.setSer_obs (s : State) (n : Nat) (f : SerialPort → SerialPort) : (s.setSer n f).obs = s.obs := rfl
@[simp] theorem State.setSer_obsParams (s : State) (n : Nat) (f : SerialPort → SerialPort) : (s.setSer n f).obsParams = s.obsParams := rfl
@[simp] theorem State.setSer_obsOut (s : State) (n : Nat) (f : SerialPort → SerialPort) : (s.setSer n f).obsOut = s.obsOut := rfl
@[simp] theorem State.setSer_history (s : State) (n : Nat) (f : SerialPort → SerialPort) : (s.setSer n f).history = s.history := rfl
@[simp] theorem State.setSer_law (s : State) (n : Nat) (f : SerialPort → SerialPort) : (s.setSer n f).law = s.law := rfl
@[simp] theorem State.setSer_dyn (s : State) (n : Nat) (f : SerialPort → SerialPort) : (s.setSer n f).dyn = s.dyn := rfl
@[simp] theorem State.setSer_sol (s : State) (n : Nat) (f : SerialPort → SerialPort) : (s.setSer n f).sol = s.sol := rfl
@[simp] theorem State.setSer_res (s : State) (n : Nat) (f : SerialPort → SerialPort) : (s.setSer n f).res = s.res := rfl
@[simp] theorem State.setSer_solParams (s : State) (n : Nat) (f : SerialPort → SerialPort) : (s.setSer n f).solParams = s.solParams := rfl
@[simp] theorem State.setSer_servo (s : State) (n : Nat) (f : SerialPort → SerialPort) : (s.setSer n f).servo = s.servo := rfl
@[simp] theorem State.setSer_field (s : State) (n : Nat) (f : SerialPort → SerialPort) : (s.setSer n f).field = s.field := rfl
@[simp] theorem State.setSer_saf (s : State) (n : Nat) (f : SerialPort → SerialPort) : (s.setSer n f).saf = s.saf := rfl
@[simp] theorem State.setSer_modes (s : State) (n : Nat) (f : SerialPort → SerialPort) : (s.setSer n f).modes = s.modes := rfl
@[simp] theorem State.setSer_retained (s : State) (n : Nat) (f : SerialPort → SerialPort) : (s.setSer n f).retained = s.retained := rfl
@[simp] theorem State.setSer_group (s : State) (n : Nat) (f : SerialPort → SerialPort) : (s.setSer n f).group = s.group := rfl
@[simp] theorem State.setSer_gcycle (s : State) (n : Nat) (f : SerialPort → SerialPort) : (s.setSer n f).gcycle = s.gcycle := rfl
@[simp] theorem State.setSer_qcp (s : State) (n : Nat) (f : SerialPort → SerialPort) : (s.setSer n f).qcp = s.qcp := rfl
@[simp] theorem State.setSer_recorder (s : State) (n : Nat) (f : SerialPort → SerialPort) : (s.setSer n f).recorder = s.recorder := rfl
@[simp] theorem State.setSer_trust (s : State) (n : Nat) (f : SerialPort → SerialPort) : (s.setSer n f).trust = s.trust := rfl
@[simp] theorem State.setSer_hsk (s : State) (n : Nat) (f : SerialPort → SerialPort) : (s.setSer n f).hsk = s.hsk := rfl
@[simp] theorem State.setSer_update (s : State) (n : Nat) (f : SerialPort → SerialPort) : (s.setSer n f).update = s.update := rfl
@[simp] theorem State.setSer_panel (s : State) (n : Nat) (f : SerialPort → SerialPort) : (s.setSer n f).panel = s.panel := rfl
@[simp] theorem State.setSer_power (s : State) (n : Nat) (f : SerialPort → SerialPort) : (s.setSer n f).power = s.power := rfl
@[simp] theorem State.setSer_free (s : State) (n : Nat) (f : SerialPort → SerialPort) : (s.setSer n f).free = s.free := rfl
@[simp] theorem State.setSer_pending (s : State) (n : Nat) (f : SerialPort → SerialPort) : (s.setSer n f).pending = s.pending := rfl

/-! ### `State.setBin` changes `hsk.bins` alone -/

@[simp] theorem State.setBin_hsk_bins (s : State) (i : Nat) (f : ClockBin → ClockBin) : (s.setBin i f).hsk.bins = upd s.hsk.bins i f := rfl
@[simp] theorem State.setBin_factory (s : State) (i : Nat) (f : ClockBin → ClockBin) : (s.setBin i f).factory = s.factory := rfl
@[simp] theorem State.setBin_events (s : State) (i : Nat) (f : ClockBin → ClockBin) : (s.setBin i f).events = s.events := rfl
@[simp] theorem State.setBin_cycle (s : State) (i : Nat) (f : ClockBin → ClockBin) : (s.setBin i f).cycle = s.cycle := rfl
@[simp] theorem State.setBin_image (s : State) (i : Nat) (f : ClockBin → ClockBin) : (s.setBin i f).image = s.image := rfl
@[simp] theorem State.setBin_time (s : State) (i : Nat) (f : ClockBin → ClockBin) : (s.setBin i f).time = s.time := rfl
@[simp] theorem State.setBin_gnss (s : State) (i : Nat) (f : ClockBin → ClockBin) : (s.setBin i f).gnss = s.gnss := rfl
@[simp] theorem State.setBin_ain (s : State) (i : Nat) (f : ClockBin → ClockBin) : (s.setBin i f).ain = s.ain := rfl
@[simp] theorem State.setBin_fusion (s : State) (i : Nat) (f : ClockBin → ClockBin) : (s.setBin i f).fusion = s.fusion := rfl
@[simp] theorem State.setBin_wind (s : State) (i : Nat) (f : ClockBin → ClockBin) : (s.setBin i f).wind = s.wind := rfl
@[simp] theorem State.setBin_obs (s : State) (i : Nat) (f : ClockBin → ClockBin) : (s.setBin i f).obs = s.obs := rfl
@[simp] theorem State.setBin_obsParams (s : State) (i : Nat) (f : ClockBin → ClockBin) : (s.setBin i f).obsParams = s.obsParams := rfl
@[simp] theorem State.setBin_obsOut (s : State) (i : Nat) (f : ClockBin → ClockBin) : (s.setBin i f).obsOut = s.obsOut := rfl
@[simp] theorem State.setBin_history (s : State) (i : Nat) (f : ClockBin → ClockBin) : (s.setBin i f).history = s.history := rfl
@[simp] theorem State.setBin_law (s : State) (i : Nat) (f : ClockBin → ClockBin) : (s.setBin i f).law = s.law := rfl
@[simp] theorem State.setBin_dyn (s : State) (i : Nat) (f : ClockBin → ClockBin) : (s.setBin i f).dyn = s.dyn := rfl
@[simp] theorem State.setBin_sol (s : State) (i : Nat) (f : ClockBin → ClockBin) : (s.setBin i f).sol = s.sol := rfl
@[simp] theorem State.setBin_res (s : State) (i : Nat) (f : ClockBin → ClockBin) : (s.setBin i f).res = s.res := rfl
@[simp] theorem State.setBin_solParams (s : State) (i : Nat) (f : ClockBin → ClockBin) : (s.setBin i f).solParams = s.solParams := rfl
@[simp] theorem State.setBin_servo (s : State) (i : Nat) (f : ClockBin → ClockBin) : (s.setBin i f).servo = s.servo := rfl
@[simp] theorem State.setBin_field (s : State) (i : Nat) (f : ClockBin → ClockBin) : (s.setBin i f).field = s.field := rfl
@[simp] theorem State.setBin_saf (s : State) (i : Nat) (f : ClockBin → ClockBin) : (s.setBin i f).saf = s.saf := rfl
@[simp] theorem State.setBin_modes (s : State) (i : Nat) (f : ClockBin → ClockBin) : (s.setBin i f).modes = s.modes := rfl
@[simp] theorem State.setBin_retained (s : State) (i : Nat) (f : ClockBin → ClockBin) : (s.setBin i f).retained = s.retained := rfl
@[simp] theorem State.setBin_group (s : State) (i : Nat) (f : ClockBin → ClockBin) : (s.setBin i f).group = s.group := rfl
@[simp] theorem State.setBin_gcycle (s : State) (i : Nat) (f : ClockBin → ClockBin) : (s.setBin i f).gcycle = s.gcycle := rfl
@[simp] theorem State.setBin_net (s : State) (i : Nat) (f : ClockBin → ClockBin) : (s.setBin i f).net = s.net := rfl
@[simp] theorem State.setBin_qcp (s : State) (i : Nat) (f : ClockBin → ClockBin) : (s.setBin i f).qcp = s.qcp := rfl
@[simp] theorem State.setBin_recorder (s : State) (i : Nat) (f : ClockBin → ClockBin) : (s.setBin i f).recorder = s.recorder := rfl
@[simp] theorem State.setBin_trust (s : State) (i : Nat) (f : ClockBin → ClockBin) : (s.setBin i f).trust = s.trust := rfl
@[simp] theorem State.setBin_update (s : State) (i : Nat) (f : ClockBin → ClockBin) : (s.setBin i f).update = s.update := rfl
@[simp] theorem State.setBin_panel (s : State) (i : Nat) (f : ClockBin → ClockBin) : (s.setBin i f).panel = s.panel := rfl
@[simp] theorem State.setBin_power (s : State) (i : Nat) (f : ClockBin → ClockBin) : (s.setBin i f).power = s.power := rfl
@[simp] theorem State.setBin_free (s : State) (i : Nat) (f : ClockBin → ClockBin) : (s.setBin i f).free = s.free := rfl
@[simp] theorem State.setBin_pending (s : State) (i : Nat) (f : ClockBin → ClockBin) : (s.setBin i f).pending = s.pending := rfl
end Sys2Proof.Machine
end

