-- ==== Sys2Proof/Tests/Witness.lean ====
section
/-! SUPPORT. The small states on which the tests and the witnesses of the obligations stand. -/

namespace Sys2Proof.Tests
open Sys2Proof.Machine

def host : Request := { src := 0xFFFFC0A80001, port := 50000, seq := 7, crc := 0x1234 }
def host2 : Request := { host with modPort := 47002 }

/-- The checks of Ready, decided. -/
def readyCheck (s : State) (t : Nat) (req : Request) (op : Nat) (body : List Byte) : Bool :=
  s.modes.phase == .running && decide (s.modes.report.tb0At ≤ t) && portTakes op req.modPort && !s.group.versionHold &&
    (match s.qcp.queue with | [] => true | c :: _ => c == { req := req, opcode := BitVec.ofNat 16 op, body := body, at_ := c.at_ }) &&
    decide (s.qcp.responses.length < 32) && !(s.route 4).fault

theorem ready_of_check {s : State} {t : Nat} {req : Request} {op : Nat} {body : List Byte} (h : readyCheck s t req op body = true) :
    Ready s t req op body := by
  simp only [readyCheck, Bool.and_eq_true, Bool.not_eq_true', beq_iff_eq, decide_eq_true_eq] at h
  obtain ⟨⟨⟨⟨⟨⟨h1, h2⟩, h3⟩, h4⟩, h5⟩, h6⟩, h7⟩ := h
  refine ⟨h1, h2, h3, h4, ?_, h6, h7⟩
  intro c hc
  cases hq : s.qcp.queue with
  | nil => simp [hq] at hc
  | cons x l => simp [hq] at hc h5; rw [← hc]; exact h5

/-- The module running in mode IDLE, at TB0 = 0. -/
def on : State := { State.reset with modes.phase := .running }

/-- The reading of TB3. -/
def tb3At (n : Nat) (s : State) : State := { s with time.tb := upd s.time.tb 3 fun b => { b with count := n } }

/-- The reading of TB0. -/
def tb0At (n : Nat) (s : State) : State := { s with time.tb := upd s.time.tb 0 fun b => { b with count := n } }

/-- A small structure. -/
def plan : Structure := { points := [{ id := 0, kind := 3, period := 20000000 }] }

/-- The module running with that structure. -/
def loaded : State := { on with image.loaded := some plan, cycle.ticking := true }

/-- A structure with one position reference, its point due every 20 ms. -/
def planRef : Structure := { plan with slices := [{ kind := 1, index := 0, points := [0] }] }

/-- The module running with that structure and the reference enabled. -/
def fused : State := { loaded with image.loaded := some planRef, fusion.refs := upd loaded.fusion.refs 0 fun r => { r with state := 1 } }

/-- The state of a time base. -/
def base (n : Nat) (f : TimeBase → TimeBase) (s : State) : State := { s with time.tb := upd s.time.tb n f }

/-- The running module with option G. -/
def rx : State := { on with factory.optG := true }

/-- The module running alone, its structure loaded. -/
def solo : State := { fused with group.role := .alone }

/-- The module alone in mode STATION. -/
def station : State := { solo with modes.mode := .station, modes.previous := .idle }

/-- A structure with one azimuth thruster, its loop in slot 31, its enable U 0, and one point of each output kind. -/
def planServo : Structure :=
  { points := [{ id := 1, kind := 5, period := 1000000 }, { id := 2, kind := 2 }, { id := 3, kind := 4 },
               { id := 4, kind := 4, channel := 15 }, { id := 5, kind := 6, channel := 3 }, { id := 6, kind := 2, channel := 31 },
               { id := 7, kind := 1, channel := 30, period := 1000000 }],
    slices := [{ kind := 0, points := [1, 2, 3] }], thrusters := [{ azSlot := 31, generator := 15 }],
    loops := [{ slot := 31, feedback := 1, output := 3, outMax := 0x3F800000 }] }

/-- The module in mode TEST with that structure. -/
def bench : State := { on with image.loaded := some planServo, cycle.ticking := true, group.role := .alone, modes.mode := .test }

/-- The same with the enable closed and U 0 and U 31 switched on. -/
def driven : State :=
  { bench with saf.gates := .replicate 16 { start := false, removed := false },
               field.u := bench.field.u.map fun x => { x with cfg.output := true, setTo := some true } }

/-- The module alone in IDLE, every condition of entry to STATION met. -/
def fit : State :=
  { solo with image.loaded := some { planServo with variants := [{ modes := 15, thrusters := 1 }] }, obs.state := 3 }

/-- A member of a group of three, in a role. -/
def member (r : Role) : State :=
  { fused with image.loaded := some { planRef with cyc := { groupSize := 3 } }, group.role := r }

/-- A header of the other member 2 on link 1. -/
def head2 : LlpHeader := { sender := 2, link := some 1 }

/-- A QCP frame of version 3.2, sequence number 7. -/
def frameOf (op : Nat) (body : List Byte) (ver : Byte := 0x32) : List Byte :=
  let b := nat16 0x5158 ++ [ver, 0] ++ nat32 7 ++ nat16 op ++ [0, 0] ++ nat32 body.length ++ body
  b ++ be32 (crc32c b)

/-- A response in the cache to the PING that `frameOf 1 []` is. -/
def cached : State :=
  { on with qcp.cache := [{ resp := { req := { host with crc := crc32c (frameOf 1 []).dropLast.dropLast.dropLast.dropLast },
                                      opcode := 1 } }] }

/-- The module as it serves a READ of the host. -/
def served : State := (on.clock 0).taken host 0x10 none

/-- The module as it serves CAP_ARM 0. -/
def armServed : State := solo.atWrite 0 host (objId 7 0x50 0x12) [0]

/-- Two frame memories that differ in their last pixel differ in their CRC. -/
theorem crc_differs : Memory.crc [(119999, 1)] ≠ Memory.crc [] := by
  unfold Memory.crc
  rw [show panelPixels / 4 = 29999 + 1 from rfl, List.range_succ, List.map_append, List.map_append]
  have h : ∀ b ∈ List.range 29999,
      (Memory.get [(119999, 1)] (4 * b) <<< 6) ||| (Memory.get [(119999, 1)] (4 * b + 1) <<< 4) |||
        (Memory.get [(119999, 1)] (4 * b + 2) <<< 2) ||| Memory.get [(119999, 1)] (4 * b + 3) =
      (Memory.get [] (4 * b) <<< 6) ||| (Memory.get [] (4 * b + 1) <<< 4) ||| (Memory.get [] (4 * b + 2) <<< 2) |||
        Memory.get [] (4 * b + 3) := by
    intro b hb
    have hb := List.mem_range.mp hb
    simp [Memory.get, show 4 * b ≠ 119999 by omega, show 4 * b + 1 ≠ 119999 by omega, show 4 * b + 2 ≠ 119999 by omega,
      show 4 * b + 3 ≠ 119999 by omega]
  rw [List.map_congr_left h]
  exact crcOf_last (by decide) (by decide)

end Sys2Proof.Tests
end

