-- ==== Sys2Proof/WellFormed.lean ====
section
/-! DEFINITION. Which commands are well formed: the bounds that the spec puts on what a command carries before the block judges it.
A value that a rule refuses with a status code is well formed; its refusal is the command's effect. -/

namespace Sys2Proof

/-- Why a command is ill formed. -/
inductive IllFormed where
  /-- The ingress port is not one of ETH0 to ETH3 (R523). -/
  | ingress
  /-- A host command comes to port 47000, an update command to port 47002 (R556, R568). -/
  | modPort
  /-- A body is longer than a frame holds, or has not the fixed length of its opcode (R559, R570-R574, R605, R608). -/
  | bodyLength
  /-- An UPDATE_CHUNK carries more than 1 024 bytes (R632). -/
  | chunkLength
  /-- A COPY_CHUNK carries more than 8 176 bytes (R489). -/
  | copyLength
  /-- A HELLO carries three pairs of versions and a digest of 48 bytes (R489). -/
  | helloFields
  /-- A CAN frame has no more data bytes than its format holds (R543). -/
  | canLength
  /-- A datagram is longer than an Ethernet frame of 1 522 bytes carries (R524). -/
  | datagramLength
  /-- An epoch has more entries than the receiver has channels (R139, R145). -/
  | epochEntries
  /-- A sample of the monitors has one reading for each of the 24 (R616). -/
  | readings
  /-- A cold start ends before it begins. -/
  | instants
  /-- A member index is 0 to 2 (R484). -/
  | memberIndex
  deriving DecidableEq, Repr

/-- A check. -/
def need (ok : Bool) (why : IllFormed) : Option IllFormed := if ok then none else some why

/-- The ingress port of a request (R523). -/
def Request.ingressCheck (r : Request) : Option IllFormed :=
  need (decide (0x10 ≤ r.ingress.toNat) && decide (r.ingress.toNat ≤ 0x13)) .ingress

/-- The ports of a request. -/
def Request.check (r : Request) (port : BitVec 16) : Option IllFormed := r.ingressCheck <|> need (r.modPort == port) .modPort

/-- The data bytes that a CAN frame can hold (R543). -/
def canLength (f : CanFrame) : Bool :=
  if f.fd then [0, 1, 2, 3, 4, 5, 6, 7, 8, 12, 16, 20, 24, 32, 48, 64].contains f.data.length else decide (f.data.length ≤ 8)

/-- The first check that a command fails. -/
def Instr.illFormed (i : Instr) : Option IllFormed :=
  match i with
  | .sampleArrival _ sample => need (decide (sample.member < 3)) .memberIndex
  | .imageCommit _ req _ => req.check 47000
  | .captureDataRead _ req _ => req.check 47000
  | .gnssEpoch _ input => need (decide (input.meas.length ≤ 256)) .epochEntries
  | .gnbRestart _ req _ => req.check 47000
  | .userCommit _ req _ => req.check 47000
  | .userDiscard _ req _ => req.check 47000
  | .dcPreset _ req _ _ => req.check 47000
  | .dcFreeze _ req _ _ => req.check 47000
  | .refReadmit _ req _ => req.check 47000
  | .refEnable _ req _ _ => req.check 47000
  | .twDepth _ req _ _ => req.check 47000
  | .targetPose _ req _ _ _ _ => req.check 47000
  | .refineReset _ req _ _ => req.check 47000
  | .setpointGeo _ req _ _ => req.check 47000
  | .setpointMove _ req _ _ _ => req.check 47000
  | .setpointHeading _ req _ => req.check 47000
  | .joyDemand _ req _ _ _ => req.check 47000
  | .trackCommit _ req => req.check 47000
  | .trackDiscard _ req => req.check 47000
  | .targetState _ req _ _ _ _ _ _ _ => req.check 47000
  | .powerAvailable _ req _ => req.check 47000
  | .checkStart _ req => req.check 47000
  | .coefficientWrite _ req _ _ _ => req.check 47000
  | .slotHold _ req _ _ => req.check 47000
  | .slotSetpoint _ req _ _ => req.check 47000
  | .pgMove _ req _ _ _ => req.check 47000
  | .gearRatioWrite _ req _ _ _ _ => req.check 47000
  | .stpClear _ req _ => req.check 47000
  | .stpZero _ req _ => req.check 47000
  | .injStart _ req => req.check 47000
  | .injStop _ req => req.check 47000
  | .capArm _ req => req.check 47000
  | .capStop _ req => req.check 47000
  | .capDataRead _ req => req.check 47000
  | .uSet _ req _ _ => req.check 47000
  | .uClear _ req _ => req.check 47000
  | .countReset _ req _ => req.check 47000
  | .aoSet _ req _ _ => req.check 47000
  | .safSelftest _ req _ => req.check 47000
  | .safReset _ req => req.check 47000
  | .modeRequest _ req _ => req.check 47000
  | .restartCold t req _ ends => (req.check 47000) <|> (need (decide (t ≤ ends)) .instants)
  | .restartWithHandover _ req => req.check 47000
  | .abort _ req _ => req.check 47000
  | .llpHello _ _ body => need (body.versions.length == 6 && body.digest.length == 48) .helloFields
  | .llpCopyChunk _ _ _ data => need (decide (data.length ≤ 8176)) .copyLength
  | .transfer _ req _ => req.check 47000
  | .resync _ req => req.check 47000
  | .memberIndex _ req _ => req.check 47000
  | .datagramReceived _ _ _ _ _ payload => need (payload.all fun bytes => decide (bytes.length ≤ 1472)) .datagramLength
  | .iec450Datagram _ _ _ _ _ payload => need (decide (payload.length ≤ 1472)) .datagramLength
  | .canFrameReceived _ _ frame => need (canLength frame) .canLength
  | .canRecover _ req _ => req.check 47000
  | .canTx _ req _ value => (req.check 47000) <|> (need (decide (value.length ≤ 1424)) .bodyLength)
  | .canTimingWrite _ req _ _ _ => req.check 47000
  | .serTx _ req _ value => (req.check 47000) <|> (need (decide (value.length ≤ 1424)) .bodyLength)
  | .qcpFrameReceived _ req _ => req.ingressCheck
  | .ping _ req => req.check 47000
  | .read _ req _ _ _ => req.check 47000
  | .write _ req _ value => (req.check 47000) <|> (need (decide (value.length ≤ 1424)) .bodyLength)
  | .subscribe _ req _ _ _ _ select => (req.check 47000) <|> (need (decide (select.length ≤ 1424)) .bodyLength)
  | .unsubscribe _ req _ _ => req.check 47000
  | .recRead _ req _ _ => req.check 47000
  | .attest _ req nonce => (req.check 47000) <|> (need (nonce.length == 32) .bodyLength)
  | .enrol _ req body => (req.check 47000) <|> (need (body.length == 252) .bodyLength)
  | .dtlsHandshake _ req _ => req.ingressCheck
  | .recControlFlush _ req => req.check 47000
  | .recRearm _ req hash => (req.check 47000) <|> (need (hash.length == 48) .bodyLength)
  | .fumaroleSample _ slacks others => need (slacks.length == 12 && others.length == 12) .readings
  | .binEnvelope _ req _ _ => req.check 47000
  | .updateOpen _ req _ _ _ _ => req.check 47002
  | .updateChunk _ req _ _ _ _ _ data => (req.check 47002) <|> (need (decide (data.length ≤ 1024)) .chunkLength)
  | .updateQuery _ req _ _ => req.check 47002
  | .updateActivate _ req _ _ _ _ _ => req.check 47002
  | .pnlDraw _ req value => (req.check 47000) <|> (need (decide (value.length ≤ 1424)) .bodyLength)
  | .pnlRefresh _ req => req.check 47000
  | .pnlCheck _ req _ => req.check 47000
  | .pnlVcom _ req _ => req.check 47000
  | .cycleTick .. | .waitLimitExpiry .. | .exchangeLimit .. | .closeMissing .. | .drDelayExpiry .. | .estimateOverrun .. |
    .refTimeoutExpiry .. | .refQuarantined .. | .refAdmitted .. | .autoReadmit .. | .solverJobStart .. | .solveStop .. |
    .solverDeadline .. | .solveReportTimeout .. | .allocationDegraded .. | .fallbackOn .. | .fallbackOff .. |
    .commandLate .. | .commandInstant .. | .commandStale .. | .faultHandled .. | .clockLoss .. | .clockLossRelease .. |
    .imageVerifyDone .. | .deferredTimeout .. | .ptpMessageReceived .. | .tbSourceLost .. | .tb3SourceChange .. |
    .holdoverLimitExceeded .. | .timeStep .. | .leapSecond .. | .captureEdge .. | .captureDrain .. | .compareFire .. |
    .ppsInEdge .. | .ppsInLost .. | .searchPassDone .. | .handoverDone .. | .lossOfLock .. | .reacqWindowExpiry .. |
    .notchSpectrum .. | .jamUpdate .. | .antSupplyShort .. | .antSupplyRetry .. | .aiOutput .. | .joyTimeoutExpiry .. |
    .trackTargetLost .. | .powerTimeoutExpiry .. | .powerLimitActive .. | .thrustSaturated .. | .checkDone .. |
    .slotSample .. | .loopLimit .. | .followingError .. | .slotHoldEnd .. | .gearMasterLost .. | .gearReengage .. |
    .latched .. | .stepperStall .. | .stallResume .. | .stepperCurrentStep .. | .stepperThermal .. | .stpSupply .. |
    .injectionDone .. | .captureDone .. | .inputTransition .. | .chatterQuiet .. | .inputStuck .. | .inputDelivery .. |
    .outputOverload .. | .outputReadback .. | .openLoad .. | .fieldSupply .. | .uvlo .. | .eventLinePulseEnd .. |
    .watchdogRetrigger .. | .watchdogExpired .. | .aoFault .. | .pfbFrame .. | .safetyDemand .. | .testPulseMismatch .. |
    .patternFault .. | .sfCmd .. | .darkPulse .. | .heldOffCheckFail .. | .safPeriodicSelftest .. | .powerGood .. |
    .lockstepMismatch .. | .supRamEcc .. | .handoverReady .. | .linkDown .. | .llpTime .. | .llpSet .. | .llpClose .. |
    .llpSolveReport .. | .llpCommit .. | .llpYield .. | .llpTakeover .. | .llpResyncRequest .. | .llpCopyPlan .. |
    .copyFail .. | .resyncRetry .. | .stepDone .. | .missingCommit .. | .contactLost .. | .roleElectionTimeout .. |
    .lnkCreditStall .. | .switchFrameIngress .. | .ethLink .. | .feedbackTimeout .. | .canFrameTransmitted .. |
    .canTxAttemptFailed .. | .canRecoveryDone .. | .serialCharacter .. | .sentenceParse .. | .leaseExpiry .. |
    .attestDone .. | .telemetrySend .. | .qcpSettingEffect .. | .flushDone .. | .flushWindowEnd .. | .sealSigned .. |
    .recFull .. | .powerFail .. | .geyserDone .. | .supplyReturn .. | .holdupExhausted .. | .entropyFail .. |
    .ledgerDaily .. | .binRaise .. | .binLower .. | .mramRefresh .. | .chunkWritten .. | .chunkPartsExpiry .. |
    .waveformStart .. | .waveformEnd .. | .railsOn .. | .railsOff .. | .railFault .. | .railRetry .. |
    .panelTemperature .. | .panelCrcCheck .. | .pwrInputCut .. | .overtemp .. | .antSupplyOpen .. | .channelLock .. |
    .canRxError .. | .safetyInputHealthy .. | .stpClamping .. | .stepperAtRest .. | .entropyPass .. | .ovenStatus .. |
    .holdupCharged .. | .pwrInputLevel .. | .llpPeriodicSend .. | .ptpDelayReq .. => none

/-- A command that passes every check. -/
def Instr.wf (i : Instr) : Bool := i.illFormed.isNone

end Sys2Proof
end

