-- ==== Sys2Proof/Tests/Slice0.lean ====
section
/-! SUPPORT. The model's own tests: what WellFormed refuses, and single steps. -/

namespace Sys2Proof.Tests

open Sys2Proof.Machine

/-! ## Well-formed commands: one ill-formed term for each check -/

theorem test_wf_ingress : Instr.illFormed (.ping 0 { host with ingress := 0x14 }) = some .ingress := by decide
theorem test_wf_modPort : Instr.illFormed (.ping 0 { host with modPort := 47002 }) = some .modPort := by decide
theorem test_wf_update_port : Instr.illFormed (.updateQuery 0 host 1 0) = some .modPort := by decide
theorem test_wf_nonce : Instr.illFormed (.attest 0 host [1]) = some .bodyLength := by decide
theorem test_wf_chunk : Instr.illFormed (.updateChunk 0 { host with modPort := 47002 } 1 0 0 1 0 (List.replicate 1025 0)) = some .chunkLength := by
  show (none <|> need (decide ((List.replicate 1025 (0 : BitVec 8)).length ≤ 1024)) IllFormed.chunkLength) = _
  rw [List.length_replicate]; rfl
theorem test_wf_copy : Instr.illFormed (.llpCopyChunk 0 {} 0 (List.replicate 8177 0)) = some .copyLength := by
  show need (decide ((List.replicate 8177 (0 : BitVec 8)).length ≤ 8176)) .copyLength = _
  rw [List.length_replicate]; rfl
theorem test_wf_hello : Instr.illFormed (.llpHello 0 {} { versions := [3, 2] }) = some .helloFields := by decide
theorem test_wf_can : Instr.illFormed (.canFrameReceived 0 0 { fd := true, data := List.replicate 9 0 }) = some .canLength := by decide
theorem test_wf_datagram : Instr.illFormed (.datagramReceived 0 0 0 5000 0 (some (List.replicate 1473 0))) = some .datagramLength := by
  simp only [Instr.illFormed, Option.all_some, List.length_replicate]; rfl
theorem test_wf_group_datagram : Instr.illFormed (.iec450Datagram 0 0 0 60001 0 (List.replicate 1473 0)) = some .datagramLength := by
  show need (decide ((List.replicate 1473 (0 : BitVec 8)).length ≤ 1472)) .datagramLength = _
  rw [List.length_replicate]; rfl
theorem test_wf_epoch : Instr.illFormed (.gnssEpoch 0 { meas := List.replicate 257 {} }) = some .epochEntries := by
  simp only [Instr.illFormed, List.length_replicate]; rfl
theorem test_wf_readings : Instr.illFormed (.fumaroleSample 0 [none] []) = some .readings := by decide
theorem test_wf_instants : Instr.illFormed (.restartCold 5 host {} 4) = some .instants := by decide
theorem test_wf_member : Instr.illFormed (.sampleArrival 0 { member := 3 }) = some .memberIndex := by decide
theorem test_wf_accepts : Instr.wf (.ping 0 host) = true := by decide

/-! ## The table -/

/-- No row of the table has bits, so no word spells a command and the queue stays as it is. -/
theorem test_no_word_spells_a_command (s : State) (n w : Nat) : decodeTableWord n w = none ∧ s.withFetchWord n w = s := ⟨rfl, rfl⟩

/-! ## Arithmetic the spec names

The CRCs are checked against the published check values of CRC-32C and CRC-32 over the nine characters 123456789; the
floating-point values are worked by hand. -/

/-- The characters 1 to 9. -/
def digits : List Byte := [0x31, 0x32, 0x33, 0x34, 0x35, 0x36, 0x37, 0x38, 0x39]
theorem test_crc32c : crc32c digits = 0xE3069283 := by decide +kernel
theorem test_crc32 : crc32 digits = 0xCBF43926 := by decide +kernel
theorem test_f32_add_rounds_to_even : F32.add 0x3F800000 0x33800000 = 0x3F800000 := by decide +kernel
theorem test_f32_mul : F32.mul 0x40400000 0x40000000 = 0x40C00000 := by decide +kernel
theorem test_f64_sqrt : F64.sqrt 0x4010000000000000 = 0x4000000000000000 := by decide +kernel
theorem test_f64_div_by_zero : F64.div F64.one 0 = F64.inf := by decide +kernel
theorem test_f32_subnormal_kept : F32.mul 0x00800000 0x3F000000 = 0x00400000 := by decide +kernel

/-! ## Single steps -/

/-- What a next state holds; false at a stop. -/
def answers (o : Out) (p : State → Bool) : Bool := match o with | .next u => p u | _ => false

/-- The baseplate above 72 degrees since an instant. -/
def hotFor (since : Nat) : State := { on with power.hotSince := some since }

/-- PING changes no state but the protocol's, and answers OK (R569). -/
theorem test_ping_answers : answers (exec (.ping 0 host) on) (fun u =>
    (u.qcp.responses.map (·.status) == [.ok]) && u.time == on.time && u.modes == on.modes) = true := by decide +kernel
/-- A stamp just below a 32-bit wrap extends backwards (R113). -/
theorem test_extend_wraps : extend 0xFFFFFFFF (2 ^ 32 + 5) = 2 ^ 32 - 1 := by decide +kernel
/-- Above 72 degrees for one nanosecond less than 10 s is no over-temperature (R675). -/
theorem test_overtemp_edge : answers (exec (.overtemp 9999999999 true) (hotFor 0)) (fun u => !u.power.overtemp) = true := by decide +kernel
/-- Above it for 10 s is. -/
theorem test_overtemp : answers (exec (.overtemp 10000000000 true) (hotFor 0)) (fun u => u.power.overtemp) = true := by decide +kernel

end Sys2Proof.Tests
end

