-- ==== Sys2Proof/Tests/WitnessCore.lean ====
section
/-! SUPPORT. For each clause of a statement with hypotheses, a concrete state and operands that meet all of them together:
the queue, the cycle, time, the receiver, the analog inputs, fusion and the law. `witness_<obligation>_<n>` is clause n, counted from 0. -/

namespace Sys2Proof.Tests
open Sys2Proof.Machine
set_option Elab.async false
set_option linter.unusedVariables false

/-! ### The clauses of StepRunsTheFrontCommand -/

theorem witness_StepRunsTheFrontCommand_0 :
    let s : State := { on with pending := [.railsOff 0, .railsOn 0] }
    let c : Instr := .railsOff 0
    let rest : List Instr := [.railsOn 0]
    (s.pending = c :: rest) :=
  by decide +kernel

theorem witness_StepRunsTheFrontCommand_1 :
    let s : State := on
    (s.pending = []) :=
  by decide +kernel

/-! ### The clauses of EveryCommandCompletes -/

theorem witness_EveryCommandCompletes_1 :
    let i : Instr := .cycleTick 0
    let s : State := State.reset
    (s.modes.phase = .off) ∧
    ((∀ t f, i ≠ .powerGood t f)) ∧
    ((∀ t b, i ≠ .pwrInputCut t b)) ∧
    ((∀ t b o, i ≠ .pwrInputLevel t b o)) :=
  ⟨rfl, nofun, nofun, nofun⟩

/-! ### The clauses of TheFactoryBlockIsReadOnly -/

theorem witness_TheFactoryBlockIsReadOnly_0 :
    let s : State := { on with pending := [.railsOff 0, .railsOn 0] }
    let u : State := { on with pending := [.railsOn 0] }
    (step s = .next u) :=
  rfl

theorem witness_TheFactoryBlockIsReadOnly_1 :
    let s : State := { on with pending := [.railsOff 0, .railsOn 0] }
    let u : State := { on with pending := [.railsOn 0] }
    (Runs s u) :=
  .tail (.refl _) rfl

/-! ### The clauses of CommandsLeaveTheQueueInOrder -/

theorem witness_CommandsLeaveTheQueueInOrder_0 :
    let s : State := { on with pending := [.railsOff 0, .railsOn 0] }
    let u : State := { on with pending := [.railsOn 0] }
    (step s = .next u) :=
  rfl

theorem witness_CommandsLeaveTheQueueInOrder_2 :
    let s : State := { on with pending := [.railsOff 0, .railsOn 0] }
    let u : State := { on with pending := [.railsOn 0] }
    (Runs s u) :=
  .tail (.refl _) rfl

/-! ### The clauses of SourcesEnterTheFaultHandler -/

theorem witness_SourcesEnterTheFaultHandler_0 :
    let s : State := on
    let n : Nat := 15
    let asserts : Prop := reservedSource n = false ∧ s.sourceFitted n = true
    (¬ asserts) :=
  by decide +kernel

theorem witness_SourcesEnterTheFaultHandler_1 :
    let s : State := on
    let n : Nat := 34
    let r := s.route n
    let asserts : Prop := reservedSource n = false ∧ s.sourceFitted n = true
    (asserts) ∧
    (r.fault = false) :=
  by decide +kernel

theorem witness_SourcesEnterTheFaultHandler_2 :
    let s : State := { on with events.routes := upd on.events.routes 74 fun r => { r with pending := true } }
    let n : Nat := 74
    let r := s.route n
    let asserts : Prop := reservedSource n = false ∧ s.sourceFitted n = true
    (n < 128) ∧
    (n ≠ 10) ∧
    (asserts) ∧
    (r.fault = true) ∧
    (r.pending = true) :=
  by decide +kernel

theorem witness_SourcesEnterTheFaultHandler_3 :
    let s : State := on
    let n : Nat := 74
    let r := s.route n
    let asserts : Prop := reservedSource n = false ∧ s.sourceFitted n = true
    (n < 128) ∧
    (n ≠ 10) ∧
    (asserts) ∧
    (r.fault = true) ∧
    (r.pending = false) ∧
    (r.cls = 1) ∧
    (s.events.f1 = none) :=
  by decide +kernel

theorem witness_SourcesEnterTheFaultHandler_4 :
    let s : State := { on with events.f2 := some { source := 34 } }
    let n : Nat := 74
    let r := s.route n
    let asserts : Prop := reservedSource n = false ∧ s.sourceFitted n = true
    (n < 128) ∧
    (n ≠ 10) ∧
    (asserts) ∧
    (r.fault = true) ∧
    (r.pending = false) ∧
    (r.cls = 1) ∧
    (s.events.f1 = none) ∧ (
      let f : FaultEntry := { source := 34 }
      (s.events.f2 = some f)) :=
  by decide +kernel

theorem witness_SourcesEnterTheFaultHandler_5 :
    let s : State := { on with events.f3 := some { source := 121 } }
    let n : Nat := 74
    let r := s.route n
    let asserts : Prop := reservedSource n = false ∧ s.sourceFitted n = true
    (n < 128) ∧
    (n ≠ 10) ∧
    (asserts) ∧
    (r.fault = true) ∧
    (r.pending = false) ∧
    (r.cls = 1) ∧
    (s.events.f1 = none) ∧ (
      let f : FaultEntry := { source := 121 }
      (s.events.f3 = some f)) :=
  by decide +kernel

theorem witness_SourcesEnterTheFaultHandler_6 :
    let s : State := { on with events.f1 := some { source := 14 }, events.q1 := List.replicate 7 {} }
    let n : Nat := 74
    let r := s.route n
    let asserts : Prop := reservedSource n = false ∧ s.sourceFitted n = true
    (n < 128) ∧
    (n ≠ 10) ∧
    (asserts) ∧
    (r.fault = true) ∧
    (r.pending = false) ∧
    (r.cls = 1) ∧
    (s.events.f1.isSome = true) ∧
    (s.events.q1.length < 8) :=
  by decide +kernel

theorem witness_SourcesEnterTheFaultHandler_7 :
    let s : State := { on with events.f1 := some { source := 14 }, events.q1 := List.replicate 8 {} }
    let n : Nat := 74
    let r := s.route n
    let asserts : Prop := reservedSource n = false ∧ s.sourceFitted n = true
    (n < 128) ∧
    (n ≠ 10) ∧
    (asserts) ∧
    (r.fault = true) ∧
    (r.pending = false) ∧
    (r.cls = 1) ∧
    (s.events.f1.isSome = true) ∧
    (8 ≤ s.events.q1.length) :=
  by decide +kernel

theorem witness_SourcesEnterTheFaultHandler_8 :
    let s : State := { on with events.f2 := some { source := 33 }, events.q2 := List.replicate 8 {}, events.routes := upd on.events.routes 34 fun r => { r with fault := true, cls := 2 } }
    let n : Nat := 34
    let r := s.route n
    let asserts : Prop := reservedSource n = false ∧ s.sourceFitted n = true
    (n < 128) ∧
    (n ≠ 10) ∧
    (asserts) ∧
    (r.fault = true) ∧
    (r.pending = false) ∧
    (r.cls = 2) ∧
    (s.events.f2.isSome = true) ∧
    (8 ≤ s.events.q2.length) ∧
    (s.events.f1 = none) :=
  by decide +kernel

theorem witness_SourcesEnterTheFaultHandler_9 :
    let s : State := { on with events.f2 := some { source := 33 }, events.routes := upd on.events.routes 121 fun r => { r with fault := true, cls := 3 } }
    let n : Nat := 121
    let r := s.route n
    let asserts : Prop := reservedSource n = false ∧ s.sourceFitted n = true
    (n < 128) ∧
    (n ≠ 10) ∧
    (asserts) ∧
    (r.fault = true) ∧
    (r.pending = false) ∧
    (r.cls = 3) ∧
    (s.events.f3 = none) ∧
    (s.events.f2.isSome = true) :=
  by decide +kernel

/-! ### The clauses of CycleTickBeginsACycle -/

theorem witness_CycleTickBeginsACycle_0 :
    let s : State := tb3At 40000000 { fused with cycle.nextTick := 40000000 }
    let t : Nat := 0
    (Running s) ∧ (
      let c := s.clock t
      let k := c.tb3 / c.cyc.period
      (c.cycle.ticking = true) ∧
      (c.hasStructure = true) ∧
      (c.cyc.period ≠ 0) ∧
      (c.cycle.nextTick ≤ c.tb3) ∧
      (c.modes.pendingMode = none) ∧
      (State.dueComplete { c with cycle.tk := k * c.cyc.period } = false) ∧
      (c.tb3 < k * c.cyc.period + c.cyc.waitLimit)) :=
  by decide +kernel

theorem witness_CycleTickBeginsACycle_1 :
    let s : State := { loaded with cycle.nextTick := 40000000 }
    let t : Nat := 0
    (Running s) ∧
    ((s.clock t).tb3 < s.cycle.nextTick) :=
  by decide +kernel

theorem witness_CycleTickBeginsACycle_2 :
    let s : State := { loaded with modes.pendingMode := some .config }
    let m : Mode := .config
    (s.modes.pendingMode = some m) ∧
    ((s.route 0).fault = false) ∧
    (State.judgeMove { s with modes.pendingMode := none } m = .ok) :=
  by decide +kernel

theorem witness_CycleTickBeginsACycle_3 :
    let s : State := { loaded with modes.pendingMode := some .safe, modes.mode := .safe }
    let m : Mode := .safe
    (s.modes.pendingMode = some m) ∧
    ((s.route 0).fault = false) ∧
    (State.judgeMove { s with modes.pendingMode := none } m = .ok) ∧
    (s.modes.mode = .safe) :=
  by decide +kernel

theorem witness_CycleTickBeginsACycle_4 :
    let s : State := { loaded with modes.pendingMode := some .idle, modes.mode := .safe, modes.cause.startCheck := true }
    let m : Mode := .idle
    (s.modes.pendingMode = some m) ∧
    ((s.route 0).fault = false) ∧
    (State.judgeMove { s with modes.pendingMode := none } m ≠ .ok) :=
  by decide +kernel

/-! ### The clauses of SamplesAreAlignedAndReleased -/

theorem witness_SamplesAreAlignedAndReleased_0 :
    let s : State := on
    let t : Nat := 0
    (Running s) ∧ (
      let c := s.clock t
      let x : Sample := { point := 5 }
      (c.point? x.point = none)) :=
  by decide +kernel

theorem witness_SamplesAreAlignedAndReleased_1 :
    let s : State := loaded
    let t : Nat := 0
    (Running s) ∧ (
      let c := s.clock t
      let x : Sample := { point := 0, stamp := 1000001 }
      ((c.point? x.point).isSome = true) ∧
      (c.cycle.stopped = false) ∧
      (c.bufferFull = false) ∧
      (c.modes.discardUpTo = 0) ∧
      (c.tb3 + ms < x.stamp) ∧
      (c.cycle.released = true)) :=
  by decide +kernel

theorem witness_SamplesAreAlignedAndReleased_2 :
    let s : State := tb3At 5000 loaded
    let t : Nat := 0
    (Running s) ∧ (
      let c := s.clock t
      let x : Sample := { point := 0, stamp := 5000 }
      ((c.point? x.point).isSome = true) ∧
      (c.cycle.stopped = false) ∧
      (c.bufferFull = false) ∧
      (c.modes.discardUpTo = 0) ∧
      (x.stamp ≤ c.tb3 + ms) ∧
      (c.releasedUpTo < x.stamp) ∧ (
        let v : State := { c with cycle.buffer := c.cycle.buffer ++ [x] }
        ((v.cycle.released = true ∨ v.dueComplete = false ∧ c.tb3 < c.cycle.tk + c.cyc.waitLimit)))) :=
  by decide +kernel

theorem witness_SamplesAreAlignedAndReleased_3 :
    let s : State := tb3At 42000000 { loaded with cycle.tk := 40000000, cycle.released := false }
    let t : Nat := 0
    (Running s) ∧ (
      let c := s.clock t
      let x : Sample := { point := 0, stamp := 42000000 }
      ((c.point? x.point).isSome = true) ∧
      (c.cycle.stopped = false) ∧
      (c.bufferFull = false) ∧
      (c.modes.discardUpTo = 0) ∧
      (x.stamp ≤ c.tb3 + ms) ∧
      (c.releasedUpTo < x.stamp) ∧ (
        (c.cycle.ticking = true) ∧
        (c.cycle.released = false) ∧
        (c.cycle.tk + c.cyc.waitLimit ≤ c.tb3))) :=
  by decide +kernel

theorem witness_SamplesAreAlignedAndReleased_4 :
    let s : State := tb3At 40000000 { loaded with cycle.tk := 40000000 }
    let t : Nat := 0
    (Running s) ∧ (
      let c := s.clock t
      let x : Sample := { point := 0, stamp := 40000000 }
      ((c.point? x.point).isSome = true) ∧
      (c.cycle.stopped = false) ∧
      (c.bufferFull = false) ∧
      (c.modes.discardUpTo = 0) ∧
      (x.stamp ≤ c.tb3 + ms) ∧
      (c.cycle.ticking = true) ∧
      (x.stamp ≤ c.releasedUpTo) ∧
      (c.cycle.released = true)) :=
  by decide +kernel

theorem witness_SamplesAreAlignedAndReleased_5 :
    let s : State := { loaded with image.loaded := some { plan with points := [{ id := 0, kind := 8, period := 20000000 }] }, cycle.stopped := true }
    let t : Nat := 0
    (Running s) ∧ (
      let c := s.clock t
      let x : Sample := { point := 0, stamp := 40000000 }
      ((c.point? x.point).isSome = true) ∧
      (c.cycle.stopped = true) ∧
      (c.cycle.released = true) ∧
      (c.slottedPoint x.point = false)) :=
  by decide +kernel

theorem witness_SamplesAreAlignedAndReleased_6 :
    let s : State := { on with image.loaded := some planServo, cycle.ticking := true, cycle.stopped := true }
    let t : Nat := 0
    (Running s) ∧ (
      let c := s.clock t
      let x : Sample := { point := 1 }
      ((c.point? x.point).isSome = true) ∧
      (c.cycle.stopped = true) ∧
      (c.cycle.released = true) ∧
      (c.slottedPoint x.point = true) ∧
      ((∀ y ∈ c.cycle.slots, y.point ≠ x.point))) :=
  by decide +kernel

theorem witness_SamplesAreAlignedAndReleased_7 :
    let s : State := tb3At 42000000 { loaded with cycle.tk := 40000000, cycle.released := false }
    let t : Nat := 0
    (Running s) ∧ (
      let c := s.clock t
      (c.cycle.ticking = true) ∧
      (c.cycle.released = false) ∧
      (c.cycle.tk + c.cyc.waitLimit ≤ c.tb3)) :=
  by decide +kernel

theorem witness_SamplesAreAlignedAndReleased_8 :
    let s : State := tb3At 41999999 { loaded with cycle.tk := 40000000, cycle.released := false }
    let t : Nat := 0
    (Running s) ∧ (
      let c := s.clock t
      (c.tb3 < c.cycle.tk + c.cyc.waitLimit)) :=
  by decide +kernel

theorem witness_SamplesAreAlignedAndReleased_9 :
    let s : State := tb3At 42250000 { loaded with cycle.tk := 40000000, group.role := .lead, gcycle.closeDone := false }
    let t : Nat := 0
    (Running s) ∧ (
      let c := s.clock t
      (c.group.role = .lead) ∧
      (c.cycle.released = true) ∧
      (c.gcycle.closeDone = false) ∧
      (c.exchangeLimit ≤ c.tb3)) :=
  by decide +kernel

theorem witness_SamplesAreAlignedAndReleased_10 :
    let s : State := tb3At 42350000 { loaded with cycle.tk := 40000000, group.role := .spare, cycle.frameDone := false, gcycle.closed := some {} }
    let t : Nat := 0
    (Running s) ∧ (
      let c := s.clock t
      ((c.group.role = .spare ∨ c.group.role = .resync)) ∧
      (c.inStepSelf = true) ∧
      (c.cycle.frameDone = false) ∧
      (c.cycle.released = true) ∧
      (c.exchangeLimit + 100 * us ≤ c.tb3) ∧ (
        let x : LlpClose := {}
        (c.gcycle.closed = some x) ∧
        (x.cycle = c.cycle.count))) :=
  by decide +kernel

theorem witness_SamplesAreAlignedAndReleased_11 :
    let s : State := tb3At 42350000 { loaded with cycle.tk := 40000000, group.role := .spare, cycle.frameDone := false }
    let t : Nat := 0
    (Running s) ∧ (
      let c := s.clock t
      ((c.group.role = .spare ∨ c.group.role = .resync)) ∧
      (c.inStepSelf = true) ∧
      (c.cycle.frameDone = false) ∧
      (c.cycle.released = true) ∧
      (c.exchangeLimit + 100 * us ≤ c.tb3) ∧
      (c.gcycle.closed = none) ∧
      (c.successor = some c.me)) :=
  by decide +kernel

theorem witness_SamplesAreAlignedAndReleased_12 :
    let s : State := tb3At 42350000 { loaded with cycle.tk := 40000000, group.role := .resync, gcycle.copyApplied := true, cycle.frameDone := false }
    let t : Nat := 0
    (Running s) ∧ (
      let c := s.clock t
      ((c.group.role = .spare ∨ c.group.role = .resync)) ∧
      (c.inStepSelf = true) ∧
      (c.cycle.frameDone = false) ∧
      (c.cycle.released = true) ∧
      (c.exchangeLimit + 100 * us ≤ c.tb3) ∧
      (c.gcycle.closed = none) ∧
      (c.successor ≠ some c.me)) :=
  by decide +kernel

theorem witness_SamplesAreAlignedAndReleased_13 :
    let s : State := { loaded with cycle.estEntry := some default, cycle.acceptDone := false }
    let t : Nat := 0
    (Running s) ∧ (
      let c := s.clock t
      let e : EstEntry := default
      (c.cycle.estEntry = some e) ∧
      (c.cycle.estDone = true) ∧
      (c.cycle.acceptDone = false) ∧
      (c.obs.overrun = false) ∧
      (c.sol.running = none) ∧
      (c.cycle.frame = []) ∧
      (c.cycle.late = [])) :=
  by decide +kernel

/-! ### The clauses of SolverJobsStartAndStop -/

theorem witness_SolverJobsStartAndStop_0 :
    let s : State := { on with sol.queue := [{ check := true }] }
    let t : Nat := 0
    (Running s) ∧ (
      let c := s.clock t
      let j : SolverJob := { check := true }
      let rest : List SolverJob := []
      (c.sol.running = none) ∧
      (c.sol.queue = j :: rest) ∧
      (j.check = true)) :=
  by decide +kernel

theorem witness_SolverJobsStartAndStop_1 :
    let s : State := { on with image.loaded := some { plan with variants := [{}] }, sol.queue := [{ full := true, deadline := 1 }] }
    let t : Nat := 0
    (Running s) ∧ (
      let c := s.clock t
      let j : SolverJob := { full := true, deadline := 1 }
      let rest : List SolverJob := []
      let v : VariantRec := {}
      (c.sol.running = none) ∧
      (c.sol.queue = j :: rest) ∧
      (j.check = false) ∧
      (c.tb3 < j.deadline) ∧
      (j.startCold = false) ∧
      (j.startMapped = false) ∧ (
        let w : State := { c with
          sol.queue := rest, sol.startedAt := c.tb3, sol.iter := 0, sol.best := none, sol.bestBefore := none, sol.startIterate := none,
          res.startKind := 0 }
        ((w.applyJob j).2 = true) ∧
        ((w.applyJob j).1.variantRec j.variant = some v))) :=
  by decide +kernel

theorem witness_SolverJobsStartAndStop_2 :
    let s : State := on
    let t : Nat := 0
    (Running s) ∧ (
      let c := s.clock t
      ((c.sol.running ≠ none ∨ c.sol.queue = []))) :=
  by decide +kernel

theorem witness_SolverJobsStartAndStop_3 :
    let s : State := { loaded with sol.running := some { deadline := 1 } }
    let t : Nat := 0
    (Running s) ∧ (
      let c := s.clock t
      let j : SolverJob := { deadline := 1 }
      (c.sol.running = some j) ∧
      (j.check = false) ∧
      (c.tb3 < j.deadline) ∧
      (c.cycle.acceptDone = true)) :=
  by decide +kernel

theorem witness_SolverJobsStartAndStop_4 :
    let s : State := tb3At 52000000 { loaded with cycle.tk := 40000000, cycle.acceptDone := false }
    let t : Nat := 0
    (Running s) ∧ (
      let c := s.clock t
      (c.cycle.ticking = true) ∧
      (c.cycle.tk + c.cyc.deadline ≤ c.tb3) ∧
      (c.sol.running = none) ∧
      (c.sol.queue = []) ∧
      (c.cycle.acceptDone = false) ∧
      (c.lawAccepts = false)) :=
  by decide +kernel

theorem witness_SolverJobsStartAndStop_5 :
    let s : State := tb3At 52100000 { loaded with cycle.tk := 40000000, cycle.acceptDone := false, group.role := .spare, modes.mode := .station, sol.stopped := some {} }
    let t : Nat := 0
    (Running s) ∧ (
      let c := s.clock t
      let r : SolveReport := {}
      (c.sol.stopped = some r) ∧
      (c.cycle.acceptDone = false) ∧
      (c.lawAccepts = true) ∧
      (c.group.role ≠ .alone) ∧
      (c.cycle.tk + c.cyc.deadline + 100 * us ≤ c.tb3)) :=
  by decide +kernel

theorem witness_SolverJobsStartAndStop_6 :
    let s : State := { on with res.consecNet := 3 }
    let t : Nat := 0
    (Running s) ∧ (
      let c := s.clock t
      (c.res.degraded = false) ∧
      (3 ≤ c.res.consecNet)) :=
  by decide +kernel

theorem witness_SolverJobsStartAndStop_7 :
    let s : State := { on with res.degraded := true, res.successRun := 10 }
    let t : Nat := 0
    (Running s) ∧ (
      let c := s.clock t
      (c.res.degraded = true) ∧
      (c.res.successRun = 10)) :=
  by decide +kernel

theorem witness_SolverJobsStartAndStop_8 :
    let s : State := { on with image.loaded := some { plan with variants := [{}] }, law.variant := some 0, modes.mode := .station, group.role := .spare, res.netRun := 3 }
    let t : Nat := 0
    (Running s) ∧ (
      let c := s.clock t
      let v : VariantRec := {}
      (c.law.variant.bind c.variantRec = some v) ∧
      (c.res.fallback = false) ∧
      (c.lawAccepts = true) ∧
      (c.cyc.netLimit ≤ c.res.netRun) ∧
      (c.cycle.back = none)) :=
  by decide +kernel

theorem witness_SolverJobsStartAndStop_9 :
    let s : State := { on with image.loaded := some { plan with variants := [{}] }, law.variant := some 0, res.fallback := true, res.successRun := 10 }
    let t : Nat := 0
    (Running s) ∧ (
      let c := s.clock t
      let v : VariantRec := {}
      (c.law.variant.bind c.variantRec = some v) ∧
      (c.res.fallback = true) ∧
      (10 ≤ c.res.successRun) ∧
      (c.cycle.back = none)) :=
  by decide +kernel

/-! ### The clauses of CommandsTakeEffectAtTheirInstant -/

theorem witness_CommandsTakeEffectAtTheirInstant_0 :
    let s : State := tb3At 56000000 { loaded with cycle.tk := 40000000, cycle.count := 2, cycle.instantDone := false, cycle.back := some { cycle := 2 } }
    let t : Nat := 0
    (Running s) ∧ (
      let c := s.clock t
      let b : Snapshot := { cycle := 2 }
      (c.cycle.ticking = true) ∧
      (c.cycle.instantDone = false) ∧
      (c.cycle.tk + c.cyc.commandAt ≤ c.tb3) ∧
      (c.cycle.back = some b) ∧
      (b.cycle = c.cycle.count) ∧
      (c.modes.restartPending = none)) :=
  by decide +kernel

theorem witness_CommandsTakeEffectAtTheirInstant_1 :
    let s : State := tb3At 56000000 { loaded with cycle.tk := 40000000, cycle.count := 2, cycle.instantDone := false }
    let t : Nat := 0
    (Running s) ∧ (
      let c := s.clock t
      (c.cycle.ticking = true) ∧
      (c.cycle.instantDone = false) ∧
      (c.cycle.tk + c.cyc.commandAt ≤ c.tb3) ∧
      (c.cycle.back = none) ∧
      (c.modes.restartPending = none)) :=
  by decide +kernel

theorem witness_CommandsTakeEffectAtTheirInstant_2 :
    let s : State := tb3At 55999999 { loaded with cycle.tk := 40000000, cycle.instantDone := false }
    let t : Nat := 0
    (Running s) ∧ (
      let c := s.clock t
      (c.tb3 < c.cycle.tk + c.cyc.commandAt)) :=
  by decide +kernel

theorem witness_CommandsTakeEffectAtTheirInstant_3 :
    let s : State := tb3At 55950000 { loaded with cycle.tk := 40000000, cycle.acceptDone := false }
    let t : Nat := 0
    (Running s) ∧ (
      let c := s.clock t
      (c.cycle.ticking = true) ∧
      (c.cycle.acceptDone = false) ∧
      (c.cycle.commandLate = false) ∧
      (c.cycle.tk + c.cyc.commandAt ≤ c.tb3 + 50 * us)) :=
  by decide +kernel

theorem witness_CommandsTakeEffectAtTheirInstant_4 :
    let s : State := { loaded with modes.mode := .station, cycle.flipsMissed := 3 }
    let t : Nat := 0
    (Running s) ∧ (
      let c := s.clock t
      (c.positioning = true) ∧
      (c.cycle.staleRaised = false) ∧
      (3 ≤ c.cycle.flipsMissed)) :=
  by decide +kernel

/-! ### The clauses of FaultHandlingEnds -/

theorem witness_FaultHandlingEnds_0 :
    let s : State := { on with events.f3 := some { source := 121, handledClass := 3, started := true } }
    let t : Nat := 0
    (Running s) ∧ (
      let c := s.clock t
      let f : FaultEntry := { source := 121, handledClass := 3, started := true }
      (c.events.f1 = none) ∧
      (c.events.f2 = none) ∧
      (c.events.f3 = some f) ∧
      (c.events.q3 = []) ∧
      (f.started = true) ∧
      (safeBit f.source = none) ∧
      (f.handledClass = 3)) :=
  by decide +kernel

theorem witness_FaultHandlingEnds_1 :
    let s : State := { on with events.f1 := some { source := 84, handledClass := 1, started := true } }
    let t : Nat := 0
    (Running s) ∧ (
      let c := s.clock t
      let f : FaultEntry := { source := 84, handledClass := 1, started := true }
      let b : Nat := 2
      (c.events.f1 = some f) ∧
      (f.started = true) ∧
      (safeBit f.source = some b)) :=
  by decide +kernel

theorem witness_FaultHandlingEnds_2 :
    let s : State := on
    let t : Nat := 0
    (Running s) ∧ (
      let c := s.clock t
      (c.events.f2 = none)) :=
  by decide +kernel

theorem witness_FaultHandlingEnds_3 :
    let s : State := { on with events.f1 := some { source := 84 } }
    let t : Nat := 0
    (Running s) ∧ (
      let c := s.clock t
      (c.events.f1 ≠ none)) :=
  by decide +kernel

/-! ### The clauses of TimeBasesAndUnits -/

theorem witness_TimeBasesAndUnits_0 :
    let s : State := base 1 (fun b => { b with state := 2, neverLocked := false }) on
    let t : Nat := 0
    (Powered s) ∧ (
      let c := s.clock t
      let n : Fin 4 := 1
      (n ≠ 0) ∧
      ((at? c.time.tb n).state = 2) ∧
      (c.sourceLost n = true)) :=
  by decide +kernel

theorem witness_TimeBasesAndUnits_1 :
    let s : State := base 1 (fun b => { b with state := 1, neverLocked := false, u0 := 1000001 }) on
    let t : Nat := 0
    (Powered s) ∧ (
      let c := s.clock t
      let n : Fin 4 := 1
      (n ≠ 0) ∧
      ((at? c.time.tb n).state = 1) ∧
      ((at? c.time.tb n).holdoverLimit.toNat < c.uncertainty n)) :=
  by decide +kernel

theorem witness_TimeBasesAndUnits_2 :
    let s : State := base 1 (fun b => { b with stepPending := true, count := 1000000003, remaining := 5000 }) on
    let t : Nat := 0
    (Powered s) ∧ (
      let c := s.clock t
      ((at? c.time.tb 1).stepPending = true) ∧
      ((at? c.time.tb 1).count % second < 4) ∧
      ((at? c.time.tb 1).goodRun < 16) ∧
      ((∀ m : Nat, (at? c.time.compares m).en = false))) :=
  ⟨by decide +kernel, by decide +kernel, by decide +kernel, by decide +kernel, fun m => by unfold at?; split <;> first | (revert m; decide +kernel) | rfl⟩

theorem witness_TimeBasesAndUnits_3 :
    let s : State := tb0At 10000000000 (base 3 (fun b => { b with source := 1 }) (base 2 (fun b => { b with state := 2, lockedSince := some 0 }) { on with group.role := .alone }))
    let t : Nat := 0
    (Powered s) ∧ (
      let c := s.clock t
      let l : Nat := 0
      (c.leadsTime = true) ∧
      ((at? c.time.tb 2).state = 2) ∧
      ((at? c.time.tb 2).lockedSince = some l) ∧
      (10 * second ≤ c.now - l) ∧
      ((c.tb3Source ≠ some 2 ∨ (at? c.time.tb 3).state ≠ 2))) :=
  by decide +kernel

theorem witness_TimeBasesAndUnits_4 :
    let s : State := { on with group.role := .alone }
    let t : Nat := 0
    (Powered s) ∧ (
      let c := s.clock t
      (c.leadsTime = true) ∧
      (c.tb3Source = none) ∧
      (c.lockedTen 2 = false) ∧
      (c.lockedTen 1 = false)) :=
  by decide +kernel

theorem witness_TimeBasesAndUnits_5 :
    let s : State := base 2 (fun b => { b with count := 5 }) { on with time.leapAt := 5, time.leapNext := 1 }
    let t : Nat := 0
    (Powered s) ∧ (
      let c := s.clock t
      (c.time.leapAt ≠ 0) ∧
      (c.time.leapAt ≤ c.tb2)) :=
  by decide +kernel

theorem witness_TimeBasesAndUnits_6 :
    let s : State := { on with field.captures := upd on.field.captures 15 fun x => { x with en := true, edge := 1, hw := List.replicate 7 0 } }
    let t : Nat := 0
    (Powered s) ∧ (
      let c := s.clock t
      let m : Fin 16 := 15
      let up : Bool := true
      ((at? c.field.captures m).en = true) ∧
      ((at? c.field.captures m).edge.getLsbD (if up then 0 else 1) = true) ∧
      ((at? c.field.captures m).hw.length + (at? c.field.captures m).stamps.length < 8)) :=
  by decide +kernel

theorem witness_TimeBasesAndUnits_7 :
    let s : State := { on with field.captures := upd on.field.captures 15 fun x => { x with en := true, edge := 1, hw := List.replicate 8 0 } }
    let t : Nat := 0
    (Powered s) ∧ (
      let c := s.clock t
      let m : Fin 16 := 15
      let up : Bool := true
      ((at? c.field.captures m).en = true) ∧
      ((at? c.field.captures m).edge.getLsbD (if up then 0 else 1) = true) ∧
      (8 ≤ (at? c.field.captures m).hw.length + (at? c.field.captures m).stamps.length)) :=
  by decide +kernel

theorem witness_TimeBasesAndUnits_8 :
    let s : State := { { on with field.captures := upd on.field.captures 15 fun x => { x with en := true, edge := 1, hw := List.replicate 8 0 } } with field.overrunDue := 2 }
    (Powered s) ∧ (
      (Running s)) :=
  by decide +kernel

theorem witness_TimeBasesAndUnits_9 :
    let s : State := { on with time.compares := upd on.time.compares 3 fun x => { x with en := true, action := 2, target := 0 } }
    let t : Nat := 0
    (Powered s) ∧ (
      let c := s.clock t
      let m : Fin 8 := 3
      (3 ≤ m.val) ∧
      (c.time.compares[m].en = true) ∧
      (c.time.compares[m].action = 2) ∧
      (c.time.compares[m].period = 0) ∧
      (c.time.compares[m].target ≤ (at? c.time.tb c.time.compares[m].base.toNat).count) ∧
      (c.time.compares[m].actedAt ≠ some c.time.compares[m].target)) :=
  by decide +kernel

theorem witness_TimeBasesAndUnits_10 :
    let s : State := tb0At 1000010000 { on with time.tb2Source := 1, time.ppsEdge := some 0 }
    let t : Nat := 0
    (Powered s) ∧ (
      let c := s.clock t
      let p : Nat := 0
      (c.time.tb2Source = 1) ∧
      (c.time.ppsEdge = some p) ∧ (
        let edge := ((c.now : Int) - c.time.ppsInDelay).toNat
        (p + second ≤ edge + 10 * us) ∧
        (edge ≤ p + second + 10 * us))) :=
  by decide +kernel

theorem witness_TimeBasesAndUnits_11 :
    let s : State := tb0At 1500000000 { on with time.tb2Source := 1, time.ppsEdge := some 0 }
    let t : Nat := 0
    (Powered s) ∧ (
      let c := s.clock t
      let p : Nat := 0
      (c.time.tb2Source = 1) ∧
      (c.time.ppsEdge = some p) ∧
      (3 * second / 2 ≤ c.now - p) ∧
      (c.time.ppsLostRaised = false)) :=
  by decide +kernel

theorem witness_TimeBasesAndUnits_12 :
    let s : State := { on with factory.optT := true }
    let t : Nat := 0
    (Powered s) ∧ (
      let c := s.clock t
      let v : BitVec 8 := 2
      (c.factory.optT = true) ∧
      (v.toNat ≤ 2)) :=
  by decide +kernel

theorem witness_TimeBasesAndUnits_13 :
    let s : State := { on with time.ptp.master := some { (default : PtpAnnounce) with ptpTimescale := true }, time.ptp.syncPort := 0, time.ptpPorts := 0x1F }
    let t : Nat := 0
    (Powered s) ∧ (
      let c := s.clock t
      let g : PtpAnnounce := { (default : PtpAnnounce) with ptpTimescale := true }
      (c.ptpMaster = some g) ∧
      (c.time.ptp.syncPort ≠ 0xFF) ∧
      ((∀ a : Nat, c.time.ptp.delayAt = some a → a + logInterval c.time.ptp.delayLog ≤ c.now))) :=
  ⟨by decide +kernel, by decide +kernel, by decide +kernel, nofun⟩

theorem witness_TimeBasesAndUnits_14 :
    let s : State := { { on with time.ptp.master := some { (default : PtpAnnounce) with ptpTimescale := true }, time.ptp.syncPort := 0, time.ptpPorts := 0x1F } with time.ptp.delaySent := some (0, 7), time.ptp.syncRx := some (3, 5) }
    let t : Nat := 0
    (Powered s) ∧ (
      let c := s.clock t
      let port : Fin 5 := 4
      let q : BitVec 16 := 0
      let t1 : Int := 3
      let t2 : Int := 5
      let t3 : Int := 7
      let log : Int := 3
      let from_ : PtpPort := default
      (c.ptpListens port = true) ∧
      (c.ptpMaster.map (·.sender) = some from_) ∧
      (-4 ≤ log) ∧
      (log ≤ 3) ∧
      (c.time.ptp.delaySent = some (q, t3)) ∧
      (c.time.ptp.syncRx = some (t1, t2))) :=
  by decide +kernel

/-! ### The clauses of TheReceiverTracks -/

theorem witness_TheReceiverTracks_0 :
    let s : State := { rx with gnss.engines := upd rx.gnss.engines 7 fun _ => some { target := { sv := 5 } } }
    let t : Nat := 0
    (Running s) ∧
    (s.factory.optG = true) ∧ (
      let c := s.clock t
      let e : Fin 8 := 7
      let j : SearchJob := { target := { sv := 5 } }
      let v : BitVec 8 := 0
      (c.gnss.engines[e] = some j) ∧
      (j.confirming = false) ∧
      ((systemSvs j.target.system.toNat).contains (if j.target.sv == 0 then v else j.target.sv).toNat = true)) :=
  by decide +kernel

theorem witness_TheReceiverTracks_1 :
    let s : State := { rx with gnss.engines := upd rx.gnss.engines 7 fun _ => some { target := { sv := 5 }, confirming := true }, gnss.jobs := [{ kind := 1 }] }
    let t : Nat := 0
    (Running s) ∧
    (s.factory.optG = true) ∧ (
      let c := s.clock t
      let e : Fin 8 := 7
      let j : SearchJob := { target := { sv := 5 }, confirming := true }
      let next : SearchJob := { kind := 1 }
      let rest : List SearchJob := []
      let i : Nat := 0
      let v : BitVec 8 := 0
      (c.gnss.engines[e] = some j) ∧
      (j.confirming = true) ∧
      (j.channel = none) ∧
      (c.gnss.jobs = next :: rest) ∧
      (c.gnss.wanting = []) ∧ (
        let sig : SignalId := if j.target.sv == 0 then { j.target with sv := v } else j.target
        ((systemSvs sig.system.toNat).contains sig.sv.toNat = true) ∧
        (c.gnss.assigned sig = false) ∧
        (c.gnss.belowHorizon sig.system sig.sv = false) ∧
        (c.gnss.channels.toList.findIdx? (·.state == 0) = some i))) :=
  by decide +kernel

theorem witness_TheReceiverTracks_2 :
    let s : State := { rx with gnss.engines := upd rx.gnss.engines 7 fun _ => some { passes := 2 } }
    let t : Nat := 0
    (Running s) ∧
    (s.factory.optG = true) ∧ (
      let c := s.clock t
      let e : Fin 8 := 7
      let j : SearchJob := { passes := 2 }
      (c.gnss.engines[e] = some j) ∧
      (1 < j.passes)) :=
  by decide +kernel

theorem witness_TheReceiverTracks_3 :
    let s : State := { rx with gnss.handovers := [{ failures := 1 }] }
    let t : Nat := 0
    (Running s) ∧
    (s.factory.optG = true) ∧ (
      let c := s.clock t
      let j : SearchJob := { failures := 1 }
      let rest : List SearchJob := []
      (c.gnss.handovers = j :: rest) ∧
      (j.failures + 1 < 3)) :=
  by decide +kernel

theorem witness_TheReceiverTracks_4 :
    let s : State := { rx with gnss.handovers := [{ failures := 2 }] }
    let t : Nat := 0
    (Running s) ∧
    (s.factory.optG = true) ∧ (
      let c := s.clock t
      let j : SearchJob := { failures := 2 }
      let rest : List SearchJob := []
      (c.gnss.handovers = j :: rest) ∧
      (3 ≤ j.failures + 1) ∧
      (c.gnss.jobs = [])) :=
  by decide +kernel

theorem witness_TheReceiverTracks_5 :
    let s : State := { rx with gnss.channels := upd rx.gnss.channels 255 fun x => { x with state := 3, signal := 0x11 } }
    let t : Nat := 0
    (Running s) ∧
    (s.factory.optG = true) ∧ (
      let c := s.clock t
      let i : Fin 256 := 255
      ((c.gnss.channels[i].state = 1 ∨ c.gnss.channels[i].state = 3)) ∧
      (lowerBand c.gnss.channels[i].signal = true) ∧
      (c.now - c.gnss.channels[i].enteredAt ≤ c.gnss.stateLimit c.gnss.channels[i])) :=
  by decide +kernel

theorem witness_TheReceiverTracks_6 :
    let s : State := tb0At 200000000 { rx with gnss.channels := upd rx.gnss.channels 255 fun x => { x with state := 1 } }
    let t : Nat := 0
    (Running s) ∧
    (s.factory.optG = true) ∧ (
      let c := s.clock t
      let i : Fin 256 := 255
      (c.gnss.channels[i].state = 1) ∧
      (200 * ms ≤ c.now - c.gnss.channels[i].enteredAt) ∧
      (c.gnss.wanting = [])) :=
  by decide +kernel

theorem witness_TheReceiverTracks_7 :
    let s : State := { rx with gnss.channels := upd rx.gnss.channels 0 fun x => { x with state := 2 } }
    let t : Nat := 0
    (Running s) ∧
    (s.factory.optG = true) ∧ (
      let c := s.clock t
      let i : Fin 256 := 0
      (c.gnss.channels[i].state = 2) ∧
      ((∀ j ∈ c.gnss.jobs, j.kind ≠ 0))) :=
  by decide +kernel

theorem witness_TheReceiverTracks_8 :
    let s : State := tb0At 10000000000 { rx with gnss.channels := upd rx.gnss.channels 0 fun x => { x with state := 3 } }
    let t : Nat := 0
    (Running s) ∧
    (s.factory.optG = true) ∧ (
      let c := s.clock t
      let i : Fin 256 := 0
      (c.gnss.channels[i].state = 3) ∧
      (c.gnss.reacqWindow.toNat * second ≤ c.now - c.gnss.channels[i].enteredAt) ∧
      (c.gnss.wanting = [])) :=
  by decide +kernel

theorem witness_TheReceiverTracks_9 :
    let s : State := { rx with gnss.rxt := 5000000 }
    let t : Nat := 0
    (Running s) ∧
    (s.factory.optG = true) ∧ (
      let c := s.clock t
      (c.epochDue = true) ∧
      (c.antPoints = []) ∧
      (c.cycle.released = true)) :=
  by decide +kernel

theorem witness_TheReceiverTracks_10 :
    let s : State := rx
    let t : Nat := 0
    (Running s) ∧
    (s.factory.optG = true) ∧ (
      let c := s.clock t
      let f : Fin 4 := 0
      let p : Peak := { level := 15, centre := 0 }
      ((∀ n ∈ c.gnss.frontEnds[f].notches.toList, n.active = false)) ∧
      (c.gnss.frontEnds[f].notchThreshold.toNat ≤ p.level) ∧
      (c.gnss.frontEnds[f].lo ≤ p.centre) ∧
      (p.centre ≤ c.gnss.frontEnds[f].hi) ∧
      (0 < c.gnss.frontEnds[f].notchMax.toNat)) :=
  ⟨by decide +kernel, by decide +kernel, by decide, by decide +kernel⟩

theorem witness_TheReceiverTracks_11 :
    let s : State := rx
    let t : Nat := 0
    (Running s) ∧
    (s.factory.optG = true) ∧ (
      let c := s.clock t
      let f : Fin 4 := 0
      let w : F32 := 0x41C00000
      let j := jamIndex w c.factory.jamP0[f]
      (c.gnss.frontEnds[f].jamThreshold ≠ 0) ∧
      (c.gnss.frontEnds[f].jamHigh = false) ∧
      (c.gnss.frontEnds[f].jamThreshold.toNat ≤ j)) :=
  by decide +kernel

theorem witness_TheReceiverTracks_12 :
    let s : State := { rx with gnss.frontEnds := upd rx.gnss.frontEnds 0 fun q => { q with jamHigh := true } }
    let t : Nat := 0
    (Running s) ∧
    (s.factory.optG = true) ∧ (
      let c := s.clock t
      let f : Fin 4 := 0
      let w : F32 := 0x41400000
      let j := jamIndex w c.factory.jamP0[f]
      (c.gnss.frontEnds[f].jamHigh = true) ∧
      (c.gnss.frontEnds[f].jamThreshold.toNat ≤ j + 10)) :=
  by decide +kernel

theorem witness_TheReceiverTracks_13 :
    let s : State := tb0At 10000000 { rx with gnss.supplies := upd rx.gnss.supplies 1 fun q => { q with en := true, status := 1 } }
    let t : Nat := 0
    (Running s) ∧
    (s.factory.optG = true) ∧ (
      let c := s.clock t
      let a : Fin 2 := 1
      let i : BitVec 16 := 101
      (c.gnss.supplies[a].en = true) ∧
      (c.gnss.supplies[a].status = 1) ∧
      (100 < i.toNat) ∧
      (10 * ms ≤ c.now - c.gnss.supplies[a].switchedAt)) :=
  by decide +kernel

theorem witness_TheReceiverTracks_14 :
    let s : State := tb0At 1000000000 { rx with gnss.supplies := upd rx.gnss.supplies 1 fun q => { q with en := true, status := 3 } }
    let t : Nat := 0
    (Running s) ∧
    (s.factory.optG = true) ∧ (
      let c := s.clock t
      let a : Fin 2 := 1
      let i : BitVec 16 := 5
      (c.gnss.supplies[a].en = true) ∧
      (c.gnss.supplies[a].status = 3) ∧
      (5 ≤ i.toNat) ∧
      (i.toNat ≤ 100) ∧
      (second ≤ c.now - c.gnss.supplies[a].switchedAt)) :=
  by decide +kernel

theorem witness_TheReceiverTracks_15 :
    let s : State := { rx with gnss.supplies := upd rx.gnss.supplies 1 fun q => { q with en := true, status := 1 } }
    let t : Nat := 0
    (Running s) ∧
    (s.factory.optG = true) ∧ (
      let c := s.clock t
      let a : Fin 2 := 1
      let i : BitVec 16 := 4
      (c.gnss.supplies[a].en = true) ∧
      (c.gnss.supplies[a].status = 1) ∧
      (i.toNat < 5)) :=
  by decide +kernel

theorem witness_TheReceiverTracks_16 :
    let s : State := rx
    let t : Nat := 0
    (Running s) ∧
    (s.factory.optG = true) ∧ (
      let req : Request := host
      (Ready s t req 0x11 (writeBody (objId 3 0 5) [1])) ∧
      (s.modes.mode.positioning = false)) :=
  ⟨by decide +kernel, by decide +kernel, ready_of_check (by decide +kernel), by decide +kernel⟩

/-! ### The clauses of AnalogChannelsStampAndScale -/

theorem witness_AnalogChannelsStampAndScale_0 :
    let s : State := on
    let t : Nat := 0
    let ch : Fin 24 := 15
    let stream : List Bool := List.replicate 10000 true
    (Powered s) ∧ (
      let c := s.clock t
      let x := c.ain.channels[ch]
      (ch.val < 16) ∧
      (x.active = false) ∧
      (x.dcEn = false) ∧
      (stream.length = samplesPerOutput x.rate.toNat x.scs)) :=
  by decide +kernel

theorem witness_AnalogChannelsStampAndScale_1 :
    let s : State := on
    let t : Nat := 0
    let req : Request := host
    let ch : Fin 16 := 15
    (Ready s t req 0x11 (writeBody (objId 4 ch 0x13) [1])) ∧
    (s.modes.mode.positioning = false) ∧
    ((at? s.ain.channels ch).staged.committable = true) :=
  ⟨ready_of_check (by decide +kernel), by decide +kernel⟩

theorem witness_AnalogChannelsStampAndScale_2 :
    let s : State := on
    let t : Nat := 0
    let req : Request := host
    let ch : Fin 16 := 15
    (Ready s t req 0x11 (writeBody (objId 4 ch 0x13) [2])) :=
  ready_of_check (by decide +kernel)

theorem witness_AnalogChannelsStampAndScale_3 :
    let s : State := { on with ain.channels := upd on.ain.channels 15 fun x => { x with dcEn := true } }
    let t : Nat := 0
    let req : Request := host
    let ch : Fin 16 := 15
    let f : Bool := true
    (Ready s t req 0x11 (writeBody (objId 4 ch 3) (nat32 (2 + if f then 1 else 0)))) ∧
    ((at? s.ain.channels ch).dcEn = true) :=
  ⟨ready_of_check (by decide +kernel), by decide +kernel⟩

theorem witness_AnalogChannelsStampAndScale_4 :
    let s : State := { on with ain.channels := upd on.ain.channels 15 fun x => { x with dcEn := true } }
    let t : Nat := 0
    let req : Request := host
    let ch : Fin 16 := 15
    let f : Bool := false
    (Ready s t req 0x11 (writeBody (objId 4 ch 3) (nat32 (if f then 1 else 0)))) ∧
    ((at? s.ain.channels ch).dcEn = true) :=
  ⟨ready_of_check (by decide +kernel), by decide +kernel⟩

/-! ### The clauses of ReferencesAndTheirWrites -/

theorem witness_ReferencesAndTheirWrites_0 :
    let s : State := tb3At 100000000000 ({ solo with fusion.refs := upd solo.fusion.refs 0 fun q => { q with state := 3 } })
    let t : Nat := 0
    let r : Fin 24 := 0
    (Running s) ∧ (
      let c := s.clock t
      let q := c.fusion.refs[r]
      ((c.refSlice r).isSome = true) ∧
      ((q.state = 1 ∨ q.state = 2 ∨ q.state = 3)) ∧
      (q.lastValidAt + c.refTimeout r ≤ c.tb3)) :=
  by decide +kernel

theorem witness_ReferencesAndTheirWrites_1 :
    let s : State := { solo with fusion.refs := upd solo.fusion.refs 0 fun q => { q with state := 3, consec := 3 } }
    let t : Nat := 0
    let r : Fin 24 := 0
    (Running s) ∧ (
      let c := s.clock t
      let q := c.fusion.refs[r]
      (q.state = 3) ∧
      (c.fusion.quarantineCount ≤ q.consec)) :=
  by decide +kernel

theorem witness_ReferencesAndTheirWrites_2 :
    let s : State := { solo with image.loaded := some { plan with slices := [{ kind := 1, index := 0, principle := 1, points := [0] }] }, fusion.refs := upd solo.fusion.refs 0 fun q => { q with admission := some (0, 0) } }
    let t : Nat := 0
    let r : Fin 24 := 0
    (Running s) ∧ (
      let c := s.clock t
      let q := c.fusion.refs[r]
      let o : F64 × F64 := (0, 0)
      (q.admission = some o) ∧
      (q.state = 1) ∧
      (c.relative r = false)) :=
  by decide +kernel

theorem witness_ReferencesAndTheirWrites_3 :
    let s : State := { on with image.loaded := some { plan with slices := [{ kind := 1, index := 0, principle := 4, points := [0] }] }, fusion.refs := upd on.fusion.refs 0 fun q => { q with admission := some (0, 0) } }
    let t : Nat := 0
    let r : Fin 24 := 0
    (Running s) ∧ (
      let c := s.clock t
      let q := c.fusion.refs[r]
      let o : F64 × F64 := (0, 0)
      (q.admission = some o) ∧
      (q.state = 1) ∧
      (c.relative r = true)) :=
  by decide +kernel

theorem witness_ReferencesAndTheirWrites_4 :
    let s : State := { solo with fusion.refs := upd solo.fusion.refs 0 fun q => { q with state := 4, cause := 1, consec := 100 } }
    let t : Nat := 0
    let r : Fin 24 := 0
    (Running s) ∧ (
      let c := s.clock t
      let q := c.fusion.refs[r]
      (q.state = 4) ∧
      (q.cause = 1) ∧
      (c.fusion.autoReadmit = true) ∧
      (c.fusion.readmitCount ≤ q.consec)) :=
  by decide +kernel

theorem witness_ReferencesAndTheirWrites_5 :
    let s : State := tb3At 3000000000 { on with obs.state := 3, obs.lastHdgAt := 3000000000 }
    let t : Nat := 0
    (Running s) ∧ (
      let c := s.clock t
      (c.obs.state = 3) ∧
      (c.obs.posDr = false) ∧
      (c.obs.lastPosAt + c.obsParams.drDelay * ms ≤ c.tb3) ∧
      (c.tb3 < c.obs.lastHdgAt + c.obsParams.drDelay * ms)) :=
  by decide +kernel

theorem witness_ReferencesAndTheirWrites_6 :
    let s : State := { solo with fusion.refs := upd solo.fusion.refs 0 fun q => { q with state := 4 } }
    let t : Nat := 0
    let req : Request := host
    (s.group.role = .alone) ∧ (
      let i : BitVec 8 := 0
      let r : Nat := 0
      (Ready s t req 0x11 (writeBody (objId 5 0 0x104) [i])) ∧
      (refOfInst i.toNat = some r) ∧
      ((s.refSlice r).isSome = true) ∧
      ((at? s.fusion.refs r).state = 4)) :=
  ⟨by decide +kernel, ready_of_check (by decide +kernel), by decide +kernel⟩

theorem witness_ReferencesAndTheirWrites_7 :
    let s : State := solo
    let t : Nat := 0
    let req : Request := host
    (s.group.role = .alone) ∧ (
      let i : BitVec 8 := 0
      let e : BitVec 8 := 1
      let r : Nat := 0
      (Ready s t req 0x11 (writeBody (objId 5 i.toNat 4) [e])) ∧
      (refOfInst i.toNat = some r) ∧
      ((s.refSlice r).isSome = true) ∧
      (e.toNat ≤ 1)) :=
  ⟨by decide +kernel, ready_of_check (by decide +kernel), by decide +kernel⟩

theorem witness_ReferencesAndTheirWrites_8 :
    let s : State := { solo with image.loaded := some { plan with slices := [{ kind := 1, index := 0, principle := 2 }] } }
    let t : Nat := 0
    let req : Request := host
    (s.group.role = .alone) ∧ (
      let i : BitVec 8 := 0
      let r : Nat := 0
      let x : SliceRec := { kind := 1, index := 0, principle := 2 }
      let d : F32 := 0x3F800000
      (Ready s t req 0x11 (writeBody (objId 5 i.toNat 0xB) (be32 d))) ∧
      (refOfInst i.toNat = some r) ∧
      (s.refSlice r = some x) ∧
      (r < 16) ∧
      (x.principle = 2) ∧
      (F32.within F32.one (F32.ofNat 5000) d = true)) :=
  ⟨by decide +kernel, ready_of_check (by decide +kernel), by decide +kernel⟩

theorem witness_ReferencesAndTheirWrites_9 :
    let s : State := { solo with image.loaded := some { planRef with fusion := [{ reflectors := [(0, 0, 0)] }] } }
    let t : Nat := 0
    let req : Request := host
    (s.group.role = .alone) ∧ (
      let i : BitVec 8 := 0
      let r : Nat := 0
      let n : F64 := 0
      let e : F64 := 0
      let rot : F32 := 0
      (Ready s t req 0x11 (writeBody (objId 5 i.toNat 0xC) (be64 n ++ be64 e ++ be32 rot))) ∧
      (refOfInst i.toNat = some r) ∧
      ((s.refSlice r).isSome = true) ∧
      (r < 16) ∧
      ((s.refFusion r).reflectors ≠ [])) :=
  ⟨by decide +kernel, ready_of_check (by decide +kernel), by decide +kernel⟩

theorem witness_ReferencesAndTheirWrites_10 :
    let s : State := solo
    let t : Nat := 0
    let req : Request := host
    (s.group.role = .alone) ∧ (
      let i : BitVec 8 := 0
      let r : Nat := 0
      let f : Bool := true
      (Ready s t req 0x11 (writeBody (objId 5 i.toNat 9) (nat8 (2 + if f then 1 else 0)))) ∧
      (refOfInst i.toNat = some r) ∧
      ((s.refSlice r).isSome = true) ∧
      (r < 16)) :=
  ⟨by decide +kernel, ready_of_check (by decide +kernel), by decide +kernel⟩

/-! ### The clauses of LawWritesAndSupervision -/

theorem witness_LawWritesAndSupervision_0 :
    let s : State := { station with law.originValid := true }
    let t : Nat := 0
    let req : Request := host
    (s.group.role = .alone) ∧ (
      let lat : F64 := 0
      let lon : F64 := 0
      let obj := objId 6 0 0x102; let v := be64 lat ++ be64 lon
      (Ready s t req 0x11 (writeBody obj v)) ∧
      ((s.modes.mode = .idle ∨ s.modes.mode = .station)) ∧ (
        let w := s.atWrite t req obj v
        let arrived := (s.hostCtx req).arrived.getD w.tb3
        (w.lawJudge 0x102 v arrived = .ok))) :=
  ⟨by decide +kernel, ready_of_check (by decide +kernel), by decide +kernel⟩

theorem witness_LawWritesAndSupervision_1 :
    let s : State := station
    let t : Nat := 0
    let req : Request := host
    (s.group.role = .alone) ∧ (
      let f : BitVec 8 := 0
      let d1 : F32 := 0
      let d2 : F32 := 0
      let obj := objId 6 0 0x103; let v := be8 f ++ zeros 3 ++ be32 d1 ++ be32 d2
      (Ready s t req 0x11 (writeBody obj v)) ∧
      (s.modes.mode = .station) ∧ (
        let w := s.atWrite t req obj v
        let arrived := (s.hostCtx req).arrived.getD w.tb3
        (w.lawJudge 0x103 v arrived = .ok))) :=
  ⟨by decide +kernel, ready_of_check (by decide +kernel), by decide +kernel⟩

theorem witness_LawWritesAndSupervision_2 :
    let s : State := station
    let t : Nat := 0
    let req : Request := host
    (s.group.role = .alone) ∧ (
      let psi : F64 := 0
      let obj := objId 6 0 0x104; let v := be64 psi
      (Ready s t req 0x11 (writeBody obj v)) ∧
      ((s.modes.mode = .autohead ∨ s.modes.mode = .station)) ∧
      (angleOk psi = true)) :=
  ⟨by decide +kernel, ready_of_check (by decide +kernel), by decide +kernel⟩

theorem witness_LawWritesAndSupervision_3 :
    let s : State := solo
    let t : Nat := 0
    let req : Request := host
    (s.group.role = .alone) ∧ (
      let x : F32 := 0x3F800000
      let y : F32 := 0xBF800000
      let m : F32 := 0
      let obj := objId 6 0 0x106; let v := be32 x ++ be32 y ++ be32 m
      (Ready s t req 0x11 (writeBody obj v)) ∧
      (F32.within (F32.neg F32.one) F32.one x = true) ∧
      (F32.within (F32.neg F32.one) F32.one y = true) ∧
      (F32.within (F32.neg F32.one) F32.one m = true)) :=
  ⟨by decide +kernel, ready_of_check (by decide +kernel), by decide +kernel⟩

theorem witness_LawWritesAndSupervision_4 :
    let s : State := { solo with law.track.staged := [{ speed := 0x3F800000 }], law.track.stagedCount := 1 }
    let t : Nat := 0
    let req : Request := host
    (s.group.role = .alone) ∧ (
      let obj := objId 6 0 0x142
      (Ready s t req 0x11 (writeBody obj [1])) ∧ (
        let w := s.atWrite t req obj [1]
        let arrived := (s.hostCtx req).arrived.getD w.tb3
        (w.lawJudge 0x142 [1] arrived = .ok))) :=
  ⟨by decide +kernel, ready_of_check (by decide +kernel), by decide +kernel⟩

theorem witness_LawWritesAndSupervision_5 :
    let s : State := solo
    let t : Nat := 0
    let req : Request := host
    (s.group.role = .alone) ∧ (
      let obj := objId 6 0 0x142
      (Ready s t req 0x11 (writeBody obj [2]))) :=
  ⟨by decide +kernel, ready_of_check (by decide +kernel)⟩

theorem witness_LawWritesAndSupervision_6 :
    let s : State := solo
    let t : Nat := 0
    let req : Request := host
    (s.group.role = .alone) ∧ (
      let st : BitVec 64 := 1000000
      let n : F64 := 0
      let e : F64 := 0
      let psi : F64 := 0
      let vn : F32 := 0
      let ve : F32 := 0
      let yr : F32 := 0
      let obj := objId 6 0 0x144
      let v := be64 st ++ be64 n ++ be64 e ++ be32 vn ++ be32 ve ++ be64 psi ++ be32 yr
      (Ready s t req 0x11 (writeBody obj v)) ∧ (
        let w := s.atWrite t req obj v
        (st.toNat ≤ (s.hostCtx req).arrived.getD w.tb3 + ms))) :=
  ⟨by decide +kernel, ready_of_check (by decide +kernel), by decide +kernel⟩

theorem witness_LawWritesAndSupervision_7 :
    let s : State := solo
    let t : Nat := 0
    let req : Request := host
    (s.group.role = .alone) ∧ (
      let p : F32 := 0
      let obj := objId 6 0 0x130; let v := be32 p
      (Ready s t req 0x11 (writeBody obj v)) ∧
      (F32.le 0 p = true)) :=
  ⟨by decide +kernel, ready_of_check (by decide +kernel), by decide +kernel⟩

theorem witness_LawWritesAndSupervision_8 :
    let s : State := solo
    let t : Nat := 0
    let req : Request := host
    (s.group.role = .alone) ∧ (
      let obj := objId 6 0 0x23
      (Ready s t req 0x11 (writeBody obj [1])) ∧
      ((s.modes.mode = .idle ∨ s.modes.mode = .test)) ∧
      (s.sol.queue.length < 4)) :=
  ⟨by decide +kernel, ready_of_check (by decide +kernel), by decide +kernel⟩

theorem witness_LawWritesAndSupervision_9 :
    let s : State := tb3At 1000000000 { solo with modes.mode := .joystick }
    let t : Nat := 0
    (Running s) ∧ (
      let c := s.clock t
      ((c.modes.mode = .joystick ∨ c.modes.mode = .autohead)) ∧
      (c.law.joyAt + c.law.params.joyTimeout * ms ≤ c.tb3)) :=
  by decide +kernel

theorem witness_LawWritesAndSupervision_10 :
    let s : State := { solo with modes.mode := .track, law.track.source := true, law.track.target := some {}, cycle.tk := 6000000000 }
    let t : Nat := 0
    (Running s) ∧ (
      let c := s.clock t
      let g : TargetState := {}
      (c.modes.mode = .track) ∧
      (c.law.track.source = true) ∧
      (c.law.track.lost = false) ∧
      (c.law.track.target = some g) ∧
      (g.stamp + c.law.track.targetTimeout * ms < c.cycle.tk + c.cyc.commandAt)) :=
  by decide +kernel

theorem witness_LawWritesAndSupervision_11 :
    let s : State := { solo with cycle.tk := 5000000000, law.power.writtenAt := some 0, law.power.timeout := 100 }
    let t : Nat := 0
    (Running s) ∧ (
      let c := s.clock t
      ((c.powerLimit c.cycle.tk).2 = true)) :=
  by decide +kernel

theorem witness_LawWritesAndSupervision_12 :
    let s : State := { solo with law.power.bindingNow := true }
    let t : Nat := 0
    (Running s) ∧ (
      let c := s.clock t
      (c.law.power.bindingNow = true) ∧
      (c.law.power.active = false)) :=
  by decide +kernel

theorem witness_LawWritesAndSupervision_13 :
    let s : State := { solo with law.power.active := true, law.power.releasedCycles := 10 }
    let t : Nat := 0
    (Running s) ∧ (
      let c := s.clock t
      (c.law.power.bindingNow = false) ∧
      (c.law.power.active = true) ∧
      (10 ≤ c.law.power.releasedCycles)) :=
  by decide +kernel

theorem witness_LawWritesAndSupervision_14 :
    let s : State := { solo with law.saturated := true }
    let t : Nat := 0
    (Running s) ∧ (
      let c := s.clock t
      (c.law.saturated = true) ∧
      ((∀ n : Nat, n < 16 → (at? c.law.thr n).edgeCycles < 10))) :=
  by decide +kernel

theorem witness_LawWritesAndSupervision_15 :
    let s : State := { solo with law.thr := upd solo.law.thr 15 fun x => { x with available := true, edgeCycles := 10 } }
    let t : Nat := 0
    (Running s) ∧ (
      let c := s.clock t
      let n : Nat := 15
      (n < 16) ∧
      (c.law.saturated = false) ∧
      ((at? c.law.thr n).available = true) ∧
      (10 ≤ (at? c.law.thr n).edgeCycles)) :=
  by decide +kernel

theorem witness_LawWritesAndSupervision_16 :
    let s : State := { solo with sol.running := some { check := true } }
    let t : Nat := 0
    (Running s) ∧ (
      let c := s.clock t
      let j : SolverJob := { check := true }
      (c.sol.running = some j) ∧
      (j.check = true)) :=
  by decide +kernel

end Sys2Proof.Tests
end

