-- ==== Sys2Proof/Tests/WitnessMotion.lean ====
section
/-! SUPPORT. For each clause of a statement with hypotheses, a concrete state and operands that meet all of them together:
the servo loops, the field channels, safety, the modes and the supply. `witness_<obligation>_<n>` is clause n, counted from 0. -/

namespace Sys2Proof.Tests
open Sys2Proof.Machine
set_option Elab.async false
set_option linter.unusedVariables false

/-! ### The clauses of ServoSampleIsTheFixedArithmetic -/

theorem witness_ServoSampleIsTheFixedArithmetic_0 :
    let s : State := { bench with modes.gatheredHold := false, image.loaded := some { planServo with thrusters := [{ azSlot := 31 }] } }
    let n : Fin 32 := 31
    let r : LoopRec := { slot := 31, feedback := 1, output := 3, outMax := 0x3F800000 }
    let th : ThrusterRec := { azSlot := 31 }
    let a : Nat := 0
    (Running s) ∧
    (s.slotHere n = some r) ∧
    (r.outer = 0xFF) ∧
    (s.servo.slots[n].hostSp = none) ∧
    (s.gearOf n = none) ∧
    (s.namedBy n = some (th, a)) ∧
    (th.generator = 0xFF) ∧
    (s.modes.gatheredHold = false) ∧
    (s.servo.ic.injRunning = false) ∧
    ((s.route 65).fault = false) ∧
    ((s.route 76).fault = false) :=
  by decide +kernel

theorem witness_ServoSampleIsTheFixedArithmetic_1 :
    let s : State := { bench with modes.gatheredHold := false, image.loaded := some { planServo with thrusters := [{ azSlot := 31 }] } }
    let t : Nat := 0
    let n : Fin 32 := 31
    let r : LoopRec := { slot := 31, feedback := 1, output := 3, outMax := 0x3F800000 }
    let th : ThrusterRec := { azSlot := 31 }
    let a : Nat := 0
    (Running s) ∧
    (s.slotHere n = some r) ∧
    (r.outer = 0xFF) ∧
    (s.servo.slots[n].hostSp = none) ∧
    (s.gearOf n = none) ∧
    (s.namedBy n = some (th, a)) ∧
    (th.generator = 0xFF) ∧
    (s.modes.gatheredHold = false) ∧
    (s.servo.ic.injRunning = false) ∧
    ((s.route 65).fault = false) ∧
    ((s.route 76).fault = false) ∧ (
      let c := s.clock t
      let y : Nat := 2001
      (s.innermost n = true) ∧
      (c.slotLatency n r + 1000 < y)) :=
  by decide +kernel

theorem witness_ServoSampleIsTheFixedArithmetic_2 :
    let s : State := { bench with modes.gatheredHold := false, image.loaded := some { planServo with thrusters := [{ azSlot := 31 }] } }
    let t : Nat := 0
    let n : Fin 32 := 31
    let r : LoopRec := { slot := 31, feedback := 1, output := 3, outMax := 0x3F800000 }
    let th : ThrusterRec := { azSlot := 31 }
    let a : Nat := 0
    (Running s) ∧
    (s.slotHere n = some r) ∧
    (r.outer = 0xFF) ∧
    (s.servo.slots[n].hostSp = none) ∧
    (s.gearOf n = none) ∧
    (s.namedBy n = some (th, a)) ∧
    (th.generator = 0xFF) ∧
    (s.modes.gatheredHold = false) ∧
    (s.servo.ic.injRunning = false) ∧
    ((s.route 65).fault = false) ∧
    ((s.route 76).fault = false) ∧ (
      let c := s.clock t
      let y : Nat := 2000
      (y ≤ c.slotLatency n r + 1000)) :=
  by decide +kernel

theorem witness_ServoSampleIsTheFixedArithmetic_3 :
    let s : State := { bench with modes.gatheredHold := false, image.loaded := some { planServo with thrusters := [{ azSlot := 31 }] }, saf.gates := .replicate 16 { start := false, removed := false }, field.pfb := upd bench.field.pfb 0 fun q => { q with mode := 1, offset := 0x3FE0000000000000 } }
    let t : Nat := 0
    let n : Fin 32 := 31
    let r : LoopRec := { slot := 31, feedback := 1, output := 3, outMax := 0x3F800000 }
    let th : ThrusterRec := { azSlot := 31 }
    let a : Nat := 0
    (Running s) ∧
    (s.slotHere n = some r) ∧
    (r.outer = 0xFF) ∧
    (s.servo.slots[n].hostSp = none) ∧
    (s.gearOf n = none) ∧
    (s.namedBy n = some (th, a)) ∧
    (th.generator = 0xFF) ∧
    (s.modes.gatheredHold = false) ∧
    (s.servo.ic.injRunning = false) ∧
    ((s.route 65).fault = false) ∧
    ((s.route 76).fault = false) ∧ (
      let c := s.clock t
      let l := c.servo.slots[n]
      let fb : F32 := 0x3F000000
      let y : Nat := 2000
      (c.missesBound n r y = false) ∧
      (c.slotFeedback r = { value := fb }) ∧
      (c.servo.counts[n].busyUntil ≤ c.now) ∧
      (l.faulted = false) ∧
      (l.holdLeft = 0) ∧
      (l.release = none) ∧
      (s.slotFrozen n = false) ∧
      ((∀ m ∈ s.innerOf n, (at? s.servo.slots m).faulted = false)) ∧
      (fieldAt s.servo.ic.injConfig 1 1 = 0)) :=
  by decide +kernel

theorem witness_ServoSampleIsTheFixedArithmetic_4 :
    let s : State := { bench with modes.gatheredHold := false, image.loaded := some { planServo with thrusters := [{ azSlot := 31 }] }, servo.counts := upd bench.servo.counts 31 fun q => { q with busyUntil := 5 } }
    let t : Nat := 0
    let n : Fin 32 := 31
    let r : LoopRec := { slot := 31, feedback := 1, output := 3, outMax := 0x3F800000 }
    let th : ThrusterRec := { azSlot := 31 }
    let a : Nat := 0
    (Running s) ∧
    (s.slotHere n = some r) ∧
    (r.outer = 0xFF) ∧
    (s.servo.slots[n].hostSp = none) ∧
    (s.gearOf n = none) ∧
    (s.namedBy n = some (th, a)) ∧
    (th.generator = 0xFF) ∧
    (s.modes.gatheredHold = false) ∧
    (s.servo.ic.injRunning = false) ∧
    ((s.route 65).fault = false) ∧
    ((s.route 76).fault = false) ∧ (
      let c := s.clock t
      let y : Nat := 0
      ((c.now < c.servo.counts[n].busyUntil ∨ c.missesBound n r y = true))) :=
  by decide +kernel

theorem witness_ServoSampleIsTheFixedArithmetic_5 :
    let s : State := { bench with modes.gatheredHold := false, image.loaded := some { planServo with thrusters := [{ azSlot := 31 }], points := [{ id := 1, kind := 3, period := 20000000 }] }, ain.channels := upd bench.ain.channels 0 fun q => { q with status := 0x10 } }
    let t : Nat := 0
    let n : Fin 32 := 31
    let r : LoopRec := { slot := 31, feedback := 1, output := 3, outMax := 0x3F800000 }
    let th : ThrusterRec := { azSlot := 31 }
    let a : Nat := 0
    (Running s) ∧
    (s.slotHere n = some r) ∧
    (r.outer = 0xFF) ∧
    (s.servo.slots[n].hostSp = none) ∧
    (s.gearOf n = none) ∧
    (s.namedBy n = some (th, a)) ∧
    (th.generator = 0xFF) ∧
    (s.modes.gatheredHold = false) ∧
    (s.servo.ic.injRunning = false) ∧
    ((s.route 65).fault = false) ∧
    ((s.route 76).fault = false) ∧ (
      let c := s.clock t
      let y : Nat := 2000
      (c.missesBound n r y = false) ∧
      ((c.slotFeedback r).settling = true) ∧
      (c.servo.counts[n].busyUntil ≤ c.now)) :=
  by decide +kernel

theorem witness_ServoSampleIsTheFixedArithmetic_6 :
    let s : State := { bench with modes.gatheredHold := false, image.loaded := some { planServo with thrusters := [{ azSlot := 31 }] }, servo.counts := upd bench.servo.counts 31 fun q => { q with invalidRun := 2 } }
    let t : Nat := 0
    let n : Fin 32 := 31
    let r : LoopRec := { slot := 31, feedback := 1, output := 3, outMax := 0x3F800000 }
    let th : ThrusterRec := { azSlot := 31 }
    let a : Nat := 0
    (Running s) ∧
    (s.slotHere n = some r) ∧
    (r.outer = 0xFF) ∧
    (s.servo.slots[n].hostSp = none) ∧
    (s.gearOf n = none) ∧
    (s.namedBy n = some (th, a)) ∧
    (th.generator = 0xFF) ∧
    (s.modes.gatheredHold = false) ∧
    (s.servo.ic.injRunning = false) ∧
    ((s.route 65).fault = false) ∧
    ((s.route 76).fault = false) ∧ (
      let c := s.clock t
      let l := c.servo.slots[n]
      let y : Nat := 2000
      (c.missesBound n r y = false) ∧
      ((c.slotFeedback r).settling = false) ∧
      ((c.slotFeedback r).valid = false) ∧
      (c.servo.counts[n].busyUntil ≤ c.now) ∧
      (c.servo.counts[n].invalidRun = 2) ∧
      (l.faulted = false)) :=
  by decide +kernel

/-! ### The clauses of ServoObjectsTakeWrites -/

theorem witness_ServoObjectsTakeWrites_0 :
    let s : State := bench
    let t : Nat := 0
    let req : Request := host
    let n : Fin 32 := 31
    let r : LoopRec := { slot := 31, feedback := 1, output := 3, outMax := 0x3F800000 }
    let num : BitVec 16 := 0x23
    let v : F32 := 0x3F800000
    let k : SlotCoeffs := { followingLimit := 0x3F800000 }
    (Ready s t req 0x11 (writeBody (objId 7 n num.toNat) (be32 v))) ∧
    (s.slotHere n = some r) ∧
    (((0x10 ≤ num.toNat ∧ num.toNat ≤ 0x20) ∨ num.toNat = 0x23)) ∧
    ((at? s.servo.coeffs n).set num.toNat v = some k) :=
  ⟨ready_of_check (by decide +kernel), by decide +kernel⟩

theorem witness_ServoObjectsTakeWrites_1 :
    let v : F32 := 0x3F800000
    (v.finite = true) :=
  by decide +kernel

theorem witness_ServoObjectsTakeWrites_2 :
    let k : SlotCoeffs := {}
    let v : F32 := 0x40000000
    let j : Nat := 4
    (j < 5) ∧
    (biquadStable (k.bq1.set j v) = false) :=
  by decide +kernel

theorem witness_ServoObjectsTakeWrites_3 :
    let s : State := bench
    let t : Nat := 0
    let req : Request := host
    let n : Fin 32 := 31
    let r : LoopRec := { slot := 31, feedback := 1, output := 3, outMax := 0x3F800000 }
    let v : BitVec 16 := 1000
    (Ready s t req 0x11 (writeBody (objId 7 n 0x21) (be16 v))) ∧
    (s.slotHere n = some r) ∧
    (0 < v.toNat) ∧
    (v.toNat ≤ r.rate) :=
  ⟨ready_of_check (by decide +kernel), by decide +kernel⟩

theorem witness_ServoObjectsTakeWrites_4 :
    let s : State := bench
    let t : Nat := 0
    let req : Request := host
    let n : Fin 32 := 31
    let r : LoopRec := { slot := 31, feedback := 1, output := 3, outMax := 0x3F800000 }
    (Ready s t req 0x11 (writeBody (objId 7 n 0x21) (be16 0))) ∧
    (s.slotHere n = some r) :=
  ⟨ready_of_check (by decide +kernel), by decide +kernel⟩

theorem witness_ServoObjectsTakeWrites_5 :
    let s : State := bench
    let t : Nat := 0
    let req : Request := host
    let n : Fin 32 := 31
    let r : LoopRec := { slot := 31, feedback := 1, output := 3, outMax := 0x3F800000 }
    let v : F32 := 0x3F800000
    (Ready s t req 0x11 (writeBody (objId 7 n 0x22) (be32 v))) ∧
    (s.slotHere n = some r) ∧
    (r.outer = 0xFF) ∧
    (s.modes.mode = .test) :=
  ⟨ready_of_check (by decide +kernel), by decide +kernel⟩

theorem witness_ServoObjectsTakeWrites_6 :
    let s : State := { bench with image.loaded := some { planServo with thrusters := [{ pitchSlot := 31, generator := 15 }] } }
    let t : Nat := 0
    let req : Request := host
    let g : Fin 16 := 15
    let r : ThrusterRec := { pitchSlot := 31, generator := 15 }
    let a : BitVec 8 := 1
    let x : F64 := 0
    (Ready s t req 0x11 (writeBody (objId 7 (0x20 + g) 0xA) (be8 a ++ zeros 3 ++ be64 x))) ∧
    (s.generatorHere g = some r) ∧
    (s.modes.mode = .test) ∧
    (a.toNat ≤ 2) ∧
    (axisSlot r a.toNat ≠ 0xFF) ∧
    (a ≠ 0) :=
  ⟨ready_of_check (by decide +kernel), by decide +kernel⟩

theorem witness_ServoObjectsTakeWrites_7 :
    let s : State := bench
    let t : Nat := 0
    let req : Request := host
    let g : Fin 8 := 7
    let i : Fin 4 := 3
    let p : Word := 0xFFFFFFFF
    let q : Word := 1
    (Ready s t req 0x11 (writeBody (objId 7 (0x30 + g) (0x10 + i)) (be32 p ++ be32 q))) ∧
    (q ≠ 0) :=
  ⟨ready_of_check (by decide +kernel), by decide +kernel⟩

/-! ### The clauses of ServoReportsGearsAndLatches -/

theorem witness_ServoReportsGearsAndLatches_0 :
    let s : State := { bench with servo.counts := upd bench.servo.counts 31 fun q => { q with clampedRun := 1000 } }
    let t : Nat := 0
    (Running s) ∧ (
      let c := s.clock t
      let n : Fin 32 := 31
      (c.servo.counts[n].loopLimit = false) ∧
      (1000 ≤ c.servo.counts[n].clampedRun)) :=
  by decide +kernel

theorem witness_ServoReportsGearsAndLatches_1 :
    let s : State := { bench with servo.counts := upd bench.servo.counts 31 fun q => { q with loopLimit := true, unclampedRun := 1000 } }
    let t : Nat := 0
    (Running s) ∧ (
      let c := s.clock t
      let n : Fin 32 := 31
      (c.servo.counts[n].loopLimit = true) ∧
      (1000 ≤ c.servo.counts[n].unclampedRun)) :=
  by decide +kernel

theorem witness_ServoReportsGearsAndLatches_2 :
    let s : State := { bench with servo.counts := upd bench.servo.counts 31 fun q => { q with aboveRun := 100 } }
    let t : Nat := 0
    (Running s) ∧ (
      let c := s.clock t
      let n : Fin 32 := 31
      let r : LoopRec := { slot := 31, feedback := 1, output := 3, outMax := 0x3F800000 }
      (c.slotHere n = some r) ∧
      (c.servo.counts[n].following = false) ∧
      (0 < c.servo.counts[n].aboveRun) ∧
      (c.servo.coeffs[n].followingTime * r.rate ≤ c.servo.counts[n].aboveRun * 1000)) :=
  by decide +kernel

theorem witness_ServoReportsGearsAndLatches_3 :
    let s : State := { bench with servo.counts := upd bench.servo.counts 31 fun q => { q with following := true, belowRun := 100 } }
    let t : Nat := 0
    (Running s) ∧ (
      let c := s.clock t
      let n : Fin 32 := 31
      let r : LoopRec := { slot := 31, feedback := 1, output := 3, outMax := 0x3F800000 }
      (c.slotHere n = some r) ∧
      (c.servo.counts[n].following = true) ∧
      (0 < c.servo.counts[n].belowRun) ∧
      (c.servo.coeffs[n].followingTime * r.rate ≤ c.servo.counts[n].belowRun * 1000)) :=
  by decide +kernel

theorem witness_ServoReportsGearsAndLatches_4 :
    let s : State := { bench with modes.gatheredHold := false, servo.slots := upd bench.servo.slots 31 fun q => { q with holding := true, state := 2 } }
    let t : Nat := 0
    (Running s) ∧ (
      let c := s.clock t
      let n : Fin 32 := 31
      (c.servo.slots[n].holding = true) ∧
      (c.servo.slots[n].holdLeft = 0) ∧
      (c.servo.slots[n].state = 2) ∧
      (c.modes.gatheredHold = false) ∧
      (c.servo.slots[n].faulted = false)) :=
  by decide +kernel

theorem witness_ServoReportsGearsAndLatches_5 :
    let s : State := { bench with servo.gears := upd bench.servo.gears 7 fun q => { q with en := true, master := 2 }, field.pfb := upd bench.field.pfb 2 fun p => { p with faultRun := true } }
    let t : Nat := 0
    (Running s) ∧ (
      let c := s.clock t
      let g : Fin 8 := 7
      let x := c.servo.gears[g]
      (x.en = true) ∧
      ((x.fallback = false ∨ x.engaging = true)) ∧
      (c.masterLost x.master.toNat = true)) :=
  by decide +kernel

theorem witness_ServoReportsGearsAndLatches_6 :
    let s : State := tb0At 100000000 ({ bench with servo.gears := upd bench.servo.gears 7 fun q => { q with en := true, fallback := true, validSince := some 0, slaves := .replicate 4 { slot := 31 } } })
    let t : Nat := 0
    (Running s) ∧ (
      let c := s.clock t
      let g : Fin 8 := 7
      let a : Nat := 0
      let x := c.servo.gears[g]
      (x.en = true) ∧
      (x.fallback = true) ∧
      (x.engaging = false) ∧
      (x.validSince = some a) ∧
      (a + 100 * ms ≤ c.now) ∧
      ((∃ i : Fin 4, x.slaves[i].slot ≠ 0xFF))) :=
  ⟨by decide +kernel, by decide +kernel, by decide +kernel, by decide +kernel, by decide +kernel, by decide +kernel, ⟨0, by decide +kernel⟩⟩

theorem witness_ServoReportsGearsAndLatches_7 :
    let s : State := tb3At 3 { bench with servo.latches := upd bench.servo.latches 7 fun q => { q with config := 9 } }
    let t : Nat := 0
    (Running s) ∧ (
      let c := s.clock t
      let unit : Fin 8 := 7
      let falling : Bool := true
      let stamp : Nat := 3
      let x := c.servo.latches[unit]
      let w := x.config.toNat
      (bitOf w 0 = true) ∧
      (bitOf w (if falling then 3 else 2) = true) ∧
      (stamp ≤ c.tb3) ∧ (
        let soon : Prop := c.tb3 ≤ stamp + (bitsOf w 22 5 + 1) * us
        let p := at? c.field.pfb (bitsOf w 8 3)
        (bitOf w 11 = false) ∧
        (p.mode ≠ 1) ∧
        (p.mode ≠ 2) ∧
        (soon))) :=
  by decide +kernel

theorem witness_ServoReportsGearsAndLatches_8 :
    let s : State := tb3At 4 { bench with servo.latches := upd bench.servo.latches 7 fun q => { q with config := 9 }, field.pfb := upd bench.field.pfb 0 fun q => { q with mode := 1, stamp := 4, count := 7, prev := some (2, 4) } }
    let t : Nat := 0
    (Running s) ∧ (
      let c := s.clock t
      let unit : Fin 8 := 7
      let falling : Bool := true
      let stamp : Nat := 3
      let x := c.servo.latches[unit]
      let w := x.config.toNat
      (bitOf w 0 = true) ∧
      (bitOf w (if falling then 3 else 2) = true) ∧
      (stamp ≤ c.tb3) ∧ (
        let p := at? c.field.pfb (bitsOf w 8 3)
        let before : Nat := 2
        let k : Int := 4
        (bitOf w 11 = false) ∧
        ((p.mode = 1 ∨ p.mode = 2)) ∧
        (p.prev = some (before, k)) ∧
        (before < p.stamp) ∧
        (before ≤ stamp) ∧
        (stamp ≤ p.stamp))) :=
  by decide +kernel

theorem witness_ServoReportsGearsAndLatches_9 :
    let s : State := tb3At 3 { bench with servo.latches := upd bench.servo.latches 7 fun q => { q with config := 0x809 } }
    let t : Nat := 0
    (Running s) ∧ (
      let c := s.clock t
      let unit : Fin 8 := 7
      let falling : Bool := true
      let stamp : Nat := 3
      let x := c.servo.latches[unit]
      let w := x.config.toNat
      (bitOf w 0 = true) ∧
      (bitOf w (if falling then 3 else 2) = true) ∧
      (stamp ≤ c.tb3) ∧ (
        let soon : Prop := c.tb3 ≤ stamp + (bitsOf w 22 5 + 1) * us
        (bitOf w 11 = true) ∧
        (soon))) :=
  by decide +kernel

/-! ### The clauses of StepperDrivesFollowTheLoad -/

theorem witness_StepperDrivesFollowTheLoad_0 :
    let s : State := tb0At 1000000000 ({ bench with servo.steppers := upd bench.servo.steppers 3 fun q => { q with target := 25600 } })
    let t : Nat := 0
    let d : Fin 4 := 3
    (Powered s) ∧
    (s.factory.optS = true) ∧ (
      let c := s.clock t
      let q := c.servo.steppers[d]
      let angle : BitVec 8 := 60
      (c.drives q = true) ∧
      (q.mayStep c.now = true) ∧ (
        (q.thermal = false) ∧
        (30 ≤ angle.toNat) ∧
        (angle.toNat ≤ 60))) :=
  by decide +kernel

theorem witness_StepperDrivesFollowTheLoad_1 :
    let s : State := tb0At 1000000000 ({ bench with servo.steppers := upd bench.servo.steppers 3 fun q => { q with target := 25600, current := 0x3F800000 } })
    let t : Nat := 0
    let d : Fin 4 := 3
    (Powered s) ∧
    (s.factory.optS = true) ∧ (
      let c := s.clock t
      let q := c.servo.steppers[d]
      let angle : BitVec 8 := 61
      (c.drives q = true) ∧
      (q.mayStep c.now = true) ∧ (
        let span := F32.sub q.iMax q.iMin
        let up := F32.clamp (F32.add q.current (F32.div span (F32.ofNat 16))) q.iMin q.iMax
        (q.thermal = false) ∧
        (60 < angle.toNat) ∧
        (angle.toNat ≤ 120) ∧
        (F32.le q.iMax up = false))) :=
  by decide +kernel

theorem witness_StepperDrivesFollowTheLoad_2 :
    let s : State := tb0At 1000000000 ({ bench with servo.steppers := upd bench.servo.steppers 3 fun q => { q with target := 25600, current := 0x3F800000 } })
    let t : Nat := 0
    let d : Fin 4 := 3
    (Powered s) ∧
    (s.factory.optS = true) ∧ (
      let c := s.clock t
      let q := c.servo.steppers[d]
      let angle : BitVec 8 := 29
      (c.drives q = true) ∧
      (q.mayStep c.now = true) ∧ (
        let span := F32.sub q.iMax q.iMin
        let down := F32.clamp (F32.sub q.current (F32.div span (F32.ofNat 64))) q.iMin q.iMax
        (q.thermal = false) ∧
        (angle.toNat < 30) ∧
        (F32.le down q.iMin = false))) :=
  by decide +kernel

theorem witness_StepperDrivesFollowTheLoad_3 :
    let s : State := tb0At 1000000000 ({ bench with servo.steppers := upd bench.servo.steppers 3 fun q => { q with target := 25600, stallMinRate := 0x3F800000 } })
    let t : Nat := 0
    let d : Fin 4 := 3
    (Powered s) ∧
    (s.factory.optS = true) ∧ (
      let c := s.clock t
      let q := c.servo.steppers[d]
      let angle : BitVec 8 := 121
      (c.drives q = true) ∧
      (q.mayStep c.now = true) ∧ (
        let fast : Prop := F32.le q.stallMinRate (F64.to32 (q.rateOf c.now)) = true
        (120 < angle.toNat) ∧
        (fast))) :=
  by decide +kernel

theorem witness_StepperDrivesFollowTheLoad_4 :
    let s : State := bench
    let t : Nat := 0
    let d : Fin 4 := 3
    (Powered s) ∧
    (s.factory.optS = true) ∧ (
      let c := s.clock t
      let q := c.servo.steppers[d]
      (q.mayStep c.now = false)) :=
  by decide +kernel

theorem witness_StepperDrivesFollowTheLoad_5 :
    let s : State := { bench with servo.steppers := upd bench.servo.steppers 3 fun q => { q with weakSteps := 3 } }
    let t : Nat := 0
    let d : Fin 4 := 3
    (Powered s) ∧
    (s.factory.optS = true) ∧ (
      let c := s.clock t
      let q := c.servo.steppers[d]
      (q.weakSteps < 4)) :=
  by decide +kernel

theorem witness_StepperDrivesFollowTheLoad_6 :
    let s : State := { bench with servo.steppers := upd bench.servo.steppers 3 fun q => { q with moving := true, rate := 0x42C80000, weakSteps := 4, stalls := [0] } }
    let t : Nat := 0
    let d : Fin 4 := 3
    (Powered s) ∧
    (s.factory.optS = true) ∧ (
      let c := s.clock t
      let q := c.servo.steppers[d]
      (c.drives q = true) ∧
      (q.watchesStall = true) ∧
      (4 ≤ q.weakSteps) ∧ (
        let recent := (q.stalls.filter fun a => decide (c.now ≤ a + second)) ++ [c.now]
        (recent.length < 3))) :=
  by decide +kernel

theorem witness_StepperDrivesFollowTheLoad_7 :
    let s : State := { bench with servo.steppers := upd bench.servo.steppers 3 fun q => { q with moving := true, rate := 0x42C80000, weakSteps := 4, stalls := [0, 0] } }
    let t : Nat := 0
    let d : Fin 4 := 3
    (Powered s) ∧
    (s.factory.optS = true) ∧ (
      let c := s.clock t
      let q := c.servo.steppers[d]
      (c.drives q = true) ∧
      (q.watchesStall = true) ∧
      (4 ≤ q.weakSteps) ∧ (
        let recent := (q.stalls.filter fun a => decide (c.now ≤ a + second)) ++ [c.now]
        let stalled (locks : Bool) : State := State.raiseN { c with servo.steppers := upd c.servo.steppers d fun q =>
          { q with stopped := true, moving := false, rate := 0, weakSteps := 0, current := q.iMax, posValid := false, stalls := recent,
                   stalledAt := some c.now, locked := locks } } 78 d.val
        (3 ≤ recent.length) ∧
        ((stalled true).driveSlot d = none))) :=
  by decide +kernel

theorem witness_StepperDrivesFollowTheLoad_8 :
    let s : State := tb0At 50000000 ({ bench with servo.steppers := upd bench.servo.steppers 3 fun q => { q with stopped := true, stalledAt := some 0 } })
    let t : Nat := 0
    let d : Fin 4 := 3
    (Powered s) ∧
    (s.factory.optS = true) ∧ (
      let c := s.clock t
      let q := c.servo.steppers[d]
      let a : Nat := 0
      (q.stalledAt = some a) ∧
      (q.locked = false) ∧
      (a + 50 * ms ≤ c.now)) :=
  by decide +kernel

theorem witness_StepperDrivesFollowTheLoad_9 :
    let s : State := tb0At 100000000 bench
    let t : Nat := 0
    let d : Fin 4 := 3
    (Powered s) ∧
    (s.factory.optS = true) ∧ (
      let c := s.clock t
      let q := c.servo.steppers[d]
      (c.drives q = true) ∧
      (q.thermal = false) ∧
      (q.moving = false) ∧
      (q.stepAt + 100 * ms ≤ c.now)) :=
  by decide +kernel

theorem witness_StepperDrivesFollowTheLoad_10 :
    let s : State := bench
    let t : Nat := 0
    let d : Fin 4 := 3
    (Powered s) ∧
    (s.factory.optS = true) ∧ (
      let c := s.clock t
      let q := c.servo.steppers[d]
      let v : BitVec 16 := 499
      (c.drives q = true) ∧
      (F32.lt (f32OfRat v.toNat 1000) q.iMin = true) ∧
      (q.thermal = false)) :=
  by decide +kernel

theorem witness_StepperDrivesFollowTheLoad_11 :
    let s : State := bench
    let t : Nat := 0
    (Powered s) ∧
    (s.factory.optS = true) ∧ (
      let c := s.clock t
      (c.servo.stpVoltageOff = false)) :=
  by decide +kernel

theorem witness_StepperDrivesFollowTheLoad_12 :
    let s : State := { bench with servo.stpVoltageOff := true }
    let t : Nat := 0
    (Powered s) ∧
    (s.factory.optS = true) ∧ (
      let c := s.clock t
      (c.servo.stpVoltageOff = true)) :=
  by decide +kernel

theorem witness_StepperDrivesFollowTheLoad_13 :
    let s : State := bench
    let t : Nat := 0
    let d : Fin 4 := 3
    (Powered s) ∧
    (s.factory.optS = true) ∧ (
      let req : Request := host
      let p : PointRec := { id := 5, kind := 6, channel := 3 }
      (s.ownPoint? 6 d.val = some p) ∧
      (Ready s t req 0x11 (writeBody (objId 7 (0x40 + d) 7) [1]))) :=
  ⟨by decide +kernel, by decide +kernel, by decide +kernel, ready_of_check (by decide +kernel)⟩

theorem witness_StepperDrivesFollowTheLoad_14 :
    let s : State := bench
    let t : Nat := 0
    let d : Fin 4 := 3
    (Powered s) ∧
    (s.factory.optS = true) ∧ (
      let req : Request := host
      let p : PointRec := { id := 5, kind := 6, channel := 3 }
      (s.ownPoint? 6 d.val = some p) ∧
      (Ready s t req 0x11 (writeBody (objId 7 (0x40 + d) 7) [2])) ∧
      ((s.modes.mode = .idle ∨ s.modes.mode = .config ∨ s.modes.mode = .test))) :=
  ⟨by decide +kernel, by decide +kernel, by decide +kernel, ready_of_check (by decide +kernel), by decide +kernel⟩

/-! ### The clauses of InjectionAndCapture -/

theorem witness_InjectionAndCapture_0 :
    let s : State := { bench with servo.ic.injConfig := nat8 31 ++ nat8 0 ++ nat8 1 ++ nat8 0 ++ be32 0 ++ be32 0x3F800000 ++ be32 0 ++ be32 0x3F800000 ++ zeros 12 }
    let t : Nat := 0
    (Running s) ∧ (
      let req : Request := host
      (Ready s t req 0x11 (writeBody (objId 7 0x50 1) [1])) ∧
      (s.modes.mode = .test) ∧
      (s.injOk s.servo.ic.injConfig = true) ∧
      ((s.servo.ic.capState ≠ 1 ∨ fieldAt s.servo.ic.capConfig 1 1 ≠ 1))) :=
  ⟨by decide +kernel, ready_of_check (by decide +kernel), by decide +kernel⟩

theorem witness_InjectionAndCapture_1 :
    let s : State := bench
    let t : Nat := 0
    (Running s) ∧ (
      let req : Request := host
      (Ready s t req 0x11 (writeBody (objId 7 0x50 1) [0])) ∧
      (s.modes.mode = .test)) :=
  ⟨by decide +kernel, ready_of_check (by decide +kernel), by decide +kernel⟩

theorem witness_InjectionAndCapture_2 :
    let s : State := { bench with servo.ic.injConfig := nat8 31 ++ zeros 15 ++ be32 0x3F800000 ++ zeros 12, servo.ic.injRunning := true, servo.ic.injN := 1000 }
    let t : Nat := 0
    (Running s) ∧ (
      let c := s.clock t
      let r : LoopRec := { slot := 31, feedback := 1, output := 3, outMax := 0x3F800000 }
      (c.slotHere c.servo.ic.slot = some r) ∧
      (c.servo.ic.injRunning = true) ∧
      (c.servo.ic.finished r.rate c.servo.ic.injN = true)) :=
  by decide +kernel

theorem witness_InjectionAndCapture_3 :
    let s : State := { bench with servo.ic.capConfig := [31, 0, 0, 0, 0, 1, 0, 0, 0, 0, 0, 1, 0, 0, 0, 0] }
    let t : Nat := 0
    (Running s) ∧ (
      let req : Request := host
      (Ready s t req 0x11 (writeBody (objId 7 0x50 0x12) [1])) ∧
      (s.capOk s.servo.ic.capConfig = true)) :=
  ⟨by decide +kernel, ready_of_check (by decide +kernel), by decide +kernel⟩

theorem witness_InjectionAndCapture_4 :
    let s : State := bench
    let t : Nat := 0
    (Running s) ∧ (
      let req : Request := host
      (Ready s t req 0x11 (writeBody (objId 7 0x50 0x12) [0]))) :=
  ⟨by decide +kernel, ready_of_check (by decide +kernel)⟩

theorem witness_InjectionAndCapture_5 :
    let s : State := { bench with servo.ic.capState := 2 }
    let t : Nat := 0
    (Running s) ∧ (
      let c := s.clock t
      (c.servo.ic.capState = 2) ∧
      (c.servo.ic.capCount ≤ c.servo.ic.capData.length)) :=
  by decide +kernel

/-! ### The clauses of FieldInputsAreCountedAndReported -/

theorem witness_FieldInputsAreCountedAndReported_0 :
    let s : State := tb0At 1000000 bench
    let t : Nat := 0
    let ch : Fin 32 := 31
    (Powered s) ∧ (
      let c := s.clock t
      let x := c.field.u[ch]
      let level : Bool := true
      (x.cfg.output = false) ∧
      (x.filtered ≠ level) ∧
      (x.frozen = false) ∧
      (x.cfg.chatterCount = 0) ∧
      (x.stuck = false) ∧
      (x.acceptedAt + x.cfg.filterUs * us ≤ c.now)) :=
  by decide +kernel

theorem witness_FieldInputsAreCountedAndReported_1 :
    let s : State := bench
    let t : Nat := 0
    let ch : Fin 32 := 31
    (Powered s) ∧ (
      let c := s.clock t
      let x := c.field.u[ch]
      let level : Bool := false
      ((x.cfg.output = true ∨ x.filtered = level ∨ c.now < x.acceptedAt + x.cfg.filterUs * us))) :=
  by decide +kernel

theorem witness_FieldInputsAreCountedAndReported_2 :
    let s : State := tb0At 1000000000 ({ bench with field.u := upd bench.field.u 31 fun q => { q with frozen := true } })
    let t : Nat := 0
    let ch : Fin 32 := 31
    (Powered s) ∧ (
      let c := s.clock t
      let x := c.field.u[ch]
      (x.frozen = true) ∧
      (x.stuck = false) ∧
      ((x.transitions.getLast?.map (·.1)).getD 0 + x.cfg.chatterWindow * ms ≤ c.now)) :=
  by decide +kernel

theorem witness_FieldInputsAreCountedAndReported_3 :
    let s : State := tb0At 5000000 ({ bench with field.u := upd bench.field.u 31 fun q => { q with cfg.onMax := 5, activeSince := some 0 } })
    let t : Nat := 0
    let ch : Fin 32 := 31
    (Powered s) ∧ (
      let c := s.clock t
      let x := c.field.u[ch]
      let a : Nat := 0
      (x.activeSince = some a) ∧
      (x.cfg.output = false) ∧
      (x.cfg.onMax ≠ 0) ∧
      (x.stuck = false) ∧
      (a + x.cfg.onMax * ms ≤ c.now)) :=
  by decide +kernel

theorem witness_FieldInputsAreCountedAndReported_4 :
    let s : State := bench
    let t : Nat := 0
    let ch : Fin 32 := 30
    (Powered s) ∧ (
      let c := s.clock t
      let x := c.field.u[ch]
      let p : PointRec := { id := 7, kind := 1, channel := 30, period := 1000000 }
      (c.ownPoint? 1 ch.val = some p) ∧
      (p.period ≠ 0) ∧
      (x.deliveredM ≠ some (c.tb3 / p.period))) :=
  by decide +kernel

/-! ### The clauses of FieldObjectsTakeWrites -/

theorem witness_FieldObjectsTakeWrites_0 :
    let s : State := driven
    let t : Nat := 0
    let req : Request := host
    let ch : Fin 32 := 31
    let v : BitVec 8 := 1
    (Ready s t req 0x11 (writeBody (objId 8 ch 4) [v])) ∧
    (s.field.u[ch].cfg.output = true) ∧
    (s.field.u[ch].cfg.source = 0) ∧
    (v.toNat ≤ 1) ∧
    (s.modes.mode ≠ .idle) ∧
    (s.modes.mode ≠ .config) ∧
    (s.modes.mode ≠ .safe) :=
  ⟨ready_of_check (by decide +kernel), by decide +kernel⟩

theorem witness_FieldObjectsTakeWrites_1 :
    let s : State := bench
    let t : Nat := 0
    let req : Request := host
    let ch : Fin 32 := 31
    (Ready s t req 0x11 (writeBody (objId 8 ch 5) [1])) :=
  ready_of_check (by decide +kernel)

theorem witness_FieldObjectsTakeWrites_2 :
    let s : State := bench
    let t : Nat := 0
    let req : Request := host
    let ch : Fin 32 := 31
    (Ready s t req 0x11 (writeBody (objId 8 ch 5) [2])) :=
  ready_of_check (by decide +kernel)

theorem witness_FieldObjectsTakeWrites_3 :
    let s : State := bench
    let t : Nat := 0
    let req : Request := host
    let ch : Fin 16 := 15
    let v : F32 := 0x3F800000
    let p : PointRec := { id := 4, kind := 4, channel := 15 }
    (Ready s t req 0x11 (writeBody (objId 8 (0x20 + ch) 1) (be32 v))) ∧
    (s.ownPoint? 4 ch.val = some p) ∧
    (s.slotFor p.id = none) ∧
    (v.finite = true) ∧
    (s.modes.mode ≠ .idle) ∧
    (s.modes.mode ≠ .config) ∧
    (s.modes.mode ≠ .safe) :=
  ⟨ready_of_check (by decide +kernel), by decide +kernel⟩

/-! ### The clauses of FieldSupervisionAndFeedback -/

theorem witness_FieldSupervisionAndFeedback_0 :
    let s : State := driven
    let t : Nat := 0
    (Powered s) ∧ (
      let c := s.clock t
      let ch : Fin 32 := 31
      (c.field.u[ch].overload = false) ∧
      (F32.le (c.uValue ch) 0 = false)) :=
  by decide +kernel

theorem witness_FieldSupervisionAndFeedback_1 :
    let s : State := driven
    let t : Nat := 0
    (Powered s) ∧ (
      let c := s.clock t
      let ch : Fin 32 := 31
      (c.field.u[ch].cfg.output = true) ∧
      (c.field.u[ch].overload = false) ∧
      (c.field.u[ch].readbackFail = false) ∧
      ((at? c.field.banks (ch.val / 16)).uvlo = false) ∧
      (c.isEnable ch = false)) :=
  by decide +kernel

theorem witness_FieldSupervisionAndFeedback_2 :
    let s : State := driven
    let t : Nat := 0
    (Powered s) ∧ (
      let c := s.clock t
      let ch : Fin 32 := 31
      (F32.le (c.uValue ch) 0 = false)) :=
  by decide +kernel

theorem witness_FieldSupervisionAndFeedback_3 :
    let s : State := bench
    let t : Nat := 0
    (Powered s) ∧ (
      let c := s.clock t
      let b : Fin 2 := 1
      let out : Bool := true
      let mv : BitVec 16 := 17999
      (c.field.banks[b].outOfRange ≠ out) ∧
      ((out = true ↔ mv.toNat < 18000 ∨ 32000 < mv.toNat))) :=
  by decide +kernel

theorem witness_FieldSupervisionAndFeedback_4 :
    let s : State := bench
    let t : Nat := 0
    (Powered s) ∧ (
      let c := s.clock t
      let b : Fin 2 := 1
      let out : Bool := false
      let mv : BitVec 16 := 32000
      (c.field.banks[b].outOfRange = out) ∧
      ((out = true ↔ mv.toNat < 18000 ∨ 32000 < mv.toNat))) :=
  by decide +kernel

theorem witness_FieldSupervisionAndFeedback_5 :
    let s : State := bench
    (Powered s) ∧ (
      let low : Bool := true
      let mv : BitVec 16 := 14999
      ((if low then mv.toNat < 15000 else 16000 < mv.toNat))) :=
  by decide +kernel

theorem witness_FieldSupervisionAndFeedback_6 :
    let s : State := { bench with field.lines := upd bench.field.lines 7 fun q => { q with pulseUntil := some 0 } }
    let t : Nat := 0
    (Powered s) ∧ (
      let c := s.clock t
      let n : Fin 8 := 7
      let a : Nat := 0
      (c.field.lines[n].pulseUntil = some a) ∧
      (a ≤ c.now)) :=
  by decide +kernel

theorem witness_FieldSupervisionAndFeedback_7 :
    let s : State := bench
    let t : Nat := 0
    (Powered s) ∧ (
      let c := s.clock t
      (s.modes.phase = .running) ∧
      (c.field.handover = false)) :=
  by decide +kernel

theorem witness_FieldSupervisionAndFeedback_8 :
    let s : State := { bench with field.handover := true }
    let t : Nat := 0
    (Powered s) ∧ (
      let c := s.clock t
      (s.modes.phase = .running) ∧
      (c.field.handover = true)) :=
  by decide +kernel

theorem witness_FieldSupervisionAndFeedback_9 :
    let s : State := tb0At 100000000 bench
    let t : Nat := 0
    (Powered s) ∧ (
      let c := s.clock t
      (c.field.expired = false) ∧
      (c.field.retriggeredAt + (if c.field.handover then 400 else c.field.watchdog) * ms ≤ c.now)) :=
  by decide +kernel

theorem witness_FieldSupervisionAndFeedback_10 :
    let s : State := bench
    let t : Nat := 0
    (Powered s) ∧ (
      let c := s.clock t
      let ch : Fin 16 := 15
      let p : PointRec := { id := 4, kind := 4, channel := 15 }
      let v : F32 := 0x3F800000
      (c.ownPoint? 4 ch.val = some p) ∧
      (c.field.ao[ch].short = false) ∧
      (c.field.ao[ch].open_ = false) ∧
      (c.aoBears ch p true v = true)) :=
  by decide +kernel

theorem witness_FieldSupervisionAndFeedback_11 :
    let s : State := { bench with field.ao := upd bench.field.ao 15 fun a => { a with short := true } }
    let t : Nat := 0
    (Powered s) ∧ (
      let c := s.clock t
      let ch : Fin 16 := 15
      let p : PointRec := { id := 4, kind := 4, channel := 15 }
      let v : F32 := 0
      (c.ownPoint? 4 ch.val = some p) ∧
      ((c.field.ao[ch].short = true ∨ c.field.ao[ch].open_ = true)) ∧
      (c.aoBears ch p false v = true)) :=
  by decide +kernel

theorem witness_FieldSupervisionAndFeedback_12 :
    let s : State := { bench with field.pfb := upd bench.field.pfb 7 fun q => { q with mode := 1 } }
    let t : Nat := 0
    (Powered s) ∧ (
      let c := s.clock t
      let ch : Fin 8 := 7
      let f : PfbFrame := { timeout := true }
      (c.field.pfb[ch].mode ≠ 0) ∧
      (c.field.pfb[ch].causeOf f ≠ 0) ∧
      (c.field.pfb[ch].faultRun = false)) :=
  by decide +kernel

theorem witness_FieldSupervisionAndFeedback_13 :
    let s : State := { bench with field.pfb := upd bench.field.pfb 7 fun q => { q with mode := 1 } }
    let t : Nat := 0
    (Powered s) ∧ (
      let c := s.clock t
      let ch : Fin 8 := 7
      let f : PfbFrame := {}
      (c.field.pfb[ch].mode ≠ 0) ∧
      (c.field.pfb[ch].causeOf f = 0) ∧
      (c.field.pfb[ch].gray = false) ∧
      (c.field.pfb[ch].dir = false)) :=
  by decide +kernel

/-! ### The clauses of SafetyFunctionsRemoveEveryEnable -/

theorem witness_SafetyFunctionsRemoveEveryEnable_0 :
    let s : State := { bench with saf.inputs := upd bench.saf.inputs 7 fun x => { x with function := 1 } }
    let t : Nat := 0
    (Powered s) ∧ (
      let c := s.clock t
      let i : Fin 8 := 7
      (c.saf.inputs[i].function = 1) ∧
      (c.saf.inputs[i].latched = false) ∧
      ((∀ h : Nat, c.saf.inputs[i].highSince = some h → c.saf.inputs[i].filterUs * us * 100 ≤ (c.now - h) * 103))) :=
  ⟨by decide +kernel, by decide +kernel, by decide +kernel, nofun⟩

theorem witness_SafetyFunctionsRemoveEveryEnable_1 :
    let s : State := { bench with saf.inputs := upd bench.saf.inputs 7 fun x => { x with function := 1, tp := 3 } }
    let t : Nat := 0
    (Powered s) ∧ (
      let c := s.clock t
      let p : Fin 4 := 3
      let i : Fin 8 := 7
      ((at? c.field.banks 0).uvlo = false) ∧
      (c.saf.tpFault[p] = false) ∧
      (c.saf.inputs[i].function = 1) ∧
      (c.saf.inputs[i].tp.toNat = p.val) ∧
      (c.saf.inputs[i].latched = false)) :=
  by decide +kernel

theorem witness_SafetyFunctionsRemoveEveryEnable_2 :
    let s : State := { bench with saf.inputs := upd bench.saf.inputs 7 fun x => { x with function := 1 } }
    let t : Nat := 0
    (Powered s) ∧ (
      let c := s.clock t
      let i : Fin 8 := 7
      (c.saf.inputs[i].function = 1) ∧
      (c.saf.inputs[i].demand = false) ∧
      (c.saf.inputs[i].latched = false) ∧
      ((at? c.field.banks 0).uvlo = false)) :=
  by decide +kernel

theorem witness_SafetyFunctionsRemoveEveryEnable_3 :
    let s : State := tb0At 1000 { bench with saf.cmdArmed := true, saf.cmdLimitUs := 1 }
    let t : Nat := 0
    (Powered s) ∧ (
      let c := s.clock t
      (c.saf.cmdArmed = true) ∧
      (c.saf.cmdFresh = false) ∧
      (c.saf.cmdTripped = false) ∧
      (c.cmdLimit * us * 100 ≤ (c.now - c.saf.cmdChangedAt) * 103)) :=
  by decide +kernel

theorem witness_SafetyFunctionsRemoveEveryEnable_4 :
    let s : State := tb0At 10000000000 bench
    let t : Nat := 0
    (Powered s) ∧ (
      let c := s.clock t
      let v : Fin 6 := 5
      (v ≠ 0) ∧
      (c.saf.selftestFail = false) ∧
      (10 * second * 100 ≤ (c.now - c.saf.testedAt) * 103)) :=
  by decide +kernel

theorem witness_SafetyFunctionsRemoveEveryEnable_5 :
    let s : State := bench
    let t : Nat := 0
    (Powered s) ∧ (
      let c := s.clock t
      (c.saf.clockLost = false)) :=
  by decide +kernel

/-! ### The clauses of SafetyChecksAndReset -/

theorem witness_SafetyChecksAndReset_0 :
    let s : State := on
    (Powered s) :=
  by decide +kernel

theorem witness_SafetyChecksAndReset_1 :
    let s : State := tb0At 10000000 { bench with saf.clockLost := true }
    let t : Nat := 0
    (Powered s) ∧ (
      let c := s.clock t
      (c.saf.clockLost = true) ∧
      (c.saf.clockLostAt + 10 * ms ≤ c.now)) :=
  by decide +kernel

theorem witness_SafetyChecksAndReset_2 :
    let s : State := driven
    let t : Nat := 0
    (Powered s) ∧ (
      let c := s.clock t
      let n : Fin 16 := 0
      (c.isEnable n = true) ∧
      (c.saf.gates[n].removed = false) ∧
      (F32.le (c.uValue n) 0 = false) ∧
      (c.darkDue n = true)) :=
  by decide +kernel

theorem witness_SafetyChecksAndReset_3 :
    let s : State := { driven with saf.darkAt := upd driven.saf.darkAt 0 fun _ => some 0 }
    let t : Nat := 0
    (Powered s) ∧ (
      let c := s.clock t
      let n : Fin 16 := 0
      (c.darkDue n = false)) :=
  by decide +kernel

theorem witness_SafetyChecksAndReset_4 :
    let s : State := driven
    let t : Nat := 0
    (Powered s) ∧ (
      let c := s.clock t
      let n : Fin 16 := 0
      (c.isEnable n = true) ∧
      (c.saf.gates[n].removed = false) ∧
      (F32.le (c.uValue n) 0 = false) ∧
      (c.darkDue n = true) ∧
      (c.saf.gates[n].gateFault = false)) :=
  by decide +kernel

theorem witness_SafetyChecksAndReset_5 :
    let s : State := tb0At 150000 bench
    let t : Nat := 0
    (Powered s) ∧ (
      let c := s.clock t
      let n : Fin 16 := 0
      (c.isEnable n = true) ∧
      (c.saf.gates[n].removed = true) ∧
      (150 * us * 100 ≤ (c.now - c.saf.gates[n].offSince) * 103)) :=
  by decide +kernel

theorem witness_SafetyChecksAndReset_6 :
    let s : State := tb0At 10000000000 bench
    let t : Nat := 0
    (Powered s) ∧ (
      let c := s.clock t
      (10 * second * 100 ≤ (c.now - c.saf.testedAt) * 103)) :=
  by decide +kernel

theorem witness_SafetyChecksAndReset_7 :
    let s : State := bench
    let t : Nat := 0
    (Powered s) ∧ (
      let req : Request := host
      (Ready s t req 0x11 (writeBody (objId 9 0 3) [1])) ∧
      ((s.modes.mode = .idle ∨ s.modes.mode = .test))) :=
  ⟨by decide +kernel, ready_of_check (by decide +kernel), by decide +kernel⟩

theorem witness_SafetyChecksAndReset_8 :
    let s : State := bench
    let t : Nat := 0
    (Powered s) ∧ (
      let req : Request := host
      (Ready s t req 0x11 (writeBody (objId 9 0 2) [1])) ∧ (
        let w := s.atWrite t req (objId 9 0 2) [1]
        (w.safReady = true))) :=
  ⟨by decide +kernel, ready_of_check (by decide +kernel), by decide +kernel⟩

/-! ### The clauses of ModeRequestsAreJudged -/

theorem witness_ModeRequestsAreJudged_0 :
    let s : State := solo
    let t : Nat := 0
    let req : Request := host
    let m : Mode := .idle
    (Ready s t req 0x11 (writeBody (objId 1 0 0x31) (nat8 m.code))) ∧ (
      (s.group.role = .alone) ∧
      (m = s.modes.mode)) :=
  ⟨ready_of_check (by decide +kernel), by decide +kernel⟩

theorem witness_ModeRequestsAreJudged_1 :
    let s : State := solo
    let t : Nat := 0
    let req : Request := host
    let m : Mode := .safe
    (Ready s t req 0x11 (writeBody (objId 1 0 0x31) (nat8 m.code))) ∧ (
      (s.group.role = .alone) ∧
      (m = .safe) ∧
      (s.modes.mode ≠ .safe)) :=
  ⟨ready_of_check (by decide +kernel), by decide +kernel⟩

theorem witness_ModeRequestsAreJudged_2 :
    let s : State := solo
    let t : Nat := 0
    let req : Request := host
    let m : Mode := .config
    (Ready s t req 0x11 (writeBody (objId 1 0 0x31) (nat8 m.code))) ∧ (
      let w := s.atWrite t req (objId 1 0 0x31) (nat8 m.code)
      (s.group.role = .alone) ∧
      (m ≠ s.modes.mode) ∧
      (m ≠ .safe) ∧
      (w.judgeMove m = .ok)) :=
  ⟨ready_of_check (by decide +kernel), by decide +kernel⟩

theorem witness_ModeRequestsAreJudged_3 :
    let s : State := { solo with group.role := .spare }
    let t : Nat := 0
    let req : Request := host
    let m : Mode := .config
    (Ready s t req 0x11 (writeBody (objId 1 0 0x31) (nat8 m.code))) ∧ (
      (s.group.role = .spare)) :=
  ⟨ready_of_check (by decide +kernel), by decide +kernel⟩

theorem witness_ModeRequestsAreJudged_4 :
    let s : State := { solo with modes.mode := .config }
    let t : Nat := 0
    let req : Request := host
    let m : Mode := .test
    (Ready s t req 0x11 (writeBody (objId 1 0 0x31) (nat8 m.code))) ∧ (
      let w := s.atWrite t req (objId 1 0 0x31) (nat8 m.code)
      (s.group.role = .alone) ∧
      (m ≠ s.modes.mode) ∧
      (w.judgeMove m = .wrongMode)) :=
  ⟨ready_of_check (by decide +kernel), by decide +kernel⟩

/-! ### The clauses of ModeMovesAreThoseOfTheTable -/

theorem witness_ModeMovesAreThoseOfTheTable_0 :
    let s : State := { solo with modes.mode := .config }
    let m : Mode := .idle
    (s.judgeMove m = .ok) ∧
    (m ≠ .safe) ∧
    (s.modes.mode = .config) :=
  by decide +kernel

theorem witness_ModeMovesAreThoseOfTheTable_1 :
    let s : State := { solo with modes.mode := .test }
    let m : Mode := .idle
    (s.judgeMove m = .ok) ∧
    (m ≠ .safe) ∧
    (s.modes.mode = .test) :=
  by decide +kernel

theorem witness_ModeMovesAreThoseOfTheTable_2 :
    let s : State := { solo with modes.mode := .safe }
    let m : Mode := .idle
    (s.judgeMove m = .ok) ∧
    (m ≠ .safe) ∧
    (s.modes.mode = .safe) :=
  by decide +kernel

theorem witness_ModeMovesAreThoseOfTheTable_3 :
    let s : State := solo
    let m : Mode := .config
    (s.judgeMove m = .ok) ∧
    (m ≠ .safe) ∧
    (m = .config) :=
  by decide +kernel

theorem witness_ModeMovesAreThoseOfTheTable_4 :
    let s : State := solo
    let m : Mode := .test
    (s.judgeMove m = .ok) ∧
    (m ≠ .safe) ∧
    (m = .test) :=
  by decide +kernel

theorem witness_ModeMovesAreThoseOfTheTable_5 :
    let s : State := fit
    let m : Mode := .joystick
    (s.judgeMove m = .ok) ∧
    (m ≠ .safe) ∧
    (m.positioning = true) :=
  by decide +kernel

theorem witness_ModeMovesAreThoseOfTheTable_6 :
    let s : State := fit
    let m : Mode := .station
    (s.judgeMove m = .ok) ∧
    (m ≠ .safe) ∧
    (m = .station ∨ m = .track) :=
  by decide +kernel

/-! ### The clauses of EntryToSafe -/

theorem witness_EntryToSafe_1 :
    let s : State := station
    (s.modes.mode ≠ .safe) :=
  by decide +kernel

theorem witness_EntryToSafe_2 :
    let s : State := { station with group.role := .spare }
    (s.modes.mode ≠ .safe) ∧
    (s.group.role = .spare) :=
  by decide +kernel

theorem witness_EntryToSafe_3 :
    let s : State := tb0At 60000000000 { station with modes.faultRestartAt := some 0 }
    let t : Nat := 0
    let a : Nat := 0
    (Running s) ∧
    (s.modes.faultRestartAt = some a) ∧
    ((s.clock t).now ≤ a + 60 * second) :=
  by decide +kernel

/-! ### The clauses of ColdStartEndsInItsFirstMode -/

theorem witness_ColdStartEndsInItsFirstMode_0 :
    let s : State := { State.reset with trust.floor := 0 }
    (s.modes.phase = .off) ∧
    (s.image.active.bytes = []) ∧
    (s.update.activation = none) ∧
    (s.verifyExt s.update.active false = none) :=
  by decide +kernel

theorem witness_ColdStartEndsInItsFirstMode_1 :
    let s : State := solo
    let t : Nat := 0
    let req : Request := host
    (Ready s t req 0x11 (writeBody (objId 1 0 0x33) [1])) ∧
    (s.modes.mode.positioning = false) :=
  ⟨ready_of_check (by decide +kernel), by decide +kernel⟩

/-! ### The clauses of RestartsBeginAndEnd -/

theorem witness_RestartsBeginAndEnd_0 :
    let s : State := on
    (Powered s) :=
  by decide +kernel

theorem witness_RestartsBeginAndEnd_1 :
    let s : State := solo
    let t : Nat := 0
    let req : Request := host
    (Ready s t req 0x11 (writeBody (objId 1 0 0x33) [1])) ∧
    (s.modes.mode.positioning = false) :=
  ⟨ready_of_check (by decide +kernel), by decide +kernel⟩

theorem witness_RestartsBeginAndEnd_2 :
    let s : State := { station with image.active.bytes := [1] }
    let t : Nat := 0
    let req : Request := host
    (Ready s t req 0x11 (writeBody (objId 1 0 0x33) [2])) ∧
    (s.imageState = 1) ∧ (
      let w := s.atWrite t req (objId 1 0 0x33) [2]
      let at_ := w.commandInstantFrom (w.tb3 + 50 * us)
      let x : State := { w with modes.restartPending := some .handover, modes.restartInstant := at_ }
      ((s.group.role ≠ .lead ∨ x.successor = none))) :=
  ⟨ready_of_check (by decide +kernel), by decide +kernel⟩

theorem witness_RestartsBeginAndEnd_3 :
    let s : State := { member .lead with image.active.bytes := [1], group.inStep := 4, group.peers := upd (member .lead).group.peers 2 fun p => { p with role := 1, lastValid := some 0 } }
    let t : Nat := 0
    let req : Request := host
    (Ready s t req 0x11 (writeBody (objId 1 0 0x33) [2])) ∧
    (s.imageState = 1) ∧ (
      let w := s.atWrite t req (objId 1 0 0x33) [2]
      let at_ := w.commandInstantFrom (w.tb3 + 50 * us)
      let x : State := { w with modes.restartPending := some .handover, modes.restartInstant := at_ }
      let m : Nat := 2
      (s.group.role = .lead) ∧
      (x.successor = some m)) :=
  ⟨ready_of_check (by decide +kernel), by decide +kernel⟩

theorem witness_RestartsBeginAndEnd_4 :
    let s : State := solo
    let t : Nat := 0
    (Running s) ∧ (
      let c := s.clock t
      let v := c.raise 11 (must := true)
      ((∀ a : Nat, c.modes.faultRestartAt = some a → a + 60 * second < c.now)) ∧
      ((v.group.role ≠ .lead ∨ v.successor = none))) :=
  ⟨by decide +kernel, nofun, by decide +kernel⟩

theorem witness_RestartsBeginAndEnd_5 :
    let s : State := { member .lead with image.active.bytes := [1], group.inStep := 4, group.peers := upd (member .lead).group.peers 2 fun p => { p with role := 1, lastValid := some 0 } }
    let t : Nat := 0
    (Running s) ∧ (
      let c := s.clock t
      let v := c.raise 11 (must := true)
      ((∀ a : Nat, c.modes.faultRestartAt = some a → a + 60 * second < c.now)) ∧ (
        let m : Nat := 2
        (v.group.role = .lead) ∧
        (v.successor = some m))) :=
  ⟨by decide +kernel, nofun, by decide +kernel⟩

theorem witness_RestartsBeginAndEnd_6 :
    let s : State := solo
    let t : Nat := 0
    (Running s) ∧ (
      let c := s.clock t
      let v := c.raise 12 (must := true)
      ((∀ a : Nat, c.modes.faultRestartAt = some a → a + 60 * second < c.now)) ∧
      ((v.group.role ≠ .lead ∨ v.successor = none))) :=
  ⟨by decide +kernel, nofun, by decide +kernel⟩

theorem witness_RestartsBeginAndEnd_7 :
    let s : State := { member .lead with image.active.bytes := [1], group.inStep := 4, group.peers := upd (member .lead).group.peers 2 fun p => { p with role := 1, lastValid := some 0 } }
    let t : Nat := 0
    (Running s) ∧ (
      let c := s.clock t
      let v := c.raise 12 (must := true)
      ((∀ a : Nat, c.modes.faultRestartAt = some a → a + 60 * second < c.now)) ∧ (
        let m : Nat := 2
        (v.group.role = .lead) ∧
        (v.successor = some m))) :=
  ⟨by decide +kernel, nofun, by decide +kernel⟩

theorem witness_RestartsBeginAndEnd_9 :
    let s : State := { on with modes.phase := .restarting }
    (s.modes.phase = .restarting) :=
  by decide +kernel

/-! ### The clauses of ImageCommitIsDeferred -/

theorem witness_ImageCommitIsDeferred_0 :
    let s : State := { on with modes.mode := .config, image.pending.bytes := [1] }
    let t : Nat := 0
    let req : Request := host
    let slot : BitVec 8 := 0
    (Ready s t req 0x30 (be8 slot ++ zeros 3)) ∧
    ((slot = 0 ∨ slot = 2)) ∧
    (s.modes.mode = .config) ∧
    (s.qcp.deferredCommit = none) ∧
    (s.image.verifying = none) ∧
    (s.image.slotBytes slot ≠ []) :=
  ⟨ready_of_check (by decide +kernel), by decide +kernel⟩

theorem witness_ImageCommitIsDeferred_1 :
    let s : State := { on with modes.mode := .config, image.verifying := some { slot := 0, req := host }, qcp.deferredCommit := some { req := host, opcode := 0x30 } }
    let t : Nat := 0
    (Running s) ∧ (
      let j : CommitJob := { slot := 0, req := host }
      let k : Command := { req := host, opcode := 0x30 }
      (s.image.verifying = some j) ∧
      (s.qcp.deferredCommit = some k) ∧ (
        let c := s.clock t
        let v : State := { c with image.verifying := none, qcp.deferredCommit := none }
        (s.modes.mode = .config) ∧ (
          let y := match v.verifyAndLoad (v.image.slotBytes j.slot) with
            | .ok x => (x.exchangeSlots j.slot).complete k.req 0x30 (j.slot.setWidth 32) c.qcp.deferredTb3.1 .ok ({} : ImgErr).body
            | .error e => (v.raise 3).complete k.req 0x30 (j.slot.setWidth 32) c.qcp.deferredTb3.1 e.status e.body
          (y.modes.restartPending ≠ some .cold)))) :=
  by decide +kernel

theorem witness_ImageCommitIsDeferred_2 :
    let s : State := { on with modes.mode := .config, image.verifying := some { slot := 0, req := host }, qcp.deferredCommit := some { req := host, opcode := 0x30 } }
    let t : Nat := 0
    (Running s) ∧ (
      let j : CommitJob := { slot := 0, req := host }
      let k : Command := { req := host, opcode := 0x30 }
      (s.image.verifying = some j) ∧
      (s.qcp.deferredCommit = some k) ∧ (
        let c := s.clock t
        let v : State := { c with image.verifying := none, qcp.deferredCommit := none }
        let e : ImgErr := { step := 2 }
        (s.modes.mode = .config) ∧
        (v.verifyAndLoad (v.image.slotBytes j.slot) = .error e) ∧
        (e.status ≠ .ok) ∧
        (s.modes.restartPending ≠ some .cold))) :=
  ⟨by decide +kernel, by decide +kernel, by decide +kernel, by decide +kernel, by rfl, by decide +kernel⟩

theorem witness_ImageCommitIsDeferred_3 :
    let s : State := tb0At 500000000 { on with modes.mode := .config, image.verifying := some { slot := 0, req := host }, qcp.deferredCommit := some { req := host, opcode := 0x30 } }
    let t : Nat := 0
    (Running s) ∧ (
      let j : CommitJob := { slot := 0, req := host }
      let k : Command := { req := host, opcode := 0x30 }
      (s.image.verifying = some j) ∧
      (s.qcp.deferredCommit = some k) ∧ (
        let c := s.clock t
        (j.startedAt + (500 * ms + 100 * ms * (if j.slot = 0 then s.image.pending else s.image.previous).bytes.length / 1048576) ≤ c.now))) :=
  by decide +kernel

theorem witness_ImageCommitIsDeferred_4 :
    let s : State := tb0At 100000000 { on with qcp.deferredAttest := some { req := host } }
    let t : Nat := 0
    (Running s) ∧ (
      let k : Command := { req := host }
      (s.qcp.deferredAttest = some k) ∧
      (s.qcp.deferredAt.2 + 100 * ms ≤ (s.clock t).now)) :=
  by decide +kernel

/-! ### The clauses of AbortStopsWhatPends -/

theorem witness_AbortStopsWhatPends_0 :
    let s : State := solo
    let t : Nat := 0
    let req : Request := host
    (Running s) ∧
    (s.modes.report.tb0At ≤ t) ∧
    (s.group.versionHold = false) ∧
    (req.modPort = 47000) ∧
    ((∀ x : Command, s.qcp.abortSlot = some x → x = { req := req, opcode := 0x12, body := be32 (objId 1 0 0x31), at_ := x.at_ })) ∧ (
      (s.pendingOf = none)) :=
  ⟨by decide +kernel, by decide +kernel, by decide +kernel, by decide +kernel, nofun, by decide +kernel⟩

theorem witness_AbortStopsWhatPends_1 :
    let s : State := { solo with modes.pendingMode := some .config }
    let t : Nat := 0
    let req : Request := host
    (Running s) ∧
    (s.modes.report.tb0At ≤ t) ∧
    (s.group.versionHold = false) ∧
    (req.modPort = 47000) ∧
    ((∀ x : Command, s.qcp.abortSlot = some x → x = { req := req, opcode := 0x12, body := be32 (objId 1 0 0x31), at_ := x.at_ })) ∧ (
      (s.pendingOf ≠ none) ∧
      ((s.route 4).fault = false) ∧
      ((s.route 5).fault = false)) :=
  ⟨by decide +kernel, by decide +kernel, by decide +kernel, by decide +kernel, nofun, by decide +kernel⟩

/-! ### The clauses of SupplyAndHoldup -/

theorem witness_SupplyAndHoldup_1 :
    let s : State := { on with power.aOk := false, power.bOk := false }
    let t : Nat := 0
    let c := s.clock t
    (Powered s) ∧
    (c.power.onHoldup = false) ∧
    (c.supplied = false) :=
  by decide +kernel

theorem witness_SupplyAndHoldup_2 :
    let s : State := { on with power.onHoldup := true, power.aOk := true }
    let t : Nat := 0
    let c := s.clock t
    (Powered s) ∧
    (c.power.onHoldup = true) ∧
    (c.supplied = true) ∧
    (c.recorder.geyserRunning = false) :=
  by decide +kernel

theorem witness_SupplyAndHoldup_3 :
    let s : State := { on with power.onHoldup := true }
    let t : Nat := 0
    let c := s.clock t
    (Powered s) ∧
    (c.power.onHoldup = true) :=
  by decide +kernel

theorem witness_SupplyAndHoldup_5 :
    let s : State := on
    (Powered s) :=
  by decide +kernel

theorem witness_SupplyAndHoldup_6 :
    let s : State := tb0At 10000000000 { on with power.hotSince := some 0 }
    let t : Nat := 0
    let c := s.clock t
    (Powered s) ∧ (
      let x : Nat := 0
      (c.power.overtemp = false) ∧
      (c.power.hotSince = some x) ∧
      (10 * second ≤ c.now - x)) :=
  by decide +kernel

theorem witness_SupplyAndHoldup_7 :
    let s : State := tb0At 10000000000 { on with power.overtemp := true, power.coolSince := some 0 }
    let t : Nat := 0
    let c := s.clock t
    (Powered s) ∧ (
      let x : Nat := 0
      (c.power.overtemp = true) ∧
      (c.power.coolSince = some x) ∧
      (10 * second ≤ c.now - x)) :=
  by decide +kernel

theorem witness_SupplyAndHoldup_8 :
    let s : State := on
    (Powered s) :=
  by decide +kernel

theorem witness_SupplyAndHoldup_9 :
    let s : State := { on with factory.optS := true }
    let t : Nat := 0
    let c := s.clock t
    (Powered s) ∧
    (c.factory.optS = true) :=
  by decide +kernel

end Sys2Proof.Tests
end

