-- ==== Sys2Proof/Tests/WitnessNet.lean ====
section
/-! SUPPORT. For each clause of a statement with hypotheses, a concrete state and operands that meet all of them together:
the group, the networks and the command protocol. `witness_<obligation>_<n>` is clause n, counted from 0. -/

namespace Sys2Proof.Tests
open Sys2Proof.Machine
set_option Elab.async false
set_option linter.unusedVariables false

/-! ### The clauses of GroupFramesAreTaken -/

theorem witness_GroupFramesAreTaken_0 :
    let s : State := member .spare
    let h : LlpHeader := head2
    let l : Fin 2 := 1
    (Running s) ∧
    (h.crcOk = true) ∧
    (h.sender.val ≠ s.me) ∧
    (h.link = some l) :=
  by decide +kernel

theorem witness_GroupFramesAreTaken_1 :
    let s : State := { (member .lead) with gcycle.roleSettled := true, group.links := .replicate 2 { up := true } }
    let t : Nat := 0
    let h : LlpHeader := head2
    let l : Fin 2 := 1
    (Running s) ∧
    (h.crcOk = true) ∧
    (h.sender.val ≠ s.me) ∧
    (h.link = some l) ∧ (
      let c := s.clock t
      let b : Hello := { role := 1 }
      (c.group.role = .lead) ∧
      (c.gcycle.roleSettled = true) ∧
      (c.gcycle.takeoverTest = none) ∧
      (b.role = 1) ∧
      (c.group.links[l].up = true)) :=
  by decide +kernel

theorem witness_GroupFramesAreTaken_2 :
    let s : State := member .spare
    let h : LlpHeader := head2
    let l : Fin 2 := 1
    (Running s) ∧
    (h.crcOk = true) ∧
    (h.sender.val ≠ s.me) ∧
    (h.link = some l) ∧ (
      let b : TimeBody := {}
      (b.echoTx = 0) ∧
      (b.echoRx = 0)) :=
  by decide +kernel

theorem witness_GroupFramesAreTaken_3 :
    let s : State := { (member .spare) with group.peers := upd (member .spare).group.peers 2 fun p => { p with role := 0, lastValid := some 0 } }
    let t : Nat := 0
    let h : LlpHeader := head2
    let l : Fin 2 := 1
    (Running s) ∧
    (h.crcOk = true) ∧
    (h.sender.val ≠ s.me) ∧
    (h.link = some l) ∧ (
      let c := s.clock t
      let v := c.heard h false
      let b : TimeBody := { tx := 5000, rx := 3000, echoTx := 1000, echoRx := 2000 }
      let w : State := { v with group.links := upd v.group.links l fun k => { k with lastTime := some (b.tx, b.rx) } }
      (c.group.role = .spare) ∧
      (v.leadIndex.toNat = h.sender.val) ∧
      ((b.echoTx ≠ 0 ∨ b.echoRx ≠ 0)) ∧ (
        let off := ((b.echoRx - b.echoTx) + (b.tx - b.rx) - at? c.time.linkAsym l).tdiv 2
        let x := State.correct { w with time.tb := upd w.time.tb 3 fun b => { b with source := 3, sourced := true } } 3 off
        ((x.tb3Held = true ∨ off.natAbs ≤ 100000)))) :=
  by decide +kernel

theorem witness_GroupFramesAreTaken_4 :
    let s : State := { (member .spare) with group.peers := upd (member .spare).group.peers 2 fun p => { p with role := 0, lastValid := some 0 } }
    let t : Nat := 0
    let h : LlpHeader := head2
    let l : Fin 2 := 1
    (Running s) ∧
    (h.crcOk = true) ∧
    (h.sender.val ≠ s.me) ∧
    (h.link = some l) ∧ (
      let c := s.clock t
      let v := c.heard h false
      let b : TimeBody := { tx := 3000000, rx := 1000, echoTx := 1000, echoRx := 2000 }
      let w : State := { v with group.links := upd v.group.links l fun k => { k with lastTime := some (b.tx, b.rx) } }
      (c.group.role = .spare) ∧
      (v.leadIndex.toNat = h.sender.val) ∧
      ((b.echoTx ≠ 0 ∨ b.echoRx ≠ 0)) ∧ (
        let off := ((b.echoRx - b.echoTx) + (b.tx - b.rx) - at? c.time.linkAsym l).tdiv 2
        let x := State.correct { w with time.tb := upd w.time.tb 3 fun b => { b with source := 3, sourced := true } } 3 off
        (x.tb3Held = false) ∧
        (100000 < off.natAbs))) :=
  by decide +kernel

theorem witness_GroupFramesAreTaken_5 :
    let s : State := member .spare
    let t : Nat := 0
    let h : LlpHeader := head2
    let l : Fin 2 := 1
    (Running s) ∧
    (h.crcOk = true) ∧
    (h.sender.val ≠ s.me) ∧
    (h.link = some l) ∧ (
      let c := s.clock t
      (c.group.role = .spare) ∧
      (c.gcycle.closed = none)) :=
  by decide +kernel

theorem witness_GroupFramesAreTaken_6 :
    let s : State := { (member .spare) with group.epoch := 1 }
    let t : Nat := 0
    let h : LlpHeader := head2
    let l : Fin 2 := 1
    (Running s) ∧
    (h.crcOk = true) ∧
    (h.sender.val ≠ s.me) ∧
    (h.link = some l) ∧ (
      let c := s.clock t
      (c.group.role = .spare) ∧
      (h.epoch.toNat < c.group.epoch.toNat)) :=
  by decide +kernel

theorem witness_GroupFramesAreTaken_7 :
    let s : State := { (member .spare) with gcycle.closed := some { } }
    let t : Nat := 0
    let h : LlpHeader := head2
    let l : Fin 2 := 1
    (Running s) ∧
    (h.crcOk = true) ∧
    (h.sender.val ≠ s.me) ∧
    (h.link = some l) ∧ (
      let c := s.clock t
      let b : LlpClose := {}
      (c.group.role = .spare) ∧
      (c.gcycle.closed = some b)) :=
  by decide +kernel

theorem witness_GroupFramesAreTaken_8 :
    let s : State := member .resync
    let t : Nat := 0
    let h : LlpHeader := head2
    let l : Fin 2 := 1
    (Running s) ∧
    (h.crcOk = true) ∧
    (h.sender.val ≠ s.me) ∧
    (h.link = some l) ∧ (
      let c := s.clock t
      (c.group.role = .resync) ∧
      (c.gcycle.copyApplied = false) ∧
      (c.group.epoch.toNat ≤ h.epoch.toNat) ∧
      (c.gcycle.closed = none)) :=
  by decide +kernel

theorem witness_GroupFramesAreTaken_9 :
    let s : State := member .spare
    let t : Nat := 0
    let h : LlpHeader := head2
    let l : Fin 2 := 1
    (Running s) ∧
    (h.crcOk = true) ∧
    (h.sender.val ≠ s.me) ∧
    (h.link = some l) ∧ (
      let c := s.clock t
      let b : LlpClose := { mode := 0 }
      (c.group.role = .spare) ∧
      (c.group.epoch.toNat ≤ h.epoch.toNat) ∧
      (b.writes = []) ∧
      (c.modes.mode ≠ .safe) ∧
      (c.gcycle.closed = none) ∧
      (b.mode.toNat = c.modes.mode.code) ∧
      (b.cycle = c.cycle.count) ∧
      (b.mask.getLsbD c.me = false)) :=
  by decide +kernel

theorem witness_GroupFramesAreTaken_10 :
    let s : State := { (member .spare) with cycle.count := 1 }
    let t : Nat := 0
    let h : LlpHeader := head2
    let l : Fin 2 := 1
    (Running s) ∧
    (h.crcOk = true) ∧
    (h.sender.val ≠ s.me) ∧
    (h.link = some l) ∧ (
      let c := s.clock t
      (h.cycle ≠ c.cycle.count)) :=
  by decide +kernel

theorem witness_GroupFramesAreTaken_11 :
    let s : State := { (member .spare) with cycle.acceptDone := true }
    let t : Nat := 0
    let h : LlpHeader := head2
    let l : Fin 2 := 1
    (Running s) ∧
    (h.crcOk = true) ∧
    (h.sender.val ≠ s.me) ∧
    (h.link = some l) ∧ (
      let c := s.clock t
      (h.cycle = c.cycle.count) ∧
      (c.cycle.acceptDone = true)) :=
  by decide +kernel

theorem witness_GroupFramesAreTaken_12 :
    let s : State := { (member .spare) with cycle.acceptDone := true }
    let t : Nat := 0
    let h : LlpHeader := head2
    let l : Fin 2 := 1
    (Running s) ∧
    (h.crcOk = true) ∧
    (h.sender.val ≠ s.me) ∧
    (h.link = some l) ∧ (
      let c := s.clock t
      let d : Word := 5
      (c.group.role = .spare) ∧
      (c.cycle.acceptDone = true) ∧
      (c.gcycle.ownDigest = none) ∧
      ((at? c.group.peers h.sender.val).commit ≠ some (h.cycle, d))) :=
  by decide +kernel

theorem witness_GroupFramesAreTaken_13 :
    let s : State := { (member .spare) with cycle.acceptDone := true, gcycle.ownDigest := some (0, 5), group.peers := upd (member .spare).group.peers 2 fun p => { p with role := 0 } }
    let t : Nat := 0
    let h : LlpHeader := head2
    let l : Fin 2 := 1
    (Running s) ∧
    (h.crcOk = true) ∧
    (h.sender.val ≠ s.me) ∧
    (h.link = some l) ∧ (
      let c := s.clock t
      let d : Word := 4
      let e : Word := 5
      (c.group.role = .spare) ∧
      (c.cycle.acceptDone = true) ∧
      (c.gcycle.ownDigest = some (h.cycle, e)) ∧
      (d ≠ e) ∧
      ((at? c.group.peers h.sender.val).role = 0) ∧
      ((at? c.group.peers h.sender.val).commit = none) ∧
      ((c.route 107).fault = false)) :=
  by decide +kernel

theorem witness_GroupFramesAreTaken_14 :
    let s : State := { (member .spare) with cycle.acceptDone := true }
    let t : Nat := 0
    let h : LlpHeader := head2
    let l : Fin 2 := 1
    (Running s) ∧
    (h.crcOk = true) ∧
    (h.sender.val ≠ s.me) ∧
    (h.link = some l) ∧ (
      let c := s.clock t
      let n : BitVec 8 := 1
      (n.toNat ≠ c.me) ∧
      (c.cycle.acceptDone = true)) :=
  by decide +kernel

theorem witness_GroupFramesAreTaken_15 :
    let s : State := { (member .spare) with cycle.acceptDone := true }
    let t : Nat := 0
    let h : LlpHeader := head2
    let l : Fin 2 := 1
    (Running s) ∧
    (h.crcOk = true) ∧
    (h.sender.val ≠ s.me) ∧
    (h.link = some l) ∧ (
      let c := s.clock t
      (c.cycle.acceptDone = true) ∧
      (c.gcycle.ownDigest = none)) :=
  by decide +kernel

/-! ### The clauses of ResyncCopiesTheState -/

theorem witness_ResyncCopiesTheState_0 :
    let s : State := member .lead
    let t : Nat := 0
    (Running s) ∧ (
      let c := s.clock t
      let h : LlpHeader := head2
      let l : Fin 2 := 1
      (h.crcOk = true) ∧
      (h.sender.val ≠ s.me) ∧
      (h.link = some l) ∧ (
        (c.group.role = .lead) ∧
        (c.cyc.period ≠ 0))) :=
  by decide +kernel

theorem witness_ResyncCopiesTheState_1 :
    let s : State := member .resync
    let t : Nat := 0
    (Running s) ∧ (
      let c := s.clock t
      let h : LlpHeader := head2
      let l : Fin 2 := 1
      (h.crcOk = true) ∧
      (h.sender.val ≠ s.me) ∧
      (h.link = some l) ∧ (
        (c.group.role = .resync) ∧
        (c.gcycle.copyApplied = false))) :=
  by decide +kernel

theorem witness_ResyncCopiesTheState_2 :
    let s : State := { (member .resync) with gcycle.copyPlan := some (7, 2), cycle.count := 8, gcycle.closed := some {} }
    let t : Nat := 0
    (Running s) ∧ (
      let c := s.clock t
      let h : LlpHeader := head2
      let l : Fin 2 := 1
      (h.crcOk = true) ∧
      (h.sender.val ≠ s.me) ∧
      (h.link = some l) ∧ (
        let j : Nat := 7
        let total : Nat := 2
        (c.group.role = .resync) ∧
        (c.gcycle.copyApplied = false) ∧
        (c.gcycle.copyPlan = some (j, total)) ∧
        (j < c.cycle.count) ∧
        (c.gcycle.closed.isSome = true))) :=
  by decide +kernel

theorem witness_ResyncCopiesTheState_3 :
    let s : State := { (member .resync) with gcycle.copyPlan := some (7, 2) }
    let t : Nat := 0
    (Running s) ∧ (
      let c := s.clock t
      let h : LlpHeader := head2
      let l : Fin 2 := 1
      (h.crcOk = true) ∧
      (h.sender.val ≠ s.me) ∧
      (h.link = some l) ∧ (
        let j : Nat := 7
        let total : Nat := 2
        let offset : Nat := 0
        let data : List Byte := [1]
        (c.group.role = .resync) ∧
        (c.gcycle.copyApplied = false) ∧
        (c.gcycle.copyPlan = some (j, total)) ∧
        ((j < c.cycle.count → c.gcycle.closed = none)) ∧ (
          let chunks := c.gcycle.copyBytes.filter (·.1 != offset) ++ [(offset, data)]
          ((chunks.map (·.2.length)).sum < total)))) :=
  by decide +kernel

theorem witness_ResyncCopiesTheState_4 :
    let s : State := { (member .resync) with gcycle.copyPlan := some (7, 1) }
    let t : Nat := 0
    (Running s) ∧ (
      let c := s.clock t
      let h : LlpHeader := head2
      let l : Fin 2 := 1
      (h.crcOk = true) ∧
      (h.sender.val ≠ s.me) ∧
      (h.link = some l) ∧ (
        let j : Nat := 7
        let total : Nat := 1
        let offset : Nat := 0
        let data : List Byte := [1]
        (c.group.role = .resync) ∧
        (c.gcycle.copyApplied = false) ∧
        (c.gcycle.copyPlan = some (j, total)) ∧
        ((j < c.cycle.count → c.gcycle.closed = none)) ∧ (
          let chunks := c.gcycle.copyBytes.filter (·.1 != offset) ++ [(offset, data)]
          (total ≤ (chunks.map (·.2.length)).sum)))) :=
  by decide +kernel

theorem witness_ResyncCopiesTheState_5 :
    let s : State := on
    let t : Nat := 0
    (Running s) ∧ (
      let c := s.clock t
      (c.time.tb[3].remaining = 0)) :=
  by decide +kernel

theorem witness_ResyncCopiesTheState_6 :
    let s : State := member .resync
    let t : Nat := 0
    (Running s) ∧ (
      let c := s.clock t
      (c.time.tb[3].remaining = 0) ∧ (
        (c.modes.mode ≠ .safe))) :=
  by decide +kernel

theorem witness_ResyncCopiesTheState_7 :
    let s : State := { (member .resync) with gcycle.copyPlan := some (7, 2), cycle.count := 9 }
    let t : Nat := 0
    (Running s) ∧ (
      let c := s.clock t
      let j : Nat := 7
      let total : Nat := 2
      (c.gcycle.copyPlan = some (j, total)) ∧
      (c.group.role = .resync) ∧
      (c.gcycle.copyApplied = false) ∧
      ((j + 1 < c.cycle.count ∨ (j + 1 = c.cycle.count ∧ (c.gcycle.closed.isSome = true ∨ c.exchangeLimit ≤ c.tb3)))) ∧
      (c.gcycle.resyncFailures < 4)) :=
  by decide +kernel

theorem witness_ResyncCopiesTheState_8 :
    let s : State := { (member .resync) with gcycle.retryAt := some 0, group.peers := upd (member .resync).group.peers 2 fun p => { p with role := 0, lastValid := some 0, versions := [3, 2, 2, 3, 4, 1] }, group.links := .replicate 2 { up := true, peer := 2, lastValid := some 0 } }
    let t : Nat := 0
    (Running s) ∧ (
      let c := s.clock t
      let k : Nat := 0
      (c.group.role = .resync) ∧
      (c.gcycle.retryAt = some k) ∧
      (k ≤ c.cycle.count) ∧
      (c.gcycle.requested = false) ∧
      (c.gcycle.resyncStopped = false) ∧
      (c.gcycle.copyApplied = false) ∧
      (c.leadIndex ≠ 0xF)) :=
  by decide +kernel

theorem witness_ResyncCopiesTheState_9 :
    let s : State := { (member .resync) with gcycle.copyApplied := true, group.stepCount := 50 }
    let t : Nat := 0
    (Running s) ∧ (
      let c := s.clock t
      (c.group.role = .resync) ∧
      (c.gcycle.copyApplied = true) ∧
      (50 ≤ c.group.stepCount) ∧
      ((c.route 107).fault = false)) :=
  by decide +kernel

/-! ### The clauses of GroupSupervision -/

theorem witness_GroupSupervision_0 :
    let s : State := { (member .spare) with group.links := .replicate 2 { up := true } }
    (Running s) ∧ (
      let h : LlpHeader := { sender := 2, link := some 1, crcOk := false }
      let l : Fin 2 := 1
      (h.crcOk = false) ∧
      (h.link = some l)) :=
  by decide +kernel

theorem witness_GroupSupervision_1 :
    let s : State := solo
    let t : Nat := 0
    (Running s) ∧ (
      let c := s.clock t
      let h : LlpHeader := { sender := 0, link := some 1 }
      (h.crcOk = true) ∧
      (h.sender.val = s.me) ∧
      (c.group.role = .alone)) :=
  by decide +kernel

theorem witness_GroupSupervision_2 :
    let s : State := { (member .spare) with group.links := .replicate 2 { up := true } }
    let t : Nat := 0
    (Running s) ∧ (
      let c := s.clock t
      let l : Fin 2 := 1
      (c.group.links[l].up = true)) :=
  by decide +kernel

theorem witness_GroupSupervision_3 :
    let s : State := tb3At 16000000 { (member .spare) with cycle.ticking := true, gcycle.closeDone := true, group.peers := upd (member .spare).group.peers 2 fun p => { p with role := 0 } }
    let t : Nat := 0
    (Running s) ∧ (
      let c := s.clock t
      let m : Nat := 2
      (c.group.role = .spare) ∧
      (c.successor = some c.me) ∧
      (c.cycle.ticking = true) ∧
      (c.cycle.tk + c.cyc.commandAt ≤ c.tb3 + 20 * us) ∧
      (c.group.backupPort = 0xFF) ∧
      ([0, 1, 2].find? (fun m => m != c.me && (at? c.group.peers m).role == 0) = some m) ∧
      ((at? c.group.peers m).commit = none) ∧
      (c.gcycle.closeDone = true) ∧
      ((c.route 107).fault = false) ∧
      ((c.route 108).fault = false)) :=
  by decide +kernel

theorem witness_GroupSupervision_4 :
    let s : State := tb3At 16000000 { (member .spare) with cycle.ticking := true, group.backupPort := 3, group.peers := upd (member .spare).group.peers 2 fun p => { p with role := 0, lastBackup := some 0 } }
    let t : Nat := 0
    (Running s) ∧ (
      let c := s.clock t
      let m : Nat := 2
      (c.group.role = .spare) ∧
      (c.successor = some c.me) ∧
      (c.cycle.ticking = true) ∧
      (c.cycle.tk + c.cyc.commandAt ≤ c.tb3 + 20 * us) ∧
      (c.group.backupPort ≠ 0xFF) ∧
      ([0, 1, 2].find? (fun m => m != c.me && (at? c.group.peers m).role == 0) = some m) ∧
      ((at? c.group.peers m).commit = none) ∧
      ((at? c.group.peers m).lastBackup.isSome = true) ∧
      (c.cycle.count ≤ (at? c.group.peers m).grantedBackup) ∧
      ((c.route 107).fault = false)) :=
  by decide +kernel

theorem witness_GroupSupervision_5 :
    let s : State := { (member .spare) with group.peers := upd (member .spare).group.peers 2 fun p => { p with role := 0, commit := some (0, 5) } }
    let t : Nat := 0
    (Running s) ∧ (
      let c := s.clock t
      let m : Nat := 2
      let d : Word := 5
      ([0, 1, 2].find? (fun m => m != c.me && (at? c.group.peers m).role == 0) = some m) ∧
      ((at? c.group.peers m).commit = some (c.cycle.count, d))) :=
  by decide +kernel

theorem witness_GroupSupervision_6 :
    let s : State := member .spare
    let t : Nat := 0
    (Running s) ∧ (
      let c := s.clock t
      (1 < c.cyc.groupSize) ∧
      (c.contacts = []) ∧
      (c.group.role ≠ .alone) ∧
      ((c.route 107).fault = false)) :=
  by decide +kernel

theorem witness_GroupSupervision_7 :
    let s : State := solo
    let t : Nat := 0
    (Running s) ∧ (
      let c := s.clock t
      (c.cyc.groupSize ≤ 1)) :=
  by decide +kernel

theorem witness_GroupSupervision_8 :
    let s : State := tb0At 2000000000 (member .spare)
    let t : Nat := 0
    (Running s) ∧ (
      let c := s.clock t
      (c.gcycle.roleSettled = false) ∧
      (c.gcycle.firstModeAt + 2 * second ≤ c.now)) :=
  by decide +kernel

theorem witness_GroupSupervision_9 :
    let s : State := tb0At 10000001 { (member .spare) with group.links := .replicate 2 { waitingSince := some 0 } }
    let t : Nat := 0
    (Running s) ∧ (
      let c := s.clock t
      let l : Fin 2 := 1
      let a : Nat := 0
      (c.group.links[l].waitingSince = some a) ∧
      (c.group.links[l].stallRaised = false) ∧
      (a + 10 * ms < c.now)) :=
  by decide +kernel

theorem witness_GroupSupervision_10 :
    let s : State := member .spare
    let t : Nat := 0
    (Running s) ∧ (
      let c := s.clock t
      (1 < c.cyc.groupSize) ∧
      (c.group.backupPort = 0xFF) ∧
      ((∀ a : Nat, c.gcycle.periodicAt = some a → a + ms ≤ c.now))) :=
  ⟨by decide +kernel, by decide +kernel, by decide +kernel, fun a h => nomatch (h : (none : Option Nat) = some a)⟩

theorem witness_GroupSupervision_11 :
    let s : State := { (member .spare) with gcycle.periodicAt := some 0 }
    let t : Nat := 0
    (Running s) ∧ (
      let c := s.clock t
      let a : Nat := 0
      (c.gcycle.periodicAt = some a) ∧
      (c.now < a + ms)) :=
  by decide +kernel

theorem witness_GroupSupervision_12 :
    let s : State := solo
    let t : Nat := 0
    (Running s) ∧ (
      let c := s.clock t
      (c.cyc.groupSize ≤ 1)) :=
  by decide +kernel

/-! ### The clauses of GroupObjectsTakeWrites -/

theorem witness_GroupObjectsTakeWrites_0 :
    let s : State := { (member .lead) with group.inStep := 4, group.peers := upd (member .lead).group.peers 2 fun p => { p with role := 1 } }
    let t : Nat := 0
    let req : Request := host
    let m : BitVec 8 := 2
    (Ready s t req 0x11 (writeBody (objId 0xB 0 6) [m])) ∧
    (s.group.role = .lead) ∧
    (s.inStepPeers.contains m.toNat = true) ∧
    ((at? s.group.peers m.toNat).role = 1) ∧
    ((s.route 107).fault = false) :=
  ⟨ready_of_check (by decide +kernel), by decide +kernel⟩

theorem witness_GroupObjectsTakeWrites_1 :
    let s : State := member .spare
    let t : Nat := 0
    let req : Request := host
    let m : BitVec 8 := 2
    (Ready s t req 0x11 (writeBody (objId 0xB 0 6) [m])) ∧
    (s.group.role = .spare) :=
  ⟨ready_of_check (by decide +kernel), by decide +kernel⟩

theorem witness_GroupObjectsTakeWrites_2 :
    let s : State := member .spare
    let t : Nat := 0
    let req : Request := host
    (Ready s t req 0x11 (writeBody (objId 0xB 0 7) [1])) ∧
    (s.group.role ≠ .resync) :=
  ⟨ready_of_check (by decide +kernel), by decide +kernel⟩

theorem witness_GroupObjectsTakeWrites_3 :
    let s : State := { on with modes.mode := .config }
    let t : Nat := 0
    let req : Request := host
    let v : BitVec 8 := 2
    (Ready s t req 0x11 (writeBody (objId 0xB 0 1) [v])) ∧
    (s.modes.mode = .config) ∧
    (v.toNat ≤ 2) :=
  ⟨ready_of_check (by decide +kernel), by decide +kernel⟩

/-! ### The clauses of SwitchFiltersAndForwards -/

theorem witness_SwitchFiltersAndForwards_0 :
    let s : State := { on with net.ports := on.net.ports.map fun p => { p with en := false } }
    let t : Nat := 0
    let n : Fin 7 := 6
    (Powered s) ∧ (
      let c := s.clock t
      let port := c.net.ports[n]
      (port.en = false)) :=
  by decide +kernel

theorem witness_SwitchFiltersAndForwards_1 :
    let s : State := { on with net.vlans := on.net.vlans.set 0 { vid := 1, members := 0x1F, untagged := 0x1F }, net.ports := on.net.ports.map fun p => { p with en := true } }
    let t : Nat := 0
    let n : Fin 7 := 6
    let f : SwitchFrame := { crcOk := false }
    (Powered s) ∧ (
      let c := s.clock t
      let port := c.net.ports[n]
      (port.en = true) ∧
      (f.crcOk = false)) :=
  by decide +kernel

theorem witness_SwitchFiltersAndForwards_2 :
    let s : State := { on with net.vlans := on.net.vlans.set 0 { vid := 1, members := 0x1F, untagged := 0x1F }, net.ports := on.net.ports.map fun p => { p with en := true } }
    let t : Nat := 0
    let n : Fin 7 := 5
    let f : SwitchFrame := {}
    (Powered s) ∧ (
      let c := s.clock t
      let port := c.net.ports[n]
      (port.en = true) ∧
      (f.crcOk = true) ∧
      (5 ≤ n.val)) :=
  by decide +kernel

theorem witness_SwitchFiltersAndForwards_3 :
    let s : State := { on with net.vlans := on.net.vlans.set 0 { vid := 1, members := 0x1F, untagged := 0x1F }, net.ports := on.net.ports.map fun p => { p with en := true } }
    let t : Nat := 0
    let n : Fin 7 := 4
    let f : SwitchFrame := { length := 1523 }
    (Powered s) ∧ (
      let c := s.clock t
      let port := c.net.ports[n]
      (port.en = true) ∧
      (f.crcOk = true) ∧
      (n.val < 5) ∧
      (1522 < f.length)) :=
  by decide +kernel

theorem witness_SwitchFiltersAndForwards_4 :
    let s : State := { on with net.vlans := on.net.vlans.set 0 { vid := 1, members := 0x0F } }
    let t : Nat := 0
    let n : Fin 7 := 4
    let f : SwitchFrame := { length := 1522 }
    (Powered s) ∧ (
      let c := s.clock t
      let port := c.net.ports[n]
      let vid : Nat := 1
      let pcp : Nat := 0
      (port.en = true) ∧
      (f.crcOk = true) ∧
      (n.val < 5) ∧
      (f.length ≤ 1522) ∧
      (port.classify f = some (vid, pcp)) ∧
      ((∀ e : VlanEntry, c.vlan? vid = some e → e.members.getLsbD n = false))) :=
  ⟨by decide +kernel, by decide +kernel, by decide +kernel, by decide +kernel, by decide +kernel, by decide +kernel, by intro e h; revert e; decide +kernel⟩

theorem witness_SwitchFiltersAndForwards_5 :
    let s : State := { on with net.vlans := on.net.vlans.set 0 { vid := 1, members := 0x1F, untagged := 0x1F }, net.ports := on.net.ports.map fun p => { p with en := true } }
    let t : Nat := 0
    let n : Fin 7 := 4
    let f : SwitchFrame := {}
    (Powered s) ∧ (
      let c := s.clock t
      let v := c.egressAll.setPort n fun p => { p with counters := upd p.counters 0 sat32 }
      let port := c.net.ports[n]
      let vid : Nat := 1
      let pcp : Nat := 0
      (port.en = true) ∧
      (f.crcOk = true) ∧
      (n.val < 5) ∧
      (f.length ≤ 1522) ∧
      (port.classify f = some (vid, pcp)) ∧ (
        let e : VlanEntry := { vid := 1, members := 0x1F, untagged := 0x1F }
        (c.vlan? vid = some e) ∧
        (e.members.getLsbD n = true) ∧
        ((v.storm n f).1 = true))) :=
  by decide +kernel

theorem witness_SwitchFiltersAndForwards_6 :
    let s : State := { on with net.ports := on.net.ports.map fun p => { p with stormLimit := 0 }, net.vlans := on.net.vlans.set 0 { vid := 1, members := 0x1F, untagged := 0x1F } }
    let t : Nat := 0
    let n : Fin 7 := 0
    let f : SwitchFrame := { dst := 0xFFFFFFFFFFFF }
    (Powered s) ∧ (
      let c := s.clock t
      let v := c.egressAll.setPort n fun p => { p with counters := upd p.counters 0 sat32 }
      let port := c.net.ports[n]
      let vid : Nat := 1
      let pcp : Nat := 0
      (port.en = true) ∧
      (f.crcOk = true) ∧
      (n.val < 5) ∧
      (f.length ≤ 1522) ∧
      (port.classify f = some (vid, pcp)) ∧ (
        let e : VlanEntry := { vid := 1, members := 0x1F, untagged := 0x1F }
        (c.vlan? vid = some e) ∧
        (e.members.getLsbD n = true) ∧
        ((v.storm n f).1 = false))) :=
  by decide +kernel

theorem witness_SwitchFiltersAndForwards_7 :
    let s : State := { on with net.vlans := on.net.vlans.set 0 { vid := 1, members := 0x1F, untagged := 0x1F }, net.ports := on.net.ports.map fun p => { p with en := true } }
    let t : Nat := 0
    let n : Fin 7 := 0
    let f : SwitchFrame := {}
    (Powered s) ∧ (
      let c := s.clock t
      let port := c.net.ports[n]
      let vid : Nat := 1
      let pcp : Nat := 0
      (port.en = true) ∧
      (f.crcOk = true) ∧
      (n.val < 5) ∧
      (f.length ≤ 1522) ∧
      (port.classify f = some (vid, pcp)) ∧ (
        let e : VlanEntry := { vid := 1, members := 0x1F, untagged := 0x1F }
        (c.vlan? vid = some e) ∧
        (e.members.getLsbD n = true) ∧
        (frameIsGroup f = false))) :=
  by decide +kernel

theorem witness_SwitchFiltersAndForwards_8 :
    let s : State := { on with net.vlans := on.net.vlans.set 0 { vid := 1, members := 0x1F, untagged := 0x1F }, net.ports := on.net.ports.map fun p => { p with en := true } }
    let t : Nat := 0
    let n : Fin 7 := 0
    let f : SwitchFrame := {}
    (Powered s) ∧ (
      let c := s.clock t
      let port := c.net.ports[n]
      let vid : Nat := 1
      let pcp : Nat := 0
      (port.en = true) ∧
      (f.crcOk = true) ∧
      (n.val < 5) ∧
      (f.length ≤ 1522) ∧
      (port.classify f = some (vid, pcp)) ∧ (
        let e : VlanEntry := { vid := 1, members := 0x1F, untagged := 0x1F }
        (c.vlan? vid = some e) ∧
        (e.members.getLsbD n = true))) :=
  by decide +kernel

theorem witness_SwitchFiltersAndForwards_9 :
    let s : State := { on with net.vlans := on.net.vlans.set 0 { vid := 1, members := 0x1F, untagged := 0x1F }, net.ports := on.net.ports.map fun p => { p with en := true } }
    let t : Nat := 0
    let n : Fin 7 := 0
    let f : SwitchFrame := { dst := 0xFFFFFFFFFFFF }
    (Powered s) ∧ (
      let c := s.clock t
      let port := c.net.ports[n]
      let vid : Nat := 1
      let pcp : Nat := 0
      (port.en = true) ∧
      (f.crcOk = true) ∧
      (n.val < 5) ∧
      (f.length ≤ 1522) ∧
      (port.classify f = some (vid, pcp)) ∧ (
        let e : VlanEntry := { vid := 1, members := 0x1F, untagged := 0x1F }
        (c.vlan? vid = some e) ∧
        (e.members.getLsbD n = true) ∧
        (frameIsGroup f = true))) :=
  by decide +kernel

/-! ### The clauses of EthernetInputsAreTaken -/

theorem witness_EthernetInputsAreTaken_0 :
    let s : State := on
    let t : Nat := 0
    (Powered s) ∧ (
      let c := s.clock t
      let n : Fin 4 := 3
      let v : BitVec 8 := 3
      ((at? c.net.ports n).status.getLsbD 0 ≠ (v &&& 3).getLsbD 0)) :=
  by decide +kernel

theorem witness_EthernetInputsAreTaken_1 :
    let s : State := on
    let t : Nat := 0
    (Powered s) ∧ (
      let c := s.clock t
      let n : Fin 4 := 3
      let v : BitVec 8 := 2
      ((at? c.net.ports n).status.getLsbD 0 = (v &&& 3).getLsbD 0)) :=
  by decide +kernel

theorem witness_EthernetInputsAreTaken_2 :
    let s : State := { on with net.ports := on.net.ports.map fun p => { p with en := false } }
    let t : Nat := 0
    (Powered s) ∧ (
      let c := s.clock t
      let n : Fin 4 := 3
      let dst : Addr := mapped4 0xFFFFFFFF
      (((at? c.net.ports n).en = false ∨ c.takesDestination dst = false))) :=
  by decide +kernel

theorem witness_EthernetInputsAreTaken_3 :
    let s : State := on
    let t : Nat := 0
    (Powered s) ∧ (
      let c := s.clock t
      let n : Fin 4 := 3
      let dst : Addr := mapped4 0xFFFFFFFF
      ((at? c.net.ports n).en = true) ∧
      (c.takesDestination dst = true)) :=
  by decide +kernel

theorem witness_EthernetInputsAreTaken_4 :
    let s : State := on
    let t : Nat := 0
    (Powered s) ∧ (
      let c := s.clock t
      let n : Fin 4 := 3
      let dst : Addr := mapped4 0xFFFFFFFF
      let u : BitVec 16 := 7
      let wanted := (c.ownPoints 10 n).filter fun p => p.period != 0 && p.selector == u.setWidth 32
      ((at? c.net.ports n).en = true) ∧
      (c.takesDestination dst = true) ∧
      (wanted = [])) :=
  by decide +kernel

theorem witness_EthernetInputsAreTaken_5 :
    let s : State := { loaded with image.loaded := some { plan with points := [{ id := 9, kind := 10, channel := 3, period := 20000000, selector := 7 }] }, cycle.stopped := false }
    let t : Nat := 0
    (Powered s) ∧ (
      let c := s.clock t
      let n : Fin 4 := 3
      let dst : Addr := mapped4 0xFFFFFFFF
      let u : BitVec 16 := 7
      let wanted := (c.ownPoints 10 n).filter fun p => p.period != 0 && p.selector == u.setWidth 32
      ((at? c.net.ports n).en = true) ∧
      (c.takesDestination dst = true) ∧
      (wanted ≠ []) ∧
      (Running s) ∧
      (c.net.ethWait = []) ∧
      (c.ethStops (c.ownPoints 10 n).length = false)) :=
  by decide +kernel

theorem witness_EthernetInputsAreTaken_6 :
    let s : State := { { loaded with image.loaded := some { plan with points := [{ id := 9, kind := 10, channel := 3, period := 20000000, selector := 7 }] }, cycle.stopped := false } with net.ethWait := [{ port := 3, stamp := 0 }] }
    let t : Nat := 0
    (Powered s) ∧ (
      let c := s.clock t
      let n : Fin 4 := 3
      let dst : Addr := mapped4 0xFFFFFFFF
      let u : BitVec 16 := 7
      let wanted := (c.ownPoints 10 n).filter fun p => p.period != 0 && p.selector == u.setWidth 32
      ((at? c.net.ports n).en = true) ∧
      (c.takesDestination dst = true) ∧
      (wanted ≠ []) ∧
      (Running s) ∧
      (c.net.ethWait ≠ [])) :=
  by decide +kernel

theorem witness_EthernetInputsAreTaken_7 :
    let s : State := { on with net.groups450 := 0, net.ports := on.net.ports.map fun p => { p with en := true } }
    let t : Nat := 0
    (Powered s) ∧ (
      let c := s.clock t
      let n : Fin 4 := 3
      let dst : Addr := mapped4 0xEFC00001
      let u : BitVec 16 := 60001
      (((at? c.net.ports n).en = false ∨ c.takesGroup dst u = false))) :=
  by decide +kernel

theorem witness_EthernetInputsAreTaken_8 :
    let s : State := { on with net.groups450 := 1 }
    let t : Nat := 0
    (Powered s) ∧ (
      let c := s.clock t
      let n : Fin 4 := 3
      let dst : Addr := mapped4 0xEFC00001
      let u : BitVec 16 := 60001
      let b : List Byte := []
      ((at? c.net.ports n).en = true) ∧
      (c.takesGroup dst u = true) ∧
      (b.take 6 ≠ [0x55, 0x64, 0x50, 0x62, 0x43, 0x00])) :=
  by decide +kernel

theorem witness_EthernetInputsAreTaken_9 :
    let s : State := { { loaded with image.loaded := some { plan with points := [{ id := 9, kind := 10, channel := 3, period := 20000000, selector := 7 }] }, cycle.stopped := false } with net.groups450 := 1 }
    let t : Nat := 0
    (Powered s) ∧ (
      let c := s.clock t
      let n : Fin 4 := 3
      let dst : Addr := mapped4 0xEFC00001
      let u : BitVec 16 := 60001
      let stamp : Nat := 0
      let b : List Byte := [0x55, 0x64, 0x50, 0x62, 0x43, 0x00]
      let d : EthIn := { port := n, stamp := stamp, lines := linesOf (b.drop 6) }
      ((at? c.net.ports n).en = true) ∧
      (c.takesGroup dst u = true) ∧
      (b.take 6 = [0x55, 0x64, 0x50, 0x62, 0x43, 0x00]) ∧
      (Running s) ∧
      (c.net.ethWait = []) ∧
      ((c.takeEth d).1 = none)) :=
  by decide +kernel

theorem witness_EthernetInputsAreTaken_10 :
    let s : State := { { loaded with image.loaded := some { plan with points := [{ id := 9, kind := 10, channel := 3, period := 20000000, selector := 7 }] }, cycle.stopped := false } with net.groups450 := 0x8000, net.ethWait := [{ port := 3, stamp := 0 }] }
    let t : Nat := 0
    (Powered s) ∧ (
      let c := s.clock t
      let n : Fin 4 := 3
      let dst : Addr := mapped4 0xEFC00010
      let u : BitVec 16 := 60016
      let b : List Byte := [0x55, 0x64, 0x50, 0x62, 0x43, 0x00]
      ((at? c.net.ports n).en = true) ∧
      (c.takesGroup dst u = true) ∧
      (b.take 6 = [0x55, 0x64, 0x50, 0x62, 0x43, 0x00]) ∧
      (Running s) ∧
      (c.net.ethWait ≠ [])) :=
  by decide +kernel

theorem witness_EthernetInputsAreTaken_11 :
    let s : State := tb0At 1000000000 { on with image.loaded := some { plan with points := [{ id := 9, kind := 9, period := 100000000 }], slices := [{ kind := 0, index := 15, points := [9] }] } }
    let t : Nat := 0
    (Powered s) ∧ (
      let c := s.clock t
      let n : Fin 16 := 15
      let i : Structure := { plan with points := [{ id := 9, kind := 9, period := 100000000 }], slices := [{ kind := 0, index := 15, points := [9] }] }
      let p : PointRec := { id := 9, kind := 9, period := 100000000 }
      (c.image.loaded = some i) ∧
      (i.thrusterPoint n c.me false = some p) ∧
      (c.net.feedbackLost[n] = false) ∧
      ((c.net.feedbackAt[n]).getD 0 + 3 * p.period ≤ c.now)) :=
  by decide +kernel

/-! ### The clauses of CanControllersConfineFaults -/

theorem witness_CanControllersConfineFaults_0 :
    let s : State := { on with net.can := upd on.net.can 3 fun k => { k with en := true, recCount := 127 } }
    let t : Nat := 0
    let n : Fin 4 := 3
    (Powered s) ∧ (
      let c := s.clock t
      let k := c.net.can[n]
      (k.en = true) ∧
      (k.busOff = false) ∧ (
        let f : CanFrame := {}
        ((f.fd = true → k.fdEn = true)) ∧
        (k.recCount < 128) ∧
        (k.tec < 128) ∧
        (k.passive = false) ∧
        (k.listenOnly = false) ∧
        ((∀ p ∈ c.canPoints n, p.selector ≠ BitVec.ofNat 32 (f.id.toNat + if f.extended then 2 ^ 31 else 0))))) :=
  by decide +kernel

theorem witness_CanControllersConfineFaults_1 :
    let s : State := { on with net.can := upd on.net.can 3 fun k => { k with en := true, listenOnly := true, rx := List.replicate 64 {} } }
    let t : Nat := 0
    let n : Fin 4 := 3
    (Powered s) ∧ (
      let c := s.clock t
      let k := c.net.can[n]
      (k.en = true) ∧
      (k.busOff = false) ∧ (
        let f : CanFrame := {}
        ((f.fd = true → k.fdEn = true)) ∧
        (k.recCount < 128) ∧
        (k.tec < 128) ∧
        (k.passive = false) ∧
        (k.listenOnly = true) ∧
        (64 ≤ k.rx.length) ∧
        (k.locked = false))) :=
  by decide +kernel

theorem witness_CanControllersConfineFaults_2 :
    let s : State := { on with cycle.stopped := true, cycle.released := true, net.can := upd on.net.can 3 fun k => { k with en := true, listenOnly := true } }
    let t : Nat := 0
    let n : Fin 4 := 3
    (Powered s) ∧ (
      let c := s.clock t
      let k := c.net.can[n]
      (k.en = true) ∧
      (k.busOff = false) ∧ (
        let f : CanFrame := {}
        ((f.fd = true → k.fdEn = true)) ∧
        (k.recCount < 128) ∧
        (k.tec < 128) ∧
        (k.passive = false) ∧
        (k.listenOnly = true) ∧
        (k.rx.length < 64) ∧
        (c.cycle.stopped = true) ∧
        (c.cycle.released = true) ∧
        (Running s))) :=
  by decide +kernel

theorem witness_CanControllersConfineFaults_3 :
    let s : State := { on with net.can := upd on.net.can 3 fun k => { k with en := true, tx := [{}], tec := 128 } }
    let t : Nat := 0
    let n : Fin 4 := 3
    (Powered s) ∧ (
      let c := s.clock t
      let k := c.net.can[n]
      (k.en = true) ∧
      (k.busOff = false) ∧ (
        let i : Nat := 0
        (k.head = some i) ∧
        (k.listenOnly = false) ∧
        (k.tec ≤ 128) ∧
        (k.recCount < 128) ∧
        (k.passive = false))) :=
  by decide +kernel

theorem witness_CanControllersConfineFaults_4 :
    let s : State := { on with net.can := upd on.net.can 3 fun k => { k with en := true, tx := [{ attempts := 2 }] } }
    let t : Nat := 0
    let n : Fin 4 := 3
    (Powered s) ∧ (
      let c := s.clock t
      let k := c.net.can[n]
      (k.en = true) ∧
      (k.busOff = false) ∧ (
        let i : Nat := 0
        let x : CanTx := { attempts := 2 }
        (k.head = some i) ∧
        (k.tx[i]? = some x) ∧
        (k.listenOnly = false) ∧
        (x.attempts < k.retryLimit.toNat))) :=
  by decide +kernel

theorem witness_CanControllersConfineFaults_5 :
    let s : State := { on with net.can := upd on.net.can 3 fun k => { k with en := true, tx := [{ attempts := 3 }] } }
    let t : Nat := 0
    let n : Fin 4 := 3
    (Powered s) ∧ (
      let c := s.clock t
      let k := c.net.can[n]
      (k.en = true) ∧
      (k.busOff = false) ∧ (
        let i : Nat := 0
        let x : CanTx := { attempts := 3 }
        (k.head = some i) ∧
        (k.tx[i]? = some x) ∧
        (k.listenOnly = false) ∧
        (k.retryLimit.toNat ≤ x.attempts))) :=
  by decide +kernel

theorem witness_CanControllersConfineFaults_6 :
    let s : State := { on with net.can := upd on.net.can 3 fun k => { k with en := true, recCount := 126 } }
    let t : Nat := 0
    let n : Fin 4 := 3
    (Powered s) ∧ (
      let c := s.clock t
      let k := c.net.can[n]
      (k.en = true) ∧
      (k.busOff = false) ∧ (
        let e : BitVec 4 := 1
        (e ≠ 0) ∧
        (e.toNat ≤ 6) ∧
        (k.recCount < 127) ∧
        (k.tec < 128) ∧
        (k.passive = false))) :=
  by decide +kernel

theorem witness_CanControllersConfineFaults_7 :
    let s : State := { on with net.can := upd on.net.can 3 fun k => { k with en := true, tx := [{}], tec := 248 } }
    let t : Nat := 0
    let n : Fin 4 := 3
    (Powered s) ∧ (
      let c := s.clock t
      let k := c.net.can[n]
      (k.en = true) ∧
      (k.busOff = false) ∧ (
        let i : Nat := 0
        let e : BitVec 4 := 1
        (k.head = some i) ∧
        (k.listenOnly = false) ∧
        (e ≠ 0) ∧
        (e ≠ 3) ∧
        (e.toNat ≤ 6) ∧
        (248 ≤ k.tec) ∧
        ((c.route 98).fault = false) ∧
        ((c.route 99).fault = false))) :=
  by decide +kernel

/-! ### The clauses of CanObjectsTakeWrites -/

theorem witness_CanObjectsTakeWrites_0 :
    let s : State := tb0At 1000000000 { on with net.can := upd on.net.can 3 fun k => { k with en := true, busOff := true, recovering := true } }
    let t : Nat := 0
    let n : Fin 4 := 3
    (Powered s) ∧ (
      let c := s.clock t
      (c.net.can[n].en = true) ∧
      (c.net.can[n].busOff = true) ∧
      (c.net.can[n].recovering = true) ∧
      (c.net.can[n].recoverAt + 1408 * c.net.can[n].nbt.bitTime ≤ c.now)) :=
  by decide +kernel

theorem witness_CanObjectsTakeWrites_1 :
    let s : State := { on with net.can := upd on.net.can 3 fun k => { k with en := true, busOff := true } }
    let t : Nat := 0
    let n : Fin 4 := 3
    let req : Request := host
    (s.net.can[n].en = true) ∧
    (s.net.can[n].fdEn = true) ∧ (
      let v := nat32 (s.net.can[n].word + 256)
      (Ready s t req 0x11 (writeBody (objId 0x0A (0x20 + n) 0) v))) :=
  ⟨by decide +kernel, by decide +kernel, ready_of_check (by decide +kernel)⟩

theorem witness_CanObjectsTakeWrites_2 :
    let s : State := on
    let t : Nat := 0
    let n : Fin 4 := 3
    let req : Request := host
    let id : BitVec 29 := 0x7FF
    let ext : Bool := false
    let brs : Bool := true
    let len : Nat := 64
    let data : List Byte := List.replicate 64 1
    (data.length = 64) ∧
    (canLengths.contains len = true) ∧
    ((ext = true ∨ id.toNat ≤ 0x7FF)) ∧
    (s.net.can[n].tx.length < 16) ∧ (
      let v := nat32 (id.toNat + if ext then 2 ^ 31 else 0) ++ nat8 (if brs then 3 else 1) ++ nat8 len ++ zeros 2 ++ data
      (Ready s t req 0x11 (writeBody (objId 0x0A (0x20 + n) 5) v))) :=
  ⟨by decide +kernel, by decide +kernel, by decide +kernel, by decide +kernel, ready_of_check (by decide +kernel)⟩

theorem witness_CanObjectsTakeWrites_3 :
    let s : State := on
    let t : Nat := 0
    let n : Fin 4 := 3
    let req : Request := host
    let v : Word := 0x08C63232
    (Ready s t req 0x11 (writeBody (objId 0x0A (0x20 + n) 1) (be32 v))) ∧
    (s.modes.mode.positioning = false) ∧
    (s.net.can[n].en = false) ∧
    (v.getLsbD 0 = false) ∧
    (timingOk (nbtOf v.toNat) s.net.can[n].dbt = true) :=
  ⟨ready_of_check (by decide +kernel), by decide +kernel⟩

/-! ### The clauses of SerialPortsReadSentences -/

theorem witness_SerialPortsReadSentences_0 :
    let s : State := on
    let t : Nat := 0
    let n : Fin 8 := 7
    (Powered s) ∧ (
      let c := s.clock t
      let p := c.net.ser[n]
      (p.rx.length < 2048)) :=
  by decide +kernel

theorem witness_SerialPortsReadSentences_1 :
    let s : State := { on with net.ser := upd on.net.ser 7 fun p => { p with rx := List.replicate 2048 {} } }
    let t : Nat := 0
    let n : Fin 8 := 7
    (Powered s) ∧ (
      let c := s.clock t
      let p := c.net.ser[n]
      (2048 ≤ p.rx.length) ∧
      (p.overrunRun = false)) :=
  by decide +kernel

theorem witness_SerialPortsReadSentences_2 :
    let s : State := on
    let t : Nat := 0
    let n : Fin 8 := 7
    (Powered s) ∧ (
      let c := s.clock t
      let p := c.net.ser[n]
      (takeSentence p.rx = none)) :=
  by decide +kernel

theorem witness_SerialPortsReadSentences_3 :
    let s : State := { on with net.ser := upd on.net.ser 7 fun p => { p with rx := [0x24, 0x0A].map fun c => { char := c } } }
    let t : Nat := 0
    let n : Fin 8 := 7
    (Powered s) ∧ (
      let c := s.clock t
      let p := c.net.ser[n]
      let read : List SerByte := [0x24, 0x0A].map fun c => { char := c }
      let rest : List SerByte := []
      (Running s) ∧
      (c.cycle.stopped = false) ∧
      (takeSentence p.rx = some (read, rest)) ∧
      ((∀ b ∈ read, b.lostBefore = false ∧ b.lineError = false)) ∧
      ((read.head?.map (·.char)) = some 0x24) ∧
      (sentenceBody (read.map (·.char)) p.checksumRequired = none) ∧
      (p.rejectRun = false)) :=
  by decide +kernel

theorem witness_SerialPortsReadSentences_4 :
    let s : State := { on with cycle.released := true, net.ser := upd on.net.ser 7 fun p => { p with rx := ([(0x24 : Byte)] ++ List.replicate 13 0x41 ++ [0x0D, 0x0A]).map fun c => { char := c }, checksumRequired := false } }
    let t : Nat := 0
    let n : Fin 8 := 7
    (Powered s) ∧ (
      let c := s.clock t
      let p := c.net.ser[n]
      let read : List SerByte := ([(0x24 : Byte)] ++ List.replicate 13 0x41 ++ [0x0D, 0x0A]).map fun c => { char := c }
      let rest : List SerByte := []
      (Running s) ∧
      (c.cycle.stopped = false) ∧
      (takeSentence p.rx = some (read, rest)) ∧
      ((∀ b ∈ read, b.lostBefore = false ∧ b.lineError = false)) ∧
      ((read.head?.map (·.char)) = some 0x24) ∧ (
        let text : List Byte := List.replicate 13 0x41
        (sentenceBody (read.map (·.char)) p.checksumRequired = some text) ∧
        (c.ownPoints 8 n = []) ∧
        (c.cycle.released = true))) :=
  by decide +kernel

theorem witness_SerialPortsReadSentences_5 :
    let s : State := { on with net.ser := upd on.net.ser 7 fun p => { p with txEn := true, tx := [] } }
    let t : Nat := 0
    let n : Fin 8 := 7
    (Powered s) ∧ (
      let req : Request := host
      let v : List Byte := List.replicate 77 0x41
      (Ready s t req 0x11 (writeBody (objId 0x0A (0x30 + n) 2) v)) ∧
      (11 ≤ v.length) ∧
      (v.length ≤ 77) ∧
      (s.net.ser[n].txEn = true) ∧
      (s.net.ser[n].tx = [])) :=
  ⟨by decide +kernel, ready_of_check (by decide +kernel), by decide +kernel⟩

/-! ### The clauses of ArrivingFramesAreChecked -/

theorem witness_ArrivingFramesAreChecked_0 :
    let s : State := { on with net.ports := on.net.ports.map fun p => { p with en := false } }
    let t : Nat := 0
    let req : Request := { host with ingress := 0x13 }
    (Running s) ∧
    (s.modes.report.tb0At ≤ t) ∧ (
      ((at? s.net.ports (req.ingress.toNat - 0x10)).en = false)) :=
  by decide +kernel

theorem witness_ArrivingFramesAreChecked_1 :
    let s : State := { on with net.ports := on.net.ports.map (fun p => { p with en := true }) }
    let t : Nat := 0
    let req : Request := { host with ingress := 0x13, modPort := 47001 }
    (Running s) ∧
    (s.modes.report.tb0At ≤ t) ∧ (
      ((at? s.net.ports (req.ingress.toNat - 0x10)).en = true) ∧
      (req.modPort = 47001)) :=
  by decide +kernel

theorem witness_ArrivingFramesAreChecked_2 :
    let s : State := { on with net.ports := on.net.ports.map (fun p => { p with en := true }) }
    let t : Nat := 0
    let req : Request := { host with ingress := 0x13 }
    let frame : List Byte := frameOf 1 [] ++ [0]
    (Running s) ∧
    (s.modes.report.tb0At ≤ t) ∧ (
      let n := frame.length
      let whole : Prop := 20 ≤ n ∧ fieldAt frame 0 2 = 0x5158 ∧ fieldAt frame 12 4 = n - 20 ∧
        (crc32c (frame.take (n - 4))).toNat = fieldAt frame (n - 4) 4
      let hostPort : Prop := req.modPort = 47000 ∨ req.modPort = 47002
      ((at? s.net.ports (req.ingress.toNat - 0x10)).en = true) ∧
      (hostPort) ∧
      (¬ whole) ∧
      (req.dtls = none)) :=
  by decide +kernel

theorem witness_ArrivingFramesAreChecked_3 :
    let s : State := { on with net.ports := on.net.ports.map (fun p => { p with en := true }), qcp.security := 0x80 }
    let t : Nat := 0
    let req : Request := { host with ingress := 0x13 }
    let frame : List Byte := frameOf 1 []
    (Running s) ∧
    (s.modes.report.tb0At ≤ t) ∧ (
      let n := frame.length
      let whole : Prop := 20 ≤ n ∧ fieldAt frame 0 2 = 0x5158 ∧ fieldAt frame 12 4 = n - 20 ∧
        (crc32c (frame.take (n - 4))).toNat = fieldAt frame (n - 4) 4
      let hostPort : Prop := req.modPort = 47000 ∨ req.modPort = 47002
      ((at? s.net.ports (req.ingress.toNat - 0x10)).en = true) ∧
      (hostPort) ∧
      (whole) ∧
      (req.dtls = none) ∧
      (s.portSecurity req.ingress = 2)) :=
  by decide +kernel

theorem witness_ArrivingFramesAreChecked_4 :
    let s : State := { on with net.ports := on.net.ports.map (fun p => { p with en := true }), qcp.security := 0 }
    let t : Nat := 0
    let req : Request := { host with ingress := 0x13, dtls := some 5 }
    (Running s) ∧
    (s.modes.report.tb0At ≤ t) ∧ (
      let hostPort : Prop := req.modPort = 47000 ∨ req.modPort = 47002
      ((at? s.net.ports (req.ingress.toNat - 0x10)).en = true) ∧ (
        let id : Nat := 5
        (hostPort) ∧
        (req.dtls = some id) ∧
        (s.portSecurity req.ingress = 0))) :=
  by decide +kernel

theorem witness_ArrivingFramesAreChecked_5 :
    let s : State := { on with net.ports := on.net.ports.map (fun p => { p with en := true }), qcp.security := 0xFF }
    let t : Nat := 0
    let req : Request := { host with ingress := 0x13, dtls := some 5 }
    (Running s) ∧
    (s.modes.report.tb0At ≤ t) ∧ (
      let hostPort : Prop := req.modPort = 47000 ∨ req.modPort = 47002
      ((at? s.net.ports (req.ingress.toNat - 0x10)).en = true) ∧ (
        let id : Nat := 5
        (hostPort) ∧
        (req.dtls = some id) ∧
        (s.portSecurity req.ingress ≠ 0) ∧
        ((∀ a ∈ s.qcp.associations, ¬ (a.id = id ∧ a.src = req.src ∧ a.port = req.port))))) :=
  by decide +kernel

theorem witness_ArrivingFramesAreChecked_6 :
    let s : State := { on with net.ports := on.net.ports.map (fun p => { p with en := true }), qcp.security := 0xFF, qcp.associations := [{ id := 5, src := host.src, port := host.port }] }
    let t : Nat := 0
    let req : Request := { host with ingress := 0x13, dtls := some 5 }
    (Running s) ∧
    (s.modes.report.tb0At ≤ t) ∧ (
      let hostPort : Prop := req.modPort = 47000 ∨ req.modPort = 47002
      ((at? s.net.ports (req.ingress.toNat - 0x10)).en = true) ∧ (
        let id : Nat := 5
        (hostPort) ∧
        (req.dtls = some id))) :=
  by decide +kernel

theorem witness_ArrivingFramesAreChecked_7 :
    let s : State := { on with net.ports := on.net.ports.map (fun p => { p with en := true }), qcp.cache := cached.qcp.cache }
    let t : Nat := 0
    let req : Request := { host with ingress := 0x13 }
    let frame : List Byte := frameOf 1 []
    (Running s) ∧
    (s.modes.report.tb0At ≤ t) ∧ (
      let c := s.clock t
      let n := frame.length
      let op := fieldAt frame 8 2
      let whole : Prop := 20 ≤ n ∧ fieldAt frame 0 2 = 0x5158 ∧ fieldAt frame 12 4 = n - 20 ∧
        (crc32c (frame.take (n - 4))).toNat = fieldAt frame (n - 4) 4
      let r : Request := { req with
        seq := BitVec.ofNat 32 (fieldAt frame 4 4), crc := BitVec.ofNat 32 (fieldAt frame (n - 4) 4) }
      let same (x : Request) : Prop := x.src = r.src ∧ x.port = r.port ∧ x.seq = r.seq ∧ x.crc = r.crc
      let known : Prop := (∃ e ∈ s.qcp.cache, c.now ≤ e.at_ + 2 * second ∧ same e.resp.req)
      let hostPort : Prop := req.modPort = 47000 ∨ req.modPort = 47002
      ((at? s.net.ports (req.ingress.toNat - 0x10)).en = true) ∧
      (hostPort) ∧
      (whole) ∧
      (req.dtls = none) ∧
      (s.portSecurity req.ingress ≠ 2) ∧
      ((op < 0x80 ∨ 0x85 < op)) ∧
      (known)) :=
  by decide +kernel

theorem witness_ArrivingFramesAreChecked_8 :
    let s : State := { on with net.ports := on.net.ports.map (fun p => { p with en := true }), qcp.queue := cached.qcp.cache.map fun e => { req := e.resp.req } }
    let t : Nat := 0
    let req : Request := { host with ingress := 0x13 }
    let frame : List Byte := frameOf 1 []
    (Running s) ∧
    (s.modes.report.tb0At ≤ t) ∧ (
      let c := s.clock t
      let n := frame.length
      let op := fieldAt frame 8 2
      let whole : Prop := 20 ≤ n ∧ fieldAt frame 0 2 = 0x5158 ∧ fieldAt frame 12 4 = n - 20 ∧
        (crc32c (frame.take (n - 4))).toNat = fieldAt frame (n - 4) 4
      let r : Request := { req with
        seq := BitVec.ofNat 32 (fieldAt frame 4 4), crc := BitVec.ofNat 32 (fieldAt frame (n - 4) 4) }
      let same (x : Request) : Prop := x.src = r.src ∧ x.port = r.port ∧ x.seq = r.seq ∧ x.crc = r.crc
      let known : Prop := (∃ e ∈ s.qcp.cache, c.now ≤ e.at_ + 2 * second ∧ same e.resp.req)
      let hostPort : Prop := req.modPort = 47000 ∨ req.modPort = 47002
      let waits : Prop := ∃ x ∈ s.qcp.deferredCommit.toList ++ s.qcp.deferredAttest.toList ++ s.qcp.abortSlot.toList ++ s.qcp.queue,
        same x.req
      ((at? s.net.ports (req.ingress.toNat - 0x10)).en = true) ∧
      (hostPort) ∧
      (whole) ∧
      (req.dtls = none) ∧
      (s.portSecurity req.ingress ≠ 2) ∧
      ((op < 0x80 ∨ 0x85 < op)) ∧
      (¬ known) ∧
      (waits)) :=
  by decide +kernel

theorem witness_ArrivingFramesAreChecked_9 :
    let s : State := { on with net.ports := on.net.ports.map (fun p => { p with en := true }) }
    let t : Nat := 0
    let req : Request := { host with ingress := 0x13 }
    let frame : List Byte := frameOf 1 [] 0x22
    (Running s) ∧
    (s.modes.report.tb0At ≤ t) ∧ (
      let c := s.clock t
      let n := frame.length
      let op := fieldAt frame 8 2
      let whole : Prop := 20 ≤ n ∧ fieldAt frame 0 2 = 0x5158 ∧ fieldAt frame 12 4 = n - 20 ∧
        (crc32c (frame.take (n - 4))).toNat = fieldAt frame (n - 4) 4
      let r : Request := { req with
        seq := BitVec.ofNat 32 (fieldAt frame 4 4), crc := BitVec.ofNat 32 (fieldAt frame (n - 4) 4) }
      let same (x : Request) : Prop := x.src = r.src ∧ x.port = r.port ∧ x.seq = r.seq ∧ x.crc = r.crc
      let known : Prop := (∃ e ∈ s.qcp.cache, c.now ≤ e.at_ + 2 * second ∧ same e.resp.req)
      let hostPort : Prop := req.modPort = 47000 ∨ req.modPort = 47002
      let waits : Prop := ∃ x ∈ s.qcp.deferredCommit.toList ++ s.qcp.deferredAttest.toList ++ s.qcp.abortSlot.toList ++ s.qcp.queue,
        same x.req
      ((at? s.net.ports (req.ingress.toNat - 0x10)).en = true) ∧
      (hostPort) ∧
      (whole) ∧
      (req.dtls = none) ∧
      (s.portSecurity req.ingress ≠ 2) ∧
      ((op < 0x80 ∨ 0x85 < op)) ∧
      (¬ known) ∧
      (¬ waits) ∧
      (fieldAt frame 2 1 / 16 ≠ 3)) :=
  by decide +kernel

theorem witness_ArrivingFramesAreChecked_10 :
    let s : State := { on with net.ports := on.net.ports.map (fun p => { p with en := true }) }
    let t : Nat := 0
    let req : Request := { host with ingress := 0x13 }
    let frame : List Byte := frameOf 2 []
    (Running s) ∧
    (s.modes.report.tb0At ≤ t) ∧ (
      let c := s.clock t
      let n := frame.length
      let op := fieldAt frame 8 2
      let body := sliceAt frame 16 (n - 20)
      let whole : Prop := 20 ≤ n ∧ fieldAt frame 0 2 = 0x5158 ∧ fieldAt frame 12 4 = n - 20 ∧
        (crc32c (frame.take (n - 4))).toNat = fieldAt frame (n - 4) 4
      let r : Request := { req with
        seq := BitVec.ofNat 32 (fieldAt frame 4 4), crc := BitVec.ofNat 32 (fieldAt frame (n - 4) 4) }
      let same (x : Request) : Prop := x.src = r.src ∧ x.port = r.port ∧ x.seq = r.seq ∧ x.crc = r.crc
      let known : Prop := (∃ e ∈ s.qcp.cache, c.now ≤ e.at_ + 2 * second ∧ same e.resp.req)
      let hostPort : Prop := req.modPort = 47000 ∨ req.modPort = 47002
      let waits : Prop := ∃ x ∈ s.qcp.deferredCommit.toList ++ s.qcp.deferredAttest.toList ++ s.qcp.abortSlot.toList ++ s.qcp.queue,
        same x.req
      ((at? s.net.ports (req.ingress.toNat - 0x10)).en = true) ∧
      (hostPort) ∧
      (whole) ∧
      (req.dtls = none) ∧
      (s.portSecurity req.ingress ≠ 2) ∧
      ((op < 0x80 ∨ 0x85 < op)) ∧
      (¬ known) ∧
      (¬ waits) ∧
      (fieldAt frame 2 1 / 16 = 3) ∧
      ((fieldAt frame 3 1 ≠ 0 ∨ fieldAt frame 11 1 ≠ 0 ∨ portTakes op req.modPort = false ∨ bodyFits op body ≠ some true ∨ reservedZero op body = false ∨ bodyLimit req < body.length))) :=
  by decide +kernel

theorem witness_ArrivingFramesAreChecked_11 :
    let s : State := { on with net.ports := on.net.ports.map (fun p => { p with en := true }), qcp.queue := List.replicate 31 {} }
    let t : Nat := 0
    let req : Request := { host with ingress := 0x13 }
    let frame : List Byte := frameOf 1 []
    (Running s) ∧
    (s.modes.report.tb0At ≤ t) ∧ (
      let c := s.clock t
      let n := frame.length
      let op := fieldAt frame 8 2
      let body := sliceAt frame 16 (n - 20)
      let whole : Prop := 20 ≤ n ∧ fieldAt frame 0 2 = 0x5158 ∧ fieldAt frame 12 4 = n - 20 ∧
        (crc32c (frame.take (n - 4))).toNat = fieldAt frame (n - 4) 4
      let r : Request := { req with
        seq := BitVec.ofNat 32 (fieldAt frame 4 4), crc := BitVec.ofNat 32 (fieldAt frame (n - 4) 4) }
      let same (x : Request) : Prop := x.src = r.src ∧ x.port = r.port ∧ x.seq = r.seq ∧ x.crc = r.crc
      let known : Prop := (∃ e ∈ s.qcp.cache, c.now ≤ e.at_ + 2 * second ∧ same e.resp.req)
      let hostPort : Prop := req.modPort = 47000 ∨ req.modPort = 47002
      let waits : Prop := ∃ x ∈ s.qcp.deferredCommit.toList ++ s.qcp.deferredAttest.toList ++ s.qcp.abortSlot.toList ++ s.qcp.queue,
        same x.req
      ((at? s.net.ports (req.ingress.toNat - 0x10)).en = true) ∧
      (hostPort) ∧
      (whole) ∧
      (req.dtls = none) ∧
      (s.portSecurity req.ingress ≠ 2) ∧
      ((op < 0x80 ∨ 0x85 < op)) ∧
      (¬ known) ∧
      (¬ waits) ∧
      (fieldAt frame 2 1 / 16 = 3) ∧
      (fieldAt frame 3 1 = 0) ∧
      (fieldAt frame 11 1 = 0) ∧
      (portTakes op req.modPort = true) ∧
      (bodyFits op body = some true) ∧
      (reservedZero op body = true) ∧
      (body.length ≤ bodyLimit req) ∧
      (op ≠ 0x12) ∧
      (s.qcp.queue.length < 32)) :=
  by decide +kernel

theorem witness_ArrivingFramesAreChecked_12 :
    let s : State := { on with net.ports := on.net.ports.map (fun p => { p with en := true }), qcp.queue := List.replicate 32 {} }
    let t : Nat := 0
    let req : Request := { host with ingress := 0x13 }
    let frame : List Byte := frameOf 1 []
    (Running s) ∧
    (s.modes.report.tb0At ≤ t) ∧ (
      let c := s.clock t
      let n := frame.length
      let op := fieldAt frame 8 2
      let body := sliceAt frame 16 (n - 20)
      let whole : Prop := 20 ≤ n ∧ fieldAt frame 0 2 = 0x5158 ∧ fieldAt frame 12 4 = n - 20 ∧
        (crc32c (frame.take (n - 4))).toNat = fieldAt frame (n - 4) 4
      let r : Request := { req with
        seq := BitVec.ofNat 32 (fieldAt frame 4 4), crc := BitVec.ofNat 32 (fieldAt frame (n - 4) 4) }
      let same (x : Request) : Prop := x.src = r.src ∧ x.port = r.port ∧ x.seq = r.seq ∧ x.crc = r.crc
      let known : Prop := (∃ e ∈ s.qcp.cache, c.now ≤ e.at_ + 2 * second ∧ same e.resp.req)
      let hostPort : Prop := req.modPort = 47000 ∨ req.modPort = 47002
      let waits : Prop := ∃ x ∈ s.qcp.deferredCommit.toList ++ s.qcp.deferredAttest.toList ++ s.qcp.abortSlot.toList ++ s.qcp.queue,
        same x.req
      ((at? s.net.ports (req.ingress.toNat - 0x10)).en = true) ∧
      (hostPort) ∧
      (whole) ∧
      (req.dtls = none) ∧
      (s.portSecurity req.ingress ≠ 2) ∧
      ((op < 0x80 ∨ 0x85 < op)) ∧
      (¬ known) ∧
      (¬ waits) ∧
      (fieldAt frame 2 1 / 16 = 3) ∧
      (fieldAt frame 3 1 = 0) ∧
      (fieldAt frame 11 1 = 0) ∧
      (portTakes op req.modPort = true) ∧
      (bodyFits op body = some true) ∧
      (reservedZero op body = true) ∧
      (body.length ≤ bodyLimit req) ∧
      (op ≠ 0x12) ∧
      (32 ≤ s.qcp.queue.length)) :=
  by decide +kernel

theorem witness_ArrivingFramesAreChecked_13 :
    let s : State := { on with net.ports := on.net.ports.map (fun p => { p with en := true }) }
    let t : Nat := 0
    let req : Request := { host with ingress := 0x13 }
    let frame : List Byte := frameOf 0x12 [1, 0, 0, 0x31]
    (Running s) ∧
    (s.modes.report.tb0At ≤ t) ∧ (
      let c := s.clock t
      let n := frame.length
      let op := fieldAt frame 8 2
      let body := sliceAt frame 16 (n - 20)
      let whole : Prop := 20 ≤ n ∧ fieldAt frame 0 2 = 0x5158 ∧ fieldAt frame 12 4 = n - 20 ∧
        (crc32c (frame.take (n - 4))).toNat = fieldAt frame (n - 4) 4
      let r : Request := { req with
        seq := BitVec.ofNat 32 (fieldAt frame 4 4), crc := BitVec.ofNat 32 (fieldAt frame (n - 4) 4) }
      let same (x : Request) : Prop := x.src = r.src ∧ x.port = r.port ∧ x.seq = r.seq ∧ x.crc = r.crc
      let known : Prop := (∃ e ∈ s.qcp.cache, c.now ≤ e.at_ + 2 * second ∧ same e.resp.req)
      let hostPort : Prop := req.modPort = 47000 ∨ req.modPort = 47002
      let waits : Prop := ∃ x ∈ s.qcp.deferredCommit.toList ++ s.qcp.deferredAttest.toList ++ s.qcp.abortSlot.toList ++ s.qcp.queue,
        same x.req
      ((at? s.net.ports (req.ingress.toNat - 0x10)).en = true) ∧
      (hostPort) ∧
      (whole) ∧
      (req.dtls = none) ∧
      (s.portSecurity req.ingress ≠ 2) ∧
      ((op < 0x80 ∨ 0x85 < op)) ∧
      (¬ known) ∧
      (¬ waits) ∧
      (fieldAt frame 2 1 / 16 = 3) ∧
      (fieldAt frame 3 1 = 0) ∧
      (fieldAt frame 11 1 = 0) ∧
      (req.modPort = 47000) ∧
      (body.length = 4) ∧
      (op = 0x12) ∧
      (s.qcp.abortSlot = none)) :=
  by decide +kernel

theorem witness_ArrivingFramesAreChecked_14 :
    let s : State := { on with net.ports := on.net.ports.map (fun p => { p with en := true }), qcp.abortSlot := some {} }
    let t : Nat := 0
    let req : Request := { host with ingress := 0x13 }
    let frame : List Byte := frameOf 0x12 [1, 0, 0, 0x31]
    (Running s) ∧
    (s.modes.report.tb0At ≤ t) ∧ (
      let c := s.clock t
      let n := frame.length
      let op := fieldAt frame 8 2
      let body := sliceAt frame 16 (n - 20)
      let whole : Prop := 20 ≤ n ∧ fieldAt frame 0 2 = 0x5158 ∧ fieldAt frame 12 4 = n - 20 ∧
        (crc32c (frame.take (n - 4))).toNat = fieldAt frame (n - 4) 4
      let r : Request := { req with
        seq := BitVec.ofNat 32 (fieldAt frame 4 4), crc := BitVec.ofNat 32 (fieldAt frame (n - 4) 4) }
      let same (x : Request) : Prop := x.src = r.src ∧ x.port = r.port ∧ x.seq = r.seq ∧ x.crc = r.crc
      let known : Prop := (∃ e ∈ s.qcp.cache, c.now ≤ e.at_ + 2 * second ∧ same e.resp.req)
      let hostPort : Prop := req.modPort = 47000 ∨ req.modPort = 47002
      let waits : Prop := ∃ x ∈ s.qcp.deferredCommit.toList ++ s.qcp.deferredAttest.toList ++ s.qcp.abortSlot.toList ++ s.qcp.queue,
        same x.req
      ((at? s.net.ports (req.ingress.toNat - 0x10)).en = true) ∧
      (hostPort) ∧
      (whole) ∧
      (req.dtls = none) ∧
      (s.portSecurity req.ingress ≠ 2) ∧
      ((op < 0x80 ∨ 0x85 < op)) ∧
      (¬ known) ∧
      (¬ waits) ∧
      (fieldAt frame 2 1 / 16 = 3) ∧
      (fieldAt frame 3 1 = 0) ∧
      (fieldAt frame 11 1 = 0) ∧
      (req.modPort = 47000) ∧
      (body.length = 4) ∧
      (op = 0x12) ∧
      (s.qcp.abortSlot.isSome = true)) :=
  by decide +kernel

/-! ### The clauses of IdentityAndReadsAreAnswered -/

theorem witness_IdentityAndReadsAreAnswered_0 :
    let s : State := on
    let t : Nat := 0
    let req : Request := host
    (Ready s t req 0x01 []) :=
  ready_of_check (by decide +kernel)

theorem witness_IdentityAndReadsAreAnswered_1 :
    let s : State := on
    let t : Nat := 0
    let req : Request := host
    let obj : Word := objId 1 0 0x30
    let max : BitVec 16 := 1
    let v : List Byte := (served.readObject obj).value
    let u : State := (served.readObject obj).state
    (Ready s t req 0x10 (readBody obj 0 max.toNat)) ∧
    (1 ≤ max.toNat) ∧
    (max.toNat ≤ readLimit req) ∧ (
      let w := (s.clock t).taken req 0x10 (if readChanges obj then some (obj, []) else none)
      (w.readObject obj = { status := .ok, value := v, state := u }) ∧
      (v ≠ []) ∧
      (v.length ≤ 4096)) :=
  ⟨ready_of_check (by decide +kernel), by decide +kernel, by decide +kernel, rfl, by decide +kernel⟩

theorem witness_IdentityAndReadsAreAnswered_2 :
    let s : State := on
    let t : Nat := 0
    let req : Request := host
    let obj : Word := objId 0x0F 0 0xFF
    let max : BitVec 16 := 1
    (Ready s t req 0x10 (readBody obj 0 max.toNat)) ∧
    (1 ≤ max.toNat) ∧
    (max.toNat ≤ readLimit req) ∧
    (readChanges obj = false) ∧ (
      let w := (s.clock t).taken req 0x10 none
      ((w.readObject obj).status ≠ .ok)) :=
  ⟨ready_of_check (by decide +kernel), by decide +kernel⟩

theorem witness_IdentityAndReadsAreAnswered_3 :
    let s : State := { on with qcp.snapshots := [{ src := host.src, object := 5, value := [1, 2] }] }
    let t : Nat := 0
    let req : Request := host
    let obj : Word := 5
    let o : BitVec 32 := 1
    let max : BitVec 16 := 1
    (Ready s t req 0x10 (readBody obj o.toNat max.toNat)) ∧
    (1 ≤ max.toNat) ∧
    (max.toNat ≤ readLimit req) ∧
    (o ≠ 0) ∧ (
      let w := (s.clock t).taken req 0x10 none
      let live (x : ReadSnapshot) : Bool := x.src == req.src && x.object == obj && decide (w.now ≤ x.at_ + second)
      let x : _ := { src := host.src, object := 5, value := [1, 2] }
      (w.qcp.snapshots.find? live = some x) ∧
      (o.toNat < x.value.length)) :=
  ⟨ready_of_check (by decide +kernel), by decide +kernel⟩

theorem witness_IdentityAndReadsAreAnswered_4 :
    let s : State := { on with qcp.snapshots := [{ src := host.src, object := 5, value := [1, 2] }] }
    let t : Nat := 0
    let req : Request := host
    let obj : Word := 5
    let o : BitVec 32 := 2
    let max : BitVec 16 := 1
    (Ready s t req 0x10 (readBody obj o.toNat max.toNat)) ∧
    (1 ≤ max.toNat) ∧
    (max.toNat ≤ readLimit req) ∧
    (o ≠ 0) ∧ (
      let w := (s.clock t).taken req 0x10 none
      let live (x : ReadSnapshot) : Bool := x.src == req.src && x.object == obj && decide (w.now ≤ x.at_ + second)
      let x : _ := { src := host.src, object := 5, value := [1, 2] }
      (w.qcp.snapshots.find? live = some x) ∧
      (x.value.length ≤ o.toNat)) :=
  ⟨ready_of_check (by decide +kernel), by decide +kernel⟩

theorem witness_IdentityAndReadsAreAnswered_5 :
    let s : State := on
    let t : Nat := 0
    let req : Request := host
    let obj : Word := 5
    let o : BitVec 32 := 2
    let max : BitVec 16 := 1
    (Ready s t req 0x10 (readBody obj o.toNat max.toNat)) ∧
    (1 ≤ max.toNat) ∧
    (max.toNat ≤ readLimit req) ∧
    (o ≠ 0) ∧ (
      let w := (s.clock t).taken req 0x10 none
      let live (x : ReadSnapshot) : Bool := x.src == req.src && x.object == obj && decide (w.now ≤ x.at_ + second)
      (w.qcp.snapshots.find? live = none)) :=
  ⟨ready_of_check (by decide +kernel), by decide +kernel⟩

theorem witness_IdentityAndReadsAreAnswered_6 :
    let s : State := { on with field.captures := upd on.field.captures 15 fun x => { x with hw := List.replicate 8 1 } }
    let t : Nat := 0
    let req : Request := host
    let m : Fin 16 := 15
    (Ready s t req 0x10 (readBody (objId 2 (0x10 + m.val) 1) 0 (readLimit req))) ∧ (
      let obj := objId 2 (0x10 + m.val) 1
      let w := (s.clock t).taken req 0x10 (some (obj, []))
      let d := w.field.captures[m].drain (at? w.time.tb w.field.captures[m].base.toNat).count
      (d.stamps.length ≤ 8)) :=
  ⟨ready_of_check (by decide +kernel), by decide +kernel⟩

theorem witness_IdentityAndReadsAreAnswered_7 :
    let s : State := { on with servo.ic.capData := List.replicate 256 [0, 0, 0, 0] }
    let t : Nat := 0
    let req : Request := host
    (Ready s t req 0x10 (readBody (objId 7 0x50 0x14) 0 (readLimit req))) ∧ (
      let obj := objId 7 0x50 0x14
      let w := (s.clock t).taken req 0x10 (some (obj, []))
      let part := (w.servo.ic.capData.drop w.servo.ic.capReadAt).take 256
      let v := (part.map fun xs => (xs.map be32).flatten).flatten
      (v ≠ []) ∧
      (v.length ≤ 4096)) :=
  ⟨ready_of_check (by decide +kernel), by decide +kernel⟩

/-! ### The clauses of WritesActOrAreRefused -/

theorem witness_WritesActOrAreRefused_0 :
    let s : State := on
    let t : Nat := 0
    let req : Request := host
    let obj : Word := 5
    let v : List Byte := []
    (Ready s t req 0x11 (writeBody obj v)) :=
  ready_of_check (by decide +kernel)

theorem witness_WritesActOrAreRefused_1 :
    let s : State := solo
    let t : Nat := 0
    let req : Request := host
    let obj : Word := objId 7 0x50 0x12
    let v : List Byte := [0]
    (Ready s t req 0x11 (writeBody obj v)) ∧ (
      let w := s.atWrite t req obj v
      let fits : Prop := v.length ≤ if req.dtls.isSome then 1392 else 1424
      let u : State := (armServed.writeObject { req := req } obj v).state
      (fits) ∧
      (w.writeObject (s.hostCtx req) obj v = done u) ∧
      (u.modes.restartPending ≠ some .cold)) :=
  ⟨ready_of_check (by decide +kernel), by decide +kernel, rfl, by decide +kernel⟩

theorem witness_WritesActOrAreRefused_2 :
    let s : State := on
    let t : Nat := 0
    let req : Request := host
    let obj : Word := 5
    let v : List Byte := zeros 1425
    (Ready s t req 0x11 (writeBody obj v)) ∧ (
      let fits : Prop := v.length ≤ if req.dtls.isSome then 1392 else 1424
      (¬ fits) ∧
      (s.modes.restartPending ≠ some .cold)) :=
  ⟨ready_of_check (by decide +kernel), by decide +kernel⟩

theorem witness_WritesActOrAreRefused_3 :
    let s : State := on
    let t : Nat := 0
    let req : Request := host
    let obj : Word := objId 0x0F 0 0xFF
    let v : List Byte := []
    (Ready s t req 0x11 (writeBody obj v)) ∧ (
      let w := s.atWrite t req obj v
      let fits : Prop := v.length ≤ if req.dtls.isSome then 1392 else 1424
      (fits) ∧
      (s.modes.restartPending ≠ some .cold) ∧
      (w.writeObject (s.hostCtx req) obj v = refuse .badObject w)) :=
  ⟨ready_of_check (by decide +kernel), by decide +kernel, by decide +kernel, rfl⟩

theorem witness_WritesActOrAreRefused_4 :
    let s : State := on
    let t : Nat := 0
    let req : Request := host
    let obj : Word := objId 0x10 0 0
    let v : List Byte := []
    (Ready s t req 0x11 (writeBody obj v)) ∧ (
      let fits : Prop := v.length ≤ if req.dtls.isSome then 1392 else 1424
      (fits) ∧
      (s.modes.restartPending ≠ some .cold) ∧
      (0x10 ≤ objIsland obj)) :=
  ⟨ready_of_check (by decide +kernel), by decide +kernel⟩

theorem witness_WritesActOrAreRefused_5 :
    let s : State := { on with modes.phase := .restarting }
    (Powered s) ∧
    (¬ Running s) :=
  by decide +kernel

theorem witness_WritesActOrAreRefused_6 :
    let s : State := { on with modes.phase := .restarting }
    (Powered s) ∧
    (¬ Running s) :=
  by decide +kernel

theorem witness_WritesActOrAreRefused_7 :
    let s : State := { on with modes.phase := .restarting }
    (Powered s) ∧
    (¬ Running s) :=
  by decide +kernel

theorem witness_WritesActOrAreRefused_8 :
    let s : State := { on with modes.phase := .restarting }
    (Powered s) ∧
    (¬ Running s) :=
  by decide +kernel

theorem witness_WritesActOrAreRefused_9 :
    let s : State := { on with modes.phase := .restarting }
    (Powered s) ∧
    (¬ Running s) :=
  by decide +kernel

theorem witness_WritesActOrAreRefused_10 :
    let s : State := { on with modes.phase := .restarting }
    (Powered s) ∧
    (¬ Running s) :=
  by decide +kernel

theorem witness_WritesActOrAreRefused_11 :
    let s : State := { on with modes.phase := .restarting, qcp.busyRun := true }
    (Powered s) ∧
    (¬ Running s) ∧ (
      (s.qcp.busyRun = true)) :=
  by decide +kernel

/-! ### The clauses of SubscriptionsAndTelemetry -/

theorem witness_SubscriptionsAndTelemetry_0 :
    let s : State := { on with qcp.subs := [{ handle := 15, stream := 2, src := 0xFFFFC0A80001, port := 5 }] }
    let t : Nat := 0
    let c := s.clock t
    let req : Request := host
    let stream : BitVec 8 := 2
    let port : BitVec 16 := 5
    let lease : BitVec 16 := 600
    let divider : BitVec 16 := 0
    let select : List Byte := []
    (Ready s t req 0x20 (be8 stream ++ [0] ++ be16 port ++ be16 lease ++ be16 divider ++ select)) ∧ (
      let w := c.taken req 0x20 (some (stream.setWidth 32, []))
      let mine (x : Subscription) : Bool := x.src == req.src && x.port.toNat == port.toNat && x.stream.toNat == stream.toNat
      (port ≠ 0) ∧
      (1 ≤ lease.toNat) ∧
      (lease.toNat ≤ 600) ∧
      ((stream = 2 ∨ (1 ≤ divider.toNat ∧ divider.toNat ≤ 1000))) ∧
      (w.selectOk req stream.toNat port.toNat select = true) ∧ (
        let x : _ := { handle := 15, stream := 2, src := 0xFFFFC0A80001, port := 5 }
        (w.qcp.subs.find? mine = some x))) :=
  ⟨ready_of_check (by decide +kernel), by decide +kernel⟩

theorem witness_SubscriptionsAndTelemetry_1 :
    let s : State := { on with qcp.subs := (List.range 15).map fun h => { handle := h, stream := 3 } }
    let t : Nat := 0
    let c := s.clock t
    let req : Request := host
    let stream : BitVec 8 := 2
    let port : BitVec 16 := 5
    let lease : BitVec 16 := 600
    let divider : BitVec 16 := 0
    let select : List Byte := []
    (Ready s t req 0x20 (be8 stream ++ [0] ++ be16 port ++ be16 lease ++ be16 divider ++ select)) ∧ (
      let w := c.taken req 0x20 (some (stream.setWidth 32, []))
      let mine (x : Subscription) : Bool := x.src == req.src && x.port.toNat == port.toNat && x.stream.toNat == stream.toNat
      (port ≠ 0) ∧
      (1 ≤ lease.toNat) ∧
      (lease.toNat ≤ 600) ∧
      ((stream = 2 ∨ (1 ≤ divider.toNat ∧ divider.toNat ≤ 1000))) ∧
      (w.selectOk req stream.toNat port.toNat select = true) ∧
      ((∀ x ∈ w.qcp.subs, mine x = false)) ∧
      (w.qcp.subs.length < 16)) :=
  ⟨ready_of_check (by decide +kernel), by decide +kernel⟩

theorem witness_SubscriptionsAndTelemetry_2 :
    let s : State := { on with qcp.subs := (List.range 16).map fun h => { handle := h, stream := 3 } }
    let t : Nat := 0
    let c := s.clock t
    let req : Request := host
    let stream : BitVec 8 := 2
    let port : BitVec 16 := 5
    let lease : BitVec 16 := 600
    let divider : BitVec 16 := 0
    let select : List Byte := []
    (Ready s t req 0x20 (be8 stream ++ [0] ++ be16 port ++ be16 lease ++ be16 divider ++ select)) ∧ (
      let w := c.taken req 0x20 (some (stream.setWidth 32, []))
      let mine (x : Subscription) : Bool := x.src == req.src && x.port.toNat == port.toNat && x.stream.toNat == stream.toNat
      (port ≠ 0) ∧
      (1 ≤ lease.toNat) ∧
      (lease.toNat ≤ 600) ∧
      ((stream = 2 ∨ (1 ≤ divider.toNat ∧ divider.toNat ≤ 1000))) ∧
      (w.selectOk req stream.toNat port.toNat select = true) ∧
      ((∀ x ∈ w.qcp.subs, mine x = false)) ∧
      ((∀ h < 16, ∃ x ∈ w.qcp.subs, x.handle = h))) :=
  ⟨ready_of_check (by decide +kernel), by decide +kernel⟩

theorem witness_SubscriptionsAndTelemetry_3 :
    let s : State := on
    let t : Nat := 0
    let req : Request := host
    let stream : BitVec 8 := 6
    let port : BitVec 16 := 0
    (Ready s t req 0x21 (be8 stream ++ be16 port ++ [0])) ∧
    ((stream = 0xFF ∨ (1 ≤ stream.toNat ∧ stream.toNat ≤ 6))) :=
  ⟨ready_of_check (by decide +kernel), by decide +kernel⟩

theorem witness_SubscriptionsAndTelemetry_4 :
    let s : State := on
    (Powered s) :=
  by decide +kernel

theorem witness_SubscriptionsAndTelemetry_7 :
    let s : State := { on with qcp.tele := [{ dest := [15], stream := 2 }] }
    (Powered s) ∧ (
      let f : TeleFrame := { dest := [15], stream := 2 }
      let rest : List TeleFrame := []
      (s.qcp.tele = f :: rest) ∧
      (f.dest ≠ []) ∧
      (f.stream ≠ 1)) :=
  by decide +kernel

theorem witness_SubscriptionsAndTelemetry_8 :
    let s : State := { on with qcp.tele := [{ dest := [15], stream := 1 }] }
    (Powered s) ∧ (
      let f : TeleFrame := { dest := [15], stream := 1 }
      let rest : List TeleFrame := []
      (s.qcp.tele = f :: rest) ∧
      (f.dest ≠ []) ∧
      (f.stream = 1)) :=
  by decide +kernel

theorem witness_SubscriptionsAndTelemetry_9 :
    let s : State := { on with qcp.tele := [{}] }
    (Powered s) ∧ (
      let f : TeleFrame := {}
      let rest : List TeleFrame := []
      (s.qcp.tele = f :: rest) ∧
      (f.dest = [])) :=
  by decide +kernel

/-! ### The clauses of AssociationsAndSettings -/

theorem witness_AssociationsAndSettings_0 :
    let s : State := on
    (Powered s) ∧ (
      let req : Request := host
      (s.portSecurity req.ingress = 0)) :=
  by decide +kernel

theorem witness_AssociationsAndSettings_1 :
    let s : State := { on with qcp.security := 0xFF }
    (Powered s) ∧ (
      let req : Request := { host with ingress := 0x10 }
      (s.portSecurity req.ingress ≠ 0) ∧
      (s.qcp.dtlsFailRun = false)) :=
  by decide +kernel

theorem witness_AssociationsAndSettings_2 :
    let s : State := { on with qcp.security := 0xFF, qcp.dtlsFailRun := true }
    (Powered s) ∧ (
      let req : Request := { host with ingress := 0x13 }
      (s.portSecurity req.ingress ≠ 0) ∧
      (s.qcp.dtlsFailRun = true)) :=
  by decide +kernel

theorem witness_AssociationsAndSettings_3 :
    let s : State := { on with qcp.security := 0xFF, qcp.associations := List.replicate 7 {} }
    (Powered s) ∧ (
      let req : Request := { host with ingress := 0x13 }
      (s.portSecurity req.ingress ≠ 0) ∧
      (s.qcp.associations.length < 8)) :=
  by decide +kernel

theorem witness_AssociationsAndSettings_4 :
    let s : State := { on with qcp.security := 0xFF, qcp.dtlsFailRun := true, qcp.associations := List.replicate 8 {} }
    let t : Nat := 0
    (Powered s) ∧ (
      let c := s.clock t
      let req : Request := { host with ingress := 0x13 }
      (s.portSecurity req.ingress ≠ 0) ∧
      (8 ≤ s.qcp.associations.length) ∧
      ((∀ a ∈ s.qcp.associations, c.now < a.lastUsed + 60 * second)) ∧
      (s.qcp.dtlsFailRun = true)) :=
  by decide +kernel

theorem witness_AssociationsAndSettings_5 :
    let s : State := { on with qcp.addressNext := some (0, {}) }
    let t : Nat := 0
    (Powered s) ∧ (
      let c := s.clock t
      let at_ : Nat := 0
      let a : QcpAddress := {}
      (s.qcp.addressNext = some (at_, a)) ∧
      (at_ ≤ c.now) ∧
      (s.qcp.securityNext = none)) :=
  by decide +kernel

theorem witness_AssociationsAndSettings_6 :
    let s : State := { on with qcp.securityNext := some (0, 1) }
    let t : Nat := 0
    (Powered s) ∧ (
      let c := s.clock t
      let at_ : Nat := 0
      let v : BitVec 8 := 1
      (s.qcp.securityNext = some (at_, v)) ∧
      (at_ ≤ c.now) ∧
      (s.qcp.addressNext = none)) :=
  by decide +kernel

theorem witness_AssociationsAndSettings_7 :
    let s : State := on
    let t : Nat := 0
    (Powered s) ∧ (
      let c := s.clock t
      ((∀ at_ a, s.qcp.addressNext = some (at_, a) → c.now < at_)) ∧
      ((∀ at_ v, s.qcp.securityNext = some (at_, v) → c.now < at_))) :=
  ⟨by decide +kernel, nofun, nofun⟩

end Sys2Proof.Tests
end

