-- ==== Sys2Proof/Tests/WitnessStore.lean ====
section
/-! SUPPORT. For each clause of a statement with hypotheses, a concrete state and operands that meet all of them together:
the recorder, ageing, the update and the panel. `witness_<obligation>_<n>` is clause n, counted from 0. -/

namespace Sys2Proof.Tests
open Sys2Proof.Machine
set_option Elab.async false
set_option linter.unusedVariables false

/-! ### The clauses of FlushesCopyAndSeal -/

theorem witness_FlushesCopyAndSeal_0 :
    let s : State := on
    let t : Nat := 0
    let req : Request := host
    (Ready s t req 0x11 (writeBody (objId 0x0C 0 2) [1])) ∧ (
      let obj := objId 0x0C 0 2
      let w := s.atWrite t req obj [1]
      (w.recorder.lastFlushWrite = none) ∧
      (w.recorder.flushing = []) ∧
      (w.recorder.window = none)) :=
  ⟨ready_of_check (by decide +kernel), by decide +kernel⟩

theorem witness_FlushesCopyAndSeal_1 :
    let s : State := tb0At 9999999999 ({ on with recorder.lastFlushWrite := some 0 })
    let t : Nat := 0
    let req : Request := host
    (Ready s t req 0x11 (writeBody (objId 0x0C 0 2) [1])) ∧ (
      let obj := objId 0x0C 0 2
      let w := s.atWrite t req obj [1]
      let a : Nat := 0
      (w.recorder.lastFlushWrite = some a) ∧
      (w.now < a + 10 * second)) :=
  ⟨ready_of_check (by decide +kernel), by decide +kernel⟩

theorem witness_FlushesCopyAndSeal_2 :
    let s : State := { on with recorder.flushing := [5] }
    let t : Nat := 0
    (Powered s) ∧ (
      let c := s.clock t
      let trigger : BitVec 8 := 5
      let rest : List (BitVec 8) := []
      (s.recorder.flushing = trigger :: rest) ∧
      (s.recorder.flushAt + 320 * s.recorder.uncopied.length ≤ c.now)) :=
  by decide +kernel

theorem witness_FlushesCopyAndSeal_3 :
    let s : State := { on with recorder.window := some 0 }
    let t : Nat := 0
    (Powered s) ∧ (
      let c := s.clock t
      let e : Nat := 0
      (s.recorder.window = some e) ∧
      (e ≤ c.now)) :=
  by decide +kernel

theorem witness_FlushesCopyAndSeal_4 :
    let s : State := on
    (Powered s) ∧ (
      (s.recorder.flushing = [])) :=
  by decide +kernel

theorem witness_FlushesCopyAndSeal_5 :
    let s : State := { on with recorder.flushing := [5], recorder.flushAt := 1 }
    let t : Nat := 0
    (Powered s) ∧ (
      let c := s.clock t
      (c.now < s.recorder.flushAt + 320 * s.recorder.uncopied.length)) :=
  by decide +kernel

theorem witness_FlushesCopyAndSeal_6 :
    let s : State := { on with recorder.geyserRunning := true, power.onHoldup := true }
    (Powered s) ∧ (
      (s.recorder.geyserRunning = true) ∧
      (s.power.onHoldup = true)) :=
  by decide +kernel

theorem witness_FlushesCopyAndSeal_7 :
    let s : State := { on with recorder.full := true }
    (Powered s) ∧ (
      (s.recorder.full = true) ∧
      (s.recorder.fullRaised = false)) :=
  by decide +kernel

theorem witness_FlushesCopyAndSeal_8 :
    let s : State := { on with recorder.full := true, recorder.fullRaised := true }
    (Powered s) ∧ (
      ((s.recorder.full = false ∨ s.recorder.fullRaised = true))) :=
  by decide +kernel

/-! ### The clauses of SealsAreSignedInOrder -/

theorem witness_SealsAreSignedInOrder_0 :
    let s : State := on
    (Powered s) :=
  by decide +kernel

theorem witness_SealsAreSignedInOrder_1 :
    let s : State := { on with recorder.seals := [{ signState := 1 }, { blockSeq := 4 }] }
    (Powered s) ∧ (
      let i : Nat := 1
      let b : Seal := { blockSeq := 4 }
      (s.trust.entropyFail = false) ∧
      (s.recorder.geyserRunning = false) ∧
      (s.recorder.stopped = false) ∧
      (s.recorder.seals[i]? = some b) ∧
      (b.signState = 0) ∧
      ((∀ j < i, ∀ x, s.recorder.seals[j]? = some x → x.signState ≠ 0))) :=
  ⟨by decide +kernel, by decide +kernel, by decide +kernel, by decide +kernel, by decide +kernel, by decide +kernel, by intro j hj; obtain rfl : j = 0 := (by omega); intro x h; cases h; decide⟩

theorem witness_SealsAreSignedInOrder_2 :
    let s : State := on
    (Powered s) ∧ (
      ((∀ x ∈ s.recorder.seals, x.signState ≠ 0))) :=
  by decide +kernel

theorem witness_SealsAreSignedInOrder_3 :
    let s : State := { on with trust.entropyFail := true }
    (Powered s) ∧ (
      ((s.trust.entropyFail = true ∨ s.recorder.geyserRunning = true ∨ s.recorder.stopped = true))) :=
  by decide +kernel

/-! ### The clauses of TheStoreIsReadAndRearmed -/

theorem witness_TheStoreIsReadAndRearmed_0 :
    let s : State := on
    let t : Nat := 0
    let req : Request := host
    let first : Word := 0
    let count : BitVec 8 := 44
    (Ready s t req 0x31 (be32 first ++ be8 count ++ zeros 3)) ∧ (
      let limit := if req.dtls.isSome then 43 else 44
      (1 ≤ count.toNat) ∧
      (count.toNat ≤ limit)) :=
  ⟨ready_of_check (by decide +kernel), by decide +kernel⟩

theorem witness_TheStoreIsReadAndRearmed_1 :
    let s : State := on
    let t : Nat := 0
    let req : Request := host
    let first : Word := 0
    let count : BitVec 8 := 45
    (Ready s t req 0x31 (be32 first ++ be8 count ++ zeros 3)) ∧ (
      let limit := if req.dtls.isSome then 43 else 44
      ((count = 0 ∨ limit < count.toNat))) :=
  ⟨ready_of_check (by decide +kernel), by decide +kernel⟩

theorem witness_TheStoreIsReadAndRearmed_2 :
    let s : State := on
    let t : Nat := 0
    let req : Request := host
    let hash : List Byte := zeros 48
    (Ready s t req 0x11 (writeBody (objId 0x0C 0 3) hash)) ∧ (
      let obj := objId 0x0C 0 3
      let w := s.atWrite t req obj hash
      (w.recorder.seals = [])) :=
  ⟨ready_of_check (by decide +kernel), by decide +kernel⟩

theorem witness_TheStoreIsReadAndRearmed_3 :
    let s : State := { on with recorder.seals := [{}] }
    let t : Nat := 0
    let req : Request := host
    let hash : List Byte := [1] ++ zeros 47
    (Ready s t req 0x11 (writeBody (objId 0x0C 0 3) hash)) ∧ (
      let obj := objId 0x0C 0 3
      let w := s.atWrite t req obj hash
      let newest : Seal := {}
      (w.recorder.seals.getLast? = some newest) ∧
      (hash ≠ newest.hash)) :=
  ⟨ready_of_check (by decide +kernel), by decide +kernel⟩

theorem witness_TheStoreIsReadAndRearmed_4 :
    let s : State := { on with recorder.seals := [{}] }
    let t : Nat := 0
    let req : Request := host
    let hash : List Byte := List.replicate 48 0
    (Ready s t req 0x11 (writeBody (objId 0x0C 0 3) hash)) ∧ (
      let obj := objId 0x0C 0 3
      let w := s.atWrite t req obj hash
      let newest : Seal := {}
      (w.recorder.seals.getLast? = some newest) ∧
      (hash = newest.hash) ∧
      ((w.recorder.flushing ≠ [] ∨ w.recorder.window.isSome = true ∨ ∃ x ∈ w.recorder.seals, x.signState = 0))) :=
  ⟨ready_of_check (by decide +kernel), by decide +kernel⟩

theorem witness_TheStoreIsReadAndRearmed_5 :
    let s : State := { on with recorder.seals := [{ signState := 1 }] }
    let t : Nat := 0
    let req : Request := host
    let hash : List Byte := List.replicate 48 0
    (Ready s t req 0x11 (writeBody (objId 0x0C 0 3) hash)) ∧ (
      let obj := objId 0x0C 0 3
      let w := s.atWrite t req obj hash
      let newest : Seal := { signState := 1 }
      (w.recorder.seals.getLast? = some newest) ∧
      (hash = newest.hash) ∧
      (w.recorder.flushing = []) ∧
      (w.recorder.window = none) ∧
      ((∀ x ∈ w.recorder.seals, x.signState ≠ 0))) :=
  ⟨ready_of_check (by decide +kernel), by decide +kernel⟩

/-! ### The clauses of KeysAndAttestation -/

theorem witness_KeysAndAttestation_0 :
    let s : State := on
    let t : Nat := 0
    let req : Request := host
    let body : List Byte := zeros 252
    (Ready s t req 0x33 body) ∧ (
      let w := (s.clock t).taken req 0x33 (some (0, []))
      (w.modes.mode ≠ .config)) :=
  ⟨ready_of_check (by decide +kernel), by decide +kernel⟩

theorem witness_KeysAndAttestation_1 :
    let s : State := { on with modes.mode := .config, trust.entropyFail := true }
    let t : Nat := 0
    let req : Request := host
    let body : List Byte := zeros 252
    (Ready s t req 0x33 body) ∧ (
      let w := (s.clock t).taken req 0x33 (some (0, []))
      (w.modes.mode = .config) ∧
      (w.trust.entropyFail = true)) :=
  ⟨ready_of_check (by decide +kernel), by decide +kernel⟩

theorem witness_KeysAndAttestation_2 :
    let s : State := { on with modes.mode := .config }
    let t : Nat := 0
    let req : Request := host
    let body : List Byte := [1] ++ zeros 251
    (Ready s t req 0x33 body) ∧ (
      let w := (s.clock t).taken req 0x33 (some (0, []))
      let formed : Prop := body.length = 252 ∧ fieldAt body 104 4 = w.trust.enrolCount.toNat ∧ zeroAt body 1 3 = true ∧
        zeroAt body 101 3 = true ∧ zeroAt body 108 48 = true
      (w.modes.mode = .config) ∧
      (w.trust.entropyFail = false) ∧
      (fieldAt body 0 1 = 1) ∧
      (formed) ∧
      (zeroAt body 156 96 = true) ∧
      (w.trust.ownerKey = none)) :=
  ⟨ready_of_check (by decide +kernel), by decide +kernel⟩

theorem witness_KeysAndAttestation_3 :
    let s : State := { on with modes.mode := .config, trust.ownerKey := some [4] }
    let t : Nat := 0
    let req : Request := host
    let body : List Byte := [2] ++ zeros 251
    (Ready s t req 0x33 body) ∧ (
      let w := (s.clock t).taken req 0x33 (some (0, []))
      let formed : Prop := body.length = 252 ∧ fieldAt body 104 4 = w.trust.enrolCount.toNat ∧ zeroAt body 1 3 = true ∧
        zeroAt body 101 3 = true ∧ zeroAt body 108 48 = true
      let owner : List Byte := [4]
      (w.modes.mode = .config) ∧
      (w.trust.entropyFail = false) ∧
      (fieldAt body 0 1 = 2) ∧
      (formed) ∧
      (w.trust.ownerKey = some owner)) :=
  ⟨ready_of_check (by decide +kernel), by decide +kernel⟩

theorem witness_KeysAndAttestation_4 :
    let s : State := on
    let t : Nat := 0
    let req : Request := host
    let nonce : List Byte := List.replicate 32 1
    (Ready s t req 0x32 nonce) ∧ (
      (nonce.length = 32) ∧
      (nonce.any (· != 0) = true) ∧
      (s.qcp.deferredAttest = none)) :=
  ⟨ready_of_check (by decide +kernel), by decide +kernel⟩

theorem witness_KeysAndAttestation_5 :
    let s : State := on
    let t : Nat := 0
    let req : Request := host
    let nonce : List Byte := zeros 32
    (Ready s t req 0x32 nonce) ∧ (
      ((nonce.length ≠ 32 ∨ nonce.all (· == 0) = true))) :=
  ⟨ready_of_check (by decide +kernel), by decide +kernel⟩

theorem witness_KeysAndAttestation_6 :
    let s : State := { on with qcp.deferredAttest := some {} }
    let t : Nat := 0
    let req : Request := host
    let nonce : List Byte := List.replicate 32 1
    (Ready s t req 0x32 nonce) ∧ (
      (nonce.length = 32) ∧
      (nonce.any (· != 0) = true) ∧
      (s.qcp.deferredAttest.isSome = true)) :=
  ⟨ready_of_check (by decide +kernel), by decide +kernel⟩

theorem witness_KeysAndAttestation_7 :
    let s : State := tb0At 100000000 { on with qcp.deferredAttest := some {} }
    let t : Nat := 0
    (Running s) ∧ (
      let k : Command := {}
      (s.qcp.deferredAttest = some k) ∧
      (s.trust.entropyFail = false) ∧
      ((s.clock t).now ≤ s.qcp.deferredAt.2 + 100 * ms)) :=
  by decide +kernel

/-! ### The clauses of MonitorsAreSampled -/

theorem witness_MonitorsAreSampled_0 :
    let s : State := on
    let t : Nat := 0
    (Powered s) ∧ (
      let c := s.clock t
      (c.now / (60 * second) ≤ s.hsk.sampledAt)) :=
  by decide +kernel

theorem witness_MonitorsAreSampled_1 :
    let s : State := tb0At 60000000000 on
    let t : Nat := 0
    (Powered s) ∧ (
      let c := s.clock t
      (s.hsk.sampledAt < c.now / (60 * second))) :=
  by decide +kernel

theorem witness_MonitorsAreSampled_2 :
    let s : State := on
    let t : Nat := 0
    (Powered s) ∧ (
      let c := s.clock t
      (c.now / (86400 * second) ≤ s.hsk.dayAt)) :=
  by decide +kernel

theorem witness_MonitorsAreSampled_3 :
    let s : State := tb0At 86400000000000 on
    let t : Nat := 0
    (Powered s) ∧ (
      let c := s.clock t
      (s.hsk.dayAt < c.now / (86400 * second))) :=
  by decide +kernel

theorem witness_MonitorsAreSampled_4 :
    let s : State := on
    let t : Nat := 0
    (Powered s) ∧ (
      let c := s.clock t
      (s.power.noNvWrites = false) ∧
      (s.recorder.flushing = []) ∧
      (s.recorder.geyserRunning = false) ∧
      (s.hsk.mramBlock = none) ∧
      ((∀ a : Nat, s.hsk.mramStart = some a → a + s.hsk.mramInterval * 86400 * second ≤ c.tb3))) :=
  ⟨by decide +kernel, by decide +kernel, by decide +kernel, by decide +kernel, by decide +kernel, fun a h => nomatch (h : (none : Option Nat) = some a)⟩

theorem witness_MonitorsAreSampled_5 :
    let s : State := { on with hsk.mramStart := some 1 }
    let t : Nat := 0
    (Powered s) ∧ (
      let c := s.clock t
      (s.power.noNvWrites = false) ∧
      (s.recorder.flushing = []) ∧
      (s.recorder.geyserRunning = false) ∧ (
        let a : Nat := 1
        (s.hsk.mramBlock = none) ∧
        (s.hsk.mramStart = some a) ∧
        (c.tb3 < a + s.hsk.mramInterval * 86400 * second))) :=
  by decide +kernel

theorem witness_MonitorsAreSampled_6 :
    let s : State := { on with hsk.mramBlock := some 8190, hsk.mramAt := 1 }
    let t : Nat := 0
    (Powered s) ∧ (
      let c := s.clock t
      (s.power.noNvWrites = false) ∧
      (s.recorder.flushing = []) ∧
      (s.recorder.geyserRunning = false) ∧ (
        let b : Nat := 8190
        (s.hsk.mramBlock = some b) ∧
        (c.now < s.hsk.mramAt + 10 * ms))) :=
  by decide +kernel

theorem witness_MonitorsAreSampled_7 :
    let s : State := tb0At 10000000 { on with hsk.mramBlock := some 8190 }
    let t : Nat := 0
    (Powered s) ∧ (
      let c := s.clock t
      (s.power.noNvWrites = false) ∧
      (s.recorder.flushing = []) ∧
      (s.recorder.geyserRunning = false) ∧ (
        let b : Nat := 8190
        (s.hsk.mramBlock = some b) ∧
        (s.hsk.mramAt + 10 * ms ≤ c.now) ∧
        (b + 1 < 8192))) :=
  by decide +kernel

theorem witness_MonitorsAreSampled_8 :
    let s : State := tb0At 10000000 { on with hsk.mramBlock := some 8191 }
    let t : Nat := 0
    (Powered s) ∧ (
      let c := s.clock t
      (s.power.noNvWrites = false) ∧
      (s.recorder.flushing = []) ∧
      (s.recorder.geyserRunning = false) ∧ (
        let b : Nat := 8191
        (s.hsk.mramBlock = some b) ∧
        (s.hsk.mramAt + 10 * ms ≤ c.now) ∧
        (8191 ≤ b))) :=
  by decide +kernel

theorem witness_MonitorsAreSampled_9 :
    let s : State := { on with power.noNvWrites := true }
    (Powered s) ∧ (
      ((s.power.noNvWrites = true ∨ s.recorder.flushing ≠ [] ∨ s.recorder.geyserRunning = true))) :=
  by decide +kernel

/-! ### The clauses of ClockBinsStepInsideTheirEnvelope -/

theorem witness_ClockBinsStepInsideTheirEnvelope_0 :
    let s : State := on
    (Powered s) ∧ (
      let i : Fin 12 := 11
      let x : F32 := 0x411FFFFF
      let b := s.hsk.bins[i]
      (F32.lt x (F32.ofNat 10) = true) ∧
      (b.bin < b.binMax)) :=
  by decide +kernel

theorem witness_ClockBinsStepInsideTheirEnvelope_1 :
    let s : State := { on with hsk.bins := on.hsk.bins.set 11 { bin := 12 } }
    (Powered s) ∧ (
      let i : Fin 12 := 11
      let x : F32 := 0x40A00000
      let b := s.hsk.bins[i]
      (F32.lt x (F32.ofNat 10) = true) ∧
      (F32.lt x (F32.ofNat 5) = false) ∧
      (b.binMax ≤ b.bin) ∧
      (b.atLimit = false)) :=
  by decide +kernel

theorem witness_ClockBinsStepInsideTheirEnvelope_2 :
    let s : State := { on with hsk.bins := on.hsk.bins.set 11 { bin := 12, atLimit := true } }
    (Powered s) ∧ (
      let i : Fin 12 := 11
      let x : F32 := 0x40A00000
      let b := s.hsk.bins[i]
      (F32.lt x (F32.ofNat 10) = true) ∧
      (F32.lt x (F32.ofNat 5) = false) ∧
      (b.binMax ≤ b.bin) ∧
      (b.atLimit = true)) :=
  by decide +kernel

theorem witness_ClockBinsStepInsideTheirEnvelope_3 :
    let s : State := { on with hsk.bins := on.hsk.bins.set 11 { bin := 14 } }
    (Powered s) ∧ (
      let i : Fin 12 := 11
      let x : F32 := 0x409FFFFF
      let b := s.hsk.bins[i]
      (F32.lt x (F32.ofNat 10) = true) ∧
      (F32.lt x (F32.ofNat 5) = true) ∧
      (b.binMax ≤ b.bin) ∧
      (b.bin < 15)) :=
  by decide +kernel

theorem witness_ClockBinsStepInsideTheirEnvelope_4 :
    let s : State := { on with hsk.bins := on.hsk.bins.set 11 { bin := 15 } }
    (Powered s) ∧ (
      let i : Fin 12 := 11
      let x : F32 := 0x409FFFFF
      let b := s.hsk.bins[i]
      (F32.lt x (F32.ofNat 10) = true) ∧
      (F32.lt x (F32.ofNat 5) = true) ∧
      (b.binMax ≤ b.bin) ∧
      (15 ≤ b.bin)) :=
  by decide +kernel

theorem witness_ClockBinsStepInsideTheirEnvelope_5 :
    let s : State := on
    (Powered s) ∧ (
      let x : F32 := 0x41200000
      (F32.lt x (F32.ofNat 10) = false)) :=
  by decide +kernel

theorem witness_ClockBinsStepInsideTheirEnvelope_6 :
    let s : State := tb0At 86400000000000 { on with hsk.bins := on.hsk.bins.set 11 { bin := 8, aboveSince := some 0 } }
    let t : Nat := 0
    (Powered s) ∧ (
      let i : Fin 12 := 11
      let x : F32 := 0x41900001
      let c := s.clock t
      let b := s.hsk.bins[i]
      let a : Nat := 0
      (F32.lt (F32.ofNat 18) x = true) ∧
      (b.aboveSince = some a) ∧
      (a + 86400 * second ≤ c.now) ∧
      (b.binMin < b.bin)) :=
  by decide +kernel

theorem witness_ClockBinsStepInsideTheirEnvelope_7 :
    let s : State := tb0At 86400000000000 { on with hsk.bins := on.hsk.bins.set 11 { bin := 1, binMin := 1, aboveSince := some 0 } }
    let t : Nat := 0
    (Powered s) ∧ (
      let i : Fin 12 := 11
      let x : F32 := 0x41900001
      let c := s.clock t
      let b := s.hsk.bins[i]
      let a : Nat := 0
      (F32.lt (F32.ofNat 18) x = true) ∧
      (b.aboveSince = some a) ∧
      (a + 86400 * second ≤ c.now) ∧
      (b.bin ≤ b.binMin) ∧
      (b.atLimit = false)) :=
  by decide +kernel

theorem witness_ClockBinsStepInsideTheirEnvelope_8 :
    let s : State := on
    let t : Nat := 0
    (Powered s) ∧ (
      let i : Fin 12 := 11
      let x : F32 := 0x41900000
      let c := s.clock t
      let b := s.hsk.bins[i]
      ((F32.lt (F32.ofNat 18) x = false ∨ b.aboveSince = none ∨ ∃ a : Nat, b.aboveSince = some a ∧ c.now < a + 86400 * second))) :=
  ⟨by decide +kernel, Or.inl (by decide +kernel)⟩

theorem witness_ClockBinsStepInsideTheirEnvelope_9 :
    let s : State := on
    let t : Nat := 0
    let req : Request := host
    let i : Fin 12 := 11
    let v : BitVec 16 := 0x000F
    let obj := objId 0x0E (0x40 + binIslands.getD i.val 0) 1
    (Ready s t req 0x11 (writeBody obj (be16 v))) ∧ (
      let lo := v.toNat / 256
      let hi := v.toNat % 256
      (hi ≤ 15) ∧
      (lo ≤ hi)) :=
  ⟨ready_of_check (by decide +kernel), by decide +kernel⟩

theorem witness_ClockBinsStepInsideTheirEnvelope_10 :
    let s : State := on
    let t : Nat := 0
    let req : Request := host
    let i : Fin 12 := 11
    let v : BitVec 16 := 0x0010
    let obj := objId 0x0E (0x40 + binIslands.getD i.val 0) 1
    (Ready s t req 0x11 (writeBody obj (be16 v))) ∧ (
      let lo := v.toNat / 256
      let hi := v.toNat % 256
      ((15 < hi ∨ hi < lo))) :=
  ⟨ready_of_check (by decide +kernel), by decide +kernel⟩

/-! ### The clauses of TransfersTakeTheirChunks -/

theorem witness_TransfersTakeTheirChunks_0 :
    let s : State := { on with update.ext := { id := 5, length := 4096, crc := 9, state := 2 } }
    let t : Nat := 0
    let req : Request := host2
    let c := s.clock t
    let id : Word := 5
    let len : Word := 4096
    let crc : Word := 9
    (Ready s t req 0x40 (be8 1 ++ zeros 3 ++ be32 id ++ be32 len ++ be32 crc)) ∧
    (len ≠ 0) ∧
    (id ≠ 0) ∧
    (len.toNat ≤ 32 * 2 ^ 20) ∧ (
      let w := c.taken req 0x40 (some (0, []))
      let x := w.update.ext
      (w.update.activation = none) ∧
      (x.id = id) ∧
      (x.length = len.toNat) ∧
      (x.crc = crc) ∧
      (x.state ≠ 4)) :=
  ⟨ready_of_check (by decide +kernel), by decide +kernel⟩

theorem witness_TransfersTakeTheirChunks_1 :
    let s : State := on
    let t : Nat := 0
    let req : Request := host2
    let c := s.clock t
    let id : Word := 5
    let len : Word := 0x2000000
    let crc : Word := 9
    (Ready s t req 0x40 (be8 1 ++ zeros 3 ++ be32 id ++ be32 len ++ be32 crc)) ∧
    (len ≠ 0) ∧
    (id ≠ 0) ∧
    (len.toNat ≤ 32 * 2 ^ 20) ∧ (
      let w := c.taken req 0x40 (some (0, []))
      let x := w.update.ext
      (w.update.activation = none) ∧
      ((x.id ≠ id ∨ x.length ≠ len.toNat ∨ x.crc ≠ crc ∨ x.state = 4))) :=
  ⟨ready_of_check (by decide +kernel), by decide +kernel⟩

theorem witness_TransfersTakeTheirChunks_2 :
    let s : State := on
    let t : Nat := 0
    let req : Request := host2
    let target : BitVec 8 := 2
    let id : Word := 5
    let len : Word := 0x1000001
    let crc : Word := 9
    (Ready s t req 0x40 (be8 target ++ zeros 3 ++ be32 id ++ be32 len ++ be32 crc)) ∧
    ((target = 1 ∨ target = 2)) ∧
    (id ≠ 0) ∧
    (largestImage target.toNat < len.toNat) :=
  ⟨ready_of_check (by decide +kernel), by decide +kernel⟩

theorem witness_TransfersTakeTheirChunks_3 :
    let s : State := { on with update.ext := { id := 5, length := 2, state := 1, chunks := [(0, [1, 2])] } }
    let t : Nat := 0
    let req : Request := host2
    let c := s.clock t
    let id : Word := 5
    let chunk : Word := 0
    let crc : Word := 9
    let data : List Byte := [1, 2]
    (Ready s t req 0x41 (be32 id ++ be32 chunk ++ be8 0 ++ be8 1 ++ nat16 data.length ++ be32 crc ++ data)) ∧ (
      let w := c.taken req 0x41 (some (0, []))
      let x := w.update.ext
      (x.id = id) ∧
      (id ≠ 0) ∧
      (x.state ≠ 2) ∧
      (chunk.toNat < x.total) ∧
      (x.sizeOf chunk.toNat = data.length) ∧
      (1 ≤ data.length) ∧
      (data.length ≤ 1024) ∧
      (x.has chunk.toNat = true)) :=
  ⟨ready_of_check (by decide +kernel), by decide +kernel⟩

theorem witness_TransfersTakeTheirChunks_4 :
    let s : State := { on with update.ext := { id := 5, length := 2, state := 1 } }
    let t : Nat := 0
    let req : Request := host2
    let c := s.clock t
    let id : Word := 5
    let chunk : Word := 0
    let crc : Word := 9
    let data : List Byte := [1, 2]
    (Ready s t req 0x41 (be32 id ++ be32 chunk ++ be8 0 ++ be8 1 ++ nat16 data.length ++ be32 crc ++ data)) ∧ (
      let w := c.taken req 0x41 (some (0, []))
      let x := w.update.ext
      let mine (e : PartsEntry) : Bool := e.target == 1 && e.chunk == chunk.toNat
      (x.id = id) ∧
      (id ≠ 0) ∧
      (x.state ≠ 2) ∧
      (chunk.toNat < x.total) ∧
      (x.sizeOf chunk.toNat = data.length) ∧
      (1 ≤ data.length) ∧
      (data.length ≤ 1024) ∧
      (x.has chunk.toNat = false) ∧
      (w.update.area.any mine = false) ∧
      (crc32c data ≠ crc)) :=
  ⟨ready_of_check (by decide +kernel), by decide +kernel⟩

theorem witness_TransfersTakeTheirChunks_5 :
    let s : State := { on with update.ext := { id := 5, length := 2, state := 1 } }
    let t : Nat := 0
    let req : Request := host2
    let c := s.clock t
    let id : Word := 5
    let chunk : Word := 0
    let crc : Word := crc32c [1, 2]
    let data : List Byte := [1, 2]
    (Ready s t req 0x41 (be32 id ++ be32 chunk ++ be8 0 ++ be8 1 ++ nat16 data.length ++ be32 crc ++ data)) ∧ (
      let w := c.taken req 0x41 (some (0, []))
      let x := w.update.ext
      let mine (e : PartsEntry) : Bool := e.target == 1 && e.chunk == chunk.toNat
      (x.id = id) ∧
      (id ≠ 0) ∧
      (x.state ≠ 2) ∧
      (chunk.toNat < x.total) ∧
      (x.sizeOf chunk.toNat = data.length) ∧
      (1 ≤ data.length) ∧
      (data.length ≤ 1024) ∧
      (x.has chunk.toNat = false) ∧
      (w.update.area.any mine = false) ∧
      (crc32c data = crc) ∧
      (w.update.area.length < 32)) :=
  ⟨ready_of_check (by decide +kernel), by decide +kernel⟩

theorem witness_TransfersTakeTheirChunks_6 :
    let s : State := { on with update.area := [{ target := 1, chunk := 0, parts := [(0, [1, 2])], count := 1 }], update.ext := { id := 5, length := 4098, crc := 9, state := 1 } }
    (Running s) ∧ (
      let chunk : Nat := 0
      let e : PartsEntry := { target := 1, chunk := 0, parts := [(0, [1, 2])], count := 1 }
      ((s.update.area.find? fun e => e.target == 1 && e.chunk == chunk && e.whole) = some e) ∧
      (s.power.noNvWrites = false) ∧
      (s.update.ext.state ≠ 2) ∧ (
        let x : Transfer := { s.update.ext with chunks := s.update.ext.chunks ++ [(chunk, e.data)] }
        (x.chunks.length < x.total))) :=
  by decide +kernel

theorem witness_TransfersTakeTheirChunks_7 :
    let s : State := { on with update.area := [{ target := 1, chunk := 0, parts := [(0, [1, 2])], count := 1 }], update.ext := { id := 5, length := 2, crc := crc32c [1, 2], state := 1 } }
    (Running s) ∧ (
      let chunk : Nat := 0
      let e : PartsEntry := { target := 1, chunk := 0, parts := [(0, [1, 2])], count := 1 }
      ((s.update.area.find? fun e => e.target == 1 && e.chunk == chunk && e.whole) = some e) ∧
      (s.power.noNvWrites = false) ∧
      (s.update.ext.state ≠ 2) ∧ (
        let x : Transfer := { s.update.ext with chunks := s.update.ext.chunks ++ [(chunk, e.data)] }
        (x.total ≤ x.chunks.length) ∧
        (crc32c x.image = x.crc))) :=
  by decide +kernel

theorem witness_TransfersTakeTheirChunks_8 :
    let s : State := { on with update.area := [{ target := 1, chunk := 0, parts := [(0, [1, 2])], count := 1 }], update.ext := { id := 5, length := 2, crc := 9, state := 1 } }
    (Running s) ∧ (
      let chunk : Nat := 0
      let e : PartsEntry := { target := 1, chunk := 0, parts := [(0, [1, 2])], count := 1 }
      ((s.update.area.find? fun e => e.target == 1 && e.chunk == chunk && e.whole) = some e) ∧
      (s.power.noNvWrites = false) ∧
      (s.update.ext.state ≠ 2) ∧ (
        let x : Transfer := { s.update.ext with chunks := s.update.ext.chunks ++ [(chunk, e.data)] }
        (x.total ≤ x.chunks.length) ∧
        (crc32c x.image ≠ x.crc))) :=
  by decide +kernel

theorem witness_TransfersTakeTheirChunks_9 :
    let s : State := on
    (Running s) :=
  by decide +kernel

/-! ### The clauses of UpdatesAreQueriedAndActivated -/

theorem witness_UpdatesAreQueriedAndActivated_0 :
    let s : State := on
    let t : Nat := 0
    let req : Request := host2
    let target : BitVec 8 := 2
    let first : Word := 8
    (Ready s t req 0x42 (be8 target ++ zeros 3 ++ be32 first)) ∧ (
      ((target = 1 ∨ target = 2)) ∧
      (first.toNat % 8 = 0)) :=
  ⟨ready_of_check (by decide +kernel), by decide +kernel⟩

theorem witness_UpdatesAreQueriedAndActivated_1 :
    let s : State := on
    let t : Nat := 0
    let req : Request := host2
    let target : BitVec 8 := 3
    let first : Word := 0
    (Ready s t req 0x42 (be8 target ++ zeros 3 ++ be32 first)) ∧ (
      (((target ≠ 1 ∧ target ≠ 2) ∨ first.toNat % 8 ≠ 0))) :=
  ⟨ready_of_check (by decide +kernel), by decide +kernel⟩

theorem witness_UpdatesAreQueriedAndActivated_2 :
    let s : State := on
    let t : Nat := 0
    let req : Request := host2
    let c := s.clock t
    let when_ : BitVec 8 := 0
    let id : Word := 5
    let crc : Word := 9
    (Ready s t req 0x43 (be8 1 ++ be8 0 ++ be8 when_ ++ [0] ++ be32 id ++ be32 crc)) ∧ (
      let w := c.taken req 0x43 (some (0, []))
      let staged : Prop := w.update.ext.state = 3 ∧ w.update.ext.id = id ∧ w.update.ext.crc = crc
      (¬ staged)) :=
  ⟨ready_of_check (by decide +kernel), by decide +kernel⟩

theorem witness_UpdatesAreQueriedAndActivated_3 :
    let s : State := { solo with update.ext := { id := 5, length := 28, state := 3, crc := 9, chunks := [(0, zeros 26 ++ [0, 1])] } }
    let t : Nat := 0
    let req : Request := host2
    let c := s.clock t
    let when_ : BitVec 8 := 1
    let id : Word := 5
    let crc : Word := 9
    (Ready s t req 0x43 (be8 1 ++ be8 0 ++ be8 when_ ++ [0] ++ be32 id ++ be32 crc)) ∧ (
      let w := c.taken req 0x43 (some (0, []))
      let staged : Prop := w.update.ext.state = 3 ∧ w.update.ext.id = id ∧ w.update.ext.crc = crc
      (staged) ∧
      (when_ = 1)) :=
  ⟨ready_of_check (by decide +kernel), by decide +kernel⟩

theorem witness_UpdatesAreQueriedAndActivated_4 :
    let s : State := { solo with update.ext := { id := 5, length := 28, state := 3, crc := 9, chunks := [(0, zeros 26 ++ [0, 1])] } }
    let t : Nat := 0
    let req : Request := host2
    let c := s.clock t
    let when_ : BitVec 8 := 0
    let id : Word := 5
    let crc : Word := 9
    (Ready s t req 0x43 (be8 1 ++ be8 0 ++ be8 when_ ++ [0] ++ be32 id ++ be32 crc)) ∧ (
      let w := c.taken req 0x43 (some (0, []))
      let staged : Prop := w.update.ext.state = 3 ∧ w.update.ext.id = id ∧ w.update.ext.crc = crc
      (staged) ∧
      (when_ = 0) ∧
      (w.modes.restartPending ≠ some .update)) :=
  ⟨ready_of_check (by decide +kernel), by decide +kernel⟩

theorem witness_UpdatesAreQueriedAndActivated_5 :
    let s : State := { { solo with update.ext := { id := 5, length := 28, state := 3, crc := 9, chunks := [(0, zeros 26 ++ [0, 1])] } } with image.loaded := none }
    let t : Nat := 0
    let req : Request := host2
    let c := s.clock t
    let when_ : BitVec 8 := 2
    let id : Word := 5
    let crc : Word := 9
    (Ready s t req 0x43 (be8 1 ++ be8 0 ++ be8 when_ ++ [0] ++ be32 id ++ be32 crc)) ∧ (
      let w := c.taken req 0x43 (some (0, []))
      let staged : Prop := w.update.ext.state = 3 ∧ w.update.ext.id = id ∧ w.update.ext.crc = crc
      (staged) ∧
      (when_ = 2) ∧
      (w.imageState ≠ 1)) :=
  ⟨ready_of_check (by decide +kernel), by decide +kernel⟩

theorem witness_UpdatesAreQueriedAndActivated_6 :
    let s : State := { solo with update.ext := { id := 5, length := 28, state := 3, crc := 9, chunks := [(0, zeros 26 ++ [0, 1])] } }
    let t : Nat := 0
    let req : Request := host2
    let c := s.clock t
    let when_ : BitVec 8 := 2
    let id : Word := 5
    let crc : Word := 9
    (Ready s t req 0x43 (be8 1 ++ be8 0 ++ be8 when_ ++ [0] ++ be32 id ++ be32 crc)) ∧ (
      let w := c.taken req 0x43 (some (0, []))
      let staged : Prop := w.update.ext.state = 3 ∧ w.update.ext.id = id ∧ w.update.ext.crc = crc
      (staged) ∧
      (when_ = 2) ∧
      (w.imageState = 1) ∧
      ((∀ m ∈ w.contacts, m ∈ w.inStepPeers)) ∧
      ((ExtImage.bytes w.update.ext.image).retains = true)) :=
  ⟨ready_of_check (by decide +kernel), by decide +kernel⟩

theorem witness_UpdatesAreQueriedAndActivated_7 :
    let s : State := { solo with update.ext := { id := 5, length := 28, state := 3, crc := 9, chunks := [(0, zeros 26 ++ [0, 0])] } }
    let t : Nat := 0
    let req : Request := host2
    let c := s.clock t
    let when_ : BitVec 8 := 2
    let id : Word := 5
    let crc : Word := 9
    (Ready s t req 0x43 (be8 1 ++ be8 0 ++ be8 when_ ++ [0] ++ be32 id ++ be32 crc)) ∧ (
      let w := c.taken req 0x43 (some (0, []))
      let staged : Prop := w.update.ext.state = 3 ∧ w.update.ext.id = id ∧ w.update.ext.crc = crc
      (staged) ∧
      (when_ = 2) ∧
      (w.imageState = 1) ∧
      ((∀ m ∈ w.contacts, m ∈ w.inStepPeers)) ∧
      ((ExtImage.bytes w.update.ext.image).retains = false)) :=
  ⟨ready_of_check (by decide +kernel), by decide +kernel⟩

/-! ### The clauses of PanelObjectsTakeWrites -/

theorem witness_PanelObjectsTakeWrites_0 :
    let s : State := on
    let t : Nat := 0
    let req : Request := host
    (s.factory.optP = true) ∧
    (Ready s t req 0x11 (writeBody (objId 0xF 0 6) [1])) :=
  ⟨by decide +kernel, ready_of_check (by decide +kernel)⟩

theorem witness_PanelObjectsTakeWrites_1 :
    let s : State := on
    let t : Nat := 0
    let req : Request := host
    (s.factory.optP = true) ∧ (
      let v : BitVec 16 := 0xF448
      (Ready s t req 0x11 (writeBody (objId 0xF 0 2) (be16 v))) ∧
      ((s.modes.mode = .idle ∨ s.modes.mode = .config ∨ s.modes.mode = .test)) ∧
      (-3000 ≤ v.toInt) ∧
      (v.toInt ≤ 0) ∧
      (v.toInt % 10 = 0)) :=
  ⟨by decide +kernel, ready_of_check (by decide +kernel), by decide +kernel⟩

theorem witness_PanelObjectsTakeWrites_2 :
    let s : State := { on with panel.flight := [{}] }
    let t : Nat := 0
    let req : Request := host
    (s.factory.optP = true) ∧ (
      let v : Word := 5
      (Ready s t req 0x11 (writeBody (objId 0xF 0 3) (be32 v))) ∧
      (s.panel.flight ≠ [])) :=
  ⟨by decide +kernel, ready_of_check (by decide +kernel), by decide +kernel⟩

theorem witness_PanelObjectsTakeWrites_3 :
    let s : State := on
    let t : Nat := 0
    let req : Request := host
    (s.factory.optP = true) ∧ (
      let v : Word := Memory.crc []
      (Ready s t req 0x11 (writeBody (objId 0xF 0 3) (be32 v))) ∧
      (s.panel.flight = []) ∧
      (s.panel.checkPending = []) ∧
      (Memory.crc s.panel.frame = v)) :=
  ⟨by decide +kernel, ready_of_check (by decide +kernel), by decide +kernel, rfl, rfl⟩

theorem witness_PanelObjectsTakeWrites_4 :
    let s : State := on
    let t : Nat := 0
    let req : Request := host
    (s.factory.optP = true) ∧ (
      let v : List Byte := nat16 0 ++ nat16 40 ++ nat16 8 ++ nat16 1 ++ zeros 4 ++ [1, 2]
      let r : PnlRequest := { x := 0, y := 40, w := 8, h := 1, pixels := [1, 2] }
      (Ready s t req 0x11 (writeBody (objId 0xF 0 1) v)) ∧
      (drawRequest v = some r) ∧
      ((∀ l ∈ s.layout, (layoutRect l).overlaps r = false)) ∧
      ((∀ q ∈ s.panel.queue, q.sameRect r = false)) ∧
      (s.panel.queue.length < 16)) :=
  ⟨by decide +kernel, ready_of_check (by decide +kernel), by decide +kernel⟩

/-! ### The clauses of PanelWaveformsStartAndEnd -/

theorem witness_PanelWaveformsStartAndEnd_0 :
    let s : State := { on with panel.railsOn := true, panel.queue := [{ x := 0, y := 40, w := 8, h := 1, pixels := [1, 2] }], panel.repaintPending := false }
    (Powered s) ∧
    (s.factory.optP = true) ∧ (
      let i : Fin 18 := 0
      let r : PnlRequest := { x := 0, y := 40, w := 8, h := 1, pixels := [1, 2] }
      (i.val < 16) ∧
      (s.panel.railsOn = true) ∧
      (s.panel.queue[i.val]? = some r) ∧
      (s.panel.flight.length < 4) ∧
      ((∀ w ∈ s.panel.flight, w.req.overlaps r = false)) ∧
      ((∀ q ∈ s.panel.repaintGrey.toList ++ s.panel.repaintMono.toList ++ s.panel.queue.take i.val, q.overlaps r = false)) ∧
      (s.panel.deferred = false) ∧
      (s.panel.checkPending = [])) :=
  by decide +kernel

theorem witness_PanelWaveformsStartAndEnd_1 :
    let s : State := { on with panel.flight := [{}, { req := { x := 0, y := 40, w := 8, h := 1, pixels := [1, 2] } }] }
    let t : Nat := 0
    (Powered s) ∧
    (s.factory.optP = true) ∧ (
      let c := s.clock t
      let i : Fin 4 := 1
      let w : Waveform := { req := { x := 0, y := 40, w := 8, h := 1, pixels := [1, 2] } }
      (s.panel.flight[i.val]? = some w) ∧
      (w.endsAt ≤ c.now) ∧
      (w.req.repaint = false) ∧
      (s.panel.flight.eraseIdx i.val ≠ [])) :=
  by decide +kernel

theorem witness_PanelWaveformsStartAndEnd_2 :
    let s : State := { on with panel.queue := [{ x := 0, y := 40, w := 8, h := 1, pixels := [1, 2] }] }
    (Powered s) ∧
    (s.factory.optP = true) ∧ (
      (s.panel.railsOn = false) ∧
      (s.panel.anyReady = true)) :=
  by decide +kernel

theorem witness_PanelWaveformsStartAndEnd_3 :
    let s : State := tb0At 100000000 { on with panel.railsOn := true, panel.idleSince := some 0 }
    let t : Nat := 0
    (Powered s) ∧
    (s.factory.optP = true) ∧ (
      let c := s.clock t
      let a : Nat := 0
      (s.panel.railsOn = true) ∧
      (s.panel.flight = []) ∧
      (s.panel.anyReady = false) ∧
      (s.panel.idleSince = some a) ∧
      (a + 100 * ms ≤ c.now)) :=
  by decide +kernel

/-! ### The clauses of PanelSupervision -/

theorem witness_PanelSupervision_0 :
    let s : State := { on with panel.railsOn := true }
    (Powered s) ∧
    (s.factory.optP = true) ∧ (
      (s.panel.railsOn = true) ∧
      (s.panel.railFaultAt = none)) :=
  by decide +kernel

theorem witness_PanelSupervision_1 :
    let s : State := tb0At 59999999999 { on with panel.railsOn := true, panel.railFaultAt := some 0 }
    let t : Nat := 0
    (Powered s) ∧
    (s.factory.optP = true) ∧ (
      let c := s.clock t
      let a : Nat := 0
      (s.panel.railsOn = true) ∧
      (s.panel.railFaultAt = some a) ∧
      (c.now < a + 60 * second)) :=
  by decide +kernel

theorem witness_PanelSupervision_2 :
    let s : State := tb0At 1000000000 { on with panel.railFault := true, panel.railFaultAt := some 0 }
    let t : Nat := 0
    (Powered s) ∧
    (s.factory.optP = true) ∧ (
      let c := s.clock t
      let a : Nat := 0
      (s.panel.railFault = true) ∧
      (s.panel.railLocked = false) ∧
      (s.panel.railFaultAt = some a) ∧
      (a + second ≤ c.now)) :=
  by decide +kernel

theorem witness_PanelSupervision_3 :
    let s : State := { on with panel.tempRead := true, panel.tempAt := 1 }
    let t : Nat := 0
    (Powered s) ∧
    (s.factory.optP = true) ∧ (
      let c := s.clock t
      (s.panel.tempRead = true) ∧
      (c.now < s.panel.tempAt + second)) :=
  by decide +kernel

theorem witness_PanelSupervision_4 :
    let s : State := on
    let t : Nat := 0
    (Powered s) ∧
    (s.factory.optP = true) ∧ (
      let c := s.clock t
      ((s.panel.tempRead = true → s.panel.tempAt + second ≤ c.now)) ∧ (
        let k : Int := 4999
        (0 ≤ k) ∧
        (k < 5000) ∧
        (s.panel.deferred = false))) :=
  by decide +kernel

theorem witness_PanelSupervision_5 :
    let s : State := { on with panel.flight := [{}] }
    let t : Nat := 0
    (Powered s) ∧
    (s.factory.optP = true) ∧ (
      let c := s.clock t
      ((s.panel.tempRead = true → s.panel.tempAt + second ≤ c.now)) ∧ (
        let k : Int := -1
        (k < 0) ∧
        (s.panel.deferredCold = false) ∧
        (s.panel.deferredHot = false) ∧
        (s.panel.flight ≠ []))) :=
  by decide +kernel

theorem witness_PanelSupervision_6 :
    let s : State := { on with panel.flight := [{}], panel.deferredCold := true }
    let t : Nat := 0
    (Powered s) ∧
    (s.factory.optP = true) ∧ (
      let c := s.clock t
      ((s.panel.tempRead = true → s.panel.tempAt + second ≤ c.now)) ∧ (
        let k : Int := 100
        (100 ≤ k) ∧
        (k < 5000) ∧
        (s.panel.deferredCold = true) ∧
        (s.panel.deferredHot = false) ∧
        (s.panel.flight ≠ []))) :=
  by decide +kernel

theorem witness_PanelSupervision_7 :
    let s : State := { on with panel.flight := [{}] }
    let t : Nat := 0
    (Powered s) ∧
    (s.factory.optP = true) ∧ (
      let c := s.clock t
      ((s.panel.tempRead = true → s.panel.tempAt + second ≤ c.now)) ∧ (
        let k : Int := 5000
        (5000 ≤ k) ∧
        (s.panel.deferredCold = false) ∧
        (s.panel.deferredHot = false) ∧
        (s.panel.flight ≠ []))) :=
  by decide +kernel

theorem witness_PanelSupervision_8 :
    let s : State := on
    let t : Nat := 0
    (Powered s) ∧
    (s.factory.optP = true) ∧ (
      let c := s.clock t
      (c.now / (60 * second) ≤ s.panel.crcPeriod)) :=
  by decide +kernel

theorem witness_PanelSupervision_9 :
    let s : State := tb0At 60000000000 { on with panel.frame := [(119999, 1)] }
    let t : Nat := 0
    (Powered s) ∧
    (s.factory.optP = true) ∧ (
      let c := s.clock t
      (s.panel.crcPeriod < c.now / (60 * second)) ∧
      (s.panel.flight = []) ∧
      (s.panel.checkPending = []) ∧
      (Memory.crc s.panel.frame ≠ Memory.crc s.panel.image)) :=
  ⟨by decide +kernel, by decide +kernel, by decide +kernel, by decide +kernel, by decide +kernel, crc_differs⟩

/-! ### The clauses of FrameMemoryIsWrittenByRectangle -/

theorem witness_FrameMemoryIsWrittenByRectangle_0 :
    let m : List Host.Cell := [(0, 1)]
    let r : PnlRequest := { x := 392, y := 299, w := 8, h := 1 }
    (Memory.wf m = true) ∧
    (r.x + r.w ≤ 400) ∧
    (r.y + r.h ≤ 300) :=
  by decide +kernel

theorem witness_FrameMemoryIsWrittenByRectangle_1 :
    let m : List Host.Cell := [(0, 1)]
    let r : PnlRequest := { x := 392, y := 299, w := 8, h := 1 }
    (Memory.wf m = true) ∧
    (r.x + r.w ≤ 400) ∧
    (r.y + r.h ≤ 300) ∧ (
      let i : Nat := 0
      let j : Nat := 7
      (i < r.h) ∧
      (j < r.w)) :=
  by decide +kernel

theorem witness_FrameMemoryIsWrittenByRectangle_2 :
    let m : List Host.Cell := [(0, 1)]
    let r : PnlRequest := { x := 392, y := 299, w := 8, h := 1 }
    (Memory.wf m = true) ∧
    (r.x + r.w ≤ 400) ∧
    (r.y + r.h ≤ 300) ∧ (
      let a : Nat := 119991
      ((∀ i j : Nat, i < r.h → j < r.w → a ≠ (r.y + i) * 400 + r.x + j))) :=
  ⟨by decide +kernel, by decide +kernel, by decide +kernel, fun i j (hi : i < 1) (hj : j < 8) => show 119991 ≠ (299 + i) * 400 + 392 + j by omega⟩

theorem witness_FrameMemoryIsWrittenByRectangle_3 :
    let m : List Host.Cell := [(0, 1)]
    let r : PnlRequest := { x := 392, y := 299, w := 8, h := 1 }
    (Memory.wf m = true) ∧
    (r.x + r.w ≤ 400) ∧
    (r.y + r.h ≤ 300) ∧ (
      let m' : List Host.Cell := [(0, 1)]
      (Memory.wf m' = true) ∧
      ((∀ a : Nat, Memory.get m a = Memory.get m' a))) :=
  ⟨by decide +kernel, by decide +kernel, by decide +kernel, by decide +kernel, fun _ => rfl⟩

theorem witness_FrameMemoryIsWrittenByRectangle_4 :
    let m : List Host.Cell := [(0, 1)]
    let r : PnlRequest := { x := 392, y := 299, w := 8, h := 1 }
    (Memory.wf m = true) ∧
    (r.x + r.w ≤ 400) ∧
    (r.y + r.h ≤ 300) ∧ (
      let s : State := on
      (Memory.wf s.panel.frame = true) ∧
      (Memory.wf s.panel.image = true)) :=
  by decide +kernel

end Sys2Proof.Tests
end

section
/-! The factory block is read-only to every command (R3, R176).

`Keeps s u` says that `u` has the factory block and the queue of waiting commands of `s`. Of each function `f` of the model that answers a
state there is one lemma, in the order of the model's files: `f_keeps` for an operation, `f_completes` for a command. Its proof has the
shape of the function: `.set` for an update of other fields, `.ite` and `split` for its branches, `.foldl` for a loop, and
`g_keeps.after` for a call of `g`. Only a start writes the block, to note whether it passes its check: `KeepsFitted` allows that, and the
commands that may start the block have `f_completesFitted` in place of `f_completes`. -/

namespace Sys2Proof.Machine

/-! ## What it is to leave both alone -/

/-- The factory block and the queue of waiting commands are as they were. -/
structure Keeps (s u : State) : Prop where
  factory : u.factory = s.factory
  pending : u.pending = s.pending

theorem Keeps.refl {s : State} : Keeps s s := ⟨rfl, rfl⟩

/-- An operation that keeps both, after what led to the state it acts on. -/
theorem Keeps.after {s u v : State} (k : Keeps u v) (h : Keeps s u) : Keeps s v :=
  ⟨k.factory.trans h.factory, k.pending.trans h.pending⟩

/-- An operation whose parts, as its frame lemma lists them, are not these two. -/
theorem Keeps.of_frame {ps : List Part} {s u : State} (h : FrameBut ps s u)
    (other : (ps.contains .factory || ps.contains .pending) = false) : Keeps s u := by
  simp only [Bool.or_eq_false_iff, List.contains_eq_mem, decide_eq_false_iff_not] at other
  exact ⟨h.factory other.1, h.pending other.2⟩

/-- The state of a pair that a kept operation answers. -/
theorem Keeps.of_snd {β : Type} {s u : State} {p : β × State} {b : β} (e : p = (b, u)) (h : Keeps s p.2) : Keeps s u := by
  rwa [e] at h

/-- An update of any other fields. -/
theorem Keeps.set {s w : State} {events cycle image time gnss ain fusion wind obs obsParams obsOut history law dyn sol res solParams servo
    field saf modes retained group gcycle net qcp recorder trust hsk update panel power free} (h : Keeps s w) :
    Keeps s { factory := w.factory, events := events, cycle := cycle, image := image, time := time, gnss := gnss, ain := ain,
              fusion := fusion, wind := wind, obs := obs, obsParams := obsParams, obsOut := obsOut, history := history, law := law,
              dyn := dyn, sol := sol, res := res, solParams := solParams, servo := servo, field := field, saf := saf, modes := modes,
              retained := retained, group := group, gcycle := gcycle, net := net, qcp := qcp, recorder := recorder, trust := trust,
              hsk := hsk, update := update, panel := panel, power := power, free := free, pending := w.pending } :=
  ⟨h.factory, h.pending⟩

theorem Keeps.ite {s a b : State} {c : Prop} {_ : Decidable c} (h : Keeps s a) (k : Keeps s b) : Keeps s (if c then a else b) := by
  split
  · exact h
  · exact k

theorem Keeps.ite_of {β : Type} (state : β → State) {s : State} {a b : β} {c : Prop} {_ : Decidable c} (h : Keeps s (state a))
    (k : Keeps s (state b)) : Keeps s (state (if c then a else b)) := by
  split
  · exact h
  · exact k

theorem Keeps.foldl {α : Type} {f : State → α → State} {l : List α} {s a : State} (h : ∀ u x, Keeps u (f u x)) (ha : Keeps s a) :
    Keeps s (l.foldl f a) := by
  induction l generalizing a with
  | nil => exact ha
  | cons x l ih => exact ih ((h _ _).after ha)

/-- A fold that carries the state within its value. -/
theorem Keeps.foldl_of {α β : Type} (state : β → State) {f : β → α → β} {l : List α} {s : State} {a : β}
    (h : ∀ p x, Keeps (state p) (state (f p x))) (ha : Keeps s (state a)) : Keeps s (state (l.foldl f a)) := by
  induction l generalizing a with
  | nil => exact ha
  | cons x l ih => exact ih ((h _ _).after ha)

/-- What a host command decides keeps both, and so does what a refusal counts. -/
structure DoneKeeps (s : State) (d : Done) : Prop where
  state : Keeps s d.state
  count : ∀ w, Keeps w (d.count w)

theorem DoneKeeps.after {s u : State} {d : Done} (k : DoneKeeps u d) (h : Keeps s u) : DoneKeeps s d := ⟨k.state.after h, k.count⟩

/-- An answer that counts nothing on a refusal. -/
theorem DoneKeeps.answer {s w : State} {st : Status} {b : List Byte} {keep deferred : Bool} {detail : Word} (h : Keeps s w) :
    DoneKeeps s { status := st, body := b, state := w, keep := keep, detail := detail, deferred := deferred } :=
  ⟨h, fun _ => .refl⟩

/-- An answer told in other words. -/
theorem DoneKeeps.set {s : State} {d : Done} {st : Status} {b : List Byte} {keep deferred : Bool} {detail : Word} (h : DoneKeeps s d) :
    DoneKeeps s { status := st, body := b, state := d.state, keep := keep, count := d.count, detail := detail, deferred := deferred } :=
  ⟨h.state, h.count⟩

theorem DoneKeeps.refuse {s w : State} {st : Status} {b : List Byte} (h : Keeps s w) : DoneKeeps s (refuse st w b) :=
  ⟨h, fun _ => .refl⟩

theorem DoneKeeps.done {s w : State} (h : Keeps s w) : DoneKeeps s (done w) := ⟨h, fun _ => .refl⟩

theorem DoneKeeps.ite {s : State} {a b : Done} {c : Prop} {_ : Decidable c} (h : DoneKeeps s a) (k : DoneKeeps s b) :
    DoneKeeps s (if c then a else b) := by
  split
  · exact h
  · exact k

theorem DoneKeeps.checkValue {s w : State} {ok : Bool} {f : Unit → Done} (h : DoneKeeps s (f ())) (hw : Keeps s w) :
    DoneKeeps s (checkValue ok w f) :=
  .ite h (.refuse hw)

theorem DoneKeeps.notPositioning {s w : State} {c : WriteCtx} {f : Unit → Done} (h : DoneKeeps s (f ())) (hw : Keeps s w) :
    DoneKeeps s (c.notPositioning w f) :=
  .ite (.refuse hw) h

theorem DoneKeeps.onlyIn {s w : State} {c : WriteCtx} {ms : List Mode} {f : Unit → Done} (h : DoneKeeps s (f ())) (hw : Keeps s w) :
    DoneKeeps s (c.onlyIn w ms f) :=
  .ite h (.refuse hw)

/-- What a READ finds keeps both. -/
def ReadKeeps (s : State) (r : ReadResult) : Prop := Keeps s r.state

theorem ReadKeeps.result {s w : State} {st : Status} {v : List Byte} (h : Keeps s w) :
    ReadKeeps s { status := st, value := v, state := w } := h

theorem ReadKeeps.noRead {s w : State} {st : Status} (h : Keeps s w) : ReadKeeps s (noRead st w) := h

theorem ReadKeeps.readAs {s w : State} {v : List Byte} (h : Keeps s w) : ReadKeeps s (readAs v w) := h

theorem ReadKeeps.ite {s : State} {a b : ReadResult} {c : Prop} {_ : Decidable c} (h : ReadKeeps s a) (k : ReadKeeps s b) :
    ReadKeeps s (if c then a else b) := by
  split
  · exact h
  · exact k

/-- A command ends in a next state that keeps both. -/
def Completes (s : State) (o : Out) : Prop := ∃ u : State, o = .next u ∧ Keeps s u

theorem Completes.next {s u : State} (h : Keeps s u) : Completes s (.next u) := ⟨u, rfl, h⟩


/-! ## Functions of Sys2Proof/Machine/Ops.lean -/

theorem State.clock_keeps {s : State} {t} : Keeps s (s.clock t) :=
  .of_frame (State.clock_frame _ _) rfl

theorem State.record_keeps {s : State} {code island p0 p1 p2 p3 time trigger} : Keeps s (s.record code island p0 p1 p2 p3 time trigger) :=
  .of_frame (State.record_frame _ _ _ _ _ _ _ _ _) rfl

theorem State.startFlush_keeps {s : State} {trigger} : Keeps s (s.startFlush trigger) :=
  .of_frame (State.startFlush_frame _ _) rfl

theorem State.pushTele_keeps {s : State} {stream source body dest} : Keeps s (s.pushTele stream source body dest) :=
  .of_frame (State.pushTele_frame _ _ _ _ _) rfl

theorem State.stampEdge_keeps {s : State} {m rising edge} : Keeps s (s.stampEdge m rising edge).2 :=
  .of_frame (State.stampEdge_frame _ _ _ _) rfl

theorem State.stampInput_keeps {s : State} {input rising edge} : Keeps s (s.stampInput input rising edge).2 :=
  .of_frame (State.stampInput_frame _ _ _ _) rfl

theorem State.captureLine_keeps {s : State} {line was edge} : Keeps s (s.captureLine line was edge) :=
  .of_frame (State.captureLine_frame _ _ _ _) rfl

theorem State.pulseFrom_keeps {s : State} {line ns restart edge} : Keeps s (s.pulseFrom line ns restart edge) :=
  .of_frame (State.pulseFrom_frame _ _ _ _ _) rfl

theorem State.captureHolds_keeps {s : State} : Keeps s s.captureHolds :=
  .of_frame (State.captureHolds_frame _) rfl

theorem State.clearOverloads_keeps {s : State} : Keeps s s.clearOverloads :=
  .of_frame (State.clearOverloads_frame _) rfl

theorem State.startHandler_keeps {s : State} {c} : Keeps s (s.startHandler c) :=
  .of_frame (State.startHandler_frame _ _) rfl

theorem State.faultRecord_keeps {s : State} {f} : Keeps s (s.faultRecord f) :=
  State.record_keeps

theorem State.sendLane_keeps {s : State} {f} : Keeps s (s.sendLane f) :=
  .of_frame (State.sendLane_frame _ _) rfl

theorem State.sendLaneTo_keeps {s : State} {m f} : Keeps s (s.sendLaneTo m f) :=
  .of_frame (State.sendLaneTo_frame _ _ _) rfl

theorem State.clearAuth_keeps {s : State} : Keeps s s.clearAuth :=
  .of_frame (State.clearAuth_frame _) rfl

theorem State.yieldTo_keeps {s : State} {next instant} : Keeps s (s.yieldTo next instant) :=
  .of_frame (State.yieldTo_frame _ _ _) rfl

theorem State.leaveTest_keeps {s : State} : Keeps s s.leaveTest :=
  .of_frame (State.leaveTest_frame _) rfl

theorem State.toSafe_keeps {s : State} {bit} : Keeps s (s.toSafe bit) :=
  .of_frame (State.toSafe_frame _ _) rfl

theorem State.enterSafe_keeps {s : State} {bit} : Keeps s (s.enterSafe bit) :=
  .of_frame (State.enterSafe_frame _ _) rfl

theorem State.raise_keeps {s : State} {n p0 p1 p2 p3 must} : Keeps s (s.raise n p0 p1 p2 p3 must) :=
  .of_frame (State.raise_frame _ _ _ _ _ _ _) rfl

theorem State.setRole_keeps {s : State} {r cause} : Keeps s (s.setRole r cause) :=
  .of_frame (State.setRole_frame _ _ _) rfl

theorem State.raiseN_keeps {s : State} {n p0 p1 p2 p3} : Keeps s (s.raiseN n p0 p1 p2 p3) :=
  .of_frame (State.raiseN_frame _ _ _ _ _ _) rfl

/-- A gated effect that keeps both completes, whatever its gate. -/
theorem run_completes {s : State} {gate t f} (h : ∀ u, Keeps u (f u)) : Completes s (run gate t s f) :=
  .next <| .ite ((h _).after State.clock_keeps) State.clock_keeps

theorem runPowered_completes {s : State} {t f} (h : ∀ u, Keeps u (f u)) : Completes s (runPowered t s f) := run_completes h

theorem runRunning_completes {s : State} {t f} (h : ∀ u, Keeps u (f u)) : Completes s (runRunning t s f) := run_completes h

/-! ## Functions of Sys2Proof/Machine/Protocol.lean -/

theorem State.respond_keeps {s : State} {req op st body} : Keeps s (s.respond req op st body) :=
  .of_frame (State.respond_frame _ _ _ _ _) rfl

theorem State.recordCommand_keeps {s : State} {req op p0 value time} : Keeps s (s.recordCommand req op p0 value time) :=
  .of_frame (State.recordCommand_frame _ _ _ _ _ _) rfl

theorem State.ownBusy_keeps {s : State} {req op} : Keeps s (s.ownBusy req op) :=
  .ite (.set .refl) <| State.raise_keeps.after <| .set <| .set .refl

theorem State.taken_keeps {s : State} {req op recorded} : Keeps s (s.taken req op recorded) := by
  unfold State.taken
  dsimp only
  split
  · exact .set .refl
  · exact State.recordCommand_keeps.after <| .set .refl

theorem State.judged_keeps {s : State} {req op act} (h : ∀ u, DoneKeeps u (act u)) : DoneKeeps s (s.judged req op act) :=
  .ite (.refuse .refl) (.ite (.refuse .refl) (h _))

/-- A host command whose act keeps both is served without touching either, be it accepted, refused or BUSY. -/
theorem State.serve_keeps {s : State} {req op body recorded act} (h : ∀ u, DoneKeeps u (act u)) :
    Keeps s (s.serve req op body recorded act) :=
  have d : DoneKeeps s ((s.taken req op recorded).judged req op act) := (State.judged_keeps h).after State.taken_keeps
  .ite State.ownBusy_keeps <| .ite .refl <| .ite d.state <| .ite (State.respond_keeps.after d.state)
    (State.respond_keeps.after <| (d.count _).after State.taken_keeps)

theorem State.complete_keeps {s : State} {req op p0 time st body} : Keeps s (s.complete req op p0 time st body) :=
  State.respond_keeps.after <| .ite State.recordCommand_keeps .refl

theorem State.writeAct_keeps {s : State} {req obj act} (h : ∀ c u, DoneKeeps u (act c u)) : DoneKeeps s (State.writeAct req obj act s) :=
  .set <| .ite (.refuse .refl) (h _ _)

theorem State.hostWrite_keeps {s : State} {req obj value act} (h : ∀ c u, DoneKeeps u (act c u)) :
    Keeps s (s.hostWrite req obj value act) :=
  State.serve_keeps fun _ => State.writeAct_keeps fun _ _ => h _ _

theorem State.readAct_keeps {s : State} {req obj offset max get} (h : ∀ u, ReadKeeps u (get u)) :
    DoneKeeps s (s.readAct req obj offset max get) := by
  unfold State.readAct
  refine .ite (.refuse .refl) (.ite (.ite (.refuse .refl) (.ite (.refuse <| .set (h _)) (.answer <| .set (h _)))) ?_)
  split
  · exact .ite (.refuse .refl) (.answer .refl)
  · exact .refuse .refl

theorem State.hostRead_keeps {s : State} {req obj offset max changes get} (h : ∀ u, ReadKeeps u (get u)) :
    Keeps s (s.hostRead req obj offset max changes get) :=
  State.serve_keeps fun _ => State.readAct_keeps h

theorem runHost_completes {s : State} {t f} (h : ∀ u, Keeps u (f u)) : Completes s (runHost t s f) :=
  runPowered_completes fun _ => .ite (.set <| (h _).after ⟨rfl, rfl⟩) (h _)

/-! ## Functions of Sys2Proof/Machine/TimeBases.lean -/

theorem State.setBaseState_keeps {s : State} {n new} : Keeps s (s.setBaseState n new) :=
  .ite .refl <| State.raiseN_keeps.after <| .set .refl

theorem State.lockBase_keeps {s : State} {n} : Keeps s (s.lockBase n) :=
  State.setBaseState_keeps.after <| .set <| .set .refl

theorem State.holdoverBase_keeps {s : State} {n} : Keeps s (s.holdoverBase n) :=
  .ite (State.setBaseState_keeps.after <| .set .refl) (.set .refl)

theorem State.tryLock_keeps {s : State} {n} : Keeps s (s.tryLock n) :=
  .ite State.lockBase_keeps .refl

theorem State.correct_keeps {s : State} {n off_} : Keeps s (s.correct n off_) :=
  .ite (State.tryLock_keeps.after <| .set <| .set <| .set .refl) <| .after (.ite (.set .refl) <| .ite (.ite (.set .refl) <|
    State.raise_keeps.after <| .set .refl) (.set .refl)) <| .ite (State.setBaseState_keeps.after <| .set <| .set <| .set <| .set .refl) <|
    .set <| .set <| .set .refl

theorem State.followSource_keeps {s : State} {n} : Keeps s (s.followSource n) :=
  .ite State.correct_keeps .refl

theorem State.measure_keeps {s : State} {n off_} : Keeps s (s.measure n off_) :=
  State.followSource_keeps.after State.correct_keeps

theorem State.reportOverruns_keeps {s : State} : Keeps s s.reportOverruns :=
  .foldl (fun _ _ => State.raise_keeps) (.set .refl)

theorem State.latchLine_keeps {s : State} {line on_ edge} : Keeps s (s.latchLine line on_ edge) := by
  unfold State.latchLine
  exact State.captureLine_keeps.after <| .set .refl

theorem State.compareAct_keeps {s : State} {m edge} : Keeps s (s.compareAct m edge) := by
  unfold State.compareAct
  refine .set ?_
  split
  · exact State.pulseFrom_keeps
  · exact State.latchLine_keeps
  · exact State.latchLine_keeps
  · exact .refl

theorem State.comparePassed_keeps {s : State} {n lo hi} : Keeps s (s.comparePassed n lo hi) :=
  .foldl (fun _ _ => .ite (State.raise_keeps.after <| State.reportOverruns_keeps.after State.compareAct_keeps) .refl) .refl

theorem State.stepBase_keeps {s : State} {n off_ ago} : Keeps s (s.stepBase n off_ ago) :=
  .ite (State.comparePassed_keeps.after <| State.raise_keeps.after <| .set <| .set <| .set <| .set .refl) <| State.tryLock_keeps.after <|
    State.comparePassed_keeps.after <| State.raise_keeps.after <| .ite (.set <| .set <| .set .refl) <| .set <| .set .refl

theorem State.electMaster_keeps {s : State} {cands} : Keeps s (s.electMaster cands) := by
  unfold State.electMaster
  refine .ite (.set .refl) ?_
  dsimp only
  split
  · exact .set <| .set <| .set .refl
  · exact State.raise_keeps.after <| .set <| .set .refl

theorem State.ptpAnnounce_keeps {s : State} {port a} : Keeps s (s.ptpAnnounce port a) :=
  .ite .refl State.electMaster_keeps

theorem State.ptpRetune_keeps {s : State} : Keeps s s.ptpRetune :=
  State.electMaster_keeps

theorem State.ptpOffset_keeps {s : State} {origin correction rx} : Keeps s (s.ptpOffset origin correction rx) :=
  State.measure_keeps.after <| .set .refl

theorem State.ptpMessage_keeps {s : State} {port m} : Keeps s (s.ptpMessage port m) := by
  unfold State.ptpMessage
  refine .ite .refl ?_
  split
  · exact State.ptpAnnounce_keeps
  · split
    · exact .refl
    · exact .ite .refl <| .ite (.set <| .set <| .set .refl) <| State.ptpOffset_keeps.after <| .set <| .set .refl
  · split
    · exact .refl
    · exact .ite .refl <| State.ptpOffset_keeps.after <| .set .refl
  · split
    · exact .ite .refl (.set .refl)
    · exact .refl

theorem execPtpMessageReceived_completes {s : State} {t port msg} : Completes s (execPtpMessageReceived t port msg s) :=
  runPowered_completes fun _ => State.ptpMessage_keeps

theorem State.dropSource_keeps {s : State} {n} : Keeps s (s.dropSource n) :=
  .ite State.electMaster_keeps <| .ite (.set .refl) .refl

theorem execTbSourceLost_completes {s : State} {t base} : Completes s (execTbSourceLost t base s) :=
  runPowered_completes fun _ => .ite (State.dropSource_keeps.after State.holdoverBase_keeps) .refl

theorem execTb3SourceChange_completes {s : State} {t source} : Completes s (execTb3SourceChange t source s) :=
  runPowered_completes fun _ => .ite (State.correct_keeps.after <| .set .refl) <| .ite (.set .refl) .refl

theorem execHoldoverLimitExceeded_completes {s : State} {t base} : Completes s (execHoldoverLimitExceeded t base s) :=
  runPowered_completes fun _ => .ite State.setBaseState_keeps .refl

theorem execTimeStep_completes {s : State} {t base} : Completes s (execTimeStep t base s) :=
  runPowered_completes fun _ => .ite State.stepBase_keeps .refl

theorem execLeapSecond_completes {s : State} {t} : Completes s (execLeapSecond t s) :=
  runPowered_completes fun _ => .ite (.set .refl) .refl

theorem State.captureEdge_keeps {s : State} {m rising} : Keeps s (s.captureEdge m rising) :=
  .after (.ite State.raise_keeps .refl) State.stampEdge_keeps

theorem State.captureInput_keeps {s : State} {input rising edge} : Keeps s (s.captureInput input rising edge) := by
  unfold State.captureInput
  dsimp only
  exact State.reportOverruns_keeps.after <| .set State.stampInput_keeps

theorem execCaptureEdge_completes {s : State} {t unit rising} : Completes s (execCaptureEdge t unit rising s) :=
  runPowered_completes fun _ => State.captureEdge_keeps

theorem execCaptureDrain_completes {s : State} {t} : Completes s (execCaptureDrain t s) :=
  runRunning_completes fun _ => State.reportOverruns_keeps.after <| .set .refl

theorem State.ppsOut_keeps {s : State} : Keeps s s.ppsOut :=
  .ite .refl <| .ite (.set .refl) <| State.pushTele_keeps.after <| .set .refl

theorem execCompareFire_completes {s : State} {t unit} : Completes s (execCompareFire t unit s) :=
  runPowered_completes fun _ => .ite State.ppsOut_keeps <| .ite .refl <| .ite
    (State.reportOverruns_keeps.after State.compareAct_keeps) .refl

theorem execPpsInEdge_completes {s : State} {t} : Completes s (execPpsInEdge t s) :=
  runPowered_completes fun _ => .after (.ite .refl <| .ite (.set .refl) <| .ite (.set .refl) .refl) State.captureInput_keeps

theorem State.labelEdge_keeps {s : State} {utc arrived} : Keeps s (s.labelEdge utc arrived) := by
  unfold State.labelEdge
  refine .ite .refl ?_
  dsimp only
  split
  · exact .ite (.set .refl) <| State.measure_keeps.after <| .set <| .set <| .set .refl
  · exact .set .refl

theorem execPpsInLost_completes {s : State} {t} : Completes s (execPpsInLost t s) :=
  runPowered_completes fun _ => .ite (State.raise_keeps.after <| .set .refl) .refl

theorem execOvenStatus_completes {s : State} {t status} : Completes s (execOvenStatus t status s) :=
  runPowered_completes fun _ => .ite (.set .refl) .refl

/-! ## Functions of Sys2Proof/Machine/Association.lean -/

theorem State.takeDatagram_keeps {s : State} {point d stamp} : Keeps s (s.takeDatagram point d stamp).2 := by
  unfold State.takeDatagram
  split
  · exact .refl
  · split
    · exact .refl
    · exact .ite (State.raise_keeps.after <| .set .refl) (.set .refl)

/-! ## Functions of Sys2Proof/Machine/Fusion.lean -/

theorem State.countRef_keeps {s : State} {point which} : Keeps s (s.countRef point which) :=
  .foldl (fun _ _ => .ite (State.raise_keeps.after <| .set .refl) (.set .refl)) .refl

theorem State.countInvalid_keeps {s : State} {xs} : Keeps s (s.countInvalid xs) := by
  unfold State.countInvalid
  refine .foldl (fun _ _ => ?_) .refl
  split
  · exact .refl
  · exact .ite .refl (.set .refl)

theorem State.countSuperseded_keeps {s : State} {xs} : Keeps s (s.countSuperseded xs) := by
  unfold State.countSuperseded
  refine .foldl (fun _ _ => ?_) .refl
  split
  · exact .refl
  · exact .ite .refl (.set .refl)

theorem State.sigmaEff_keeps {s : State} {r sl x noMotion} : Keeps s (s.sigmaEff r sl x noMotion).2 :=
  .ite (State.raise_keeps.after <| .set .refl) (.set .refl)

theorem State.residuals_keeps {s : State} {hdg vs m} : Keeps s (s.residuals hdg vs m) :=
  .foldl (fun _ _ => .set .refl) .refl

theorem State.setNoConsensus_keeps {s : State} {hdg n} : Keeps s (s.setNoConsensus hdg n) :=
  .ite (.set .refl) (.set .refl)

theorem State.disagree_keeps {s : State} {hdg voters} : Keeps s (s.disagree hdg voters) :=
  .after (.ite State.setNoConsensus_keeps <| State.raise_keeps.after <| State.setNoConsensus_keeps.after <| .foldl (fun _ _ =>
    .set .refl) .refl) <| .foldl (fun _ _ => .set .refl) .refl

theorem State.judge_keeps {s : State} {hdg vs v} : Keeps s (s.judge hdg vs v) :=
  .ite (.foldl (fun _ _ => .ite (.set .refl) (.set .refl)) State.setNoConsensus_keeps) State.disagree_keeps

theorem State.admissionStep_keeps {s : State} {hdg r tk vel consensus} : Keeps s (s.admissionStep hdg r tk vel consensus) := by
  unfold State.admissionStep
  dsimp only
  split
  · exact .ite (.set .refl) <| .ite (.set .refl) (.set .refl)
  · exact .set .refl

theorem State.bootstrap_keeps {s : State} {hdg fresh tk x vel} : Keeps s (s.bootstrap hdg fresh tk x vel).1 := by
  unfold State.bootstrap
  dsimp only
  split
  · exact .after (.ite .refl <| .foldl (fun _ _ => .set .refl) .refl) <| .foldl (fun _ _ => .set .refl) .refl
  · exact State.setNoConsensus_keeps.after <| .foldl (fun _ _ => .set .refl) <| .set <| .foldl (fun _ _ => .set .refl) .refl
  · exact .after (.ite_of Prod.fst (.foldl (fun _ _ => .set .refl) <| State.setNoConsensus_keeps.after <| .foldl (fun _ _ =>
      .set .refl) .refl) State.disagree_keeps) <| .foldl (fun _ _ => .set .refl) .refl

theorem State.readmissionStep_keeps {s : State} {hdg tk vel o} : Keeps s (s.readmissionStep hdg tk vel o) :=
  .foldl (fun _ _ => .ite (.set .refl) .refl) .refl

theorem State.voteKind_keeps {s : State} {hdg fresh mute tk x} : Keeps s (s.voteKind hdg fresh mute tk x).1 := by
  unfold State.voteKind
  refine State.readmissionStep_keeps.after ?_
  split
  · refine State.residuals_keeps.after <| .ite_of Prod.fst (.foldl (fun _ _ => State.admissionStep_keeps) ?_) <|
      State.bootstrap_keeps.after <| .foldl (fun _ _ => .set .refl) .refl
    split
    · exact .foldl (fun _ _ => .set .refl) .refl
    · exact State.setNoConsensus_keeps.after <| .set <| .foldl (fun _ _ => .set .refl) .refl
    · exact State.judge_keeps.after <| .foldl (fun _ _ => .set .refl) .refl
  · refine .ite_of Prod.fst (.foldl (fun _ _ => State.admissionStep_keeps) ?_) <| State.bootstrap_keeps.after <| .foldl (fun _ _ =>
      .set .refl) .refl
    split
    · exact .foldl (fun _ _ => .set .refl) .refl
    · exact State.setNoConsensus_keeps.after <| .set <| .foldl (fun _ _ => .set .refl) .refl
    · exact State.judge_keeps.after <| .foldl (fun _ _ => .set .refl) .refl

theorem State.settle_keeps {s : State} {r lever angle bound b} : Keeps s (s.settle r lever angle bound b) :=
  .after (.ite State.raise_keeps .refl) <| .ite (State.raise_keeps.after <| .set <| .set .refl) <| .set <| .set .refl

theorem State.refineLever_keeps {s : State} {r tk x psi rd} : Keeps s (s.refineLever r tk x psi rd) := by
  unfold State.refineLever
  dsimp only
  split
  · refine .ite .refl ?_
    split
    · exact .refl
    · exact State.settle_keeps
  · exact .refl

theorem State.refine_keeps {s : State} {r tk x psi rd} : Keeps s (s.refine r tk x psi rd) := by
  unfold State.refine
  refine .ite (.ite (.set .refl) .refl) <| .ite (.after (.ite State.refineLever_keeps .refl) <| .ite (.set .refl) .refl) ?_
  split
  · exact State.settle_keeps.after <| .set <| .after (.ite State.refineLever_keeps .refl) <| .ite (.set .refl) .refl
  · exact .after (.ite State.refineLever_keeps .refl) <| .ite (.set .refl) .refl

theorem State.refineAll_keeps {s : State} {tk x psi rds} : Keeps s (s.refineAll tk x psi rds) :=
  .foldl (fun _ _ => State.refine_keeps) .refl

theorem State.formSample_keeps {s : State} {r sl x heading} : Keeps s (s.formSample r sl x heading).2.2 := by
  unfold State.formSample
  refine .ite_of (fun a : _ × _ × State => a.2.2) State.sigmaEff_keeps ?_
  split <;> exact State.sigmaEff_keeps

theorem State.formReadings_keeps {s : State} {r heading rs} : Keeps s (s.formReadings r heading rs).2 := by
  unfold State.formReadings
  split
  · exact .refl
  · exact .foldl_of Prod.snd (fun _ _ => .set State.formSample_keeps) <| .ite .refl (.set .refl)

theorem State.takeNewest_keeps {s : State} {r c} : Keeps s (s.takeNewest r c) :=
  .set <| .ite (.set .refl) .refl

theorem State.takeFormed_keeps {s : State} {hdg tk vel mute f} : Keeps s (s.takeFormed hdg tk vel mute f).2 := by
  unfold State.takeFormed
  dsimp only
  split
  · exact State.takeNewest_keeps.after <| .after (.ite State.raise_keeps .refl) <| .ite (.set .refl) .refl
  · exact .after (.ite State.raise_keeps .refl) <| .ite (.set .refl) .refl

theorem State.takeBare_keeps {s : State} {r rd} : Keeps s (s.takeBare r rd) :=
  .set <| .ite (.set .refl) .refl

theorem State.takeMotionReading_keeps {s : State} {r q} : Keeps s (s.takeMotionReading r q) :=
  .after (.ite (.set <| .set .refl) <| .ite (.set <| .set .refl) (.set .refl)) <| .ite (.set .refl) .refl

theorem State.takeMotion_keeps {s : State} {fresh late tk} : Keeps s (s.takeMotion fresh late tk) := by
  unfold State.takeMotion
  refine .set <| .foldl (fun _ _ => ?_) .refl
  split
  · exact .refl
  · exact .ite .refl <| .foldl (fun _ _ => State.takeMotionReading_keeps) .refl

theorem State.firstOrigin_keeps {s : State} {xs heading} : Keeps s (s.firstOrigin xs heading) := by
  unfold State.firstOrigin
  refine .ite .refl ?_
  dsimp only
  split
  · exact .set .refl
  · exact .refl

theorem State.takeLate_keeps {s : State} {hdg r tk vel heading late} : Keeps s (s.takeLate hdg r tk vel heading late).2 := by
  unfold State.takeLate
  refine .foldl_of Prod.snd (fun _ _ => ?_) .refl
  dsimp only
  split
  · exact State.takeFormed_keeps.after State.formReadings_keeps
  · exact State.takeBare_keeps.after <| State.takeFormed_keeps.after State.formReadings_keeps
  · exact State.takeFormed_keeps.after State.formReadings_keeps

theorem State.takeKind_keeps {s : State} {hdg fresh late tk vel heading} : Keeps s (s.takeKind hdg fresh late tk vel heading).1 := by
  unfold State.takeKind
  refine .foldl_of Prod.fst (fun _ _ => ?_) <| .foldl_of Prod.fst (fun _ _ => ?_) .refl
  · dsimp only
    split <;> exact State.takeFormed_keeps
  · dsimp only
    split
    · exact State.takeNewest_keeps.after <| State.formReadings_keeps.after State.takeLate_keeps
    · exact State.takeBare_keeps.after <| State.formReadings_keeps.after State.takeLate_keeps
    · exact .set <| State.formReadings_keeps.after State.takeLate_keeps

theorem State.setConsensus_keeps {s : State} {tk pv hv} : Keeps s (s.setConsensus tk pv hv) :=
  .ite .refl (.set .refl)

theorem State.markLate_keeps {s : State} {late} : Keeps s (s.markLate late) :=
  .foldl (fun _ _ => .set .refl) .refl

theorem State.fuse_keeps {s : State} {tk x} : Keeps s (s.fuse tk x).1 := by
  unfold State.fuse
  dsimp only
  exact State.setConsensus_keeps.after <| .set <| State.refineAll_keeps.after <| .set <| .set <| State.voteKind_keeps.after <|
    State.takeKind_keeps.after <| State.firstOrigin_keeps.after <| State.voteKind_keeps.after <| State.takeKind_keeps.after <|
    State.takeMotion_keeps.after <| State.markLate_keeps.after <| .foldl (fun _ _ => State.countSuperseded_keeps) <|
    State.countSuperseded_keeps.after State.countInvalid_keeps

theorem execRefTimeoutExpiry_completes {s : State} {t ref} : Completes s (execRefTimeoutExpiry t ref s) :=
  runRunning_completes fun _ => .ite (.set .refl) .refl

theorem execRefQuarantined_completes {s : State} {t ref} : Completes s (execRefQuarantined t ref s) :=
  runRunning_completes fun _ => .ite (State.raise_keeps.after <| .set .refl) .refl

theorem execRefAdmitted_completes {s : State} {t ref} : Completes s (execRefAdmitted t ref s) := by
  unfold execRefAdmitted
  refine runRunning_completes fun _ => ?_
  dsimp only
  split
  · exact .refl
  · exact .ite .refl <| .ite (.set <| .set .refl) (.set .refl)

theorem execAutoReadmit_completes {s : State} {t ref} : Completes s (execAutoReadmit t ref s) :=
  runRunning_completes fun _ => .ite (State.raise_keeps.after <| .set .refl) .refl

theorem State.readmit_keeps {s : State} {r} : Keeps s (s.readmit r) :=
  .ite .refl <| State.raise_keeps.after <| .ite (.set <| .set .refl) (.set .refl)

/-! ## Functions of Sys2Proof/Machine/Observer.lean -/

theorem State.rejectSample_keeps {s : State} {r d2} : Keeps s (s.rejectSample r d2) :=
  .ite (State.raise_keeps.after <| .set <| .set .refl) <| .set <| .set .refl

theorem EstWork.update_keeps {w : EstWork} {m sm} : Keeps w.s (w.update m sm).s :=
  .refl

theorem EstWork.offer_keeps {w : EstWork} {r m} : Keeps w.s (w.offer r m).1.s :=
  .ite_of (fun a : EstWork × _ => a.1.s) (.set .refl) State.rejectSample_keeps

theorem EstWork.floor_keeps {w : EstWork} {stamp} : Keeps w.s (w.floor stamp).s := by
  unfold EstWork.floor
  refine .ite_of EstWork.s .refl ?_
  split <;> exact .refl

theorem State.reportReset_keeps {s : State} {who step} : Keeps s (s.reportReset who step) := by
  unfold State.reportReset
  exact State.raise_keeps.after <| .set .refl

theorem EstWork.resetPos_keeps {w : EstWork} {n e sigma who} : Keeps w.s (w.resetPos n e sigma who).s :=
  .set State.reportReset_keeps

theorem EstWork.resetHdg_keeps {w : EstWork} {psi sigma who} : Keeps w.s (w.resetHdg psi sigma who).s :=
  .set State.reportReset_keeps

theorem EstWork.both_keeps {w : EstWork} {f} : Keeps w.s (w.both f).s :=
  .refl

theorem EstWork.initDelta_keeps {w : EstWork} {sys} : Keeps w.s (w.initDelta sys).s := by
  unfold EstWork.initDelta
  dsimp only
  split
  · exact .ite_of EstWork.s .refl (.set .refl)
  · exact .refl

theorem EstWork.initClock_keeps {w : EstWork} {p} : Keeps w.s (w.initClock p).s :=
  .foldl_of EstWork.s (fun _ _ => EstWork.initDelta_keeps) (.set .refl)

theorem State.endDr_keeps {s : State} {hdg tk} : Keeps s (s.endDr hdg tk) :=
  .ite .refl <| State.raiseN_keeps.after <| .ite (.set .refl) (.set .refl)

theorem EstWork.jump_keeps {w : EstWork} {ep} : Keeps w.s (w.jump ep).s :=
  .ite_of EstWork.s .refl EstWork.both_keeps

theorem EstWork.offerRaw_keeps {w : EstWork} {r m} : Keeps w.s (w.offerRaw r m).1.s :=
  .after (.ite_of EstWork.s (.set .refl) .refl) <| EstWork.offer_keeps.after .refl

theorem EstWork.takeRaw_keeps {w : EstWork} {o sl ep pvt} : Keeps w.s (w.takeRaw o sl ep pvt).s := by
  unfold EstWork.takeRaw
  refine .ite_of EstWork.s .refl <| .after (.ite_of EstWork.s (.set <| EstWork.initClock_keeps.after <| EstWork.resetPos_keeps.after <|
    .set .refl) (.set .refl)) <| .after (.ite_of EstWork.s State.endDr_keeps .refl) <| .foldl_of (fun a : EstWork × _ => a.1.s) (fun _ _ =>
    EstWork.offerRaw_keeps.after ?_) <| .foldl_of EstWork.s (fun _ _ => .ite_of EstWork.s EstWork.initDelta_keeps .refl) <|
    .ite_of EstWork.s EstWork.initClock_keeps .refl
  split
  · exact .refl
  · exact EstWork.offerRaw_keeps

theorem EstWork.takePosition_keeps {w : EstWork} {o} : Keeps w.s (w.takePosition o).s := by
  unfold EstWork.takePosition
  refine .ite_of EstWork.s (.ite_of EstWork.s .refl ?_) <| .ite_of EstWork.s .refl <|
    .ite_of EstWork.s (.ite_of EstWork.s (.ite_of EstWork.s ?_ ?_) ?_) <| .ite_of EstWork.s (.ite_of EstWork.s (.set <|
    EstWork.update_keeps.after <| State.endDr_keeps.after <| .set .refl) <| State.endDr_keeps.after <| .set <|
    EstWork.resetPos_keeps.after .refl) <| .after (.ite_of EstWork.s (.set .refl) .refl) <| EstWork.offer_keeps.after .refl
  · dsimp only
    split
    · refine .after (.ite_of EstWork.s (EstWork.takeRaw_keeps.after .refl) .refl) ?_
      split
      · exact EstWork.initClock_keeps.after <| State.endDr_keeps.after <| .set <| .set .refl
      · exact State.endDr_keeps.after <| .set <| .set .refl
    · split
      · exact EstWork.initClock_keeps.after <| State.endDr_keeps.after <| .set <| .set .refl
      · exact State.endDr_keeps.after <| .set <| .set .refl
  · dsimp only
    split
    · exact .ite_of EstWork.s (EstWork.takeRaw_keeps.after <| .set .refl) (.set .refl)
    · exact .set .refl
  · dsimp only
    split
    · refine .after (.ite_of EstWork.s (EstWork.takeRaw_keeps.after .refl) .refl) <| State.endDr_keeps.after <| .set ?_
      split
      · exact EstWork.initClock_keeps.after <| EstWork.resetPos_keeps.after <| .set .refl
      · exact EstWork.resetPos_keeps.after <| .set .refl
    · refine State.endDr_keeps.after <| .set ?_
      split
      · exact EstWork.initClock_keeps.after <| EstWork.resetPos_keeps.after <| .set .refl
      · exact EstWork.resetPos_keeps.after <| .set .refl
  · dsimp only
    split
    · exact .ite_of EstWork.s (EstWork.takeRaw_keeps.after .refl) .refl
    · exact .refl

theorem EstWork.takeHeading_keeps {w : EstWork} {o} : Keeps w.s (w.takeHeading o).s :=
  .ite_of EstWork.s .refl <| .ite_of EstWork.s (State.endDr_keeps.after <| .set <| .set .refl) <|
    .ite_of EstWork.s (.ite_of EstWork.s (.set <| EstWork.update_keeps.after <| State.endDr_keeps.after <| .set .refl) <|
    State.endDr_keeps.after <| .set <| EstWork.resetHdg_keeps.after .refl) <| .after (.ite_of EstWork.s (.set .refl) .refl) <|
    EstWork.offer_keeps.after .refl

theorem EstWork.take_keeps {w : EstWork} {o} : Keeps w.s (w.take o).s := by
  unfold EstWork.take
  refine .after (.ite_of EstWork.s EstWork.takeHeading_keeps EstWork.takePosition_keeps) <| EstWork.floor_keeps.after ?_
  split
  · exact EstWork.jump_keeps.after <| .foldl (fun _ _ => .set .refl) .refl
  · exact .foldl (fun _ _ => .set .refl) .refl

theorem EstWork.delayed_keeps {w : EstWork} {o} : Keeps w.s (w.delayed o).s := by
  unfold EstWork.delayed
  dsimp only
  split
  · exact .set .refl
  · exact .set <| EstWork.take_keeps.after .refl

theorem EstWork.goTo_keeps {w : EstWork} {time} : Keeps w.s (w.goTo time).s :=
  .ite_of EstWork.s .refl .refl

theorem EstWork.rejectCycle_keeps {w : EstWork} {hdg v} : Keeps w.s (w.rejectCycle hdg v).s := by
  unfold EstWork.rejectCycle
  dsimp only
  split
  · exact .after (.ite_of EstWork.s .refl <| .ite_of EstWork.s EstWork.resetHdg_keeps EstWork.resetPos_keeps) <|
      .ite (.set .refl) (.set .refl)
  · exact .ite (.set .refl) (.set .refl)

theorem State.beginDr_keeps {s : State} {hdg} : Keeps s (s.beginDr hdg) :=
  .ite .refl (.ite (State.raiseN_keeps.after <| .set .refl) (State.raiseN_keeps.after <| .set .refl))

theorem EstWork.limits_keeps {w : EstWork} {anyPos anyHdg} : Keeps w.s (w.limits anyPos anyHdg).s :=
  .after (.ite (State.raiseN_keeps.after <| .set <| .set .refl) <| .ite (.set <| .set .refl) (.set .refl)) <|
    .after (.ite State.beginDr_keeps .refl) <| .after (.ite State.beginDr_keeps .refl) <| .after (.ite (.set .refl) .refl) <|
    .ite (.set .refl) .refl

theorem State.windInput_keeps {s : State} {e} : Keeps s (s.windInput e).1 := by
  unfold State.windInput
  dsimp only
  split
  · exact .set .refl
  · exact .ite_of Prod.fst .refl (.set .refl)

theorem State.observeNothing_keeps {s : State} {held tk} : Keeps s (s.observeNothing held tk) :=
  .set <| .set <| .set <| .set .refl

theorem EstWork.idleJumps_keeps {w : EstWork} {es used} : Keeps w.s (w.idleJumps es used).s :=
  .foldl_of EstWork.s (fun _ _ => .ite_of EstWork.s .refl EstWork.jump_keeps) .refl

theorem State.observe_keeps {s : State} {tk f} : Keeps s (s.observe tk f).1 :=
  .ite_of Prod.fst (State.observeNothing_keeps.after <| .set .refl) <| .set <| .set <| .set <| EstWork.limits_keeps.after <| .set <|
    EstWork.goTo_keeps.after <| EstWork.rejectCycle_keeps.after <| EstWork.rejectCycle_keeps.after <| .foldl_of EstWork.s (fun _ _ =>
    EstWork.take_keeps.after EstWork.goTo_keeps) <| EstWork.idleJumps_keeps.after <| .foldl_of EstWork.s (fun _ _ =>
    EstWork.delayed_keeps) <| EstWork.idleJumps_keeps.after <| State.windInput_keeps.after <| .set <| .ite (.set .refl) .refl

theorem execDrDelayExpiry_completes {s : State} {t} : Completes s (execDrDelayExpiry t s) :=
  runRunning_completes fun _ => .after (.ite State.beginDr_keeps .refl) <| .ite State.beginDr_keeps .refl

/-! ## Functions of Sys2Proof/Machine/Law.lean -/

theorem State.judgeThrusters_keeps {s : State} {v tk} : Keeps s (s.judgeThrusters v tk) :=
  .foldl (fun _ _ => .ite (State.raiseN_keeps.after <| .set .refl) (.set .refl)) .refl

theorem State.filterWind_keeps {s : State} : Keeps s s.filterWind := by
  unfold State.filterWind
  refine .ite (.set .refl) ?_
  dsimp only
  split
  · exact .set .refl
  · exact .ite (.set .refl) (.set .refl)

theorem State.positionAlarms_keeps {s : State} {m} : Keeps s (s.positionAlarms m) :=
  .after (.ite (State.raiseN_keeps.after <| .set .refl) <| .ite (State.raiseN_keeps.after <| .set .refl) .refl) <|
    .after (.ite (State.raiseN_keeps.after <| .set .refl) <| .ite (State.raiseN_keeps.after <| .set .refl) .refl) <| .ite .refl <|
    .ite (State.raiseN_keeps.after <| .set .refl) <| .ite (State.raiseN_keeps.after <| .set .refl) .refl

theorem State.judgePause_keeps {s : State} {m} : Keeps s (s.judgePause m) :=
  .ite .refl <| .ite (.set .refl) <| .ite (.set .refl) .refl

theorem State.enterLaw_keeps {s : State} {m} : Keeps s (s.enterLaw m) := by
  unfold State.enterLaw
  dsimp only
  split
  · exact State.raise_keeps.after <| .set <| .set <| .set .refl
  · exact State.raise_keeps.after <| .set <| .set <| .set <| .set .refl
  · exact .set <| .set <| .set <| .set .refl
  · exact .set .refl

theorem State.takeLawSamples_keeps {s : State} {xs} : Keeps s (s.takeLawSamples xs) := by
  unfold State.takeLawSamples
  refine .foldl (fun _ _ => ?_) .refl
  dsimp only
  split
  · refine .set ?_
    split
    · split
      · exact .set .refl
      · exact .refl
    · refine .foldl (fun _ _ => .set .refl) ?_
      split
      · exact .set .refl
      · exact .refl
  · split
    · split
      · exact .set .refl
      · exact .refl
    · refine .foldl (fun _ _ => .set .refl) ?_
      split
      · exact .set .refl
      · exact .refl

theorem execJoyTimeoutExpiry_completes {s : State} {t} : Completes s (execJoyTimeoutExpiry t s) :=
  runRunning_completes fun _ => .ite (.set .refl) .refl

theorem execTrackTargetLost_completes {s : State} {t} : Completes s (execTrackTargetLost t s) := by
  unfold execTrackTargetLost
  refine runRunning_completes fun _ => ?_
  split
  · exact .ite (State.raise_keeps.after <| .set .refl) .refl
  · exact .refl

theorem execPowerTimeoutExpiry_completes {s : State} {t} : Completes s (execPowerTimeoutExpiry t s) :=
  runRunning_completes fun _ => .ite (.set .refl) .refl

theorem execPowerLimitActive_completes {s : State} {t} : Completes s (execPowerLimitActive t s) :=
  runRunning_completes fun _ => .ite (State.raiseN_keeps.after <| .set .refl) <| .ite (State.raiseN_keeps.after <| .set .refl) .refl

theorem execThrustSaturated_completes {s : State} {t} : Completes s (execThrustSaturated t s) :=
  runRunning_completes fun _ => .ite (State.raiseN_keeps.after <| .set .refl) <| .ite (State.raiseN_keeps.after <| .set .refl) .refl

/-! ## Functions of Sys2Proof/Machine/Settings.lean -/

theorem State.admitAgain_keeps {s : State} {r} : Keeps s (s.admitAgain r) :=
  .ite .refl <| .set <| .set .refl

theorem State.refWrite_keeps {s : State} {r num v} : Keeps s (s.refWrite r num v) := by
  unfold State.refWrite
  dsimp only
  split
  any_goals exact .set .refl
  · exact .ite (.set <| .set <| .set .refl) <| .ite (.set .refl) <| .set <| .set .refl
  · exact .ite (.set <| .set <| .set .refl) (.set .refl)
  · exact State.admitAgain_keeps.after <| .set .refl
  · exact State.admitAgain_keeps.after <| .set .refl

theorem State.obsWrite_keeps {s : State} {num v} : Keeps s (s.obsWrite num v) := by
  unfold State.obsWrite
  dsimp only
  split
  any_goals exact .set .refl
  any_goals exact .set <| .set .refl

theorem State.fusionWrite_keeps {s : State} {inst num v} : Keeps s (s.fusionWrite inst num v) := by
  unfold State.fusionWrite
  refine .ite State.obsWrite_keeps <| .ite ?_ ?_
  · split
    any_goals exact .set .refl
    · split
      · exact State.readmit_keeps
      · exact .refl
  · split
    · exact State.refWrite_keeps
    · exact .refl

theorem State.setpoint_keeps {s : State} {n e psi} : Keeps s (s.setpoint n e psi) :=
  State.raise_keeps.after <| .set .refl

theorem State.lawWrite_keeps {s : State} {num v} : Keeps s (s.lawWrite num v) := by
  unfold State.lawWrite
  dsimp only
  split
  any_goals exact .set .refl
  · exact State.setpoint_keeps
  · exact State.setpoint_keeps
  · exact State.setpoint_keeps
  · exact .ite (.set <| .set .refl) (.set .refl)

theorem State.thrWrite_keeps {s : State} {slice num v} : Keeps s (s.thrWrite slice num v) := by
  unfold State.thrWrite
  split
  · exact .set .refl
  · exact .set .refl
  · exact .refl

theorem State.applyFusionWrites_keeps {s : State} : Keeps s s.applyFusionWrites :=
  .foldl (fun _ _ => .ite (.set .refl) .refl) <| .foldl (fun _ _ => State.fusionWrite_keeps) (.set .refl)

theorem State.applyLawWrites_keeps {s : State} : Keeps s s.applyLawWrites :=
  .foldl (fun _ _ => .ite State.enterLaw_keeps <| .ite State.lawWrite_keeps State.thrWrite_keeps) (.set .refl)

/-! ## Functions of Sys2Proof/Machine/Solver.lean -/

theorem State.applyJob_keeps {s : State} {j} : Keeps s (s.applyJob j).1 := by
  unfold State.applyJob
  split
  · exact .set .refl
  · exact .ite_of Prod.fst (.set .refl) (.set .refl)

theorem State.queueCycleJob_keeps {s : State} {j} : Keeps s (s.queueCycleJob j) := by
  unfold State.queueCycleJob
  refine .ite (.set .refl) ?_
  split
  · exact .refl
  · exact .ite (.set <| .set .refl) <| State.raiseN_keeps.after <| .set <| .set .refl

theorem State.queueBuild_keeps {s : State} {m v tk} : Keeps s (s.queueBuild m v tk) :=
  State.queueCycleJob_keeps.after <| .set .refl

theorem State.build_keeps {s : State} {tk posReset hdgReset} : Keeps s (s.build tk posReset hdgReset) := by
  unfold State.build
  dsimp only
  split
  · exact State.judgeThrusters_keeps.after <| State.filterWind_keeps.after State.applyLawWrites_keeps
  · exact State.queueBuild_keeps.after <| .set <| .set <| State.judgeThrusters_keeps.after <| .after (.ite (.set .refl) <|
      State.positionAlarms_keeps.after <| .set .refl) <| .after (.ite (State.raiseN_keeps.after <| .set .refl) (.set .refl)) <|
      State.judgePause_keeps.after <| .after (.ite (.set .refl) .refl) <| .after (.ite (.set .refl) .refl) <|
      .after (.ite (.set .refl) .refl) <| .after (.ite (.set .refl) .refl) <| .after (.ite State.raise_keeps .refl) <|
      State.filterWind_keeps.after State.applyLawWrites_keeps

/-! ## Functions of Sys2Proof/Machine/Allocate.lean -/

theorem State.formSets_keeps {s : State} {t result} : Keeps s (s.formSets t result).1 :=
  .foldl_of Prod.fst (fun _ _ => .set .refl) .refl

theorem State.applyThrust_keeps {s : State} {m v t states result slack} : Keeps s (s.applyThrust m v t states result slack) :=
  .set <| .set <| .set State.formSets_keeps

theorem State.acceptCandidate_keeps {s : State} {m v cand agreed split late} : Keeps s (s.acceptCandidate m v cand agreed split late) := by
  unfold State.acceptCandidate
  refine .set ?_
  refine .set ?_
  refine .ite (.set <| State.applyThrust_keeps.after <| .set .refl) ?_
  split
  · exact .set <| .ite (State.applyThrust_keeps.after <| .set .refl) (State.raiseN_keeps.after <| State.applyThrust_keeps.after <|
      .set .refl)
  · exact State.raiseN_keeps.after <| .set <| State.applyThrust_keeps.after <| .set .refl

/-! ## Functions of Sys2Proof/Machine/Buffer.lean -/

theorem State.meetFull_keeps {s : State} : Keeps s s.meetFull :=
  .ite .refl <| State.raise_keeps.after <| .set .refl

theorem State.enterBuffer_keeps {s : State} {x} : Keeps s (s.enterBuffer x) :=
  .ite State.countRef_keeps <| .ite State.countRef_keeps <| .ite (.set .refl) (.set .refl)

/-! ## Functions of Sys2Proof/Machine/Servo.lean -/

theorem State.inject_keeps {s : State} {n rate} : Keeps s (s.inject n rate).2 :=
  .ite_of Prod.snd .refl <| .ite_of Prod.snd (.set .refl) <| .ite_of Prod.snd (.set .refl) (.set .refl)

theorem State.gearTrigger_keeps {s : State} {g i rate} : Keeps s (s.gearTrigger g i rate).2 :=
  .after (.ite (State.raiseN_keeps.after <| .set .refl) .refl) <| .ite (State.raise_keeps.after <| .set .refl) (.set .refl)

theorem State.slotInput_keeps {s : State} {n r} : Keeps s (s.slotInput n r).2 := by
  unfold State.slotInput
  refine .ite_of Prod.snd (.ite_of Prod.snd .refl .refl) ?_
  split
  · exact .refl
  · split
    · exact State.gearTrigger_keeps
    · split
      · exact .refl
      · exact .ite_of Prod.snd .refl <| .ite (State.raise_keeps.after <| .set .refl) (.set .refl)

theorem State.captureTick_keeps {s : State} {n} : Keeps s (s.captureTick n) :=
  .ite .refl <| .ite (.set .refl) (.set .refl)

theorem State.judgeFeedback_keeps {s : State} {th} : Keeps s (s.judgeFeedback th) :=
  .ite (.set .refl) .refl

theorem State.slotFault_keeps {s : State} {n on_} : Keeps s (s.slotFault n on_) :=
  State.raiseN_keeps.after <| State.judgeFeedback_keeps.after <| .set .refl

theorem State.putSlot_keeps {s : State} {n r c l frozen} : Keeps s (s.putSlot n r c l frozen) := by
  unfold State.putSlot
  refine .after (.ite State.raiseN_keeps .refl) <| State.clearOverloads_keeps.after ?_
  split
  · refine .set ?_
    split
    · exact .set <| .set .refl
    · exact .set .refl
  · split
    · exact .set <| .set .refl
    · exact .set .refl

theorem State.slotCompute_keeps {s : State} {n r x} : Keeps s (s.slotCompute n r x) := by
  unfold State.slotCompute
  refine .ite (.set <| State.inject_keeps.after State.slotInput_keeps) <| .ite (State.putSlot_keeps.after <|
    State.inject_keeps.after State.slotInput_keeps) <| .ite (State.putSlot_keeps.after <| .set <|
    State.inject_keeps.after State.slotInput_keeps) <| .ite (.set <| State.inject_keeps.after State.slotInput_keeps) <| .ite (.set <|
    State.inject_keeps.after State.slotInput_keeps) <| .ite (.set <| State.inject_keeps.after State.slotInput_keeps) ?_
  split
  · exact .after (.ite State.raiseN_keeps .refl) <| State.putSlot_keeps.after <| .set <| State.inject_keeps.after State.slotInput_keeps
  · exact State.putSlot_keeps.after <| .set <| State.inject_keeps.after State.slotInput_keeps

theorem State.slotTrigger_keeps {s : State} {n r x missed} : Keeps s (s.slotTrigger n r x missed) :=
  .ite (State.raise_keeps.after <| .set .refl) <| .ite .refl <| State.slotCompute_keeps.after <| .ite (State.slotFault_keeps.after <|
    .set <| .set .refl) <| .ite (State.slotFault_keeps.after <| .set <| .set .refl) <| .set <| .set .refl

theorem State.slotSample_keeps {s : State} {n r x missed} : Keeps s (s.slotSample n r x missed) :=
  State.captureTick_keeps.after State.slotTrigger_keeps

/-! ## Functions of Sys2Proof/Machine/NetParse.lean -/

theorem State.takeFeedback_keeps {s : State} {n valid} : Keeps s (s.takeFeedback n valid) :=
  .ite .refl <| .ite (State.raiseN_keeps.after <| State.judgeFeedback_keeps.after <| .set .refl) (.set .refl)

theorem State.sentenceSamples_keeps {s : State} {points body stamp} : Keeps s (s.sentenceSamples points body stamp).2 := by
  unfold State.sentenceSamples
  refine .foldl_of Prod.snd (fun _ _ => .ite_of Prod.snd .refl ?_) .refl
  dsimp only
  split
  · split
    · exact .ite (State.labelEdge_keeps.after <| .set .refl) (.set .refl)
    · exact .set .refl
  · exact .set .refl

theorem State.offerAll_keeps {s : State} {xs} : Keeps s (s.offerAll xs).2 := by
  induction xs generalizing s with
  | nil => exact .refl
  | cons x xs ih =>
    unfold State.offerAll
    split
    · exact .refl
    · split
      · exact State.meetFull_keeps
      · exact ih.after State.enterBuffer_keeps

theorem State.drainEth_keeps {s : State} : Keeps s s.drainEth :=
  .set State.offerAll_keeps

theorem State.parseDatagram_keeps {s : State} {d udp} : Keeps s (s.parseDatagram d udp).2 := by
  unfold State.parseDatagram
  refine .foldl_of Prod.snd (fun _ _ => ?_) .refl
  dsimp only
  split
  · exact State.takeFeedback_keeps
  · split
    · exact State.takeDatagram_keeps
    · exact .refl

theorem State.parse450_keeps {s : State} {d x} : Keeps s (s.parse450 d x).2 := by
  unfold State.parse450
  split
  · exact .ite (.set .refl) <| State.raiseN_keeps.after <| .set .refl
  · exact State.sentenceSamples_keeps.after <| .set .refl

theorem State.queueEth_keeps {s : State} {xs} : Keeps s (s.queueEth xs) :=
  State.drainEth_keeps.after <| .set .refl

theorem State.take450_keeps {s : State} {d xs} : Keeps s (s.take450 d xs).2 := by
  induction xs generalizing s with
  | nil => exact .refl
  | cons x xs ih =>
    unfold State.take450
    exact .ite_of Prod.snd .refl <| ih.after <| State.queueEth_keeps.after State.parse450_keeps

theorem State.takeEth_keeps {s : State} {d} : Keeps s (s.takeEth d).2 := by
  unfold State.takeEth
  split
  · split
    · exact .refl
    · exact State.queueEth_keeps.after State.parseDatagram_keeps
  · have h : Keeps s (s.take450 d d.lines).2 := State.take450_keeps
    split <;> simp_all

theorem State.drainWaitingEth_keeps {s : State} {ds} : Keeps s (s.drainWaitingEth ds) := by
  induction ds generalizing s with
  | nil => exact ⟨rfl, rfl⟩
  | cons d ds ih =>
    have h : Keeps s (s.takeEth d).2 := State.takeEth_keeps
    unfold State.drainWaitingEth
    split
    · rename_i e
      rw [e] at h
      exact ih.after h
    · rename_i e
      rw [e] at h
      exact .set h

theorem State.canSamples_keeps {s : State} {n f} : Keeps s (s.canSamples n f).2 := by
  unfold State.canSamples
  refine .foldl_of Prod.snd (fun _ _ => ?_) .refl
  dsimp only
  split
  · exact State.takeFeedback_keeps
  · exact .refl

theorem State.drainCan_keeps {s : State} {n fuel} : Keeps s (s.drainCan n fuel) := by
  induction fuel generalizing s with
  | zero => exact .refl
  | succ fuel ih =>
    unfold State.drainCan
    split
    · exact .refl
    · exact .ite ⟨rfl, rfl⟩ <| .ite (State.meetFull_keeps.after ⟨rfl, rfl⟩) <|
        ih.after <| .foldl (fun _ _ => State.enterBuffer_keeps) <| State.canSamples_keeps.after ⟨rfl, rfl⟩

theorem State.resumeParsers_keeps {s : State} : Keeps s s.resumeParsers :=
  .foldl (fun _ _ => State.drainCan_keeps) <| State.drainWaitingEth_keeps.after State.drainEth_keeps

/-! ## Functions of Sys2Proof/Machine/Saf.lean -/

theorem State.judgeAlone_keeps {s : State} : Keeps s s.judgeAlone :=
  .ite (.set .refl) .refl

theorem State.safTrip_keeps {s : State} {ns f source p0 channel} : Keeps s (s.safTrip ns f source p0 channel) :=
  State.raiseN_keeps.after <| .set <| State.judgeAlone_keeps.after <| .set .refl

theorem State.inputTrip_keeps {s : State} {i pattern} : Keeps s (s.inputTrip i pattern) :=
  .ite .refl <| State.safTrip_keeps.after <| .set .refl

theorem execSafetyDemand_completes {s : State} {t input} : Completes s (execSafetyDemand t input s) :=
  runPowered_completes fun _ => .ite .refl <| State.inputTrip_keeps.after <| .set .refl

theorem execSafetyInputHealthy_completes {s : State} {t input} : Completes s (execSafetyInputHealthy t input s) :=
  runPowered_completes fun _ => .set .refl

theorem execTestPulseMismatch_completes {s : State} {t tp} : Completes s (execTestPulseMismatch t tp s) :=
  runPowered_completes fun _ => .ite .refl <| .foldl (fun _ _ => .ite (State.inputTrip_keeps.after <| .set .refl) .refl) <| .ite .refl <|
    State.raiseN_keeps.after <| .set .refl

theorem execPatternFault_completes {s : State} {t input} : Completes s (execPatternFault t input s) :=
  runPowered_completes fun _ => .ite .refl <| State.inputTrip_keeps.after <| .ite (.set .refl) <| State.raiseN_keeps.after <| .set <|
    .set .refl

theorem State.safReads_keeps {s : State} : Keeps s s.safReads :=
  .ite (.set .refl) (.set .refl)

theorem execSfCmd_completes {s : State} {t} : Completes s (execSfCmd t s) :=
  runPowered_completes fun _ => .ite (State.safTrip_keeps.after <| .set .refl) .refl

theorem State.gateFault_keeps {s : State} {n kind} : Keeps s (s.gateFault n kind) :=
  .ite .refl <| State.raiseN_keeps.after <| State.judgeAlone_keeps.after <| .set .refl

theorem execDarkPulse_completes {s : State} {t thr fell} : Completes s (execDarkPulse t thr fell s) :=
  runPowered_completes fun _ => .ite .refl <| .ite (.set .refl) <| State.gateFault_keeps.after <| .set .refl

theorem execHeldOffCheckFail_completes {s : State} {t thr} : Completes s (execHeldOffCheckFail t thr s) :=
  runPowered_completes fun _ => .ite State.gateFault_keeps .refl

theorem State.safTest_keeps {s : State} {outcome} : Keeps s (s.safTest outcome) :=
  .ite (.set .refl) <| .ite .refl <| State.raiseN_keeps.after <| State.judgeAlone_keeps.after <| .set <| .set .refl

theorem execSafPeriodicSelftest_completes {s : State} {t outcome} : Completes s (execSafPeriodicSelftest t outcome s) :=
  runPowered_completes fun _ => .ite (State.safTest_keeps.after <| .set .refl) .refl

theorem State.hostSelftest_keeps {s : State} {outcome} : DoneKeeps s (s.hostSelftest outcome) :=
  .ite (.answer State.safTest_keeps) (.refuse .refl)

theorem execClockLoss_completes {s : State} {t} : Completes s (execClockLoss t s) :=
  runPowered_completes fun _ => .ite (.set .refl) <| State.raiseN_keeps.after <| State.judgeAlone_keeps.after <| .set <|
    .set State.captureHolds_keeps

theorem execClockLossRelease_completes {s : State} {t} : Completes s (execClockLossRelease t s) :=
  runPowered_completes fun _ => .ite (.set .refl) .refl

theorem State.safReset_keeps {s : State} : DoneKeeps s s.safReset :=
  .ite (.answer <| State.judgeAlone_keeps.after <| .set .refl) <| .answer <| State.judgeAlone_keeps.after <| .set .refl

theorem State.safLoad_keeps {s : State} : Keeps s s.safLoad :=
  State.judgeAlone_keeps.after <| .set <| .set <| .set .refl

/-! ## Functions of Sys2Proof/Machine/Cycle.lean -/

theorem State.runEstimate_keeps {s : State} : Keeps s s.runEstimate := by
  unfold State.runEstimate
  dsimp only
  exact .set <| State.build_keeps.after <| .set <| State.observe_keeps.after <| State.fuse_keeps.after <| .set <|
    State.takeLawSamples_keeps.after State.applyFusionWrites_keeps

theorem State.completeFrame_keeps {s : State} {sets} : Keeps s (s.completeFrame sets) := by
  unfold State.completeFrame
  dsimp only
  exact State.runEstimate_keeps.after <| .ite (State.judgeAlone_keeps.after <| .set .refl) <| .set <| .set .refl

theorem State.queueGroupWrite_keeps {s : State} {w} : Keeps s (s.queueGroupWrite w) := by
  unfold State.queueGroupWrite
  split
  · exact .set .refl
  · exact .set .refl
  · exact .ite (.set .refl) .refl
  · exact .refl

theorem State.closeFrame_keeps {s : State} : Keeps s s.closeFrame := by
  unfold State.closeFrame
  dsimp only
  exact State.completeFrame_keeps.after <| .after (.ite .refl <| State.raiseN_keeps.after <| .set .refl) <| State.sendLane_keeps.after <|
    .set <| .foldl (fun _ _ => State.queueGroupWrite_keeps) (.set .refl)

theorem State.tryClose_keeps {s : State} : Keeps s s.tryClose :=
  .ite State.closeFrame_keeps .refl

theorem State.tryComplete_keeps {s : State} : Keeps s s.tryComplete := by
  unfold State.tryComplete
  dsimp only
  split
  · exact .ite (.ite State.completeFrame_keeps .refl) .refl
  · exact .refl

theorem State.foldLate_keeps {s : State} {xs} : Keeps s (s.foldLate xs).2 :=
  .foldl_of Prod.snd (fun _ _ => .ite_of Prod.snd State.countRef_keeps (.ite_of Prod.snd State.countRef_keeps State.countRef_keeps)) .refl

theorem State.drainWaiting_keeps {s : State} : Keeps s s.drainWaiting := by
  unfold State.drainWaiting
  dsimp only
  exact State.resumeParsers_keeps.after <| .set <| State.offerAll_keeps.after <| State.offerAll_keeps.after <|
    State.offerAll_keeps.after <| .set .refl

theorem State.release_keeps {s : State} : Keeps s s.release := by
  unfold State.release
  dsimp only
  exact .after (.ite State.completeFrame_keeps <| .ite (State.tryComplete_keeps.after <| State.tryClose_keeps.after <|
    State.sendLane_keeps.after <| .set .refl) .refl) <| State.drainWaiting_keeps.after <| .set State.foldLate_keeps

theorem State.tryRelease_keeps {s : State} : Keeps s s.tryRelease :=
  .ite State.release_keeps .refl

theorem State.arrive_keeps {s : State} {x} : Keeps s (s.arrive x) := by
  unfold State.arrive
  dsimp only
  exact .ite .refl <| State.tryRelease_keeps.after <| .set State.offerAll_keeps

theorem State.arriveEpoch_keeps {s : State} {xs} : Keeps s (s.arriveEpoch xs) :=
  .ite .refl <| State.tryRelease_keeps.after <| .set State.offerAll_keeps

theorem State.arriveSlotted_keeps {s : State} {x} : Keeps s (s.arriveSlotted x) :=
  .ite .refl <| .ite (State.tryRelease_keeps.after <| .set <| .after (.ite State.countRef_keeps .refl) State.meetFull_keeps) <|
    State.tryRelease_keeps.after State.enterBuffer_keeps

theorem execSampleArrival_completes {s : State} {t sample} : Completes s (execSampleArrival t sample s) :=
  runRunning_completes fun _ => .ite .refl <| .ite State.arriveSlotted_keeps State.arrive_keeps

theorem execWaitLimitExpiry_completes {s : State} {t} : Completes s (execWaitLimitExpiry t s) :=
  runRunning_completes fun _ => .ite State.release_keeps .refl

theorem execExchangeLimit_completes {s : State} {t} : Completes s (execExchangeLimit t s) :=
  runRunning_completes fun _ => .ite State.closeFrame_keeps .refl

theorem execCloseMissing_completes {s : State} {t} : Completes s (execCloseMissing t s) := by
  unfold execCloseMissing
  refine runRunning_completes fun _ => .ite .refl ?_
  split
  · exact State.setRole_keeps
  · exact .ite State.completeFrame_keeps .refl

theorem execEstimateOverrun_completes {s : State} {t} : Completes s (execEstimateOverrun t s) := by
  unfold execEstimateOverrun
  refine runRunning_completes fun _ => ?_
  split
  · exact .refl
  · exact .ite .refl <| State.raise_keeps.after <| State.build_keeps.after <| .set <| State.observeNothing_keeps.after <|
      .foldl (fun _ _ => .set .refl) <| .foldl (fun _ _ => State.countRef_keeps) (.set .refl)

/-! ## Functions of Sys2Proof/Machine/Accept.lean -/

theorem State.retain_keeps {s : State} : Keeps s s.retain :=
  .ite (.set .refl) (.set .refl)

theorem State.captureCopy_keeps {s : State} : Keeps s s.captureCopy := by
  unfold State.captureCopy
  split
  · exact .ite (.foldl (fun _ _ => State.sendLaneTo_keeps) (.set .refl)) .refl
  · exact .refl

theorem State.compareCommit_keeps {s : State} {m} : Keeps s (s.compareCommit m) := by
  unfold State.compareCommit
  split
  · exact .ite .refl <| .ite (.ite .refl (.set .refl)) <| .ite (.ite (.ite (.set .refl) .refl) <| State.setRole_keeps.after <|
      .set .refl) .refl
  · exact .refl

theorem State.sendHello_keeps {s : State} : Keeps s s.sendHello :=
  .ite (.set .refl) <| .set <| .set .refl

theorem State.sendCommit_keeps {s : State} : Keeps s s.sendCommit :=
  .ite .refl <| .foldl (fun _ _ => .ite .refl State.compareCommit_keeps) <| State.sendLane_keeps.after <| .set .refl

theorem State.afterAccept_keeps {s : State} : Keeps s s.afterAccept :=
  .after (.ite (State.sendHello_keeps.after <| .set .refl) (.set .refl)) <| State.sendCommit_keeps.after <|
    State.captureCopy_keeps.after <| State.retain_keeps.after <| .set .refl

theorem State.accept_keeps {s : State} {cand agreed split late} : Keeps s (s.accept cand agreed split late) := by
  unfold State.accept
  split
  · exact State.afterAccept_keeps.after State.acceptCandidate_keeps
  · exact .refl

theorem State.tryAccept_keeps {s : State} : Keeps s s.tryAccept := by
  unfold State.tryAccept
  refine .ite .refl ?_
  split
  · exact .refl
  · refine .ite State.accept_keeps ?_
    split
    · exact .refl
    · exact State.accept_keeps

theorem State.stopSolve_keeps {s : State} {reason pivots} : Keeps s (s.stopSolve reason pivots) :=
  State.tryAccept_keeps.after <| .ite (.set .refl) <| State.sendLane_keeps.after <| .set .refl

theorem execSolverJobStart_completes {s : State} {t} : Completes s (execSolverJobStart t s) := by
  unfold execSolverJobStart
  refine runRunning_completes fun _ => ?_
  split
  · refine .ite (.set .refl) <| .ite .refl ?_
    dsimp only
    split
    · exact .after (.ite (.set .refl) State.stopSolve_keeps) <| State.applyJob_keeps.after <| .ite (State.raiseN_keeps.after <|
        .set .refl) (.set .refl)
    · exact State.stopSolve_keeps.after <| State.applyJob_keeps.after <| .ite (State.raiseN_keeps.after <| .set .refl) (.set .refl)
  · exact .refl

theorem State.runJob_keeps {s : State} {j fuel} : Keeps s (s.runJob j fuel).1 := by
  unfold State.runJob
  split
  · exact .refl
  · exact .set .refl

theorem execSolveStop_completes {s : State} {t} : Completes s (execSolveStop t s) := by
  unfold execSolveStop
  refine runRunning_completes fun _ => ?_
  split
  · exact .ite .refl (State.stopSolve_keeps.after State.runJob_keeps)
  · exact .refl

theorem State.retireJobs_keeps {s : State} : Keeps s s.retireJobs :=
  .foldl (fun _ _ => State.stopSolve_keeps.after <| .set State.applyJob_keeps) (.set .refl)

theorem execSolverDeadline_completes {s : State} {t iterations inFactorisation} :
    Completes s (execSolverDeadline t iterations inFactorisation s) := by
  unfold execSolverDeadline
  refine runRunning_completes fun _ => .ite .refl <| .after (.ite .refl <| State.afterAccept_keeps.after <| .set <| .set .refl) <|
    State.retireJobs_keeps.after ?_
  split
  · refine .ite .refl ?_
    dsimp only
    split
    · exact State.stopSolve_keeps.after State.runJob_keeps
    · exact .after (.ite (State.stopSolve_keeps.after State.raiseN_keeps) State.stopSolve_keeps) State.runJob_keeps
  · exact .refl

theorem execSolveReportTimeout_completes {s : State} {t} : Completes s (execSolveReportTimeout t s) := by
  unfold execSolveReportTimeout
  refine runRunning_completes fun _ => ?_
  split
  · exact .ite .refl State.accept_keeps
  · exact .refl

theorem execAllocationDegraded_completes {s : State} {t} : Completes s (execAllocationDegraded t s) :=
  runRunning_completes fun _ => .ite (State.raiseN_keeps.after <| .set .refl) <| .ite (State.raiseN_keeps.after <| .set .refl) .refl

theorem execFallbackOn_completes {s : State} {t} : Completes s (execFallbackOn t s) := by
  unfold execFallbackOn
  refine runRunning_completes fun _ => ?_
  split
  · exact .ite .refl <| State.raise_keeps.after <| .ite (State.afterAccept_keeps.after <| State.applyThrust_keeps.after <| .set <|
      .set .refl) (.set .refl)
  · exact .refl

theorem execFallbackOff_completes {s : State} {t} : Completes s (execFallbackOff t s) := by
  unfold execFallbackOff
  refine runRunning_completes fun _ => ?_
  split
  · refine .ite .refl (State.raise_keeps.after ?_)
    split
    · exact State.afterAccept_keeps.after <| State.applyThrust_keeps.after <| .set <| .set .refl
    · exact .set .refl
  · exact .refl

theorem execCommandLate_completes {s : State} {t} : Completes s (execCommandLate t s) :=
  runRunning_completes fun _ => .ite (State.raise_keeps.after <| .set <| .set .refl) .refl

theorem execCommandStale_completes {s : State} {t} : Completes s (execCommandStale t s) :=
  runRunning_completes fun _ => .ite (State.raise_keeps.after <| .set .refl) .refl

theorem execCheckDone_completes {s : State} {t pass} : Completes s (execCheckDone t pass s) := by
  unfold execCheckDone
  refine runRunning_completes fun _ => ?_
  split
  · exact .ite (.set .refl) .refl
  · exact .refl

/-! ## Functions of Sys2Proof/Machine/Motion.lean -/

theorem execSlotSample_completes {s : State} {t slot latency} : Completes s (execSlotSample t slot latency s) := by
  unfold execSlotSample
  refine runRunning_completes fun _ => ?_
  split
  · exact State.slotSample_keeps
  · exact .refl

theorem execLoopLimit_completes {s : State} {t slot} : Completes s (execLoopLimit t slot s) :=
  runRunning_completes fun _ => .ite (State.raiseN_keeps.after <| .set .refl) <| .ite (State.raiseN_keeps.after <| .set .refl) .refl

theorem execFollowingError_completes {s : State} {t slot} : Completes s (execFollowingError t slot s) := by
  unfold execFollowingError
  refine runRunning_completes fun _ => ?_
  split
  · exact .refl
  · exact .ite (State.raise_keeps.after <| .set .refl) <| .ite (State.raise_keeps.after <| .set .refl) .refl

theorem execSlotHoldEnd_completes {s : State} {t slot} : Completes s (execSlotHoldEnd t slot s) :=
  runRunning_completes fun _ => .ite (State.raiseN_keeps.after <| .set .refl) .refl

theorem execInjectionDone_completes {s : State} {t} : Completes s (execInjectionDone t s) := by
  unfold execInjectionDone
  refine runRunning_completes fun _ => ?_
  dsimp only
  split
  · exact .ite (State.raise_keeps.after <| .set <| .set .refl) .refl
  · exact .refl

theorem execCaptureDone_completes {s : State} {t} : Completes s (execCaptureDone t s) :=
  runRunning_completes fun _ => .ite (State.raise_keeps.after <| .set .refl) .refl

theorem State.writeCoeff_keeps {s : State} {n num v} : DoneKeeps s (s.writeCoeff n num v) := by
  unfold State.writeCoeff
  split
  · exact .done (.set .refl)
  · exact .refuse .refl

theorem State.writeHold_keeps {s : State} {n r count} : DoneKeeps s (s.writeHold n r count) :=
  .ite (.refuse .refl) <| .ite (.done (.set .refl)) <| .done (.set .refl)

theorem State.writeSlotSp_keeps {s : State} {c n r v} : DoneKeeps s (s.writeSlotSp c n r v) :=
  .ite (.refuse .refl) <| .ite (.refuse .refl) <| .done (.set .refl)

theorem State.slotWrite_keeps {s : State} {c n num v} : DoneKeeps s (s.slotWrite c n num v) := by
  unfold State.slotWrite
  split
  · exact .refuse .refl
  · exact .ite (.refuse .refl) <| .ite (.checkValue State.writeCoeff_keeps .refl) <| .ite (.checkValue State.writeHold_keeps .refl) <|
      .ite (.checkValue State.writeSlotSp_keeps .refl) <| .ite (.checkValue (.checkValue (.done (.set .refl)) .refl) .refl) (.refuse .refl)

theorem execCoefficientWrite_completes {s : State} {t req slot number value} :
    Completes s (execCoefficientWrite t req slot number value s) :=
  runHost_completes fun _ => State.hostWrite_keeps fun _ _ => State.slotWrite_keeps

theorem execSlotHold_completes {s : State} {t req slot samples} : Completes s (execSlotHold t req slot samples s) :=
  runHost_completes fun _ => State.hostWrite_keeps fun _ _ => State.slotWrite_keeps

theorem execSlotSetpoint_completes {s : State} {t req slot value} : Completes s (execSlotSetpoint t req slot value s) :=
  runHost_completes fun _ => State.hostWrite_keeps fun _ _ => State.slotWrite_keeps

theorem State.aimAxis_keeps {s : State} {r a target host} : Keeps s (s.aimAxis r a target host) :=
  .ite (.ite (State.raiseN_keeps.after <| .set .refl) (.set .refl)) (.set .refl)

theorem State.aimAll_keeps {s : State} : Keeps s s.aimAll :=
  .foldl (fun _ _ => .ite .refl <| .foldl (fun _ _ => .ite .refl State.aimAxis_keeps) .refl) .refl

theorem State.pgWrite_keeps {s : State} {c g num v} : DoneKeeps s (s.pgWrite c g num v) := by
  unfold State.pgWrite
  split
  · exact .refuse .refl
  · dsimp only
    split
    any_goals exact .refuse .refl
    any_goals exact .checkValue (.done (.set .refl)) .refl
    · exact .ite (.refuse .refl) <| .checkValue (.done State.aimAxis_keeps) .refl

theorem execPgMove_completes {s : State} {t req generator axis target} : Completes s (execPgMove t req generator axis target s) :=
  runHost_completes fun _ => State.hostWrite_keeps fun _ _ => State.pgWrite_keeps

theorem State.writeRatio_keeps {s : State} {g i v} : DoneKeeps s (s.writeRatio g i v) :=
  .checkValue (.done (.set .refl)) .refl

theorem State.gearWrite_keeps {s : State} {c g num v} : DoneKeeps s (s.gearWrite c g num v) :=
  .ite (.notPositioning (.checkValue (.done (.set .refl)) .refl) .refl) <| .ite (.notPositioning (.checkValue (.done
    (.set .refl)) .refl) .refl) <| .ite (.checkValue (.done (.set .refl)) .refl) <| .ite (.refuse .refl) <| .ite State.writeRatio_keeps <|
    .ite (.checkValue (.done (.set .refl)) .refl) <| .ite (.checkValue (.done (.set .refl)) .refl) (.refuse .refl)

theorem execGearRatioWrite_completes {s : State} {t req group slave p q} : Completes s (execGearRatioWrite t req group slave p q s) :=
  runHost_completes fun _ => State.hostWrite_keeps fun _ _ => State.gearWrite_keeps

theorem execGearMasterLost_completes {s : State} {t group} : Completes s (execGearMasterLost t group s) :=
  runRunning_completes fun _ => .ite .refl <| State.raiseN_keeps.after <| .set .refl

theorem execGearReengage_completes {s : State} {t group} : Completes s (execGearReengage t group s) :=
  runRunning_completes fun _ => .ite .refl <| .ite (State.raiseN_keeps.after <| .set <| .set .refl) (.set .refl)

theorem State.latchWrite_keeps {s : State} {c n num v} : DoneKeeps s (s.latchWrite c n num v) :=
  .ite (.notPositioning (.checkValue (.done (.set .refl)) .refl) .refl) <| .ite (.refuse .refl) (.refuse .refl)

theorem execLatched_completes {s : State} {t unit falling stamp count} : Completes s (execLatched t unit falling stamp count s) := by
  unfold execLatched
  refine runRunning_completes fun _ => .ite .refl ?_
  split
  · exact .refl
  · exact State.raiseN_keeps.after <| .ite (.set <| .set .refl) (.set .refl)

theorem State.stepperStall_keeps {s : State} {d q} : Keeps s (s.stepperStall d q) := by
  unfold State.stepperStall
  refine .ite (State.raiseN_keeps.after <| .set .refl) ?_
  split
  · exact .after (.ite .refl (.set State.slotFault_keeps)) <| State.raiseN_keeps.after <| .set .refl
  · exact State.raiseN_keeps.after <| .set .refl

theorem execStepperStall_completes {s : State} {t drive} : Completes s (execStepperStall t drive s) := by
  unfold execStepperStall
  refine runPowered_completes fun _ => ?_
  split
  · exact .refl
  · exact .ite State.stepperStall_keeps .refl

theorem execStallResume_completes {s : State} {t drive} : Completes s (execStallResume t drive s) := by
  unfold execStallResume
  refine runPowered_completes fun _ => ?_
  split
  · exact .refl
  · split
    · exact .ite .refl (.set .refl)
    · exact .refl

theorem State.stepperLimit_keeps {s : State} {d upper bound value} : Keeps s (s.stepperLimit d upper bound value) :=
  State.raise_keeps

theorem execStepperCurrentStep_completes {s : State} {t drive angle emf} : Completes s (execStepperCurrentStep t drive angle emf s) := by
  unfold execStepperCurrentStep
  refine runPowered_completes fun _ => ?_
  split
  · exact .refl
  · exact .ite .refl <| .ite (State.stepperStall_keeps.after <| .set .refl) <| .after (.ite State.stepperLimit_keeps .refl) <|
      .ite (State.stepperLimit_keeps.after <| State.raiseN_keeps.after <| .set <| .set .refl) <| .set <| .set .refl

theorem execStepperAtRest_completes {s : State} {t drive} : Completes s (execStepperAtRest t drive s) := by
  unfold execStepperAtRest
  refine runPowered_completes fun _ => ?_
  split
  · exact .refl
  · exact .ite .refl (.set .refl)

theorem execStepperThermal_completes {s : State} {t drive current} : Completes s (execStepperThermal t drive current s) := by
  unfold execStepperThermal
  refine runPowered_completes fun _ => ?_
  split
  · exact .refl
  · exact .ite .refl <| .ite (State.raise_keeps.after <| .set .refl) (.set .refl)

theorem State.stpControl_keeps {s : State} {c d v} : DoneKeeps s (s.stpControl c d v) :=
  .ite (.refuse .refl) <| .ite (.onlyIn (.done (.set .refl)) .refl) <| .done (.set .refl)

theorem State.stpWrite_keeps {s : State} {c d num v} : DoneKeeps s (s.stpWrite c d num v) := by
  unfold State.stpWrite
  refine .ite (.refuse .refl) ?_
  dsimp only
  split
  any_goals exact .refuse .refl
  any_goals exact .checkValue (.done (.set .refl)) .refl
  · exact .checkValue State.stpControl_keeps .refl

theorem execStpClear_completes {s : State} {t req drive} : Completes s (execStpClear t req drive s) :=
  runHost_completes fun _ => State.hostWrite_keeps fun _ _ => State.stpWrite_keeps

theorem execStpZero_completes {s : State} {t req drive} : Completes s (execStpZero t req drive s) :=
  runHost_completes fun _ => State.hostWrite_keeps fun _ _ => State.stpWrite_keeps

theorem execStpSupply_completes {s : State} {t out} : Completes s (execStpSupply t out s) :=
  runPowered_completes fun _ => .ite .refl <| .ite (State.raise_keeps.after <| .set .refl) <| .ite (.set .refl) .refl

theorem State.icWrite_keeps {s : State} {c num v} : DoneKeeps s (s.icWrite c num v) := by
  unfold State.icWrite
  dsimp only
  split
  any_goals exact .refuse .refl
  any_goals exact .checkValue (.done (.set .refl)) .refl
  · exact .ite (.refuse .refl) <| .ite (.refuse .refl) <| .ite (.done (.set .refl)) <| .done (.set .refl)
  · exact .ite (.refuse .refl) <| .ite (.done (.set .refl)) <| .done (.set .refl)

theorem execInjStart_completes {s : State} {t req} : Completes s (execInjStart t req s) :=
  runHost_completes fun _ => State.hostWrite_keeps fun _ _ => State.icWrite_keeps

theorem execInjStop_completes {s : State} {t req} : Completes s (execInjStop t req s) :=
  runHost_completes fun _ => State.hostWrite_keeps fun _ _ => State.icWrite_keeps

theorem execCapArm_completes {s : State} {t req} : Completes s (execCapArm t req s) :=
  runHost_completes fun _ => State.hostWrite_keeps fun _ _ => State.icWrite_keeps

theorem execCapStop_completes {s : State} {t req} : Completes s (execCapStop t req s) :=
  runHost_completes fun _ => State.hostWrite_keeps fun _ _ => State.icWrite_keeps

theorem State.readCapData_keeps {s : State} : ReadKeeps s s.readCapData :=
  .result (.set .refl)

theorem execCapDataRead_completes {s : State} {t req} : Completes s (execCapDataRead t req s) :=
  runHost_completes fun _ => State.hostRead_keeps fun _ => State.readCapData_keeps

theorem State.srvWrite_keeps {s : State} {c inst num v} : DoneKeeps s (s.srvWrite c inst num v) :=
  .ite State.slotWrite_keeps <| .ite State.pgWrite_keeps <| .ite State.gearWrite_keeps <| .ite State.latchWrite_keeps <|
    .ite State.stpWrite_keeps <| .ite State.icWrite_keeps (.refuse .refl)

theorem State.slotRead_keeps {s : State} {n num} : ReadKeeps s (s.slotRead n num) := by
  unfold State.slotRead
  split
  · exact .noRead .refl
  · exact .ite (.readAs .refl) <| .ite (.readAs .refl) <| .ite (.readAs .refl) <| .ite (.readAs .refl) <| .ite (.result (.set .refl)) <|
      .ite (.readAs .refl) <| .ite (.readAs .refl) <| .ite (.noRead .refl) <| .ite (.readAs .refl) <| .ite (.readAs .refl) (.noRead .refl)

theorem State.pgRead_keeps {s : State} {g num} : ReadKeeps s (s.pgRead g num) :=
  .ite (.noRead .refl) <| .ite (.readAs .refl) <| .ite (.readAs .refl) <| .ite (.readAs .refl) <| .ite (.readAs .refl) (.noRead .refl)

theorem State.gearRead_keeps {s : State} {g num} : ReadKeeps s (s.gearRead g num) :=
  .ite (.readAs .refl) <| .ite (.readAs .refl) <| .ite (.readAs .refl) <| .ite (.readAs .refl) <| .ite (.readAs .refl) <|
    .ite (.readAs .refl) <| .ite (.readAs .refl) (.noRead .refl)

theorem State.latchRead_keeps {s : State} {n num} : ReadKeeps s (s.latchRead n num) :=
  .ite (.readAs .refl) <| .ite (.result (.set .refl)) (.noRead .refl)

theorem State.stpRead_keeps {s : State} {d num} : ReadKeeps s (s.stpRead d num) := by
  unfold State.stpRead
  refine .ite (.noRead .refl) ?_
  dsimp only
  split
  any_goals exact .readAs .refl
  · exact .noRead .refl
  · exact .noRead .refl

theorem State.icRead_keeps {s : State} {num} : ReadKeeps s (s.icRead num) := by
  unfold State.icRead
  dsimp only
  split
  any_goals exact .readAs .refl
  any_goals exact .noRead .refl
  · exact State.readCapData_keeps

theorem State.srvRead_keeps {s : State} {inst num} : ReadKeeps s (s.srvRead inst num) :=
  .ite State.slotRead_keeps <| .ite State.pgRead_keeps <| .ite State.gearRead_keeps <| .ite State.latchRead_keeps <|
    .ite State.stpRead_keeps <| .ite State.icRead_keeps (.noRead .refl)

/-! ## Functions of Sys2Proof/Machine/Field.lean -/

theorem State.report_keeps {s : State} {n v} : Keeps s (s.report n v) :=
  .ite (State.raiseN_keeps.after <| .set .refl) (.set .refl)

theorem execInputTransition_completes {s : State} {t channel level} : Completes s (execInputTransition t channel level s) :=
  runPowered_completes fun _ => .ite .refl <| .after (.ite .refl <| .ite (State.raiseN_keeps.after <| State.report_keeps.after <|
    .set .refl) State.report_keeps) <| State.captureInput_keeps.after <| .set .refl

theorem execChatterQuiet_completes {s : State} {t channel} : Completes s (execChatterQuiet t channel s) :=
  runPowered_completes fun _ => .ite (State.raiseN_keeps.after <| State.report_keeps.after <| .set .refl) .refl

theorem execInputStuck_completes {s : State} {t channel} : Completes s (execInputStuck t channel s) := by
  unfold execInputStuck
  refine runPowered_completes fun _ => ?_
  dsimp only
  split
  · exact .ite (State.raiseN_keeps.after <| .set .refl) .refl
  · exact .refl

theorem execInputDelivery_completes {s : State} {t channel} : Completes s (execInputDelivery t channel s) := by
  unfold execInputDelivery
  refine runPowered_completes fun _ => ?_
  split
  · exact .refl
  · exact .ite .refl <| State.arriveSlotted_keeps.after <| .set .refl

theorem State.uSet_keeps {s : State} {c n v} : DoneKeeps s (s.uSet c n v) :=
  .ite (.refuse .refl) <| .ite (.refuse .refl) <| .ite (.refuse .refl) <| .done <| State.clearOverloads_keeps.after <| .set .refl

theorem State.uControl_keeps {s : State} {n v} : DoneKeeps s (s.uControl n v) := by
  unfold State.uControl
  exact .checkValue (.done (.set .refl)) .refl

theorem execUSet_completes {s : State} {t req channel value} : Completes s (execUSet t req channel value s) :=
  runHost_completes fun _ => State.hostWrite_keeps fun _ _ => State.uSet_keeps

theorem execUClear_completes {s : State} {t req channel} : Completes s (execUClear t req channel s) :=
  runHost_completes fun _ => State.hostWrite_keeps fun _ _ => State.uControl_keeps

theorem execCountReset_completes {s : State} {t req channel} : Completes s (execCountReset t req channel s) :=
  runHost_completes fun _ => State.hostWrite_keeps fun _ _ => State.uControl_keeps

theorem execOutputOverload_completes {s : State} {t channel} : Completes s (execOutputOverload t channel s) :=
  runPowered_completes fun _ => .ite .refl <| State.raiseN_keeps.after <| .set .refl

theorem execOutputReadback_completes {s : State} {t channel} : Completes s (execOutputReadback t channel s) :=
  runPowered_completes fun _ => .ite .refl <| State.raise_keeps.after <| .set .refl

theorem execOpenLoad_completes {s : State} {t channel} : Completes s (execOpenLoad t channel s) :=
  runPowered_completes fun _ => .ite .refl (.set .refl)

theorem execFieldSupply_completes {s : State} {t bank out millivolt} : Completes s (execFieldSupply t bank out millivolt s) :=
  runPowered_completes fun _ => .ite .refl <| .ite (.set .refl) <| State.raiseN_keeps.after <| .set .refl

theorem execUvlo_completes {s : State} {t bank low millivolt} : Completes s (execUvlo t bank low millivolt s) :=
  runPowered_completes fun _ => .ite (.set .refl) .refl

theorem execEventLinePulseEnd_completes {s : State} {t line} : Completes s (execEventLinePulseEnd t line s) := by
  unfold execEventLinePulseEnd
  refine runPowered_completes fun _ => ?_
  split
  · exact .ite (State.clearOverloads_keeps.after <| .set .refl) .refl
  · exact .refl

theorem execWatchdogRetrigger_completes {s : State} {t} : Completes s (execWatchdogRetrigger t s) :=
  runRunning_completes fun _ => .ite (.set <| .set .refl) (.set .refl)

theorem execWatchdogExpired_completes {s : State} {t} : Completes s (execWatchdogExpired t s) :=
  runPowered_completes fun _ => .ite .refl <| State.raise_keeps.after <| State.clearOverloads_keeps.after <| .set State.captureHolds_keeps

theorem State.aoSet_keeps {s : State} {c n v} : DoneKeeps s (s.aoSet c n v) := by
  unfold State.aoSet
  split
  · exact .refuse .refl
  · exact .ite (.refuse .refl) <| .ite (.refuse .refl) <| .done (.set .refl)

theorem execAoSet_completes {s : State} {t req channel value} : Completes s (execAoSet t req channel value s) :=
  runHost_completes fun _ => State.hostWrite_keeps fun _ _ => State.aoSet_keeps

theorem execAoFault_completes {s : State} {t channel present measured} : Completes s (execAoFault t channel present measured s) := by
  unfold execAoFault
  refine runPowered_completes fun _ => ?_
  split
  · exact .refl
  · exact .ite .refl <| .ite (.set .refl) <| State.raiseN_keeps.after <| .set .refl

theorem State.deliverPfb_keeps {s : State} {channel before} : Keeps s (s.deliverPfb channel before) := by
  unfold State.deliverPfb
  split
  · exact .refl
  · exact .ite .refl State.arriveSlotted_keeps

theorem execPfbFrame_completes {s : State} {t channel frame} : Completes s (execPfbFrame t channel frame s) :=
  runPowered_completes fun _ => .ite .refl <| .ite (.ite (.set <| .set .refl) <| State.raiseN_keeps.after <| .set <| .set .refl) <|
    State.deliverPfb_keeps.after <| .set <| .set .refl

theorem State.uConfig_keeps {s : State} {c n v} : DoneKeeps s (s.uConfig c n v) := by
  unfold State.uConfig
  exact .notPositioning (.checkValue (.done <| .ite (State.clearOverloads_keeps.after <| .set .refl) <| .ite (.set .refl) <|
    State.report_keeps.after <| .set .refl) .refl) .refl

theorem State.uTiming_keeps {s : State} {c n v} : DoneKeeps s (s.uTiming c n v) := by
  unfold State.uTiming
  exact .notPositioning (.checkValue (.done (.set .refl)) .refl) .refl

theorem State.pfbConfig_keeps {s : State} {c n v} : DoneKeeps s (s.pfbConfig c n v) := by
  unfold State.pfbConfig
  exact .notPositioning (.checkValue (.done (.set .refl)) .refl) .refl

theorem State.fioWrite_keeps {s : State} {c inst num v} : DoneKeeps s (s.fioWrite c inst num v) := by
  unfold State.fioWrite
  refine .ite ?_ <| .ite ?_ <| .ite ?_ <| .ite ?_ (.refuse .refl)
  · split
    any_goals exact .refuse .refl
    · exact State.uConfig_keeps
    · exact State.uTiming_keeps
    · exact State.uSet_keeps
    · exact State.uControl_keeps
  · split
    any_goals exact .refuse .refl
    · exact State.aoSet_keeps
  · dsimp only
    split
    any_goals exact .refuse .refl
    · exact State.pfbConfig_keeps
    · exact .checkValue (.done (.set .refl)) .refl
    · exact .checkValue (.done (.set .refl)) .refl
  · split
    any_goals exact .refuse .refl
    · exact .checkValue (.done (.set .refl)) .refl

theorem State.fioRead_keeps {s : State} {inst num} : ReadKeeps s (s.fioRead inst num) := by
  unfold State.fioRead
  refine .ite ?_ <| .ite ?_ <| .ite ?_ <| .ite ?_ (.noRead .refl)
  · dsimp only
    split
    any_goals exact .readAs .refl
    any_goals exact .noRead .refl
  · split
    · exact .readAs .refl
    · exact .readAs .refl
    · exact .noRead .refl
    · exact .noRead .refl
  · dsimp only
    split
    any_goals exact .readAs .refl
    · exact .noRead .refl
  · dsimp only
    split
    any_goals exact .readAs .refl
    · exact .noRead .refl

/-! ## Functions of Sys2Proof/Machine/Modes.lean -/

theorem State.requestMode_keeps {s : State} {c v} : DoneKeeps s (s.requestMode c v) := by
  unfold State.requestMode
  refine .ite (.refuse .refl) ?_
  split
  · exact .refuse .refl
  · refine .ite (.refuse .refl) <| .ite (.done .refl) ?_
    split
    · exact .ite (.done State.enterSafe_keeps) <| .ite (.answer (.set .refl)) <| .answer (.set .refl)
    · exact .refuse .refl

theorem execModeRequest_completes {s : State} {t req mode} : Completes s (execModeRequest t req mode s) :=
  runHost_completes fun _ => State.hostWrite_keeps fun _ _ => State.requestMode_keeps

theorem State.changeMode_keeps {s : State} {m} : Keeps s (s.changeMode m) := by
  unfold State.changeMode
  refine State.raiseN_keeps.after <| State.clearOverloads_keeps.after <| .after (.ite (.set .refl) .refl) <|
    .after (.ite (.set .refl) .refl) <| .after (.ite (.set .refl) .refl) <| .set <| .after (.ite (.set .refl) .refl) <|
    .after (.ite (.set .refl) .refl) <| .after (.ite State.leaveTest_keeps .refl) ?_
  split
  · exact .set State.captureHolds_keeps
  · exact .set State.captureHolds_keeps
  · exact .set State.captureHolds_keeps
  · exact .ite (.set <| .set .refl) .refl

theorem State.pendingAtTick_keeps {s : State} : Keeps s s.pendingAtTick := by
  unfold State.pendingAtTick
  split
  · exact .refl
  · exact .ite (State.changeMode_keeps.after <| .set .refl) <| State.raiseN_keeps.after <| .set .refl

theorem State.tick_keeps {s : State} : Keeps s s.tick :=
  State.tryRelease_keeps.after <| State.pendingAtTick_keeps.after <| .set <| .set .refl

theorem execCycleTick_completes {s : State} {t} : Completes s (execCycleTick t s) :=
  runRunning_completes fun _ => .ite .refl State.tick_keeps

/-! ## Functions of Sys2Proof/Machine/Group.lean -/

theorem State.heard_keeps {s : State} {h hello} : Keeps s (s.heard h hello) := by
  unfold State.heard
  dsimp only
  split
  · exact .set .refl
  · exact .ite (State.raiseN_keeps.after <| .set <| .set .refl) <| .set <| .set .refl

theorem State.badFrame_keeps {s : State} {h} : Keeps s (s.badFrame h) := by
  unfold State.badFrame
  split
  · exact .refl
  · exact .set .refl

theorem State.indexClash_keeps {s : State} : Keeps s s.indexClash :=
  .ite (State.setRole_keeps.after <| .set .refl) (.set .refl)

theorem State.judgeFrame_keeps {s : State} {hdr f} (h : ∀ u, Keeps u (f u)) : Keeps s (s.judgeFrame hdr f) :=
  .ite State.badFrame_keeps (.ite State.indexClash_keeps (h _))

theorem State.onFrame_keeps {s : State} {hdr f} (h : ∀ u, Keeps u (f u)) : Keeps s (s.onFrame hdr f) :=
  State.judgeFrame_keeps fun _ => .ite .refl ((h _).after State.heard_keeps)

theorem State.requestCopy_keeps {s : State} : Keeps s s.requestCopy :=
  .ite .refl <| .ite (State.sendLaneTo_keeps.after <| .set <| .set .refl) .refl

theorem State.toResync_keeps {s : State} {cause} : Keeps s (s.toResync cause) :=
  State.requestCopy_keeps.after State.setRole_keeps

theorem State.judgeBars_keeps {s : State} {b} : Keeps s (s.judgeBars b) := by
  unfold State.judgeBars
  refine .after (.ite (.after (.ite .refl State.setRole_keeps) <| .ite .refl State.raiseN_keeps) .refl) ?_
  split
  · exact .after (.ite .refl State.setRole_keeps) <| .ite (.set .refl) <| State.raiseN_keeps.after <| .set .refl
  · exact .set .refl

theorem State.electLead_keeps {s : State} {epoch} : Keeps s (s.electLead epoch) :=
  State.setRole_keeps.after <| .set .refl

theorem State.ringmaster_keeps {s : State} {m} : Keeps s (s.ringmaster m) := by
  unfold State.ringmaster
  refine .ite .refl <| .ite (.ite (State.toResync_keeps.after <| .set .refl) <| .ite .refl <| .ite (State.electLead_keeps.after <|
    .set .refl) <| State.toResync_keeps.after <| .set .refl) ?_
  split
  · exact .ite (.ite .refl <| .ite State.electLead_keeps State.toResync_keeps) <| .ite State.toResync_keeps .refl
  · exact .ite State.toResync_keeps .refl
  · exact .refl

theorem execLlpHello_completes {s : State} {t hdr body} : Completes s (execLlpHello t hdr body s) :=
  runPowered_completes fun _ => State.judgeFrame_keeps fun _ => .after (.ite (State.toResync_keeps.after <| .set <| .set <| .set <|
    .set .refl) <| State.requestCopy_keeps.after <| State.ringmaster_keeps.after <| .ite (State.judgeBars_keeps.after <| .set <|
    .set .refl) <| .set <| .set .refl) State.heard_keeps

theorem execLinkDown_completes {s : State} {t link} : Completes s (execLinkDown t link s) :=
  runPowered_completes fun _ => .ite (.set .refl) <| State.raiseN_keeps.after <| .set <| .set .refl

theorem execLlpTime_completes {s : State} {t hdr body} : Completes s (execLlpTime t hdr body s) := by
  unfold execLlpTime
  refine runPowered_completes fun _ => State.onFrame_keeps fun _ => ?_
  split
  · exact .refl
  · exact .ite (.set .refl) <| .after (.ite .refl State.stepBase_keeps) <| State.correct_keeps.after <| .set <| .set .refl

theorem execLlpSet_completes {s : State} {t hdr set} : Completes s (execLlpSet t hdr set s) := by
  unfold execLlpSet
  refine runRunning_completes fun _ => State.onFrame_keeps fun _ => State.tryComplete_keeps.after <| State.tryClose_keeps.after <| .set ?_
  split
  · exact .set .refl
  · exact .refl

theorem execLlpClose_completes {s : State} {t hdr body} : Completes s (execLlpClose t hdr body s) := by
  unfold execLlpClose
  refine runRunning_completes fun _ => State.onFrame_keeps fun _ => .ite .refl <| .ite .refl <| .ite (.set .refl) <|
    .after (.ite State.toResync_keeps State.tryComplete_keeps) ?_
  split
  · exact State.toSafe_keeps.after <| .foldl (fun _ _ => State.recordCommand_keeps.after State.queueGroupWrite_keeps) <| .set <| .set .refl
  · exact .after (.ite .refl (.set .refl)) <| .foldl (fun _ _ => State.recordCommand_keeps.after State.queueGroupWrite_keeps) <| .set <|
      .set .refl
  · exact .foldl (fun _ _ => State.recordCommand_keeps.after State.queueGroupWrite_keeps) <| .set <| .set .refl

theorem execLlpSolveReport_completes {s : State} {t hdr report} : Completes s (execLlpSolveReport t hdr report s) :=
  runRunning_completes fun _ => State.onFrame_keeps fun _ => .ite .refl <| State.tryAccept_keeps.after <| .set .refl

theorem execLlpCommit_completes {s : State} {t hdr digest} (result) : Completes s (execLlpCommit t hdr digest result s) :=
  runRunning_completes fun _ => State.onFrame_keeps fun _ => .ite .refl <| State.requestCopy_keeps.after <| State.tryAccept_keeps.after <|
    State.compareCommit_keeps.after <| .set .refl

theorem State.takeover_keeps {s : State} {old cause instant} : Keeps s (s.takeover old cause instant) :=
  State.tryClose_keeps.after <| State.setRole_keeps.after <| State.raiseN_keeps.after <| State.sendLane_keeps.after <| .set <| .set <|
    .set <| .set .refl

theorem execLlpYield_completes {s : State} {t hdr instant successor} : Completes s (execLlpYield t hdr instant successor s) :=
  runPowered_completes fun _ => State.onFrame_keeps fun _ => .ite (State.takeover_keeps.after <| .set .refl) <|
    State.tryAccept_keeps.after <| .set <| .set .refl

theorem execLlpTakeover_completes {s : State} {t hdr epoch instant} (cause) : Completes s (execLlpTakeover t hdr epoch instant cause s) :=
  runPowered_completes fun _ => State.onFrame_keeps fun _ => .after (.ite (State.tryAccept_keeps.after <|
    .set .refl) State.tryAccept_keeps) <| .after (.ite (State.compareCommit_keeps.after <| .set .refl) (.set .refl)) <| .foldl (fun _ _ =>
    .ite (.set <| .set .refl) .refl) .refl

theorem State.yieldNow_keeps {s : State} {next instant} : Keeps s (s.yieldNow next instant) :=
  State.setRole_keeps.after State.yieldTo_keeps

theorem execMissingCommit_completes {s : State} {t} : Completes s (execMissingCommit t s) := by
  unfold execMissingCommit
  refine runRunning_completes fun _ => ?_
  dsimp only
  split
  · exact .refl
  · exact .ite .refl <| .ite (State.toResync_keeps.after <| .set <| .set .refl) (.set State.takeover_keeps)

theorem execContactLost_completes {s : State} {t} : Completes s (execContactLost t s) :=
  runPowered_completes fun _ => .ite .refl <| .after (.ite State.setRole_keeps (State.tryAccept_keeps.after State.tryClose_keeps)) <|
    .foldl (fun _ _ => .ite .refl <| .set <| .set .refl) .refl

theorem execRoleElectionTimeout_completes {s : State} {t} : Completes s (execRoleElectionTimeout t s) :=
  runRunning_completes fun _ => .ite (.set .refl) .refl

theorem State.transfer_keeps {s : State} {v} : DoneKeeps s (s.transfer v) :=
  .ite (.refuse .refl) <| .ite (.refuse .refl) (.done State.yieldNow_keeps)

theorem execTransfer_completes {s : State} {t req member} : Completes s (execTransfer t req member s) :=
  runHost_completes fun _ => State.hostWrite_keeps fun _ _ => State.transfer_keeps

theorem execLlpResyncRequest_completes {s : State} {t hdr} : Completes s (execLlpResyncRequest t hdr s) :=
  runRunning_completes fun _ => State.onFrame_keeps fun _ => .ite .refl <| State.sendLaneTo_keeps.after <| .set .refl

theorem execLlpCopyPlan_completes {s : State} {t hdr j total} : Completes s (execLlpCopyPlan t hdr j total s) :=
  runRunning_completes fun _ => State.onFrame_keeps fun _ => .ite (.set .refl) .refl

theorem State.adoptMode_keeps {s : State} {m} : Keeps s (s.adoptMode m) := by
  unfold State.adoptMode
  refine .ite .refl <| State.clearOverloads_keeps.after <| .set ?_
  split
  · exact .set State.captureHolds_keeps
  · exact .set State.captureHolds_keeps
  · exact .set State.captureHolds_keeps
  · exact .ite (.set <| .set .refl) .refl

theorem State.stepToLead_keeps {s : State} : Keeps s s.stepToLead :=
  .ite .refl State.stepBase_keeps

theorem State.applyCopy_keeps {s : State} {c} : Keeps s (s.applyCopy c) :=
  .set <| State.adoptMode_keeps.after <| .set State.stepToLead_keeps

theorem State.copyFailed_keeps {s : State} : Keeps s s.copyFailed :=
  .ite (State.raiseN_keeps.after <| .set <| .set <| .set .refl) <| .set <| .set .refl

theorem execLlpCopyChunk_completes {s : State} {t hdr offset data} : Completes s (execLlpCopyChunk t hdr offset data s) := by
  unfold execLlpCopyChunk
  refine runRunning_completes fun _ => State.onFrame_keeps fun _ => ?_
  split
  · exact .refl
  · refine .ite .refl <| .ite State.copyFailed_keeps <| .ite (.set .refl) ?_
    dsimp only
    split
    · exact State.applyCopy_keeps.after <| .set .refl
    · exact State.copyFailed_keeps.after <| .set .refl

theorem execCopyFail_completes {s : State} {t} : Completes s (execCopyFail t s) := by
  unfold execCopyFail
  refine runRunning_completes fun _ => ?_
  split
  · exact .ite State.copyFailed_keeps .refl
  · exact .refl

theorem execResyncRetry_completes {s : State} {t} : Completes s (execResyncRetry t s) :=
  runRunning_completes fun _ => .ite State.requestCopy_keeps .refl

theorem execStepDone_completes {s : State} {t} : Completes s (execStepDone t s) :=
  runRunning_completes fun _ => .ite (.set State.setRole_keeps) .refl

theorem State.writeResync_keeps {s : State} {v} : DoneKeeps s (s.writeResync v) :=
  .checkValue (.done <| State.requestCopy_keeps.after <| .set .refl) .refl

theorem execResync_completes {s : State} {t req} : Completes s (execResync t req s) :=
  runHost_completes fun _ => State.hostWrite_keeps fun _ _ => State.writeResync_keeps

theorem State.writeIndex_keeps {s : State} {c v} : DoneKeeps s (s.writeIndex c v) :=
  .onlyIn (.checkValue (.done (.set .refl)) .refl) .refl

theorem execMemberIndex_completes {s : State} {t req value} : Completes s (execMemberIndex t req value s) :=
  runHost_completes fun _ => State.hostWrite_keeps fun _ _ => State.writeIndex_keeps

theorem execLnkCreditStall_completes {s : State} {t link} : Completes s (execLnkCreditStall t link s) := by
  unfold execLnkCreditStall
  refine runPowered_completes fun _ => ?_
  dsimp only
  split
  · exact .ite (State.raise_keeps.after <| .set .refl) .refl
  · exact .refl

theorem execLlpPeriodicSend_completes {s : State} {t} : Completes s (execLlpPeriodicSend t s) :=
  runPowered_completes fun _ => .ite .refl <| .set <| State.sendHello_keeps.after <| .set .refl

theorem State.lnkWrite_keeps {s : State} {c inst num v} : DoneKeeps s (s.lnkWrite c inst num v) := by
  unfold State.lnkWrite
  refine .ite ?_ <| .ite (.refuse .refl) (.refuse .refl)
  split
  any_goals exact .refuse .refl
  · exact State.writeIndex_keeps
  · exact .notPositioning (.checkValue (.done (.set .refl)) .refl) .refl
  · exact .checkValue (.done (.set .refl)) .refl
  · exact State.transfer_keeps
  · exact State.writeResync_keeps

theorem State.lnkRead_keeps {s : State} {inst num} : ReadKeeps s (s.lnkRead inst num) := by
  unfold State.lnkRead
  refine .ite ?_ <| .ite (.readAs .refl) (.noRead .refl)
  split
  any_goals exact .readAs .refl
  any_goals exact .noRead .refl
  · exact .result (.set .refl)

/-! ## Functions of Sys2Proof/Machine/Networks.lean -/

theorem State.transparent_keeps {s : State} {n f at_} : Keeps s (s.transparent n f at_).2 := by
  unfold State.transparent
  refine .ite_of Prod.snd .refl ?_
  dsimp only
  split <;> exact .set .refl

theorem State.egressFrom_keeps {s : State} {n start fuel} : Keeps s (s.egressFrom n start fuel) := by
  induction fuel generalizing s start with
  | zero => exact .refl
  | succ fuel ih =>
    unfold State.egressFrom
    split
    · exact .refl
    · exact .ite (ih.after <| .set <| .set State.transparent_keeps) (.set State.transparent_keeps)

theorem State.egress_keeps {s : State} {n} : Keeps s (s.egress n) := by
  unfold State.egress
  dsimp only
  split
  · exact .ite (State.egressFrom_keeps.after <| .set .refl) .refl
  · exact State.egressFrom_keeps

theorem State.egressAll_keeps {s : State} : Keeps s s.egressAll :=
  .foldl (fun _ _ => State.egress_keeps) .refl

theorem State.learn_keeps {s : State} {vid f port} : Keeps s (s.learn vid f port) :=
  .ite (.set .refl) (.set .refl)

theorem State.storm_keeps {s : State} {n f} : Keeps s (s.storm n f).2 :=
  .ite_of Prod.snd .refl (.set .refl)

theorem State.admitFrame_keeps {s : State} {n priority f} : Keeps s (s.admitFrame n priority f).2 :=
  .ite_of Prod.snd (State.egress_keeps.after <| .set .refl) <| .ite (.set .refl) <| State.raise_keeps.after <| .set .refl

theorem State.ageResidences_keeps {s : State} : Keeps s s.ageResidences := .set .refl

/-- `Keeps` of the state that a pair carries, as a predicate of the pair: the kernel then compares pairs, not their projections. -/
def CarriesKept (s : State) (p : Bool × State) : Prop := Keeps s p.2

theorem State.forward_keeps {s : State} {ingress vid priority e f} : Keeps s (s.forward ingress vid priority e f) := by
  refine .after (u := (s.learn vid f ingress).ageResidences) ?_ (State.ageResidences_keeps.after State.learn_keeps)
  unfold State.forward
  generalize (s.learn vid f ingress).ageResidences = w
  extract_lets
  split
  extract_lets step
  have sends {ports : List Nat} : CarriesKept w (ports.foldl step (false, w)) := by
    refine List.foldlRecOn _ _ .refl fun a h n _ => ?_
    unfold step
    split
    rename_i admitted
    exact Keeps.after (.of_snd admitted State.admitFrame_keeps) h
  split
  rename_i sent
  refine .after ?_ <| .of_snd sent sends
  split
  · exact .ite .refl (.ite (.set .refl) (.set .refl))
  · exact .refl

theorem execSwitchFrameIngress_completes {s : State} {t port frame} : Completes s (execSwitchFrameIngress t port frame s) := by
  unfold execSwitchFrameIngress
  refine runPowered_completes fun _ => .ite .refl <| .ite (.set <| .set State.egressAll_keeps) <| .ite (.set State.egressAll_keeps) <|
    .ite (.set <| .set State.egressAll_keeps) ?_
  split
  · exact .set State.egressAll_keeps
  · split
    · exact .set <| .set State.egressAll_keeps
    · exact .after (.ite .refl State.forward_keeps) <| State.storm_keeps.after <| .set State.egressAll_keeps

theorem State.sendOwn_keeps {s : State} {n pvid kind f} : Keeps s (s.sendOwn n pvid kind f) :=
  .ite .refl (State.admitFrame_keeps.after State.egressAll_keeps)

theorem execPtpDelayReq_completes {s : State} {t} : Completes s (execPtpDelayReq t s) := by
  unfold execPtpDelayReq
  refine runPowered_completes fun _ => ?_
  dsimp only
  split
  · exact .ite .refl <| State.sendOwn_keeps.after <| .set .refl
  · exact .refl

theorem execEthLink_completes {s : State} {t port status} : Completes s (execEthLink t port status s) :=
  runPowered_completes fun _ => .ite (State.raiseN_keeps.after <| .set .refl) (.set .refl)

theorem State.storeEth_keeps {s : State} {d} : Keeps s (s.storeEth d) :=
  .after (.ite (.set <| .set .refl) <| .ite (.set .refl) <| State.raise_keeps.after <| .set .refl) State.egressAll_keeps

theorem State.ethArrives_keeps {s : State} {d} : Keeps s (s.ethArrives d) := by
  unfold State.ethArrives
  refine .ite .refl ?_
  dsimp only
  split
  · exact State.tryRelease_keeps.after <| .ite_of Prod.snd State.takeEth_keeps .refl
  · exact State.tryRelease_keeps.after <| State.storeEth_keeps.after <| .ite_of Prod.snd State.takeEth_keeps .refl

theorem execDatagramReceived_completes {s : State} {t port dst udpPort stamp payload} :
    Completes s (execDatagramReceived t port dst udpPort stamp payload s) := by
  unfold execDatagramReceived
  refine runPowered_completes fun _ => .ite .refl ?_
  split
  · exact .set .refl
  · exact .ite .refl State.ethArrives_keeps

theorem execIec450Datagram_completes {s : State} {t port dst udpPort stamp payload} :
    Completes s (execIec450Datagram t port dst udpPort stamp payload s) :=
  runPowered_completes fun _ => .ite .refl <| .ite (.set .refl) State.ethArrives_keeps

theorem execFeedbackTimeout_completes {s : State} {t slice} : Completes s (execFeedbackTimeout t slice s) := by
  unfold execFeedbackTimeout
  refine runPowered_completes fun _ => ?_
  split
  · exact .refl
  · exact .ite .refl <| State.raiseN_keeps.after <| State.judgeFeedback_keeps.after <| .set .refl

theorem State.canReport_keeps {s : State} {n source entry} : Keeps s (s.canReport n source entry) :=
  State.raise_keeps

theorem State.confine_keeps {s : State} {n} : Keeps s (s.confine n) :=
  .ite .refl <| .ite (State.canReport_keeps.after <| .set <| .ite (State.canReport_keeps.after <| .set .refl) .refl) <| .ite .refl <|
    State.canReport_keeps.after <| .set .refl

theorem execCanFrameReceived_completes {s : State} {t ctl frame} : Completes s (execCanFrameReceived t ctl frame s) :=
  runPowered_completes fun _ => .ite .refl <| .after (.ite .refl <| .ite (.ite (State.tryRelease_keeps.after <|
    State.drainCan_keeps.after <| .set <| .set .refl) <| .set <| .set .refl) <| .ite (.set <| .set .refl) <| State.raiseN_keeps.after <|
    .set <| .set .refl) <| State.confine_keeps.after <| .set <| .set .refl

theorem execCanFrameTransmitted_completes {s : State} {t ctl} : Completes s (execCanFrameTransmitted t ctl s) := by
  unfold execCanFrameTransmitted
  refine runPowered_completes fun _ => ?_
  dsimp only
  split
  · exact .refl
  · exact .ite .refl <| State.confine_keeps.after <| .set .refl

theorem execCanTxAttemptFailed_completes {s : State} {t ctl error dataPhase} :
    Completes s (execCanTxAttemptFailed t ctl error dataPhase s) := by
  unfold execCanTxAttemptFailed
  refine runPowered_completes fun _ => ?_
  dsimp only
  split
  · exact .refl
  · exact .ite .refl <| .ite (.set .refl) <| State.confine_keeps.after <| .set <| .set .refl

theorem execCanRxError_completes {s : State} {t ctl error dataPhase} : Completes s (execCanRxError t ctl error dataPhase s) :=
  runPowered_completes fun _ => .ite .refl <| State.confine_keeps.after <| .set .refl

theorem execCanRecoveryDone_completes {s : State} {t ctl} : Completes s (execCanRecoveryDone t ctl s) :=
  runPowered_completes fun _ => .ite .refl <| State.canReport_keeps.after <| .set .refl

theorem State.canControl_keeps {s : State} {c n v} : DoneKeeps s (s.canControl c n v) :=
  .ite (.refuse .refl) <| .checkValue (.done (.set .refl)) .refl

theorem State.canTiming_keeps {s : State} {c n data v} : DoneKeeps s (s.canTiming c n data v) := by
  unfold State.canTiming
  exact .notPositioning (.ite (.refuse .refl) <| .checkValue (.done (.set .refl)) .refl) .refl

theorem State.canTx_keeps {s : State} {n v} : DoneKeeps s (s.canTx n v) := by
  unfold State.canTx
  exact .checkValue (.ite (.refuse .refl) <| .done (.set .refl)) .refl

theorem State.sendRecord_keeps {s : State} {p r} : Keeps s (s.sendRecord p r) :=
  State.sendOwn_keeps.after <| .set .refl

theorem execSerialCharacter_completes {s : State} {t port char stamp lineError} :
    Completes s (execSerialCharacter t port char stamp lineError s) :=
  runPowered_completes fun _ => .after (.ite (.set .refl) <| .ite (.set .refl) <| State.raiseN_keeps.after <| .set .refl) <|
    .ite (State.raiseN_keeps.after <| .set .refl) (.set .refl)

theorem execSentenceParse_completes {s : State} {t port} : Completes s (execSentenceParse t port s) := by
  unfold execSentenceParse
  refine runRunning_completes fun _ => .ite .refl ?_
  split
  · exact .refl
  · refine .ite (.set .refl) ?_
    split
    · exact .ite (.set <| .set .refl) <| State.raiseN_keeps.after <| .set <| .set .refl
    · exact .ite State.meetFull_keeps <| State.tryRelease_keeps.after <| .foldl (fun _ _ => State.enterBuffer_keeps) <|
        State.sentenceSamples_keeps.after <| .set <| .set .refl

theorem State.serTx_keeps {s : State} {n v} : DoneKeeps s (s.serTx n v) := by
  unfold State.serTx
  exact .checkValue (.ite (.refuse .refl) <| .ite (.refuse .refl) <| .done <| .set <| .set .refl) .refl

theorem State.serConfig_keeps {s : State} {c n v} : DoneKeeps s (s.serConfig c n v) := by
  unfold State.serConfig
  exact .notPositioning (.checkValue (.done (.set .refl)) .refl) .refl

theorem State.portConfig_keeps {s : State} {c n v} : DoneKeeps s (s.portConfig c n v) := by
  unfold State.portConfig
  exact .notPositioning (.checkValue (.done (.set .refl)) .refl) .refl

theorem State.netWrite_keeps {s : State} {c inst num v} : DoneKeeps s (s.netWrite c inst num v) := by
  unfold State.netWrite
  refine .ite ?_ <| .ite ?_ <| .ite ?_ <| .ite ?_ (.refuse .refl)
  · split
    any_goals exact .notPositioning (.checkValue (.done (.set .refl)) .refl) .refl
    · exact .refuse .refl
    · exact .refuse .refl
  · split
    any_goals exact .refuse .refl
    · exact .ite (.refuse .refl) State.portConfig_keeps
  · dsimp only
    split
    any_goals exact .refuse .refl
    · exact State.canControl_keeps
    · exact State.canTiming_keeps
    · exact State.canTiming_keeps
    · exact State.canTx_keeps
  · dsimp only
    split
    · exact State.serConfig_keeps
    · exact .refuse .refl
    · exact State.serTx_keeps
    · exact .refuse .refl

theorem State.netRead_keeps {s : State} {inst num} : ReadKeeps s (s.netRead inst num) := by
  unfold State.netRead
  refine .ite ?_ <| .ite ?_ <| .ite ?_ <| .ite ?_ (.noRead .refl)
  · split
    any_goals exact .readAs .refl
    · exact .readAs <| .set <| .set .refl
    · exact .noRead .refl
  · dsimp only
    split
    · exact .ite (.noRead .refl) (.readAs .refl)
    · exact .readAs .refl
    · exact .readAs (.set State.egressAll_keeps)
    · exact .noRead .refl
  · dsimp only
    split
    any_goals exact .readAs .refl
    · exact .readAs (.set .refl)
    · exact .noRead .refl
    · exact .noRead .refl
  · dsimp only
    split
    · exact .readAs (.set .refl)
    · exact .readAs <| .set <| .set .refl
    · exact .noRead (.set .refl)
    · exact .noRead (.set .refl)

theorem execCanRecover_completes {s : State} {t req ctl} : Completes s (execCanRecover t req ctl s) :=
  runHost_completes fun _ => State.hostWrite_keeps fun _ _ => State.canControl_keeps

theorem execCanTx_completes {s : State} {t req ctl value} : Completes s (execCanTx t req ctl value s) :=
  runHost_completes fun _ => State.hostWrite_keeps fun _ _ => State.canTx_keeps

theorem execCanTimingWrite_completes {s : State} {t req ctl data value} : Completes s (execCanTimingWrite t req ctl data value s) :=
  runHost_completes fun _ => State.hostWrite_keeps fun _ _ => State.canTiming_keeps

theorem execSerTx_completes {s : State} {t req port value} : Completes s (execSerTx t req port value s) :=
  runHost_completes fun _ => State.hostWrite_keeps fun _ _ => State.serTx_keeps

theorem State.netLoaded_keeps {s : State} : Keeps s s.netLoaded :=
  .foldl (fun _ _ => .set .refl) .refl

/-! ## Functions of Sys2Proof/Machine/Panel.lean -/

theorem runPanel_completes {s : State} {t f} (h : ∀ u, Keeps u (f u)) : Completes s (runPanel t s f) :=
  runPowered_completes fun _ => .ite (h _) .refl

theorem execWaveformStart_completes {s : State} {t index} : Completes s (execWaveformStart t index s) := by
  unfold execWaveformStart
  refine runPanel_completes fun _ => .ite .refl ?_
  split
  all_goals
    split
    · exact .ite (.set .refl) .refl
    · exact .refl

theorem State.panelCheck_keeps {s : State} {against} : Keeps s (s.panelCheck against) :=
  .ite (.set <| .set .refl) <| State.raise_keeps.after <| .set <| .set .refl

theorem State.panelChecks_keeps {s : State} : Keeps s s.panelChecks :=
  .ite (.foldl (fun _ _ => State.panelCheck_keeps) (.set .refl)) .refl

theorem State.askCheck_keeps {s : State} {against} : Keeps s (s.askCheck against) :=
  State.panelChecks_keeps.after <| .set .refl

theorem execWaveformEnd_completes {s : State} {t index} : Completes s (execWaveformEnd t index s) := by
  unfold execWaveformEnd
  refine runPanel_completes fun _ => ?_
  split
  · exact .refl
  · exact .ite .refl <| State.panelChecks_keeps.after <| .set .refl

theorem execRailsOn_completes {s : State} {t} : Completes s (execRailsOn t s) :=
  runPanel_completes fun _ => .ite (.set .refl) .refl

theorem execRailsOff_completes {s : State} {t} : Completes s (execRailsOff t s) :=
  runPanel_completes fun _ => .ite (.set .refl) .refl

theorem State.panelDeferred_keeps {s : State} {entry cause} : Keeps s (s.panelDeferred entry cause) :=
  State.raise_keeps

theorem execRailFault_completes {s : State} {t} : Completes s (execRailFault t s) :=
  runPanel_completes fun _ => .ite .refl <| State.panelDeferred_keeps.after <| .set .refl

theorem execRailRetry_completes {s : State} {t} : Completes s (execRailRetry t s) :=
  runPanel_completes fun _ => .ite (State.panelDeferred_keeps.after <| .set .refl) .refl

theorem execPanelTemperature_completes {s : State} {t centi} : Completes s (execPanelTemperature t centi s) :=
  runPanel_completes fun _ => .ite .refl <| .after (.ite State.panelDeferred_keeps .refl) <|
    .after (.ite State.panelDeferred_keeps .refl) <| .ite (.set <| .set .refl) (.set .refl)

theorem execPanelCrcCheck_completes {s : State} {t} : Completes s (execPanelCrcCheck t s) :=
  runPanel_completes fun _ => .ite .refl <| State.askCheck_keeps.after <| .set .refl

theorem State.pnlDraw_keeps {s : State} {v} : DoneKeeps s (s.pnlDraw v) := by
  unfold State.pnlDraw
  split
  · exact .refuse .refl
  · refine .ite (.refuse .refl) ?_
    split
    · exact .done (.set .refl)
    · exact DoneKeeps.mk .refl fun _ => .set .refl

theorem State.pnlRefresh_keeps {s : State} {v} : DoneKeeps s (s.pnlRefresh v) :=
  .checkValue (.done (.set .refl)) .refl

theorem State.pnlCheck_keeps {s : State} {v} : DoneKeeps s (s.pnlCheck v) :=
  .checkValue (.done State.askCheck_keeps) .refl

theorem State.pnlVcom_keeps {s : State} {c v} : DoneKeeps s (s.pnlVcom c v) := by
  unfold State.pnlVcom
  exact .checkValue (.onlyIn (.done (.set .refl)) .refl) .refl

theorem State.pnlWrite_keeps {s : State} {c inst num v} : DoneKeeps s (s.pnlWrite c inst num v) := by
  unfold State.pnlWrite
  refine .ite (.refuse .refl) ?_
  split
  any_goals exact .refuse .refl
  · exact State.pnlDraw_keeps
  · exact State.pnlVcom_keeps
  · exact State.pnlCheck_keeps
  · exact State.pnlRefresh_keeps

theorem State.pnlRead_keeps {s : State} {inst num} : ReadKeeps s (s.pnlRead inst num) := by
  unfold State.pnlRead
  refine .ite (.noRead .refl) ?_
  split
  any_goals exact .readAs .refl
  any_goals exact .noRead .refl
  · exact .readAs (.set .refl)

theorem State.pnlHostWrite_keeps {s : State} {req num v} : Keeps s (s.pnlHostWrite req num v) :=
  State.hostWrite_keeps fun _ _ => State.pnlWrite_keeps

theorem execPnlDraw_completes {s : State} {t req value} : Completes s (execPnlDraw t req value s) :=
  runHost_completes fun _ => State.pnlHostWrite_keeps

theorem execPnlVcom_completes {s : State} {t req value} : Completes s (execPnlVcom t req value s) :=
  runHost_completes fun _ => State.pnlHostWrite_keeps

theorem execPnlCheck_completes {s : State} {t req value} : Completes s (execPnlCheck t req value s) :=
  runHost_completes fun _ => State.pnlHostWrite_keeps

theorem execPnlRefresh_completes {s : State} {t req} : Completes s (execPnlRefresh t req s) :=
  runHost_completes fun _ => State.pnlHostWrite_keeps

/-! ## Functions of Sys2Proof/Machine/Recorder.lean -/

theorem execFlushDone_completes {s : State} {t} : Completes s (execFlushDone t s) := by
  unfold execFlushDone
  refine runPowered_completes fun _ => ?_
  split
  · exact .refl
  · exact .ite .refl <| State.raiseN_keeps.after <| .set <| .set <| .set .refl

theorem execFlushWindowEnd_completes {s : State} {t} : Completes s (execFlushWindowEnd t s) := by
  unfold execFlushWindowEnd
  refine runPowered_completes fun _ => ?_
  split
  · exact .ite (.set <| .set <| .set .refl) .refl
  · exact .refl

theorem State.recControl_keeps {s : State} {v} : DoneKeeps s (s.recControl v) :=
  .checkValue (.ite (.done .refl) <| .ite (.refuse .refl) <| .ite (.done .refl) <| .done <| State.startFlush_keeps.after <|
    .set .refl) .refl

theorem execRecControlFlush_completes {s : State} {t req} : Completes s (execRecControlFlush t req s) :=
  runHost_completes fun _ => State.hostWrite_keeps fun _ _ => State.recControl_keeps

theorem State.signSeal_keeps {s : State} {i} : Keeps s (s.signSeal i) := by
  unfold State.signSeal
  split
  · exact .refl
  · exact State.raiseN_keeps.after <| .set <| .set .refl

theorem execSealSigned_completes {s : State} {t} : Completes s (execSealSigned t s) := by
  unfold execSealSigned
  refine runPowered_completes fun _ => .ite .refl ?_
  split
  · exact State.signSeal_keeps
  · exact .refl

theorem execEntropyFail_completes {s : State} {t} : Completes s (execEntropyFail t s) :=
  runPowered_completes fun _ => .set .refl

theorem execEntropyPass_completes {s : State} {t} : Completes s (execEntropyPass t s) :=
  runPowered_completes fun _ => .set .refl

theorem execRecFull_completes {s : State} {t} : Completes s (execRecFull t s) :=
  runPowered_completes fun _ => .ite (State.raise_keeps.after <| .set .refl) .refl

theorem State.recRearm_keeps {s : State} {v} : DoneKeeps s (s.recRearm v) := by
  unfold State.recRearm
  dsimp only
  split
  · exact .refuse .refl
  · exact .checkValue (.ite (.refuse .refl) <| .done <| State.startFlush_keeps.after <| State.raise_keeps.after <|
      State.record_keeps.after <| .set .refl) .refl

theorem execRecRearm_completes {s : State} {t req hash} : Completes s (execRecRearm t req hash s) :=
  runHost_completes fun _ => State.hostWrite_keeps fun _ _ => State.recRearm_keeps

theorem execPowerFail_completes {s : State} {t} : Completes s (execPowerFail t s) :=
  runPowered_completes fun _ => .ite .refl <| .set <| .set <| State.raise_keeps.after <| .set <| .set .refl

theorem execGeyserDone_completes {s : State} {t} : Completes s (execGeyserDone t s) :=
  runPowered_completes fun _ => .ite .refl <| State.raiseN_keeps.after <| .set <| .ite (State.signSeal_keeps.after <| .set <|
    .set .refl) <| .set <| .set .refl

theorem State.recResume_keeps {s : State} : Keeps s s.recResume :=
  .ite .refl (.set .refl)

theorem execRecRead_completes {s : State} {t req first count} : Completes s (execRecRead t req first count s) :=
  runHost_completes fun _ => State.serve_keeps fun _ => .checkValue (.answer .refl) .refl

theorem State.enrol_keeps {s : State} {body} : DoneKeeps s (s.enrol body) :=
  .ite (.refuse .refl) <| .ite (.refuse .refl) <| .ite (.refuse .refl) <| .ite (.refuse .refl) <| .ite (.refuse .refl) <|
    .ite (.refuse .refl) <| .ite (.refuse .refl) <| .answer <| State.raise_keeps.after <| State.record_keeps.after <| .set <|
    .ite (.set .refl) (.set .refl)

theorem execEnrol_completes {s : State} {t req body} : Completes s (execEnrol t req body s) :=
  runHost_completes fun _ => State.serve_keeps fun _ => State.enrol_keeps

theorem execAttest_completes {s : State} {t req nonce} : Completes s (execAttest t req nonce s) :=
  runHost_completes fun _ => State.serve_keeps fun _ => .checkValue (.ite (.refuse .refl) <| .answer (.set .refl)) .refl

theorem execAttestDone_completes {s : State} {t} : Completes s (execAttestDone t s) := by
  unfold execAttestDone
  refine runRunning_completes fun _ => ?_
  split
  · exact .refl
  · exact .ite .refl <| State.complete_keeps.after <| State.raise_keeps.after <| State.record_keeps.after <| .set <| .set .refl

theorem execDeferredTimeout_completes {s : State} {t attest} : Completes s (execDeferredTimeout t attest s) := by
  unfold execDeferredTimeout
  refine runRunning_completes fun _ => ?_
  refine .ite ?_ ?_
  · split
    · exact .ite (State.complete_keeps.after <| .set .refl) .refl
    · exact .refl
  · split
    · exact .ite (State.complete_keeps.after <| .set .refl) .refl
    · exact .refl

theorem State.recWrite_keeps {s : State} {inst num v} : DoneKeeps s (s.recWrite inst num v) := by
  unfold State.recWrite
  refine .ite ?_ <| .ite (.refuse .refl) (.refuse .refl)
  split
  any_goals exact .refuse .refl
  · exact State.recControl_keeps
  · exact .checkValue State.recRearm_keeps .refl
  · exact .checkValue (.done (.set .refl)) .refl

theorem State.recReadObject_keeps {s : State} {inst num} : ReadKeeps s (s.recReadObject inst num) := by
  unfold State.recReadObject
  refine .ite ?_ ?_
  · split
    any_goals exact .readAs .refl
    any_goals exact .noRead .refl
    · exact .readAs (.set .refl)
  · split
    · exact .readAs .refl
    · exact .noRead .refl

theorem State.cldWrite_keeps {s : State} {inst num} : DoneKeeps s (s.cldWrite inst num) :=
  .ite (.refuse .refl) (.refuse .refl)

theorem State.cldRead_keeps {s : State} {inst num} : ReadKeeps s (s.cldRead inst num) := by
  unfold State.cldRead
  split
  any_goals exact .readAs .refl
  · exact .noRead .refl

/-! ## Functions of Sys2Proof/Machine/Ageing.lean -/

theorem State.ageingMargin_keeps {s : State} {n old} : Keeps s (s.ageingMargin n old) :=
  .ite .refl State.raise_keeps

theorem State.binLimit_keeps {s : State} {i crossed upper} : Keeps s (s.binLimit i crossed upper) := by
  unfold State.binLimit
  exact State.raise_keeps

theorem State.raiseBin_keeps {s : State} {i} : Keeps s (s.raiseBin i) :=
  .ite .refl <| .ite (.set .refl) <| .ite (.ite (State.binLimit_keeps.after <| .set .refl) <| State.ageingMargin_keeps.after <|
    .set .refl) <| .ite .refl <| State.binLimit_keeps.after <| .set .refl

theorem State.lowerBin_keeps {s : State} {i} : Keeps s (s.lowerBin i) :=
  .ite .refl <| .ite (.set .refl) <| .ite .refl <| State.binLimit_keeps.after <| .set .refl

theorem State.settleBin_keeps {s : State} {i} : Keeps s (s.settleBin i) :=
  .ite (.set .refl) <| .ite .refl <| .ite (.set .refl) <| .ite .refl <| State.binLimit_keeps.after <| .set .refl

theorem execBinRaise_completes {s : State} {t island slack} : Completes s (execBinRaise t island slack s) :=
  runPowered_completes fun _ => State.raiseBin_keeps.after <| .set .refl

theorem execBinLower_completes {s : State} {t island slack} : Completes s (execBinLower t island slack s) :=
  runPowered_completes fun _ => State.lowerBin_keeps.after <| .set .refl

theorem State.binEnvelope_keeps {s : State} {i v} : DoneKeeps s (s.binEnvelope i v) := by
  unfold State.binEnvelope
  exact .checkValue (.done (.set .refl)) .refl

theorem execBinEnvelope_completes {s : State} {t req island value} : Completes s (execBinEnvelope t req island value s) :=
  runHost_completes fun _ => State.hostWrite_keeps fun _ _ => State.binEnvelope_keeps

theorem State.planHoldup_keeps {s : State} : Keeps s s.planHoldup :=
  .after (.ite State.raiseN_keeps .refl) <| .after (.ite State.raiseN_keeps .refl) <| .ite (State.raiseN_keeps.after <|
    .set .refl) (.set .refl)

theorem execFumaroleSample_completes {s : State} {t slacks others} : Completes s (execFumaroleSample t slacks others s) := by
  unfold execFumaroleSample
  refine runPowered_completes fun _ => .ite .refl <| .foldl (fun _ _ => State.settleBin_keeps.after ?_) ?_
  · split
    · exact .set .refl
    · exact .refl
  · split
    · exact .ite (.set <| .set <| .set .refl) <| .set <| .set .refl
    · exact .set <| .set .refl

theorem State.planRefresh_keeps {s : State} : Keeps s s.planRefresh :=
  .ite .refl (.set .refl)

theorem execLedgerDaily_completes {s : State} {t} : Completes s (execLedgerDaily t s) :=
  runPowered_completes fun _ => .ite .refl <| State.planHoldup_keeps.after <| State.planRefresh_keeps.after <| .foldl (fun _ _ =>
    State.ageingMargin_keeps) <| .set <| .set .refl

theorem execMramRefresh_completes {s : State} {t} : Completes s (execMramRefresh t s) := by
  unfold execMramRefresh
  refine runPowered_completes fun _ => .ite .refl ?_
  split
  · exact .ite (.set .refl) .refl
  · exact .ite .refl <| .ite (.set .refl) (.set .refl)

/-! ## Functions of Sys2Proof/Machine/Analog.lean -/

theorem State.sendAi_keeps {s : State} {handle} : Keeps s (s.sendAi handle) := by
  unfold State.sendAi
  split
  · exact .refl
  · exact State.pushTele_keeps.after <| .set .refl

theorem State.flushAi_keeps {s : State} : Keeps s s.flushAi :=
  .foldl (fun _ _ => State.sendAi_keeps) .refl

theorem State.streamAi_keeps {s : State} {ch r} : Keeps s (s.streamAi ch r) :=
  .foldl (fun _ _ => .ite .refl <| .ite (.set .refl) <| .ite (State.sendAi_keeps.after <| .set <| .set .refl) <| .set <| .set .refl) .refl

theorem State.aiOutput_keeps {s : State} {ch stream} : Keeps s (s.aiOutput ch stream) := by
  unfold State.aiOutput
  refine .ite .refl ?_
  dsimp only
  split
  · exact State.flushAi_keeps.after <| .after (.ite (.set .refl) State.streamAi_keeps) <| .ite (.set <| .set .refl) (.set .refl)
  · exact State.arriveSlotted_keeps.after <| State.flushAi_keeps.after <| .after (.ite (.set .refl) State.streamAi_keeps) <| .ite (.set <|
      .set .refl) (.set .refl)

theorem execAiOutput_completes {s : State} {t channel stream} : Completes s (execAiOutput t channel stream s) :=
  runPowered_completes fun _ => State.aiOutput_keeps

/-! ## Functions of Sys2Proof/Machine/Gnss.lean -/

theorem State.feedEngine_keeps {s : State} {e} : Keeps s (s.feedEngine e) := by
  unfold State.feedEngine
  dsimp only
  split <;> exact .set <| .ite (.set .refl) .refl

theorem State.assignChannel_keeps {s : State} {j} : Keeps s (s.assignChannel j) := by
  unfold State.assignChannel
  refine .ite .refl ?_
  split
  · exact .set .refl
  · exact .ite (.set .refl) <| .set <| .set .refl

theorem State.serveWanting_keeps {s : State} {n} : Keeps s (State.serveWanting n s) := by
  induction n generalizing s with
  | zero => exact .refl
  | succ n ih =>
    unfold State.serveWanting
    split
    · exact .refl
    · exact .ite (ih.after <| State.assignChannel_keeps.after ⟨rfl, rfl⟩) .refl

theorem State.freeChannel_keeps {s : State} {i} : Keeps s (s.freeChannel i) :=
  State.serveWanting_keeps.after <| .set .refl

theorem execSearchPassDone_completes {s : State} {t engine detected} : Completes s (execSearchPassDone t engine detected s) := by
  unfold execSearchPassDone
  refine runRunning_completes fun _ => .ite .refl ?_
  split
  · exact State.feedEngine_keeps
  · refine .ite (State.feedEngine_keeps.after ?_) <| .ite (.set .refl) <| .ite State.feedEngine_keeps (.set .refl)
    split
    · exact .refl
    · exact State.assignChannel_keeps

theorem execHandoverDone_completes {s : State} {t started} : Completes s (execHandoverDone t started s) := by
  unfold execHandoverDone
  refine runRunning_completes fun _ => ?_
  split
  · exact .refl
  · exact .ite (State.assignChannel_keeps.after <| .set .refl) <| .ite (.set .refl) (.set .refl)

theorem State.startHandovers_keeps {s : State} : Keeps s s.startHandovers :=
  .foldl (fun _ _ => .ite (.set .refl) .refl) .refl

theorem execChannelLock_completes {s : State} {t channel locked} : Completes s (execChannelLock t channel locked s) :=
  runRunning_completes fun _ => .ite .refl <| .ite (.ite (.set .refl) <| .set <| .set .refl) <| .ite State.freeChannel_keeps .refl

theorem execLossOfLock_completes {s : State} {t channel} : Completes s (execLossOfLock t channel s) :=
  runRunning_completes fun _ => .ite .refl (.set .refl)

theorem execReacqWindowExpiry_completes {s : State} {t channel} : Completes s (execReacqWindowExpiry t channel s) :=
  runRunning_completes fun _ => .ite State.freeChannel_keeps .refl

theorem State.freeChannels_keeps {s : State} : Keeps s s.freeChannels :=
  State.startHandovers_keeps.after <| State.serveWanting_keeps.after <| .set .refl

theorem State.setFix_keeps {s : State} {f} : Keeps s (s.setFix f) :=
  .ite (State.raiseN_keeps.after <| .set .refl) <| .ite (State.raiseN_keeps.after <| .set .refl) (.set .refl)

theorem State.moveRxt_keeps {s : State} {bias} : Keeps s (s.moveRxt bias) :=
  .ite (.set .refl) <| .ite (.set .refl) .refl

theorem State.takeUtc_keeps {s : State} {u} : Keeps s (s.takeUtc u) := by
  unfold State.takeUtc
  dsimp only
  split
  · exact .set <| .set .refl
  · exact .ite (.set <| .set <| .set .refl) <| .set <| .set .refl

theorem State.sendRaw_keeps {s : State} {e} : Keeps s (s.sendRaw e) :=
  .set <| .foldl (fun _ _ => .ite .refl <| .foldl (fun _ _ => State.pushTele_keeps) .refl) .refl

theorem State.solve_keeps {s : State} {x meas} : Keeps s (s.solve x meas) :=
  .set State.setFix_keeps

theorem State.takeEpoch_keeps {s : State} {x} : Keeps s (s.takeEpoch x).1 :=
  State.takeUtc_keeps.after <| .after (.ite (.set .refl) <| State.moveRxt_keeps.after <| .set .refl) <| State.solve_keeps.after <| .set <|
    State.freeChannels_keeps.after <| .set .refl

theorem State.disciplineTb2_keeps {s : State} {rxtAt bias} : Keeps s (s.disciplineTb2 rxtAt bias) :=
  .ite State.measure_keeps .refl

theorem execGnssEpoch_completes {s : State} {t input} : Completes s (execGnssEpoch t input s) :=
  runRunning_completes fun _ => .ite .refl <| .after (.ite State.raise_keeps State.arriveEpoch_keeps) <| State.sendRaw_keeps.after <|
    State.disciplineTb2_keeps.after State.takeEpoch_keeps

theorem State.notchLimit_keeps {s : State} {fe notch upper bound held} : Keeps s (s.notchLimit fe notch upper bound held) :=
  State.raise_keeps

theorem State.refusePeak_keeps {s : State} {fe p inside} : Keeps s (s.refusePeak fe p inside) := by
  unfold State.refusePeak
  exact State.raise_keeps

theorem State.newPeak_keeps {s : State} {fe known p} : Keeps s (s.newPeak fe known p) := by
  unfold State.newPeak
  dsimp only
  split
  · exact .set .refl
  · exact .ite (.set .refl) <| State.refusePeak_keeps.after <| .set .refl

theorem execNotchSpectrum_completes {s : State} {t frontEnd peaks} : Completes s (execNotchSpectrum t frontEnd peaks s) :=
  runRunning_completes fun _ => .ite .refl <| .foldl (fun _ _ => State.newPeak_keeps) <| .foldl (fun _ _ =>
    .ite State.notchLimit_keeps .refl) (.set .refl)

theorem execJamUpdate_completes {s : State} {t frontEnd power} : Completes s (execJamUpdate t frontEnd power s) :=
  runRunning_completes fun _ => .ite .refl <| .ite (State.raiseN_keeps.after <| .set .refl) <| .ite (State.raiseN_keeps.after <|
    .set .refl) (.set .refl)

theorem State.setSupply_keeps {s : State} {a status current} : Keeps s (s.setSupply a status current) :=
  .ite (.set .refl) <| State.raise_keeps.after <| .set .refl

theorem execAntSupplyShort_completes {s : State} {t antenna current} : Completes s (execAntSupplyShort t antenna current s) :=
  runPowered_completes fun _ => .ite (.set State.setSupply_keeps) .refl

theorem execAntSupplyRetry_completes {s : State} {t antenna current} : Completes s (execAntSupplyRetry t antenna current s) :=
  runPowered_completes fun _ => .ite (.set State.setSupply_keeps) .refl

theorem execAntSupplyOpen_completes {s : State} {t antenna current} : Completes s (execAntSupplyOpen t antenna current s) :=
  runPowered_completes fun _ => .ite State.setSupply_keeps .refl

theorem State.gnbRestart_keeps {s : State} {kind} : Keeps s (s.gnbRestart kind) :=
  .ite (.set <| .set .refl) <| .set <| .set .refl

/-! ## Functions of Sys2Proof/Machine/Update.lean -/

theorem State.setTransfer_keeps {s : State} {target x} : Keeps s (s.setTransfer target x) :=
  .ite (.set .refl) (.set .refl)

theorem State.updateOpen_keeps {s : State} {target id length crc} : DoneKeeps s (s.updateOpen target id length crc) :=
  .ite (.refuse .refl) <| .ite (.refuse .refl) <| .ite (.refuse .refl) <| .ite (.refuse .refl) <| .ite (.answer State.setTransfer_keeps) <|
    .answer <| State.setTransfer_keeps.after <| .ite (.set <| .set .refl) <| .set <| .set .refl

theorem execUpdateOpen_completes {s : State} {t req target id length crc} : Completes s (execUpdateOpen t req target id length crc s) :=
  runHost_completes fun _ => State.serve_keeps fun _ => State.updateOpen_keeps

theorem State.updateChunk_keeps {s : State} {id chunk part parts crc data} : DoneKeeps s (s.updateChunk id chunk part parts crc data) := by
  unfold State.updateChunk
  dsimp only
  split
  · exact .refuse .refl
  · exact .ite (.refuse .refl) <| .ite (.refuse .refl) <| .ite (.refuse .refl) <| .ite (.answer .refl) <| .ite (.answer (.set .refl)) <|
      .ite (.answer (.set .refl)) <| .answer (.set .refl)

theorem execUpdateChunk_completes {s : State} {t req id chunk part parts crc data} :
    Completes s (execUpdateChunk t req id chunk part parts crc data s) :=
  runHost_completes fun _ => State.serve_keeps fun _ => State.updateChunk_keeps

theorem execChunkWritten_completes {s : State} {t target chunk} : Completes s (execChunkWritten t target chunk s) := by
  unfold execChunkWritten
  refine runRunning_completes fun _ => ?_
  dsimp only
  split
  · exact .refl
  · exact .ite .refl <| .after (.ite .refl <| .after (.ite State.raise_keeps .refl) <|
      .after (.ite (.set .refl) .refl) State.setTransfer_keeps) <| State.raiseN_keeps.after <| State.setTransfer_keeps.after <| .set .refl

theorem execChunkPartsExpiry_completes {s : State} {t} : Completes s (execChunkPartsExpiry t s) :=
  runRunning_completes fun _ => .set .refl

theorem State.updateQuery_keeps {s : State} {target first} : DoneKeeps s (s.updateQuery target first) :=
  .ite (.refuse .refl) (.answer .refl)

theorem execUpdateQuery_completes {s : State} {t req target first} : Completes s (execUpdateQuery t req target first s) :=
  runHost_completes fun _ => State.serve_keeps fun _ => State.updateQuery_keeps

theorem State.activatePending_keeps {s : State} {handover} : Keeps s (s.activatePending handover) := by
  unfold State.activatePending
  split
  · exact .refl
  · split
    · exact .set .refl
    · split
      · exact .set .refl
      · exact State.raiseN_keeps.after <| .set .refl

theorem State.verifyActive_keeps {s : State} {handover} : Keeps s (State.verifyActive handover s).2 := by
  unfold State.verifyActive
  split
  · exact ⟨rfl, rfl⟩
  · dsimp only
    split
    · split
      · exact .set State.raiseN_keeps
      · dsimp only
        exact State.raiseN_keeps
    · dsimp only
      exact State.raiseN_keeps

theorem State.planRestart_keeps {s : State} {kind} : Keeps s (s.planRestart kind) := by
  unfold State.planRestart
  dsimp only
  split
  · exact State.setRole_keeps.after <| State.yieldTo_keeps.after <| .set .refl
  · exact .set .refl

theorem State.updateActivate_keeps {s : State} {target source when_ id crc} :
    DoneKeeps s (s.updateActivate target source when_ id crc) := by
  unfold State.updateActivate
  refine .ite (.refuse .refl) ?_
  split
  · exact .done (.set .refl)
  · exact .done (.set .refl)
  · exact .ite (.refuse .refl) <| .ite (.refuse .refl) <| .ite (.refuse .refl) <| .done <| State.planRestart_keeps.after <| .set .refl

theorem execUpdateActivate_completes {s : State} {t req target source when_ id crc} :
    Completes s (execUpdateActivate t req target source when_ id crc s) :=
  runHost_completes fun _ => State.serve_keeps fun _ => State.updateActivate_keeps

/-! ## Functions of Sys2Proof/Machine/Registers.lean -/

theorem State.captureConfig_keeps {s : State} {m n} : DoneKeeps s (s.captureConfig m n) := by
  unfold State.captureConfig
  exact .checkValue (.done (.set .refl)) .refl

theorem State.readCapture_keeps {s : State} {m} : ReadKeeps s (s.readCapture m) :=
  .readAs (.set .refl)

theorem State.compareConfig_keeps {s : State} {m n} : DoneKeeps s (s.compareConfig m n) :=
  .checkValue (.done <| .ite (State.raise_keeps.after <| State.reportOverruns_keeps.after <| State.compareAct_keeps.after <|
    .set .refl) (.set .refl)) .refl

theorem State.timWrite_keeps {s : State} {c inst num v} : DoneKeeps s (s.timWrite c inst num v) := by
  unfold State.timWrite
  dsimp only
  split
  any_goals exact .notPositioning (.checkValue (.done (.set .refl)) .refl) .refl
  any_goals exact .ite (.refuse .refl) <| .checkValue (.done (.set .refl)) .refl
  · exact .checkValue (.done (.set .refl)) .refl
  · exact .refuse .refl
  · exact .refuse .refl
  · exact .notPositioning (.checkValue (.done <| State.ptpRetune_keeps.after <| .set .refl) .refl) .refl
  · exact .notPositioning (.checkValue (.done <| State.ptpRetune_keeps.after <| .set .refl) .refl) .refl
  · exact .notPositioning (.checkValue (.ite (.refuse .refl) <| .done <| .set <| .set .refl) .refl) .refl
  · refine .ite (.ite (.refuse .refl) <| .ite (.checkValue (.done (.set .refl)) .refl) (.refuse .refl)) <| .ite ?_ <|
      .ite (.ite (.refuse .refl) <| .ite (.refuse .refl) <| .ite (.checkValue State.compareConfig_keeps .refl) <|
      .checkValue (.done (.set .refl)) .refl) (.refuse .refl)
    split
    · exact .checkValue State.captureConfig_keeps .refl
    · exact .refuse .refl
    · exact .refuse .refl

theorem State.timRead_keeps {s : State} {inst num} : ReadKeeps s (s.timRead inst num) := by
  unfold State.timRead
  dsimp only
  split
  any_goals exact .readAs .refl
  · exact .ite (.readAs .refl) (.noRead .refl)
  · refine .ite ?_ <| .ite ?_ <| .ite ?_ (.noRead .refl)
    · split
      any_goals exact .readAs .refl
      · exact .ite (.noRead .refl) (.readAs .refl)
      · exact .noRead .refl
    · split
      · exact .readAs .refl
      · exact State.readCapture_keeps
      · exact .noRead .refl
    · split
      · exact .readAs .refl
      · exact .readAs .refl
      · exact .noRead .refl

theorem execCaptureDataRead_completes {s : State} {t req unit} : Completes s (execCaptureDataRead t req unit s) :=
  runHost_completes fun _ => State.hostRead_keeps fun _ => State.readCapture_keeps

theorem State.switchSupply_keeps {s : State} {a on_} : Keeps s (s.switchSupply a on_) :=
  .ite (.set <| State.setSupply_keeps.after <| .set .refl) <| .ite (.set .refl) <| .set <| State.setSupply_keeps.after <| .set .refl

theorem State.feWrite_keeps {s : State} {f num v} : DoneKeeps s (s.feWrite f num v) := by
  unfold State.feWrite
  dsimp only
  split
  any_goals exact .refuse .refl
  · exact .checkValue (.done (.set .refl)) .refl
  · exact .checkValue (.done (.set .refl)) .refl

theorem State.gnbWrite_keeps {s : State} {c inst num v} : DoneKeeps s (s.gnbWrite c inst num v) := by
  unfold State.gnbWrite
  refine .ite (.refuse .refl) ?_
  split
  any_goals exact .refuse .refl
  any_goals exact .checkValue (.done (.set .refl)) .refl
  any_goals exact .notPositioning (.checkValue (.done (.set .refl)) .refl) .refl
  · exact .notPositioning (.checkValue (.done State.gnbRestart_keeps) .refl) .refl
  · exact .checkValue (.done State.switchSupply_keeps) .refl
  · exact .checkValue (.done State.switchSupply_keeps) .refl
  · exact .ite State.feWrite_keeps (.refuse .refl)

theorem State.gnbRead_keeps {s : State} {inst num} : ReadKeeps s (s.gnbRead inst num) := by
  unfold State.gnbRead
  refine .ite (.noRead .refl) ?_
  split
  any_goals exact .readAs .refl
  · exact .noRead .refl
  · refine .ite ?_ (.noRead .refl)
    dsimp only
    split
    any_goals exact .readAs .refl
    · exact .noRead .refl

theorem execGnbRestart_completes {s : State} {t req kind} : Completes s (execGnbRestart t req kind s) :=
  runHost_completes fun _ => State.hostWrite_keeps fun _ _ => State.gnbWrite_keeps

theorem State.userCommit_keeps {s : State} {c ch n} : DoneKeeps s (s.userCommit c ch n) :=
  .ite (.ite (.refuse .refl) <| .checkValue (.done (.set .refl)) .refl) <| .ite (.done (.set .refl)) (.refuse .refl)

theorem State.dcControl_keeps {s : State} {ch n} : DoneKeeps s (s.dcControl ch n) :=
  .checkValue (.done (.set .refl)) .refl

theorem State.ainWrite_keeps {s : State} {c inst num v} : DoneKeeps s (s.ainWrite c inst num v) := by
  unfold State.ainWrite
  refine .ite (.refuse .refl) <| .ite (.refuse .refl) ?_
  split
  any_goals exact .refuse .refl
  any_goals exact .checkValue (.done (.set .refl)) .refl
  · exact .checkValue State.dcControl_keeps .refl
  · exact .checkValue State.userCommit_keeps .refl

theorem State.ainRead_keeps {s : State} {inst num} : ReadKeeps s (s.ainRead inst num) := by
  unfold State.ainRead
  refine .ite (.noRead .refl) ?_
  dsimp only
  split
  any_goals exact .readAs .refl
  · refine .ite (.noRead .refl) ?_
    split
    any_goals exact .readAs .refl
    · exact .readAs (.set .refl)
    · exact .noRead .refl
    · exact .noRead .refl

theorem execUserCommit_completes {s : State} {t req channel} : Completes s (execUserCommit t req channel s) :=
  runHost_completes fun _ => State.hostWrite_keeps fun _ _ => State.ainWrite_keeps

theorem execUserDiscard_completes {s : State} {t req channel} : Completes s (execUserDiscard t req channel s) :=
  runHost_completes fun _ => State.hostWrite_keeps fun _ _ => State.ainWrite_keeps

theorem execDcPreset_completes {s : State} {t req channel freeze} : Completes s (execDcPreset t req channel freeze s) :=
  runHost_completes fun _ => State.hostWrite_keeps fun _ _ => State.ainWrite_keeps

theorem execDcFreeze_completes {s : State} {t req channel freeze} : Completes s (execDcFreeze t req channel freeze s) :=
  runHost_completes fun _ => State.hostWrite_keeps fun _ _ => State.ainWrite_keeps

/-! ## Functions of Sys2Proof/Machine/GroupObjects.lean -/

theorem State.groupWrite_keeps {s : State} {c obj v now queue apply judge} (hn : ∀ u, Keeps u (now u))
    (hq : ∀ u w, Keeps u (queue u w)) (ha : ∀ u, Keeps u (apply u)) : DoneKeeps s (s.groupWrite c obj v now queue apply judge) := by
  unfold State.groupWrite
  refine .ite (.refuse .refl) ?_
  split
  · exact .ite (.done <| (ha _).after (hn _)) (.ite (.answer <| (hq _ _).after (hn _)) (.answer ⟨rfl, rfl⟩))
  · exact .refuse .refl

theorem State.estWrite_keeps {s : State} {c inst num v} : DoneKeeps s (s.estWrite c inst num v) := by
  unfold State.estWrite
  split
  · exact State.groupWrite_keeps (fun _ => .refl) (fun _ _ => .set .refl) fun _ => State.fusionWrite_keeps
  · exact .refuse .refl

theorem State.fusionWideRead_keeps {s : State} {num} : ReadKeeps s (s.fusionWideRead num) := by
  unfold State.fusionWideRead
  dsimp only
  split
  any_goals exact .readAs .refl
  · exact .noRead .refl
  · exact .ite (.readAs .refl) (.noRead .refl)
  · exact .readAs (.set .refl)
  · split
    · exact .readAs .refl
    · exact .noRead .refl

theorem State.refRead_keeps {s : State} {r num} : ReadKeeps s (s.refRead r num) := by
  unfold State.refRead
  refine .ite (.noRead .refl) ?_
  split
  any_goals exact .readAs .refl
  · exact .readAs (.set .refl)

theorem State.estRead_keeps {s : State} {inst num} : ReadKeeps s (s.estRead inst num) := by
  unfold State.estRead
  refine .ite State.fusionWideRead_keeps ?_
  split
  · exact State.refRead_keeps
  · exact .noRead .refl

theorem State.lawNow_keeps {s : State} {num} : Keeps s (s.lawNow num) := by
  unfold State.lawNow
  split
  · exact .set .refl
  · exact .set .refl
  · exact .refl

theorem State.checkStart_keeps {s : State} {c v} : DoneKeeps s (s.checkStart c v) :=
  .checkValue (.onlyIn (.ite (.refuse .refl) <| .done (.set .refl)) .refl) .refl

theorem State.thrObjectWrite_keeps {s : State} {c n num v} : DoneKeeps s (s.thrObjectWrite c n num v) := by
  unfold State.thrObjectWrite
  refine .ite (.refuse .refl) ?_
  dsimp only
  split
  any_goals exact .refuse .refl
  · exact .checkValue (State.groupWrite_keeps (fun _ => .refl) (fun _ _ => .set .refl) fun _ => State.thrWrite_keeps) .refl
  · exact .checkValue (State.groupWrite_keeps (fun _ => .refl) (fun _ _ => .set .refl) fun _ => State.thrWrite_keeps) .refl

theorem State.lawLoad_keeps {s : State} {num v} : Keeps s (s.lawLoad num v) :=
  State.lawWrite_keeps.after <| .ite (.set .refl) .refl

theorem State.solWrite_keeps {s : State} {c inst num v} : DoneKeeps s (s.solWrite c inst num v) := by
  unfold State.solWrite
  refine .ite (.ite State.checkStart_keeps ?_) <| .ite State.thrObjectWrite_keeps (.refuse .refl)
  split
  · exact State.groupWrite_keeps (fun _ => State.lawNow_keeps) (fun _ _ => .set .refl) fun _ => State.lawLoad_keeps
  · exact .refuse .refl

theorem State.lawRead_keeps {s : State} {num} : ReadKeeps s (s.lawRead num) := by
  unfold State.lawRead
  dsimp only
  split
  any_goals exact .readAs .refl
  any_goals exact .noRead .refl
  · split
    · exact .readAs .refl
    · exact .noRead .refl

theorem State.solverRead_keeps {s : State} {num} : ReadKeeps s (s.solverRead num) := by
  unfold State.solverRead
  dsimp only
  split
  any_goals exact .readAs .refl
  · exact .readAs (.set .refl)
  · exact .noRead .refl
  · refine .ite ?_ (.noRead .refl)
    split
    · exact .readAs .refl
    · exact .noRead .refl

theorem State.solRead_keeps {s : State} {inst num} : ReadKeeps s (s.solRead inst num) := by
  unfold State.solRead
  refine .ite (.ite State.solverRead_keeps State.lawRead_keeps) <| .ite (.ite (.noRead .refl) ?_) (.noRead .refl)
  split
  any_goals exact .readAs .refl
  · exact .noRead .refl

theorem State.writeEst_keeps {s : State} {req inst num v} : Keeps s (s.writeEst req inst num v) :=
  State.hostWrite_keeps fun _ _ => State.estWrite_keeps

theorem State.writeSol_keeps {s : State} {req num v} : Keeps s (s.writeSol req num v) :=
  State.hostWrite_keeps fun _ _ => State.solWrite_keeps

theorem execRefReadmit_completes {s : State} {t req inst} : Completes s (execRefReadmit t req inst s) :=
  runHost_completes fun _ => State.writeEst_keeps

theorem execRefEnable_completes {s : State} {t req inst enable} : Completes s (execRefEnable t req inst enable s) :=
  runHost_completes fun _ => State.writeEst_keeps

theorem execTwDepth_completes {s : State} {t req inst depth} : Completes s (execTwDepth t req inst depth s) :=
  runHost_completes fun _ => State.writeEst_keeps

theorem execTargetPose_completes {s : State} {t req inst n e rot} : Completes s (execTargetPose t req inst n e rot s) :=
  runHost_completes fun _ => State.writeEst_keeps

theorem execRefineReset_completes {s : State} {t req inst freeze} : Completes s (execRefineReset t req inst freeze s) :=
  runHost_completes fun _ => State.writeEst_keeps

theorem execSetpointGeo_completes {s : State} {t req lat lon} : Completes s (execSetpointGeo t req lat lon s) :=
  runHost_completes fun _ => State.writeSol_keeps

theorem execSetpointMove_completes {s : State} {t req frame d1 d2} : Completes s (execSetpointMove t req frame d1 d2 s) :=
  runHost_completes fun _ => State.writeSol_keeps

theorem execSetpointHeading_completes {s : State} {t req psi} : Completes s (execSetpointHeading t req psi s) :=
  runHost_completes fun _ => State.writeSol_keeps

theorem execJoyDemand_completes {s : State} {t req x y mz} : Completes s (execJoyDemand t req x y mz s) :=
  runHost_completes fun _ => State.writeSol_keeps

theorem execTrackCommit_completes {s : State} {t req} : Completes s (execTrackCommit t req s) :=
  runHost_completes fun _ => State.writeSol_keeps

theorem execTrackDiscard_completes {s : State} {t req} : Completes s (execTrackDiscard t req s) :=
  runHost_completes fun _ => State.writeSol_keeps

theorem execTargetState_completes {s : State} {t req stamp n e vn ve psi yawRate} :
    Completes s (execTargetState t req stamp n e vn ve psi yawRate s) :=
  runHost_completes fun _ => State.writeSol_keeps

theorem execPowerAvailable_completes {s : State} {t req watts} : Completes s (execPowerAvailable t req watts s) :=
  runHost_completes fun _ => State.writeSol_keeps

theorem execCheckStart_completes {s : State} {t req} : Completes s (execCheckStart t req s) :=
  runHost_completes fun _ => State.writeSol_keeps

/-! ## Functions of Sys2Proof/Machine/Objects.lean -/

theorem State.safWrite_keeps {s : State} {c inst num v} : DoneKeeps s (s.safWrite c inst num v) := by
  unfold State.safWrite
  refine .ite ?_ <| .ite (.refuse .refl) (.refuse .refl)
  split
  any_goals exact .refuse .refl
  · exact .checkValue State.safReset_keeps .refl
  · exact .checkValue (.onlyIn (State.hostSelftest_keeps.after <| .set .refl) .refl) .refl

theorem State.safRead_keeps {s : State} {inst num} : ReadKeeps s (s.safRead inst num) := by
  unfold State.safRead
  refine .ite ?_ <| .ite (.readAs .refl) (.noRead .refl)
  split
  any_goals exact .readAs .refl
  any_goals exact .noRead .refl
  · exact .readAs (.set .refl)

theorem execSafSelftest_completes {s : State} {t req outcome} : Completes s (execSafSelftest t req outcome s) :=
  runHost_completes fun _ => State.hostWrite_keeps fun _ _ => State.hostSelftest_keeps

theorem execSafReset_completes {s : State} {t req} : Completes s (execSafReset t req s) :=
  runHost_completes fun _ => State.hostWrite_keeps fun _ _ => State.safWrite_keeps

theorem State.hskWrite_keeps {s : State} {inst num v} : DoneKeeps s (s.hskWrite inst num v) := by
  unfold State.hskWrite
  split
  · exact .ite State.binEnvelope_keeps (.refuse .refl)
  · exact .refuse .refl

theorem State.hskRead_keeps {s : State} {inst num} : ReadKeeps s (s.hskRead inst num) := by
  unfold State.hskRead
  split
  · exact .readAs .refl
  · exact .noRead .refl

theorem State.routeWrite_keeps {s : State} {n v} : DoneKeeps s (s.routeWrite n v) :=
  .ite (.refuse .refl) <| .checkValue (.done (.set .refl)) .refl

theorem State.routeRead_keeps {s : State} {n} : ReadKeeps s (s.routeRead n) :=
  .ite (.noRead .refl) <| .ite (.readAs .refl) <| .readAs (.set .refl)

theorem State.qcpWrite_keeps {s : State} {c num v} : DoneKeeps s (s.qcpWrite c num v) :=
  .ite (.checkValue (.onlyIn (.done (.set .refl)) .refl) .refl) <| .checkValue (.onlyIn (.done (.set .refl)) .refl) .refl

theorem State.restartWrite_keeps {s : State} {c v} : DoneKeeps s (s.restartWrite c v) := by
  unfold State.restartWrite
  split
  · exact .notPositioning (.done (.set .refl)) .refl
  · exact .ite (.done State.planRestart_keeps) (.refuse .refl)
  · exact .refuse .refl

theorem State.supWrite_keeps {s : State} {c inst num v} : DoneKeeps s (s.supWrite c inst num v) := by
  unfold State.supWrite
  refine .ite (.refuse .refl) <| .ite State.routeWrite_keeps ?_
  split
  any_goals exact .refuse .refl
  · exact State.requestMode_keeps
  · exact State.restartWrite_keeps
  · exact State.qcpWrite_keeps
  · exact State.qcpWrite_keeps

theorem State.supRead_keeps {s : State} {inst num} : ReadKeeps s (s.supRead inst num) := by
  unfold State.supRead
  refine .ite (.noRead .refl) <| .ite State.routeRead_keeps ?_
  split
  any_goals exact .readAs .refl
  any_goals exact .noRead .refl
  · exact .readAs (.set .refl)

theorem State.writeObject_keeps {s : State} {c obj v} : DoneKeeps s (s.writeObject c obj v) := by
  unfold State.writeObject
  dsimp only
  split
  · exact State.supWrite_keeps
  · exact State.timWrite_keeps
  · exact State.gnbWrite_keeps
  · exact State.ainWrite_keeps
  · exact State.estWrite_keeps
  · exact State.solWrite_keeps
  · exact State.srvWrite_keeps
  · exact State.fioWrite_keeps
  · exact State.safWrite_keeps
  · exact State.netWrite_keeps
  · exact State.lnkWrite_keeps
  · exact State.recWrite_keeps
  · exact State.cldWrite_keeps
  · exact State.hskWrite_keeps
  · exact State.pnlWrite_keeps
  · exact .refuse .refl

theorem State.readObject_keeps {s : State} {obj} : ReadKeeps s (s.readObject obj) := by
  unfold State.readObject
  dsimp only
  split
  · exact State.supRead_keeps
  · exact State.timRead_keeps
  · exact State.gnbRead_keeps
  · exact State.ainRead_keeps
  · exact State.estRead_keeps
  · exact State.solRead_keeps
  · exact State.srvRead_keeps
  · exact State.fioRead_keeps
  · exact State.safRead_keeps
  · exact State.netRead_keeps
  · exact State.lnkRead_keeps
  · exact State.recReadObject_keeps
  · exact State.cldRead_keeps
  · exact State.hskRead_keeps
  · exact State.pnlRead_keeps
  · exact .noRead .refl

/-! ## Functions of Sys2Proof/Machine/Load.lean -/

theorem State.timeSettings_keeps {s : State} : Keeps s s.timeSettings :=
  State.ptpRetune_keeps.after <| .set .refl

theorem State.gnssSettings_keeps {s : State} : Keeps s s.gnssSettings := by
  unfold State.gnssSettings
  exact State.switchSupply_keeps.after <| State.switchSupply_keeps.after <| .set .refl

theorem State.startingValues_keeps {s : State} : Keeps s s.startingValues :=
  .set <| State.safLoad_keeps.after <| .set <| .set <| .set <| .set <| .set <| .set <| .set <| .set <| .set <|
    State.gnssSettings_keeps.after <| State.timeSettings_keeps.after <| .set .refl

theorem State.loadEntry_keeps {s u : State} {long p} (h : s.loadEntry long p = .ok u) : Keeps s u := by
  unfold State.loadEntry at h
  split at h
  · cases h
  · dsimp only at h
    split at h
    · cases h
      exact State.writeObject_keeps.state
    · cases h

theorem State.loadRoutes_keeps {s : State} {i} : Keeps s (s.loadRoutes i) :=
  .foldl (fun _ _ => .ite .refl (.set .refl)) .refl

/-- The first part of a computation that ends well ended well. -/
theorem Except.ok_of_bind {ε α β : Type} {x : Except ε α} {f : α → Except ε β} {b : β} (h : (x >>= f) = .ok b) :
    ∃ a, x = .ok a ∧ f a = .ok b := by
  cases x with
  | error _ => cases h
  | ok a => exact ⟨a, rfl, h⟩

theorem Keeps.foldlM {α ε : Type} {f : State → α → Except ε State} {l : List α} {s a u : State}
    (h : ∀ {v x w}, f v x = .ok w → Keeps v w) (ha : Keeps s a) (hu : l.foldlM f a = .ok u) : Keeps s u := by
  induction l generalizing a with
  | nil => cases hu; exact ha
  | cons x l ih =>
    obtain ⟨b, hb, hu⟩ := Except.ok_of_bind hu
    exact ih ((h hb).after ha) hu

theorem State.loadImage_keeps {s u : State} {x digest} (h : s.loadImage x digest = .ok u) : Keeps s u := by
  unfold State.loadImage at h
  obtain ⟨_, -, h⟩ := Except.ok_of_bind h
  obtain ⟨v, hv, h⟩ := Except.ok_of_bind h
  obtain ⟨_, -, h⟩ := Except.ok_of_bind h
  cases h
  refine .set <| State.netLoaded_keeps.after <| .set <| .set <| State.loadRoutes_keeps.after <| .foldlM (fun {w e w'} he => ?_)
      (State.startingValues_keeps.after <| .set State.captureHolds_keeps) hv
  obtain ⟨long, n, p⟩ := e
  dsimp only at he
  split at he
  · cases he
    exact State.loadEntry_keeps ‹_›
  · cases he

theorem State.reportLoad_keeps {s : State} {x} : Keeps s (s.reportLoad x) :=
  State.raise_keeps.after <| .foldl (fun _ _ => State.record_keeps) .refl

theorem State.verifyAndLoad_keeps {s u : State} {bytes} (h : s.verifyAndLoad bytes = .ok u) : Keeps s u := by
  unfold State.verifyAndLoad at h
  obtain ⟨_, -, h⟩ := Except.ok_of_bind h
  obtain ⟨v, hv, h⟩ := Except.ok_of_bind h
  cases h
  exact State.reportLoad_keeps.after (State.loadImage_keeps hv)

theorem State.imageCommit_keeps {s : State} {req slot} : DoneKeeps s (State.imageCommit req slot s) := by
  have no (e : ImgErr) : DoneKeeps s { refuse e.status s e.body with count := fun s => s.raise 3 } :=
    ⟨.refl, fun w => show Keeps w (w.raise 3) from State.raise_keeps⟩
  unfold State.imageCommit
  exact .ite (.refuse .refl) (.ite (.refuse .refl) (.ite (no _) (.ite (no _) (.answer (.set .refl)))))

theorem execImageCommit_completes {s : State} {t req slot} : Completes s (execImageCommit t req slot s) :=
  runHost_completes fun _ => State.serve_keeps fun _ => State.imageCommit_keeps

theorem State.exchangeSlots_keeps {s : State} {slot} : Keeps s (s.exchangeSlots slot) :=
  .ite (.set .refl) (.set .refl)

theorem State.finishCommit_keeps {s : State} {slot} : Keeps s (s.finishCommit slot).1 := by
  unfold State.finishCommit
  refine .ite_of Prod.fst (show Keeps s (s.raise 3) from State.raise_keeps) ?_
  split
  · exact show Keeps s (s.raise 3) from State.raise_keeps
  · exact State.exchangeSlots_keeps.after (State.verifyAndLoad_keeps ‹_›)

theorem State.imageVerifyDone_keeps {s : State} : Keeps s s.imageVerifyDone := by
  unfold State.imageVerifyDone
  split
  · exact State.complete_keeps.after <| State.finishCommit_keeps.after <| .set .refl
  · exact .refl

/-! ## Functions of Sys2Proof/Machine/Start.lean -/

theorem State.readHeader_keeps {s : State} : Keeps s s.readHeader.2 :=
  .set <| .ite (.set .refl) .refl

theorem State.loadActive_keeps {s : State} : Keeps s s.loadActive := by
  unfold State.loadActive
  refine .ite .refl ?_
  split
  · exact State.verifyAndLoad_keeps ‹_›
  · exact State.raise_keeps

theorem State.startTests_keeps {s : State} {f} : Keeps s (s.startTests f) :=
  .after (.ite .refl (.set .refl)) <| .after (.ite (.set <| .set .refl) (.set .refl)) <| State.safTest_keeps.after <| .set .refl

theorem State.firstMode_keeps {s : State} {step started unsigned} : Keeps s (s.firstMode step started unsigned) :=
  .set <| State.record_keeps.after <| State.raiseN_keeps.after <| .ite (State.raiseN_keeps.after <| .set .refl) (.set .refl)

/-! ### Starts: the factory block but for what the start finds of its validity (R176, R474) -/

/-- The queue of waiting commands is as it was, and the factory block but for its validity. -/
structure KeepsFitted (s u : State) : Prop where
  factory : u.factory = { s.factory with valid := u.factory.valid }
  pending : u.pending = s.pending

theorem Keeps.fitted {s u : State} (h : Keeps s u) : KeepsFitted s u := ⟨by rw [h.factory], h.pending⟩

theorem KeepsFitted.refl {s : State} : KeepsFitted s s := ⟨rfl, rfl⟩

theorem KeepsFitted.after {s u v : State} (k : KeepsFitted u v) (h : KeepsFitted s u) : KeepsFitted s v :=
  ⟨by rw [k.factory, h.factory], k.pending.trans h.pending⟩

theorem KeepsFitted.ite {s a b : State} {c : Prop} {_ : Decidable c} (h : KeepsFitted s a) (k : KeepsFitted s b) :
    KeepsFitted s (if c then a else b) := by
  split
  · exact h
  · exact k

/-- A command ends in a next state that keeps the queue, and the factory block but for its validity. -/
def CompletesFitted (s : State) (o : Out) : Prop := ∃ u : State, o = .next u ∧ KeepsFitted s u

theorem CompletesFitted.next {s u : State} (h : KeepsFitted s u) : CompletesFitted s (.next u) := ⟨u, rfl, h⟩

theorem Completes.fitted {s : State} {o : Out} (h : Completes s o) : CompletesFitted s o := by
  obtain ⟨u, hu, k⟩ := h
  exact ⟨u, hu, k.fitted⟩

theorem run_completesFitted {s : State} {gate t f} (h : ∀ u, KeepsFitted u (f u)) : CompletesFitted s (run gate t s f) :=
  .next <| .ite ((h _).after State.clock_keeps.fitted) State.clock_keeps.fitted

theorem runPowered_completesFitted {s : State} {t f} (h : ∀ u, KeepsFitted u (f u)) : CompletesFitted s (runPowered t s f) :=
  run_completesFitted h

theorem runRunning_completesFitted {s : State} {t f} (h : ∀ u, KeepsFitted u (f u)) : CompletesFitted s (runRunning t s f) :=
  run_completesFitted h

theorem runHost_completesFitted {s : State} {t f} (h : ∀ u, KeepsFitted u (f u)) : CompletesFitted s (runHost t s f) :=
  runPowered_completesFitted fun _ => .ite ((Keeps.set .refl).fitted.after <| (h _).after (Keeps.set .refl).fitted) (h _)

/-- The one write of the factory block: a cold start notes whether it passes its check. -/
theorem State.coldStart_keepsFitted {s : State} {f started} : KeepsFitted s (s.coldStart f started) := by
  unfold State.coldStart
  extract_lets _ _ _ _ _ _ begun
  have fitted : KeepsFitted s begun := ⟨rfl, rfl⟩
  refine .after (Keeps.fitted ?_) fitted
  clear_value begun
  split
  rename_i header
  split
  rename_i verified
  refine .after ?_ <| .of_snd verified <| State.verifyActive_keeps.after <| State.activatePending_keeps.after <|
    .of_snd header State.readHeader_keeps
  have planned {w : State} : Keeps w ({ w with trust.extMeas := w.extMeasure }.planBins.planHoldup) :=
    State.planHoldup_keeps.after <| .set <| .set .refl
  exact .ite (State.firstMode_keeps.after <| .set planned) <| .ite (State.firstMode_keeps.after <| .set planned) <|
    State.firstMode_keeps.after <| State.startTests_keeps.after <| State.loadActive_keeps.after <| .set <| .set planned

theorem execPowerGood_completesFitted {s : State} {t facts} : CompletesFitted s (execPowerGood t facts s) := by
  unfold execPowerGood
  split
  · exact .next State.clock_keeps.fitted
  · exact .next <| State.coldStart_keepsFitted.after <| Keeps.fitted <| .set <| .ite (.set .refl) (.set <| .set <| .set .refl)

theorem State.restartNow_keepsFitted {s : State} {f ends} : KeepsFitted s (s.restartNow f ends) :=
  State.coldStart_keepsFitted.after <| Keeps.fitted <| .set <| .set <| State.clock_keeps.after <|
    .ite .refl <| State.raiseN_keeps.after <| .set <| .set <| .set .refl

theorem State.beginCold_keepsFitted {s : State} {f ends} : KeepsFitted s (s.beginCold f ends) :=
  .ite State.restartNow_keepsFitted .refl

theorem State.beginColdFree_keepsFitted {s : State} : KeepsFitted s s.beginColdFree :=
  .ite (State.restartNow_keepsFitted.after <| Keeps.fitted <| .set .refl) .refl

theorem execRestartCold_completesFitted {s : State} {t req facts ends} : CompletesFitted s (execRestartCold t req facts ends s) :=
  runHost_completesFitted fun _ => State.beginCold_keepsFitted.after <| Keeps.fitted <|
    State.hostWrite_keeps fun _ _ => State.restartWrite_keeps

theorem execImageVerifyDone_completesFitted {s : State} {t} : CompletesFitted s (execImageVerifyDone t s) :=
  runRunning_completesFitted fun _ => State.beginColdFree_keepsFitted.after State.imageVerifyDone_keeps.fitted

theorem execRestartWithHandover_completes {s : State} {t req} : Completes s (execRestartWithHandover t req s) :=
  runHost_completes fun _ => State.hostWrite_keeps fun _ _ => State.restartWrite_keeps

theorem State.recordFaults_keeps {s : State} : Keeps s s.recordFaults :=
  .foldl (fun _ _ => State.faultRecord_keeps) .refl

theorem State.beginHandover_keeps {s : State} {fault} : Keeps s (s.beginHandover fault) :=
  .set State.recordFaults_keeps

theorem State.supFault_keeps {s : State} {source} : Keeps s (s.supFault source) := by
  unfold State.supFault
  refine .ite (State.enterSafe_keeps.after State.raise_keeps) <| .set <| State.beginHandover_keeps.after ?_
  split
  · exact State.setRole_keeps.after <| State.yieldTo_keeps.after State.raise_keeps
  · exact State.raise_keeps

theorem execLockstepMismatch_completes {s : State} {t} : Completes s (execLockstepMismatch t s) :=
  runRunning_completes fun _ => State.supFault_keeps

theorem execSupRamEcc_completes {s : State} {t} : Completes s (execSupRamEcc t s) :=
  runRunning_completes fun _ => State.supFault_keeps

theorem State.restoreServo_keeps {s : State} {c} : Keeps s (s.restoreServo c) :=
  .set <| .set <| .set <| State.gnbRestart_keeps.after <| .set .refl

theorem State.startIslands_keeps {s : State} : Keeps s s.startIslands := by
  unfold State.startIslands
  refine .set <| .set <| .foldl (fun u e => ?_) <| .set <| .set <| .set <| .set <| .set <|
    State.gnbRestart_keeps.after <| State.gnssSettings_keeps.after <| .set .refl
  split
  · exact State.loadEntry_keeps ‹_›
  · exact .refl

theorem State.roleAfterRestart_keeps {s : State} {recorded} : Keeps s (s.roleAfterRestart recorded) :=
  .ite (.set .refl) <| .ite (.ite (State.requestCopy_keeps.after <| .set .refl) <| State.toResync_keeps.after <| .set .refl) <|
    .ite (.set .refl) <| State.setRole_keeps.after <| .set .refl

theorem State.handoverReady_keeps {s : State} {f} : Keeps s (s.handoverReady f) := by
  unfold State.handoverReady
  refine .set <| State.record_keeps.after <| .after (.ite State.enterSafe_keeps <| .ite State.enterSafe_keeps .refl) <| .set <|
    .after (.ite State.raise_keeps .refl) <| State.roleAfterRestart_keeps.after <| .set ?_
  split
  · exact .set <| State.adoptMode_keeps.after <| State.restoreServo_keeps.after <| .set <| .set <| .set <|
      State.verifyActive_keeps.after State.activatePending_keeps
  · exact State.startIslands_keeps.after <| .set <| .set <| State.verifyActive_keeps.after State.activatePending_keeps

theorem execHandoverReady_completes {s : State} {t facts} : Completes s (execHandoverReady t facts s) :=
  runPowered_completes fun _ => .ite State.handoverReady_keeps .refl

theorem execSupplyReturn_completes {s : State} {t} : Completes s (execSupplyReturn t s) :=
  runPowered_completes fun _ => .ite (State.recResume_keeps.after <| .set .refl) .refl

theorem execHoldupExhausted_completes {s : State} {t} : Completes s (execHoldupExhausted t s) :=
  runPowered_completes fun _ => .ite (.set <| .set .refl) .refl

theorem execPwrInputCut_completes {s : State} {t inputB} : Completes s (execPwrInputCut t inputB s) :=
  run_completes fun _ => .ite (.set .refl) (.set .refl)

theorem execPwrInputLevel_completes {s : State} {t inputB ok} : Completes s (execPwrInputLevel t inputB ok s) :=
  run_completes fun _ => .ite (.set .refl) (.set .refl)

theorem execOvertemp_completes {s : State} {t hot} : Completes s (execOvertemp t hot s) :=
  runPowered_completes fun _ => .ite (State.raise_keeps.after <| .set .refl) .refl

theorem execStpClamping_completes {s : State} {t on_} : Completes s (execStpClamping t on_ s) :=
  runPowered_completes fun _ => .ite (.set .refl) .refl

theorem execHoldupCharged_completes {s : State} {t charged} : Completes s (execHoldupCharged t charged s) :=
  runPowered_completes fun _ => .set .refl

/-! ## Functions of Sys2Proof/Machine/Host.lean -/

theorem execRead_completes {s : State} {t req object offset max_} : Completes s (execRead t req object offset max_ s) :=
  runHost_completes fun _ => State.hostRead_keeps fun _ => State.readObject_keeps

theorem execWrite_completesFitted {s : State} {t req object value} : CompletesFitted s (execWrite t req object value s) :=
  runHost_completesFitted fun _ => State.beginColdFree_keepsFitted.after <| Keeps.fitted <|
    State.hostWrite_keeps fun _ _ => .checkValue State.writeObject_keeps .refl

theorem execPing_completes {s : State} {t req} : Completes s (execPing t req s) :=
  runHost_completes fun _ => State.serve_keeps fun _ => .answer .refl

/-- What an ABORT stops, where it stops anything, keeps both. -/
def AbortKeeps (s : State) (o : Option (Nat × State)) : Prop := ∀ n u, o = some (n, u) → Keeps s u

theorem AbortKeeps.idle {s : State} : AbortKeeps s none := fun _ _ h => by cases h

theorem AbortKeeps.stops {s u : State} {n : Nat} (h : Keeps s u) : AbortKeeps s (some (n, u)) := fun _ _ e => by cases e; exact h

theorem AbortKeeps.ite {s : State} {a b : Option (Nat × State)} {c : Prop} {_ : Decidable c} (h : AbortKeeps s a) (k : AbortKeeps s b) :
    AbortKeeps s (if c then a else b) := by
  split
  · exact h
  · exact k

theorem State.abortFunction_keeps {s : State} {obj} : AbortKeeps s (s.abortFunction obj) := by
  unfold State.abortFunction
  dsimp only
  split
  · refine .ite (.ite (.stops ⟨rfl, rfl⟩) .idle) <| .ite ?_ <| .ite ?_ .idle
    · split
      · exact .stops ⟨rfl, rfl⟩
      · exact .idle
    · split
      · exact .stops <| State.respond_keeps.after ⟨rfl, rfl⟩
      · exact .idle
  · exact .ite (.stops ⟨rfl, rfl⟩) .idle
  · exact .ite (.ite (.stops ⟨rfl, rfl⟩) <| .ite (.stops ⟨rfl, rfl⟩) .idle) <|
      .ite (.ite (.stops <| .foldl (fun _ _ => .ite ⟨rfl, rfl⟩ .refl) .refl) .idle) <|
      .ite (.ite (.ite (.stops ⟨rfl, rfl⟩) .idle) <| .ite (.stops ⟨rfl, rfl⟩) .idle) .idle
  · split
    · exact .stops ⟨rfl, rfl⟩
    · exact .idle
  · exact .ite (.stops ⟨rfl, rfl⟩) .idle
  · exact .ite .idle (.stops ⟨rfl, rfl⟩)
  · exact .idle

theorem State.abort_keeps {s : State} {req obj} : DoneKeeps s (State.abort req obj s) := by
  unfold State.abort
  refine .ite (.refuse .refl) <| .ite (.refuse .refl) <| .ite (.refuse .refl) ?_
  split
  · exact .answer .refl
  · exact .answer <| State.raiseN_keeps.after <| State.recordCommand_keeps.after <| .set <| State.abortFunction_keeps _ _ ‹_›

theorem execAbort_completes {s : State} {t req object} : Completes s (execAbort t req object s) :=
  runHost_completes fun _ => .ite State.ownBusy_keeps <| .ite State.respond_keeps <| State.respond_keeps.after <| DoneKeeps.state <|
    .ite (.refuse (.set .refl)) <| .ite (.refuse (.set .refl)) <| State.abort_keeps.after <| .set .refl

theorem State.subscribe_keeps {s : State} {req stream port lease divider select} :
    DoneKeeps s (s.subscribe req stream port lease divider select) := by
  unfold State.subscribe
  refine .checkValue ?_ .refl
  dsimp only
  split
  · exact .refuse .refl
  · exact .answer (.set .refl)

theorem execSubscribe_completes {s : State} {t req stream destPort lease divider select} :
    Completes s (execSubscribe t req stream destPort lease divider select s) :=
  runHost_completes fun _ => State.serve_keeps fun _ => State.subscribe_keeps

theorem execUnsubscribe_completes {s : State} {t req stream destPort} : Completes s (execUnsubscribe t req stream destPort s) :=
  runHost_completes fun _ => State.serve_keeps fun _ => .checkValue (.done (.set .refl)) .refl

theorem execLeaseExpiry_completes {s : State} {t handle} : Completes s (execLeaseExpiry t handle s) :=
  runPowered_completes fun _ => .set .refl

theorem execTelemetrySend_completes {s : State} {t} : Completes s (execTelemetrySend t s) := by
  unfold execTelemetrySend
  refine runPowered_completes fun _ => ?_
  split
  · exact .refl
  · exact .ite (.set .refl) <| .set <| .set .refl

theorem State.dtlsFailed_keeps {s : State} {ingress} : Keeps s (s.dtlsFailed ingress) :=
  .ite (.set .refl) <| State.raiseN_keeps.after <| .set <| .set .refl

theorem execDtlsHandshake_completes {s : State} {t req ok} : Completes s (execDtlsHandshake t req ok s) := by
  refine runPowered_completes fun u => .ite ⟨rfl, rfl⟩ <| .ite State.dtlsFailed_keeps ?_
  dsimp only
  split
  · exact State.dtlsFailed_keeps
  · rename_i room w hroom
    have h : Keeps u w := by
      split at hroom
      · cases hroom
        exact .refl
      · split at hroom
        · split at hroom
          · cases hroom
            exact ⟨rfl, rfl⟩
          · cases hroom
        · cases hroom
    exact .set <| .set h

theorem execQcpSettingEffect_completes {s : State} {t} : Completes s (execQcpSettingEffect t s) := by
  unfold execQcpSettingEffect
  refine runPowered_completes fun _ => ?_
  dsimp only
  split
  · refine .after (.ite (.set <| .set .refl) .refl) ?_
    split
    · exact .ite (.set .refl) .refl
    · exact .refl
  · split
    · exact .ite (.set .refl) .refl
    · exact .refl

theorem State.queueCommand_keeps {s : State} {c} : Keeps s (s.queueCommand c) :=
  .ite State.ownBusy_keeps <| .ite (.ite State.respond_keeps (.set .refl)) <| .ite State.ownBusy_keeps (.set .refl)

theorem State.takeFrame_keeps {s : State} {req b} : Keeps s (s.takeFrame req b) := by
  unfold State.takeFrame
  dsimp only
  split
  · exact .set .refl
  · refine .ite (.set .refl) <| .ite State.respond_keeps <| .ite State.respond_keeps <| .ite (.set .refl) <| .ite State.respond_keeps ?_
    split
    · exact .ite State.queueCommand_keeps State.respond_keeps
    · exact State.respond_keeps

theorem State.admitQcp_keeps {s : State} {req frame} : Keeps s (s.admitQcp req frame) :=
  .ite (.set .refl) State.takeFrame_keeps

theorem execQcpFrameReceived_completes {s : State} {t req frame} : Completes s (execQcpFrameReceived t req frame s) := by
  unfold execQcpFrameReceived
  refine runHost_completes fun _ => .ite .refl <| .ite (.set .refl) <| .ite .refl ?_
  split
  · exact .ite (.set .refl) State.admitQcp_keeps
  · exact .ite (.set .refl) <| .ite (State.admitQcp_keeps.after <| .set .refl) State.dtlsFailed_keeps

/-! ## Functions of Sys2Proof/Machine/Instant.lean -/

theorem State.judgeAuth_keeps {s : State} {at_ granted} : Keeps s (s.judgeAuth at_ granted) :=
  .ite (State.clearAuth_keeps.after <| .set .refl) <| .ite .refl <| .ite (.set .refl) State.clearAuth_keeps

theorem State.flip_keeps {s : State} {at_} : Keeps s (s.flip at_) := by
  unfold State.flip
  split
  · exact .ite (State.aimAll_keeps.after <| State.safReads_keeps.after <| .set .refl) (.set .refl)
  · exact .set .refl

theorem State.sendRecords_keeps {s : State} {at_} : Keeps s (s.sendRecords at_) :=
  .foldl (fun _ _ => .ite (.set .refl) State.sendRecord_keeps) (.set .refl)

theorem State.reportStreams_keeps {s : State} {at_} : Keeps s (s.reportStreams at_) :=
  .set <| .foldl (fun _ _ => State.pushTele_keeps) <| .ite .refl State.pushTele_keeps

theorem State.queueField_keeps {s : State} {i l} : Keeps s (s.queueField i l) := by
  unfold State.queueField
  refine .ite .refl ?_
  split <;> exact .set .refl

theorem State.drawLayout_keeps {s : State} : Keeps s s.drawLayout :=
  .ite .refl <| .foldl (fun _ _ => State.queueField_keeps) (.set .refl)

theorem State.restartDue_keeps {s : State} : Keeps s s.restartDue := by
  unfold State.restartDue
  split
  · exact .ite State.beginHandover_keeps .refl
  · exact .ite State.beginHandover_keeps .refl
  · exact .refl

theorem State.instant_keeps {s : State} : Keeps s s.instant :=
  State.restartDue_keeps.after <| State.drawLayout_keeps.after <| State.reportStreams_keeps.after <|
    .after (.ite State.sendRecords_keeps .refl) <| State.flip_keeps.after <| State.judgeAuth_keeps.after <| .set .refl

theorem execCommandInstant_completes {s : State} {t} : Completes s (execCommandInstant t s) :=
  runPowered_completes fun _ => .ite (.ite State.instant_keeps .refl) <| .ite State.judgeAuth_keeps .refl

theorem State.startIfFree_keeps {s : State} {c} : Keeps s (s.startIfFree c) :=
  .ite .refl State.startHandler_keeps

theorem State.finishFault_keeps {s : State} {c f} : Keeps s (s.finishFault c f) := by
  unfold State.finishFault
  refine State.startIfFree_keeps.after <| State.startIfFree_keeps.after <| State.startIfFree_keeps.after ?_
  split
  all_goals
    refine .set <| .set <| State.faultRecord_keeps.after ?_
    split
    · exact State.enterSafe_keeps
    · exact .refl

theorem execFaultHandled_completes {s : State} {t cls} : Completes s (execFaultHandled t cls s) := by
  unfold execFaultHandled
  refine runRunning_completes fun _ => ?_
  dsimp only
  split
  · exact .ite State.finishFault_keeps .refl
  · exact .refl

/-! ## Functions of Sys2Proof/Machine/Dispatch.lean -/

/-- Every command ends in a next state; none writes the queue, and none the factory block but for its validity. -/
theorem exec_completesFitted {s : State} (i : Instr) : CompletesFitted s (exec i s) := by
  cases i with
  | cycleTick => exact execCycleTick_completes.fitted
  | sampleArrival => exact execSampleArrival_completes.fitted
  | waitLimitExpiry => exact execWaitLimitExpiry_completes.fitted
  | exchangeLimit => exact execExchangeLimit_completes.fitted
  | closeMissing => exact execCloseMissing_completes.fitted
  | drDelayExpiry => exact execDrDelayExpiry_completes.fitted
  | estimateOverrun => exact execEstimateOverrun_completes.fitted
  | refTimeoutExpiry => exact execRefTimeoutExpiry_completes.fitted
  | refQuarantined => exact execRefQuarantined_completes.fitted
  | refAdmitted => exact execRefAdmitted_completes.fitted
  | autoReadmit => exact execAutoReadmit_completes.fitted
  | solverJobStart => exact execSolverJobStart_completes.fitted
  | solveStop => exact execSolveStop_completes.fitted
  | solverDeadline => exact execSolverDeadline_completes.fitted
  | solveReportTimeout => exact execSolveReportTimeout_completes.fitted
  | allocationDegraded => exact execAllocationDegraded_completes.fitted
  | fallbackOn => exact execFallbackOn_completes.fitted
  | fallbackOff => exact execFallbackOff_completes.fitted
  | commandLate => exact execCommandLate_completes.fitted
  | commandInstant => exact execCommandInstant_completes.fitted
  | commandStale => exact execCommandStale_completes.fitted
  | faultHandled => exact execFaultHandled_completes.fitted
  | clockLoss => exact execClockLoss_completes.fitted
  | clockLossRelease => exact execClockLossRelease_completes.fitted
  | imageCommit => exact execImageCommit_completes.fitted
  | imageVerifyDone => exact execImageVerifyDone_completesFitted
  | deferredTimeout => exact execDeferredTimeout_completes.fitted
  | ptpMessageReceived => exact execPtpMessageReceived_completes.fitted
  | tbSourceLost => exact execTbSourceLost_completes.fitted
  | tb3SourceChange => exact execTb3SourceChange_completes.fitted
  | holdoverLimitExceeded => exact execHoldoverLimitExceeded_completes.fitted
  | timeStep => exact execTimeStep_completes.fitted
  | leapSecond => exact execLeapSecond_completes.fitted
  | captureEdge => exact execCaptureEdge_completes.fitted
  | captureDataRead => exact execCaptureDataRead_completes.fitted
  | captureDrain => exact execCaptureDrain_completes.fitted
  | compareFire => exact execCompareFire_completes.fitted
  | ppsInEdge => exact execPpsInEdge_completes.fitted
  | ppsInLost => exact execPpsInLost_completes.fitted
  | gnssEpoch => exact execGnssEpoch_completes.fitted
  | searchPassDone => exact execSearchPassDone_completes.fitted
  | handoverDone => exact execHandoverDone_completes.fitted
  | lossOfLock => exact execLossOfLock_completes.fitted
  | reacqWindowExpiry => exact execReacqWindowExpiry_completes.fitted
  | notchSpectrum => exact execNotchSpectrum_completes.fitted
  | jamUpdate => exact execJamUpdate_completes.fitted
  | antSupplyShort => exact execAntSupplyShort_completes.fitted
  | antSupplyRetry => exact execAntSupplyRetry_completes.fitted
  | gnbRestart => exact execGnbRestart_completes.fitted
  | aiOutput => exact execAiOutput_completes.fitted
  | userCommit => exact execUserCommit_completes.fitted
  | userDiscard => exact execUserDiscard_completes.fitted
  | dcPreset => exact execDcPreset_completes.fitted
  | dcFreeze => exact execDcFreeze_completes.fitted
  | refReadmit => exact execRefReadmit_completes.fitted
  | refEnable => exact execRefEnable_completes.fitted
  | twDepth => exact execTwDepth_completes.fitted
  | targetPose => exact execTargetPose_completes.fitted
  | refineReset => exact execRefineReset_completes.fitted
  | setpointGeo => exact execSetpointGeo_completes.fitted
  | setpointMove => exact execSetpointMove_completes.fitted
  | setpointHeading => exact execSetpointHeading_completes.fitted
  | joyDemand => exact execJoyDemand_completes.fitted
  | joyTimeoutExpiry => exact execJoyTimeoutExpiry_completes.fitted
  | trackCommit => exact execTrackCommit_completes.fitted
  | trackDiscard => exact execTrackDiscard_completes.fitted
  | targetState => exact execTargetState_completes.fitted
  | trackTargetLost => exact execTrackTargetLost_completes.fitted
  | powerAvailable => exact execPowerAvailable_completes.fitted
  | powerTimeoutExpiry => exact execPowerTimeoutExpiry_completes.fitted
  | powerLimitActive => exact execPowerLimitActive_completes.fitted
  | thrustSaturated => exact execThrustSaturated_completes.fitted
  | checkStart => exact execCheckStart_completes.fitted
  | checkDone => exact execCheckDone_completes.fitted
  | slotSample => exact execSlotSample_completes.fitted
  | loopLimit => exact execLoopLimit_completes.fitted
  | followingError => exact execFollowingError_completes.fitted
  | coefficientWrite => exact execCoefficientWrite_completes.fitted
  | slotHold => exact execSlotHold_completes.fitted
  | slotHoldEnd => exact execSlotHoldEnd_completes.fitted
  | slotSetpoint => exact execSlotSetpoint_completes.fitted
  | pgMove => exact execPgMove_completes.fitted
  | gearRatioWrite => exact execGearRatioWrite_completes.fitted
  | gearMasterLost => exact execGearMasterLost_completes.fitted
  | gearReengage => exact execGearReengage_completes.fitted
  | latched => exact execLatched_completes.fitted
  | stepperStall => exact execStepperStall_completes.fitted
  | stallResume => exact execStallResume_completes.fitted
  | stepperCurrentStep => exact execStepperCurrentStep_completes.fitted
  | stepperThermal => exact execStepperThermal_completes.fitted
  | stpClear => exact execStpClear_completes.fitted
  | stpZero => exact execStpZero_completes.fitted
  | stpSupply => exact execStpSupply_completes.fitted
  | injStart => exact execInjStart_completes.fitted
  | injStop => exact execInjStop_completes.fitted
  | injectionDone => exact execInjectionDone_completes.fitted
  | capArm => exact execCapArm_completes.fitted
  | capStop => exact execCapStop_completes.fitted
  | captureDone => exact execCaptureDone_completes.fitted
  | capDataRead => exact execCapDataRead_completes.fitted
  | inputTransition => exact execInputTransition_completes.fitted
  | chatterQuiet => exact execChatterQuiet_completes.fitted
  | inputStuck => exact execInputStuck_completes.fitted
  | inputDelivery => exact execInputDelivery_completes.fitted
  | uSet => exact execUSet_completes.fitted
  | uClear => exact execUClear_completes.fitted
  | countReset => exact execCountReset_completes.fitted
  | outputOverload => exact execOutputOverload_completes.fitted
  | outputReadback => exact execOutputReadback_completes.fitted
  | openLoad => exact execOpenLoad_completes.fitted
  | fieldSupply => exact execFieldSupply_completes.fitted
  | uvlo => exact execUvlo_completes.fitted
  | eventLinePulseEnd => exact execEventLinePulseEnd_completes.fitted
  | watchdogRetrigger => exact execWatchdogRetrigger_completes.fitted
  | watchdogExpired => exact execWatchdogExpired_completes.fitted
  | aoSet => exact execAoSet_completes.fitted
  | aoFault => exact execAoFault_completes.fitted
  | pfbFrame => exact execPfbFrame_completes.fitted
  | safetyDemand => exact execSafetyDemand_completes.fitted
  | testPulseMismatch => exact execTestPulseMismatch_completes.fitted
  | patternFault => exact execPatternFault_completes.fitted
  | sfCmd => exact execSfCmd_completes.fitted
  | darkPulse => exact execDarkPulse_completes.fitted
  | heldOffCheckFail => exact execHeldOffCheckFail_completes.fitted
  | safPeriodicSelftest => exact execSafPeriodicSelftest_completes.fitted
  | safSelftest => exact execSafSelftest_completes.fitted
  | safReset => exact execSafReset_completes.fitted
  | modeRequest => exact execModeRequest_completes.fitted
  | restartCold => exact execRestartCold_completesFitted
  | restartWithHandover => exact execRestartWithHandover_completes.fitted
  | powerGood => exact execPowerGood_completesFitted
  | lockstepMismatch => exact execLockstepMismatch_completes.fitted
  | supRamEcc => exact execSupRamEcc_completes.fitted
  | handoverReady => exact execHandoverReady_completes.fitted
  | abort => exact execAbort_completes.fitted
  | llpHello => exact execLlpHello_completes.fitted
  | linkDown => exact execLinkDown_completes.fitted
  | llpTime => exact execLlpTime_completes.fitted
  | llpSet => exact execLlpSet_completes.fitted
  | llpClose => exact execLlpClose_completes.fitted
  | llpSolveReport => exact execLlpSolveReport_completes.fitted
  | llpCommit _ _ _ result => exact (execLlpCommit_completes result).fitted
  | llpYield => exact execLlpYield_completes.fitted
  | llpTakeover _ _ _ _ cause => exact (execLlpTakeover_completes cause).fitted
  | llpResyncRequest => exact execLlpResyncRequest_completes.fitted
  | llpCopyPlan => exact execLlpCopyPlan_completes.fitted
  | llpCopyChunk => exact execLlpCopyChunk_completes.fitted
  | copyFail => exact execCopyFail_completes.fitted
  | resyncRetry => exact execResyncRetry_completes.fitted
  | stepDone => exact execStepDone_completes.fitted
  | missingCommit => exact execMissingCommit_completes.fitted
  | contactLost => exact execContactLost_completes.fitted
  | roleElectionTimeout => exact execRoleElectionTimeout_completes.fitted
  | transfer => exact execTransfer_completes.fitted
  | resync => exact execResync_completes.fitted
  | memberIndex => exact execMemberIndex_completes.fitted
  | lnkCreditStall => exact execLnkCreditStall_completes.fitted
  | switchFrameIngress => exact execSwitchFrameIngress_completes.fitted
  | ethLink => exact execEthLink_completes.fitted
  | datagramReceived => exact execDatagramReceived_completes.fitted
  | iec450Datagram => exact execIec450Datagram_completes.fitted
  | feedbackTimeout => exact execFeedbackTimeout_completes.fitted
  | canFrameReceived => exact execCanFrameReceived_completes.fitted
  | canFrameTransmitted => exact execCanFrameTransmitted_completes.fitted
  | canTxAttemptFailed => exact execCanTxAttemptFailed_completes.fitted
  | canRecoveryDone => exact execCanRecoveryDone_completes.fitted
  | canRecover => exact execCanRecover_completes.fitted
  | canTx => exact execCanTx_completes.fitted
  | canTimingWrite => exact execCanTimingWrite_completes.fitted
  | serialCharacter => exact execSerialCharacter_completes.fitted
  | sentenceParse => exact execSentenceParse_completes.fitted
  | serTx => exact execSerTx_completes.fitted
  | qcpFrameReceived => exact execQcpFrameReceived_completes.fitted
  | ping => exact execPing_completes.fitted
  | read => exact execRead_completes.fitted
  | write => exact execWrite_completesFitted
  | subscribe => exact execSubscribe_completes.fitted
  | unsubscribe => exact execUnsubscribe_completes.fitted
  | leaseExpiry => exact execLeaseExpiry_completes.fitted
  | recRead => exact execRecRead_completes.fitted
  | attest => exact execAttest_completes.fitted
  | attestDone => exact execAttestDone_completes.fitted
  | enrol => exact execEnrol_completes.fitted
  | telemetrySend => exact execTelemetrySend_completes.fitted
  | dtlsHandshake => exact execDtlsHandshake_completes.fitted
  | qcpSettingEffect => exact execQcpSettingEffect_completes.fitted
  | flushDone => exact execFlushDone_completes.fitted
  | flushWindowEnd => exact execFlushWindowEnd_completes.fitted
  | recControlFlush => exact execRecControlFlush_completes.fitted
  | sealSigned => exact execSealSigned_completes.fitted
  | recFull => exact execRecFull_completes.fitted
  | recRearm => exact execRecRearm_completes.fitted
  | powerFail => exact execPowerFail_completes.fitted
  | geyserDone => exact execGeyserDone_completes.fitted
  | supplyReturn => exact execSupplyReturn_completes.fitted
  | holdupExhausted => exact execHoldupExhausted_completes.fitted
  | entropyFail => exact execEntropyFail_completes.fitted
  | fumaroleSample => exact execFumaroleSample_completes.fitted
  | ledgerDaily => exact execLedgerDaily_completes.fitted
  | binRaise => exact execBinRaise_completes.fitted
  | binLower => exact execBinLower_completes.fitted
  | binEnvelope => exact execBinEnvelope_completes.fitted
  | mramRefresh => exact execMramRefresh_completes.fitted
  | updateOpen => exact execUpdateOpen_completes.fitted
  | updateChunk => exact execUpdateChunk_completes.fitted
  | chunkWritten => exact execChunkWritten_completes.fitted
  | chunkPartsExpiry => exact execChunkPartsExpiry_completes.fitted
  | updateQuery => exact execUpdateQuery_completes.fitted
  | updateActivate => exact execUpdateActivate_completes.fitted
  | pnlDraw => exact execPnlDraw_completes.fitted
  | waveformStart => exact execWaveformStart_completes.fitted
  | waveformEnd => exact execWaveformEnd_completes.fitted
  | railsOn => exact execRailsOn_completes.fitted
  | railsOff => exact execRailsOff_completes.fitted
  | railFault => exact execRailFault_completes.fitted
  | railRetry => exact execRailRetry_completes.fitted
  | panelTemperature => exact execPanelTemperature_completes.fitted
  | pnlRefresh => exact execPnlRefresh_completes.fitted
  | pnlCheck => exact execPnlCheck_completes.fitted
  | panelCrcCheck => exact execPanelCrcCheck_completes.fitted
  | pnlVcom => exact execPnlVcom_completes.fitted
  | pwrInputCut => exact execPwrInputCut_completes.fitted
  | overtemp => exact execOvertemp_completes.fitted
  | antSupplyOpen => exact execAntSupplyOpen_completes.fitted
  | channelLock => exact execChannelLock_completes.fitted
  | canRxError => exact execCanRxError_completes.fitted
  | safetyInputHealthy => exact execSafetyInputHealthy_completes.fitted
  | stpClamping => exact execStpClamping_completes.fitted
  | stepperAtRest => exact execStepperAtRest_completes.fitted
  | entropyPass => exact execEntropyPass_completes.fitted
  | ovenStatus => exact execOvenStatus_completes.fitted
  | holdupCharged => exact execHoldupCharged_completes.fitted
  | pwrInputLevel => exact execPwrInputLevel_completes.fitted
  | llpPeriodicSend => exact execLlpPeriodicSend_completes.fitted
  | ptpDelayReq => exact execPtpDelayReq_completes.fitted


/-! ## A step and a run -/

/-- A step takes one command from the front of the queue and writes nothing of the factory block but its validity. -/
theorem step_keepsFitted {s u : State} (h : step s = .next u) : KeepsFitted { s with pending := s.pending.drop 1 } u := by
  unfold step at h
  split at h
  next idle =>
    cases h
    exact ⟨rfl, by simp [idle]⟩
  next command rest waiting =>
    obtain ⟨v, ended, kept⟩ := exec_completesFitted (s := { s with pending := rest }) command
    cases ended.symm.trans h
    exact ⟨kept.factory, by simpa [waiting] using kept.pending⟩

/-- After any run the factory block is as it was, but for its validity. -/
theorem Runs.factory_eq {s u : State} (r : Runs s u) : u.factory = { s.factory with valid := u.factory.valid } := by
  induction r with
  | refl => rfl
  | tail _ last ih => rw [(step_keepsFitted last).factory, ih]

/-- Settles O4: every command keeps the factory block but for its validity (`exec_completesFitted`), hence every step does and, by
induction on the run, every run. -/
theorem theFactoryBlockIsReadOnly : Obligations.TheFactoryBlockIsReadOnly := by
  unfold Obligations.TheFactoryBlockIsReadOnly
  refine ⟨fun s u h => (step_keepsFitted h).factory, fun s u r => ?_⟩
  rw [r.factory_eq]
  exact ⟨rfl, rfl, rfl, rfl, rfl, rfl, rfl⟩


end Sys2Proof.Machine
end

section
/-! The state that reset leaves (spec/01_cycle_and_islands.md, R48; spec/03_time_bases.md, R94, R119; spec/04_gnss_receiver.md, R128,
R129, R152). -/

namespace Sys2Proof.Machine

theorem reset_route (n : Fin 128) : State.reset.events.routes[n] = {} := Vector.getElem_replicate n.isLt

theorem reset_timeBase (n : Fin 4) : State.reset.time.tb[n] = {} := Vector.getElem_replicate n.isLt

theorem reset_frontEnd (n : Fin 4) : State.reset.gnss.frontEnds[n] = {} := Vector.getElem_replicate n.isLt

/-- Settles O2: the sets of like registers hold their default entry at every index, and every other value is the one of its field. -/
theorem resetLeavesTheStatedValues : Obligations.ResetLeavesTheStatedValues := by
  unfold Obligations.ResetLeavesTheStatedValues
  have bases : ∀ n : Fin 4, (State.reset.time.tb[n]).state = 0 ∧ (State.reset.time.tb[n]).source = 0 := fun n => by
    rw [reset_timeBase]; exact ⟨rfl, rfl⟩
  have frontEnds : ∀ n : Fin 4, (State.reset.gnss.frontEnds[n]).jamThreshold = 0x28 ∧
      (State.reset.gnss.frontEnds[n]).notchThreshold = 0x0F ∧ (State.reset.gnss.frontEnds[n]).notchMax = 4 := fun n => by
    rw [reset_frontEnd]; exact ⟨rfl, rfl, rfl⟩
  exact ⟨reset_route, rfl, rfl, rfl, rfl, rfl, rfl, bases, rfl, rfl, rfl, rfl, rfl, frontEnds, rfl, rfl, rfl, rfl, rfl, rfl⟩

end Sys2Proof.Machine
end

section
/-! The fault handler (spec/01_cycle_and_islands.md, R50-R56): what its operations do to contexts, queues and routes, and what becomes of
a source that asserts. -/

namespace Sys2Proof.Machine

/-! ## Contexts and queues by class -/

@[simp] theorem EventState.context_one (e : EventState) : e.context 1 = e.f1 := rfl
@[simp] theorem EventState.context_two (e : EventState) : e.context 2 = e.f2 := rfl
@[simp] theorem EventState.context_three (e : EventState) : e.context 3 = e.f3 := rfl
@[simp] theorem EventState.queueOf_one (e : EventState) : e.queueOf 1 = e.q1 := rfl
@[simp] theorem EventState.queueOf_two (e : EventState) : e.queueOf 2 = e.q2 := rfl
@[simp] theorem EventState.queueOf_three (e : EventState) : e.queueOf 3 = e.q3 := rfl
@[simp] theorem EventState.setContext_one (e : EventState) (x) : e.setContext 1 x = { e with f1 := x } := rfl
@[simp] theorem EventState.setContext_three (e : EventState) (x) : e.setContext 3 x = { e with f3 := x } := rfl
@[simp] theorem EventState.setQueue_one (e : EventState) (q) : e.setQueue 1 q = { e with q1 := q } := rfl
@[simp] theorem EventState.higherBusy_one (e : EventState) : e.higherBusy 1 = false := rfl
@[simp] theorem EventState.higherBusy_two (e : EventState) : e.higherBusy 2 = e.f1.isSome := by simp [EventState.higherBusy]
@[simp] theorem EventState.higherBusy_three (e : EventState) : e.higherBusy 3 = (e.f1.isSome || e.f2.isSome) := by
  simp [EventState.higherBusy]
@[simp] theorem EventState.preempt_one (e : EventState) : e.preempt 1 =
    { e with f2 := e.f2.map fun f => { f with deferred := true }, f3 := e.f3.map fun f => { f with deferred := true } } := rfl
@[simp] theorem EventState.preempt_three (e : EventState) : e.preempt 3 = e := rfl

@[simp] theorem EventState.context_setContext (e : EventState) (c x) : (e.setContext c x).context c = x := by
  unfold EventState.setContext
  split
  · rfl
  · rfl
  · simp [EventState.context]

/-- A context set twice holds what was set last. -/
@[simp] theorem EventState.setContext_setContext (e : EventState) (c x y) : (e.setContext c x).setContext c y = e.setContext c y := by
  unfold EventState.setContext
  split
  · rfl
  · rfl
  · simp

@[simp] theorem EventState.setContext_context (e : EventState) (c) : e.setContext c (e.context c) = e := by
  unfold EventState.context
  split <;> simp [EventState.setContext]

/-! ## A handler starts (R56) -/

theorem State.startHandler_idle {s : State} {c : Nat} (h : s.events.context c = none) : s.startHandler c = s := by
  simp [State.startHandler, h]

/-- A start is noted in its context; its report leaves the rest of the event state alone. -/
theorem State.startHandler_events (s : State) (c) :
    (s.startHandler c).events = s.events.setContext c ((s.events.context c).map fun f => { f with started := true }) := by
  unfold State.startHandler
  split
  next idle => rw [idle, Option.map_none, ← idle, EventState.setContext_context]
  next f held =>
    split
    next on => rw [held, Option.map_some, ← on, ← held, EventState.setContext_context]
    next => simp [held]

theorem State.startIfFree_idle {s : State} {c : Nat} (h : s.events.context c = none) : s.startIfFree c = s := by
  simp [State.startIfFree, State.startHandler_idle h]

theorem State.startIfFree_frame (s : State) (c) : FrameBut handlerParts s (s.startIfFree c) :=
  FrameBut.ite (FrameBut.refl _ _) (State.startHandler_frame s c)

/-! ## A fault enters a class (R54) -/

/-- The context of the class is idle: the fault takes it, preempts the classes below, and starts unless a class above has work. -/
theorem State.admitFault_idle {c : Nat} {f : FaultEntry} {s : State} (idle : s.events.context (c + 1) = none) (new : f.started = false) :
    (State.admitFault (c + 1) f s).2 = false ∧
    (State.admitFault (c + 1) f s).1.events = (s.events.preempt (c + 1)).setContext (c + 1)
      (some { f with handledClass := c + 1, deferred := f.deferred || s.events.higherBusy (c + 1),
                     started := !s.events.higherBusy (c + 1) }) := by
  have flush : (if c = 0 then s.startFlush 1 else s).events = s.events := by split <;> simp
  rw [State.admitFault]
  generalize (if c = 0 then s.startFlush 1 else s) = v at flush
  simp only [flush, idle, true_and]
  cases busy : s.events.higherBusy (c + 1)
  · rw [if_neg (by decide), State.startHandler_events]
    simp
  · simp [new]

/-- It is busy and its queue has room: the fault waits at the tail. -/
theorem State.admitFault_waits {c : Nat} {f : FaultEntry} {s : State} (busy : (s.events.context (c + 1)).isSome = true)
    (room : (s.events.queueOf (c + 1)).length < 8) :
    (State.admitFault (c + 1) f s).2 = false ∧
    (State.admitFault (c + 1) f s).1.events =
      s.events.setQueue (c + 1) (s.events.queueOf (c + 1) ++ [{ f with handledClass := c + 1, deferred := true }]) := by
  obtain ⟨g, held⟩ := Option.isSome_iff_exists.mp busy
  have flush : (if c = 0 then s.startFlush 1 else s).events = s.events := by split <;> simp
  rw [State.admitFault]
  generalize (if c = 0 then s.startFlush 1 else s) = v at flush
  simp [flush, held, room]

/-- F1 is busy and its queue full: the answer is that SAFE is forced. -/
theorem State.admitFault_overflows {f : FaultEntry} {s : State} (busy : s.events.f1.isSome = true) (full : 8 ≤ s.events.q1.length) :
    (State.admitFault 1 f s).2 = true := by
  obtain ⟨g, held⟩ := Option.isSome_iff_exists.mp busy
  simp [State.admitFault, held, Nat.not_lt.mpr full]

/-- A lower class is busy and its queue full: the fault enters the class above, and finds the handler as it was. -/
theorem State.admitFault_escalates {c : Nat} {f : FaultEntry} {s : State} (busy : (s.events.context (c + 2)).isSome = true)
    (full : 8 ≤ (s.events.queueOf (c + 2)).length) :
    ∃ w : State, w.events = s.events ∧
      State.admitFault (c + 2) f s = State.admitFault (c + 1) { f with handledClass := c + 2 } w := by
  obtain ⟨g, held⟩ := Option.isSome_iff_exists.mp busy
  refine ⟨_, State.deliver_events s 10 (BitVec.ofNat 32 f.source) (BitVec.ofNat 32 (c + 2 + (c + 1) * 4)) none none false false, ?_⟩
  rw [State.admitFault]
  simp only [Nat.add_one_ne_zero, if_false, held, Nat.not_lt.mpr full]

/-! ## A source asserts (R50, R54) -/

/-- The source is of the table and its option is fitted (R52). -/
abbrev State.asserts (s : State) (n : Nat) : Prop := reservedSource n = false ∧ s.sourceFitted n = true

theorem State.raiseCore_silent {s : State} {n : Nat} {p0 p1 p2 p3 must} (h : ¬ s.asserts n) :
    s.raiseCore n p0 p1 p2 p3 must = (s, false) := by
  unfold State.raiseCore
  rw [if_pos (by by_contra k; exact h (by simpa using k))]

/-- Only a full F1 queue has an assertion do more than `raiseCore`. -/
theorem State.raise_of_room {s : State} {n : Nat} {p0 p1 p2 p3 must} (h : (s.raiseCore n p0 p1 p2 p3 must).2 = false) :
    s.raise n p0 p1 p2 p3 must = (s.raiseCore n p0 p1 p2 p3 must).1 := by
  simp [State.raise, h]

theorem State.raise_of_overflow {s : State} {n : Nat} {p0 p1 p2 p3 must} (h : (s.raiseCore n p0 p1 p2 p3 must).2 = true) :
    s.raise n p0 p1 p2 p3 must = (s.raiseCore n p0 p1 p2 p3 must).1.enterSafe 1 := by
  simp [State.raise, h]

/-- A source that is not routed to the handler is delivered, and changes nothing of the event state but the list of raised sources. -/
theorem State.raiseCore_unrouted {s : State} {n : Nat} (p0 p1 p2 p3 must) (h : s.asserts n) (off : (s.route n).fault = false) :
    (s.raiseCore n p0 p1 p2 p3 must).2 = false ∧
    (s.raiseCore n p0 p1 p2 p3 must).1.events = s.events.noteRaised n p0 := by
  simp [State.raiseCore, h.1, h.2, State.route_noteRaised, off]

/-- An assertion merges into the one of its source that is with the handler. -/
theorem State.raiseCore_merges {s : State} {n : Nat} (p0 p1 p2 p3 must) (h : s.asserts n) (on : (s.route n).fault = true)
    (pending : (s.route n).pending = true) (fault : n ≠ 10) :
    s.raiseCore n p0 p1 p2 p3 must =
      ({ s with servo.ic := s.servo.ic.onEvent n,
                events := { s.events.noteRaised n p0 with routes := upd s.events.routes n fun r =>
                  { r with merged := satAdd 127 r.merged 1, mergedNow := r.mergedNow + 1 } } }, false) := by
  simp [State.raiseCore, h.1, h.2, State.route_noteRaised, on, pending, fault]

/-- The handler in `w`, contexts and queues, is the one of `s`, and `f` is a new fault of source `n` that arrives in its class. -/
structure Arrival (s : State) (n : Nat) (w : State) (f : FaultEntry) : Prop where
  f1 : w.events.f1 = s.events.f1
  f2 : w.events.f2 = s.events.f2
  f3 : w.events.f3 = s.events.f3
  q1 : w.events.q1 = s.events.q1
  q2 : w.events.q2 = s.events.q2
  source : f.source = n
  arrivalClass : f.arrivalClass = (s.route n).cls.toNat
  deferred : f.deferred = false
  started : f.started = false

/-- Any other assertion of a source routed to the handler is a new fault that enters its class. -/
theorem State.raiseCore_arrives {s : State} {n : Nat} (p0 p1 p2 p3 must) (h : s.asserts n) (on : (s.route n).fault = true)
    (pending : (s.route n).pending = false) (fault : n ≠ 10) :
    ∃ (w : State) (f : FaultEntry), s.raiseCore n p0 p1 p2 p3 must = State.admitFault (s.route n).cls.toNat f w ∧ Arrival s n w f := by
  have counted : (n != 10) = true := by simpa using fault
  simp only [State.raiseCore, h.1, h.2, State.route_noteRaised, on, pending, counted, Bool.not_true, Bool.or_false, Bool.and_false,
    Bool.and_true, Bool.false_eq_true, if_false, if_true]
  refine ⟨_, _, rfl, ?_⟩
  constructor <;> simp

/-! ## Entry to SAFE (R471) -/

/-- A change of role tells of itself, and leaves the modes alone. -/
theorem State.setRoleCore_modes (s : State) (r cause) : (s.setRoleCore r cause).1.modes = s.modes := by
  unfold State.setRoleCore
  rw [(State.raiseCore_frame _ _ _ _ _ _ _).modes]
  split
  · exact (State.clearAuth_frame _).modes
  · rfl

theorem State.safeRole_modes (s : State) (bit) : (s.safeRole bit).modes = s.modes := by
  unfold State.safeRole
  split
  · rfl
  · split
    · rfl
    · split
      · rw [State.setRoleCore_modes, (State.yieldTo_frame _ _ _).modes]
      · rfl
  · exact State.setRoleCore_modes _ _ _

theorem State.toSafe_modes (s : State) (bit) :
    (s.toSafe bit).modes.mode = .safe ∧ (s.toSafe bit).modes.cause = s.modes.cause.setBit bit := by
  unfold State.toSafe
  dsimp only
  split
  next already => exact ⟨by simpa using already, rfl⟩
  next =>
    rw [(State.raiseCore_frame _ _ _ _ _ _ _).modes, (State.clearOverloads_frame _).modes]
    exact ⟨rfl, rfl⟩

theorem State.enterSafe_modes (s : State) (bit) :
    (s.enterSafe bit).modes.mode = .safe ∧ (s.enterSafe bit).modes.cause = s.modes.cause.setBit bit := by
  unfold State.enterSafe
  split
  · exact State.toSafe_modes s bit
  · rw [State.safeRole_modes]; exact State.toSafe_modes s bit

/-! ## The six outcomes (R50-R54, R471) -/

section
variable {s : State} {n : Nat} {p0 p1 p2 p3 : Option Word} {must : Bool}

/-- Where the fault finds room the handler holds what `admitFault` made of it, in the mode that was. -/
theorem State.raise_settles {c : Nat} {w : State} {f : FaultEntry} (e : s.raiseCore n p0 p1 p2 p3 must = State.admitFault c f w)
    (room : (State.admitFault c f w).2 = false) :
    (s.raise n p0 p1 p2 p3 must).events = (State.admitFault c f w).1.events ∧ (s.raise n p0 p1 p2 p3 must).modes = s.modes := by
  rw [State.raise_of_room (by rw [e]; exact room)]
  exact ⟨by rw [e], (State.raiseCore_frame s n p0 p1 p2 p3 must).modes⟩

variable (p0 p1 p2 p3 must) (h : s.asserts n) (on : (s.route n).fault = true) (fault : n ≠ 10) (new : (s.route n).pending = false)
include h on fault new

theorem State.raise_starts_in_f1 (cls : (s.route n).cls = 1) (idle : s.events.f1 = none) :
    (∃ f, (s.raise n p0 p1 p2 p3 must).events.f1 = some f ∧ f.source = n ∧ f.started = true ∧ f.arrivalClass = 1 ∧
      f.handledClass = 1 ∧ f.deferred = false) ∧
    (s.raise n p0 p1 p2 p3 must).events.f2 = s.events.f2.map (fun f => { f with deferred := true }) ∧
    (s.raise n p0 p1 p2 p3 must).events.f3 = s.events.f3.map (fun f => { f with deferred := true }) ∧
    (s.raise n p0 p1 p2 p3 must).modes = s.modes := by
  obtain ⟨w, f, e, a⟩ := State.raiseCore_arrives p0 p1 p2 p3 must h on new fault
  rw [cls] at e
  obtain ⟨room, enters⟩ := State.admitFault_idle (c := 0) (s := w) (by simp [a.f1, idle]) a.started
  obtain ⟨events, modes⟩ := State.raise_settles e room
  simp [events, modes, enters, a.f2, a.f3, a.source, a.arrivalClass, a.deferred, cls]

theorem State.raise_waits_for_f1 (cls : (s.route n).cls = 1) (busy : s.events.f1.isSome = true) (space : s.events.q1.length < 8) :
    (∃ f, (s.raise n p0 p1 p2 p3 must).events.q1 = s.events.q1 ++ [f] ∧ f.source = n ∧ f.deferred = true ∧ f.handledClass = 1) ∧
    (s.raise n p0 p1 p2 p3 must).events.f1 = s.events.f1 ∧ (s.raise n p0 p1 p2 p3 must).modes = s.modes := by
  obtain ⟨w, f, e, a⟩ := State.raiseCore_arrives p0 p1 p2 p3 must h on new fault
  rw [cls] at e
  obtain ⟨room, enters⟩ := State.admitFault_waits (c := 0) (s := w) (f := f) (by simp [a.f1, busy]) (by simp [a.q1, space])
  obtain ⟨events, modes⟩ := State.raise_settles e room
  simp [events, modes, enters, a.f1, a.q1, a.source]

theorem State.raise_forces_safe (cls : (s.route n).cls = 1) (busy : s.events.f1.isSome = true) (full : 8 ≤ s.events.q1.length) :
    (s.raise n p0 p1 p2 p3 must).modes.mode = .safe ∧ (s.raise n p0 p1 p2 p3 must).modes.cause.f1Overflow = true := by
  obtain ⟨w, f, e, a⟩ := State.raiseCore_arrives p0 p1 p2 p3 must h on new fault
  rw [cls] at e
  have overflow := State.admitFault_overflows (f := f) (s := w) (by simp [a.f1, busy]) (by simp [a.q1, full])
  rw [State.raise_of_overflow (by rw [e]; exact overflow)]
  obtain ⟨mode, cause⟩ := State.enterSafe_modes (s.raiseCore n p0 p1 p2 p3 must).1 1
  exact ⟨mode, by rw [cause]; rfl⟩

theorem State.raise_escalates_to_f1 (cls : (s.route n).cls = 2) (busy : s.events.f2.isSome = true) (full : 8 ≤ s.events.q2.length)
    (idle : s.events.f1 = none) :
    (∃ f, (s.raise n p0 p1 p2 p3 must).events.f1 = some f ∧ f.source = n ∧ f.started = true ∧ f.arrivalClass = 2 ∧
      f.handledClass = 1) ∧
    (s.raise n p0 p1 p2 p3 must).events.q2 = s.events.q2 ∧ (s.raise n p0 p1 p2 p3 must).modes = s.modes := by
  obtain ⟨w, f, e, a⟩ := State.raiseCore_arrives p0 p1 p2 p3 must h on new fault
  rw [cls] at e
  obtain ⟨v, same, up⟩ := State.admitFault_escalates (c := 0) (s := w) (f := f) (by simp [a.f2, busy]) (by simp [a.q2, full])
  replace e := e.trans up
  obtain ⟨room, enters⟩ := State.admitFault_idle (c := 0) (s := v) (f := { f with handledClass := 0 + 2 })
    (by simp [same, a.f1, idle]) a.started
  obtain ⟨events, modes⟩ := State.raise_settles e room
  rw [events, modes, enters]
  simp [same, a.q2, a.source, a.arrivalClass, cls]

theorem State.raise_waits_in_f3 (cls : (s.route n).cls = 3) (idle : s.events.f3 = none) (above : s.events.f2.isSome = true) :
    (∃ f, (s.raise n p0 p1 p2 p3 must).events.f3 = some f ∧ f.source = n ∧ f.started = false ∧ f.deferred = true) ∧
    (s.raise n p0 p1 p2 p3 must).events.f2 = s.events.f2 := by
  obtain ⟨w, f, e, a⟩ := State.raiseCore_arrives p0 p1 p2 p3 must h on new fault
  rw [cls] at e
  obtain ⟨room, enters⟩ := State.admitFault_idle (c := 2) (s := w) (by simp [a.f3, idle]) a.started
  obtain ⟨events, -⟩ := State.raise_settles e room
  simp [events, enters, a.f2, above, a.source]

end

/-- Settles O6: each clause is one outcome of `raiseCore` (silent, delivered, merged) or of `admitFault` (it starts, waits, escalates or
forces SAFE), carried through `raise`. -/
theorem sourcesEnterTheFaultHandler : Obligations.SourcesEnterTheFaultHandler := by
  unfold Obligations.SourcesEnterTheFaultHandler
  intro s n p0 p1 p2 p3 must
  refine ⟨fun silent => ?unasserted, fun h off => ?unrouted, fun _ fault h on => ⟨fun pending => ?merges, fun new cls idle => ?starts,
    fun new cls busy space => ?waits, fun new cls busy full => ?overflows, fun new cls busy full idle => ?escalates,
    fun new cls idle above => ?waitsBehind⟩⟩
  case unasserted => simp [State.raise, State.raiseCore_silent silent]
  case unrouted =>
    obtain ⟨room, events⟩ := State.raiseCore_unrouted p0 p1 p2 p3 must h off
    have quiet := State.raise_quiet s n p0 p1 p2 p3 must off
    have noted : (s.raise n p0 p1 p2 p3 must).events = s.events.noteRaised n p0 := by rw [State.raise_of_room room, events]
    simp [noted, quiet, quiet.modes]
  case merges =>
    have merged := State.raiseCore_merges p0 p1 p2 p3 must h on pending fault
    simp [State.raise, merged]
  case starts =>
    obtain ⟨starts, f2, f3, modes⟩ := State.raise_starts_in_f1 p0 p1 p2 p3 must h on fault new cls idle
    exact ⟨starts, fun f held => by simp [f2, held], fun f held => by simp [f3, held], modes⟩
  case waits =>
    obtain ⟨⟨f, tail, source, deferred, handled⟩, f1, modes⟩ := State.raise_waits_for_f1 p0 p1 p2 p3 must
      h on fault new cls busy space
    exact ⟨f, tail, source, deferred, handled, f1, modes⟩
  case overflows => exact State.raise_forces_safe p0 p1 p2 p3 must h on fault new cls busy full
  case escalates => exact State.raise_escalates_to_f1 p0 p1 p2 p3 must h on fault new cls busy full idle
  case waitsBehind => exact State.raise_waits_in_f3 p0 p1 p2 p3 must h on fault new cls idle above

end Sys2Proof.Machine
end

section
/-! The end of a fault's handling (spec/01_cycle_and_islands.md, R53-R56; spec/13_modes_and_start_up.md, R472). -/

namespace Sys2Proof.Machine

section
variable {s : State} {t : Nat} {cls : Fin 3} {c : Nat} (on : Running s) (of : cls.val + 1 = c)
include on of

theorem execFaultHandled_next {f : FaultEntry} (held : (s.clock t).events.context c = some f) (started : f.started = true)
    (free : (s.clock t).events.higherBusy c = false) : execFaultHandled t cls s = .next ((s.clock t).finishFault c f) := by
  simp [execFaultHandled, runRunning_next _ on, of, held, started, free]

theorem execFaultHandled_idle (held : (s.clock t).events.context c = none) : execFaultHandled t cls s = .next (s.clock t) := by
  simp [execFaultHandled, runRunning_next _ on, of, held]

theorem execFaultHandled_preempted (busy : (s.clock t).events.higherBusy c = true) :
    execFaultHandled t cls s = .next (s.clock t) := by
  rw [execFaultHandled, runRunning_next _ on, of]
  cases held : (s.clock t).events.context c with
  | none => simp [held]
  | some f => simp [held, busy]

end

/-- The last fault of F3, of a source that is no cause of SAFE: its record, its source freed, and its context empty. -/
theorem State.finishFault_last {s : State} {f : FaultEntry} (alone : s.events.q3 = []) (plain : safeBit f.source = none) :
    s.finishFault 3 f = { s.faultRecord f with
      events.routes := upd (s.faultRecord f).events.routes f.source fun r => { r with pending := false, mergedNow := 0 },
      events.f3 := none } := by
  have events : (s.faultRecord f).events = s.events := (State.record_frame s _ _ _ _ _ _ _ _).events
  have idle : ∀ v : State, v.events.f3 = none → ((v.startIfFree 3).startIfFree 3).startIfFree 3 = v := fun v none3 => by
    rw [State.startIfFree_idle (c := 3) none3, State.startIfFree_idle (c := 3) none3, State.startIfFree_idle (c := 3) none3]
  simp [State.finishFault, plain, events, alone, idle]

/-- A fault whose source is a cause of SAFE: the entry to SAFE, and then nothing but the handler's parts. -/
theorem State.finishFault_safe {s : State} {f : FaultEntry} {b : Nat} (c : Nat) (cause : safeBit f.source = some b) :
    FrameBut handlerParts (s.enterSafe b) (s.finishFault c f) := by
  unfold State.finishFault
  simp only [cause]
  refine FrameBut.trans ?_ (State.startIfFree_frame _ _)
  refine FrameBut.trans ?_ (State.startIfFree_frame _ _)
  refine FrameBut.trans ?_ (State.startIfFree_frame _ _)
  refine FrameBut.trans (u := (s.enterSafe b).faultRecord f) ((State.record_frame _ _ _ _ _ _ _ _ _).mono (by decide)) ?_
  generalize (s.enterSafe b).faultRecord f = v
  split
  · exact (frame_set_events v _).mono (by decide)
  · exact (frame_set_events v _).mono (by decide)

/-- Settles O11: only a handler that runs ends (`execFaultHandled_*`), and what its end does is `finishFault`, for a plain source and for a
cause of SAFE. -/
theorem faultHandlingEnds : Obligations.FaultHandlingEnds := by
  unfold Obligations.FaultHandlingEnds
  intro s t on
  refine ⟨fun f f1 f2 held last started plain handled => ?ends, fun f b held started cause => ?safe, fun idle => ?empty,
    fun busy => ?preempted⟩
  case ends =>
    refine (execFaultHandled_next (cls := 2) (c := 3) on rfl held started (by simp [f1, f2])).trans ?_
    rw [State.finishFault_last last plain]
    simp [State.faultRecord, handled]
  case safe =>
    obtain ⟨mode, bits⟩ := State.enterSafe_modes (s.clock t) b
    have frame := State.finishFault_safe (s := s.clock t) 1 cause
    exact ⟨_, execFaultHandled_next (cls := 0) (c := 1) on rfl held started rfl, by rw [frame.modes, mode],
      by rw [frame.modes, bits], (State.enterSafe_frame _ b).trans (frame.mono (by decide))⟩
  case empty => exact execFaultHandled_idle (cls := 1) (c := 2) on rfl idle
  case preempted =>
    have high : (s.clock t).events.f1.isSome = true := Option.isSome_iff_ne_none.mpr busy
    exact ⟨execFaultHandled_preempted (cls := 1) (c := 2) on rfl (by simp [high]),
      execFaultHandled_preempted (cls := 2) (c := 3) on rfl (by simp [high])⟩

end Sys2Proof.Machine
end

section
/-! The alignment buffer and the release of a cycle (spec/01_cycle_and_islands.md, R32, R44; spec/06_reference_fusion.md, R200;
spec/07_vessel_observer.md, R252; spec/14_group_redundancy.md, R493, R494). -/

namespace Sys2Proof.Machine

/-! ## Where a sample goes (R44, R200) -/

theorem State.setRef_frame (s : State) (r f) : FrameBut [.fusion] s (s.setRef r f) := frame_set_fusion s _

/-- A happening of a sample is counted on its references and reported; the cycle is none of that. -/
theorem State.countRef_cycle (s : State) (point which) : (s.countRef point which).cycle = s.cycle := by
  refine (FrameBut.foldl (ps := [.fusion] ++ reportParts) (fun u r => ?_) _ s).cycle
  exact (State.setRef_frame u r _).append (FrameBut.ite (State.raise_frame _ _ _ _ _ _ _) (FrameBut.refl _ _))

section
variable {s : State} {x : Sample}

theorem State.enterBuffer_future (keep : s.modes.discardUpTo = 0) (future : s.tb3 + ms < x.stamp) :
    s.enterBuffer x = s.countRef x.point 3 := by
  simp [State.enterBuffer, keep, future]

theorem State.enterBuffer_inWindow (keep : s.modes.discardUpTo = 0) (came : x.stamp ≤ s.tb3 + ms) (fresh : s.releasedUpTo < x.stamp) :
    s.enterBuffer x = { s with cycle.buffer := s.cycle.buffer ++ [x] } := by
  simp [State.enterBuffer, keep, Nat.not_lt.mpr came, Nat.not_le.mpr fresh]

theorem State.enterBuffer_late (keep : s.modes.discardUpTo = 0) (came : x.stamp ≤ s.tb3 + ms) (ticking : s.cycle.ticking = true)
    (late : x.stamp ≤ s.releasedUpTo) : s.enterBuffer x = { s with cycle.held := s.cycle.held ++ [x] } := by
  simp [State.enterBuffer, keep, Nat.not_lt.mpr came, ticking, late]

/-! ## When a cycle is released (R32) -/

theorem State.tryRelease_released (done : s.cycle.released = true) : s.tryRelease = s := by
  simp [State.tryRelease, done]

theorem State.tryRelease_early (missing : s.dueComplete = false) (early : s.tb3 < s.cycle.tk + s.cyc.waitLimit) : s.tryRelease = s := by
  simp [State.tryRelease, missing, Nat.not_le.mpr early]

theorem State.tryRelease_atLimit (ticking : s.cycle.ticking = true) (open_ : s.cycle.released = false)
    (limit : s.cycle.tk + s.cyc.waitLimit ≤ s.tb3) : s.tryRelease = s.release := by
  simp [State.tryRelease, ticking, open_, limit]

/-! ## SAMPLE_ARRIVAL -/

theorem execSampleArrival_unknown {t : Nat} (on : Running s) (unknown : (s.clock t).point? x.point = none) :
    execSampleArrival t x s = .next (s.clock t) := by
  simp [execSampleArrival, runRunning_next _ on, unknown]

/-- While the buffer takes samples, those of every kind of point enter it alike. -/
theorem execSampleArrival_enters {t : Nat} (on : Running s) (known : ((s.clock t).point? x.point).isSome = true)
    (flowing : (s.clock t).cycle.stopped = false) (room : (s.clock t).bufferFull = false) :
    execSampleArrival t x s = .next (((s.clock t).enterBuffer x).tryRelease) := by
  have runs : (s.clock t).running = true := by simp [State.running, on]
  rw [execSampleArrival, runRunning_next _ on, if_neg (by simpa using Option.isSome_iff_ne_none.mp known)]
  split
  · simp [State.arriveSlotted, runs, flowing, room]
  · simp [State.arrive, runs, State.offerAll, flowing, room]

/-- While the parsers stop, a parser's sample waits in their store. -/
theorem execSampleArrival_waits {t : Nat} (on : Running s) (known : ((s.clock t).point? x.point).isSome = true)
    (stopped : (s.clock t).cycle.stopped = true) (done : (s.clock t).cycle.released = true)
    (parsed : (s.clock t).slottedPoint x.point = false) :
    execSampleArrival t x s = .next { s.clock t with cycle.waiting := (s.clock t).cycle.waiting ++ [x] } := by
  have runs : (s.clock t).running = true := by simp [State.running, on]
  rw [execSampleArrival, runRunning_next _ on, if_neg (by simpa using Option.isSome_iff_ne_none.mp known), if_neg (by simp [parsed])]
  simp [State.arrive, runs, State.offerAll, stopped, State.tryRelease_released, done]

/-- While they stop, the sample of a point with a slot waits there. -/
theorem execSampleArrival_slot {t : Nat} (on : Running s) (known : ((s.clock t).point? x.point).isSome = true)
    (stopped : (s.clock t).cycle.stopped = true) (done : (s.clock t).cycle.released = true)
    (slotted : (s.clock t).slottedPoint x.point = true) (first : ∀ y ∈ (s.clock t).cycle.slots, y.point ≠ x.point) :
    execSampleArrival t x s = .next { s.clock t with cycle.slots := (s.clock t).cycle.slots ++ [x] } := by
  have runs : (s.clock t).running = true := by simp [State.running, on]
  have none_there : (s.clock t).cycle.slots.any (·.point == x.point) = false := by simpa using first
  have all_stay : (s.clock t).cycle.slots.filter (·.point != x.point) = (s.clock t).cycle.slots := by simpa using first
  rw [execSampleArrival, runRunning_next _ on, if_neg (by simpa using Option.isSome_iff_ne_none.mp known), if_pos slotted]
  simp [State.arriveSlotted, runs, stopped, State.meetFull, none_there, all_stay, State.tryRelease_released, done]

end

/-! ## The limits (R32, R493, R494) -/

/-- A member in step whose frame is still open at the limit of CLOSE looks at the CLOSE it holds. -/
theorem closeMissing_due {s : State} (role : s.group.role = .spare ∨ s.group.role = .resync) (inStep : s.inStepSelf = true)
    (open_ : s.cycle.frameDone = false) (released : s.cycle.released = true) (limit : s.exchangeLimit + 100 * us ≤ s.tb3) :
    (s.group.role == .alone || s.group.role == .lead || !s.inStepSelf || s.cycle.frameDone || !s.cycle.released ||
      decide (s.tb3 < s.exchangeLimit + 100 * us)) = false := by
  obtain role | role := role <;> simp [role, inStep, open_, released, limit]

section
variable {s : State} {t : Nat} (on : Running s)
include on

theorem execWaitLimitExpiry_releases (ticking : (s.clock t).cycle.ticking = true) (open_ : (s.clock t).cycle.released = false)
    (limit : (s.clock t).cycle.tk + (s.clock t).cyc.waitLimit ≤ (s.clock t).tb3) :
    execWaitLimitExpiry t s = .next (s.clock t).release := by
  simp [execWaitLimitExpiry, runRunning_next _ on, ticking, open_, limit]

theorem execWaitLimitExpiry_early (early : (s.clock t).tb3 < (s.clock t).cycle.tk + (s.clock t).cyc.waitLimit) :
    execWaitLimitExpiry t s = .next (s.clock t) := by
  simp [execWaitLimitExpiry, runRunning_next _ on, Nat.not_le.mpr early]

theorem execExchangeLimit_closes (lead : (s.clock t).group.role = .lead) (released : (s.clock t).cycle.released = true)
    (open_ : (s.clock t).gcycle.closeDone = false) (limit : (s.clock t).exchangeLimit ≤ (s.clock t).tb3) :
    execExchangeLimit t s = .next (s.clock t).closeFrame := by
  simp [execExchangeLimit, runRunning_next _ on, lead, released, open_, limit]

section
variable (role : (s.clock t).group.role = .spare ∨ (s.clock t).group.role = .resync) (inStep : (s.clock t).inStepSelf = true)
  (open_ : (s.clock t).cycle.frameDone = false) (released : (s.clock t).cycle.released = true)
  (limit : (s.clock t).exchangeLimit + 100 * us ≤ (s.clock t).tb3)
include role inStep open_ released limit

theorem execCloseMissing_leavesStep {x : LlpClose} (closed : (s.clock t).gcycle.closed = some x)
    (ours : x.cycle = (s.clock t).cycle.count) : execCloseMissing t s = .next ((s.clock t).setRole .resync 5) := by
  rw [execCloseMissing, runRunning_next _ on, closeMissing_due role inStep open_ released limit]
  simp [closed, ours, Option.filter]

theorem execCloseMissing_unclosed (closed : (s.clock t).gcycle.closed = none) : execCloseMissing t s =
    .next (if (s.clock t).successor = some (s.clock t).me then (s.clock t).completeFrame ((s.clock t).setsOf (s.clock t).heldMask)
      else s.clock t) := by
  rw [execCloseMissing, runRunning_next _ on, closeMissing_due role inStep open_ released limit]
  simp [closed]

end

/-! ## ESTIMATE_OVERRUN (R252) -/

/-- The state before the estimate, from its entry, with no sample left to fold: what an overrun goes back to. -/
def State.backTo (s : State) (e : EstEntry) : State :=
  (List.range 24).foldl (fun v r => v.setRefCfg r fun q =>
      { q with rejectRun := (at? e.sets r).rejectRun, gateFirst := (at? e.sets r).gateFirst })
    { s with obs := e.obs, obsOut := e.obsOut, history := e.history, law := e.law, dyn := e.dyn, sol := e.sol, cycle.late := [],
             cycle.frame := [] }

theorem execEstimateOverrun_noSamples {e : EstEntry} (entry : (s.clock t).cycle.estEntry = some e)
    (estimated : (s.clock t).cycle.estDone = true) (early : (s.clock t).cycle.acceptDone = false)
    (first : (s.clock t).obs.overrun = false) (idle : (s.clock t).sol.running = none) (noFresh : (s.clock t).cycle.frame = [])
    (noLate : (s.clock t).cycle.late = []) :
    execEstimateOverrun t s = .next (State.raise (State.build
      { ((s.clock t).backTo e).observeNothing false (s.clock t).cycle.tk with obs.overrun := true }
      (s.clock t).cycle.tk false false) 46) := by
  rw [execEstimateOverrun, runRunning_next _ on]
  simp [entry, estimated, early, first, idle, noFresh, noLate, State.backTo]

end

/-- Settles O8: a sample's place in the buffer (`enterBuffer`) and the release it may bring (`tryRelease`) are told apart, and each limit
has its own rule. -/
theorem samplesAreAlignedAndReleased : Obligations.SamplesAreAlignedAndReleased := by
  unfold Obligations.SamplesAreAlignedAndReleased
  intro s t on
  refine ⟨fun x unknown => ?unknown, fun x known flowing room keep => ⟨fun future done => ?future,
      fun came fresh => ⟨fun later => ?stays, fun ticking open_ limit => ?releases⟩, fun came ticking late done => ?late⟩,
    fun x known stopped done => ⟨fun parsed => ?waits, fun slotted first => ?slot⟩, fun ticking open_ limit => ?expires,
    fun early => ?early, fun lead released open_ limit => ?closes, fun role inStep open_ released limit =>
      ⟨fun x closed ours => ?leavesStep, fun closed next => ?succeeds, fun closed other => ?nothing⟩,
    fun e entry estimated early first idle noFresh noLate => ?overrun⟩
  case unknown => exact execSampleArrival_unknown on unknown
  case future =>
    refine (execSampleArrival_enters on known flowing room).trans ?_
    rw [State.enterBuffer_future keep future, State.tryRelease_released (by rw [State.countRef_cycle]; exact done)]
  case stays =>
    refine (execSampleArrival_enters on known flowing room).trans ?_
    rw [State.enterBuffer_inWindow keep came fresh]
    obtain done | ⟨missing, early⟩ := later
    · rw [State.tryRelease_released done]
    · rw [State.tryRelease_early missing early]
  case releases =>
    refine (execSampleArrival_enters on known flowing room).trans ?_
    rw [State.enterBuffer_inWindow keep came fresh]
    exact congrArg _ (State.tryRelease_atLimit ticking open_ limit)
  case late =>
    refine (execSampleArrival_enters on known flowing room).trans ?_
    rw [State.enterBuffer_late keep came ticking late]
    exact congrArg _ (State.tryRelease_released done)
  case waits => exact execSampleArrival_waits on known stopped done parsed
  case slot => exact execSampleArrival_slot on known stopped done slotted first
  case expires => exact execWaitLimitExpiry_releases on ticking open_ limit
  case early => exact execWaitLimitExpiry_early on early
  case closes => exact execExchangeLimit_closes on lead released open_ limit
  case leavesStep => exact execCloseMissing_leavesStep on role inStep open_ released limit closed ours
  case succeeds => exact (execCloseMissing_unclosed on role inStep open_ released limit closed).trans (by rw [if_pos next])
  case nothing => exact (execCloseMissing_unclosed on role inStep open_ released limit closed).trans (by rw [if_neg other])
  case overrun => exact execEstimateOverrun_noSamples on entry estimated early first idle noFresh noLate

end Sys2Proof.Machine
end

section
/-! The serial ports (spec/01_cycle_and_islands.md, R44; spec/15_networks.md, R547-R551). -/

namespace Sys2Proof.Machine

/-! ## Changes of one port -/

@[simp] theorem State.setSer_setSer (s : State) (n : Nat) (f g : SerialPort → SerialPort) :
    (s.setSer n f).setSer n g = s.setSer n fun p => g (f p) := by
  simp [State.setSer]

/-- Changes that agree on the port agree. -/
theorem State.setSer_congr {s : State} (n : Fin 8) {f g : SerialPort → SerialPort} (h : f (at? s.net.ser n) = g (at? s.net.ser n)) :
    s.setSer n f = s.setSer n g := by
  unfold State.setSer
  rw [upd_congr s.net.ser n f g fun inside => by rwa [at?_eq _ _ inside] at h]

theorem at?_ser (s : State) (n : Fin 8) : at? s.net.ser n = s.net.ser[n] := at?_eq _ _ n.isLt

@[simp] theorem SerialPort.sent_rx (p : SerialPort) (now) : (p.sent now).rx = p.rx := by unfold SerialPort.sent; split <;> rfl
@[simp] theorem SerialPort.sent_dropPending (p : SerialPort) (now) : (p.sent now).dropPending = p.dropPending := by
  unfold SerialPort.sent; split <;> rfl

/-- Nothing waits in the transmit buffer: what it sends next may leave from now on, or when the line is free (R547). -/
theorem SerialPort.sent_empty {p : SerialPort} (now : Nat) (empty : p.tx = []) : p.sent now = { p with txAt := max now p.freeAt } := by
  simp [SerialPort.sent, empty]

/-! ## SERIAL_CHARACTER (R44, R549) -/

/-- A character without a line error is seen on the line: what was sent by then has left, and in RS-485 the transmitter waits anew. -/
def SerialPort.hears (p : SerialPort) (now : Nat) : SerialPort :=
  let q := { p.sent now with lineAt := now }
  { q with txAt := if now ≤ q.txAt then max q.txAt q.freeAt else q.txAt, lineErrorRun := false }

section
variable {s : State} {t stamp : Nat} {n : Fin 8} {b : Byte} (on : Powered s)
include on

theorem execSerialCharacter_enters (room : (at? (s.clock t).net.ser n).rx.length < 2048) :
    execSerialCharacter t n b stamp false s = .next ((s.clock t).setSer n fun p =>
      { p.hears (s.clock t).now with
        rx := p.rx ++ [{ char := b, stamp := stamp, lineError := false, lostBefore := p.dropPending }],
        dropPending := false, overrunRun := false }) := by
  rw [execSerialCharacter, runPowered_next _ on]
  simp [SerialPort.hears, room]

theorem execSerialCharacter_lost (full : 2048 ≤ (at? (s.clock t).net.ser n).rx.length)
    (first : (at? (s.clock t).net.ser n).overrunRun = false) :
    execSerialCharacter t n b stamp false s = .next (State.raiseN ((s.clock t).setSer n fun p =>
      { p.hears (s.clock t).now with
        counters := upd (p.hears (s.clock t).now).counters 3 sat32, overrunRun := true, dropPending := true }) 102 n.val) := by
  rw [execSerialCharacter, runPowered_next _ on]
  simp [SerialPort.hears, Nat.not_lt.mpr full, first]

end

/-! ## SENTENCE_PARSE (R549, R550) -/

theorem execSentenceParse_none {s : State} {t : Nat} {n : Fin 8}
    (unfinished : takeSentence (at? (s.clock t).net.ser n).rx = none) : execSentenceParse t n s = .next (s.clock t) := by
  simp only [execSentenceParse, runRunning, run, unfinished]
  simp

section
variable {s : State} {t : Nat} {n : Fin 8} {read rest : List SerByte} (on : Running s) (flowing : (s.clock t).cycle.stopped = false)
  (whole : takeSentence (at? (s.clock t).net.ser n).rx = some (read, rest))
  (clean : ∀ b ∈ read, b.lostBefore = false ∧ b.lineError = false) (start : read.head?.map (·.char) = some 0x24)

include clean start in
/-- What came clean and begins with a `$` is read from its first character on. -/
theorem cleanSentence_cons : ∃ (b : SerByte) (bs : List SerByte), read = b :: bs ∧ b.char = 0x24 ∧ b.lineError = false ∧
    bs.any (·.lineError) = false ∧ bs.any (·.lostBefore) = false := by
  cases read with
  | nil => simp at start
  | cons b bs =>
    simp only [List.mem_cons, forall_eq_or_imp] at clean
    obtain ⟨⟨-, heard⟩, others⟩ := clean
    exact ⟨b, bs, rfl, by simpa using start, heard, by simpa using fun x hx => (others x hx).2,
      by simpa using fun x hx => (others x hx).1⟩

include on flowing whole clean start

theorem execSentenceParse_rejects
    (bad : sentenceBody (read.map (·.char)) (at? (s.clock t).net.ser n).checksumRequired = none)
    (first : (at? (s.clock t).net.ser n).rejectRun = false) :
    execSentenceParse t n s = .next (State.raiseN ((s.clock t).setSer n fun p =>
      { p with rx := rest, rejectRun := true, counters := upd p.counters 1 sat32 }) 103 n.val) := by
  obtain ⟨b, bs, rfl, dollar, heard, allHeard, noneLost⟩ := cleanSentence_cons clean start
  rw [execSentenceParse, runRunning_next _ on]
  simp only [List.map_cons, dollar, BitVec.ofNat_eq_ofNat] at bad
  simp [flowing, whole, dollar, heard, allHeard, noneLost, bad, first]

theorem execSentenceParse_accepts {text : List Byte}
    (good : sentenceBody (read.map (·.char)) (at? (s.clock t).net.ser n).checksumRequired = some text)
    (unused : (s.clock t).ownPoints 8 n = []) (done : (s.clock t).cycle.released = true) :
    execSentenceParse t n s = .next ((s.clock t).setSer n fun p =>
      { p with rx := rest, rejectRun := false, counters := upd p.counters 0 sat32 }) := by
  obtain ⟨b, bs, rfl, dollar, heard, allHeard, noneLost⟩ := cleanSentence_cons clean start
  rw [execSentenceParse, runRunning_next _ on]
  simp only [List.map_cons, dollar, BitVec.ofNat_eq_ofNat] at good
  simp [flowing, whole, dollar, heard, allHeard, noneLost, good, unused, State.sentenceSamples, State.tryRelease, done]

end

/-! ## SER_TX (R551) -/

/-- A sentence of the right length for an enabled transmitter with an empty buffer gets its checksum and its end. -/
theorem State.serTx_done {w : State} {n : Fin 8} {v : List Byte} (long : 11 ≤ v.length) (short : v.length ≤ 77)
    (enabled : (at? w.net.ser n).txEn = true) (empty : (at? w.net.ser n).tx = []) :
    w.serTx n v = done (w.setSer n fun p =>
      { p with tx := v ++ [0x2A, hexDigit ((sentenceSum (v.drop 1)).toNat / 16), hexDigit ((sentenceSum (v.drop 1)).toNat % 16),
                           0x0D, 0x0A],
               txAt := max w.now p.freeAt }) := by
  have there : at? (w.setSer n fun p => p.sent w.now).net.ser n = { at? w.net.ser n with txAt := max w.now (at? w.net.ser n).freeAt } := by
    simp [SerialPort.sent_empty, empty]
  have fits : ¬ 1024 < v.length + 5 := by omega
  unfold State.serTx checkValue
  dsimp only
  rw [if_pos (by simp [long, short]), there, if_neg (by simp [enabled]), if_neg (by simpa [empty] using fits), State.setSer_setSer]
  exact congrArg done (State.setSer_congr n (by simp [SerialPort.sent_empty, empty]))

/-- Settles O43: each command's rule at a port, read off the entry of the port in the list of ports. -/
theorem serialPortsReadSentences : Obligations.SerialPortsReadSentences := by
  unfold Obligations.SerialPortsReadSentences
  intro s t n on
  simp only [← at?_ser]
  refine ⟨fun b stamp room => ?enters, fun b stamp full first => ?lost, fun unfinished => ?noSentence,
    fun read rest runs flowing whole clean start => ⟨fun bad first => ?rejects, fun text good unused done => ?accepts⟩,
    fun req v ready long short enabled empty => ?sends⟩
  case enters => exact execSerialCharacter_enters on room
  case lost => exact execSerialCharacter_lost on full first
  case noSentence => exact execSentenceParse_none unfinished
  case rejects => exact execSentenceParse_rejects runs flowing whole clean start bad first
  case accepts => exact execSentenceParse_accepts runs flowing whole clean start good unused done
  case sends =>
    have net : (s.atWrite t req (objId 0x0A (0x30 + n) 2) v).net = s.net := (State.atWrite_frame ready).net
    exact hostWrite_done ready (State.serTx_done long short (by rw [net]; exact enabled) (by rw [net]; exact empty))

end Sys2Proof.Machine
end

section
/-! The commit of a structure image (spec/02_structure_image.md, R59, R61, R85; spec/16_command_protocol.md, R565, R572): it starts as
deferred work, and ends with its verification or at its bound. -/

namespace Sys2Proof.Machine

/-! ## A command whose answer waits for its work (R565) -/

/-- A ready command that its act defers: its effect, and no response yet. -/
theorem State.serve_deferred {s : State} {t req op body} (r act) (ready : Ready s t req op body)
    (hold : (s.taken req op r).group.versionHold = false) (deferred : (act (s.taken req op r)).deferred = true) :
    s.serve req op body r act = (act (s.taken req op r)).state := by
  have on : s.running = true := by simp [State.running, ready.running]
  have judged : (s.taken req op r).judged req op act = act (s.taken req op r) := by simp [State.judged, ready.port, hold]
  simp [State.serve, on, ready.canServe, judged, deferred]

/-- Work that ends in anything but OK leaves no record of its command: it is answered, and that is all. -/
theorem State.complete_refused {s : State} {req op p0 time st body} (no : st ≠ .ok) :
    s.complete req op p0 time st body = s.respond req op st body := by
  simp [State.complete, no]

/-! ## A restart that is asked for stays asked for when a source asserts (R471) -/

theorem State.toSafe_restartPending (s : State) (bit) : (s.toSafe bit).modes.restartPending = s.modes.restartPending := by
  unfold State.toSafe
  dsimp only
  split
  · rfl
  · rw [(State.raiseCore_frame _ _ _ _ _ _ _).modes, (State.clearOverloads_frame _).modes]
    rfl

theorem State.enterSafe_restartPending (s : State) (bit) : (s.enterSafe bit).modes.restartPending = s.modes.restartPending := by
  unfold State.enterSafe
  split
  · exact State.toSafe_restartPending s bit
  · rw [State.safeRole_modes, State.toSafe_restartPending]

theorem State.raise_restartPending (s : State) (n p0 p1 p2 p3 must) :
    (s.raise n p0 p1 p2 p3 must).modes.restartPending = s.modes.restartPending := by
  have core : (s.raiseCore n p0 p1 p2 p3 must).1.modes = s.modes := (State.raiseCore_frame s n p0 p1 p2 p3 must).modes
  cases overflow : (s.raiseCore n p0 p1 p2 p3 must).2 with
  | false => rw [State.raise_of_room overflow, core]
  | true => rw [State.raise_of_overflow overflow, State.enterSafe_restartPending, core]

/-! ## IMAGE_COMMIT starts the work (R565, R572) -/

/-- The work of a commit of `slot` for `req` has begun now. -/
def State.beginCommit (s : State) (req : Request) (slot : BitVec 8) : State :=
  { s with image.verifying := some { slot := slot, req := req, startedAt := s.now },
           qcp.deferredCommit := some { req := req, opcode := 0x30, body := be8 slot ++ zeros 3 },
           qcp.deferredAt := (s.now, s.qcp.deferredAt.2), qcp.deferredTb3 := (s.tb3, s.qcp.deferredTb3.2) }

theorem State.imageCommit_begins {s : State} {slot : BitVec 8} (req : Request) (named : slot = 0 ∨ slot = 2)
    (config : s.modes.mode = .config) (noCommand : s.qcp.deferredCommit = none) (noJob : s.image.verifying = none)
    (filled : s.image.slotBytes slot ≠ []) :
    s.imageCommit req slot = { state := s.beginCommit req slot, deferred := true } := by
  have free : (s.qcp.deferredCommit.isSome || s.image.verifying.isSome) = false := by simp [noCommand, noJob]
  have known : (slot != 0 && slot != 2) = false := by rcases named with rfl | rfl <;> rfl
  have allowed : (s.modes.mode != .config) = false := by simp [config]
  have holds : (s.image.slotBytes slot).isEmpty = false := by simp [filled]
  simp only [State.imageCommit, free, known, allowed, holds, Bool.false_eq_true, if_false]
  rfl

theorem execImageCommit_begins {s : State} {t : Nat} {req : Request} {slot : BitVec 8} (ready : Ready s t req 0x30 (be8 slot ++ zeros 3))
    (named : slot = 0 ∨ slot = 2) (config : s.modes.mode = .config) (noCommand : s.qcp.deferredCommit = none)
    (noJob : s.image.verifying = none) (filled : s.image.slotBytes slot ≠ []) :
    execImageCommit t req slot s = .next (((s.clock t).taken req 0x30 none).beginCommit req slot) := by
  have clock := s.clock_frame t
  have taken := (s.clock t).taken_frame req 0x30 none ready.clock.report
  have deferred : ((s.clock t).taken req 0x30 none).qcp.deferredCommit = none := by
    simpa [State.taken, clock.qcp] using noCommand
  have begins := State.imageCommit_begins (s := (s.clock t).taken req 0x30 none) req named (by rw [taken.modes, clock.modes]; exact config)
    deferred (by rw [taken.image, clock.image]; exact noJob) (by rw [taken.image, clock.image]; exact filled)
  rw [execImageCommit, runHost_next _ ready.running ready.started,
    State.serve_deferred _ _ ready.clock (by rw [taken.group, clock.group]; exact ready.version) (by rw [begins]), begins]

/-! ## IMAGE_VERIFY_DONE ends it (R59, R85, R572) -/

/-- No commit is at work any more. -/
def State.endCommit (s : State) : State := { s with image.verifying := none, qcp.deferredCommit := none }

theorem State.endCommit_frame (s : State) : FrameBut [.image, .qcp] s s.endCommit :=
  (frame_set_image s _).append (frame_set_qcp { s with image.verifying := none } _)

/-- An image that passes every check is in force, and the slots exchange. -/
theorem State.finishCommit_passes {s u : State} {slot} (config : s.modes.mode = .config)
    (passes : s.verifyAndLoad (s.image.slotBytes slot) = .ok u) :
    s.finishCommit slot = (u.exchangeSlots slot, .ok, ({} : ImgErr).body) := by
  simp [State.finishCommit, config, passes]

/-- One that does not raises source 3, and nothing else is changed. -/
theorem State.finishCommit_fails {s : State} {slot} {e : ImgErr} (config : s.modes.mode = .config)
    (fails : s.verifyAndLoad (s.image.slotBytes slot) = .error e) : s.finishCommit slot = (s.raise 3, e.status, e.body) := by
  simp [State.finishCommit, config, fails]

section
variable {s : State} {j : CommitJob} {k : Command} (job : s.image.verifying = some j) (command : s.qcp.deferredCommit = some k)
include job command

theorem State.imageVerifyDone_passes {u : State} (config : s.modes.mode = .config)
    (passes : s.endCommit.verifyAndLoad (s.endCommit.image.slotBytes j.slot) = .ok u) :
    s.imageVerifyDone = (u.exchangeSlots j.slot).complete k.req 0x30 (j.slot.setWidth 32) s.qcp.deferredTb3.1 .ok ({} : ImgErr).body := by
  have result := State.finishCommit_passes (s := s.endCommit) config passes
  unfold State.endCommit at result
  simp [State.imageVerifyDone, job, command, result]

theorem State.imageVerifyDone_fails {e : ImgErr} (config : s.modes.mode = .config)
    (fails : s.endCommit.verifyAndLoad (s.endCommit.image.slotBytes j.slot) = .error e) :
    s.imageVerifyDone =
      (s.endCommit.raise 3).complete k.req 0x30 (j.slot.setWidth 32) s.qcp.deferredTb3.1 e.status e.body := by
  have result := State.finishCommit_fails (s := s.endCommit) config fails
  unfold State.endCommit at result ⊢
  simp [State.imageVerifyDone, job, command, result]

end

/-- A module of which no cold start was asked runs on. -/
theorem State.beginColdFree_unasked {s : State} (warm : s.modes.restartPending ≠ some .cold) : s.beginColdFree = s := by
  simp [State.beginColdFree, warm]

theorem execImageVerifyDone_next {s y : State} {t : Nat} (on : Running s) (ends : (s.clock t).imageVerifyDone = y)
    (warm : y.modes.restartPending ≠ some .cold) : execImageVerifyDone t s = .next y := by
  rw [execImageVerifyDone, runRunning_next _ on, ends, State.beginColdFree_unasked warm]

/-! ## DEFERRED_TIMEOUT stops it (R61, R565) -/

theorem execDeferredTimeout_commit {s : State} {t : Nat} {j : CommitJob} {k : Command} (on : Running s)
    (job : (s.clock t).image.verifying = some j) (command : (s.clock t).qcp.deferredCommit = some k)
    (past : j.startedAt + (500 * ms + 100 * ms *
      (if j.slot = 0 then (s.clock t).image.pending else (s.clock t).image.previous).bytes.length / 1048576) ≤ (s.clock t).now) :
    execDeferredTimeout t false s = .next ((s.clock t).endCommit.respond k.req 0x30 .timeout []) := by
  rw [execDeferredTimeout, runRunning_next _ on]
  simp only [job, command, beq_iff_eq, Bool.false_eq_true, if_false, if_pos past]
  rw [State.complete_refused (st := .timeout) (by decide)]
  rfl

theorem execDeferredTimeout_attest {s : State} {t : Nat} {k : Command} (on : Running s)
    (command : (s.clock t).qcp.deferredAttest = some k) (past : (s.clock t).qcp.deferredAt.2 + 100 * ms ≤ (s.clock t).now) :
    execDeferredTimeout t true s = .next (State.respond { s.clock t with qcp.deferredAttest := none } k.req 0x32 .timeout []) := by
  rw [execDeferredTimeout, runRunning_next _ on]
  simp [command, past, State.complete_refused]

/-- Settles O32: a commit begins (`execImageCommit_begins`), and ends with an image that passes or fails (`State.imageVerifyDone_passes`,
`State.imageVerifyDone_fails`) or at its bound (`execDeferredTimeout_commit`); an attestation has a bound of its own. -/
theorem imageCommitIsDeferred : Obligations.ImageCommitIsDeferred := by
  unfold Obligations.ImageCommitIsDeferred
  intro s t
  have clock := s.clock_frame t
  rw [← clock.qcp, ← clock.image]
  refine ⟨fun req slot ready named config noCommand noJob filled => ?begins,
    fun on j k job command => ⟨fun config => ?ends, fun e config fails no warm => ?fails, fun past => ?timeout⟩,
    fun on k command past => execDeferredTimeout_attest on command past⟩
  case begins =>
    rw [clock.qcp] at noCommand
    rw [clock.image] at noJob filled
    exact execImageCommit_begins ready named config noCommand noJob filled
  case ends =>
    intro y warm
    refine execImageVerifyDone_next on ?_ warm
    rw [← State.clock_modes t] at config
    dsimp only [y]
    split
    next passes => exact State.imageVerifyDone_passes job command config passes
    next fails => exact State.imageVerifyDone_fails job command config fails
  case fails =>
    rw [← State.clock_modes t] at config warm
    have ends := State.imageVerifyDone_fails job command config fails
    rw [State.complete_refused no] at ends
    have raised := State.raise_frame (s.clock t).endCommit 3 none none none none false
    have answered := State.respond_frame ((s.clock t).endCommit.raise 3) k.req 0x30 e.status e.body
    refine ⟨_, execImageVerifyDone_next on ends ?_, Answered.respond _ _ _ _ _, ?_, ?_⟩
    · rw [answered.modes, State.raise_restartPending]
      exact warm
    · rw [answered.image, raised.image]
      rfl
    · exact ((State.endCommit_frame _).mono (by decide)).trans ((raised.mono (by decide)).trans (answered.mono (by decide)))
  case timeout => exact execDeferredTimeout_commit on job command past

end Sys2Proof.Machine
end

section
/-! The time bases (spec/03_time_bases.md): a base that loses its source, exceeds its holdover limit, steps or changes source
(R89-R105), and the units of the time island: leap seconds, captures, compares, PPS_IN, the oven and PTP (R95-R123). -/

namespace Sys2Proof.Machine

/-! ## Reading bases and units -/

theorem at?_tb (s : State) (n : Fin 4) : at? s.time.tb n = s.time.tb[n] := at?_eq _ _ n.isLt

theorem at?_compares (s : State) (m : Fin 8) : at? s.time.compares m = s.time.compares[m] := at?_eq _ _ m.isLt

/-- Changes that agree on the base agree. -/
theorem State.setTb_congr {s : State} (n : Fin 4) {f g : TimeBase → TimeBase} (h : f (at? s.time.tb n) = g (at? s.time.tb n)) :
    s.setTb n f = s.setTb n g := by
  unfold State.setTb
  rw [upd_congr s.time.tb n f g fun inside => by rwa [at?_eq _ _ inside] at h]

theorem State.raise_time (s : State) (n p0 p1 p2 p3 must) : (s.raise n p0 p1 p2 p3 must).time = s.time :=
  (State.raise_frame s n p0 p1 p2 p3 must).time

/-! ## A base changes its state (R92, R93, R98) -/

/-- A state other than LOCKED that a base does not have yet: it takes it and reports the change with its uncertainty. -/
theorem State.setBaseState_unlocks {s : State} {n : Nat} {new : BitVec 2} (change : (at? s.time.tb n).state ≠ new)
    (unlocked : new ≠ 2) :
    s.setBaseState n new =
      let u := s.setTb n fun b => { b with state := new, lockedSince := none }
      u.raiseN (15 + n) (new.toNat + 4 * (at? s.time.tb n).state.toNat) (some (cap32 (u.uncertainty n))) := by
  simp only [State.setBaseState, beq_eq_false_iff_ne.mpr change, beq_eq_false_iff_ne.mpr unlocked, Bool.false_eq_true, if_false]

/-- A LOCKED base that loses its source: no slew and no step, its uncertainty grows from now with the ledger's coefficients. -/
def State.loseBase (s : State) (n : Nat) : State :=
  s.setTb n fun b => { b with slewing := false, stepPending := false, goodRun := 0, lossAt := some s.now,
                              f := s.hsk.oscF, a := s.hsk.oscA }

theorem State.holdoverBase_locked {s : State} {n : Fin 4} (locked : (at? s.time.tb n).state = 2) :
    s.holdoverBase n = (s.loseBase n).setBaseState n 1 := by
  unfold State.holdoverBase
  dsimp only
  rw [if_pos (by simp [locked])]
  exact congrArg (State.setBaseState · n 1) (State.setTb_congr n (by simp [locked]))

section
variable {s : State} {t : Nat} (on : Powered s)
include on

theorem execTbSourceLost_locked {n : Fin 4} (locked : (at? (s.clock t).time.tb n).state = 2) (lost : (s.clock t).sourceLost n = true) :
    let u := ((s.clock t).loseBase n).setTb n fun b => { b with state := 1, lockedSince := none }
    execTbSourceLost t n s = .next (State.dropSource (u.raiseN (15 + n.val) 9 (some (cap32 (u.uncertainty n)))) n) := by
  have still : (at? ((s.clock t).loseBase n).time.tb n).state = 2 := by simp [State.loseBase, locked]
  rw [execTbSourceLost, runPowered_next _ on, if_pos lost, State.holdoverBase_locked locked,
    State.setBaseState_unlocks (by rw [still]; decide) (by decide), still]
  rfl

theorem execHoldoverLimitExceeded_holdover {n : Fin 4} (notTb0 : n ≠ 0) (holdover : (at? (s.clock t).time.tb n).state = 1)
    (past : (at? (s.clock t).time.tb n).holdoverLimit.toNat < (s.clock t).uncertainty n) :
    let u := (s.clock t).setTb n fun b => { b with state := 0, lockedSince := none }
    execHoldoverLimitExceeded t n s = .next (u.raiseN (15 + n.val) 4 (some (cap32 (u.uncertainty n)))) := by
  rw [execHoldoverLimitExceeded, runPowered_next _ on]
  simp only [← at?_tb]
  rw [if_pos (by simp [notTb0, holdover, past]), State.setBaseState_unlocks (by rw [holdover]; decide) (by decide), holdover]
  rfl

end

/-! ## TIME_STEP (R101, R104, R111) -/

/-- Without an armed compare unit no TARGET is passed. -/
theorem State.comparePassed_unarmed {s : State} (unarmed : ∀ m : Nat, (at? s.time.compares m).en = false) (n lo hi : Nat) :
    s.comparePassed n lo hi = s := by
  simp [State.comparePassed, unarmed]

/-- TB1 does not lock before sixteen good offsets in a row. -/
theorem State.tryLock_one_early {s : State} (early : (at? s.time.tb 1).goodRun < 16) : s.tryLock 1 = s := by
  simp [State.tryLock, State.mayLock, early]

theorem State.stepBase_one {s : State} {off : Int} (early : (at? s.time.tb 1).goodRun < 16)
    (unarmed : ∀ m : Nat, (at? s.time.compares m).en = false) :
    s.stepBase 1 off = ((s.drainCaptures 1).setTb 1 fun b =>
        { b with count := ((b.count : Int) + off).toNat, remaining := 0, stepPending := false, slewing := false }).raise 19
      (some (BitVec.ofNat 32 (2 ^ 30))) (some ((BitVec.ofInt 64 off).extractLsb' 32 32)) (some ((BitVec.ofInt 64 off).extractLsb' 0 32))
      (some 0) := by
  have drained : (s.drainCaptures 1).time = s.time := rfl
  have stepped : (s.drainCaptures 1).setTb 1 (fun b => { b with count := (((at? s.time.tb 1).count : Int) + off).toNat, remaining := 0,
                                                                stepPending := false, slewing := false }) =
      (s.drainCaptures 1).setTb 1 fun b => { b with count := ((b.count : Int) + off).toNat, remaining := 0, stepPending := false,
                                                    slewing := false } :=
    State.setTb_congr 1 rfl
  unfold State.stepBase
  dsimp only
  rw [if_neg (by decide), if_neg (by decide), drained, stepped, State.comparePassed_unarmed, State.tryLock_one_early]
  · rfl
  · rw [State.raise_time]
    simpa [drained] using early
  · rw [State.raise_time]
    exact unarmed

theorem execTimeStep_one {s : State} {t : Nat} (on : Powered s) (waits : (at? (s.clock t).time.tb 1).stepPending = true)
    (whole : (at? (s.clock t).time.tb 1).count % second < 4) :
    execTimeStep t 1 s = .next ((s.clock t).stepBase 1 (at? (s.clock t).time.tb 1).remaining) := by
  have one : (s.clock t).time.tb[(1 : Fin 4)] = at? (s.clock t).time.tb 1 := (at?_tb _ 1).symm
  rw [execTimeStep, runPowered_next _ on]
  simp [one, waits, whole]

/-! ## A base follows its source (R89, R93, R101, R102) -/

/-- What a correction of base `n` may do: it touches the bases and the parts of a report, and the base keeps its source. -/
structure Disciplines (n : Nat) (s u : State) : Prop where
  frame : FrameBut ([.time] ++ reportParts) s u
  source : (at? u.time.tb n).source = (at? s.time.tb n).source
  sourced : (at? u.time.tb n).sourced = (at? s.time.tb n).sourced

namespace Disciplines
variable {n : Nat} {s u v : State}

theorem refl : Disciplines n s s := ⟨.refl _ _, rfl, rfl⟩

theorem after (k : Disciplines n u v) (h : Disciplines n s u) : Disciplines n s v :=
  ⟨h.frame.trans k.frame, k.source.trans h.source, k.sourced.trans h.sourced⟩

theorem ite {a b : State} {c : Prop} {_ : Decidable c} (h : Disciplines n s a) (k : Disciplines n s b) :
    Disciplines n s (if c then a else b) := by
  split
  · exact h
  · exact k

theorem setTb {f : TimeBase → TimeBase} (source : ∀ b, (f b).source = b.source := by intro; rfl)
    (sourced : ∀ b, (f b).sourced = b.sourced := by intro; rfl) : Disciplines n s (s.setTb n f) := by
  have frame : FrameBut ([.time] ++ reportParts) s (s.setTb n f) := (frame_set_time s _).mono (by decide)
  by_cases inside : n < 4
  · exact ⟨frame, by simp [inside, source], by simp [inside, sourced]⟩
  · exact ⟨frame, by simp [at?, inside], by simp [at?, inside]⟩

theorem draw : Disciplines n s s.draw.2 := ⟨(frame_set_free s _).mono (by decide), rfl, rfl⟩

theorem raise {m p0 p1 p2 p3 must} : Disciplines n s (s.raise m p0 p1 p2 p3 must) :=
  ⟨(State.raise_frame s m p0 p1 p2 p3 must).mono (by decide), by rw [State.raise_time], by rw [State.raise_time]⟩

end Disciplines

theorem State.setBaseState_disciplines {s : State} {n new} : Disciplines n s (s.setBaseState n new) :=
  .ite .refl <| .after .raise .setTb

theorem State.tryLock_disciplines {s : State} {n} : Disciplines n s (s.tryLock n) :=
  .ite (.after State.setBaseState_disciplines <| .after .setTb .draw) .refl

/-- Inside the lock window the base may lock; outside it leaves LOCKED, and slews or waits for a step. -/
theorem State.correct_disciplines {s : State} {n off} : Disciplines n s (s.correct n off) := by
  have measured : Disciplines n s (s.draw.2.setTb n fun b => { b with offset := off, remaining := off }) :=
    .after .setTb .draw
  refine .ite (.after State.tryLock_disciplines <| .after .setTb measured) ?_
  refine .after (.ite .setTb <| .ite (.ite .setTb <| .after .raise .setTb) .setTb) ?_
  exact .ite (.after State.setBaseState_disciplines <| .after .setTb <| .after .setTb measured) <| .after .setTb measured

/-! ## TB3_SOURCE_CHANGE (R89) -/

section
variable {s : State} {t : Nat} (on : Powered s) (leads : (s.clock t).leadsTime = true)
include on leads

theorem execTb3SourceChange_takesTb2 (long : (s.clock t).lockedTen 2 = true)
    (new : (s.clock t).tb3Source ≠ some 2 ∨ (at? (s.clock t).time.tb 3).state ≠ 2) :
    ∃ u, execTb3SourceChange t 0 s = .next u ∧ (at? u.time.tb 3).source = 0 ∧ (at? u.time.tb 3).sourced = true ∧
      FrameBut ([.time] ++ reportParts) (s.clock t) u := by
  have three : (s.clock t).time.tb[3] = at? (s.clock t).time.tb 3 := (at?_tb _ 3).symm
  rw [execTb3SourceChange, runPowered_next _ on]
  dsimp only
  rw [if_pos rfl, if_pos (by simpa [leads, long, three] using new)]
  have taken (f) : FrameBut [.time] (s.clock t) ((s.clock t).setTb 3 f) := frame_set_time _ _
  exact ⟨_, rfl, State.correct_disciplines.source.trans (by simp), State.correct_disciplines.sourced.trans (by simp),
    ((taken _).mono (by decide)).trans State.correct_disciplines.frame⟩

theorem execTb3SourceChange_unsourced {b : Fin 2} (unsourced : (s.clock t).tb3Source = none) (no2 : (s.clock t).lockedTen 2 = false)
    (no1 : (s.clock t).lockedTen 1 = false) :
    execTb3SourceChange t b s = .next ((s.clock t).setTb 3 fun x => { x with source := 2, sourced := false, rate := 0 }) := by
  have short : (s.clock t).lockedTen (if b = 0 then 2 else 1) = false := by split <;> assumption
  rw [execTb3SourceChange, runPowered_next _ on]
  simp [leads, unsourced, no2, no1, short]

end

/-! ## Captures (R106-R108, R112) -/

section
variable {s : State} {m : Nat} {up : Bool} {edge : Nat}

theorem State.stampEdge_stamps (wants : (at? s.field.captures m).wants up = true)
    (room : (at? s.field.captures m).hw.length + (at? s.field.captures m).stamps.length < 8) :
    s.stampEdge m up edge =
      (false, { s with field.captures := upd s.field.captures m fun x => { x with hw := x.hw ++ [s.captureStamp x edge] } }) := by
  simp [State.stampEdge, wants, room]

theorem State.stampEdge_loses (wants : (at? s.field.captures m).wants up = true)
    (full : 8 ≤ (at? s.field.captures m).hw.length + (at? s.field.captures m).stamps.length) :
    s.stampEdge m up edge =
      (true, { s with field.captures := upd s.field.captures m fun x => { x with overrun := sat32 x.overrun } }) := by
  simp [State.stampEdge, wants, Nat.not_lt.mpr full]

end

theorem CaptureUnit.wants_iff {x : CaptureUnit} {up : Bool} :
    x.wants up = true ↔ x.en = true ∧ x.edge.getLsbD (if up then 0 else 1) = true := by
  cases up <;> simp [CaptureUnit.wants]

theorem State.reportOverruns_frame (s : State) : FrameBut reportParts s s.reportOverruns :=
  FrameBut.trans (u := { s with field.overrunDue := 0 }) ((frame_set_field s _).mono (by decide))
    (FrameBut.foldl (fun _ _ => State.raise_frame _ _ _ _ _ _ _) _ _)

theorem State.captureInput_frame (s : State) (input rising edge) : FrameBut reportParts s (s.captureInput input rising edge) := by
  have stamped := State.stampInput_frame s input rising edge
  unfold State.captureInput
  generalize s.stampInput input rising edge = p at stamped
  obtain ⟨lost, u⟩ := p
  exact (stamped.mono (by decide)).trans (((frame_set_field u _).mono (by decide)).trans (State.reportOverruns_frame _))

section
variable {s : State} {t : Nat} {m : Fin 16} {up : Bool} (on : Powered s)
  (wants : (at? (s.clock t).field.captures m).wants up = true)
include on wants

theorem execCaptureEdge_stamps
    (room : (at? (s.clock t).field.captures m).hw.length + (at? (s.clock t).field.captures m).stamps.length < 8) :
    let c := s.clock t
    let edge := gridUp (if (at? c.field.captures m).input.toNat < 0x20 then us else 4) c.now
    execCaptureEdge t m up s =
      .next { c with field.captures := upd c.field.captures m fun x => { x with hw := x.hw ++ [c.captureStamp x edge] } } := by
  rw [execCaptureEdge, runPowered_next _ on, State.captureEdge, State.stampEdge_stamps wants room]
  rfl

theorem execCaptureEdge_loses
    (full : 8 ≤ (at? (s.clock t).field.captures m).hw.length + (at? (s.clock t).field.captures m).stamps.length) :
    let c := s.clock t
    execCaptureEdge t m up s =
      .next (State.raise { c with field.captures := upd c.field.captures m fun x => { x with overrun := sat32 x.overrun } } 22) := by
  rw [execCaptureEdge, runPowered_next _ on, State.captureEdge, State.stampEdge_loses wants full]
  rfl

end

theorem execCaptureDrain_drains {s : State} {t : Nat} (runs : Running s) :
    let c := s.clock t
    let v : State := { c with
      field.captures := c.field.captures.map fun x =>
        { x with stamps := x.stamps ++ x.hw.map (extend · (at? c.time.tb x.base.toNat).count), hw := [] },
      field.overrunDue := 0 }
    execCaptureDrain t s = .next ((List.range c.field.overrunDue).foldl (fun v _ => v.raise 22) v) := by
  rw [execCaptureDrain, runRunning_next _ runs]
  rfl

/-! ## COMPARE_FIRE (R109-R111) -/

/-- A one-shot unit that asserts its line: the line is captured where it rose, and the unit is disarmed. -/
theorem State.compareAct_asserts {s : State} {m : Fin 8} {edge : Nat} (asserts : s.time.compares[m].action = 2)
    (once : s.time.compares[m].period = 0) :
    let line := s.time.compares[m].line.toNat
    let v := State.captureLine { s with field.lines := upd s.field.lines line fun l => { l with latch := true } } line
      (s.lineHigh line) edge
    s.compareAct m edge = { v with time.compares := upd v.time.compares m fun x =>
      { x with fired := true, actedAt := some x.target, edgeAt := some edge, en := false } } := by
  intro line v
  have time : v.time = s.time := (State.captureLine_frame _ _ _ _).time
  have once' : v.time.compares[m.val].period = 0 := by rw [time]; exact once
  have disarms : upd v.time.compares m (fun x => { x with
        fired := true, actedAt := some x.target, edgeAt := some edge, en := decide (x.period ≠ 0),
        target := if x.period = 0 then x.target else x.target + x.period.toNat * ms }) =
      upd v.time.compares m fun x => { x with fired := true, actedAt := some x.target, edgeAt := some edge, en := false } :=
    upd_congr _ _ _ _ fun _ => by simp [once']
  have action : (at? s.time.compares m).action.toNat = 2 := by rw [at?_compares, asserts]; rfl
  unfold State.compareAct
  simp only [action]
  rw [at?_compares]
  exact congrArg (fun units => { v with time.compares := units }) disarms

theorem execCompareFire_acts {s : State} {t : Nat} {m : Fin 8} (on : Powered s) (host : 3 ≤ m.val)
    (armed : (s.clock t).time.compares[m].en = true)
    (reached : (s.clock t).time.compares[m].target ≤ (at? (s.clock t).time.tb (s.clock t).time.compares[m].base.toNat).count)
    (new : (s.clock t).time.compares[m].actedAt ≠ some (s.clock t).time.compares[m].target) :
    let c := s.clock t
    let ago := (at? c.time.tb c.time.compares[m].base.toNat).count - c.time.compares[m].target
    execCompareFire t m s = .next (c.compareAct m (gridUp 4 (c.now - ago))).reportOverruns := by
  intro c ago
  have notPps : m ≠ 2 := by rintro rfl; exact absurd host (by decide)
  rw [execCompareFire, runPowered_next _ on]
  dsimp only
  rw [if_neg notPps, if_neg (by omega), if_pos (by simpa using ⟨⟨armed, reached⟩, new⟩)]

/-! ## LEAP_SECOND, PPS_IN and the oven (R95, R97, R123) -/

section
variable {s : State} {t : Nat} (on : Powered s)
include on

theorem execLeapSecond_due (set : (s.clock t).time.leapAt ≠ 0) (due : (s.clock t).time.leapAt ≤ (s.clock t).tb2) :
    let c := s.clock t
    execLeapSecond t s = .next { c with time.taiUtc := c.time.taiUtc + c.time.leapNext, time.leapNext := 0, time.leapAt := 0 } := by
  rw [execLeapSecond, runPowered_next _ on, if_pos (by simp [set, due])]

theorem execPpsInEdge_follows {p : Nat} (source : (s.clock t).time.tb2Source = 1) (last : (s.clock t).time.ppsEdge = some p) :
    let c := s.clock t
    let v := c.captureInput 0x20 true (gridUp 4 c.now)
    let edge := ((c.now : Int) - c.time.ppsInDelay).toNat
    p + second ≤ edge + 10 * us → edge ≤ p + second + 10 * us →
    execPpsInEdge t s = .next { v with time.ppsEdge := some edge, time.ppsRun := v.time.ppsRun + 1, time.ppsLostRaised := false } := by
  intro c v edge notEarly notLate
  have time : v.time = c.time := (State.captureInput_frame _ _ _ _).time
  have now : v.now = c.now := by simp [State.now, time]
  have follows : edgesFollow p edge = true := by simp [edgesFollow, notEarly, notLate]
  rw [execPpsInEdge, runPowered_next _ on]
  simp [time, now, source, last, follows, c, v, edge]

theorem execPpsInLost_late {p : Nat} (source : (s.clock t).time.tb2Source = 1) (last : (s.clock t).time.ppsEdge = some p)
    (late : 3 * second / 2 ≤ (s.clock t).now - p) (first : (s.clock t).time.ppsLostRaised = false) :
    let c := s.clock t
    execPpsInLost t s = .next (State.raise { c with time.ppsLostRaised := true, time.ppsEdge := none, time.ppsRun := 0,
                                                    time.ppsLabelled := 0, time.ppsLabelledEdge := none } 21) := by
  rw [execPpsInLost, runPowered_next _ on]
  simp [source, last, late, first]

theorem execOvenStatus_fitted {v : BitVec 8} (fitted : (s.clock t).factory.optT = true) (known : v.toNat ≤ 2) :
    execOvenStatus t v s = .next { s.clock t with time.ovenStatus := v } := by
  rw [execOvenStatus, runPowered_next _ on, if_pos (by simp [fitted, known])]

end

/-! ## PTP (R117) -/

theorem execPtpDelayReq_due {s : State} {t : Nat} (on : Powered s) {g : PtpAnnounce} (master : (s.clock t).ptpMaster = some g)
    (port : (s.clock t).time.ptp.syncPort ≠ 0xFF)
    (due : ∀ a : Nat, (s.clock t).time.ptp.delayAt = some a → a + logInterval (s.clock t).time.ptp.delayLog ≤ (s.clock t).now) :
    let c := s.clock t
    let v : State := { c with
      time.ptp.delaySent := some (c.time.ptp.delayReqSeq, (c.tb1 : Int)), time.ptp.delayAt := some c.now,
      time.ptp.delayReqSeq := c.time.ptp.delayReqSeq + 1, time.ptp.sentDelayReqs := c.time.ptp.sentDelayReqs + 1 }
    execPtpDelayReq t s = .next (v.sendOwn c.time.ptp.syncPort.toNat (at? c.net.ports 4).pvid .delayReq delayReqFrame) := by
  rw [execPtpDelayReq, runPowered_next _ on]
  simp only [BitVec.ofNat_eq_ofNat] at port
  cases last : (s.clock t).time.ptp.delayAt with
  | none => simp [master, port]
  | some a => simp [master, port, due a last]

theorem State.ptpMessage_delayResp {s : State} {port : Nat} {q : BitVec 16} {t1 t2 t3 rx corr log : Int} {sender : PtpPort}
    (listens : s.ptpListens port = true) (master : s.ptpMaster.map (·.sender) = some sender) (low : -4 ≤ log) (high : log ≤ 3)
    (sent : s.time.ptp.delaySent = some (q, t3)) (synced : s.time.ptp.syncRx = some (t1, t2)) :
    s.ptpMessage port (.delayResp s.time.ptpDomain sender q rx corr log) = { s with
      time.ptp.delaySent := none, time.ptp.delayLog := log,
      time.ptp.pathDelay := ((t2 + ptpEpoch - t1) + (rx - corr - (t3 + ptpEpoch))) / 2 } := by
  simp [State.ptpMessage, listens, sent, synced, master, Int.not_lt.mpr low, Int.not_lt.mpr high]

theorem execPtpMessageReceived_next {s : State} {t : Nat} (on : Powered s) (port : Fin 5) (msg : PtpMessage) :
    execPtpMessageReceived t port msg s = .next ((s.clock t).ptpMessage port msg) := by
  rw [execPtpMessageReceived, runPowered_next _ on]

/-- Settles O12: each clause is the lemma about one command; TIME_STEP, COMPARE_FIRE and the Delay_Resp add what the operation they run
does (`State.stepBase_one`, `State.compareAct_asserts`, `State.ptpMessage_delayResp`). -/
theorem timeBasesAndUnits : Obligations.TimeBasesAndUnits := by
  unfold Obligations.TimeBasesAndUnits
  refine ⟨fun s t on => ⟨fun n _ locked lost => ?sourceLost, fun n notTb0 holdover past => ?limit,
      fun waits whole early unarmed => ?step, fun l leads locked since long new => ?takesTb2, fun b leads unsourced no2 no1 => ?free⟩,
    fun s t on => ⟨fun set due => ?leap, fun m up en edge room => ?stamps, fun m up en edge full => ?loses, fun runs => ?drain,
      fun m host armed asserts once reached new => ?fires, fun p source last => ?ppsEdge, fun p source last late first => ?ppsLost,
      fun v fitted known => ?oven, fun g master port due => ?delayReq,
      fun port q t1 t2 t3 rx corr log sender listens master low high sent synced => ?delayResp⟩⟩
  case sourceLost => exact execTbSourceLost_locked on locked lost
  case limit => exact execHoldoverLimitExceeded_holdover on notTb0 holdover past
  case step => exact (execTimeStep_one on waits whole).trans (congrArg _ (State.stepBase_one early unarmed))
  case takesTb2 => exact execTb3SourceChange_takesTb2 on leads (by simp [State.lockedTen, locked, since, long]) new
  case free => exact execTb3SourceChange_unsourced on leads unsourced no2 no1
  case leap => exact execLeapSecond_due on set due
  case stamps => exact execCaptureEdge_stamps on (CaptureUnit.wants_iff.mpr ⟨en, edge⟩) room
  case loses => exact execCaptureEdge_loses on (CaptureUnit.wants_iff.mpr ⟨en, edge⟩) full
  case drain => exact execCaptureDrain_drains runs
  case fires =>
    exact (execCompareFire_acts on host armed reached new).trans
      (congrArg (fun u => Host.Outcome.next (State.reportOverruns u)) (State.compareAct_asserts asserts once))
  case ppsEdge => exact execPpsInEdge_follows on source last
  case ppsLost => exact execPpsInLost_late on source last late first
  case oven => exact execOvenStatus_fitted on fitted known
  case delayReq => exact execPtpDelayReq_due on master port due
  case delayResp =>
    exact (execPtpMessageReceived_next on port _).trans
      (congrArg _ (State.ptpMessage_delayResp listens master low high sent synced))

end Sys2Proof.Machine
end

section
/-! The GNSS receiver (spec/04_gnss_receiver.md): the search for a satellite, its assignment, tracking and loss (R135-R142), epochs
(R133), interference (R147-R151), antenna supplies (R131) and the restart of the receiver (R161). -/

namespace Sys2Proof.Machine

theorem State.clock_optG (s : State) (t : Nat) : (s.clock t).factory.optG = s.factory.optG := by rw [(s.clock_frame t).factory]

theorem at?_channels (s : State) (i : Fin 256) : at? s.gnss.channels i = s.gnss.channels[i] := at?_eq _ _ i.isLt

theorem at?_frontEnds (s : State) (f : Fin 4) : at? s.gnss.frontEnds f = s.gnss.frontEnds[f] := at?_eq _ _ f.isLt

theorem at?_supplies (s : State) (a : Fin 2) : at? s.gnss.supplies a = s.gnss.supplies[a] := at?_eq _ _ a.isLt

/-! ## Search and assignment (R135, R142) -/

/-- The signal that a pass shows: that of the satellite sought, or of the one found on a GLONASS frequency channel (R135). -/
def SearchJob.shown (j : SearchJob) (v : BitVec 8) : SignalId := if j.target.sv == 0 then { j.target with sv := v } else j.target

theorem SearchJob.shown_system (j : SearchJob) (v) : (j.shown v).system = j.target.system := by
  unfold SearchJob.shown
  split <;> rfl

theorem SearchJob.shown_sv (j : SearchJob) (v) : (j.shown v).sv = if j.target.sv == 0 then v else j.target.sv := by
  unfold SearchJob.shown
  split <;> rfl

/-- The job of a confirmed signal: a slot found on a frequency channel brings its own elevation. -/
def State.found (s : State) (j : SearchJob) (v : BitVec 8) : SearchJob :=
  { j with target := j.shown v,
           elevation := if j.target.sv == 0 then s.gnss.elevationOf (j.shown v).system (j.shown v).sv else j.elevation }

/-- A channel that starts to track the signal of a job (R139). -/
def State.pullIn (s : State) (j : SearchJob) : Channel :=
  { system := j.target.system, sv := j.target.sv, signal := j.target.signal, antenna := j.target.antenna, state := 1,
    enteredAt := s.now, elevation := j.elevation, pass := s.gnss.passes j.elevation, gloK := j.gloK }

theorem State.feedEngine_next {s : State} {next : SearchJob} {rest : List SearchJob} (e : Nat) (queue : s.gnss.jobs = next :: rest) :
    s.feedEngine e = { s with gnss.jobs := rest, gnss.engines := upd s.gnss.engines e fun _ => some next } := by
  simp [State.feedEngine, queue]

/-- The first channel with nothing to track is free. -/
theorem state_of_findIdx?_free {channels : Vector Channel 256} {i : Nat}
    (free : channels.toList.findIdx? (·.state == 0) = some i) : (at? channels i).state = 0 := by
  obtain ⟨inside, idle, -⟩ := List.findIdx?_eq_some_iff_getElem.mp free
  have inside : i < 256 := by simpa using inside
  rw [at?_eq _ _ inside]
  simpa using idle

/-- A new signal of a satellite above the horizon takes the free channel; no signal waits for one. -/
theorem State.assignChannel_free {s : State} {j : SearchJob} {i : Nat} (new : s.gnss.assigned j.target = false)
    (up : s.gnss.belowHorizon j.target.system j.target.sv = false) (queue : s.gnss.wanting = [])
    (free : s.gnss.channels.toList.findIdx? (·.state == 0) = some i) :
    s.assignChannel j = { s with gnss.channels := upd s.gnss.channels i fun _ => s.pullIn j } := by
  have taken : s.gnss.channelFor j = some i := by simp only [GnssState.channelFor, free]
  have idle := state_of_findIdx?_free free
  simp [State.assignChannel, State.pullIn, new, up, taken, idle, queue]

section
variable {s : State} {t : Nat} {e : Fin 8} {j : SearchJob} (on : Running s) (fitted : s.factory.optG = true)
  (busy : (s.clock t).gnss.engines[e] = some j)
include on fitted busy

theorem execSearchPassDone_detects {v : BitVec 8} (first : j.confirming = false)
    (known : (systemSvs (j.shown v).system.toNat).contains (j.shown v).sv.toNat = true) :
    execSearchPassDone t e (some v) s = .next { s.clock t with
      gnss.engines := upd (s.clock t).gnss.engines e fun _ => some { j with confirming := true } } := by
  unfold SearchJob.shown at known
  rw [execSearchPassDone, runRunning_next _ on]
  simp only [State.clock_optG, fitted, busy, first, Option.getD_some, known]
  simp

theorem execSearchPassDone_confirms {v : BitVec 8} (second : j.confirming = true) (search : j.channel = none)
    (known : (systemSvs (j.shown v).system.toNat).contains (j.shown v).sv.toNat = true) :
    execSearchPassDone t e (some v) s = .next (((s.clock t).assignChannel ((s.clock t).found j v)).feedEngine e) := by
  unfold SearchJob.shown at known
  rw [execSearchPassDone, runRunning_next _ on]
  simp only [State.clock_optG, fitted, busy, second, search, Option.getD_some, known]
  simp [State.found, SearchJob.shown, second, search]

/-- A confirmed signal takes a free channel, and its engine the next job. -/
theorem execSearchPassDone_assigns {v : BitVec 8} {next : SearchJob} {rest : List SearchJob} {i : Nat} (second : j.confirming = true)
    (search : j.channel = none) (known : (systemSvs (j.shown v).system.toNat).contains (j.shown v).sv.toNat = true)
    (queue : (s.clock t).gnss.jobs = next :: rest) (unwanted : (s.clock t).gnss.wanting = [])
    (new : (s.clock t).gnss.assigned (j.shown v) = false)
    (up : (s.clock t).gnss.belowHorizon (j.shown v).system (j.shown v).sv = false)
    (free : (s.clock t).gnss.channels.toList.findIdx? (·.state == 0) = some i) :
    let c := s.clock t
    execSearchPassDone t e (some v) s = .next { c with
      gnss.jobs := rest, gnss.engines := upd c.gnss.engines e fun _ => some next,
      gnss.channels := upd c.gnss.channels i fun _ => c.pullIn (c.found j v) } := by
  intro c
  rw [execSearchPassDone_confirms on fitted busy second search known,
    State.assignChannel_free (j := c.found j v) new up unwanted free, State.feedEngine_next (next := next) (rest := rest)]
  exact queue

theorem execSearchPassDone_misses (more : 1 < j.passes) :
    execSearchPassDone t e none s = .next { s.clock t with
      gnss.engines := upd (s.clock t).gnss.engines e fun _ => some { j with confirming := false, passes := j.passes - 1 } } := by
  rw [execSearchPassDone, runRunning_next _ on]
  simp [State.clock_optG, fitted, busy, Nat.not_le.mpr more]

end

/-! ## Handover (R138) -/

section
variable {s : State} {t : Nat} {j : SearchJob} {rest : List SearchJob} (on : Running s)
  (waits : (s.clock t).gnss.handovers = j :: rest)
include on waits

theorem execHandoverDone_fails (again : j.failures + 1 < 3) :
    execHandoverDone t false s =
      .next { s.clock t with gnss.handovers := rest ++ [{ j with failures := j.failures + 1 }] } := by
  rw [execHandoverDone, runRunning_next _ on]
  simp [waits, again]

theorem execHandoverDone_searches (last : 3 ≤ j.failures + 1) (noJobs : (s.clock t).gnss.jobs = []) :
    let c := s.clock t
    execHandoverDone t false s = .next { c with
      gnss.handovers := rest,
      gnss.jobs := [{ j with kind := 1, failures := 0, passes := c.searchPasses 1 j.target.signal j.gloK }] } := by
  rw [execHandoverDone, runRunning_next _ on]
  simp [waits, Nat.not_lt.mpr last, noJobs]

end

/-! ## Tracking and loss (R139, R141) -/

/-- A channel is freed, and no signal waits for it. -/
theorem State.freeChannel_unwanted {s : State} (i : Nat) (queue : s.gnss.wanting = []) :
    s.freeChannel i = { s with
      gnss.channels := upd s.gnss.channels i fun x => { x with state := 0, slip := false },
      gnss.jobs := s.gnss.jobs.filter fun j => j.channel != some i } := by
  simp [State.freeChannel, State.serveWanting, queue]

section
variable {s : State} {t : Nat} {i : Fin 256} (on : Running s)
include on

theorem execChannelLock_locks
    (seeks : (at? (s.clock t).gnss.channels i).state = 1 ∨ (at? (s.clock t).gnss.channels i).state = 3)
    (lower : lowerBand (at? (s.clock t).gnss.channels i).signal = true)
    (inTime : (s.clock t).now - (at? (s.clock t).gnss.channels i).enteredAt ≤
      (s.clock t).gnss.stateLimit (at? (s.clock t).gnss.channels i)) :
    let c := s.clock t
    execChannelLock t i true s = .next { c with
      gnss.channels := upd c.gnss.channels i fun x => { x with state := 2, lockedAt := c.now, enteredAt := c.now },
      gnss.jobs := c.gnss.jobs.filter fun j => j.channel != some i.val } := by
  have seeking : ((at? (s.clock t).gnss.channels i).state != 1 && (at? (s.clock t).gnss.channels i).state != 3) = false := by
    rcases seeks with h | h <;> simp [h]
  rw [execChannelLock, runRunning_next _ on]
  simp only [← at?_channels]
  rw [if_neg (ne_true_of_eq_false seeking), if_pos (by simpa using inTime), if_pos lower]

theorem execChannelLock_frees (pulls : (at? (s.clock t).gnss.channels i).state = 1)
    (late : 200 * ms ≤ (s.clock t).now - (at? (s.clock t).gnss.channels i).enteredAt) :
    execChannelLock t i false s = .next ((s.clock t).freeChannel i) := by
  have limit : (s.clock t).gnss.stateLimit (at? (s.clock t).gnss.channels i) = 200 * ms := by simp [GnssState.stateLimit, pulls]
  rw [execChannelLock, runRunning_next _ on]
  simp only [← at?_channels]
  rw [if_neg (by simp [pulls]), if_neg (by simp), if_pos (by rwa [limit])]

theorem execLossOfLock_reacquires (tracks : (at? (s.clock t).gnss.channels i).state = 2)
    (first : ∀ j ∈ (s.clock t).gnss.jobs, j.kind ≠ 0) :
    let c := s.clock t
    execLossOfLock t i s = .next { c with
      gnss.channels := upd c.gnss.channels i fun x => { x with state := 3, slip := true, enteredAt := c.now },
      gnss.jobs := { (at? c.gnss.channels i).job with channel := some i.val } :: c.gnss.jobs } := by
  have ahead : (s.clock t).gnss.jobs.takeWhile (·.kind == 0) = [] := by
    cases queue : (s.clock t).gnss.jobs with
    | nil => rfl
    | cons j rest => simpa using first j (by simp [queue])
  rw [execLossOfLock, runRunning_next _ on]
  simp only [← at?_channels]
  rw [if_neg (by simp [tracks]), ahead]
  rfl

theorem execReacqWindowExpiry_frees (lost : (at? (s.clock t).gnss.channels i).state = 3)
    (late : (s.clock t).gnss.reacqWindow.toNat * second ≤ (s.clock t).now - (at? (s.clock t).gnss.channels i).enteredAt) :
    execReacqWindowExpiry t i s = .next ((s.clock t).freeChannel i) := by
  rw [execReacqWindowExpiry, runRunning_next _ on]
  simp only [← at?_channels]
  rw [if_pos (by simp [lost, late])]

end

/-! ## Epochs (R133) -/

/-- An operation that gives channels to signals touches the channels, those that wait for one, and the handovers alone. -/
def Reassigns (s u : State) : Prop :=
  u = { s with gnss.channels := u.gnss.channels, gnss.wanting := u.gnss.wanting, gnss.handovers := u.gnss.handovers }

theorem Reassigns.after {s u v : State} (k : Reassigns u v) (h : Reassigns s u) : Reassigns s v := by
  unfold Reassigns at *
  rw [k, h]

theorem State.assignChannel_reassigns {s : State} {j : SearchJob} : Reassigns s (s.assignChannel j) := by
  unfold State.assignChannel
  split
  · rfl
  · split
    · unfold GnssState.want
      split <;> rfl
    · dsimp only
      unfold GnssState.want
      split
      · rfl
      · split <;> rfl

theorem State.serveWanting_reassigns {n : Nat} {s : State} : Reassigns s (State.serveWanting n s) := by
  induction n generalizing s with
  | zero => rfl
  | succ n ih =>
    unfold State.serveWanting
    split
    · rfl
    next j rest queue =>
      split
      · exact ih.after (State.assignChannel_reassigns.after rfl)
      · rfl

theorem State.startHandovers_reassigns {s : State} : Reassigns s s.startHandovers := by
  unfold State.startHandovers
  generalize s.gnss.channels.toList = channels
  induction channels generalizing s with
  | nil => rfl
  | cons c channels ih =>
    refine ih.after ?_
    dsimp only
    split <;> rfl

theorem State.freeChannels_reassigns {s : State} : Reassigns s s.freeChannels :=
  State.startHandovers_reassigns.after <| State.serveWanting_reassigns.after rfl

/-! ### Entry to SAFE leaves the member its index (R485, R511) -/

theorem State.setRoleCore_memberIndex (s : State) (r cause) : (s.setRoleCore r cause).1.group.memberIndex = s.group.memberIndex := by
  unfold State.setRoleCore
  rw [(State.raiseCore_frame _ _ _ _ _ _ _).group]
  split <;> rfl

theorem State.safeRole_memberIndex (s : State) (bit) : (s.safeRole bit).group.memberIndex = s.group.memberIndex := by
  unfold State.safeRole
  split
  · rfl
  · split
    · rfl
    · split
      · exact State.setRoleCore_memberIndex _ _ _
      · rfl
  · exact State.setRoleCore_memberIndex _ _ _

theorem State.toSafe_group (s : State) (bit) : (s.toSafe bit).group = s.group := by
  unfold State.toSafe
  dsimp only
  split
  · rfl
  · rw [(State.raiseCore_frame _ _ _ _ _ _ _).group, (State.clearOverloads_frame _).group]
    exact ((State.captureHolds_frame _).append (State.leaveTest_frame _)).group

theorem State.enterSafe_memberIndex (s : State) (bit) : (s.enterSafe bit).group.memberIndex = s.group.memberIndex := by
  unfold State.enterSafe
  split
  · rw [State.toSafe_group]
  · rw [State.safeRole_memberIndex, State.toSafe_group]

theorem State.raise_memberIndex (s : State) (n p0 p1 p2 p3 must) :
    (s.raise n p0 p1 p2 p3 must).group.memberIndex = s.group.memberIndex := by
  have core := (State.raiseCore_frame s n p0 p1 p2 p3 must).group
  unfold State.raise
  dsimp only
  split
  · rw [State.enterSafe_memberIndex, core]
  · rw [core]

/-! ### What the parts of an epoch leave alone -/

/-- Time, the receiver and the parts of a report alone are touched, and the member keeps its index. -/
structure InEpoch (s u : State) : Prop where
  frame : FrameBut ([.time, .gnss] ++ reportParts) s u
  memberIndex : u.group.memberIndex = s.group.memberIndex

theorem InEpoch.after {s u v : State} (k : InEpoch u v) (h : InEpoch s u) : InEpoch s v :=
  ⟨h.frame.trans k.frame, k.memberIndex.trans h.memberIndex⟩

theorem InEpoch.set {s : State} {time gnss} : InEpoch s { s with time := time, gnss := gnss } :=
  ⟨((frame_set_time s time).append (frame_set_gnss _ gnss)).mono (by decide), rfl⟩

theorem InEpoch.raise {s : State} {n p0 p1 p2 p3 must} : InEpoch s (s.raise n p0 p1 p2 p3 must) :=
  ⟨(State.raise_frame s n p0 p1 p2 p3 must).mono (by decide), State.raise_memberIndex s n p0 p1 p2 p3 must⟩

theorem InEpoch.of_qcp {s u : State} (h : FrameBut [.qcp] s u) : InEpoch s u := ⟨h.mono (by decide), by rw [h.group]⟩

/-- An epoch's part that also leaves the count of epochs and the last one's instant. -/
structure KeepsEpoch (s u : State) : Prop extends InEpoch s u where
  epochSeq : u.gnss.epochSeq = s.gnss.epochSeq
  lastEpoch : u.gnss.lastEpoch = s.gnss.lastEpoch

namespace KeepsEpoch
variable {s u v : State}

theorem after (k : KeepsEpoch u v) (h : KeepsEpoch s u) : KeepsEpoch s v :=
  ⟨k.toInEpoch.after h.toInEpoch, k.epochSeq.trans h.epochSeq, k.lastEpoch.trans h.lastEpoch⟩

theorem refl : KeepsEpoch s s := ⟨⟨.refl _ _, rfl⟩, rfl, rfl⟩

theorem ite {a b : State} {c : Prop} {_ : Decidable c} (h : KeepsEpoch s a) (k : KeepsEpoch s b) :
    KeepsEpoch s (if c then a else b) := by
  split
  · exact h
  · exact k

theorem set {time gnss} (epochSeq : gnss.epochSeq = s.gnss.epochSeq := by rfl)
    (lastEpoch : gnss.lastEpoch = s.gnss.lastEpoch := by rfl) : KeepsEpoch s { s with time := time, gnss := gnss } :=
  ⟨.set, epochSeq, lastEpoch⟩

theorem of_gnss (h : InEpoch s u) (same : u.gnss = s.gnss) : KeepsEpoch s u := ⟨h, by rw [same], by rw [same]⟩

theorem raise {n p0 p1 p2 p3 must} : KeepsEpoch s (s.raise n p0 p1 p2 p3 must) :=
  .of_gnss .raise (State.raise_frame s n p0 p1 p2 p3 must).gnss

theorem setTb {n f} : KeepsEpoch s (s.setTb n f) := .set

theorem draw : KeepsEpoch s s.draw.2 := .of_gnss ⟨(frame_set_free s _).mono (by decide), rfl⟩ rfl

end KeepsEpoch

theorem Reassigns.keepsEpoch {s u : State} (h : Reassigns s u) : KeepsEpoch s u := by
  unfold Reassigns at h
  rw [h]
  exact .set

theorem State.setBaseState_keepsEpoch {s : State} {n new} : KeepsEpoch s (s.setBaseState n new) :=
  .ite .refl <| .after .raise .setTb

theorem State.tryLock_keepsEpoch {s : State} {n} : KeepsEpoch s (s.tryLock n) :=
  .ite (.after State.setBaseState_keepsEpoch <| .after .setTb .draw) .refl

theorem State.correct_keepsEpoch {s : State} {n off} : KeepsEpoch s (s.correct n off) := by
  have measured : KeepsEpoch s (s.draw.2.setTb n fun b => { b with offset := off, remaining := off }) := .after .setTb .draw
  refine .ite (.after State.tryLock_keepsEpoch <| .after .setTb measured) ?_
  refine .after (.ite .setTb <| .ite (.ite .setTb <| .after .raise .setTb) .setTb) ?_
  exact .ite (.after State.setBaseState_keepsEpoch <| .after .setTb <| .after .setTb measured) <| .after .setTb measured

theorem State.disciplineTb2_keepsEpoch {s : State} {rxtAt bias} : KeepsEpoch s (s.disciplineTb2 rxtAt bias) :=
  .ite (.after (.ite State.correct_keepsEpoch .refl) State.correct_keepsEpoch) .refl

theorem State.setFix_keepsEpoch {s : State} {f} : KeepsEpoch s (s.setFix f) :=
  .ite (.after .raise .set) <| .ite (.after .raise .set) .set

theorem State.solve_keepsEpoch {s : State} {x meas} : KeepsEpoch s (s.solve x meas) :=
  .after .set State.setFix_keepsEpoch

theorem State.moveRxt_keepsEpoch {s : State} {bias} : KeepsEpoch s (s.moveRxt bias) :=
  .ite .set <| .ite .set .refl

theorem State.takeUtc_keepsEpoch {s : State} {u} : KeepsEpoch s (s.takeUtc u) := by
  unfold State.takeUtc
  dsimp only
  split
  · exact .set
  · exact .ite .set .set

theorem State.sendRaw_keepsEpoch {s : State} {e} : KeepsEpoch s (s.sendRaw e) := by
  have sent : FrameBut [.qcp] s (s.sendRaw e) :=
    (FrameBut.foldl (fun _ _ => .ite (.refl _ _) <| .foldl (fun _ _ => State.pushTele_frame _ _ _ _ _) _ _) _ s).trans
      (frame_set_qcp _ _)
  exact .of_gnss (.of_qcp sent) sent.gnss

/-! ### GNSS_EPOCH -/

/-- The receiver's part of an epoch counts it, and notes the RXT it was measured on. -/
theorem State.takeEpoch_counts (s : State) (x : EpochInput) :
    let u := (s.takeEpoch x).1
    InEpoch s u ∧ u.gnss.epochSeq = (s.gnss.epochSeq + 1) % 2 ^ 32 ∧ u.gnss.lastEpoch = some s.gnss.rxt := by
  have freed : Reassigns (s.takeData x) (s.takeData x).freeChannels := State.freeChannels_reassigns
  have rxt : (s.takeData x).freeChannels.gnss.rxt = s.gnss.rxt := by rw [freed]; rfl
  have solved (meas) : KeepsEpoch s (((s.takeData x).freeChannels.seeMeasurements meas).solve x meas) :=
    .after State.solve_keepsEpoch <| .after .set <| .after freed.keepsEpoch .set
  have finished (w : State) : KeepsEpoch w (State.takeUtc (if w.gnss.fixType == 0 then w else w.moveRxt x.pvt.clockBias) x.utc) :=
    .after State.takeUtc_keepsEpoch <| .ite .refl State.moveRxt_keepsEpoch
  exact ⟨(finished _).toInEpoch.after <| .after .set (solved _).toInEpoch,
    (finished _).epochSeq.trans (congrArg (fun n => (n + 1) % 2 ^ 32) (solved _).epochSeq),
    (finished _).lastEpoch.trans (congrArg some rxt)⟩

theorem InEpoch.antPoints {s u : State} (h : InEpoch s u) : u.antPoints = s.antPoints := by
  unfold State.antPoints State.me
  rw [h.memberIndex, h.frame.image]

/-- Without a sample to deliver a released cycle is left alone. -/
theorem State.arriveEpoch_nil {s : State} (done : s.cycle.released = true) : s.arriveEpoch [] = s := by
  simp [State.arriveEpoch, State.offerAll, State.tryRelease_released, done]

theorem execGnssEpoch_counts {s : State} {t : Nat} {x : EpochInput} (on : Running s) (due : (s.clock t).epochDue = true)
    (unused : (s.clock t).antPoints = []) (done : (s.clock t).cycle.released = true) :
    let c := s.clock t
    ∃ u, execGnssEpoch t x s = .next u ∧ u.gnss.epochSeq = (c.gnss.epochSeq + 1) % 2 ^ 32 ∧ u.gnss.lastEpoch = some c.gnss.rxt ∧
      FrameBut ([.time, .gnss] ++ reportParts) c u := by
  intro c
  rw [execGnssEpoch, runRunning_next _ on]
  dsimp only
  rw [if_neg (by simp [due])]
  obtain ⟨took, counts, notes⟩ := c.takeEpoch_counts x
  generalize c.takeEpoch x = p at took counts notes
  obtain ⟨v, e, fits⟩ := p
  have sent : KeepsEpoch v ((v.disciplineTb2 e.rxt x.pvt.clockBias).sendRaw e) :=
    State.sendRaw_keepsEpoch.after State.disciplineTb2_keepsEpoch
  generalize (v.disciplineTb2 e.rxt x.pvt.clockBias).sendRaw e = w at sent
  have there := sent.toInEpoch.after took
  have delivered : KeepsEpoch w (if !fits then w.raise 30 else w.arriveEpoch (w.antPoints.map fun p =>
      { point := p, member := w.me, stamp := e.tb3, val := .epoch e w.gnss.pvt w.gnss.heading })) := by
    rw [there.antPoints, unused, List.map_nil, State.arriveEpoch_nil (by rw [there.frame.cycle]; exact done)]
    exact .ite .raise .refl
  have all := delivered.after sent
  exact ⟨_, rfl, all.epochSeq.trans counts, all.lastEpoch.trans notes, (all.toInEpoch.after took).frame⟩

/-! ## Interference (R147-R151) -/

/-- A notch that is not active stays as it is. -/
theorem moveNotch_inactive {f : FrontEnd} {peaks : List Peak} {now : Nat} {n : Notch} (idle : n.active = false) :
    moveNotch f peaks now n = n := by
  simp [moveNotch, idle]

/-- A peak inside the window takes the first notch of a front end that uses none. -/
theorem State.newPeak_first {s : State} {f : Fin 4} {p : Peak} {known : Bool}
    (idle : ∀ n ∈ (at? s.gnss.frontEnds f).notches.toList, n.active = false)
    (above : (at? s.gnss.frontEnds f).lo ≤ p.centre) (below : p.centre ≤ (at? s.gnss.frontEnds f).hi)
    (allowed : 0 < (at? s.gnss.frontEnds f).notchMax.toNat) :
    s.newPeak f known p = { s with gnss.frontEnds := upd s.gnss.frontEnds f fun q => { q with notches := upd q.notches 0 fun _ =>
      { active := true, centre := p.centre, peakAt := p.centre, depth := BitVec.ofNat 6 (min 40 (p.level - 3)) } } } := by
  have unused : (at? s.gnss.frontEnds f).notches.toList.filter (·.active) = [] := by simpa using idle
  have first : (at? s.gnss.frontEnds f).notches.toList.findIdx? (!·.active) = some 0 := by
    rw [List.findIdx?_eq_some_iff_getElem]
    exact ⟨by simp, by rw [idle _ (List.getElem_mem _)]; rfl, fun j h => absurd h (Nat.not_lt_zero j)⟩
  simp [State.newPeak, unused, first, above, below, allowed]

/-- A vector read off its own list is as it was. -/
theorem mapIdx_getElem?_toList {α : Type} {k : Nat} (v : Vector α k) : v.mapIdx (fun i n => (v.toList[i]?).getD n) = v := by
  apply Vector.ext
  intro i inside
  simp [inside]

theorem eq_of_mem_zipIdx_zip_self {α : Type} {l : List α} {x : (α × α) × Nat} (h : x ∈ (l.zip l).zipIdx) : x.1.1 = x.1.2 := by
  obtain ⟨left, right⟩ := List.getElem?_zip_eq_some.mp (List.mem_zipIdx_iff_getElem?.mp h)
  exact Option.some.inj (left.symm.trans right)

/-- LIMIT is raised for a notch that comes to a limit (R149): for none while none has changed. -/
theorem foldl_limits_unmoved (s : State) (notches : List Notch) (limit : State → (Notch × Notch) × Nat → State)
    (low high : (Notch × Notch) × Nat → Bool) :
    ((notches.zip notches).zipIdx.foldl (fun u x =>
      if x.1.1.atLimit && !x.1.2.atLimit && low x && high x then limit u x else u) s) = s :=
  List.foldlRecOn _ _ (motive := (· = s)) rfl fun u same x h => by
    rw [if_neg (by simp [eq_of_mem_zipIdx_zip_self h]), same]

theorem execNotchSpectrum_takes {s : State} {t : Nat} {f : Fin 4} {p : Peak} (on : Running s) (fitted : s.factory.optG = true)
    (idle : ∀ n ∈ (at? (s.clock t).gnss.frontEnds f).notches.toList, n.active = false)
    (strong : (at? (s.clock t).gnss.frontEnds f).notchThreshold.toNat ≤ p.level)
    (above : (at? (s.clock t).gnss.frontEnds f).lo ≤ p.centre) (below : p.centre ≤ (at? (s.clock t).gnss.frontEnds f).hi)
    (allowed : 0 < (at? (s.clock t).gnss.frontEnds f).notchMax.toNat) :
    let c := s.clock t
    execNotchSpectrum t f [p] s = .next { c with gnss.frontEnds := upd c.gnss.frontEnds f fun q =>
        { q with refused := [], notches := upd q.notches 0 fun _ =>
            { active := true, centre := p.centre, peakAt := p.centre, depth := BitVec.ofNat 6 (min 40 (p.level - 3)) } } } := by
  intro c
  have still : (at? c.gnss.frontEnds f).notches.toList.map (moveNotch (at? c.gnss.frontEnds f) [p] c.now) =
      (at? c.gnss.frontEnds f).notches.toList :=
    (List.map_congr_left fun n h => moveNotch_inactive (idle n h)).trans (List.map_id _)
  have unused : (at? c.gnss.frontEnds f).notches.toList.filter (·.active) = [] := by simpa using idle
  have kept : upd c.gnss.frontEnds f (fun q =>
        { q with notches := q.notches.mapIdx fun i n => ((at? c.gnss.frontEnds f).notches.toList[i]?).getD n, refused := [] }) =
      upd c.gnss.frontEnds f fun q => { q with refused := [] } :=
    upd_congr _ _ _ _ fun inside => by rw [at?_eq _ _ inside, mapIdx_getElem?_toList]
  rw [execNotchSpectrum, runRunning_next _ on]
  simp only [← at?_frontEnds]
  rw [if_neg (by simp [State.clock_optG, fitted]), still, unused, kept, foldl_limits_unmoved]
  have fresh : (([p].filter fun q => decide ((at? (s.clock t).gnss.frontEnds f).notchThreshold.toNat ≤ q.level) &&
      !([] : List Peak).contains q).foldr insertPeak []) = [p] := by simp [strong, insertPeak]
  rw [List.filterMap_nil, fresh, List.foldl_cons, List.foldl_nil, State.newPeak_first]
  · simp [c]
  · simpa using idle
  · simpa [FrontEnd.lo] using above
  · simpa [FrontEnd.hi] using below
  · simpa using allowed

/-! ## Jamming (R150, R151) -/

/-- J has risen to the threshold. -/
def FrontEnd.jamRises (q : FrontEnd) (j : Nat) : Bool :=
  decide (q.jamThreshold.toNat ≠ 0) && !q.jamHigh && decide (q.jamThreshold.toNat ≤ j)

/-- J has fallen below the threshold less 10. -/
def FrontEnd.jamFalls (q : FrontEnd) (j : Nat) : Bool :=
  decide (q.jamThreshold.toNat ≠ 0) && q.jamHigh && decide (j + 10 < q.jamThreshold.toNat)

section
variable {s : State} {t : Nat} {f : Fin 4} {w : F32} (on : Running s) (fitted : s.factory.optG = true)
include on fitted

/-- A front end takes J, and its source reports a rise or a fall. -/
theorem execJamUpdate_judges :
    let c := s.clock t
    let q := at? c.gnss.frontEnds f
    let j := jamIndex w c.factory.jamP0[f]
    let v : State := { c with gnss.frontEnds := upd c.gnss.frontEnds f fun x =>
      { x with jam := j, jamHigh := (x.jamHigh || q.jamRises j) && !q.jamFalls j } }
    execJamUpdate t f w s = .next
      (if q.jamRises j then v.raiseN (26 + f) (j + 256) else if q.jamFalls j then v.raiseN (26 + f) j else v) := by
  intro c q j v
  rw [execJamUpdate, runRunning_next _ on]
  simp only [← at?_frontEnds]
  rw [if_neg (by simp [State.clock_optG, fitted])]
  rfl

theorem execJamUpdate_rises (armed : (at? (s.clock t).gnss.frontEnds f).jamThreshold ≠ 0)
    (low : (at? (s.clock t).gnss.frontEnds f).jamHigh = false)
    (reached : (at? (s.clock t).gnss.frontEnds f).jamThreshold.toNat ≤ jamIndex w (s.clock t).factory.jamP0[f]) :
    let c := s.clock t
    let j := jamIndex w c.factory.jamP0[f]
    execJamUpdate t f w s = .next (State.raiseN { c with
      gnss.frontEnds := upd c.gnss.frontEnds f fun q => { q with jam := j, jamHigh := true } } (26 + f.val) (j + 256)) := by
  intro c j
  have nonzero : (at? c.gnss.frontEnds f).jamThreshold.toNat ≠ 0 := fun h => armed (BitVec.eq_of_toNat_eq h)
  have rise : (at? c.gnss.frontEnds f).jamRises j = true := by simpa [FrontEnd.jamRises, c, j, nonzero, low] using reached
  have noFall : (at? c.gnss.frontEnds f).jamFalls j = false := by simp [FrontEnd.jamFalls, c, low]
  rw [execJamUpdate_judges on fitted, rise, noFall]
  simp [c, j]

theorem execJamUpdate_stays (high : (at? (s.clock t).gnss.frontEnds f).jamHigh = true)
    (near : (at? (s.clock t).gnss.frontEnds f).jamThreshold.toNat ≤ jamIndex w (s.clock t).factory.jamP0[f] + 10) :
    let c := s.clock t
    let j := jamIndex w c.factory.jamP0[f]
    execJamUpdate t f w s = .next { c with
      gnss.frontEnds := upd c.gnss.frontEnds f fun q => { q with jam := j, jamHigh := true } } := by
  intro c j
  have noRise : (at? c.gnss.frontEnds f).jamRises j = false := by simp [FrontEnd.jamRises, c, high]
  have noFall : (at? c.gnss.frontEnds f).jamFalls j = false := by simpa [FrontEnd.jamFalls, c, j, high] using fun _ => near
  have stays : upd c.gnss.frontEnds f (fun q => { q with jam := j, jamHigh := (q.jamHigh || false) && !false }) =
      upd c.gnss.frontEnds f fun q => { q with jam := j, jamHigh := true } :=
    upd_congr _ _ _ _ fun inside => by rw [← at?_eq _ _ inside, high]; rfl
  rw [execJamUpdate_judges on fitted, noRise, noFall, stays]
  simp [c, j]

end

/-! ## Antenna supplies (R131) -/

/-- A supply that takes another STATUS reports it, and shows the current that still flows. -/
theorem State.setSupply_changes {s : State} {a : Fin 2} {status : BitVec 2} {current shown : BitVec 16}
    (change : (at? s.gnss.supplies a).status ≠ status)
    (shows : (if status == 0 || status == 3 then 0 else BitVec.ofNat 16 (min 150 current.toNat)) = shown) :
    s.setSupply a status current = State.raise
      { s with gnss.supplies := upd s.gnss.supplies a fun x => { x with status := status, current := shown } }
      31 (some (Config.antSupplyParam a status.toNat)) := by
  subst shows
  unfold State.setSupply
  dsimp only
  rw [if_neg (by simpa using change)]

/-- CURRENT shows up to 150 mA (R131). -/
theorem min_current_eq {i : BitVec 16} (within : i.toNat ≤ 150) : BitVec.ofNat 16 (min 150 i.toNat) = i := by
  rw [Nat.min_eq_right within, BitVec.ofNat_toNat, BitVec.setWidth_eq]

section
variable {s : State} {t : Nat} {a : Fin 2} {i : BitVec 16} (on : Powered s) (fitted : s.factory.optG = true)
  (en : (at? (s.clock t).gnss.supplies a).en = true)
include on fitted en

theorem execAntSupplyShort_switchesOff (notShort : (at? (s.clock t).gnss.supplies a).status ≠ 3) (above : 100 < i.toNat)
    (long : 10 * ms ≤ (s.clock t).now - (at? (s.clock t).gnss.supplies a).switchedAt) :
    execAntSupplyShort t a i s = .next (((s.clock t).setSupply a 3 i).supplySwitched a) := by
  rw [execAntSupplyShort, runPowered_next _ on]
  simp only [← at?_supplies]
  rw [if_pos (by simpa [State.clock_optG, fitted, en, above, long] using notShort)]

theorem execAntSupplyRetry_measures (short : (at? (s.clock t).gnss.supplies a).status = 3)
    (long : second ≤ (s.clock t).now - (at? (s.clock t).gnss.supplies a).switchedAt) :
    execAntSupplyRetry t a i s = .next (((s.clock t).setSupply a (supplyStatus i) i).supplySwitched a) := by
  rw [execAntSupplyRetry, runPowered_next _ on]
  simp only [← at?_supplies]
  rw [if_pos (by simp [State.clock_optG, fitted, en, short, long])]

theorem execAntSupplyOpen_opens (notShort : (at? (s.clock t).gnss.supplies a).status ≠ 3) (below : i.toNat < 5) :
    execAntSupplyOpen t a i s = .next ((s.clock t).setSupply a 2 i) := by
  rw [execAntSupplyOpen, runPowered_next _ on]
  simp only [← at?_supplies]
  rw [if_pos (by simpa [State.clock_optG, fitted, en] using notShort), if_pos below]

end

/-! ## GNB_RESTART (R161) -/

theorem State.gnbRestart_one (s : State) : s.gnbRestart 1 = { s with
    gnss.ephemerides := [], gnss.jobs := s.gnss.jobs.filter (·.kind == 0), gnss.predictions := [],
    gnss.engines := s.gnss.engines.map fun e => e.filter (·.kind == 0) } := by
  have reacquires : (fun e : Option SearchJob => match e with | some j => if j.kind == 0 then e else none | none => none) =
      fun e => e.filter (·.kind == 0) := by
    funext e
    cases e with
    | none => rfl
    | some j => simp [Option.filter]
  unfold State.gnbRestart
  rw [if_pos rfl]
  exact congrArg (fun f => ({ s with gnss.ephemerides := [], gnss.jobs := s.gnss.jobs.filter (·.kind == 0), gnss.predictions := [],
                                     gnss.engines := s.gnss.engines.map f } : State)) reacquires

/-- The write of 1 to GNB_RESTART, outside the positioning modes. -/
theorem State.gnbWrite_restart {w : State} {c : WriteCtx} (fitted : w.factory.optG = true) (host : c.load = false)
    (allowed : w.modes.mode.positioning = false) : w.gnbWrite c 0 5 [1] = done (w.gnbRestart 1) := by
  simp [State.gnbWrite, fitted, WriteCtx.notPositioning, WriteCtx.mode, host, allowed, checkValue, beVal]

/-- Settles O13: each clause is the lemma about one command, with what the operation it runs does to a channel, a notch or a supply
(`State.assignChannel_free`, `State.freeChannel_unwanted`, `State.setSupply_changes`, `State.gnbRestart_one`). -/
theorem theReceiverTracks : Obligations.TheReceiverTracks := by
  unfold Obligations.TheReceiverTracks
  simp only [← at?_channels, ← at?_frontEnds, ← at?_supplies]
  refine ⟨fun s t on fitted => ⟨fun e j v busy first known => ?detects,
      fun e j next rest i v busy second search queue unwanted known new up free => ?confirms, fun e j busy more => ?misses,
      fun j rest waits again => ?handsOver, fun j rest waits last noJobs => ?searches, fun i seeks lower inTime => ?locks,
      fun i pulls late unwanted => ?givesUp, fun i tracks first => ?loses, fun i lost late unwanted => ?frees⟩,
    fun s t on fitted => ⟨fun x due unused done => ?epoch, fun f p idle strong above below allowed => ?notch,
      fun f w armed low reached => ?jams, fun f w high near => ?jamStays, fun a i en ok above long => ?short,
      fun a i en short enough within long => ?retry, fun a i en ok below => ?opens, fun req ready allowed => ?restart⟩⟩
  case detects =>
    exact execSearchPassDone_detects on fitted busy first (by rwa [SearchJob.shown_system, SearchJob.shown_sv])
  case confirms =>
    exact execSearchPassDone_assigns on fitted busy second search known queue unwanted new up free
  case misses => exact execSearchPassDone_misses on fitted busy more
  case handsOver => exact execHandoverDone_fails on waits again
  case searches => exact execHandoverDone_searches on waits last noJobs
  case locks => exact execChannelLock_locks on seeks lower inTime
  case givesUp => exact (execChannelLock_frees on pulls late).trans (congrArg _ (State.freeChannel_unwanted _ unwanted))
  case loses => exact execLossOfLock_reacquires on tracks first
  case frees => exact (execReacqWindowExpiry_frees on lost late).trans (congrArg _ (State.freeChannel_unwanted _ unwanted))
  case epoch => exact execGnssEpoch_counts on due unused done
  case notch => exact execNotchSpectrum_takes on fitted idle strong above below allowed
  case jams => exact execJamUpdate_rises on fitted armed low reached
  case jamStays => exact execJamUpdate_stays on fitted high near
  case short =>
    refine (execAntSupplyShort_switchesOff on.powered fitted en (by rw [ok]; decide) above long).trans ?_
    rw [State.setSupply_changes (by rw [ok]; decide) rfl]
    rfl
  case retry =>
    refine (execAntSupplyRetry_measures on.powered fitted en short long).trans ?_
    have answers : supplyStatus i = 1 := by simp [supplyStatus, Nat.not_lt.mpr within, Nat.not_lt.mpr enough]
    rw [answers, State.setSupply_changes (status := 1) (by rw [short]; decide) (min_current_eq (within.trans (by decide)))]
    rfl
  case opens =>
    refine (execAntSupplyOpen_opens on.powered fitted en (by rw [ok]; decide) below).trans ?_
    rw [State.setSupply_changes (status := 2) (by rw [ok]; decide) (min_current_eq (i := i) (by omega))]
    rfl
  case restart =>
    have frame := State.atWrite_frame ready
    refine (hostWrite_done ready (State.gnbWrite_restart ?_ rfl ?_)).trans ?_
    · rw [frame.factory]; exact fitted
    · rw [frame.modes]; exact allowed
    · rw [State.gnbRestart_one]

end Sys2Proof.Machine
end

section
/-! Analog acquisition (spec/05_analog_acquisition.md): an output of a channel without a point (R169, R176, R177, R181), and the writes
to the user layer and to the DC block (R178, R179, R182, R186). -/

namespace Sys2Proof.Machine

theorem at?_ain (s : State) (ch : Fin 24) : at? s.ain.channels ch = s.ain.channels[ch] := at?_eq _ _ ch.isLt

/-! ## Telemetry of an output (R577, R581) -/

theorem State.sendAi_frame (s : State) (handle) : FrameBut [.qcp] s (s.sendAi handle) := by
  unfold State.sendAi
  split
  · exact .refl _ _
  · exact (frame_set_qcp s _).trans (State.pushTele_frame _ _ _ _ _)

theorem State.flushAi_frame (s : State) : FrameBut [.qcp] s s.flushAi := .foldl (fun s _ => s.sendAi_frame _) _ s

theorem State.streamAi_frame (s : State) (ch r) : FrameBut [.qcp] s (s.streamAi ch r) :=
  .foldl (fun s _ => .ite (.refl _ _) <| .ite (frame_set_qcp s _) <| .ite
    ((frame_set_qcp s _).trans <| (frame_set_qcp _ _).trans <| State.sendAi_frame _ _) ((frame_set_qcp s _).trans <| frame_set_qcp _ _)) _ s

/-! ## AI_OUTPUT (R169, R176, R177, R181) -/

/-- The time a chain of a channel takes: the delay of its filters and the factory delay of its range (R169). -/
def State.outputDelay (s : State) (ch : Nat) : Int :=
  let x := at? s.ain.channels ch
  chainDelay x.rate.toNat x.scs + F32.nearest (s.rangeCal ch x.range).delay

/-- One output of an AI chain: what the modulator stream leaves in the chain, and the code it gives. -/
def AinChannel.output (x : AinChannel) (stream : List Bool) : Int × AinChain :=
  x.chain.output (cicRatio x.rate.toNat x.scs) x.scs stream

/-- A channel with its DC block off delivers what it is given. -/
theorem AinChannel.dcBlock_off {x : AinChannel} (off : x.dcEn = false) (v : F32) (flagged : Bool) :
    x.dcBlock v flagged = (v, false, x) := by
  simp [AinChannel.dcBlock, off]

/-- A whole output of an AI channel that carries no point changes the channel's entry, and goes to the subscriptions alone. -/
theorem State.aiOutput_stores {s : State} {ch : Nat} {stream : List Bool} (ai : ch < 16)
    (noPoint : (at? s.ain.channels ch).active = false) (dcOff : (at? s.ain.channels ch).dcEn = false)
    (whole : stream.length = samplesPerOutput (at? s.ain.channels ch).rate.toNat (at? s.ain.channels ch).scs) :
    let x := at? s.ain.channels ch
    let o := x.output stream
    ∃ y r, s.aiOutput ch stream = ((s.setAin ch fun _ => y).streamAi ch r).flushAi ∧
      y.outputs = x.outputs + 1 ∧
      y.stamp = ((s.tb3 : Int) - s.outputDelay ch).toNat ∧
      y.stamp0 = ((s.now : Int) - s.outputDelay ch).toNat ∧
      y.value = (userValue x.activeCal (factoryValue (s.rangeCal ch x.range) s.deltaT o.1)).1 ∧
      y.chain = o.2 := by
  have notAux : decide (16 ≤ ch) = false := by simpa using ai
  unfold State.aiOutput
  simp only [notAux, Bool.false_or, Bool.not_false, Bool.true_or, Bool.not_true, Bool.or_false, Bool.false_eq_true, if_false, whole,
    AinChannel.dcBlock_off dcOff, noPoint, Nat.add_zero, ne_eq, not_true, decide_false, if_neg (show ¬ ch = 23 by omega)]
  exact ⟨_, _, rfl, rfl, rfl, rfl, rfl, rfl⟩

/-! ## The user layer and the DC block (R178, R179, R182, R186) -/

section
variable {w : State} {c : WriteCtx} {ch : Fin 16}

theorem State.ainWrite_userControl (b : Byte) : w.ainWrite c ch 0x13 [b] = w.userCommit c ch b.toNat := by
  have ai := ch.isLt
  simp [State.ainWrite, checkValue, beVal, show ¬ 0x18 ≤ ch.val by omega, show ¬ 0x10 ≤ ch.val by omega]

theorem State.ainWrite_dcControl {n : Nat} (bits : n < 4) : w.ainWrite c ch 3 (nat32 n) = w.dcControl ch n := by
  have ai := ch.isLt
  have value : beVal (nat32 n) = n := by simp [nat32]; omega
  simp [State.ainWrite, checkValue, value, show ¬ 0x18 ≤ ch.val by omega, show ¬ 0x10 ≤ ch.val by omega]

/-- A staged copy in order is committed in one piece, outside the positioning modes. -/
theorem State.userCommit_commits (host : c.load = false) (allowed : w.modes.mode.positioning = false)
    (inOrder : (at? w.ain.channels ch).staged.committable = true) :
    w.userCommit c ch 1 = done (w.setAin ch fun x => { x with activeCal := x.staged }) := by
  simp [State.userCommit, checkValue, WriteCtx.mode, host, allowed, inOrder]

/-- DC_CONTROL of a channel with a DC block: bit 0 freezes it, bit 1 presets it. -/
theorem State.dcControl_fitted {n : Nat} (bits : n < 4) (fitted : (at? w.ain.channels ch).dcEn = true) :
    w.dcControl ch n = done (w.setAin ch fun x => { x with freeze := bitOf n 0, preset := x.preset || bitOf n 1 }) := by
  simp [State.dcControl, checkValue, bits, fitted]

theorem State.ainWrite_preset (f : Bool) (fitted : (at? w.ain.channels ch).dcEn = true) :
    w.ainWrite c ch 3 (nat32 (2 + if f then 1 else 0)) = done (w.setAin ch fun x => { x with freeze := f, preset := true }) := by
  have bits : (2 + if f then 1 else 0) < 4 := by cases f <;> decide
  rw [State.ainWrite_dcControl bits, State.dcControl_fitted bits fitted]
  cases f <;> simp [bitOf, Nat.testBit]

theorem State.ainWrite_freeze (f : Bool) (fitted : (at? w.ain.channels ch).dcEn = true) :
    w.ainWrite c ch 3 (nat32 (if f then 1 else 0)) = done (w.setAin ch fun x => { x with freeze := f }) := by
  have bits : (if f then 1 else 0) < 4 := by cases f <;> decide
  rw [State.ainWrite_dcControl bits, State.dcControl_fitted bits fitted]
  cases f <;> simp [bitOf, Nat.testBit]

end

/-- Settles O14: an output is stored by `State.aiOutput_stores`, and its telemetry leaves all but QCP alone; each write is the lemma about
the object it writes. -/
theorem analogChannelsStampAndScale : Obligations.AnalogChannelsStampAndScale := by
  unfold Obligations.AnalogChannelsStampAndScale
  refine ⟨fun s t ch stream on => ?output, fun s t req ch => ⟨fun ready allowed inOrder => ?commit, fun ready => ?discard,
    fun f ready fitted => ?preset, fun f ready fitted => ?freeze⟩⟩
  case output =>
    simp only [← at?_ain]
    intro ai noPoint dcOff whole
    obtain ⟨y, r, eq, outputs, stamp, stamp0, value, chain⟩ := State.aiOutput_stores ai noPoint dcOff whole
    have told : FrameBut [.qcp] ((s.clock t).setAin ch fun _ => y) ((s.clock t).aiOutput ch stream) :=
      eq ▸ (State.streamAi_frame _ _ _).trans (State.flushAi_frame _)
    have here : at? ((s.clock t).aiOutput ch stream).ain.channels ch = y := by
      rw [told.ain, State.setAin_ain_channels, at?_upd_self _ _ _ ch.isLt]
    have others (n : Fin 24) (other : n ≠ ch) :
        at? ((s.clock t).aiOutput ch stream).ain.channels n = at? (s.clock t).ain.channels n := by
      rw [told.ain, State.setAin_ain_channels, at?_upd_ne _ _ _ _ (Fin.val_ne_of_ne other.symm)]
    have ran : execAiOutput t ch stream s = .next ((s.clock t).aiOutput ch stream) := runPowered_next _ on
    refine ⟨_, ran, ?_⟩
    rw [here]
    exact ⟨outputs, stamp, stamp0, value, chain, others, ((frame_set_ain _ _).mono (by decide)).trans (told.mono (by decide))⟩
  case commit =>
    have frame := State.atWrite_frame ready
    rw [← frame.modes] at allowed
    rw [← frame.ain] at inOrder
    exact hostWrite_done ready ((State.ainWrite_userControl 1).trans (State.userCommit_commits rfl allowed inOrder))
  case discard => exact hostWrite_done ready (State.ainWrite_userControl 2)
  case preset =>
    rw [← (State.atWrite_frame ready).ain] at fitted
    exact hostWrite_done ready (State.ainWrite_preset f fitted)
  case freeze =>
    rw [← (State.atWrite_frame ready).ain] at fitted
    exact hostWrite_done ready (State.ainWrite_freeze f fitted)

end Sys2Proof.Machine
end

section
/-! References and fusion (spec/06_reference_fusion.md): what becomes of a reference at its time-out, its quarantine, its admission and
its return (R216, R220, R222, R223), dead reckoning (spec/07_vessel_observer.md, R266), and the group writes that name a reference
(R223, R231, R235, R239; spec/14_group_redundancy.md, R495). -/

namespace Sys2Proof.Machine

/-! ## A reference changes its state (R216, R220, R222, R223) -/

/-- ADMITTING, ACTIVE or SUSPECT: the states in which REF_TIMEOUT runs (R216). -/
theorem RefState.timeoutRuns {q : RefState} (live : q.state = 1 ∨ q.state = 2 ∨ q.state = 3) :
    (q.state == 1 || q.state == 2 || q.state == 3) = true := by
  obtain is | is | is := live <;> simp [is]

section
variable {s : State} {t : Nat} {r : Fin 24} {q : RefState} (on : Running s) (ref : (s.clock t).fusion.refs[r] = q)
include on ref

theorem execRefTimeoutExpiry_stale (fitted : ((s.clock t).refSlice r).isSome = true)
    (live : q.state = 1 ∨ q.state = 2 ∨ q.state = 3) (due : q.lastValidAt + (s.clock t).refTimeout r ≤ (s.clock t).tb3) :
    execRefTimeoutExpiry t r s = .next ((s.clock t).setRef r fun x =>
      { x with state := 5, cause := 0, consec := 0, admitSum := (0, 0), admission := none }) := by
  simp only [execRefTimeoutExpiry, runRunning_next _ on, ref, fitted, RefState.timeoutRuns live, due, decide_true, Bool.and_self, if_true]

theorem execRefQuarantined_quarantines (suspect : q.state = 3) (long : (s.clock t).fusion.quarantineCount ≤ q.consec) :
    execRefQuarantined t r s =
      .next (((s.clock t).setRef r fun x => { x with state := 4, cause := 1, consec := 0 }).raise 34) := by
  simp only [execRefQuarantined, runRunning_next _ on, ref, suspect, long, decide_true, BEq.rfl, Bool.and_self, if_true]

/-- An admission that has found its offset makes the reference ACTIVE; whether it takes the offset is a matter of its principle. -/
theorem execRefAdmitted_active {o : F64 × F64} (found : q.admission = some o) (admitting : q.state = 1) :
    let u := (s.clock t).setRef r fun x => { x with state := 2, cause := 0, consec := 0, admitSum := (0, 0), admission := none }
    execRefAdmitted t r s =
      .next (if (s.clock t).relative r then u.setRefCfg r fun x => { x with offset := o } else u) := by
  simp only [execRefAdmitted, runRunning_next _ on, ref, found, admitting, bne_self_eq_false, Bool.false_eq_true, if_false]
  rfl

theorem execAutoReadmit_returns (quarantined : q.state = 4) (outlier : q.cause = 1) (auto : (s.clock t).fusion.autoReadmit = true)
    (long : (s.clock t).fusion.readmitCount ≤ q.consec) :
    execAutoReadmit t r s =
      .next (((s.clock t).setRef r fun x => { x with state := 2, cause := 0, consec := 0 }).raise 35) := by
  simp only [execAutoReadmit, runRunning_next _ on, ref, quarantined, outlier, auto, long, decide_true, BEq.rfl, Bool.and_self, if_true]

end

/-! ## Dead reckoning (R266) -/

theorem State.beginDr_position {w : State} (first : w.obs.posDr = false) :
    w.beginDr false = State.raiseN { w with obs.posDr := true } 37 1 := by
  simp [State.beginDr, first]

/-- The report that dead reckoning of the position begins does not bring that of the heading nearer: it leaves the observer and the time
bases alone. -/
theorem execDrDelayExpiry_position {s : State} {t : Nat} (on : Running s) (runs : (s.clock t).obs.state ≠ 0)
    (first : (s.clock t).obs.posDr = false)
    (lost : (s.clock t).obs.lastPosAt + (s.clock t).obsParams.drDelay * ms ≤ (s.clock t).tb3)
    (kept : (s.clock t).tb3 < (s.clock t).obs.lastHdgAt + (s.clock t).obsParams.drDelay * ms) :
    execDrDelayExpiry t s = .next (State.raiseN { s.clock t with obs.posDr := true } 37 1) := by
  have told : FrameBut reportParts { s.clock t with obs.posDr := true } (State.raiseN { s.clock t with obs.posDr := true } 37 1) :=
    State.raise_frame _ _ _ _ _ _ _
  have heading : (State.raiseN { s.clock t with obs.posDr := true } 37 1).obs.lastHdgAt = (s.clock t).obs.lastHdgAt := by
    rw [told.obs]
  have time : (State.raiseN { s.clock t with obs.posDr := true } 37 1).tb3 = (s.clock t).tb3 := by
    rw [State.tb3, told.time]; rfl
  simp only [execDrDelayExpiry, runRunning_next _ on, bne_iff_ne.mpr runs, lost, decide_true, Bool.and_self, if_true,
    State.beginDr_position first, heading, time, Nat.not_le.mpr kept, decide_false, Bool.and_false, Bool.false_eq_true, if_false]

/-! ## What a reference's write is judged by (R223, R231, R235, R239) -/

section
variable {s : State}

/-- The judgement rests on the loaded image and on the state of fusion. -/
theorem State.fusionJudge_congr {u : State} (image : u.image = s.image) (fusion : u.fusion = s.fusion) (inst num v) :
    u.fusionJudge inst num v = s.fusionJudge inst num v := by
  calc u.fusionJudge inst num v
    _ = State.fusionJudge { s with image := u.image, fusion := u.fusion } inst num v := rfl
    _ = s.fusionJudge inst num v := by rw [image, fusion]

theorem State.fusionJudge_readmit {i : Byte} {r : Nat} (names : refOfInst i.toNat = some r) (fitted : (s.refSlice r).isSome = true)
    (quarantined : (at? s.fusion.refs r).state = 4) : s.fusionJudge 0 0x104 [i] = .ok := by
  have value : beVal [i] = i.toNat := beVal_be8 i
  simp [State.fusionJudge, State.fusionWideJudge, okIf, value, names, fitted, quarantined]

section
variable {inst r : Nat} (names : refOfInst inst = some r)
include names

theorem State.fusionJudge_ref {num : Nat} (low : num < 0x100) (v) : s.fusionJudge inst num v = s.refJudge r num v := by
  rw [State.fusionJudge, if_neg (by omega), names]

theorem State.fusionJudge_enable {e : Byte} (fitted : (s.refSlice r).isSome = true) (bit : e.toNat ≤ 1) :
    s.fusionJudge inst 4 [e] = .ok := by
  obtain ⟨x, held⟩ := Option.isSome_iff_exists.mp fitted
  have value : beVal [e] = e.toNat := beVal_be8 e
  rw [State.fusionJudge_ref names (by decide)]
  simp [State.refJudge, State.refObject, held, okIf, natIn, value, bit]

variable (pose : r < 16)
include pose

theorem State.fusionJudge_refine {n : Nat} (fitted : (s.refSlice r).isSome = true) (bits : n < 4) :
    s.fusionJudge inst 9 (nat8 n) = .ok := by
  obtain ⟨x, held⟩ := Option.isSome_iff_exists.mp fitted
  have value : beVal (nat8 n) = n := by simp [nat8]; omega
  rw [State.fusionJudge_ref names (by decide)]
  simp [State.refJudge, State.refObject, held, okIf, natIn, value, Nat.not_le.mpr pose, Nat.le_of_lt_succ bits]

theorem State.fusionJudge_depth {x : SliceRec} {d : F32} (held : s.refSlice r = some x) (wire : x.principle = 2)
    (inRange : F32.within F32.one (F32.ofNat 5000) d = true) : s.fusionJudge inst 0xB (be32 d) = .ok := by
  rw [State.fusionJudge_ref names (by decide)]
  simp [State.refJudge, State.refObject, held, okIf, f32In, wire, inRange, Nat.not_le.mpr pose]

theorem State.fusionJudge_target {v : List Byte} (fitted : (s.refSlice r).isSome = true)
    (reflects : (s.refFusion r).reflectors ≠ []) (whole : v.length = 20) : s.fusionJudge inst 0xC v = .ok := by
  obtain ⟨x, held⟩ := Option.isSome_iff_exists.mp fitted
  rw [State.fusionJudge_ref names (by decide)]
  simp [State.refJudge, State.refObject, held, okIf, reflects, whole, Nat.not_le.mpr pose]

end
end

/-! ## A write to island 0x05 in role ALONE (R495) -/

/-- A ready WRITE that its object accepts at once, whatever DETAIL it gives (`hostWrite_ok` is the case of all ones). -/
theorem hostWrite_accepted {s u : State} {t req obj v} {act : WriteCtx → State → Done} {d : Word}
    (ready : Ready s t req 0x11 (writeBody obj v))
    (accepts : act (s.hostCtx req) (s.atWrite t req obj v) = { state := u, detail := d }) :
    runHost t s (fun s => s.hostWrite req obj v act) = .next (u.respond req 0x11 .ok (be32 obj ++ be32 d)) := by
  have unbarred : (s.atWrite t req obj v).group.versionHold = false := by rw [(State.atWrite_frame ready).group]; exact ready.version
  have queue : (s.clock t).qcp = s.qcp := (s.clock_frame t).qcp
  unfold State.atWrite State.hostCtx at *
  rw [runHost_next _ ready.running ready.started, State.hostWrite,
    State.serve_ok (t := t) _ _ ready.clock (fun _ => unbarred)] <;> simp [State.writeAct, unbarred, queue, accepts]

/-- A member in role ALONE queues the write and tells the release at which it takes effect. -/
theorem State.estWrite_alone {w : State} {c : WriteCtx} {inst num v} (host : c.load = false) (alone : w.group.role = .alone)
    (ok : w.fusionJudge inst num v = .ok) :
    w.estWrite c inst num v =
      { state := w.queueFusion { object := objId 5 inst num, value := v, req := c.req },
        detail := BitVec.ofNat 32 (w.cycle.count + if w.cycle.released then 1 else 0) } := by
  simp [State.estWrite, ok, State.groupWrite, State.queueFusion, host, alone]

/-- A ready write to island 0x05 that is judged OK waits, in role ALONE, for the release. -/
theorem writeEst_queues {s : State} {t req inst num v} (alone : s.group.role = .alone)
    (ready : Ready s t req 0x11 (writeBody (objId 5 inst num) v)) (ok : s.fusionJudge inst num v = .ok) :
    runHost t s (fun s => s.writeEst req inst num v) =
      .next (State.wroteAlone ((s.atWrite t req (objId 5 inst num) v).queueFusion
        { object := objId 5 inst num, value := v, req := req }) req (objId 5 inst num)) := by
  have frame := State.atWrite_frame ready
  rw [← frame.group] at alone
  rw [← State.fusionJudge_congr frame.image frame.fusion] at ok
  exact hostWrite_accepted ready (State.estWrite_alone rfl alone ok)

/-- Settles O15: a reference's row acts on its entry by the rule of that row (`execRef…`), dead reckoning by `execDrDelayExpiry_position`;
each write is one that `fusionJudge` finds OK, and `writeEst_queues` has it wait for the release. -/
theorem referencesAndTheirWrites : Obligations.ReferencesAndTheirWrites := by
  unfold Obligations.ReferencesAndTheirWrites
  refine ⟨fun s t r on => ⟨fun fitted live due => ?stale, fun suspect long => ?quarantined, fun o found admitting absolute => ?absolute,
      fun o found admitting relative => ?relative, fun quarantined outlier auto long => ?readmitted,
      fun runs first lost kept => ?reckons⟩,
    fun s t req alone => ⟨fun i r ready names fitted quarantined => ?readmit, fun i e r ready names fitted bit => ?enable,
      fun i r x d ready names held pose wire inRange => ?depth, fun i r n e rot ready names fitted pose reflects => ?target,
      fun i r f ready names fitted pose => ?refine⟩⟩
  case stale => exact execRefTimeoutExpiry_stale on rfl fitted live due
  case quarantined => exact execRefQuarantined_quarantines on rfl suspect long
  case absolute => exact (execRefAdmitted_active on rfl found admitting).trans (by rw [if_neg (by simp [absolute])]; rfl)
  case relative => exact (execRefAdmitted_active on rfl found admitting).trans (by rw [if_pos relative]; rfl)
  case readmitted => exact execAutoReadmit_returns on rfl quarantined outlier auto long
  case reckons => exact execDrDelayExpiry_position on (by rw [runs]; decide) first lost kept
  case readmit => exact writeEst_queues alone ready (State.fusionJudge_readmit names fitted quarantined)
  case enable => exact writeEst_queues alone ready (State.fusionJudge_enable names fitted bit)
  case depth => exact writeEst_queues alone ready (State.fusionJudge_depth names pose held wire inRange)
  case target => exact writeEst_queues alone ready (State.fusionJudge_target names pose fitted reflects rfl)
  case refine =>
    have bits : (2 + if f then 1 else 0) < 4 := by cases f <;> decide
    have control : flagBit f 0 = if f then 1 else 0 := rfl
    change execRefineReset t req i f s = _
    rw [execRefineReset, control]
    exact writeEst_queues alone ready (State.fusionJudge_refine names pose fitted bits)

end Sys2Proof.Machine
end

section
/-! The law (spec/08_station_keeping_law.md): in role ALONE its writes wait for the release (R299, R304, R306;
spec/14_group_redundancy.md, R495), a demand and a power limit are fresh at once (R294, R309), a check job waits for the solver
(spec/09_allocation_solver.md, R331); and the rows of its time-outs and alarms (R294, R295, R307, R309, R312). -/

namespace Sys2Proof.Machine

/-! ## Numbers inside a longer value -/

/-- An FP32 that the bytes of a value reach. -/
theorem f32At_mid (a b : List Byte) (v : F32) : f32At (a ++ be32 v ++ b) a.length = v := by
  have whole : sliceAt (a ++ be32 v ++ b) a.length 4 = be32 v := sliceAt_mid a (be32 v) b
  rw [f32At, fieldAt, whole, beVal_be32, BitVec.ofNat_toNat, BitVec.setWidth_eq]

/-- The 64-bit number at the front of a value. -/
theorem fieldAt_be64_append (v : BitVec 64) (b : List Byte) : fieldAt (be64 v ++ b) 0 8 = v.toNat := by
  have whole : sliceAt (be64 v ++ b) 0 8 = be64 v := sliceAt_mid [] (be64 v) b
  rw [fieldAt, whole, beVal_be64]

/-! ## What a write to the law is judged by (R294, R299, R304, R306, R309) -/

section
variable {s : State} {arrived : Nat}

theorem State.lawJudge_heading {psi : F64} (angle : angleOk psi = true) : s.lawJudge 0x104 (be64 psi) arrived = .ok := by
  simp [State.lawJudge, okIf, angle]

theorem State.lawJudge_joy {x y m : F32} (surge : F32.within (F32.neg F32.one) F32.one x = true)
    (sway : F32.within (F32.neg F32.one) F32.one y = true) (yaw : F32.within (F32.neg F32.one) F32.one m = true) :
    s.lawJudge 0x106 (be32 x ++ be32 y ++ be32 m) arrived = .ok := by
  have first : f32At (be32 x ++ be32 y ++ be32 m) 0 = x := by simpa using f32At_mid [] (be32 y ++ be32 m) x
  have second : f32At (be32 x ++ be32 y ++ be32 m) 4 = y := f32At_mid (be32 x) (be32 m) y
  have third : f32At (be32 x ++ be32 y ++ be32 m) 8 = m := by simpa using f32At_mid (be32 x ++ be32 y) [] m
  simp only [State.lawJudge, okIf, List.all_cons, List.all_nil, first, second, third, surge, sway, yaw]
  rfl

theorem State.lawJudge_power {p : F32} (notNegative : F32.le 0 p = true) : s.lawJudge 0x130 (be32 p) arrived = .ok := by
  simp only [State.lawJudge, okIf, be32_length, f32At_be32, notNegative]
  rfl

theorem State.lawJudge_discard : s.lawJudge 0x142 [2] arrived = .ok := rfl

theorem State.lawJudge_target {st n e psi : BitVec 64} {vn ve yr : F32} (fresh : st.toNat ≤ arrived + ms) :
    s.lawJudge 0x144 (be64 st ++ be64 n ++ be64 e ++ be32 vn ++ be32 ve ++ be64 psi ++ be32 yr) arrived = .ok := by
  simp [State.lawJudge, okIf, fieldAt_be64_append, fresh]

variable {c : WriteCtx} {v : List Byte} (host : c.load = false)
include host

theorem State.lawMode_geo (m : s.modes.mode = .idle ∨ s.modes.mode = .station) : s.lawMode c 0x102 v = .ok := by
  obtain m | m := m <;> simp [State.lawMode, WriteCtx.mode, host, m]

theorem State.lawMode_move (m : s.modes.mode = .station) : s.lawMode c 0x103 v = .ok := by
  simp [State.lawMode, WriteCtx.mode, host, m]

theorem State.lawMode_heading (m : s.modes.mode = .autohead ∨ s.modes.mode = .station) : s.lawMode c 0x104 v = .ok := by
  obtain m | m := m <;> simp [State.lawMode, WriteCtx.mode, host, m]

end

/-! ## A write to the law in role ALONE (R495) -/

/-- JOY_DEMAND is fresh from the moment it is written (R309). -/
theorem State.queueLaw_joy (s : State) (w : SettingWrite) : (s.lawNow 0x106).queueLaw w =
    { s with law.joyAt := s.tb3, law.joyStale := false, law.pending := s.law.pending ++ [w] } := rfl

/-- POWER_AVAILABLE is fresh from the moment it is written (R294). -/
theorem State.queueLaw_power (s : State) (w : SettingWrite) : (s.lawNow 0x130).queueLaw w =
    { s with law.power.writtenAt := some s.tb3, law.pending := s.law.pending ++ [w] } := rfl

theorem State.lawNow_other (s : State) {num} (notJoy : num ≠ 0x106) (notPower : num ≠ 0x130) : s.lawNow num = s := by
  unfold State.lawNow
  split
  · exact absurd rfl notJoy
  · exact absurd rfl notPower
  · rfl

theorem State.lawNow_cycle (s : State) (num) : (s.lawNow num).cycle = s.cycle := by
  unfold State.lawNow
  split <;> rfl

/-- A member in role ALONE does what the write does at once, queues the rest, and tells the release at which it takes effect. -/
theorem State.solWrite_alone {w : State} {c : WriteCtx} {num v} (host : c.load = false) (alone : w.group.role = .alone)
    (law : num ≠ 0x23) (ok : w.lawJudge num v (c.arrived.getD w.tb3) = .ok) (mode : w.lawMode c num v = .ok) :
    w.solWrite c 0 num v =
      { state := (w.lawNow num).queueLaw { object := objId 6 0 num, value := v, req := c.req },
        detail := BitVec.ofNat 32 (w.cycle.count + if w.cycle.released then 1 else 0) } := by
  simp [State.solWrite, law, ok, mode, State.groupWrite, State.queueLaw, host, alone, State.lawNow_cycle]

section
variable {s : State} {t : Nat} {req : Request}

section
variable {num : Nat} {v : List Byte} (alone : s.group.role = .alone) (ready : Ready s t req 0x11 (writeBody (objId 6 0 num) v))
  (ok : (s.atWrite t req (objId 6 0 num) v).lawJudge num v
    ((s.hostCtx req).arrived.getD (s.atWrite t req (objId 6 0 num) v).tb3) = .ok)
  (mode : (s.atWrite t req (objId 6 0 num) v).lawMode (s.hostCtx req) num v = .ok)
include alone ready ok mode

/-- A ready write to the law that is judged OK waits, in role ALONE, for the release, but for what is fresh at once. -/
theorem writeSol_queues (law : num ≠ 0x23) :
    runHost t s (fun s => s.writeSol req num v) =
      .next (State.wroteAlone (((s.atWrite t req (objId 6 0 num) v).lawNow num).queueLaw
        { object := objId 6 0 num, value := v, req := req }) req (objId 6 0 num)) := by
  rw [← (State.atWrite_frame ready).group] at alone
  refine (hostWrite_accepted ready (State.solWrite_alone rfl alone law ok mode)).trans ?_
  simp only [State.wroteAlone, State.queueLaw, State.lawNow_cycle]
  rfl

/-- One of which nothing is fresh at once waits as a whole. -/
theorem writeSol_waits (waits : num ≠ 0x23 ∧ num ≠ 0x106 ∧ num ≠ 0x130) :
    runHost t s (fun s => s.writeSol req num v) =
      .next (State.wroteAlone ((s.atWrite t req (objId 6 0 num) v).queueLaw
        { object := objId 6 0 num, value := v, req := req }) req (objId 6 0 num)) := by
  obtain ⟨law, notJoy, notPower⟩ := waits
  rw [writeSol_queues alone ready ok mode law, State.lawNow_other _ notJoy notPower]

end

/-- CHECK_START waits for the solver in a job queue with room for it (R331). -/
theorem State.solWrite_checkStart {c : WriteCtx} (host : c.load = false) (modes : s.modes.mode = .idle ∨ s.modes.mode = .test)
    (room : s.sol.queue.length < 4) :
    s.solWrite c 0 0x23 [1] = done { s with sol.queue := s.sol.queue ++ [{ check := true }] } := by
  have allowed : [Mode.idle, Mode.test].contains (c.mode s) = true := by
    obtain m | m := modes <;> simp [WriteCtx.mode, host, m]
  have value : ([1] : List Byte).length == 1 && beVal [1] == 1 := rfl
  rw [State.solWrite, if_pos rfl, if_pos rfl]
  simp only [State.checkStart, checkValue, value, WriteCtx.onlyIn, allowed, if_true, if_neg (Nat.not_le.mpr room)]

end

/-! ## Time-outs and alarms (R294, R295, R307, R309, R312) -/

/-- For each thruster, whether it is available and has been at an edge for 10 cycles (R312). -/
def State.edgeFlags (s : State) : List Bool :=
  (List.range 16).map fun i => (at? s.law.thr i).available && decide (10 ≤ (at? s.law.thr i).edgeCycles)

theorem State.edgeFlags_none {s : State} (free : ∀ n : Nat, n < 16 → (at? s.law.thr n).edgeCycles < 10) :
    s.edgeFlags.any id = false := by
  simp only [State.edgeFlags, List.any_map, List.any_eq_false, List.mem_range]
  intro n fits
  simp [free n fits]

theorem State.edgeFlags_get {s : State} {n : Nat} (fits : n < 16) (available : (at? s.law.thr n).available = true)
    (held : 10 ≤ (at? s.law.thr n).edgeCycles) : s.edgeFlags[n]? = some true := by
  simp [State.edgeFlags, fits, available, held]

/-- Flags numbered from one place higher are worth twice as much. -/
theorem sum_flagBit_zipIdx_succ (l : List Bool) (k : Nat) :
    ((l.zipIdx (k + 1)).map fun p => flagBit p.1 p.2).sum = 2 * ((l.zipIdx k).map fun p => flagBit p.1 p.2).sum := by
  induction l generalizing k with
  | nil => rfl
  | cons b l ih =>
    have weight : flagBit b (k + 1) = 2 * flagBit b k := by cases b <;> simp [flagBit, Nat.pow_succ, Nat.mul_comm]
    simp only [List.zipIdx_cons, List.map_cons, List.sum_cons, weight, ih (k + 1), Nat.mul_add]

theorem maskOf_cons (b : Bool) (l : List Bool) : maskOf (b :: l) = Nat.bit b (maskOf l) := by
  calc maskOf (b :: l)
    _ = flagBit b 0 + ((l.zipIdx 1).map fun p => flagBit p.1 p.2).sum := rfl
    _ = flagBit b 0 + 2 * maskOf l := by rw [sum_flagBit_zipIdx_succ l 0]; rfl
    _ = Nat.bit b (maskOf l) := by cases b <;> simp [flagBit, Nat.bit_val, Nat.add_comm]

/-- Bit `n` of a mask is flag `n`. -/
theorem maskOf_testBit (l : List Bool) (n : Nat) : (maskOf l).testBit n = l[n]?.getD false := by
  induction l generalizing n with
  | nil => simp [maskOf]
  | cons b l ih =>
    rw [maskOf_cons]
    cases n with
    | zero => simp
    | succ n => simp [Nat.testBit_bit_succ, ih]

section
variable {s : State} {t : Nat} (on : Running s)
include on

theorem execJoyTimeoutExpiry_stale (steered : (s.clock t).modes.mode = .joystick ∨ (s.clock t).modes.mode = .autohead)
    (due : (s.clock t).law.joyAt + (s.clock t).law.params.joyTimeout * ms ≤ (s.clock t).tb3) :
    execJoyTimeoutExpiry t s = .next { s.clock t with law.joyStale := true } := by
  have mode : ((s.clock t).modes.mode == .joystick || (s.clock t).modes.mode == .autohead) = true := by
    obtain m | m := steered <;> rw [m] <;> rfl
  simp only [execJoyTimeoutExpiry, runRunning_next _ on, mode, due, decide_true, Bool.and_self, if_true]

theorem execTrackTargetLost_raises {g : TargetState} (track : (s.clock t).modes.mode = .track)
    (source : (s.clock t).law.track.source = true) (first : (s.clock t).law.track.lost = false)
    (target : (s.clock t).law.track.target = some g)
    (old : g.stamp + (s.clock t).law.track.targetTimeout * ms < (s.clock t).cycle.tk + (s.clock t).cyc.commandAt) :
    execTrackTargetLost t s = .next (State.raise { s.clock t with law.track.lost := true } 60) := by
  simp only [execTrackTargetLost, runRunning_next _ on, target, track, source, first, old, decide_true, BEq.rfl, Bool.not_false,
    Bool.and_self, if_true]

theorem execPowerTimeoutExpiry_stale (stale : ((s.clock t).powerLimit (s.clock t).cycle.tk).2 = true) :
    execPowerTimeoutExpiry t s =
      .next { s.clock t with law.power.pLim := ((s.clock t).powerLimit (s.clock t).cycle.tk).1, law.power.stale := true } := by
  simp only [execPowerTimeoutExpiry, runRunning_next _ on, stale, if_true]

theorem execPowerLimitActive_enters (binding : (s.clock t).law.power.bindingNow = true)
    (idle : (s.clock t).law.power.active = false) :
    execPowerLimitActive t s = .next (State.raiseN { s.clock t with law.power.active := true } 56 256
      (some (F32.nearest (s.clock t).law.power.slack0).toNat)) := by
  simp only [execPowerLimitActive, runRunning_next _ on, binding, idle, Bool.not_false, Bool.and_self, if_true]

theorem execPowerLimitActive_leaves (released : (s.clock t).law.power.bindingNow = false)
    (active : (s.clock t).law.power.active = true) (long : 10 ≤ (s.clock t).law.power.releasedCycles) :
    execPowerLimitActive t s = .next (State.raiseN { s.clock t with law.power.active := false } 56 0
      (some (F32.nearest (s.clock t).law.power.slack0).toNat)) := by
  simp only [execPowerLimitActive, runRunning_next _ on, released, active, long, decide_true, Bool.not_false, Bool.false_and,
    Bool.and_self, Bool.false_eq_true, if_true, if_false]

theorem execThrustSaturated_enters (clear : (s.clock t).law.saturated = false) (held : (s.clock t).edgeFlags.any id = true) :
    execThrustSaturated t s =
      .next (State.raiseN { s.clock t with law.saturated := true } 57 256 (some (maskOf (s.clock t).edgeFlags))) := by
  unfold State.edgeFlags at held ⊢
  simp only [execThrustSaturated, runRunning_next _ on, clear, held, Bool.not_false, Bool.and_self, if_true]

theorem execThrustSaturated_leaves (saturated : (s.clock t).law.saturated = true) (free : (s.clock t).edgeFlags.any id = false) :
    execThrustSaturated t s = .next (State.raiseN { s.clock t with law.saturated := false } 57 0) := by
  unfold State.edgeFlags at free
  simp only [execThrustSaturated, runRunning_next _ on, saturated, free, Bool.not_true, Bool.not_false, Bool.and_self,
    Bool.false_eq_true, if_true, if_false]

theorem execCheckDone_ends {j : SolverJob} (pass : Bool) (job : (s.clock t).sol.running = some j) (check : j.check = true) :
    execCheckDone t pass s = .next { s.clock t with
      sol.running := none, res.checkAt := (s.clock t).tb3, res.checkResult := if pass then 1 else 2 } := by
  simp only [execCheckDone, runRunning_next _ on, job, check, if_true]

end

/-- Settles O16: a write that `lawJudge` and `lawMode` find OK waits for the release (`writeSol_queues`), a check job for the solver; each
row of the law acts by the rule of that row (`exec…`), and the mask of THRUST_SATURATED names the thruster (`maskOf_testBit`). -/
theorem lawWritesAndSupervision : Obligations.LawWritesAndSupervision := by
  unfold Obligations.LawWritesAndSupervision
  refine ⟨fun s t req alone => ⟨fun lat lon ready m ok => ?geo, fun f d1 d2 ready m ok => ?move,
      fun psi ready m angle => ?heading, fun x y m ready surge sway yaw => ?joy, fun ready ok => ?commit,
      fun ready => ?discard, fun st n e psi vn ve yr ready fresh => ?target, fun p ready notNegative => ?power,
      fun ready m room => ?check⟩,
    fun s t on => ⟨execJoyTimeoutExpiry_stale on, fun g => execTrackTargetLost_raises on, execPowerTimeoutExpiry_stale on,
      execPowerLimitActive_enters on, execPowerLimitActive_leaves on,
      fun saturated free => execThrustSaturated_leaves on saturated (State.edgeFlags_none free),
      fun n fits clear available held => ?saturates, fun j pass => execCheckDone_ends on pass⟩⟩
  case geo =>
    rw [← (State.atWrite_frame ready).modes] at m
    exact writeSol_waits alone ready ok (State.lawMode_geo rfl m) (by decide)
  case move =>
    rw [← (State.atWrite_frame ready).modes] at m
    exact writeSol_waits alone ready ok (State.lawMode_move rfl m) (by decide)
  case heading =>
    rw [← (State.atWrite_frame ready).modes] at m
    exact writeSol_waits alone ready (State.lawJudge_heading angle) (State.lawMode_heading rfl m) (by decide)
  case joy =>
    have queues := writeSol_queues alone ready (State.lawJudge_joy surge sway yaw) rfl (by decide)
    rw [State.queueLaw_joy] at queues
    exact queues
  case commit => exact writeSol_waits alone ready ok rfl (by decide)
  case discard => exact writeSol_waits alone ready State.lawJudge_discard rfl (by decide)
  case target => exact writeSol_waits alone ready (State.lawJudge_target fresh) rfl (by decide)
  case power =>
    have queues := writeSol_queues alone ready (State.lawJudge_power notNegative) rfl (by decide)
    rw [State.queueLaw_power] at queues
    exact queues
  case check =>
    have frame := State.atWrite_frame ready
    rw [← frame.modes] at m
    rw [← frame.sol] at room
    exact hostWrite_done ready (State.solWrite_checkStart rfl m room)
  case saturates =>
    have here := State.edgeFlags_get fits available held
    have any : (s.clock t).edgeFlags.any id = true := List.any_eq_true.mpr ⟨true, List.mem_of_getElem? here, rfl⟩
    exact ⟨_, by rw [maskOf_testBit, here]; rfl, execThrustSaturated_enters on clear any⟩

end Sys2Proof.Machine
end

section
/-! The solver's jobs (spec/09_allocation_solver.md): their start (R333), their stop and their deadline (R343), the hold set where the
law's set-points are not accepted (R468), the own candidate (R344) and the thresholds of the allocation's counters (R350, R351). -/

namespace Sys2Proof.Machine

/-! ## What follows an Accept (R480, R496, R498, R514) -/

theorem State.retain_frame (s : State) : FrameBut [.retained] s s.retain :=
  .ite (frame_set_retained s _) (frame_set_retained s _)

theorem State.captureCopy_frame (s : State) : FrameBut [.group, .gcycle] s s.captureCopy := by
  unfold State.captureCopy
  split
  next j m _ =>
    have cleared : FrameBut [.gcycle] s { s with gcycle.copyTo := none } := frame_set_gcycle s _
    exact .ite ((cleared.mono (by decide)).trans (.foldl (fun u f => (u.sendLaneTo_frame m f).mono (by decide)) _ _)) (.refl _ _)
  next => exact .refl _ _

/-- A member that differs from the LEAD changes its role; anything else a comparison counts for the group. -/
theorem State.compareCommit_frame (s : State) (m : Nat) : FrameBut reportParts s (s.compareCommit m) := by
  unfold State.compareCommit
  split
  next k _ _ _ _ _ =>
    have counted : FrameBut [.group] s { s with group.counters := upd s.group.counters 2 sat32 } := frame_set_group s _
    refine .ite (.refl _ _) (.ite (.ite (.refl _ _) ?drops) (.ite (.ite (.ite ?agrees (.refl _ _)) ?leaves) (.refl _ _)))
    case drops => exact FrameBut.mono (frame_set_group s _) (by decide)
    case agrees =>
      have matched : FrameBut [.gcycle] s { s with gcycle.matchedAt := some k } := frame_set_gcycle s _
      exact (matched.append (frame_set_group _ _)).mono (by decide)
    case leaves => exact (counted.mono (by decide)).trans (State.setRole_frame _ _ _)
  next => exact .refl _ _

theorem State.sendCommit_frame (s : State) : FrameBut reportParts s s.sendCommit := by
  unfold State.sendCommit
  refine .ite (.refl _ _) (.trans ?_ (.foldl (fun u m => .ite (.refl _ _) (u.compareCommit_frame m)) _ _))
  exact ((frame_set_gcycle s _).append (State.sendLane_frame _ _)).mono (by decide)

theorem State.sendHello_frame (s : State) : FrameBut [.group] s s.sendHello :=
  .ite (frame_set_group s _) (.trans (frame_set_group s _) (frame_set_group _ _))

theorem State.sendHello_granted (s : State) : s.sendHello.group.granted = s.group.granted := by
  unfold State.sendHello
  dsimp only
  split <;> rfl

/-- The state that the grant of a cycle finds: SUP has its copies and its COMMIT behind it. -/
def State.beforeGrant (s : State) : State := State.sendCommit { s with cycle.acceptDone := true }.retain.captureCopy

theorem State.afterAccept_eq (s : State) : s.afterAccept =
    (if 1 < s.beforeGrant.cyc.groupSize then
      State.sendHello { s.beforeGrant with group.granted := some s.beforeGrant.cycle.count }
    else { s.beforeGrant with group.granted := some s.beforeGrant.cycle.count }) := rfl

theorem State.beforeGrant_frame (s : State) : FrameBut (.retained :: reportParts) { s with cycle.acceptDone := true } s.beforeGrant :=
  (((State.retain_frame _).mono (by decide)).trans ((State.captureCopy_frame _).mono (by decide))).trans
    ((State.sendCommit_frame _).mono (by decide))

theorem State.afterAccept_frame (s : State) : FrameBut (.retained :: reportParts) { s with cycle.acceptDone := true } s.afterAccept := by
  have granted : FrameBut [.group] s.beforeGrant { s.beforeGrant with group.granted := some s.beforeGrant.cycle.count } :=
    frame_set_group _ _
  rw [State.afterAccept_eq]
  exact s.beforeGrant_frame.trans (.ite ((granted.trans (State.sendHello_frame _)).mono (by decide)) (granted.mono (by decide)))

/-- After Accept the cycle is granted. -/
theorem State.afterAccept_granted (s : State) : s.afterAccept.group.granted = some s.cycle.count := by
  have count : s.beforeGrant.cycle.count = s.cycle.count := by rw [s.beforeGrant_frame.cycle]
  rw [State.afterAccept_eq, ← count]
  split
  · exact State.sendHello_granted _
  · rfl

/-! ## A stop (R343) -/

theorem State.runJob_frame (s : State) (j : SolverJob) (fuel : Nat) : FrameBut [.sol] s (s.runJob j fuel).1 := by
  unfold State.runJob
  split
  · exact .refl _ _
  · exact frame_set_sol s _

/-- A run of iterations does not end the job. -/
theorem State.runJob_running (s : State) (j : SolverJob) (fuel : Nat) : (s.runJob j fuel).1.sol.running = s.sol.running := by
  unfold State.runJob
  split <;> rfl

theorem State.tryAccept_done {s : State} (done : s.cycle.acceptDone = true) : s.tryAccept = s := by
  simp [State.tryAccept, done]

/-- What a stop tells the peers. -/
def State.stopReport (s : State) (reason : Nat) : SolveReport :=
  { iLast := if reason ≠ 5 then s.sol.iter else 0, reason := BitVec.ofNat 4 reason, conv := if reason = 0 then s.sol.iter else 0 }

/-- What a stop writes. -/
def State.noteStop (s : State) (reason pivots : Nat) : State :=
  { s with
    sol.running := s.sol.running.filter (·.check), sol.stopped := some (s.stopReport reason),
    sol.needFull := s.sol.needFull || !decide (reason ≠ 5),
    res.stopReason := BitVec.ofNat 4 reason, res.iterations := (s.stopReport reason).iLast,
    res.solveTime := if reason ≠ 5 then s.tb3 - s.sol.startedAt else 0, res.staticPivots := pivots,
    res.counters := upd (if reason = 2 then upd s.res.counters 4 sat32 else if reason = 5 then upd s.res.counters 5 sat32
      else s.res.counters) 6 fun n => satAdd 0xFFFFFFFF n pivots }

/-- A member in step tells the others its report. -/
def State.tellStop (s : State) (r : SolveReport) : State :=
  if s.group.role == .alone || !s.inStepSelf then s else s.sendLane (.solveReport s.cycle.count r)

theorem State.stopSolve_eq (s : State) (reason pivots : Nat) :
    s.stopSolve reason pivots = ((s.noteStop reason pivots).tellStop (s.stopReport reason)).tryAccept := rfl

theorem State.noteStop_frame (s : State) (reason pivots : Nat) : FrameBut ([.sol] ++ [.res]) s (s.noteStop reason pivots) :=
  .append (u := { s with sol := (s.noteStop reason pivots).sol }) (frame_set_sol s _)
    (frame_set_res _ (s.noteStop reason pivots).res)

theorem State.tellStop_frame (s : State) (r : SolveReport) : FrameBut [.group] s (s.tellStop r) :=
  .ite (.refl _ _) (State.sendLane_frame _ _)

/-- Once the cycle's Accept is done, a stop is noted and told to the peers, and that is all. -/
theorem State.stopSolve_done {s : State} (done : s.cycle.acceptDone = true) (reason pivots : Nat) :
    s.stopSolve reason pivots = (s.noteStop reason pivots).tellStop (s.stopReport reason) := by
  rw [State.stopSolve_eq, State.tryAccept_done]
  rw [(State.tellStop_frame _ _).cycle]
  exact done

/-! ## A job that waits (R329, R333) -/

/-- The state in which a warm cycle job's entries are applied. -/
def State.startsWarm (s : State) (rest : List SolverJob) : State :=
  { s with sol.queue := rest, sol.startedAt := s.tb3, sol.iter := 0, sol.best := none, sol.bestBefore := none,
           sol.startIterate := none, res.startKind := 0 }

theorem State.retireJobs_empty {s : State} (empty : s.sol.queue = []) : s.retireJobs = s := by
  have same : { s with sol.queue := [] } = s := by rw [← empty]
  simp only [State.retireJobs, empty, List.filter_nil, List.foldl_nil, same]

section
variable {s : State} {t : Nat} (on : Running s)
include on

/-! ## SOLVER_JOB_START (R331, R333) -/

section
variable {j : SolverJob} {rest : List SolverJob} (idle : (s.clock t).sol.running = none) (first : (s.clock t).sol.queue = j :: rest)
include idle first

theorem execSolverJobStart_check (check : j.check = true) :
    execSolverJobStart t s = .next { s.clock t with
      sol.queue := rest, sol.running := some j, sol.startedAt := (s.clock t).tb3 } := by
  simp only [execSolverJobStart, runRunning_next _ on, idle, first, check, if_true]

theorem execSolverJobStart_warm {v : VariantRec} (cycle : j.check = false) (early : (s.clock t).tb3 < j.deadline)
    (notCold : j.startCold = false) (notMapped : j.startMapped = false)
    {x : State} (applied : ((s.clock t).startsWarm rest).applyJob j = (x, true)) (variant : x.variantRec j.variant = some v) :
    let t0 := x.startPoint j v (qpOf v x.sol.values x.cyc.tolerance)
    execSolverJobStart t s = .next { x with sol.running := some j, sol.cur := t0, sol.startIterate := some t0 } := by
  simp only [State.startsWarm, idle] at applied
  simp only [execSolverJobStart, runRunning_next _ on, idle, first, cycle, Nat.not_le.mpr early, notCold, notMapped, applied,
    variant, Bool.or_self, Bool.false_eq_true, if_true, if_false]

end

theorem execSolverJobStart_waits (busy : (s.clock t).sol.running ≠ none ∨ (s.clock t).sol.queue = []) :
    execSolverJobStart t s = .next (s.clock t) := by
  rw [execSolverJobStart, runRunning_next _ on]
  split
  next idle first => simp [idle, first] at busy
  next => rfl

/-! ## SOLVE_STOP, SOLVER_DEADLINE and SOLVE_REPORT_TIMEOUT (R343, R344, R468) -/

theorem execSolveStop_stops {j : SolverJob} (job : (s.clock t).sol.running = some j) (cycle : j.check = false)
    (early : (s.clock t).tb3 < j.deadline) {u : State} {stop : Option Nat} {pivots : Nat}
    (ran : (s.clock t).runJob j ((s.clock t).jobCap j) = (u, stop, pivots)) :
    execSolveStop t s = .next (u.stopSolve (stop.getD 3) pivots) := by
  simp only [execSolveStop, runRunning_next _ on, job, cycle, Nat.not_le.mpr early, ran, decide_false, Bool.or_self,
    Bool.false_eq_true, if_false]

theorem execSolverDeadline_holds {iterations : Nat} {inFactorisation : Bool} (ticking : (s.clock t).cycle.ticking = true)
    (due : (s.clock t).cycle.tk + (s.clock t).cyc.deadline ≤ (s.clock t).tb3) (idle : (s.clock t).sol.running = none)
    (empty : (s.clock t).sol.queue = []) (open_ : (s.clock t).cycle.acceptDone = false) (other : (s.clock t).lawAccepts = false) :
    execSolverDeadline t iterations inFactorisation s = .next (s.clock t).acceptHold.afterAccept := by
  simp [execSolverDeadline, runRunning_next _ on, ticking, Nat.not_lt.mpr due, idle, State.retireJobs_empty empty, open_, other]

theorem execSolveReportTimeout_accepts {r : SolveReport} (stopped : (s.clock t).sol.stopped = some r)
    (open_ : (s.clock t).cycle.acceptDone = false) (law : (s.clock t).lawAccepts = true) (grouped : (s.clock t).group.role ≠ .alone)
    (due : (s.clock t).cycle.tk + (s.clock t).cyc.deadline + 100 * us ≤ (s.clock t).tb3) :
    execSolveReportTimeout t s = .next ((s.clock t).accept ((s.clock t).ownCandidate r) r.iLast false true) := by
  simp [execSolveReportTimeout, runRunning_next _ on, stopped, open_, law, grouped, Nat.not_lt.mpr due]

/-! ## The thresholds of the counters (R350, R351) -/

theorem execAllocationDegraded_enters (clear : (s.clock t).res.degraded = false) (nets : 3 ≤ (s.clock t).res.consecNet) :
    execAllocationDegraded t s = .next (State.raiseN { s.clock t with res.degraded := true } 50 256) := by
  simp only [execAllocationDegraded, runRunning_next _ on, clear, nets, decide_true, Bool.not_false, Bool.and_self, if_true]

theorem execAllocationDegraded_leaves (degraded : (s.clock t).res.degraded = true) (successes : (s.clock t).res.successRun = 10) :
    execAllocationDegraded t s = .next (State.raiseN { s.clock t with res.degraded := false } 50 0) := by
  simp only [execAllocationDegraded, runRunning_next _ on, degraded, successes, decide_true, Bool.not_true, Bool.false_and,
    Bool.and_self, Bool.false_eq_true, if_true, if_false]

section
variable {v : VariantRec} (variant : (s.clock t).law.variant.bind (s.clock t).variantRec = some v)
  (unwritten : (s.clock t).cycle.back = none)
include variant unwritten

theorem execFallbackOn_enters (off : (s.clock t).res.fallback = false) (law : (s.clock t).lawAccepts = true)
    (nets : (s.clock t).cyc.netLimit ≤ (s.clock t).res.netRun) :
    execFallbackOn t s = .next (State.raise { s.clock t with res.fallback := true } 51) := by
  simp [execFallbackOn, runRunning_next _ on, variant, off, law, Nat.not_lt.mpr nets, unwritten]

theorem execFallbackOff_leaves (fallback : (s.clock t).res.fallback = true) (successes : 10 ≤ (s.clock t).res.successRun) :
    execFallbackOff t s = .next (State.raise { s.clock t with res.fallback := false } 52) := by
  simp [execFallbackOff, runRunning_next _ on, variant, fallback, Nat.not_lt.mpr successes, unwritten]

end

end

/-- Settles O9: each command of the solver acts by its own rule (`exec…`); a stop after Accept is `noteStop` and a report to the peers
(`stopSolve_done`), and what follows an Accept grants the cycle (`afterAccept_granted`). -/
theorem solverJobsStartAndStop : Obligations.SolverJobsStartAndStop := by
  unfold Obligations.SolverJobsStartAndStop
  intro s t on
  refine ⟨fun j rest idle first => execSolverJobStart_check on idle first,
    fun j rest v idle first cycle early notCold notMapped applied =>
      execSolverJobStart_warm on idle first cycle early notCold notMapped (Prod.ext rfl applied),
    execSolverJobStart_waits on, fun j job cycle early done => ?stops, fun ticking due idle empty open_ other => ?holds,
    fun r => execSolveReportTimeout_accepts on, execAllocationDegraded_enters on, execAllocationDegraded_leaves on,
    fun v variant off law nets unwritten => execFallbackOn_enters on variant unwritten off law nets,
    fun v variant fallback successes unwritten => execFallbackOff_leaves on variant unwritten fallback successes⟩
  case stops =>
    have ran := (s.clock t).runJob_frame j ((s.clock t).jobCap j)
    have still := (s.clock t).runJob_running j ((s.clock t).jobCap j)
    rcases result : (s.clock t).runJob j ((s.clock t).jobCap j) with ⟨u, stop, pivots⟩
    rw [result] at ran still
    have told := (u.noteStop (stop.getD 3) pivots).tellStop_frame (u.stopReport (stop.getD 3))
    have noted := State.stopSolve_done (s := u) (by rw [ran.cycle]; exact done) (stop.getD 3) pivots
    refine ⟨_, (execSolveStop_stops on job cycle early result).trans (congrArg _ noted), ?_, by rw [told.res]; rfl,
      by rw [told.res]; rfl, by rw [told.res]; rfl, (ran.append ((State.noteStop_frame _ _ _).append told)).mono (by decide)⟩
    rw [told.sol, State.noteStop, still, job]
    simp [Option.filter, cycle]
  case holds =>
    have frame := (s.clock t).acceptHold.afterAccept_frame
    exact ⟨_, execSolverDeadline_holds on ticking due idle empty open_ other, rfl, by rw [frame.cycle],
      State.afterAccept_granted _, by rw [frame.image]; rfl⟩

end Sys2Proof.Machine
end

section
/-! The writes of the servo island (spec/10_thruster_servo_and_motion.md): coefficients, holds and set-points of slots (R374, R376,
R378), moves of profile generators (R383) and gear ratios (R386). -/

namespace Sys2Proof.Machine

/-! ## What the slots of an image depend on (R362) -/

theorem State.slotHere_congr {s u : State} (image : u.image = s.image) (group : u.group = s.group) (n : Nat) :
    u.slotHere n = s.slotHere n := by
  simp only [State.slotHere, State.loopRec?, State.pointMember, State.point?, State.me, image, group]

theorem State.generatorHere_congr {s u : State} (image : u.image = s.image) (group : u.group = s.group) (g : Nat) :
    u.generatorHere g = s.generatorHere g := by
  simp only [State.generatorHere, State.thrusters, image, State.slotHere_congr image group]

/-- A slot of this member is one where SUP carries out a WRITE. -/
theorem Ready.slotHere {s : State} {t req obj v} (ready : Ready s t req 0x11 (writeBody obj v)) {n : Nat} {r : LoopRec}
    (here : s.slotHere n = some r) : (s.atWrite t req obj v).slotHere n = some r := by
  have frame := State.atWrite_frame ready
  rw [State.slotHere_congr frame.image frame.group, here]

theorem at?_gears (s : State) (g : Fin 8) : at? s.servo.gears g = s.servo.gears[g] := at?_eq _ _ g.isLt

/-! ## Coefficients (R374) -/

section
variable {k : SlotCoeffs} {v : F32} (finite : v.finite = true)
include finite

theorem SlotCoeffs.set_kp : k.set 0x10 v = some { k with kp := v } := by simp [SlotCoeffs.set, finite]

theorem SlotCoeffs.set_ki : k.set 0x11 v = some { k with ki := v } := by simp [SlotCoeffs.set, finite]

theorem SlotCoeffs.set_kd : k.set 0x12 v = some { k with kd := v } := by simp [SlotCoeffs.set, finite]

end

theorem SlotCoeffs.set_unstable {k : SlotCoeffs} {v : F32} {j : Nat} (first : j < 5) (unstable : biquadStable (k.bq1.set j v) = false) :
    k.set (0x13 + j) v = none := by
  have place : 0x13 ≤ 0x13 + j ∧ 0x13 + j ≤ 0x17 := by omega
  simp [SlotCoeffs.set, place, unstable, show ¬ 0x13 + j = 0x10 by omega, show ¬ 0x13 + j = 0x11 by omega,
    show ¬ 0x13 + j = 0x12 by omega]

/-! ## The objects of a slot (R374, R376, R378) -/

section
variable {w : State} {c : WriteCtx} {n : Nat} {r : LoopRec} (here : w.slotHere n = some r)
include here

theorem State.slotWrite_coefficient {num : Nat} {v : F32} {k : SlotCoeffs} (object : (0x10 ≤ num ∧ num ≤ 0x20) ∨ num = 0x23)
    (valid : (at? w.servo.coeffs n).set num v = some k) :
    w.slotWrite c n num (be32 v) = done { w with servo.coeffs := upd w.servo.coeffs n fun _ => k } := by
  simp [State.slotWrite, State.writeCoeff, checkValue, here, object, valid, show ¬ num ≤ 4 by omega]

theorem State.slotWrite_hold (v : BitVec 16) : w.slotWrite c n 0x21 (be16 v) = w.writeHold n r v.toNat := by
  simp [State.slotWrite, checkValue, here]

theorem State.slotWrite_setpoint (v : F32) : w.slotWrite c n 0x22 (be32 v) = State.writeSlotSp c w n r v := by
  simp [State.slotWrite, checkValue, here]

end

section
variable {w : State} {n : Nat} {r : LoopRec}

theorem State.writeHold_holds {count : Nat} (asked : 0 < count) (within : count ≤ r.rate) :
    w.writeHold n r count = done (w.setSlot n fun l =>
      { l with holdLeft := count, holding := true, release := if l.release.isNone then some l.out else l.release }) := by
  simp [State.writeHold, Nat.not_lt.mpr within, Nat.ne_of_gt asked]

theorem State.writeHold_ends : w.writeHold n r 0 = done (w.setSlot n fun l => { l with holdLeft := 0 }) := by
  simp [State.writeHold]

theorem State.writeSlotSp_test {c : WriteCtx} (host : c.load = false) (outermost : r.outer = 0xFF) (test : w.modes.mode = .test) (v : F32) :
    State.writeSlotSp c w n r v = done (w.setSlot n fun l => { l with hostSp := some (v, w.tb3) }) := by
  simp [State.writeSlotSp, WriteCtx.mode, host, outermost, test]

end

/-! ## PG_MOVE (R383) -/

theorem State.aimAxis_unsectored {w : State} {r : ThrusterRec} {a : Nat} (target : F64) (host : Bool) (noSectors : a ≠ 0) :
    w.aimAxis r a target host = w.setAxis r.generator a fun _ =>
      ProfileAxis.aim { w.axis r.generator a with host := host, moving := host } target := by
  simp [State.aimAxis, noSectors]

/-- The value of PG_MOVE: the axis, three bytes of zero, the target. -/
def pgMoveValue (a : BitVec 8) (x : F64) : List Byte := be8 a ++ zeros 3 ++ be64 x

theorem pgMoveValue_axis (a : BitVec 8) (x : F64) : fieldAt (pgMoveValue a x) 0 1 = a.toNat := by
  have whole : sliceAt (pgMoveValue a x) 0 1 = be8 a := sliceAt_mid [] (be8 a) (zeros 3 ++ be64 x)
  rw [fieldAt, whole, beVal_be8]

theorem pgMoveValue_reserved (a : BitVec 8) (x : F64) : zeroAt (pgMoveValue a x) 1 3 = true := by
  have whole : sliceAt (pgMoveValue a x) 1 3 = zeros 3 := sliceAt_mid (be8 a) (zeros 3) (be64 x)
  rw [zeroAt, whole]
  rfl

theorem pgMoveValue_target (a : BitVec 8) (x : F64) : f64At (pgMoveValue a x) 4 = x := by
  have whole : sliceAt (pgMoveValue a x ++ []) 4 8 = be64 x := sliceAt_mid (be8 a ++ zeros 3) (be64 x) []
  rw [List.append_nil] at whole
  rw [f64At, fieldAt, whole, beVal_be64, BitVec.ofNat_toNat, BitVec.setWidth_eq]

/-- In TEST a generator takes a move of an axis that has a slot. -/
theorem State.pgWrite_move {w : State} {c : WriteCtx} {g : Nat} {r : ThrusterRec} {a : BitVec 8} {x : F64}
    (here : w.generatorHere g = some r) (host : c.load = false) (test : w.modes.mode = .test) (known : a.toNat ≤ 2)
    (slot : axisSlot r a.toNat ≠ 0xFF) :
    w.pgWrite c g 0xA (pgMoveValue a x) = done (w.aimAxis r a.toNat x true) := by
  have length : (pgMoveValue a x).length = 12 := rfl
  simp [State.pgWrite, checkValue, WriteCtx.mode, here, host, test, pgMoveValue_axis, pgMoveValue_reserved, pgMoveValue_target, length,
    known, slot]

/-! ## GEAR_RATIO (R386) -/

theorem intAt_be32_append (v : BitVec 32) (b : List Byte) : intAt (be32 v ++ b) 0 4 = v.toInt := by
  have whole : sliceAt (be32 v ++ b) 0 4 = be32 v := sliceAt_mid [] (be32 v) b
  have alone : sliceAt (be32 v) 0 4 = be32 v := sliceAt_all (be32 v)
  rw [← intAt_be32 v, intAt, intAt, fieldAt, fieldAt, whole, alone]

theorem fieldAt_append_be32 (a : List Byte) (v : BitVec 32) : fieldAt (a ++ be32 v) a.length 4 = v.toNat := by
  have whole : sliceAt (a ++ be32 v ++ []) a.length 4 = be32 v := sliceAt_mid a (be32 v) []
  rw [List.append_nil] at whole
  rw [fieldAt, whole, beVal_be32]

/-- A ratio whose denominator is not 0 re-bases the slave where the master stands. -/
theorem State.gearWrite_ratio {w : State} {c : WriteCtx} {g : Nat} (i : Fin 4) (p : Word) {q : Word} (notZero : q ≠ 0) :
    w.gearWrite c g (0x10 + i) (be32 p ++ be32 q) = done (w.setSlave g i fun x =>
      x.rebase (at? w.servo.gears g).count p.toInt q.toNat) := by
  have divisor : fieldAt (be32 p ++ be32 q) 4 4 = q.toNat := fieldAt_append_be32 (be32 p) q
  have positive : q.toNat ≠ 0 := fun zero => notZero (BitVec.eq_of_toNat_eq zero)
  have last := i.isLt
  simp [State.gearWrite, State.writeRatio, checkValue, intAt_be32_append, divisor, positive, show ¬ 0x10 + i.val = 1 by omega,
    show ¬ 0x10 + i.val = 2 by omega, show ¬ 0x10 + i.val = 3 by omega, show 0x10 + i.val ≤ 0x13 by omega]

/-- Settles O18: each write is the lemma about the object that it writes; what that lemma asks of the state in which SUP carries the
write out, the state before has. -/
theorem servoObjectsTakeWrites : Obligations.ServoObjectsTakeWrites := by
  unfold Obligations.ServoObjectsTakeWrites
  refine fun s t req => ⟨fun n r num v k ready here object valid => ?coefficient,
    fun k v finite => ⟨SlotCoeffs.set_kp finite, SlotCoeffs.set_ki finite, SlotCoeffs.set_kd finite⟩,
    fun k v j first unstable => SlotCoeffs.set_unstable first unstable,
    fun n r v ready here asked within => ?hold, fun n r ready here => ?ends, fun n r v ready here outermost test => ?setpoint,
    fun g r a x ready here test known slot noSectors => ?move, fun g i p q ready notZero => ?ratio⟩
  case coefficient =>
    have coeffs : (s.atWrite t req (objId 7 n num.toNat) (be32 v)).servo.coeffs = s.servo.coeffs := by rw [State.atWrite_servo ready]
    rw [← coeffs] at valid
    exact hostWrite_done ready (State.slotWrite_coefficient (ready.slotHere here) object valid)
  case hold => exact hostWrite_done ready ((State.slotWrite_hold (ready.slotHere here) v).trans (State.writeHold_holds asked within))
  case ends => exact hostWrite_done ready ((State.slotWrite_hold (ready.slotHere here) 0).trans State.writeHold_ends)
  case setpoint =>
    rw [← (State.atWrite_frame ready).modes] at test
    exact hostWrite_done ready ((State.slotWrite_setpoint (ready.slotHere here) v).trans (State.writeSlotSp_test rfl outermost test v))
  case move =>
    have frame := State.atWrite_frame ready
    rw [← State.generatorHere_congr frame.image frame.group] at here
    rw [← frame.modes] at test
    have axis : a.toNat ≠ 0 := fun zero => noSectors (BitVec.eq_of_toNat_eq zero)
    exact hostWrite_done ready ((State.pgWrite_move here rfl test known slot).trans
      (congrArg done (State.aimAxis_unsectored x true axis)))
  case ratio =>
    simp only [← at?_gears]
    exact hostWrite_done ready (State.gearWrite_ratio i p notZero)

end Sys2Proof.Machine
end

section
/-! What the servo island reports (spec/10_thruster_servo_and_motion.md): a loop at its limit, a following error and the end of a hold
(R370, R371, R376), the fall-back and the return of a gear group (R387), and latches (R388). -/

namespace Sys2Proof.Machine

/-! ## A slot reports (R370, R371, R376) -/

section
variable {s : State} {t : Nat} (on : Running s) {n : Fin 32}
include on

theorem execLoopLimit_enters (clear : (s.clock t).servo.counts[n].loopLimit = false)
    (long : 1000 ≤ (s.clock t).servo.counts[n].clampedRun) :
    execLoopLimit t n s = .next (((s.clock t).setCounts n fun k => { k with loopLimit := true }).raiseN 64 (n.val + 256)) := by
  simp only [execLoopLimit, runRunning_next _ on, clear, long, Bool.not_false, decide_true, Bool.and_self, if_true]

theorem execLoopLimit_leaves (limited : (s.clock t).servo.counts[n].loopLimit = true)
    (long : 1000 ≤ (s.clock t).servo.counts[n].unclampedRun) :
    execLoopLimit t n s = .next (((s.clock t).setCounts n fun k => { k with loopLimit := false }).raiseN 64 n.val) := by
  simp only [execLoopLimit, runRunning_next _ on, limited, long, Bool.not_true, Bool.false_and, decide_true, Bool.and_self,
    Bool.false_eq_true, if_false, if_true]

section
variable {r : LoopRec} (here : (s.clock t).slotHere n = some r)
include here

theorem execFollowingError_enters (clear : (s.clock t).servo.counts[n].following = false)
    (above : 0 < (s.clock t).servo.counts[n].aboveRun)
    (lasted : (s.clock t).servo.coeffs[n].followingTime * r.rate ≤ (s.clock t).servo.counts[n].aboveRun * 1000) :
    execFollowingError t n s = .next (((s.clock t).setCounts n fun k => { k with following := true }).raise 70
      (BitVec.ofNat 32 (n.val + 256)) (F32.abs (s.clock t).servo.slots[n].err)) := by
  simp only [execFollowingError, runRunning_next _ on, here, clear, above, lasted, Bool.not_false, decide_true, Bool.and_self, if_true]

theorem execFollowingError_leaves (following : (s.clock t).servo.counts[n].following = true)
    (below : 0 < (s.clock t).servo.counts[n].belowRun)
    (lasted : (s.clock t).servo.coeffs[n].followingTime * r.rate ≤ (s.clock t).servo.counts[n].belowRun * 1000) :
    execFollowingError t n s = .next (((s.clock t).setCounts n fun k => { k with following := false }).raise 70
      (BitVec.ofNat 32 n.val) (F32.abs (s.clock t).servo.slots[n].err)) := by
  simp only [execFollowingError, runRunning_next _ on, here, following, below, lasted, Bool.not_true, Bool.false_and, decide_true,
    Bool.and_self, Bool.false_eq_true, if_false, if_true]

end

theorem execSlotHoldEnd_ends (holding : (s.clock t).servo.slots[n].holding = true) (ran : (s.clock t).servo.slots[n].holdLeft = 0)
    (held : (s.clock t).servo.slots[n].state = 2) (free : (s.clock t).modes.gatheredHold = false)
    (sound : (s.clock t).servo.slots[n].faulted = false) :
    execSlotHoldEnd t n s = .next (((s.clock t).setSlot n fun l => { l with holding := false }).raiseN 73 n.val) := by
  simp only [execSlotHoldEnd, runRunning_next _ on, holding, ran, held, free, sound, beq_self_eq_true, Bool.not_false, Bool.and_self,
    if_true]

end

/-! ## The fall-back of a gear group (R387) -/

/-- The master count to which a group falls back. -/
def GearGroup.fallCount (x : GearGroup) : Int := if x.fbSource then x.fallbackCount else x.count

/-- The target at which a slave stands: one that engages again stands on its move. -/
def GearGroup.present (x : GearGroup) (q : GearSlave) : Int :=
  if x.engaging && !q.engaged then F64.floor q.axis.pos else q.at x.count

/-- The time in ns that a slave takes alone to its place at the fall-back count. -/
def GearGroup.fallTime (x : GearGroup) (q : GearSlave) : Nat :=
  (F64.nearest (F64.div (F64.mul (F64.ofInt (q.at x.fallCount - x.present q).natAbs) (F64.ofNat second)) (F64.of32 q.vmax))).toNat

/-- The longest of these times over the places in use. -/
def GearGroup.longest (x : GearGroup) : Nat :=
  (x.slaves.toList.filter (·.slot != 0xFF)).foldl (fun m q => max m (x.fallTime q)) 0

theorem mem_usedSlaves {v : Vector GearSlave 4} {q : GearSlave} :
    q ∈ v.toList.filter (·.slot != 0xFF) ↔ ∃ i : Fin 4, v[i].slot ≠ 0xFF ∧ v[i] = q := by
  simp only [List.mem_filter, Vector.mem_toList_iff, Vector.mem_iff_getElem, bne_iff_ne, ne_eq, Fin.exists_iff, Fin.getElem_fin]
  constructor
  · rintro ⟨⟨i, h, rfl⟩, used⟩
    exact ⟨i, h, used, rfl⟩
  · rintro ⟨i, h, used, rfl⟩
    exact ⟨⟨i, h, rfl⟩, used⟩

theorem GearGroup.longest_eq (x : GearGroup) :
    x.longest = ((x.slaves.toList.filter (·.slot != 0xFF)).map x.fallTime).max?.getD 0 := by
  rw [GearGroup.longest, ← List.foldl_map, List.foldl_max, Nat.zero_max]

theorem GearGroup.fallTime_le_longest (x : GearGroup) {i : Fin 4} (used : x.slaves[i].slot ≠ 0xFF) :
    x.fallTime x.slaves[i] ≤ x.longest := by
  rw [GearGroup.longest_eq]
  exact List.le_max?_getD_of_mem (List.mem_map_of_mem (mem_usedSlaves.mpr ⟨i, used, rfl⟩))

theorem GearGroup.longest_attained (x : GearGroup) :
    x.longest = 0 ∨ ∃ i : Fin 4, x.slaves[i].slot ≠ 0xFF ∧ x.fallTime x.slaves[i] = x.longest := by
  rw [GearGroup.longest_eq]
  cases top : ((x.slaves.toList.filter (·.slot != 0xFF)).map x.fallTime).max? with
  | none => exact .inl rfl
  | some m =>
    obtain ⟨q, member, time⟩ := List.mem_map.mp (List.max?_mem top)
    obtain ⟨i, used, rfl⟩ := mem_usedSlaves.mp member
    exact .inr ⟨i, used, time⟩

section
variable {s : State} {t : Nat} (on : Running s) {g : Fin 8}
include on

theorem execGearMasterLost_fallsBack (enabled : (s.clock t).servo.gears[g].en = true)
    (geared : (s.clock t).servo.gears[g].fallback = false ∨ (s.clock t).servo.gears[g].engaging = true)
    (lost : (s.clock t).masterLost (s.clock t).servo.gears[g].master.toNat = true) :
    execGearMasterLost t g s = .next (((s.clock t).setGear g fun y => { y with
      fallback := true, engaging := false, moveStart := (s.clock t).now, moveTime := (s.clock t).servo.gears[g].longest,
      slaves := y.slaves.map fun q => { q with
        from_ := (s.clock t).servo.gears[g].present q, moveTo := q.at (s.clock t).servo.gears[g].fallCount,
        engaged := false } }).raiseN 68 256) := by
  have moves : ((s.clock t).servo.gears[g].fallback && !(s.clock t).servo.gears[g].engaging) = false := by
    obtain geared | geared := geared <;> simp only [geared, Bool.not_true, Bool.false_and, Bool.and_false]
  simp only [execGearMasterLost, runRunning_next _ on, enabled, moves, lost, Bool.not_true, Bool.or_self, Bool.false_eq_true, if_false]
  rfl

/-! ## The return of a gear group (R387) -/

/-- A slave of group `g` engages again from where its fall-back has brought it. -/
def GearGroup.restart (x : GearGroup) (g now : Nat) (q : GearSlave) : GearSlave :=
  let place := F64.ofInt (q.fallTarget (now - x.moveStart) x.moveTime)
  let speed : F64 := if now < x.moveStart + x.moveTime then
      F64.div (F64.ofInt ((q.moveTo - q.from_) * second)) (F64.ofNat x.moveTime) else 0
  { q with axis := { pos := place, vel := F64.to32 speed, goal := place, target := place, vmax := q.vmax,
                     amax := F64.to32 (Config.gearAccel g), jmax := F64.to32 (Config.gearJerk g) } }

theorem execGearReengage_starts {a : Nat} (enabled : (s.clock t).servo.gears[g].en = true)
    (fallen : (s.clock t).servo.gears[g].fallback = true) (idle : (s.clock t).servo.gears[g].engaging = false)
    (back : (s.clock t).servo.gears[g].validSince = some a) (long : a + 100 * ms ≤ (s.clock t).now)
    (used : ∃ i : Fin 4, (s.clock t).servo.gears[g].slaves[i].slot ≠ 0xFF) :
    execGearReengage t g s = .next ((s.clock t).setGear g fun y =>
      { y with engaging := true, slaves := y.slaves.map ((s.clock t).servo.gears[g].restart g (s.clock t).now) }) := by
  have notEmpty : (s.clock t).servo.gears[g].slaves.toList.all (·.slot == 0xFF) = false := by
    obtain ⟨i, used⟩ := used
    rw [List.all_eq_false]
    exact ⟨_, Vector.mem_toList_iff.mpr (Vector.getElem_mem i.isLt), by simpa using used⟩
  simp only [execGearReengage, runRunning_next _ on, enabled, fallen, idle, back, long, notEmpty, decide_true, Bool.not_true, Bool.or_self,
    Bool.false_eq_true, if_false]
  rfl

end

/-! ## Latches (R388) -/

section
variable {s : State} {src lag stamp : Nat} {count : Int}

/-- The count of an incremental channel, while the latch's filter may still hold the edge. -/
theorem State.latchValue_incremental (notSsi : (at? s.field.pfb src).mode ≠ 1) (notBiss : (at? s.field.pfb src).mode ≠ 2)
    (soon : s.tb3 ≤ stamp + lag) :
    s.latchValue false src lag stamp count =
      some (count, F64.add (at? s.field.pfb src).offset (F64.mul (at? s.field.pfb src).scale (F64.ofInt count))) := by
  have mode : ((at? s.field.pfb src).mode == 1 || (at? s.field.pfb src).mode == 2) = false := by
    rw [beq_false_of_ne notSsi, beq_false_of_ne notBiss, Bool.or_self]
  simp only [State.latchValue, mode, Nat.not_lt.mpr soon, Bool.and_false, Bool.false_eq_true, if_false]

/-- The line between the frames on either side, for an SSI or BiSS-C channel. -/
theorem State.latchValue_between {before : Nat} {k : Int} (absolute : (at? s.field.pfb src).mode = 1 ∨ (at? s.field.pfb src).mode = 2)
    (last : (at? s.field.pfb src).prev = some (before, k)) (apart : before < (at? s.field.pfb src).stamp) (after : before ≤ stamp)
    (ahead : stamp ≤ (at? s.field.pfb src).stamp) :
    let p := at? s.field.pfb src
    let n : Int := k * (p.stamp - before : Nat) + (p.count - k) * (stamp - before : Nat)
    s.latchValue false src lag stamp count = some (n.fdiv (p.stamp - before : Nat),
      F64.add p.offset (F64.mul p.scale (f64OfRat n (p.stamp - before)))) := by
  have mode : ((at? s.field.pfb src).mode == 1 || (at? s.field.pfb src).mode == 2) = true := by simpa using absolute
  simp only [State.latchValue, PfbChannel.between, mode, last, apart, after, ahead, and_self, Bool.not_false, Bool.and_self,
    if_true, Option.map_some]

/-- The count of a drive's ring. -/
theorem State.latchValue_drive (soon : s.tb3 ≤ stamp + lag) :
    let k := (at? s.servo.steppers src).countAt s.now s.tb3 stamp
    s.latchValue true src lag stamp count = some (k, f64OfRat k 256) := by
  simp only [State.latchValue, Nat.not_lt.mpr soon, Bool.not_true, Bool.false_and, Bool.false_eq_true, if_false, if_true]

end

/-- What LATCH_DATA holds after an edge: a unit of one edge is disarmed by it, and one of every edge tells what it replaced. -/
def LatchUnit.take (x : LatchUnit) (falling : Bool) (stamp : Nat) (count : Int) (position : F64) : LatchUnit :=
  { config := if bitOf x.config.toNat 1 then x.config else x.config &&& 0xFFFFFFFE, stamp := stamp, count := count, position := position,
    valid := true, overwritten := bitOf x.config.toNat 1 && x.valid, falling := falling }

section
variable {s : State} {t : Nat} (on : Running s) {unit : Fin 8} {falling : Bool} {stamp : Nat} {count : Int}
  (enabled : bitOf (s.clock t).servo.latches[unit].config.toNat 0 = true)
  (armed : bitOf (s.clock t).servo.latches[unit].config.toNat (if falling then 3 else 2) = true) (past : stamp ≤ (s.clock t).tb3)
include on enabled armed past

/-- An edge of the armed kind whose value is known is taken; one of a drive makes its position valid. -/
theorem execLatched_takes {stp : Bool} {src lag : Nat} (kind : bitOf (s.clock t).servo.latches[unit].config.toNat 11 = stp)
    (source : bitsOf (s.clock t).servo.latches[unit].config.toNat 8 3 = src)
    (filter : (bitsOf (s.clock t).servo.latches[unit].config.toNat 22 5 + 1) * us = lag) {k : Int} {position : F64}
    (value : (s.clock t).latchValue stp src lag stamp count = some (k, position)) :
    execLatched t unit falling stamp count s =
      let v : State := { s.clock t with servo.latches := upd (s.clock t).servo.latches unit fun _ =>
        (s.clock t).servo.latches[unit].take falling stamp k position }
      .next (State.raiseN (if stp then
        { v with servo.steppers := upd v.servo.steppers src fun q => { q with posValid := true } } else v) 69 unit) := by
  subst kind source filter
  simp only [execLatched, runRunning_next _ on, enabled, armed, Nat.not_lt.mpr past, value, decide_false, Bool.not_true, Bool.or_self,
    Bool.false_eq_true, if_false]
  rfl

end

/-- Settles O19: each row is the lemma about its command (`exec…`); the time of a fall-back is `GearGroup.longest`, which is the longest
of its slaves' times, and what a latch takes is `State.latchValue`. -/
theorem servoReportsGearsAndLatches : Obligations.ServoReportsGearsAndLatches := by
  unfold Obligations.ServoReportsGearsAndLatches
  intro s t on
  refine ⟨fun n => execLoopLimit_enters on, fun n => execLoopLimit_leaves on, fun n r here => execFollowingError_enters on here,
    fun n r here => execFollowingError_leaves on here, fun n => execSlotHoldEnd_ends on, fun g enabled geared lost => ?fallsBack,
    fun g a enabled fallen idle back long used => ?reengages,
    fun unit falling stamp count enabled armed past =>
      ⟨fun pfb notSsi notBiss soon => ?incremental, fun before k pfb absolute last apart after ahead => ?between,
        fun drive soon => ?drive⟩⟩
  case fallsBack =>
    exact ⟨_, fun i => GearGroup.fallTime_le_longest _, GearGroup.longest_attained _,
      execGearMasterLost_fallsBack on enabled geared lost⟩
  case reengages =>
    exact ⟨(s.clock t).servo.gears[g].restart g (s.clock t).now, fun _ => ⟨rfl, rfl, rfl⟩,
      execGearReengage_starts on enabled fallen idle back long used⟩
  case incremental =>
    exact execLatched_takes on enabled armed past pfb rfl rfl (State.latchValue_incremental notSsi notBiss soon)
  case between =>
    exact execLatched_takes on enabled armed past pfb rfl rfl (State.latchValue_between absolute last apart after ahead)
  case drive =>
    exact execLatched_takes on enabled armed past drive rfl rfl (State.latchValue_drive soon)

end Sys2Proof.Machine
end

section
/-! Injection and capture (spec/10_thruster_servo_and_motion.md, R393, R394): their writes, and their ends. -/

namespace Sys2Proof.Machine

/-! ## A report may start an armed capture, and arms none (R394) -/

theorem InjCap.onEvent_armed {c : InjCap} {n : Nat} (armed : (c.onEvent n).capState = 1) : c.capState = 1 := by
  unfold InjCap.onEvent at armed
  split at armed
  next => exact absurd (show (2 : BitVec 8) = 1 from armed) (by decide)
  next => exact armed

theorem State.raise_armed {s : State} {n : Nat} {p0 p1 p2 p3 must} (unrouted : (s.route n).fault = false)
    (armed : (s.raise n p0 p1 p2 p3 must).servo.ic.capState = 1) : s.servo.ic.capState = 1 := by
  by_cases asserts : s.asserts n
  · rw [State.raise_of_room (State.raiseCore_unrouted p0 p1 p2 p3 must asserts unrouted).1] at armed
    simp only [State.raiseCore, asserts.1, asserts.2, State.route_noteRaised, unrouted, Bool.not_true, Bool.or_self, Bool.false_and,
      Bool.false_eq_true, if_false] at armed
    rw [(State.deliver_frame _ _ _ _ _ _ _ _).servo] at armed
    exact InjCap.onEvent_armed armed
  · have silent := State.raiseCore_silent (p0 := p0) (p1 := p1) (p2 := p2) (p3 := p3) (must := must) asserts
    rwa [State.raise_of_room (by rw [silent]), silent] at armed

theorem State.recordCommand_armed {s : State} {req op p0 v tm} (unrouted : (s.route 4).fault = false)
    (armed : (s.recordCommand req op p0 v tm).servo.ic.capState = 1) : s.servo.ic.capState = 1 := by
  have numbered := State.sourceIndex_frame s req.src tm
  unfold State.recordCommand at armed
  generalize s.sourceIndex req.src tm = q at armed numbered
  obtain ⟨i, w⟩ := q
  dsimp only at armed numbered
  have recorded := State.record_frame w
  have before := State.raise_armed
    (by rw [route_of_events (recorded _ _ _ _ _ _ _ _).events, route_of_events numbered.events]; exact unrouted) armed
  rwa [(recorded _ _ _ _ _ _ _ _).servo, numbered.servo] at before

theorem Ready.armed {s : State} {t req obj v} (ready : Ready s t req 0x11 (writeBody obj v))
    (armed : (s.atWrite t req obj v).servo.ic.capState = 1) : s.servo.ic.capState = 1 := by
  unfold State.atWrite State.taken at armed
  have before : (s.clock t).servo.ic.capState = 1 := State.recordCommand_armed (s := { s.clock t with
    qcp.queue := (s.clock t).qcp.queue.drop 1, qcp.busyRun := false }) ready.clock.report armed
  rwa [(s.clock_frame t).servo] at before

/-! ## What a configuration is judged by (R393, R394) -/

section
variable {s : State} {t : Nat} {req : Request} {obj : Word} {v : List Byte} (ready : Ready s t req 0x11 (writeBody obj v))
include ready

theorem Ready.injOk : (s.atWrite t req obj v).injOk (s.atWrite t req obj v).servo.ic.injConfig = s.injOk s.servo.ic.injConfig := by
  have frame := State.atWrite_frame ready
  have servo := State.atWrite_servo ready
  have config : (s.atWrite t req obj v).servo.ic.injConfig = s.servo.ic.injConfig := by rw [servo]
  have coeffs : (s.atWrite t req obj v).servo.coeffs = s.servo.coeffs := by rw [servo]
  rw [config]
  simp only [State.injOk, State.slotHere_congr frame.image frame.group, coeffs]

theorem Ready.capOk : (s.atWrite t req obj v).capOk (s.atWrite t req obj v).servo.ic.capConfig = s.capOk s.servo.ic.capConfig := by
  have frame := State.atWrite_frame ready
  have config : (s.atWrite t req obj v).servo.ic.capConfig = s.servo.ic.capConfig := by rw [State.atWrite_servo ready]
  rw [config]
  simp only [State.capOk, State.slotHere_congr frame.image frame.group]

end

/-! ## INJ_CONTROL and CAP_CONTROL (R393, R394) -/

section
variable {w : State} {c : WriteCtx}

section
variable (host : c.load = false) (test : w.modes.mode = .test)
include host test

theorem State.icWrite_injStart (ok : w.injOk w.servo.ic.injConfig = true)
    (unarmed : w.servo.ic.capState ≠ 1 ∨ fieldAt w.servo.ic.capConfig 1 1 ≠ 1) :
    w.icWrite c 1 [1] = done { w with servo.ic.injRunning := true, servo.ic.injN := 0, servo.ic.injSignal := 0 } := by
  have value : beVal [1] = 1 := rfl
  have trigger : (w.servo.ic.capState == 1 && fieldAt w.servo.ic.capConfig 1 1 == 1) = false := by
    rwa [Bool.and_eq_false_iff, beq_eq_false_iff_ne, beq_eq_false_iff_ne]
  have mode : (c.mode w != .test) = false := by simp [WriteCtx.mode, host, test]
  simp only [State.icWrite, mode, value, ok, trigger, List.length_singleton, bne_self_eq_false, Nat.lt_irrefl, decide_false,
    Bool.not_true, Bool.and_false, Bool.or_self, Bool.false_eq_true, Nat.one_ne_zero, if_false]

theorem State.icWrite_injStop : w.icWrite c 1 [0] = done w.stopInjection := by
  have value : beVal [0#8] = 0 := rfl
  have mode : (c.mode w != .test) = false := by simp [WriteCtx.mode, host, test]
  simp [State.icWrite, mode, value]

end

theorem State.icWrite_capArm (ok : w.capOk w.servo.ic.capConfig = true) :
    w.icWrite c 0x12 [1] = done { w with
      servo.ic.capState := if fieldAt w.servo.ic.capConfig 1 1 = 0 then 2 else 1, servo.ic.capData := [], servo.ic.capPre := [],
      servo.ic.capReadAt := 0, servo.ic.capT0 := 0, servo.ic.capDiv := fieldAt w.servo.ic.capConfig 4 2,
      servo.ic.capInterval := fieldAt w.servo.ic.capConfig 4 2 * second /
        max 1 (((w.loopRec? (fieldAt w.servo.ic.capConfig 0 1)).map (·.rate)).getD 1),
      servo.ic.capLast0 := none } := by
  have value : beVal [1#8] = 1 := rfl
  simp [State.icWrite, value, ok]

theorem State.icWrite_capStop : w.icWrite c 0x12 [0] = done { w with servo.ic.capState := 0 } := by
  have value : beVal [0#8] = 0 := rfl
  simp [State.icWrite, value]

end

/-! ## Their ends (R393, R394) -/

section
variable {s : State} {t : Nat} (on : Running s)
include on

theorem execInjectionDone_ends {r : LoopRec} (here : (s.clock t).slotHere (s.clock t).servo.ic.slot = some r)
    (runs : (s.clock t).servo.ic.injRunning = true)
    (finished : (s.clock t).servo.ic.finished r.rate (s.clock t).servo.ic.injN = true) :
    execInjectionDone t s = .next (State.raise ({ s.clock t with servo.ic.injRunning := false, servo.ic.injSignal := 0 }.setSlot
      (s.clock t).servo.ic.slot fun l => { l with injecting := false }) 72) := by
  simp only [execInjectionDone, runRunning_next _ on, here, runs, finished, Bool.and_self, if_true]

theorem execCaptureDone_ends (runs : (s.clock t).servo.ic.capState = 2)
    (full : (s.clock t).servo.ic.capCount ≤ (s.clock t).servo.ic.capData.length) :
    execCaptureDone t s = .next (State.raise { s.clock t with servo.ic.capState := 3 } 71) := by
  simp only [execCaptureDone, runRunning_next _ on, runs, full, beq_self_eq_true, decide_true, Bool.and_self, if_true]

end

/-- Settles O21: a write is the lemma about the value of the control object that it writes; what that lemma asks of the state in which SUP
carries the write out, the state before has, for the record of the write arms no capture (`Ready.armed`). -/
theorem injectionAndCapture : Obligations.InjectionAndCapture := by
  unfold Obligations.InjectionAndCapture
  intro s t on
  refine ⟨fun req ready test ok unarmed => ?injStart, fun req ready test => ?injStop, fun r => execInjectionDone_ends on,
    fun req ready ok => ?capArm, fun req ready => hostWrite_done ready State.icWrite_capStop, execCaptureDone_ends on⟩
  case injStart =>
    have config : (s.atWrite t req (objId 7 0x50 1) [1]).servo.ic.capConfig = s.servo.ic.capConfig := by rw [State.atWrite_servo ready]
    rw [← (State.atWrite_frame ready).modes] at test
    rw [← ready.injOk] at ok
    rw [← config] at unarmed
    exact hostWrite_done ready (State.icWrite_injStart rfl test ok (unarmed.imp_left (mt ready.armed)))
  case injStop =>
    rw [← (State.atWrite_frame ready).modes] at test
    exact hostWrite_done ready (State.icWrite_injStop rfl test)
  case capArm =>
    rw [← ready.capOk] at ok
    exact hostWrite_done ready (State.icWrite_capArm ok)

end Sys2Proof.Machine
end

section
/-! The stepper drives (spec/10_thruster_servo_and_motion.md, R389-R393): a full step and the current after it, stalls, rest, heat, the
supply, and the writes that clear a drive or zero its count. -/

namespace Sys2Proof.Machine

theorem at?_steppers (s : State) (d : Fin 4) : at? s.servo.steppers d = s.servo.steppers[d] := at?_eq _ _ d.isLt

theorem State.stepper?_fitted {s : State} (fitted : s.factory.optS = true) (d : Fin 4) : s.stepper? d = some s.servo.steppers[d] := by
  rw [State.stepper?, if_pos fitted, at?_steppers]

theorem State.setStepper_setStepper (s : State) (d : Nat) (f g : Stepper → Stepper) :
    (s.setStepper d f).setStepper d g = s.setStepper d fun q => g (f q) := by
  simp only [State.setStepper, upd_upd]

/-! ## A full step (R389, R390) -/

/-- A move made now is at STALL_MIN_RATE or above. -/
abbrev Stepper.fast (q : Stepper) (now : Nat) : Prop := F32.le q.stallMinRate (F64.to32 (q.rateOf now)) = true

/-- The drive after a full step, before its current follows the load angle. -/
def Stepper.stepped (q : Stepper) (now : Nat) (angle emf : BitVec 8) : Stepper :=
  { q with countBefore := q.count, count := q.count + q.nextMove, rate := F64.to32 (q.rateOf now), stepAt := now, moving := true,
           loadAngle := min 180 angle.toNat, weakSteps := if emf.toNat < 25 ∧ q.fast now then q.weakSteps + 1 else 0 }

/-- The current for which the load angle asks. -/
def Stepper.wanted (q : Stepper) (degrees : Nat) : F32 :=
  if 60 < degrees then F32.add q.current (F32.div (F32.sub q.iMax q.iMin) (F32.ofNat 16))
  else if degrees < 30 then F32.sub q.current (F32.div (F32.sub q.iMax q.iMin) (F32.ofNat 64))
  else q.current

theorem State.clock_stepper? {s : State} (fitted : s.factory.optS = true) (t : Nat) (d : Fin 4) :
    (s.clock t).stepper? d = some (s.clock t).servo.steppers[d] :=
  State.stepper?_fitted (by rw [(s.clock_frame t).factory]; exact fitted) d

section
variable {s : State} {t : Nat} {d : Fin 4} (on : Powered s) (fitted : s.factory.optS = true)
include on fitted

theorem execStepperCurrentStep_waits (early : (s.clock t).servo.steppers[d].mayStep (s.clock t).now = false) (angle emf : BitVec 8) :
    execStepperCurrentStep t d angle emf s = .next (s.clock t) := by
  simp only [execStepperCurrentStep, runPowered_next _ on, State.clock_stepper? fitted, early, Bool.not_false, Bool.or_true, if_true]

section
variable {q : Stepper} (drive : (s.clock t).servo.steppers[d] = q) (drives : (s.clock t).drives q = true)
  (may : q.mayStep (s.clock t).now = true) {angle emf : BitVec 8}
include drive drives may

theorem execStepperCurrentStep_stalls (steep : 120 < angle.toNat) (fast : q.fast (s.clock t).now) :
    execStepperCurrentStep t d angle emf s =
      .next (((s.clock t).setStepper d fun _ => q.stepped (s.clock t).now angle emf).stepperStall d
        (q.stepped (s.clock t).now angle emf)) := by
  have beyond : 120 < min 180 angle.toNat := by omega
  simp only [execStepperCurrentStep, runPowered_next _ on, State.clock_stepper? fitted, drive, drives, may, Stepper.watchesStall, beyond,
    Stepper.fast, fast, Stepper.stepped, decide_eq_true_eq, decide_true, Bool.not_true, Bool.or_self, Bool.and_self, Bool.and_true,
    Bool.false_eq_true, and_true, if_false, if_true]

/-- Up to 120 degrees the current becomes the one asked for, within its bounds; short of a bound that it moves towards, nothing is
reported. -/
theorem execStepperCurrentStep_follows (cool : q.thermal = false) (shallow : angle.toNat ≤ 120) {x : F32}
    (clamped : F32.clamp (q.wanted angle.toNat) q.iMin q.iMax = x) (belowMax : 60 < angle.toNat → F32.le q.iMax x = false)
    (aboveMin : angle.toNat < 30 → F32.le x q.iMin = false) :
    execStepperCurrentStep t d angle emf s = .next ((s.clock t).setStepper d fun _ =>
      { q.stepped (s.clock t).now angle emf with
        moving := (q.stepped (s.clock t).now angle emf).count != q.target, current := x, atImax := false, limitRaised := false }) := by
  have degrees : min 180 angle.toNat = angle.toNat := by omega
  have atMax : (decide (60 < angle.toNat) && F32.le q.iMax x) = false := by simpa using belowMax
  have atMin : (decide (angle.toNat < 30) && F32.le x q.iMin) = false := by simpa using aboveMin
  have calm : decide (120 < angle.toNat) = false := decide_eq_false (Nat.not_lt.mpr shallow)
  unfold Stepper.wanted at clamped
  simp only [execStepperCurrentStep, runPowered_next _ on, State.clock_stepper? fitted, drive, drives, may, Stepper.watchesStall, degrees,
    calm, cool, decide_eq_true_eq, clamped, atMax, atMin, State.setStepper_setStepper, Bool.not_true, Bool.not_false, Bool.or_self,
    Bool.false_and, Bool.and_true, Bool.true_and, Bool.false_eq_true, if_false]
  simp only [Stepper.stepped, Stepper.fast, degrees, cool, Bool.and_eq_true, decide_eq_true_eq]

end

end

/-! ## Stalls (R391) -/

/-- The stalls of the last second, with one at `now`. -/
def Stepper.recent (q : Stepper) (now : Nat) : List Nat := (q.stalls.filter fun a => decide (now ≤ a + second)) ++ [now]

/-- A drive stalls: it stops and holds I_MAX. -/
def State.stalled (s : State) (d : Nat) (recent : List Nat) (locks : Bool) : State :=
  (s.setStepper d fun q =>
    { q with stopped := true, moving := false, rate := 0, weakSteps := 0, current := q.iMax, posValid := false, stalls := recent,
             stalledAt := some s.now, locked := locks }).raiseN 78 d

theorem State.stepperStall_stops {c : State} {q : Stepper} (d : Nat) (few : (q.recent c.now).length < 3) :
    c.stepperStall d q = c.stalled d (q.recent c.now) false := by
  have locks : decide (3 ≤ (q.recent c.now).length) = false := decide_eq_false (Nat.not_le.mpr few)
  unfold Stepper.recent at locks
  simp only [State.stepperStall, locks, Bool.not_false, if_true]
  rfl

/-- One that no slot commands is locked, and that is all. -/
theorem State.stepperStall_locks {c : State} {q : Stepper} {d : Nat} (many : 3 ≤ (q.recent c.now).length)
    (uncommanded : (c.stalled d (q.recent c.now) true).driveSlot d = none) :
    c.stepperStall d q = c.stalled d (q.recent c.now) true := by
  have locks : decide (3 ≤ (q.recent c.now).length) = true := decide_eq_true many
  unfold State.stalled at uncommanded
  unfold Stepper.recent at locks uncommanded
  simp only [State.stepperStall, locks, uncommanded, Bool.not_true, Bool.false_eq_true, if_false]
  rfl

section
variable {s : State} {t : Nat} {d : Fin 4} (on : Powered s) (fitted : s.factory.optS = true)
include on fitted

theorem execStepperStall_weak (few : (s.clock t).servo.steppers[d].weakSteps < 4) : execStepperStall t d s = .next (s.clock t) := by
  simp only [execStepperStall, runPowered_next _ on, State.clock_stepper? fitted, Nat.not_le.mpr few, decide_false, Bool.and_false,
    Bool.false_eq_true, if_false]

theorem execStepperStall_stalls (drives : (s.clock t).drives (s.clock t).servo.steppers[d] = true)
    (watches : (s.clock t).servo.steppers[d].watchesStall = true) (weak : 4 ≤ (s.clock t).servo.steppers[d].weakSteps) :
    execStepperStall t d s = .next ((s.clock t).stepperStall d (s.clock t).servo.steppers[d]) := by
  simp only [execStepperStall, runPowered_next _ on, State.clock_stepper? fitted, drives, watches, weak, decide_true, Bool.and_self,
    if_true]

theorem execStallResume_resumes {a : Nat} (stalled : (s.clock t).servo.steppers[d].stalledAt = some a)
    (free : (s.clock t).servo.steppers[d].locked = false) (long : a + 50 * ms ≤ (s.clock t).now) :
    execStallResume t d s = .next ((s.clock t).setStepper d fun q => { q with stopped := false, stalledAt := none }) := by
  simp only [execStallResume, runPowered_next _ on, State.clock_stepper? fitted, stalled, free, Nat.not_lt.mpr long, decide_false,
    Bool.or_self, Bool.false_eq_true, if_false]

/-! ## Rest, heat and the supply (R390, R392) -/

theorem execStepperAtRest_rests (drives : (s.clock t).drives (s.clock t).servo.steppers[d] = true)
    (cool : (s.clock t).servo.steppers[d].thermal = false) (still : (s.clock t).servo.steppers[d].moving = false)
    (long : (s.clock t).servo.steppers[d].stepAt + 100 * ms ≤ (s.clock t).now) :
    execStepperAtRest t d s = .next ((s.clock t).setStepper d fun q => { q with current := q.iMin, rate := 0, atImax := false }) := by
  simp only [execStepperAtRest, runPowered_next _ on, State.clock_stepper? fitted, drives, cool, still, Nat.not_lt.mpr long, decide_false,
    Bool.not_true, Bool.or_self, Bool.false_eq_true, if_false]

theorem execStepperThermal_lowers {q : Stepper} (drive : (s.clock t).servo.steppers[d] = q) (v : BitVec 16)
    (drives : (s.clock t).drives q = true) (below : F32.lt (f32OfRat v.toNat 1000) q.iMin = true) (cool : q.thermal = false) :
    execStepperThermal t d v s = .next (((s.clock t).setStepper d fun q =>
      { q with current := F32.min (f32OfRat v.toNat 1000) q.iMin, thermal := true, atImax := false }).raise 122 (BitVec.ofNat 32 514)
        (BitVec.ofNat 32 d.val) q.iMin (f32OfRat v.toNat 1000) true) := by
  simp only [execStepperThermal, runPowered_next _ on, State.clock_stepper? fitted, drive, drives, below, cool, Bool.not_true,
    Bool.not_false, Bool.false_and, Bool.or_self, Bool.and_self, Bool.false_eq_true, if_false, if_true]

theorem execStpSupply_off (inRange : (s.clock t).servo.stpVoltageOff = false) :
    execStpSupply t true s = .next (State.raise { s.clock t with
      servo.stpVoltageOff := true, servo.steppers := (s.clock t).servo.steppers.map fun q =>
        { q with current := 0, moving := false, atImax := false } } 95) := by
  have option : (s.clock t).factory.optS = true := by rw [(s.clock_frame t).factory]; exact fitted
  simp only [execStpSupply, runPowered_next _ on, option, inRange, Bool.not_true, Bool.not_false, Bool.and_self, Bool.false_eq_true,
    if_false, if_true]

theorem execStpSupply_back (out : (s.clock t).servo.stpVoltageOff = true) :
    execStpSupply t false s = .next { s.clock t with
      servo.stpVoltageOff := false, servo.steppers := (s.clock t).servo.steppers.map fun q => { q with current := q.iMin } } := by
  have option : (s.clock t).factory.optS = true := by rw [(s.clock_frame t).factory]; exact fitted
  simp only [execStpSupply, runPowered_next _ on, option, out, Bool.not_true, Bool.not_false, Bool.and_self, Bool.false_and,
    Bool.false_eq_true, if_false, if_true]

end

/-! ## STP_CONTROL (R391, R395) -/

theorem State.ownPoint?_congr {s u : State} (image : u.image = s.image) (group : u.group = s.group) (kind channel : Nat) :
    u.ownPoint? kind channel = s.ownPoint? kind channel := by
  simp only [State.ownPoint?, State.me, image, group]

section
variable {w : State} {c : WriteCtx} {d : Nat} (fitted : w.factory.optS = true)
variable {p : PointRec} (wired : w.ownPoint? 6 d = some p)
include fitted wired

theorem State.stpWrite_clear : w.stpWrite c d 7 [1] = done (w.setStepper d fun q =>
    { q with locked := false, stopped := false, stalledAt := none, stalls := [] }) := by
  have value : beVal [1#8] = 1 := rfl
  have zero : bitOf 1 0 = true := rfl
  have one : bitOf 1 1 = false := rfl
  simp [State.stpWrite, State.stpControl, checkValue, fitted, wired, value, zero, one]

theorem State.stpWrite_zero (host : c.load = false) (modes : w.modes.mode = .idle ∨ w.modes.mode = .config ∨ w.modes.mode = .test) :
    w.stpWrite c d 7 [2] = done (w.setStepper d fun q => { q with count := 0 }) := by
  have value : beVal [2#8] = 2 := rfl
  have allowed : [Mode.idle, Mode.config, Mode.test].contains (c.mode w) = true := by
    obtain mode | mode | mode := modes <;> simp [WriteCtx.mode, host, mode]
  have acts (f : Unit → Done) : c.onlyIn w [.idle, .config, .test] f = f () := if_pos allowed
  have zero : bitOf 2 0 = false := rfl
  have one : bitOf 2 1 = true := rfl
  simp [State.stpWrite, State.stpControl, checkValue, fitted, wired, value, acts, zero, one]

end

/-- Settles O20: each row is the lemma about its command (`exec…`), where a full step takes the current that `Stepper.wanted` names or
stalls, and a stall is `State.stepperStall_stops` or `State.stepperStall_locks`; a write is the lemma about STP_CONTROL. -/
theorem stepperDrivesFollowTheLoad : Obligations.StepperDrivesFollowTheLoad := by
  unfold Obligations.StepperDrivesFollowTheLoad
  intro s t d on fitted
  refine ⟨fun angle emf drives may => ⟨fun cool low high => ?holds, fun cool low high belowMax => ?raises, fun cool low aboveMin =>
      ?lowers, fun steep fast => ?stalls⟩, execStepperCurrentStep_waits on fitted,
    ⟨execStepperStall_weak on fitted, fun drives watches weak => ⟨fun few => ?stops, fun many uncommanded => ?locks⟩⟩,
    fun a => execStallResume_resumes on fitted, execStepperAtRest_rests on fitted,
    fun v => execStepperThermal_lowers on fitted rfl v, execStpSupply_off on fitted, execStpSupply_back on fitted,
    fun req p wired => ⟨fun ready => ?clear, fun ready modes => ?zero⟩⟩
  case holds =>
    refine execStepperCurrentStep_follows on fitted rfl drives may cool (by omega) ?_ (fun beyond => ?_) (fun beyond => ?_)
    · rw [Stepper.wanted, if_neg (by omega), if_neg (by omega)]
    · omega
    · omega
  case raises =>
    refine execStepperCurrentStep_follows on fitted rfl drives may cool high ?_ (fun _ => belowMax) (fun beyond => ?_)
    · rw [Stepper.wanted, if_pos low]
    · omega
  case lowers =>
    refine execStepperCurrentStep_follows on fitted rfl drives may cool (by omega) ?_ (fun beyond => ?_) (fun _ => aboveMin)
    · rw [Stepper.wanted, if_neg (by omega), if_pos low]
    · omega
  case stalls => exact execStepperCurrentStep_stalls on fitted rfl drives may steep fast
  case stops =>
    exact (execStepperStall_stalls on fitted drives watches weak).trans (congrArg _ (State.stepperStall_stops d few))
  case locks =>
    exact (execStepperStall_stalls on fitted drives watches weak).trans (congrArg _ (State.stepperStall_locks many uncommanded))
  case clear =>
    have frame := State.atWrite_frame ready
    rw [← frame.factory] at fitted
    rw [← State.ownPoint?_congr frame.image frame.group] at wired
    exact hostWrite_done ready (State.stpWrite_clear fitted wired)
  case zero =>
    have frame := State.atWrite_frame ready
    rw [← frame.factory] at fitted
    rw [← frame.modes] at modes
    rw [← State.ownPoint?_congr frame.image frame.group] at wired
    exact hostWrite_done ready (State.stpWrite_zero fitted wired rfl modes)

end Sys2Proof.Machine
end

section
/-! The sample of a servo slot (spec/10_thruster_servo_and_motion.md): the bound of its output (R365, R366), its fixed arithmetic
(R367-R369), a trigger that is skipped, and the third invalid sample (R366, R372). -/

namespace Sys2Proof.Machine

theorem at?_slots (s : State) (n : Fin 32) : at? s.servo.slots n = s.servo.slots[n] := at?_eq _ _ n.isLt

theorem at?_coeffs (s : State) (n : Fin 32) : at? s.servo.coeffs n = s.servo.coeffs[n] := at?_eq _ _ n.isLt

theorem at?_counts (s : State) (n : Fin 32) : at? s.servo.counts n = s.servo.counts[n] := at?_eq _ _ n.isLt

/-- As time passes, nothing but the time bases and the receiver moves. -/
theorem State.clock_eq (s : State) (t : Nat) : s.clock t = { s with time := (s.clock t).time, gnss := (s.clock t).gnss } := by
  unfold State.clock
  dsimp only
  split <;> rfl

/-! ## The bound of an output (R365, R366) -/

theorem State.slotLatency_eq (s : State) (n : Nat) (r : LoopRec) : ∃ g : Nat, g ≤ 4 ∧ s.slotLatency n r = 1000 + 550 * g := by
  refine ⟨_, ?_, rfl⟩
  refine Nat.div_le_of_le_mul ((List.findIdx_le_length).trans ?_)
  rw [List.length_append, ← List.length_eq_length_filter_add]
  exact (List.length_filterMap_le _ _).trans (by simp)

theorem State.missesBound_late {s : State} {n : Nat} {r : LoopRec} {latency : Nat} (innermost : s.innermost n = true)
    (late : s.slotLatency n r + 1000 < latency) : s.missesBound n r latency = true := by
  simp [State.missesBound, innermost, late]

theorem State.missesBound_early {s : State} {n : Nat} {r : LoopRec} {latency : Nat} (early : latency ≤ s.slotLatency n r + 1000) :
    s.missesBound n r latency = false := by
  simp [State.missesBound, Nat.not_lt.mpr early]

/-! ## What a sample leaves alone -/

/-- Of the parts `ps` alone anything has changed; the coefficients, the generators, the gear groups and whether an injection runs are as
they were, and the slots are these. -/
structure LoopsBecome (ps : List Part) (s : State) (slots : Vector LoopSlot 32) (u : State) : Prop where
  frame : FrameBut ps s u
  slots : u.servo.slots = slots
  coeffs : u.servo.coeffs = s.servo.coeffs
  axes : u.servo.axes = s.servo.axes
  gears : u.servo.gears = s.servo.gears
  injects : u.servo.ic.injRunning = s.servo.ic.injRunning

section LoopsBecome
variable {ps qs : List Part} {s u v : State} {slots slots' : Vector LoopSlot 32}

theorem LoopsBecome.mono (h : LoopsBecome ps s slots u) (sub : ps ⊆ qs) : LoopsBecome qs s slots u := { h with frame := h.frame.mono sub }

theorem LoopsBecome.trans (h : LoopsBecome ps s slots u) (k : LoopsBecome ps u slots' v) : LoopsBecome ps s slots' v :=
  ⟨h.frame.trans k.frame, k.slots, k.coeffs.trans h.coeffs, k.axes.trans h.axes, k.gears.trans h.gears, k.injects.trans h.injects⟩

/-- An operation that keeps the slots, after one. -/
theorem LoopsBecome.keep (h : LoopsBecome ps s slots u) (k : LoopsBecome ps u u.servo.slots v) : LoopsBecome ps s slots v := by
  rw [h.slots] at k
  exact h.trans k

theorem LoopsBecome.refl : LoopsBecome ps s s.servo.slots s := ⟨.refl _ _, rfl, rfl, rfl, rfl, rfl⟩

theorem LoopsBecome.of_frame (h : FrameBut ps s u) (other : Part.servo ∉ ps) : LoopsBecome ps s s.servo.slots u := by
  have servo := h.servo other
  exact ⟨h, by rw [servo], by rw [servo], by rw [servo], by rw [servo], by rw [servo]⟩

end LoopsBecome

theorem State.setSlot_loops (s : State) (n : Nat) (f : LoopSlot → LoopSlot) :
    LoopsBecome [.servo] s (upd s.servo.slots n f) (s.setSlot n f) :=
  ⟨frame_set_servo s _, rfl, rfl, rfl, rfl, rfl⟩

theorem State.setCounts_loops (s : State) (n : Nat) (f : LoopCounts → LoopCounts) :
    LoopsBecome [.servo] s s.servo.slots (s.setCounts n f) :=
  ⟨frame_set_servo s _, rfl, rfl, rfl, rfl, rfl⟩

theorem State.raise_loops {s : State} {n : Nat} {p0 p1 p2 p3 must} (unrouted : (s.route n).fault = false) :
    LoopsBecome quietParts s s.servo.slots (s.raise n p0 p1 p2 p3 must) := by
  have servo := (State.raise_fine s n p0 p1 p2 p3 must unrouted).servo
  exact ⟨State.raise_quiet s n p0 p1 p2 p3 must unrouted, by rw [servo], by rw [servo], by rw [servo], by rw [servo], by rw [servo]⟩

theorem State.captureTick_loops (s : State) (n : Nat) : LoopsBecome [.servo] s s.servo.slots (s.captureTick n) := by
  unfold State.captureTick
  dsimp only
  split
  · exact .refl
  split
  · exact ⟨frame_set_servo s _, rfl, rfl, rfl, rfl, rfl⟩
  · refine ⟨frame_set_servo s _, rfl, rfl, rfl, rfl, ?_⟩
    dsimp only
    split_ifs <;> rfl

theorem State.judgeFeedback_frame (s : State) (th : Nat) : FrameBut [.law] s (s.judgeFeedback th) := .ite (frame_set_law s _) (.refl _ _)

/-- The drive that a slot commands aims where the slot's output tells (R389). -/
def State.aimDrive (s : State) (r : LoopRec) (out : F32) : State :=
  match s.slotDrive r with
  | some d => { s with servo.steppers := upd s.servo.steppers d fun q => { q with target := F32.nearest (F32.mul out (F32.ofNat 256)) } }
  | none => s

/-- The U output that a slot drives takes the slot's output as its duty (R413). -/
def State.loadOutput (s : State) (r : LoopRec) (out : F32) : State :=
  match s.slotU r with
  | some u => s.loadDuty u (F32.clamp out 0 F32.one)
  | none => s

theorem State.putSlot_eq (s : State) (n : Nat) (r : LoopRec) (k : SlotCoeffs) (l : LoopSlot) (frozen : Bool) :
    s.putSlot n r k l frozen =
      let atLimit := F32.eq l.integ k.outMin || F32.eq l.integ k.outMax
      let u := (((s.setSlot n fun _ => { l with iAtLimit := atLimit }).aimDrive r l.out).loadOutput r l.out).clearOverloads
      if atLimit && !l.iAtLimit && !frozen then u.raiseN 65 n else u := rfl

theorem State.aimDrive_loops (s : State) (r : LoopRec) (out : F32) : LoopsBecome [.servo] s s.servo.slots (s.aimDrive r out) := by
  unfold State.aimDrive
  split
  · exact ⟨frame_set_servo s _, rfl, rfl, rfl, rfl, rfl⟩
  · exact .refl

theorem State.loadOutput_frame (s : State) (r : LoopRec) (out : F32) : FrameBut [.field] s (s.loadOutput r out) := by
  unfold State.loadOutput
  split
  · exact frame_set_field s _
  · exact .refl _ _

/-- A slot that has been computed is put back, and what it drives follows; one that may raise LOOP_WINDUP does so. -/
theorem State.putSlot_loops {s : State} {n : Nat} {r : LoopRec} {k : SlotCoeffs} {l : LoopSlot} {frozen : Bool}
    (quiet : frozen = true ∨ (s.route 65).fault = false) :
    LoopsBecome quietParts s (upd s.servo.slots n fun _ => { l with iAtLimit := F32.eq l.integ k.outMin || F32.eq l.integ k.outMax })
      (s.putSlot n r k l frozen) := by
  rw [State.putSlot_eq]
  have put := (s.setSlot_loops n fun _ => { l with iAtLimit := F32.eq l.integ k.outMin || F32.eq l.integ k.outMax }).keep
    (State.aimDrive_loops _ r l.out)
  have driven := (put.mono (qs := [.servo, .field]) (by decide)).keep <|
    (LoopsBecome.of_frame ((State.loadOutput_frame _ r l.out).trans (State.clearOverloads_frame _)) (by decide)).mono (by decide)
  dsimp only
  split
  next entered =>
    have thawed : frozen = false := by simpa using (Bool.and_eq_true_iff.mp entered).2
    have unrouted := quiet.resolve_left (by rw [thawed]; decide)
    rw [← route_of_events driven.frame.events] at unrouted
    exact (driven.mono (by decide)).keep (State.raise_loops unrouted)
  next => exact driven.mono (by decide)

theorem State.slotFault_loops {s : State} {n : Nat} (unrouted : (s.route 76).fault = false) :
    LoopsBecome ([.law] ++ quietParts) s (upd s.servo.slots n fun l => { l with faulted := true, state := 3 }) (s.slotFault n true) := by
  have judged := (((s.setSlot_loops n fun l => { l with faulted := true, state := 3 }).mono (qs := [.law, .servo]) (by decide)).keep
    ((LoopsBecome.of_frame (State.judgeFeedback_frame _ (s.slotSlice n)) (by decide)).mono (by decide)))
  rw [← route_of_events judged.frame.events] at unrouted
  exact (judged.mono (by decide)).keep ((State.raise_loops unrouted).mono (by decide))

/-! ## What a sample starts from (R311, R368, R393) -/

/-- The set-point that the snapshot in force gives to a slot of a thruster. -/
def State.snapshotInput (s : State) (th : ThrusterRec) (a : Nat) : SlotInput :=
  { value := axisValue (setOf s.cycle.front.setpoints th.slice) a, at_ := s.cycle.appliedAt }

/-- A slot that nothing but its thruster's snapshot feeds, directly. -/
structure State.FedBySnapshot (s : State) (n : Nat) (r : LoopRec) (th : ThrusterRec) (a : Nat) : Prop where
  outermost : r.outer = 0xFF
  noHost : (at? s.servo.slots n).hostSp = none
  notGeared : s.gearOf n = none
  named : s.namedBy n = some (th, a)
  unshaped : th.generator = 0xFF

theorem State.slotInput_snapshot {s : State} {n : Nat} {r : LoopRec} {th : ThrusterRec} {a : Nat} (fed : s.FedBySnapshot n r th a) :
    s.slotInput n r = (s.snapshotInput th a, s) := by
  obtain ⟨outermost, noHost, notGeared, named, unshaped⟩ := fed
  simp only [State.slotInput, outermost, noHost, notGeared, named, unshaped, bne_self_eq_false, Bool.false_eq_true, if_false, if_true]
  rfl

theorem State.inject_idle {s : State} (idle : s.servo.ic.injRunning = false) (n rate : Nat) : s.inject n rate = (0, s) := by
  simp only [State.inject, idle, Bool.not_false, Bool.true_or, if_true]

section
variable (l : LoopSlot) (q : SlotInput)

@[simp] theorem LoopSlot.takeSp_faulted : (l.takeSp q).faulted = l.faulted := rfl
@[simp] theorem LoopSlot.takeSp_holdLeft : (l.takeSp q).holdLeft = l.holdLeft := rfl
@[simp] theorem LoopSlot.takeSp_release : (l.takeSp q).release = l.release := rfl
@[simp] theorem LoopSlot.takeSp_out : (l.takeSp q).out = l.out := rfl
@[simp] theorem LoopSlot.takeSp_fbPrev : (l.takeSp q).fbPrev = l.fbPrev := rfl

end

/-- The slot as its arithmetic takes it: with its set-point, the rate of it, and its feedback. -/
def LoopSlot.taken (l : LoopSlot) (q : SlotInput) (fb : F32) (now : Nat) : LoopSlot :=
  { l.takeSp q with sp := F32.add q.value 0, fb := fb, lastAt := now, outPrev := l.out, injecting := false }

/-- The slot after a sample that computes (R367-R369). -/
def LoopSlot.sampled (l : LoopSlot) (k : SlotCoeffs) (rate : Nat) (q : SlotInput) (fb : F32) (now : Nat) : LoopSlot :=
  let x := l.taken q fb now
  { k.sample x rate (loopTerms k rate x.sp x.spRate fb l.fbPrev) 0 false with state := 1, fbPrev := fb }

section
variable {s : State} {n : Fin 32} {r : LoopRec} {x : SlotFeedback} {q : SlotInput} (input : s.slotInput n r = (q, s))
  (idle : s.servo.ic.injRunning = false) (ungathered : s.modes.gatheredHold = false)
include input idle ungathered

/-- A slot in FAULT holds FAULT_OUTPUT. -/
theorem State.slotCompute_faulted (faulted : (at? s.servo.slots n).faulted = true) :
    ∃ l : LoopSlot, (l.faulted = true ∧ l.state = 3 ∧ l.out = (at? s.servo.coeffs n).faultOut) ∧
      s.slotCompute n r x = s.putSlot n r (at? s.servo.coeffs n) l true := by
  simp only [State.slotCompute, input, State.inject_idle idle, ungathered, LoopSlot.takeSp_faulted, faulted, Bool.false_eq_true, if_false,
    if_true]
  refine ⟨_, ?_, rfl⟩
  exact ⟨rfl, rfl, rfl⟩

theorem State.slotCompute_samples (sound : (at? s.servo.slots n).faulted = false) (thawed : s.slotFrozen n = false)
    (free : (at? s.servo.slots n).holdLeft = 0) (valid : x.valid = true)
    (inner : ∀ m ∈ s.innerOf n, (at? s.servo.slots m).faulted = false) (running : (at? s.servo.slots n).release = none)
    (atSp : fieldAt s.servo.ic.injConfig 1 1 = 0) :
    ∃ f, s.slotCompute n r x = (s.setCounts n f).putSlot n r (at? s.servo.coeffs n)
      ((at? s.servo.slots n).sampled (at? s.servo.coeffs n) r.rate q x.value s.tb3) false := by
  have within : ((s.innerOf n).any fun m => (at? s.servo.slots m).faulted) = false := by
    rw [List.any_eq_false]
    exact fun m member => by rw [inner m member]; decide
  simp only [State.slotCompute, input, State.inject_idle idle, ungathered, LoopSlot.takeSp_faulted,
    LoopSlot.takeSp_holdLeft, LoopSlot.takeSp_release, LoopSlot.takeSp_out, LoopSlot.takeSp_fbPrev, sound, thawed, free, valid, within,
    running, atSp, idle, LoopSlot.sampled, LoopSlot.taken, beq_self_eq_true, Bool.not_true, Bool.false_and, Nat.lt_irrefl, Bool.false_eq_true,
    if_false, if_true]
  exact ⟨_, rfl⟩

end

/-! ## A trigger (R366, R372) -/

@[simp] theorem State.setCounts_slots (s : State) (n : Nat) (f : LoopCounts → LoopCounts) :
    (s.setCounts n f).servo.slots = s.servo.slots := rfl

section
variable {s : State} {n : Fin 32} {r : LoopRec} {x : SlotFeedback}

theorem State.slotTrigger_overruns {missed : Bool} (late : s.now < (at? s.servo.counts n).busyUntil ∨ missed = true) :
    s.slotTrigger n r x missed = (s.setCounts n fun k => { k with overruns := sat32 k.overruns }).raise 74 := by
  have skipped : (decide (s.now < (at? s.servo.counts n).busyUntil) || missed) = true := by simpa using late
  simp only [State.slotTrigger, skipped, if_true]

variable (done : (at? s.servo.counts n).busyUntil ≤ s.now)
include done

theorem State.slotTrigger_settles (settling : x.settling = true) : s.slotTrigger n r x false = s := by
  simp only [State.slotTrigger, Nat.not_lt.mpr done, settling, decide_false, Bool.or_self, Bool.false_eq_true, if_false, if_true]

variable (settled : x.settling = false) (sound : (at? s.servo.slots n).faulted = false)
include settled sound

theorem State.slotTrigger_computes (valid : x.valid = true) :
    ∃ f, s.slotTrigger n r x false = ((s.setCounts n f).setSlot n fun l => { l with fbInvalid := false }).slotCompute n r x := by
  simp only [State.slotTrigger, Nat.not_lt.mpr done, settled, valid, State.setSlot_servo_slots, State.setCounts_slots,
    at?_upd_self _ _ _ n.isLt, sound, decide_false, Bool.or_self, Bool.not_true, Bool.not_false, Bool.true_and, Bool.false_and,
    Bool.false_eq_true, if_false, if_true]
  exact ⟨_, rfl⟩

/-- The third invalid sample in a row puts the slot in FAULT. -/
theorem State.slotTrigger_faults (invalid : x.valid = false) (third : (at? s.servo.counts n).invalidRun = 2) :
    ∃ f, s.slotTrigger n r x false =
      (((s.setCounts n f).setSlot n fun l => { l with fbInvalid := true }).slotFault n true).slotCompute n r x := by
  simp only [State.slotTrigger, Nat.not_lt.mpr done, settled, invalid, third, State.setSlot_servo_slots, State.setCounts_slots,
    at?_upd_self _ _ _ n.isLt, sound, decide_false, Bool.or_self, Bool.not_false, Bool.false_eq_true, if_false]
  exact ⟨_, rfl⟩

end

/-! ## SLOT_SAMPLE (R366-R369, R372, R394) -/

theorem State.gearOf_congr {s u : State} (gears : u.servo.gears = s.servo.gears) (n : Nat) : u.gearOf n = s.gearOf n := by
  simp only [State.gearOf, gears]

theorem State.namedBy_congr {s u : State} (image : u.image = s.image) (n : Nat) : u.namedBy n = s.namedBy n := by
  simp only [State.namedBy, State.thrusters, image]

theorem State.FedBySnapshot.of_loops {ps : List Part} {s u : State} {slots} {n : Nat} {r : LoopRec} {th : ThrusterRec} {a : Nat}
    (fed : s.FedBySnapshot n r th a) (h : LoopsBecome ps s slots u) (image : Part.image ∉ ps)
    (noHost : (at? slots n).hostSp = none) : u.FedBySnapshot n r th a where
  outermost := fed.outermost
  noHost := by rw [h.slots]; exact noHost
  notGeared := by rw [State.gearOf_congr h.gears]; exact fed.notGeared
  named := by rw [State.namedBy_congr (h.frame.image image)]; exact fed.named
  unshaped := fed.unshaped

section
variable {s : State} {n : Fin 32} {r : LoopRec} {x : SlotFeedback} {th : ThrusterRec} {a : Nat} (fed : s.FedBySnapshot n r th a)
  (idle : s.servo.ic.injRunning = false) (ungathered : s.modes.gatheredHold = false)
  (done : (at? s.servo.counts n).busyUntil ≤ s.now) (settled : x.settling = false) (sound : (at? s.servo.slots n).faulted = false)
include fed idle ungathered done settled sound

/-- A valid sample with nothing held puts back the slot that its arithmetic makes. -/
theorem State.slotSample_samples (unrouted : (s.route 65).fault = false) (valid : x.valid = true) (thawed : s.slotFrozen n = false)
    (free : (at? s.servo.slots n).holdLeft = 0) (inner : ∀ m ∈ s.innerOf n, (at? s.servo.slots m).faulted = false)
    (running : (at? s.servo.slots n).release = none) (atSp : fieldAt s.servo.ic.injConfig 1 1 = 0) :
    ∃ b : Bool, LoopsBecome quietParts s (upd s.servo.slots n fun _ =>
      { ({ at? s.servo.slots n with fbInvalid := false } : LoopSlot).sampled (at? s.servo.coeffs n) r.rate (s.snapshotInput th a)
          x.value s.tb3 with iAtLimit := b }) (s.slotSample n r x false) := by
  obtain ⟨f, computes⟩ := State.slotTrigger_computes (r := r) done settled sound valid
  have before := (s.setCounts_loops n f).trans ((s.setCounts n f).setSlot_loops n fun l => { l with fbInvalid := false })
  generalize same : (s.setCounts n f).setSlot n (fun l => { l with fbInvalid := false }) = w at before computes
  have slot : at? w.servo.slots n = { at? s.servo.slots n with fbInvalid := false } := by
    rw [before.slots]; exact at?_upd_self _ _ _ n.isLt
  have within : ∀ m ∈ w.innerOf n, (at? w.servo.slots m).faulted = false := by
    intro m member
    by_cases self : n.val = m
    · rw [← self, slot]; exact sound
    · rw [before.slots, at?_upd_ne _ _ _ _ self]
      exact inner m (by rw [← same] at member; exact member)
  have input := State.slotInput_snapshot (fed.of_loops before (by decide) (by rw [← before.slots, slot]; exact fed.noHost))
  obtain ⟨g, samples⟩ := State.slotCompute_samples (x := x) input (before.injects.trans idle)
    (by rw [before.frame.modes]; exact ungathered) (by rw [slot]; exact sound) (by rw [← same]; exact thawed) (by rw [slot]; exact free)
    valid within (by rw [slot]; exact running) (by rw [← same]; exact atSp)
  have reads : w.snapshotInput th a = s.snapshotInput th a ∧ w.tb3 = s.tb3 ∧ w.route 65 = s.route 65 := by
    rw [← same]; exact ⟨rfl, rfl, rfl⟩
  obtain ⟨fedBy, clock, route⟩ := reads
  rw [slot, before.coeffs, fedBy, clock] at samples
  generalize LoopSlot.sampled _ _ _ _ _ _ = l at samples ⊢
  rw [← route] at unrouted
  have put := (before.mono (qs := quietParts) (by decide)).trans <| ((w.setCounts_loops n g).mono (by decide)).trans <|
    State.putSlot_loops (s := w.setCounts n g) (n := n) (r := r) (k := at? s.servo.coeffs n) (l := l) (frozen := false) (.inr unrouted)
  rw [← samples, ← computes, State.setCounts_slots, before.slots, upd_upd] at put
  exact ⟨_, put.keep ((State.captureTick_loops _ _).mono (by decide))⟩

/-- The third invalid sample leaves the slot in FAULT, at FAULT_OUTPUT. -/
theorem State.slotSample_faults (unrouted : (s.route 76).fault = false) (invalid : x.valid = false)
    (third : (at? s.servo.counts n).invalidRun = 2) :
    ∃ l : LoopSlot, (l.faulted = true ∧ l.state = 3 ∧ l.out = (at? s.servo.coeffs n).faultOut) ∧
      LoopsBecome ([.law] ++ quietParts) s (upd s.servo.slots n fun _ => l) (s.slotSample n r x false) := by
  obtain ⟨f, computes⟩ := State.slotTrigger_faults (r := r) done settled sound invalid third
  have marked := (s.setCounts_loops n f).trans ((s.setCounts n f).setSlot_loops n fun l => { l with fbInvalid := true })
  have fault := (marked.mono (by decide)).trans (State.slotFault_loops (n := n)
    (s := (s.setCounts n f).setSlot n fun l => { l with fbInvalid := true }) unrouted)
  generalize ((s.setCounts n f).setSlot n fun l => { l with fbInvalid := true }).slotFault n true = w at fault computes
  rw [marked.slots, upd_upd] at fault
  have slot : at? w.servo.slots n = { at? s.servo.slots n with fbInvalid := true, faulted := true, state := 3 } := by
    rw [fault.slots]; exact at?_upd_self _ _ _ n.isLt
  have input := State.slotInput_snapshot (fed.of_loops fault (by decide) (by rw [← fault.slots, slot]; exact fed.noHost))
  obtain ⟨l, ⟨faulted, state, out⟩, holds⟩ := State.slotCompute_faulted (x := x) input (fault.injects.trans idle)
    (by rw [fault.frame.modes]; exact ungathered) (by rw [slot])
  rw [fault.coeffs] at out
  have put := fault.trans ((State.putSlot_loops (s := w) (n := n) (r := r) (k := at? w.servo.coeffs n) (l := l) (frozen := true)
    (.inl rfl)).mono (by decide))
  rw [← holds, ← computes, fault.slots, upd_upd] at put
  exact ⟨_, by exact ⟨faulted, state, out⟩, put.keep ((State.captureTick_loops _ _).mono (by decide))⟩

end

theorem execSlotSample_next {s : State} {t : Nat} {n : Fin 32} {r : LoopRec} (on : Running s) (here : (s.clock t).slotHere n = some r)
    (latency : Nat) : execSlotSample t n latency s =
      .next ((s.clock t).slotSample n r ((s.clock t).slotFeedback r) ((s.clock t).missesBound n r latency)) := by
  simp only [execSlotSample, runRunning_next _ on, here]

theorem State.FedBySnapshot.clock {s : State} {n : Nat} {r : LoopRec} {th : ThrusterRec} {a : Nat}
    (fed : s.FedBySnapshot n r th a) (t : Nat) : (s.clock t).FedBySnapshot n r th a :=
  fed.of_loops (.of_frame (s.clock_frame t) (by decide)) (by decide) fed.noHost

/-- Settles O17: a trigger that is skipped is `State.slotTrigger_overruns` or `State.slotTrigger_settles`, and one that computes leaves the
slots that `State.slotSample_samples` and `State.slotSample_faults` tell. -/
theorem servoSampleIsTheFixedArithmetic : Obligations.ServoSampleIsTheFixedArithmetic := by
  unfold Obligations.ServoSampleIsTheFixedArithmetic
  intro s t n r th a on here outermost noHost notGeared named unshaped ungathered idle windup lost
  have frame := s.clock_frame t
  have fed : (s.clock t).FedBySnapshot n r th a :=
    State.FedBySnapshot.clock ⟨outermost, by rw [at?_slots]; exact noHost, notGeared, named, unshaped⟩ t
  rw [← State.slotHere_congr frame.image frame.group] at here
  rw [← frame.servo] at idle
  rw [← frame.modes] at ungathered
  rw [← route_of_events frame.events] at windup lost
  simp only [← at?_slots, ← at?_coeffs, ← at?_counts]
  have ran (y : Nat) := execSlotSample_next (latency := y) on here
  have others (slots : Vector LoopSlot 32) (l : LoopSlot) (m : Fin 32) (other : m ≠ n) :
      at? (upd slots n fun _ => l) m = at? slots m := at?_upd_ne _ _ _ _ (Fin.val_ne_of_ne other.symm)
  refine ⟨fun y innermost late => ?late, fun y => State.missesBound_early, State.slotLatency_eq _ _ _,
    fun fb y inTime feedback done sound free running thawed inner atSp => ?samples, fun y late => ?overruns,
    fun y inTime settling done => ?settles, fun y inTime settled invalid done third sound => ?faults⟩
  case late => exact State.missesBound_late (by rw [State.clock_eq]; exact innermost) late
  case samples =>
    obtain ⟨b, sampled⟩ := State.slotSample_samples (x := { value := fb }) fed idle ungathered done rfl sound windup rfl
      (by rw [State.clock_eq]; exact thawed) free (by rw [State.clock_eq]; exact inner) running (by rw [frame.servo]; exact atSp)
    specialize ran y
    rw [inTime, feedback] at ran
    refine ⟨_, ran, ?_⟩
    rw [sampled.slots, at?_upd_self _ _ _ n.isLt]
    exact ⟨rfl, rfl, rfl, rfl, rfl, rfl, rfl, others _ _, sampled.coeffs, sampled.axes, sampled.gears, sampled.frame⟩
  case overruns => exact (ran y).trans (congrArg (fun u => Host.Outcome.next (u.captureTick n)) (State.slotTrigger_overruns late))
  case settles =>
    specialize ran y
    rw [inTime] at ran
    exact ran.trans (congrArg (fun u => Host.Outcome.next (u.captureTick n)) (State.slotTrigger_settles done settling))
  case faults =>
    obtain ⟨l, ⟨faulted, state, out⟩, fault⟩ :=
      State.slotSample_faults fed idle ungathered done settled sound lost invalid third
    specialize ran y
    rw [inTime] at ran
    refine ⟨_, ran, ?_⟩
    rw [fault.slots, at?_upd_self _ _ _ n.isLt]
    exact ⟨faulted, state, out, others _ _, fault.frame⟩

end Sys2Proof.Machine
end

section
/-! The writes of the field channels (spec/11_field_channels.md): the level of an output (R412), the control of a universal channel (R415,
R432) and the value of an analog output (R426). -/

namespace Sys2Proof.Machine

theorem at?_u (s : State) (ch : Fin 32) : at? s.field.u ch = s.field.u[ch] := at?_eq _ _ ch.isLt

section
variable {w : State} {c : WriteCtx}

/-! ## U_SET and AO_SET (R412, R426) -/

section
variable (host : c.load = false) (notIdle : w.modes.mode ≠ .idle) (notConfig : w.modes.mode ≠ .config)
  (notSafe : w.modes.mode ≠ .safe)
include host notIdle notConfig notSafe

theorem WriteCtx.mode_drives : [Mode.idle, .config, .safe].contains (c.mode w) = false := by
  simp [WriteCtx.mode, host, notIdle, notConfig, notSafe]

/-- An output that takes its level from U_SET. -/
theorem State.uSet_sets {n : Nat} {v : BitVec 8} (output : (at? w.field.u n).cfg.output = true)
    (slotless : (at? w.field.u n).cfg.source = 0) (level : v.toNat ≤ 1) :
    w.uSet c n [v] = done (State.clearOverloads (w.setU n fun x => { x with setTo := some (v == 1) })) := by
  have value : beVal [v] = v.toNat := beVal_be8 v
  have set : (v.toNat == 1) = (v == 1) := by rw [Bool.eq_iff_iff, beq_iff_eq, beq_iff_eq, ← BitVec.toNat_inj]; rfl
  simp only [State.uSet, output, value, slotless, set, WriteCtx.mode_drives host notIdle notConfig notSafe, Nat.not_lt.mpr level,
    List.length_singleton, bne_self_eq_false, decide_false, Bool.not_true, Bool.or_self, Bool.false_eq_true, if_false]

/-- A wired analog output that no slot drives. -/
theorem State.aoSet_sets {n : Nat} {p : PointRec} {v : F32} (wired : w.ownPoint? 4 n = some p) (slotless : w.slotFor p.id = none)
    (finite : v.finite = true) : w.aoSet c n (be32 v) = done (w.setAo n fun a => { a with setTo := some v }) := by
  have length : (be32 v).length = 4 := rfl
  simp only [State.aoSet, wired, slotless, length, f32At_be32, finite, WriteCtx.mode_drives host notIdle notConfig notSafe,
    bne_self_eq_false, Option.isSome_none, Bool.not_true, Bool.or_self, Bool.false_eq_true, if_false]

end

/-! ## U_CONTROL (R415, R432) -/

/-- Bit 0 clears OVERLOAD, bit 1 the count. -/
theorem State.uControl_clears {v : BitVec 8} (known : v.toNat < 4) (n : Nat) :
    w.uControl n [v] = done (w.setU n fun x =>
      { x with overload := x.overload && !bitOf v.toNat 0, count := if bitOf v.toNat 1 then 0 else x.count }) := by
  have value : beVal [v] = v.toNat := beVal_be8 v
  simp only [State.uControl, checkValue, value, known, List.length_singleton, beq_self_eq_true, decide_true, Bool.and_self, if_true]

theorem State.uControl_overload (n : Nat) : w.uControl n [1] = done (w.setU n fun x => { x with overload := false }) := by
  have overload : bitOf (1 : BitVec 8).toNat 0 = true := rfl
  have count : bitOf (1 : BitVec 8).toNat 1 = false := rfl
  simp only [State.uControl_clears (v := 1) (by decide), overload, count, Bool.not_true, Bool.and_false, Bool.false_eq_true, if_false]

theorem State.uControl_count (n : Nat) : w.uControl n [2] = done (w.setU n fun x => { x with count := 0 }) := by
  have overload : bitOf (2 : BitVec 8).toNat 0 = false := rfl
  have count : bitOf (2 : BitVec 8).toNat 1 = true := rfl
  simp only [State.uControl_clears (v := 2) (by decide), overload, count, Bool.not_false, Bool.and_true, if_true]

end

/-! ## The slots of the points (R362) -/

theorem State.slotFor_congr {s u : State} (image : u.image = s.image) (id : Nat) : u.slotFor id = s.slotFor id := by
  simp only [State.slotFor, image]

/-- Settles O23: each write is the lemma about the object that it writes; what that lemma asks of the state in which SUP carries the
write out, the state before has. -/
theorem fieldObjectsTakeWrites : Obligations.FieldObjectsTakeWrites := by
  unfold Obligations.FieldObjectsTakeWrites
  refine fun s t req => ⟨fun ch v ready output slotless level notIdle notConfig notSafe => ?uSet,
    fun ch ready => hostWrite_done ready (State.uControl_overload ch), fun ch ready => hostWrite_done ready (State.uControl_count ch),
    fun ch v p ready wired slotless finite notIdle notConfig notSafe => ?aoSet⟩
  case uSet =>
    rw [← (State.atWrite_frame ready).modes] at notIdle notConfig notSafe
    rw [← at?_u, ← State.atWrite_field_u ready] at output slotless
    exact hostWrite_done ready (State.uSet_sets rfl notIdle notConfig notSafe output slotless level)
  case aoSet =>
    have frame := State.atWrite_frame ready
    rw [← frame.modes] at notIdle notConfig notSafe
    rw [← State.ownPoint?_congr frame.image frame.group] at wired
    rw [← State.slotFor_congr frame.image] at slotless
    exact hostWrite_done ready (State.aoSet_sets rfl notIdle notConfig notSafe wired slotless finite)

end Sys2Proof.Machine
end

section
/-! What the field channels report (spec/11_field_channels.md): the supervision of outputs (R415, R416), supplies (R417), event lines and
the output watchdog (R414, R422, R423), analog output faults (R427), and frames of position feedback (R430, R431). -/

namespace Sys2Proof.Machine

/-! ## What a frame of position feedback leaves (R430, R431) -/

/-- The entry of a channel after a good frame (R430). -/
def PfbChannel.stored (p : PfbChannel) (f : PfbFrame) : PfbChannel :=
  { p with count := p.extended f.raw, stamp := f.stamp, prev := if p.stamp = 0 then none else some (p.stamp, p.count), faultRun := false,
           warnedStill := f.warning && p.mode == 2 && p.extended f.raw == p.count, warning := f.warning && p.mode == 2,
           zSeen := p.zSeen || (f.z && p.zEn) }

/-- The entry of a channel after a faulty frame (R431). -/
def PfbChannel.faulted (p : PfbChannel) (f : PfbFrame) : PfbChannel :=
  { p with cause := p.causeOf f, faults := sat32 p.faults, faultRun := true, warning := f.warning && p.mode == 2 }

/-- The state after a good frame of a channel that is used, before its point delivers it. -/
def State.storePfb (s : State) (ch : Fin 8) (f : PfbFrame) : State :=
  (s.setPfb ch fun p => p.stored f).gearMasterFrame ch (!(s.field.pfb[ch].stored f).warnedStill)
    (s.field.pfb[ch].stored f).count f.stamp

theorem State.storePfb_channel (s : State) (ch : Fin 8) (f : PfbFrame) :
    (s.storePfb ch f).field.pfb[ch] = s.field.pfb[ch].stored f := (getElem_upd _ _ _ _ ch.isLt).trans (if_pos rfl)

theorem State.storePfb_others (s : State) {ch k : Fin 8} (f : PfbFrame) (other : k ≠ ch) :
    (s.storePfb ch f).field.pfb[k] = s.field.pfb[k] :=
  (getElem_upd _ _ _ _ k.isLt).trans (if_neg (Fin.val_ne_of_ne other.symm))

theorem State.storePfb_frame (s : State) (ch : Fin 8) (f : PfbFrame) : FrameBut [.field, .servo] s (s.storePfb ch f) :=
  (frame_set_field s _).append (frame_set_servo _ _)

/-! ## The count of a position (R430) -/

section
variable {p : PfbChannel} (binary : p.gray = false) (forward : p.dir = false) (raw : Nat)
include binary forward

/-- The count moves by the shortest way round to the raw position. -/
theorem PfbChannel.extended_eq_bmod : p.extended raw = p.count + Int.bmod (raw - p.count) (2 ^ p.bits) := by
  have residue (a b : Int) : a.emod b = a % b := rfl
  simp only [PfbChannel.extended, Int.bmod, residue, binary, forward, Bool.and_false, Bool.false_eq_true, if_false]
  split <;> split <;> omega

theorem PfbChannel.extended_emod : (p.extended raw - raw) % ((2 ^ p.bits : Nat) : Int) = 0 := by
  have same : ((2 ^ p.bits : Nat) : Int) ∣ Int.bmod (raw - p.count) (2 ^ p.bits) - (raw - p.count) := Int.dvd_bmod_sub_self
  rw [PfbChannel.extended_eq_bmod binary forward]
  refine Int.emod_eq_zero_of_dvd ?_
  convert same using 1
  ring

theorem PfbChannel.extended_lt : 2 * (p.extended raw - p.count) < ((2 ^ p.bits : Nat) : Int) := by
  have below := Int.bmod_lt (x := raw - p.count) (Nat.two_pow_pos p.bits)
  rw [PfbChannel.extended_eq_bmod binary forward]
  omega

theorem PfbChannel.extended_ge : -((2 ^ p.bits : Nat) : Int) ≤ 2 * (p.extended raw - p.count) := by
  have above := Int.le_bmod (x := raw - p.count) (Nat.two_pow_pos p.bits)
  rw [PfbChannel.extended_eq_bmod binary forward]
  omega

end

/-! ## The range of a supply (R417) -/

theorem supplyBeyond_eq {mv : BitVec 16} {out : Bool} (beyond : out = true ↔ mv.toNat < 18000 ∨ 32000 < mv.toNat) :
    (decide (mv.toNat < 18000) || decide (32000 < mv.toNat)) = out := by
  rw [Bool.eq_iff_iff, Bool.or_eq_true, decide_eq_true_eq, decide_eq_true_eq]
  exact beyond.symm

section
variable {s : State} {t : Nat} (on : Powered s)
include on

/-! ## The supervision of an output (R415, R416) -/

section
variable {ch : Fin 32}

theorem execOutputOverload_switchesOff (clear : (s.clock t).field.u[ch].overload = false)
    (carries : F32.le ((s.clock t).uValue ch) 0 = false) :
    execOutputOverload t ch s = .next (((s.clock t).setU ch fun x => { x with overload := true }).raiseN 82 ch) := by
  simp only [execOutputOverload, runPowered_next _ on, clear, carries, Bool.or_self, Bool.false_eq_true, if_false]

/-- An output that carries no enable is compared whatever SAF does. -/
theorem execOutputReadback_fails (output : (s.clock t).field.u[ch].cfg.output = true)
    (clear : (s.clock t).field.u[ch].overload = false) (sound : (s.clock t).field.u[ch].readbackFail = false)
    (supplied : (at? (s.clock t).field.banks (ch.val / 16)).uvlo = false) (plain : (s.clock t).isEnable ch = false) :
    execOutputReadback t ch s = .next (((s.clock t).setU ch fun x => { x with readbackFail := true }).raise 83) := by
  simp only [execOutputReadback, runPowered_next _ on, output, clear, sound, supplied, plain, Bool.not_true, Bool.false_and, Bool.or_self,
    Bool.false_eq_true, if_false]

theorem execOpenLoad_flags (carries : F32.le ((s.clock t).uValue ch) 0 = false) :
    execOpenLoad t ch s = .next ((s.clock t).setU ch fun x => { x with openLoad := true }) := by
  simp only [execOpenLoad, runPowered_next _ on, carries, Bool.false_eq_true, if_false]

end

/-! ## The supplies (R417) -/

section
variable {b : Fin 2} {mv : BitVec 16}

section
variable {out : Bool} (beyond : out = true ↔ mv.toNat < 18000 ∨ 32000 < mv.toNat)
include beyond

/-- A supply that leaves its range, or comes back into it. -/
theorem execFieldSupply_changes (other : (s.clock t).field.banks[b].outOfRange ≠ out) :
    execFieldSupply t b out mv s = .next (State.raiseN { s.clock t with
      field.banks := (s.clock t).field.banks.set b { (s.clock t).field.banks[b] with outOfRange := out, millivolt := mv } } 87
        (b.val + flagBit out 8)) := by
  have range := supplyBeyond_eq beyond
  simp only [execFieldSupply, runPowered_next _ on, range, bne_self_eq_false, beq_eq_false_iff_ne.mpr other, Bool.false_eq_true, if_false]

/-- One that stays on its side of the bounds is measured, and that is all. -/
theorem execFieldSupply_measures (same : (s.clock t).field.banks[b].outOfRange = out) :
    execFieldSupply t b out mv s = .next { s.clock t with
      field.banks := (s.clock t).field.banks.set b { (s.clock t).field.banks[b] with millivolt := mv } } := by
  have range := supplyBeyond_eq beyond
  simp only [execFieldSupply, runPowered_next _ on, range, same, bne_self_eq_false, beq_self_eq_true, Bool.false_eq_true, if_true, if_false]

end

theorem execUvlo_takes {low : Bool} (beyond : if low then mv.toNat < 15000 else 16000 < mv.toNat) :
    execUvlo t b low mv s = .next { s.clock t with
      field.banks := (s.clock t).field.banks.set b { (s.clock t).field.banks[b] with uvlo := low, millivolt := mv } } := by
  have takes : (if low then decide (mv.toNat < 15000) else decide (16000 < mv.toNat)) = true := by
    cases low <;> exact decide_eq_true beyond
  simp only [execUvlo, runPowered_next _ on, takes, if_true]

end

/-! ## Event lines and the output watchdog (R414, R422, R423) -/

theorem execEventLinePulseEnd_ends {n : Fin 8} {a : Nat} (pulse : (s.clock t).field.lines[n].pulseUntil = some a)
    (due : a ≤ (s.clock t).now) :
    execEventLinePulseEnd t n s = .next (State.clearOverloads { s.clock t with
      field.lines := (s.clock t).field.lines.set n { (s.clock t).field.lines[n] with pulseUntil := none } }) := by
  simp only [execEventLinePulseEnd, runPowered_next _ on, pulse, due, if_true]

theorem execWatchdogExpired_expires (watched : (s.clock t).field.expired = false)
    (due : (s.clock t).field.retriggeredAt + (if (s.clock t).field.handover then 400 else (s.clock t).field.watchdog) * ms ≤
      (s.clock t).now) :
    execWatchdogExpired t s =
      let h := (s.clock t).captureHolds
      .next (State.raise (State.clearOverloads { h with
        field.expired := true, servo.steppers := h.servo.steppers.map fun q =>
          { q with target := q.count, moving := false, rate := 0, current := q.iMin, atImax := false } }) 84) := by
  simp only [execWatchdogExpired, runPowered_next _ on, watched, Nat.not_lt.mpr due, decide_false, Bool.or_self, Bool.false_eq_true,
    if_false]

/-! ## Analog outputs (R427) -/

section
variable {ch : Fin 16} {p : PointRec} {v : F32} {present : Bool} (wired : (s.clock t).ownPoint? 4 ch.val = some p)
include wired

/-- A fault that begins or ends: a short in the voltage range, an open loop in a current range. -/
theorem execAoFault_changes (other : ((s.clock t).field.ao[ch].short || (s.clock t).field.ao[ch].open_) = !present)
    (bears : (s.clock t).aoBears ch p present v = true) :
    execAoFault t ch present v s = .next (((s.clock t).setAo ch fun a =>
      { a with measured := v, short := present && p.mode == 0, open_ := present && p.mode != 0 }).raiseN 85
        (ch.val + flagBit present 8)) := by
  simp only [execAoFault, runPowered_next _ on, wired, bears, other, Bool.not_beq_self, Bool.not_true, Bool.false_eq_true, if_false]

end

/-! ## Position feedback (R430, R431) -/

section
variable {ch : Fin 8} {f : PfbFrame} (used : (s.clock t).field.pfb[ch].mode ≠ 0)
include used

/-- The first faulty frame of a run. -/
theorem execPfbFrame_faults (faulty : (s.clock t).field.pfb[ch].causeOf f ≠ 0) (first : (s.clock t).field.pfb[ch].faultRun = false) :
    execPfbFrame t ch f s = .next ((((s.clock t).setPfb ch fun p => p.faulted f).gearMasterFrame ch false 0 0).raiseN 86 ch
      (some ((s.clock t).field.pfb[ch].causeOf f).toNat)) := by
  simp only [execPfbFrame, runPowered_next _ on, used, bne_iff_ne.mpr faulty, first, Bool.false_eq_true, if_true, if_false]
  rfl

/-- A good frame is stored, reaches the gear groups of its channel, and may be delivered. -/
theorem execPfbFrame_stores (good : (s.clock t).field.pfb[ch].causeOf f = 0) :
    execPfbFrame t ch f s = .next (((s.clock t).storePfb ch f).deliverPfb ch (s.clock t).field.pfb[ch].stamp) := by
  simp only [execPfbFrame, runPowered_next _ on, used, good, bne_self_eq_false, Bool.false_eq_true, if_false]
  rfl

end

end

section
variable {s : State} {t : Nat} (on : Running s)
include on

theorem execWatchdogRetrigger_retriggers (plain : (s.clock t).field.handover = false) :
    execWatchdogRetrigger t s = .next { s.clock t with field.retriggeredAt := (s.clock t).now } := by
  simp only [execWatchdogRetrigger, runRunning_next _ on, plain, Bool.false_eq_true, if_false]

/-- The first after a restart with state handover. -/
theorem execWatchdogRetrigger_handsOver (handover : (s.clock t).field.handover = true) :
    execWatchdogRetrigger t s = .next { s.clock t with
      field.retriggeredAt := (s.clock t).now, field.handover := false, field.programBank := !(s.clock t).field.programBank,
      saf.cmdFresh := true } := by
  simp only [execWatchdogRetrigger, runRunning_next _ on, handover, if_true]

end

/-- Settles O24: each row is the lemma about its command (`exec…`); what a good frame stores is `State.storePfb`, and the count it leaves
is the nearest one that is congruent to the raw position (`PfbChannel.extended_eq_bmod`). -/
theorem fieldSupervisionAndFeedback : Obligations.FieldSupervisionAndFeedback := by
  unfold Obligations.FieldSupervisionAndFeedback
  intro s t on
  refine ⟨fun ch => execOutputOverload_switchesOff on, fun ch => execOutputReadback_fails on, fun ch => execOpenLoad_flags on,
    fun b out mv other beyond => execFieldSupply_changes on beyond other,
    fun b out mv same beyond => execFieldSupply_measures on beyond same, fun b low mv => execUvlo_takes on,
    fun n a => execEventLinePulseEnd_ends on, execWatchdogRetrigger_retriggers, execWatchdogRetrigger_handsOver,
    execWatchdogExpired_expires on, fun ch p v wired long closed bears => ?begins, fun ch p v wired faulty bears => ?ends,
    fun ch f => execPfbFrame_faults on, fun ch f used good binary forward => ?stores⟩
  case begins => exact execAoFault_changes on wired (by rw [long, closed]; rfl) bears
  case ends => exact execAoFault_changes on wired (by rwa [Bool.not_false, Bool.or_eq_true]) bears
  case stores =>
    refine ⟨_, execPfbFrame_stores on used good, ?_⟩
    rw [State.storePfb_channel]
    exact ⟨rfl, rfl, PfbChannel.extended_emod binary forward f.raw, PfbChannel.extended_lt binary forward f.raw,
      PfbChannel.extended_ge binary forward f.raw, fun k => State.storePfb_others _ f, rfl, rfl, State.storePfb_frame _ ch f⟩

end Sys2Proof.Machine
end

section
/-! The whole block (spec/16_command_protocol.md, R563; spec/13_modes_and_start_up.md, R474): steps and runs in the order of the queue, and
what a command does without power. -/

namespace Sys2Proof.Machine
set_option Elab.async false

/-! ## Steps (R563) -/

theorem step_of_pending {s : State} {c : Instr} {rest : List Instr} (waiting : s.pending = c :: rest) :
    step s = exec c { s with pending := rest } := by
  unfold step
  rw [waiting]

theorem step_of_idle {s : State} (idle : s.pending = []) : step s = .next s := by
  unfold step
  rw [idle]

/-- Settles O1: the two equations of `step`. -/
theorem stepRunsTheFrontCommand : Obligations.StepRunsTheFrontCommand := by
  unfold Obligations.StepRunsTheFrontCommand
  exact ⟨fun s c rest => step_of_pending, fun s => step_of_idle⟩

theorem step_completes (s : State) : ∃ u : State, step s = .next u := by
  cases waiting : s.pending with
  | nil => exact ⟨s, step_of_idle waiting⟩
  | cons c rest =>
    obtain ⟨u, ended, -⟩ := exec_completesFitted (s := { s with pending := rest }) c
    exact ⟨u, (step_of_pending waiting).trans ended⟩

/-! ## Runs (R563) -/

/-- A step before a run. -/
theorem Runs.head {s t u : State} (first : Steps s t) (r : Runs t u) : Runs s u := by
  induction r with
  | refl => exact (Runs.refl s).tail first
  | tail _ last ih => exact ih.tail last

/-- Each step of a run takes one command, so what waits after it is a tail of what waited before. -/
theorem Runs.pending_eq {s u : State} (r : Runs s u) : ∃ n : Nat, u.pending = s.pending.drop n := by
  induction r with
  | refl => exact ⟨0, rfl⟩
  | tail _ last ih =>
    obtain ⟨n, before⟩ := ih
    exact ⟨n + 1, by rw [(step_keepsFitted last).pending, before, List.drop_drop]⟩

/-- As many steps as commands wait empty the queue. -/
theorem Runs.empties {n : Nat} {s : State} (waiting : s.pending.length = n) : ∃ u : State, Runs s u ∧ u.pending = [] := by
  induction n generalizing s with
  | zero => exact ⟨s, .refl s, List.length_eq_zero_iff.mp waiting⟩
  | succ n ih =>
    obtain ⟨t, first⟩ := step_completes s
    have fewer : t.pending.length = n := by rw [(step_keepsFitted first).pending, List.length_drop, waiting, Nat.add_sub_cancel]
    obtain ⟨u, rest, empty⟩ := ih fewer
    exact ⟨u, rest.head first, empty⟩

/-- Settles O5: a step takes one command and adds none (`step_keepsFitted`); the rest is by induction on the run and on the queue. -/
theorem commandsLeaveTheQueueInOrder : Obligations.CommandsLeaveTheQueueInOrder := by
  unfold Obligations.CommandsLeaveTheQueueInOrder
  exact ⟨fun s u h => (step_keepsFitted h).pending, step_completes, fun s u => Runs.pending_eq, fun s => Runs.empties rfl⟩

/-! ## Without power (R474) -/

/-- All that the command has done is to let time pass. -/
def LetsTimePass (s : State) (o : Out) : Prop := ∃ t : Nat, o = .next (s.clock t)

section
variable {s : State} (off : s.modes.phase = .off)
include off

theorem runPowered_letsTimePass {t f} : LetsTimePass s (runPowered t s f) := ⟨t, runPowered_off f (not_not.mpr off)⟩

theorem runRunning_letsTimePass {t f} : LetsTimePass s (runRunning t s f) := ⟨t, runRunning_off f (not_not.mpr off)⟩

theorem runHost_letsTimePass {t f} : LetsTimePass s (runHost t s f) := runPowered_letsTimePass off

theorem runPanel_letsTimePass {t f} : LetsTimePass s (runPanel t s f) := runPowered_letsTimePass off

/-- Every row but three acts through a gate that is shut without power: one of an island that runs through a restart, one of an island
that a restart stops, one of the host's, or one of the panel's. -/
theorem exec_letsTimePass {i : Instr} (notStart : ∀ t f, i ≠ .powerGood t f) (notCut : ∀ t b, i ≠ .pwrInputCut t b)
    (notLevel : ∀ t b o, i ≠ .pwrInputLevel t b o) : LetsTimePass s (exec i s) := by
  cases i with
  | powerGood t f => exact absurd rfl (notStart t f)
  | pwrInputCut t b => exact absurd rfl (notCut t b)
  | pwrInputLevel t b o => exact absurd rfl (notLevel t b o)
  | waveformStart | waveformEnd | railsOn | railsOff | railFault | railRetry | panelTemperature | panelCrcCheck =>
    unfold exec
    exact runPanel_letsTimePass off
  | imageCommit | captureDataRead | gnbRestart | userCommit | userDiscard | dcPreset | dcFreeze | refReadmit | refEnable | twDepth
  | targetPose | refineReset | setpointGeo | setpointMove | setpointHeading | joyDemand | trackCommit | trackDiscard | targetState
  | powerAvailable | checkStart | coefficientWrite | slotHold | slotSetpoint | pgMove | gearRatioWrite | stpClear | stpZero | injStart
  | injStop | capArm | capStop | capDataRead | uSet | uClear | countReset | aoSet | safSelftest | safReset | modeRequest | restartCold
  | restartWithHandover | abort | transfer | resync | memberIndex | canRecover | canTx | canTimingWrite | serTx | qcpFrameReceived
  | ping | read | write | subscribe | unsubscribe | recRead | attest | enrol | recControlFlush | recRearm | binEnvelope | updateOpen
  | updateChunk | updateQuery | updateActivate | pnlDraw | pnlRefresh | pnlCheck | pnlVcom =>
    unfold exec
    exact runHost_letsTimePass off
  | cycleTick | sampleArrival | waitLimitExpiry | exchangeLimit | closeMissing | drDelayExpiry | estimateOverrun | refTimeoutExpiry
  | refQuarantined | refAdmitted | autoReadmit | solverJobStart | solveStop | solverDeadline | solveReportTimeout | allocationDegraded
  | fallbackOn | fallbackOff | commandLate | commandStale | faultHandled | imageVerifyDone | deferredTimeout | captureDrain
  | gnssEpoch | searchPassDone | handoverDone | lossOfLock | reacqWindowExpiry | notchSpectrum | jamUpdate | joyTimeoutExpiry
  | trackTargetLost | powerTimeoutExpiry | powerLimitActive | thrustSaturated | checkDone | slotSample | loopLimit | followingError
  | slotHoldEnd | gearMasterLost | gearReengage | latched | injectionDone | captureDone | watchdogRetrigger | lockstepMismatch
  | supRamEcc | llpSet | llpClose | llpSolveReport | llpCommit | llpResyncRequest | llpCopyPlan | llpCopyChunk | copyFail
  | resyncRetry | stepDone | missingCommit | roleElectionTimeout | sentenceParse | attestDone | chunkWritten | chunkPartsExpiry
  | channelLock =>
    unfold exec
    exact runRunning_letsTimePass off
  | commandInstant | clockLoss | clockLossRelease | ptpMessageReceived | tbSourceLost | tb3SourceChange | holdoverLimitExceeded
  | timeStep | leapSecond | captureEdge | compareFire | ppsInEdge | ppsInLost | antSupplyShort | antSupplyRetry | aiOutput
  | stepperStall | stallResume | stepperCurrentStep | stepperThermal | stpSupply | inputTransition | chatterQuiet | inputStuck
  | inputDelivery | outputOverload | outputReadback | openLoad | fieldSupply | uvlo | eventLinePulseEnd | watchdogExpired | aoFault
  | pfbFrame | safetyDemand | testPulseMismatch | patternFault | sfCmd | darkPulse | heldOffCheckFail | safPeriodicSelftest
  | handoverReady | llpHello | linkDown | llpTime | llpYield | llpTakeover | contactLost | lnkCreditStall | switchFrameIngress
  | ethLink | datagramReceived | iec450Datagram | feedbackTimeout | canFrameReceived | canFrameTransmitted | canTxAttemptFailed
  | canRecoveryDone | serialCharacter | leaseExpiry | telemetrySend | dtlsHandshake | qcpSettingEffect | flushDone | flushWindowEnd
  | sealSigned | recFull | powerFail | geyserDone | supplyReturn | holdupExhausted | entropyFail | fumaroleSample | ledgerDaily
  | binRaise | binLower | mramRefresh | overtemp | antSupplyOpen | canRxError | safetyInputHealthy | stpClamping | stepperAtRest
  | entropyPass | ovenStatus | holdupCharged | llpPeriodicSend | ptpDelayReq =>
    unfold exec
    exact runPowered_letsTimePass off

end

/-- Settles O3: every command ends in a next state (`exec_completesFitted`), and without power no gate opens (`exec_letsTimePass`). -/
theorem everyCommandCompletes : Obligations.EveryCommandCompletes := by
  unfold Obligations.EveryCommandCompletes
  refine ⟨fun i s => ?_, fun i s off notStart notCut notLevel => exec_letsTimePass off notStart notCut notLevel⟩
  obtain ⟨u, ended, -⟩ := exec_completesFitted (s := s) i
  exact ⟨u, ended⟩

end Sys2Proof.Machine
end

section
/-! Service that refuses (spec/16_command_protocol.md, R568, R570, R575), and what a report outside the fault handler leaves of the routes. -/

namespace Sys2Proof.Machine
set_option Elab.async false

/-- The DETAIL of a WRITE that is refused (R570): for NOT_LEAD the index of the LEAD, else 0. -/
def State.refusalDetail (s : State) : Status → Word
  | .notLead => if s.leadIndex == 0xF then 0xFF else s.leadIndex.setWidth 32
  | _ => 0

theorem Ready.unbarred {s : State} {t req obj v} (ready : Ready s t req 0x11 (writeBody obj v)) :
    (s.atWrite t req obj v).group.versionHold = false := by
  rw [(State.atWrite_frame ready).group]
  exact ready.version

/-- A ready WRITE that its object refuses: the refusal, and nothing else. -/
theorem hostWrite_refused {s w : State} {t req obj v} {act : WriteCtx → State → Done} {st : Status} {b : List Byte}
    (ready : Ready s t req 0x11 (writeBody obj v)) (no : st ≠ .ok)
    (refuses : act (s.hostCtx req) (s.atWrite t req obj v) = refuse st w b) :
    ∃ u : State, runHost t s (fun s => s.hostWrite req obj v act) = .next u ∧
      Answered u req 0x11 st (be32 obj ++ be32 ((s.atWrite t req obj v).refusalDetail st)) ∧ FrameBut [.time, .gnss, .qcp] s u := by
  have unbarred := ready.unbarred
  have queue : (s.clock t).qcp = s.qcp := (s.clock_frame t).qcp
  have answer : State.writeAct req obj (fun c => act { c with arrived := (s.clock t).qcp.queue.head?.map (·.at_) }) (s.atWrite t req obj v) =
      refuse st w (be32 obj ++ be32 ((s.atWrite t req obj v).refusalDetail st)) := by
    unfold State.hostCtx at refuses
    rw [State.writeAct]
    simp only [unbarred, queue, refuses, Bool.false_eq_true, if_false]
    cases st with
    | ok => exact absurd rfl no
    | _ => rfl
  refine ⟨_, runHost_next _ ready.running ready.started, ?_⟩
  unfold State.hostWrite
  unfold State.atWrite at answer unbarred
  rw [State.serve_refused (t := t) _ _ ready.clock (fun _ => unbarred) (by rw [answer]; exact no) (by rw [answer]; rfl)
    (by rw [answer]; rfl), answer]
  exact ⟨Answered.respond _ _ _ _ _, ((s.clock_frame t).append (frame_set_qcp _ _)).trans
    ((State.respond_frame _ _ _ _ _).mono (by decide))⟩

end Sys2Proof.Machine
end

section
/-! Modes (spec/13_modes_and_start_up.md): the moves there are (R465, R467), requests (R465, R466) and entry to SAFE (R471, R472, R512). -/

namespace Sys2Proof.Machine
set_option Elab.async false

/-! ## The moves that are judged OK (R465, R467) -/

section
variable {s : State} {m : Mode}

theorem okIf_gate {ok : Bool} (h : (if ok then Status.ok else Status.wrongMode) = .ok) : ok = true := by
  by_contra no
  rw [if_neg no] at h
  exact absurd h (by decide)

theorem State.mayEnter_cause (h : s.mayEnter m = true) : s.modes.cause = {} := by
  simp only [State.mayEnter, SafeCause.none?, Bool.and_eq_true, beq_iff_eq] at h
  exact h.1.1

theorem State.mayEnter_observed (h : s.mayEnter m = true) (fixes : m = .station ∨ m = .track) : s.obs.state = 3 := by
  rcases fixes with rfl | rfl <;> simp only [State.mayEnter, Bool.and_eq_true, beq_iff_eq] at h
  · exact h.2
  · exact h.2.1

/-- A move is judged by the mode it begins in. -/
theorem State.judgeMove_from {a : Mode} (from_ : s.modes.mode = a) : s.judgeMove m = { s with modes.mode := a }.judgeMove m := by
  rw [← from_]

/-- What holds of the state with each mode put in holds of the state. -/
theorem State.congr_mode {f g : State → Status} (same : ∀ a : Mode, f { s with modes.mode := a } = g { s with modes.mode := a }) : f s = g s :=
  same s.modes.mode

/-- The gate of a positioning mode: it is entered from IDLE or from another. -/
def State.startGate (s : State) (m : Mode) : Status :=
  if m.positioning && (s.modes.mode == .idle || s.modes.mode.positioning) then (if s.mayEnter m then .ok else .wrongMode)
  else .wrongMode

theorem State.judgeMove_startGate (positioning : m.positioning = true) : s.judgeMove m = s.startGate m := by
  refine State.congr_mode (f := fun s => s.judgeMove m) (g := fun s => s.startGate m) fun a => ?_
  cases m with
  | idle | config | test | safe => exact absurd positioning (by decide)
  | _ => cases a <;> rfl

theorem wrongMode_ne_ok (wrong : Status.wrongMode = .ok) : False := nomatch wrong

variable (ok : s.judgeMove m = .ok)
include ok

/-- CONFIG is left for IDLE, with a structure. -/
theorem State.judgeMove_of_config (notSafe : m ≠ .safe) (config : s.modes.mode = .config) : m = .idle ∧ s.hasStructure = true := by
  rw [State.judgeMove_from config] at ok
  cases m with
  | safe => exact absurd rfl notSafe
  | idle =>
    change (if s.image.verifying.isSome then Status.busy else if s.hasStructure then .ok else .wrongMode) = .ok at ok
    split at ok
    · exact absurd ok (by decide)
    · exact ⟨rfl, okIf_gate ok⟩
  | _ => exact (wrongMode_ne_ok ok).elim

theorem State.judgeMove_of_test (notSafe : m ≠ .safe) (test : s.modes.mode = .test) : m = .idle := by
  rw [State.judgeMove_from test] at ok
  cases m with
  | safe => exact absurd rfl notSafe
  | idle => rfl
  | _ => exact (wrongMode_ne_ok ok).elim

/-- SAFE is left for IDLE, when its causes allow. -/
theorem State.judgeMove_of_safe (notSafe : m ≠ .safe) (safe : s.modes.mode = .safe) : m = .idle ∧ s.exitAllowed = true := by
  cases m with
  | safe => exact absurd rfl notSafe
  | idle =>
    have gate : s.judgeMove .idle = if s.exitAllowed then .ok else .wrongMode := State.judgeMove_from safe
    exact ⟨rfl, okIf_gate (gate.symm.trans ok)⟩
  | _ =>
    rw [State.judgeMove_from safe] at ok
    exact (wrongMode_ne_ok ok).elim

/-- Nothing but IDLE leads into CONFIG or TEST. -/
theorem State.judgeMove_from_idle (serves : m = .config ∨ m = .test) : s.modes.mode = .idle := by
  cases from_ : s.modes.mode with
  | idle => rfl
  | _ =>
    rw [State.judgeMove_from from_] at ok
    rcases serves with rfl | rfl
    · exact (wrongMode_ne_ok ok).elim
    · exact (wrongMode_ne_ok ok).elim

/-- A positioning mode is entered from IDLE or from another, where R467 allows. -/
theorem State.judgeMove_positioning (positioning : m.positioning = true) :
    s.mayEnter m = true ∧ (s.modes.mode = .idle ∨ s.modes.mode.positioning = true) := by
  have entry : s.startGate m = .ok := (State.judgeMove_startGate positioning).symm.trans ok
  rw [State.startGate, positioning, Bool.true_and] at entry
  split at entry
  next starts =>
    rw [Bool.or_eq_true, beq_iff_eq] at starts
    exact ⟨okIf_gate entry, starts⟩
  next => exact absurd entry (by decide)

end

/-- Settles O28: what each mode leads to (`State.judgeMove_of_*`), what leads to the modes of service (`State.judgeMove_from_idle`), and
the conditions of a positioning mode (`State.judgeMove_positioning`). -/
theorem modeMovesAreThoseOfTheTable : Obligations.ModeMovesAreThoseOfTheTable := by
  unfold Obligations.ModeMovesAreThoseOfTheTable
  refine fun s m ok notSafe => ⟨State.judgeMove_of_config ok notSafe, State.judgeMove_of_test ok notSafe,
    State.judgeMove_of_safe ok notSafe, fun config => State.judgeMove_from_idle ok (.inl config),
    fun test => State.judgeMove_from_idle ok (.inr test), fun positioning => ?_, fun fixes => ?_⟩
  · obtain ⟨allowed, starts⟩ := State.judgeMove_positioning ok positioning
    exact ⟨State.mayEnter_cause allowed, starts⟩
  · have positioning : m.positioning = true := by rcases fixes with rfl | rfl <;> rfl
    exact State.mayEnter_observed (State.judgeMove_positioning ok positioning).1 fixes

/-! ## Entry to SAFE (R471, R512) -/

theorem State.setRoleCore_role (s : State) (r cause) : (s.setRoleCore r cause).1.group.role = r := by
  unfold State.setRoleCore
  rw [(State.raiseCore_frame _ _ _ _ _ _ _).group]
  split <;> rfl

/-- A report starts no injection. -/
theorem State.raiseCore_injRunning (s : State) (n p0 p1 p2 p3 must) :
    (s.raiseCore n p0 p1 p2 p3 must).1.servo.ic.injRunning = s.servo.ic.injRunning := by
  rw [(State.raiseCore_fine s n p0 p1 p2 p3 must).servo]

theorem State.setRoleCore_injRunning (s : State) (r cause) :
    (s.setRoleCore r cause).1.servo.ic.injRunning = s.servo.ic.injRunning := by
  unfold State.setRoleCore
  rw [State.raiseCore_injRunning]
  split
  · rw [(State.clearAuth_frame _).servo]
  · rfl

theorem State.safeRole_injRunning (s : State) (bit) : (s.safeRole bit).servo.ic.injRunning = s.servo.ic.injRunning := by
  unfold State.safeRole
  split
  · rfl
  · split
    · rfl
    · split
      · rw [State.setRoleCore_injRunning, (State.yieldTo_frame _ _ _).servo]
      · rfl
  · exact State.setRoleCore_injRunning _ _ _

/-- A member that is not in SAFE enters it with nothing pending, its outputs gathered, and no injection. -/
theorem State.toSafe_enters {s : State} (bit) (out : s.modes.mode ≠ .safe) :
    (s.toSafe bit).modes = { s.modes with
      mode := .safe, cause := s.modes.cause.setBit bit, previous := s.modes.mode, pendingMode := none, gatheredHold := true } ∧
    (s.toSafe bit).servo.ic.injRunning = false := by
  unfold State.toSafe
  simp only [beq_eq_false_iff_ne.mpr out, Bool.false_eq_true, if_false]
  rw [(State.raiseCore_frame _ _ _ _ _ _ _).modes, (State.clearOverloads_frame _).modes, State.raiseCore_injRunning,
    (State.clearOverloads_frame _).servo]
  exact ⟨rfl, rfl⟩

section
variable {s : State} (bit : Nat) (out : s.modes.mode ≠ .safe)
include out

theorem State.enterSafe_enters :
    (s.enterSafe bit).modes = { s.modes with
      mode := .safe, cause := s.modes.cause.setBit bit, previous := s.modes.mode, pendingMode := none, gatheredHold := true } ∧
    (s.enterSafe bit).servo.ic.injRunning = false := by
  obtain ⟨modes, still⟩ := State.toSafe_enters bit out
  rw [State.enterSafe, if_neg (by simpa using out), State.safeRole_modes, State.safeRole_injRunning]
  exact ⟨modes, still⟩

/-- Neither a SPARE nor a member that is ALONE is anything but ALONE in SAFE. -/
theorem State.enterSafe_role (follows : s.group.role = .spare ∨ s.group.role = .alone) : (s.enterSafe bit).group.role = .alone := by
  rw [State.enterSafe, if_neg (by simpa using out), State.safeRole, State.toSafe_group]
  rcases follows with role | role
  · rw [role]
    exact State.setRoleCore_role _ _ _
  · rw [role]
    exact (congrArg GroupState.role (State.toSafe_group s bit)).trans role

end

/-- A second fault of the SUP core pair within 60 s of the restart that one caused (R481). -/
theorem State.supFault_again {s : State} {a : Nat} (source : Nat) (before : s.modes.faultRestartAt = some a)
    (soon : s.now ≤ a + 60 * second) : s.supFault source = (s.raise source (must := true)).enterSafe 9 := by
  simp [State.supFault, before, soon]

theorem State.supFault_entersSafe {s : State} {a : Nat} (source : Nat) (before : s.modes.faultRestartAt = some a)
    (soon : s.now ≤ a + 60 * second) :
    (s.supFault source).modes.mode = .safe ∧ (s.supFault source).modes.cause.supRepeat = true ∧
      FrameBut reportParts s (s.supFault source) := by
  rw [State.supFault_again source before soon]
  obtain ⟨mode, cause⟩ := State.enterSafe_modes (s.raise source (must := true)) 9
  exact ⟨mode, by rw [cause]; rfl, (State.raise_frame _ _ _ _ _ _ _).trans (State.enterSafe_frame _ _)⟩

theorem execLockstepMismatch_next {s : State} {t : Nat} (on : Running s) :
    execLockstepMismatch t s = .next ((s.clock t).supFault 11) := runRunning_next _ on

theorem execSupRamEcc_next {s : State} {t : Nat} (on : Running s) : execSupRamEcc t s = .next ((s.clock t).supFault 12) :=
  runRunning_next _ on

/-- Settles O29: entry to SAFE is `State.enterSafe_enters`, and the repeated fault is one (`State.supFault_again`). -/
theorem entryToSafe : Obligations.EntryToSafe := by
  unfold Obligations.EntryToSafe
  intro s b
  obtain ⟨mode, cause⟩ := State.enterSafe_modes s b
  refine ⟨mode, cause, fun out => ?enters, State.enterSafe_frame s b, fun t a on before soon => ?again⟩
  case enters =>
    obtain ⟨modes, still⟩ := State.enterSafe_enters b out
    exact ⟨by rw [modes], by rw [modes], by rw [modes], still, fun spare => State.enterSafe_role b out (.inl spare)⟩
  case again =>
    rw [← State.clock_modes t s] at before
    exact ⟨⟨_, execLockstepMismatch_next on, State.supFault_entersSafe 11 before soon⟩,
      ⟨_, execSupRamEcc_next on, State.supFault_entersSafe 12 before soon⟩⟩

/-! ## MODE_REQUEST (R465, R466) -/

section
variable {w : State} {c : WriteCtx} {m : Mode}

theorem Mode.ofCode_code (m : Mode) : Mode.ofCode (beVal (nat8 m.code)) = some m := by
  cases m <;> rfl

/-- A request to a member that may change its mode is judged by the move. -/
theorem State.requestMode_alone (alone : w.group.role = .alone) {st : Status} (move : w.judgeMove m = st) :
    w.requestMode c (nat8 m.code) =
      if m == w.modes.mode then done w
      else if st = .ok then
        if m == .safe then done (w.enterSafe 0)
        else { state := { w with modes.pendingMode := some m }, detail := BitVec.ofNat 32 (w.cycle.count + 1) }
      else refuse st w := by
  have length : (nat8 m.code).length = 1 := rfl
  simp only [State.requestMode, length, Mode.ofCode_code, alone, move, bne_self_eq_false, Bool.false_and, Bool.false_eq_true, if_false,
    beq_self_eq_true, if_true]
  cases st <;> rfl

theorem State.requestMode_spare (spare : w.group.role = .spare) : w.requestMode c (nat8 m.code) = refuse .notLead w := by
  have length : (nat8 m.code).length = 1 := rfl
  have others : (Role.spare != .alone && Role.spare != .lead) = true := rfl
  simp only [State.requestMode, length, Mode.ofCode_code, spare, others, bne_self_eq_false, Bool.false_eq_true, if_false, if_true]

theorem State.requestMode_same (alone : w.group.role = .alone) (same : m = w.modes.mode) : w.requestMode c (nat8 m.code) = done w := by
  rw [State.requestMode_alone alone rfl, same, beq_self_eq_true, if_pos rfl]

theorem State.requestMode_safe (alone : w.group.role = .alone) (out : w.modes.mode ≠ .safe) :
    w.requestMode c (nat8 Mode.safe.code) = done (w.enterSafe 0) := by
  have move : w.judgeMove .safe = .ok := by simp [State.judgeMove]
  rw [State.requestMode_alone alone move, beq_eq_false_iff_ne.mpr out.symm]
  rfl

theorem State.requestMode_pends (alone : w.group.role = .alone) (other : m ≠ w.modes.mode) (notSafe : m ≠ .safe)
    (move : w.judgeMove m = .ok) :
    w.requestMode c (nat8 m.code) =
      { state := { w with modes.pendingMode := some m }, detail := BitVec.ofNat 32 (w.cycle.count + 1) } := by
  rw [State.requestMode_alone alone move, beq_eq_false_iff_ne.mpr other, beq_eq_false_iff_ne.mpr notSafe]
  rfl

theorem State.requestMode_refused (alone : w.group.role = .alone) (other : m ≠ w.modes.mode) (move : w.judgeMove m = .wrongMode) :
    w.requestMode c (nat8 m.code) = refuse .wrongMode w := by
  rw [State.requestMode_alone alone move, beq_eq_false_iff_ne.mpr other]
  rfl

end

section
variable {s : State} {t : Nat} {req : Request} {m : Mode} (ready : Ready s t req 0x11 (writeBody (objId 1 0 0x31) (nat8 m.code)))
include ready

theorem execModeRequest_same (alone : s.group.role = .alone) (same : m = s.modes.mode) :
    execModeRequest t req (BitVec.ofNat 8 m.code) s =
      .next ((s.atWrite t req (objId 1 0 0x31) (nat8 m.code)).wrote req (objId 1 0 0x31)) := by
  have frame := State.atWrite_frame ready
  rw [← frame.group] at alone
  rw [← frame.modes] at same
  exact hostWrite_done ready (State.requestMode_same alone same)

theorem execModeRequest_safe (alone : s.group.role = .alone) (safe : m = .safe) (out : s.modes.mode ≠ .safe) :
    execModeRequest t req (BitVec.ofNat 8 m.code) s =
      .next (((s.atWrite t req (objId 1 0 0x31) (nat8 m.code)).enterSafe 0).wrote req (objId 1 0 0x31)) := by
  subst safe
  have frame := State.atWrite_frame ready
  rw [← frame.group] at alone
  rw [← frame.modes] at out
  exact hostWrite_done ready (State.requestMode_safe alone out)

theorem execModeRequest_pends (alone : s.group.role = .alone) (other : m ≠ s.modes.mode) (notSafe : m ≠ .safe)
    (move : (s.atWrite t req (objId 1 0 0x31) (nat8 m.code)).judgeMove m = .ok) :
    execModeRequest t req (BitVec.ofNat 8 m.code) s =
      .next (State.respond { s.atWrite t req (objId 1 0 0x31) (nat8 m.code) with modes.pendingMode := some m } req 0x11 .ok
        (be32 (objId 1 0 0x31) ++
          be32 (BitVec.ofNat 32 ((s.atWrite t req (objId 1 0 0x31) (nat8 m.code)).cycle.count + 1)))) := by
  have frame := State.atWrite_frame ready
  rw [← frame.group] at alone
  rw [← frame.modes] at other
  exact hostWrite_accepted ready (State.requestMode_pends alone other notSafe move)

theorem execModeRequest_spare (spare : s.group.role = .spare) :
    ∃ u : State, execModeRequest t req (BitVec.ofNat 8 m.code) s = .next u ∧
      (∃ d, Answered u req 0x11 .notLead (be32 (objId 1 0 0x31) ++ be32 d)) ∧ FrameBut [.time, .gnss, .qcp] s u := by
  rw [← (State.atWrite_frame ready).group] at spare
  obtain ⟨u, next, answer, kept⟩ := hostWrite_refused (act := fun c s => s.requestMode c (nat8 m.code)) (st := .notLead) ready (by decide)
    (State.requestMode_spare spare)
  exact ⟨u, next, ⟨_, answer⟩, kept⟩

theorem execModeRequest_refused (alone : s.group.role = .alone) (other : m ≠ s.modes.mode)
    (move : (s.atWrite t req (objId 1 0 0x31) (nat8 m.code)).judgeMove m = .wrongMode) :
    ∃ u : State, execModeRequest t req (BitVec.ofNat 8 m.code) s = .next u ∧
      Answered u req 0x11 .wrongMode (be32 (objId 1 0 0x31) ++ be32 0) ∧ FrameBut [.time, .gnss, .qcp] s u := by
  have frame := State.atWrite_frame ready
  rw [← frame.group] at alone
  rw [← frame.modes] at other
  exact hostWrite_refused (act := fun c s => s.requestMode c (nat8 m.code)) (st := .wrongMode) ready (by decide)
    (State.requestMode_refused alone other move)

end

/-- Settles O27: each clause is one answer of `requestMode` (`execModeRequest_*`); what entry to SAFE leaves is `State.enterSafe_enters`. -/
theorem modeRequestsAreJudged : Obligations.ModeRequestsAreJudged := by
  unfold Obligations.ModeRequestsAreJudged
  intro s t req m ready
  refine ⟨execModeRequest_same ready, fun alone safe out => ?safe, execModeRequest_pends ready, fun spare => ?spare,
    fun alone other move => ?refused⟩
  case safe =>
    refine ⟨_, execModeRequest_safe ready alone safe out, ?_⟩
    have frame := State.atWrite_frame ready
    rw [← frame.modes] at out
    rw [← frame.group] at alone
    obtain ⟨entered, -⟩ := State.enterSafe_enters 0 out
    rw [entered, ← frame.modes]
    exact ⟨rfl, rfl, rfl, rfl, State.enterSafe_role 0 out (.inr alone), State.enterSafe_frame _ 0⟩
  case spare =>
    obtain ⟨u, next, answer, kept⟩ := execModeRequest_spare ready spare
    exact ⟨u, next, kept.modes, kept.group, answer, kept⟩
  case refused =>
    obtain ⟨u, next, answer, kept⟩ := execModeRequest_refused ready alone other move
    exact ⟨u, next, kept.modes, answer, kept⟩

end Sys2Proof.Machine
end

section
/-! What a report leaves of the recorder (spec/17_incident_recorder_and_trust.md, R593, R596): records enter it and flushes begin, and that is
all. -/

namespace Sys2Proof.Machine
set_option Elab.async false

/-! ## What reports keep of the recorder -/

/-- A fact about the recorder that no entry of a record and no beginning of a flush changes. -/
structure ReportKeeps (P : RecorderState → Prop) : Prop where
  enter : ∀ {r : RecorderState} (tb3 : Nat) (key : List Byte) (depth : Nat) (x : Record), P r → P (r.enter tb3 key depth x)
  flush : ∀ {r : RecorderState} (triggers : List (BitVec 8)) (at_ : Nat), P r → P { r with flushing := triggers, flushAt := at_ }

section
variable {P : RecorderState → Prop} (kept : ReportKeeps P) {s : State}
include kept

theorem ReportKeeps.startFlush {trigger} (h : P s.recorder) : P (s.startFlush trigger).recorder := by
  unfold State.startFlush
  split
  · exact h
  · exact kept.flush _ _ h

theorem ReportKeeps.record {code island p0 p1 p2 p3 time trigger} (h : P s.recorder) :
    P (s.record code island p0 p1 p2 p3 time trigger).recorder := kept.enter _ _ _ _ h

theorem ReportKeeps.deliver {n p0 p1 p2 p3 trigger must} (h : P s.recorder) : P (s.deliver n p0 p1 p2 p3 trigger must).recorder := by
  unfold State.deliver
  split
  · exact h
  · rw [(State.eventPulse_frame _ _).recorder, (State.eventFrame_frame _ _ _).recorder]
    split
    · exact kept.enter _ _ _ _ h
    · exact h

theorem ReportKeeps.startHandler {c} (h : P s.recorder) : P (s.startHandler c).recorder := by
  unfold State.startHandler
  split
  · exact h
  · split
    · exact h
    · exact kept.deliver h

theorem ReportKeeps.admitFault {c f} (h : P s.recorder) : P (State.admitFault c f s).1.recorder := by
  induction c generalizing f s with
  | zero => exact h
  | succ c ih =>
    have flushed : P (if c = 0 then s.startFlush 1 else s).recorder := by
      split
      · exact kept.startFlush h
      · exact h
    unfold State.admitFault
    generalize (if c = 0 then s.startFlush 1 else s) = v at flushed
    dsimp only
    split
    · split
      · exact flushed
      · exact kept.startHandler flushed
    · split
      · exact flushed
      · split
        · exact flushed
        · exact ih (kept.deliver flushed)

theorem ReportKeeps.raiseCore {n p0 p1 p2 p3 must} (h : P s.recorder) : P (s.raiseCore n p0 p1 p2 p3 must).1.recorder := by
  unfold State.raiseCore
  split
  · exact h
  · dsimp only
    split
    · exact h
    · split
      · exact kept.admitFault (kept.deliver h)
      · exact kept.deliver h

theorem ReportKeeps.setRoleCore {r cause} (h : P s.recorder) : P (s.setRoleCore r cause).1.recorder := by
  unfold State.setRoleCore
  refine kept.raiseCore ?_
  split
  · rw [(State.clearAuth_frame _).recorder]
    exact h
  · exact h

theorem ReportKeeps.safeRole {bit} (h : P s.recorder) : P (s.safeRole bit).recorder := by
  unfold State.safeRole
  split
  · exact h
  · split
    · exact h
    · split
      · refine kept.setRoleCore ?_
        rw [(State.yieldTo_frame _ _ _).recorder]
        exact h
      · exact h
  · exact kept.setRoleCore h

theorem ReportKeeps.toSafe {bit} (h : P s.recorder) : P (s.toSafe bit).recorder := by
  unfold State.toSafe
  dsimp only
  split
  · exact h
  · refine kept.raiseCore ?_
    rw [(State.clearOverloads_frame _).recorder]
    exact h

theorem ReportKeeps.enterSafe {bit} (h : P s.recorder) : P (s.enterSafe bit).recorder := by
  unfold State.enterSafe
  split
  · exact kept.toSafe h
  · exact kept.safeRole (kept.toSafe h)

theorem ReportKeeps.raise {n p0 p1 p2 p3 must} (h : P s.recorder) : P (s.raise n p0 p1 p2 p3 must).recorder := by
  cases overflow : (s.raiseCore n p0 p1 p2 p3 must).2 with
  | false =>
    rw [State.raise_of_room overflow]
    exact kept.raiseCore h
  | true =>
    rw [State.raise_of_overflow overflow]
    exact kept.enterSafe (kept.raiseCore h)

end

/-! ## The store's own steps -/

/-- The fields that neither a copy to the store, nor a seal, nor an entry writes: those of the geyser, the window and the header. -/
structure RecorderState.SameGeyser (r q : RecorderState) : Prop where
  running : q.geyserRunning = r.geyserRunning
  header : q.headerGeyser = r.headerGeyser
  window : q.window = r.window
  stopped : q.stopped = r.stopped

theorem RecorderState.SameGeyser.trans {r q p : RecorderState} (h : r.SameGeyser q) (k : q.SameGeyser p) : r.SameGeyser p :=
  ⟨k.running.trans h.running, k.header.trans h.header, k.window.trans h.window, k.stopped.trans h.stopped⟩

theorem RecorderState.seal_sameGeyser {r : RecorderState} {tb3 key geyser} : r.SameGeyser (r.seal tb3 key geyser) := by
  unfold RecorderState.seal
  split <;> exact ⟨rfl, rfl, rfl, rfl⟩

theorem RecorderState.copy_sameGeyser {r : RecorderState} {tb3 key geyser x} : r.SameGeyser (r.copy tb3 key geyser x) := by
  unfold RecorderState.copy
  split
  · exact ⟨rfl, rfl, rfl, rfl⟩
  · dsimp only
    split
    · exact ⟨seal_sameGeyser.running, seal_sameGeyser.header, seal_sameGeyser.window, seal_sameGeyser.stopped⟩
    · exact ⟨rfl, rfl, rfl, rfl⟩

theorem RecorderState.ageOut_sameGeyser {r : RecorderState} : r.SameGeyser r.ageOut := by
  unfold RecorderState.ageOut
  split <;> exact ⟨rfl, rfl, rfl, rfl⟩

/-- Room is made in RAM, the record enters it, and in a window it is copied. -/
theorem RecorderState.enter_sameGeyser {r : RecorderState} {tb3 key depth x} : r.SameGeyser (r.enter tb3 key depth x) := by
  unfold RecorderState.enter
  extract_lets live stamped numbered aged roomy entered
  have ages : r.SameGeyser aged := by
    unfold aged
    split
    · exact .trans (q := numbered) ⟨rfl, rfl, rfl, rfl⟩ ageOut_sameGeyser
    · exact ⟨rfl, rfl, rfl, rfl⟩
  have makesRoom : aged.SameGeyser roomy := by
    unfold roomy
    split
    · exact ⟨rfl, rfl, rfl, rfl⟩
    · split
      · exact ⟨rfl, rfl, rfl, rfl⟩
      · dsimp only
        split
        · exact ⟨rfl, rfl, rfl, rfl⟩
        · split <;> exact ⟨rfl, rfl, rfl, rfl⟩
  have enters : roomy.SameGeyser entered := ⟨rfl, rfl, rfl, rfl⟩
  split
  · exact ((ages.trans makesRoom).trans enters).trans copy_sameGeyser
  · exact (ages.trans makesRoom).trans enters

/-- No report changes them: every report's records enter, and its flushes begin. -/
theorem RecorderState.sameGeyser_kept (r : RecorderState) : ReportKeeps r.SameGeyser where
  enter _ _ _ _ h := h.trans enter_sameGeyser
  flush _ _ h := ⟨h.running, h.header, h.window, h.stopped⟩

theorem RecorderState.seal_ram {r : RecorderState} {tb3 key geyser} : (r.seal tb3 key geyser).ram = r.ram := by
  unfold RecorderState.seal
  split <;> rfl

theorem RecorderState.copy_ram {r : RecorderState} {tb3 key geyser x} : (r.copy tb3 key geyser x).ram = r.ram := by
  unfold RecorderState.copy
  split
  · rfl
  · dsimp only
    split
    · exact seal_ram
    · rfl

/-- A copy of every record writes the store alone, and marks each record of RAM as copied. -/
theorem State.copyRam_recorder (s : State) (geyser : Bool) :
    s.recorder.SameGeyser (s.copyRam geyser).2.recorder ∧ ∀ x ∈ (s.copyRam geyser).2.recorder.ram, x.2 = true := by
  have copies : ∀ (l : List Record) (r : RecorderState),
      r.SameGeyser (l.foldl (fun r x => r.copy s.tb3 s.factory.deviceKey geyser x) r) ∧
        (l.foldl (fun r x => r.copy s.tb3 s.factory.deviceKey geyser x) r).ram = r.ram := fun l => by
    induction l with
    | nil => exact fun r => ⟨⟨rfl, rfl, rfl, rfl⟩, rfl⟩
    | cons x l ih => exact fun r =>
      ⟨RecorderState.copy_sameGeyser.trans (ih _).1, (ih _).2.trans RecorderState.copy_ram⟩
  obtain ⟨⟨running, header, window, stopped⟩, ram⟩ :=
    copies s.recorder.uncopied { s.recorder with ram := s.recorder.ram.map fun x => (x.1, true) }
  have marked : (s.copyRam geyser).2.recorder.ram = s.recorder.ram.map fun x => (x.1, true) := ram
  refine ⟨⟨running, header, window, stopped⟩, fun x held => ?_⟩
  rw [marked] at held
  obtain ⟨y, -, rfl⟩ := List.mem_map.mp held
  rfl

theorem State.copyRam_frame (s : State) (geyser : Bool) : FrameBut [.recorder] s (s.copyRam geyser).2 := frame_set_recorder s _

end Sys2Proof.Machine
end

section
/-! The supply and its holdup (spec/17_incident_recorder_and_trust.md, R599-R601; spec/20_connectors_power_environment.md, R667-R675). -/

namespace Sys2Proof.Machine
set_option Elab.async false

theorem runAlways_next {s : State} {t : Nat} (f : State → State) : run (fun _ => true) t s f = .next (f (s.clock t)) := by
  simp only [run, if_true]

/-! ## POWER_FAIL (R599, R670) -/

/-- The moment the holdup begins: the geyser runs, with no window while source 123 is reported. -/
def State.startGeyser (s : State) : State :=
  { s with power.onHoldup := true, recorder.geyserRunning := true, recorder.geyserFrom := s.recorder.stored.length,
           recorder.flushing := [], recorder.window := none, recorder.headerGeyser := 1, panel := s.panel.powerFail }

theorem State.startGeyser_frame (s : State) : FrameBut [.power, .recorder, .panel] s s.startGeyser := by
  intro p other
  cases p with
  | power | recorder | panel => exact absurd (by decide) other
  | _ => rfl

/-- What POWER_FAIL leaves. -/
def State.geyser (s : State) : State :=
  { (State.copyRam (s.startGeyser.raise 123) true).2 with
    recorder.window := some endless }

theorem State.geyser_frame (s : State) : FrameBut ([.power, .panel] ++ reportParts) s s.geyser :=
  ((s.startGeyser_frame.mono (by decide)).trans ((State.raise_frame s.startGeyser 123 _ _ _ _ _).mono (by decide))).trans
    (((State.copyRam_frame _ true).mono (by decide)).trans ((frame_set_recorder _ _).mono (by decide)))

/-- Every record of RAM is in the store; the header says that the geyser runs. -/
theorem State.geyser_recorder (s : State) :
    s.geyser.recorder.geyserRunning = true ∧ s.geyser.recorder.headerGeyser = 1 ∧ s.geyser.recorder.window = some endless ∧
      ∀ x ∈ s.geyser.recorder.ram, x.2 = true := by
  have reported := (s.startGeyser.recorder.sameGeyser_kept).raise (s := s.startGeyser) (n := 123) (p0 := none) (p1 := none) (p2 := none)
    (p3 := none) (must := false) ⟨rfl, rfl, rfl, rfl⟩
  obtain ⟨copied, marked⟩ := State.copyRam_recorder (s.startGeyser.raise 123) true
  exact ⟨copied.running.trans reported.running, copied.header.trans reported.header, rfl, marked⟩

theorem State.geyser_power (s : State) : s.geyser.power.onHoldup = true := by
  have power : s.geyser.power = s.startGeyser.power :=
    (State.copyRam_frame _ true).power.trans (State.raise_frame s.startGeyser 123 none none none none false).power
  rw [power]
  rfl

section
variable {s : State} {t : Nat} (on : Powered s)
include on

theorem execPowerFail_geyser (supply : (s.clock t).power.onHoldup = false) (failed : (s.clock t).supplied = false) :
    execPowerFail t s = .next (s.clock t).geyser := by
  rw [execPowerFail, runPowered_next _ on]
  simp only [supply, failed, Bool.or_self, Bool.false_eq_true, if_false]
  rfl

/-! ## SUPPLY_RETURN and HOLDUP_EXHAUSTED (R600, R671) -/

theorem execSupplyReturn_returns (holdup : (s.clock t).power.onHoldup = true) (supplied : (s.clock t).supplied = true)
    (still : (s.clock t).recorder.geyserRunning = false) :
    execSupplyReturn t s = .next { s.clock t with
      power.onHoldup := false, panel := (s.clock t).panel.powerReturn, recorder.stopped := false, recorder.window := none,
      recorder.headerGeyser := 0 } := by
  simp only [execSupplyReturn, runPowered_next _ on, holdup, supplied, State.recResume, still, Bool.and_self, Bool.false_eq_true, if_true,
    if_false]

theorem execHoldupExhausted_ends (holdup : (s.clock t).power.onHoldup = true) :
    execHoldupExhausted t s = .next { (s.clock t).afterLoss with
      modes.phase := .off, power.noNvWrites := true, time.tb := (s.clock t).time.tb } := by
  simp only [execHoldupExhausted, runPowered_next _ on, holdup, if_true]

/-! ## OVERTEMP (R675) -/

/-- The temperature that OVERTEMP reports, in hundredths of a degree. -/
def State.baseplateCenti (s : State) : Int := F32.nearest (F32.mul s.ain.channels[23].value (F32.ofNat 100))

theorem execOvertemp_hot {x : Nat} (cool : (s.clock t).power.overtemp = false) (hot : (s.clock t).power.hotSince = some x)
    (long : 10 * second ≤ (s.clock t).now - x) :
    execOvertemp t true s = .next (State.raise { s.clock t with power.overtemp := true } 124 (some 256)
      (some (BitVec.ofInt 32 (s.clock t).baseplateCenti))) := by
  simp only [execOvertemp, runPowered_next _ on, cool, hot, long, State.baseplateCenti, decide_true, Bool.and_true, Bool.bne_false, if_true]

theorem execOvertemp_cool {x : Nat} (hot : (s.clock t).power.overtemp = true) (cool : (s.clock t).power.coolSince = some x)
    (long : 10 * second ≤ (s.clock t).now - x) :
    execOvertemp t false s = .next (State.raise { s.clock t with power.overtemp := false } 124 (some 0)
      (some (BitVec.ofInt 32 (s.clock t).baseplateCenti))) := by
  simp only [execOvertemp, runPowered_next _ on, hot, cool, long, State.baseplateCenti, decide_true, Bool.and_true, Bool.false_bne,
    Bool.false_eq_true, if_true, if_false]

theorem execOvertemp_same : execOvertemp t (s.clock t).power.overtemp s = .next (s.clock t) := by
  simp only [execOvertemp, runPowered_next _ on, bne_self_eq_false, Bool.false_and, Bool.false_eq_true, if_false]

/-! ## What supervises the holdup (R670, R673) -/

theorem execStpClamping_fitted {b : Bool} (fitted : (s.clock t).factory.optS = true) :
    execStpClamping t b s = .next { s.clock t with power.stpClamping := b } := by
  simp only [execStpClamping, runPowered_next _ on, fitted, if_true]

theorem execHoldupCharged_next {b : Bool} : execHoldupCharged t b s = .next { s.clock t with power.holdupCharged := b } :=
  runPowered_next _ on

end

/-! ## The two inputs, with or without power (R667, R669) -/

theorem execPwrInputCut_next (s : State) (t : Nat) (b : Bool) : execPwrInputCut t b s =
    .next (if b then { s.clock t with power.bCut := true } else { s.clock t with power.aCut := true }) := runAlways_next _

theorem execPwrInputLevel_next (s : State) (t : Nat) (b ok : Bool) : execPwrInputLevel t b ok s =
    .next (if b then { s.clock t with power.bOk := ok, power.bCut := false }
      else { s.clock t with power.aOk := ok, power.aCut := false }) := runAlways_next _

/-- Settles O34: each clause is the lemma about its command; what the geyser leaves is `State.geyser_recorder`. -/
theorem supplyAndHoldup : Obligations.SupplyAndHoldup := by
  unfold Obligations.SupplyAndHoldup
  intro s t
  refine ⟨fun on supply failed => ?fails, execSupplyReturn_returns, execHoldupExhausted_ends, ?cut, ?level, fun on => ?heat,
    fun b on => ⟨execStpClamping_fitted on, execHoldupCharged_next on⟩⟩
  case fails =>
    obtain ⟨running, header, window, marked⟩ := (s.clock t).geyser_recorder
    exact ⟨_, execPowerFail_geyser on supply failed, State.geyser_power _, running, header, window, marked, State.geyser_frame _⟩
  case cut => exact ⟨execPwrInputCut_next s t false, execPwrInputCut_next s t true⟩
  case level => exact fun ok => ⟨execPwrInputLevel_next s t false ok, execPwrInputLevel_next s t true ok⟩
  case heat => exact ⟨fun x => execOvertemp_hot on, fun x => execOvertemp_cool on, execOvertemp_same on⟩

end Sys2Proof.Machine
end

section
/-! ABORT of a mode request (spec/13_modes_and_start_up.md, R482, R483; spec/16_command_protocol.md, R571). -/

namespace Sys2Proof.Machine
set_option Elab.async false

/-! ## A report outside the fault handler leaves the routes (R50) -/

theorem State.raise_routes {s : State} {n p0 p1 p2 p3 must} (off : (s.route n).fault = false) :
    (s.raise n p0 p1 p2 p3 must).events.routes = s.events.routes := by
  by_cases asserts : s.asserts n
  · obtain ⟨room, events⟩ := State.raiseCore_unrouted p0 p1 p2 p3 must asserts off
    rw [State.raise_of_room room, events, EventState.noteRaised_routes]
  · rw [State.raise_of_room (by rw [State.raiseCore_silent asserts]), State.raiseCore_silent asserts]

theorem State.raiseN_quiet {s : State} {n p0 p1 p2 p3} (off : (s.route n).fault = false) : FrameBut quietParts s (s.raiseN n p0 p1 p2 p3) :=
  State.raise_quiet _ _ _ _ _ _ _ off

theorem State.route_of_routes {s u : State} (same : u.events.routes = s.events.routes) (n : Nat) : u.route n = s.route n := by
  simp only [State.route, same]

theorem State.recordCommand_route {s : State} {req op p0 v tm} (off : (s.route 4).fault = false) (n : Nat) :
    (s.recordCommand req op p0 v tm).route n = s.route n := by
  unfold State.recordCommand
  have before := (State.sourceIndex_frame s req.src tm).events
  generalize s.sourceIndex req.src tm = q at before
  obtain ⟨i, w⟩ := q
  dsimp only at before ⊢
  have same (k : Nat) : (w.record 1 1 p0 (BitVec.ofNat 32 (op * 2 ^ 16) ||| req.seq &&& 0xFFFF)
      (BitVec.ofNat 32 (i * 2 ^ 24) ||| req.ingress.setWidth 32 <<< 16 ||| req.port.setWidth 32) (valueParam v) tm
        (op == 0x11 && w.writeFlushes p0 v)).route k = s.route k := route_of_events before
  exact (State.route_of_routes (State.raise_routes (by rw [same, off])) n).trans (same n)

/-! ## The mode request that pends (R482) -/

/-- Nothing pends any more of what MODE_REQUEST asked for. -/
def State.dropModeRequest (s : State) : State :=
  { s with modes.pendingMode := none, group.groupWrites := s.group.groupWrites.filter fun w => !isModeWrite w }

theorem State.dropModeRequest_frame (s : State) : FrameBut [.modes, .group] s s.dropModeRequest := by
  intro p other
  cases p with
  | modes | group => exact absurd (by decide) other
  | _ => rfl

theorem State.draw_frame (s : State) : FrameBut [.free] s s.draw.2 := frame_set_free s _

theorem objIsland_modeRequest : objIsland (objId 1 0 0x31) = 1 := rfl

theorem objNum_modeRequest : objNum (objId 1 0 0x31) = 0x31 := rfl

theorem objInst_modeRequest : objInst (objId 1 0 0x31) = 0 := rfl

theorem State.objectExists_modeRequest (s : State) : s.objectExists (objId 1 0 0x31) = true := rfl

theorem State.abortFunction_modeRequest (s : State) :
    s.abortFunction (objId 1 0 0x31) = if s.pendingOf.isSome then some (10, s.dropModeRequest) else none := by
  simp only [State.abortFunction, objIsland_modeRequest, objNum_modeRequest, if_true]
  rfl

section
variable {s : State} (req : Request)

/-- A function that is idle is left alone. -/
theorem State.abort_idle (idle : s.pendingOf = none) :
    s.abort req (objId 1 0 0x31) = { state := s, body := be32 (objId 1 0 0x31) ++ zeros 4 } := by
  simp [State.abort, State.objectExists_modeRequest, objIsland_modeRequest, State.abortFunction_modeRequest, idle]

/-- What is stopped is recorded, and reported by source 5 with the time it took. -/
def State.stopped (s : State) (us : Nat) : State :=
  (s.recordCommand req 0x12 (objId 1 0 0x31) [] s.tb3).raiseN 5 (objId 1 0 0x31).toNat (some us)

theorem State.stopped_frame (us : Nat) (records : (s.route 4).fault = false) (reports : (s.route 5).fault = false) :
    FrameBut quietParts s (s.stopped req us) := by
  refine (State.recordCommand_quiet s req 0x12 (objId 1 0 0x31) [] s.tb3 records).trans (State.raiseN_quiet ?_)
  rw [State.recordCommand_route records]
  exact reports

theorem State.abort_pending (pending : s.pendingOf ≠ none) (records : (s.route 4).fault = false) (reports : (s.route 5).fault = false) :
    ∃ (u : State) (n : Nat), s.abort req (objId 1 0 0x31) = { state := u, body := be32 (objId 1 0 0x31) ++ nat32 n } ∧ n ≤ 10 ∧
      u.modes = s.dropModeRequest.modes ∧ u.group = s.dropModeRequest.group ∧ FrameBut ([.modes, .group] ++ quietParts) s u := by
  have waits : s.pendingOf.isSome = true := Option.isSome_iff_ne_none.mpr pending
  have drops := s.dropModeRequest_frame
  have route (n : Nat) : s.dropModeRequest.draw.2.route n = s.route n := route_of_events drops.events
  have stops := State.stopped_frame (s := s.dropModeRequest.draw.2) req (min 10 (Config.abortTime s.dropModeRequest.draw.1))
    
    ((congrArg Route.fault (route 4)).trans records) ((congrArg Route.fault (route 5)).trans reports)
  refine ⟨s.dropModeRequest.draw.2.stopped req (min 10 (Config.abortTime s.dropModeRequest.draw.1)),
    min 10 (Config.abortTime s.dropModeRequest.draw.1), ?_, Nat.min_le_left _ _, stops.modes, stops.group, ?_⟩
  · simp [State.abort, State.objectExists_modeRequest, objIsland_modeRequest, State.abortFunction_modeRequest, waits, State.stopped]
  · exact (drops.mono (by decide)).trans (((State.draw_frame _).mono (by decide)).trans (stops.mono (by decide)))

end

/-- ABORT is taken from its own slot and answered at once (R571). -/
theorem execAbort_next {s : State} {t : Nat} {req : Request} {obj : Word} (on : Running s) (started : s.modes.report.tb0At ≤ t)
    (version : s.group.versionHold = false) (port : req.modPort = 47000)
    (mine : ∀ x : Command, s.qcp.abortSlot = some x → x = { req := req, opcode := 0x12, body := be32 obj, at_ := x.at_ })
    {d : Done} (stops : State.abort req obj { s.clock t with qcp.abortSlot := none } = d) :
    execAbort t req obj s = .next (d.state.respond req 0x12 d.status d.body) := by
  have frame := s.clock_frame t
  have running : (s.clock t).running = true := by rw [State.clock_running, State.running, on]; rfl
  have unbarred : (s.clock t).group.versionHold = false := by rw [frame.group, version]
  subst stops
  rw [execAbort, runHost_next _ on started]
  cases slot : s.qcp.abortSlot with
  | none => simp only [running, frame.qcp, slot, port, unbarred, bne_self_eq_false, Bool.not_true, Bool.false_eq_true, if_false]
  | some x =>
    have same := beq_iff_eq.mpr (mine x slot)
    simp only [running, frame.qcp, slot, same, port, unbarred, bne_self_eq_false, Bool.not_true, Bool.false_eq_true, if_false]

/-- Settles O33: an idle function is left alone (`State.abort_idle`); one that pends is dropped, recorded and reported
(`State.abort_pending`). -/
theorem abortStopsWhatPends : Obligations.AbortStopsWhatPends := by
  unfold Obligations.AbortStopsWhatPends
  intro s t req on started version port mine
  have frame : FrameBut [.time, .gnss, .qcp] s { s.clock t with qcp.abortSlot := none } :=
    (s.clock_frame t).append (frame_set_qcp _ _)
  have same : State.pendingOf { s.clock t with qcp.abortSlot := none } = s.pendingOf := by
    unfold State.pendingOf
    rw [frame.group, frame.modes]
  refine ⟨fun idle => ?idle, fun pending records reports => ?pends⟩
  case idle => exact execAbort_next on started version port mine (State.abort_idle req (same.trans idle))
  case pends =>
    rw [← same] at pending
    rw [← route_of_events (n := 4) frame.events] at records
    rw [← route_of_events (n := 5) frame.events] at reports
    obtain ⟨u, n, stops, bound, modes, group, kept⟩ := State.abort_pending req pending records reports
    refine ⟨_, n, execAbort_next on started version port mine stops, bound, Answered.respond _ _ _ _ _, ?_, ?_, ?_⟩
    · exact ((State.respond_frame _ _ _ _ _).modes.trans modes).trans
        (congrArg (fun m : ModeState => { m with pendingMode := none }) frame.modes)
    · exact ((State.respond_frame _ _ _ _ _).group.trans group).trans
        (congrArg (fun g : GroupState => { g with groupWrites := g.groupWrites.filter fun w => !isModeWrite w }) frame.group)
    · exact ((frame_set_qcp (s.clock t) _).mono (by decide)).trans
        (kept.trans ((State.respond_frame _ _ _ _ _).mono (by decide)))

end Sys2Proof.Machine
end

section
/-! The safety functions (spec/12_safety_functions.md): what removes the thruster enables (R437-R446, R450, R451), their checks
(R447, R448) and their reset (R452). -/

namespace Sys2Proof.Machine
set_option Elab.async false

/-! ## What an action of SAF leaves alone -/

/-- The parts that an action of SAF may touch: its own, the thrusters' states of the law, and what a report touches. -/
abbrev safParts : List Part := [.saf, .law] ++ reportParts

theorem State.isEnable_congr {s u : State} (image : u.image = s.image) (index : u.group.memberIndex = s.group.memberIndex) (n : Nat) :
    u.isEnable n = s.isEnable n := by
  simp only [State.isEnable, State.enableMembers, State.me, image, index]

/-- An action of SAF: it leaves the member its index, and with the structure its enables. -/
structure SafActs (s u : State) : Prop where
  frame : FrameBut safParts s u
  memberIndex : u.group.memberIndex = s.group.memberIndex

theorem SafActs.isEnable {s u : State} (h : SafActs s u) (n : Nat) : u.isEnable n = s.isEnable n :=
  State.isEnable_congr h.frame.image h.memberIndex n

theorem SafActs.enables {s u : State} (h : SafActs s u) : u.enables = s.enables := by
  rw [State.enables, State.enables, funext h.isEnable]

theorem SafActs.refl {s : State} : SafActs s s := ⟨.refl _ _, rfl⟩

theorem SafActs.trans {s u v : State} (h : SafActs s u) (k : SafActs u v) : SafActs s v :=
  ⟨h.frame.trans k.frame, k.memberIndex.trans h.memberIndex⟩

theorem SafActs.ite {s a b : State} {c : Prop} [Decidable c] (h : SafActs s a) (k : SafActs s b) : SafActs s (if c then a else b) := by
  split
  · exact h
  · exact k

theorem SafActs.setSaf {s : State} {x : SafState} : SafActs s { s with saf := x } := ⟨(frame_set_saf s x).mono (by decide), rfl⟩

theorem SafActs.raiseN {s : State} {n p0 p1 p2 p3} : SafActs s (s.raiseN n p0 p1 p2 p3) :=
  ⟨(State.raiseN_frame _ _ _ _ _ _).mono (by decide), State.raise_memberIndex _ _ _ _ _ _ _⟩

theorem State.judgeAlone_frame (s : State) : FrameBut [.law] s s.judgeAlone := .ite (frame_set_law s _) (.refl _ _)

theorem SafActs.judgeAlone {s : State} : SafActs s s.judgeAlone :=
  ⟨s.judgeAlone_frame.mono (by decide), by rw [s.judgeAlone_frame.group]⟩

/-! ## Gates (R437, R438) -/

theorem State.setGates_gate (s : State) (ns : List Nat) (f : GateCauses → GateCauses) (n : Fin 16) :
    (s.setGates ns f).saf.gates[n] =
      if ns.contains n.val then
        { f s.saf.gates[n] with
          removed := (f s.saf.gates[n]).removed || (f s.saf.gates[n]).any
          offSince := if (f s.saf.gates[n]).removed then (f s.saf.gates[n]).offSince else s.now }
      else s.saf.gates[n] := by
  simp [State.setGates]

/-- A cause that is set removes each of the enables. -/
theorem State.setGates_removes {s : State} {ns : List Nat} {f : GateCauses → GateCauses} (cause : ∀ g, (f g).any = true) {n : Fin 16}
    (named : ns.contains n.val = true) : (s.setGates ns f).saf.gates[n].removed = true := by
  rw [State.setGates_gate, if_pos named]
  simp [cause]

/-- What is removed stays removed. -/
theorem State.setGates_keepsRemoved {s : State} {ns : List Nat} {f : GateCauses → GateCauses} (adds : ∀ g, (f g).removed = g.removed)
    {n : Fin 16} (removed : s.saf.gates[n].removed = true) : (s.setGates ns f).saf.gates[n].removed = true := by
  rw [State.setGates_gate]
  split
  · simp only [adds, removed, Bool.true_or]
  · exact removed

/-- Every enable of the module that `s` is has been removed in `u`. -/
def AllRemoved (s u : State) : Prop := ∀ n : Fin 16, s.isEnable n = true → u.saf.gates[n].removed = true

theorem State.mem_enables {s : State} {n : Fin 16} (enable : s.isEnable n = true) : s.enables.contains n.val = true := by
  simp [State.enables, enable, n.isLt]

theorem State.setGates_allRemoved {s : State} {f : GateCauses → GateCauses} (cause : ∀ g, (f g).any = true) :
    AllRemoved s (s.setGates s.enables f) := fun _ enable => State.setGates_removes cause (State.mem_enables enable)

theorem AllRemoved.of_saf {s u v : State} (h : AllRemoved s u) (saf : v.saf = u.saf) : AllRemoved s v := fun n enable => by
  rw [saf]
  exact h n enable

theorem AllRemoved.of_acts {s u v : State} (acts : SafActs s u) (h : AllRemoved u v) : AllRemoved s v := fun n enable =>
  h n ((acts.isEnable n).trans enable)

/-! ## A trip (R437, R454) -/

theorem GateCauses.any_inputs {g : GateCauses} (held : g.inputs ≠ 0) : g.any = true := by
  simp only [GateCauses.any, bne_iff_ne.mpr held, Bool.or_true, Bool.true_or]

theorem State.safTrip_acts (s : State) (ns f source p0 channel) : SafActs s (s.safTrip ns f source p0 channel) :=
  (SafActs.setSaf.trans SafActs.judgeAlone).trans (SafActs.setSaf.trans SafActs.raiseN)

/-- A trip leaves SAF's state as the gates, the count and the last trip make it. -/
theorem State.safTrip_saf (s : State) (ns f source p0 channel) :
    (s.safTrip ns f source p0 channel).saf = { (s.setGates ns f).saf with
      trips := sat32 s.saf.trips, lastTripAt := s.tb3, lastTripSource := BitVec.ofNat 8 source,
      lastTripChannel := BitVec.ofNat 8 channel, lastTripMask := BitVec.ofNat 16 (maskOfSlices ns) } := by
  have judged := (s.setGates ns f).judgeAlone_frame
  refine (State.raiseN_frame _ _ _ _ _ _).saf.trans ?_
  simp only [judged.saf, State.tb3, judged.time]
  rfl

theorem State.safTrip_allRemoved {s : State} {f : GateCauses → GateCauses} (cause : ∀ g, (f g).any = true) (source p0 channel) :
    AllRemoved s (s.safTrip s.enables f source p0 channel) := fun n enable => by
  rw [State.safTrip_saf]
  exact State.setGates_allRemoved cause n enable

/-! ## Inputs that act on their function (R440, R443, R454) -/

theorem at?_inputs (s : State) (i : Fin 8) : at? s.saf.inputs i = s.saf.inputs[i] := at?_eq _ _ i.isLt

theorem State.setInput_acts (s : State) (i f) : SafActs s (s.setInput i f) := SafActs.setSaf

theorem State.setInput_other (s : State) {i : Nat} (f) {k : Fin 8} (other : i ≠ k.val) :
    (s.setInput i f).saf.inputs[k] = s.saf.inputs[k] := (getElem_upd _ _ _ _ k.isLt).trans (if_neg other)

theorem State.setInput_self (s : State) (i : Fin 8) (f) : (s.setInput i f).saf.inputs[i] = f s.saf.inputs[i] :=
  (getElem_upd _ _ _ _ i.isLt).trans (if_pos rfl)

/-- The cause that input `i` sets in a gate. -/
def inputCause (i : Nat) (g : GateCauses) : GateCauses := { g with inputs := g.inputs ||| BitVec.ofNat 8 (2 ^ i) }

theorem inputCause_any (i : Fin 8) (g : GateCauses) : (inputCause i g).any = true := by
  have bit : ∀ i : Fin 8, (BitVec.ofNat 8 (2 ^ i.val)) ≠ 0 := by decide
  refine GateCauses.any_inputs fun none => bit i ?_
  exact (BitVec.or_eq_zero_iff.mp none).2

theorem State.inputTrip_inert {s : State} {i : Nat} (pattern : Bool)
    (inert : (at? s.saf.inputs i).function = 0 ∨ (at? s.saf.inputs i).latched = true) : s.inputTrip i pattern = s := by
  simp only [State.inputTrip]
  rw [if_pos]
  rcases inert with unused | latched
  · simp [unused]
  · simp [latched]

theorem State.inputTrip_acts (s : State) (i pattern) : SafActs s (s.inputTrip i pattern) :=
  SafActs.refl.ite ((s.setInput_acts _ _).trans (State.safTrip_acts _ _ _ _ _ _))

/-- What an input's trip leaves of the others, of the gates and of the test pulses. -/
structure KeepsTrips (i : Nat) (s u : State) : Prop where
  acts : SafActs s u
  inputs : ∀ k : Fin 8, i ≠ k.val → u.saf.inputs[k] = s.saf.inputs[k]
  removed : ∀ n : Fin 16, s.saf.gates[n].removed = true → u.saf.gates[n].removed = true
  tpFault : u.saf.tpFault = s.saf.tpFault

theorem KeepsTrips.refl {i : Nat} {s : State} : KeepsTrips i s s := ⟨.refl, fun _ _ => rfl, fun _ h => h, rfl⟩

theorem KeepsTrips.trans {i : Nat} {s u v : State} (h : KeepsTrips i s u) (k : KeepsTrips i u v) : KeepsTrips i s v :=
  ⟨h.acts.trans k.acts, fun n other => (k.inputs n other).trans (h.inputs n other), fun n r => k.removed n (h.removed n r),
    k.tpFault.trans h.tpFault⟩

theorem State.setInput_keepsTrips (s : State) (i f) : KeepsTrips i s (s.setInput i f) :=
  ⟨s.setInput_acts i f, fun _ other => s.setInput_other f other, fun _ h => h, rfl⟩

theorem State.inputTrip_keepsTrips (s : State) (i pattern) : KeepsTrips i s (s.inputTrip i pattern) := by
  unfold State.inputTrip
  dsimp only
  split
  · exact .refl
  · refine (s.setInput_keepsTrips i _).trans ⟨State.safTrip_acts _ _ _ _ _ _, fun k _ => ?_, fun n removed => ?_, ?_⟩
    · rw [State.safTrip_saf]; rfl
    · rw [State.safTrip_saf]
      exact State.setGates_keepsRemoved (f := inputCause i) (fun _ => rfl) removed
    · rw [State.safTrip_saf]; rfl

section
variable {s : State} {i : Fin 8} (pattern : Bool) (esd : s.saf.inputs[i].function = 1) (fresh : s.saf.inputs[i].latched = false)
include esd fresh

theorem State.inputTrip_esd :
    s.inputTrip i pattern = (s.setInput i fun x => { x with latched := true }).safTrip s.enables (inputCause i) 88
      (24 + i + flagBit pattern 8) (24 + i) := by
  have targets : (s.setInput i fun x => { x with latched := true }).inputTargets s.saf.inputs[i] = s.enables := by
    rw [State.inputTargets, esd]
    exact (s.setInput_acts i _).enables
  have used : ¬ ((1 : BitVec 2) = 0) := by decide
  simp only [State.inputTrip, at?_inputs, esd, fresh, targets, used, decide_false, Bool.or_self, Bool.false_eq_true, if_false, if_true]
  rfl

/-- An SF-ESD input that is not latched removes every enable, and is latched. -/
theorem State.inputTrip_removes : AllRemoved s (s.inputTrip i pattern) ∧
    (s.inputTrip i pattern).saf.inputs[i] = { s.saf.inputs[i] with latched := true } ∧
    (s.inputTrip i pattern).saf.lastTripSource = 88 ∧
    (s.inputTrip i pattern).saf.lastTripChannel = BitVec.ofNat 8 (24 + i.val) := by
  have acts := s.setInput_acts i fun x => { x with latched := true }
  rw [State.inputTrip_esd pattern esd fresh, ← acts.enables]
  refine ⟨.of_acts acts (State.safTrip_allRemoved (inputCause_any i) _ _ _), ?_⟩
  rw [State.safTrip_saf]
  exact ⟨s.setInput_self i _, rfl, rfl⟩

end

/-! ## SAFETY_DEMAND (R443) -/

/-- An input that has read 0 for its filter's time. -/
def SafInput.demanding (x : SafInput) : SafInput :=
  { x with raw := false, filtered := false, demand := x.function != 0, highSince := none }

section
variable {s : State} {t : Nat} (on : Powered s)
include on

theorem execSafetyDemand_trips {i : Fin 8}
    (low : ∀ h : Nat, (s.clock t).saf.inputs[i].highSince = some h →
      (s.clock t).saf.inputs[i].filterUs * us * 100 ≤ ((s.clock t).now - h) * 103) :
    execSafetyDemand t i s = .next (((s.clock t).setInput i SafInput.demanding).inputTrip i false) := by
  have read0 : ∀ x, (s.clock t).saf.inputs[i].highSince = some x →
      ringPassed x ((s.clock t).saf.inputs[i].filterUs * us) (s.clock t).now = true := fun x high => decide_eq_true (low x high)
  rw [execSafetyDemand, runPowered_next _ on]
  cases high : (s.clock t).saf.inputs[i].highSince with
  | none =>
    simp only [high, Bool.not_true, Bool.false_eq_true, if_false]
    rfl
  | some x =>
    simp only [high, read0 x high, Bool.not_true, Bool.false_eq_true, if_false]
    rfl

end

/-! ## TEST_PULSE_MISMATCH (R442) -/

/-- What a mismatch of a source does to one input: each one fed from it demands. -/
def State.tpDemand (tp : Fin 4) (s : State) (i : Nat) : State :=
  if (at? s.saf.inputs i).function != 0 && (at? s.saf.inputs i).tp.toNat == tp.val then
    (s.setInput i fun x => { x with demand := true, highSince := none }).inputTrip i false
  else s

theorem State.tpDemand_keepsTrips (tp : Fin 4) (s : State) (i : Nat) : KeepsTrips i s (s.tpDemand tp i) := by
  unfold State.tpDemand
  split
  · exact (s.setInput_keepsTrips i _).trans (State.inputTrip_keepsTrips _ i false)
  · exact .refl

/-- What the demands of other inputs leave of input `k`, of the gates and of the test pulses. -/
structure KeepsInput (k : Fin 8) (s u : State) : Prop where
  acts : SafActs s u
  input : u.saf.inputs[k] = s.saf.inputs[k]
  removed : ∀ n : Fin 16, s.saf.gates[n].removed = true → u.saf.gates[n].removed = true
  tpFault : u.saf.tpFault = s.saf.tpFault

theorem State.tpDemands_keepsInput {tp : Fin 4} {k : Fin 8} {l : List Nat} (others : k.val ∉ l) {s : State} :
    KeepsInput k s (l.foldl (State.tpDemand tp) s) := by
  induction l generalizing s with
  | nil => exact ⟨.refl, rfl, fun _ h => h, rfl⟩
  | cons i l ih =>
    rw [List.mem_cons, not_or] at others
    obtain ⟨other, others⟩ := others
    have step := s.tpDemand_keepsTrips tp i
    have rest := ih others (s := s.tpDemand tp i)
    exact ⟨step.acts.trans rest.acts, rest.input.trans (step.inputs k (Ne.symm other)),
      fun n h => rest.removed n (step.removed n h), rest.tpFault.trans step.tpFault⟩

/-- Where one of the inputs fed from the source is an SF-ESD input that is not latched, every enable is removed. -/
theorem State.tpDemands_remove {tp : Fin 4} {k : Fin 8} {s : State} (esd : s.saf.inputs[k].function = 1)
    (fed : s.saf.inputs[k].tp.toNat = tp.val) (fresh : s.saf.inputs[k].latched = false) :
    let u := (List.range 8).foldl (State.tpDemand tp) s
    AllRemoved s u ∧ u.saf.tpFault = s.saf.tpFault ∧ u.saf.inputs[k].latched = true ∧ SafActs s u := by
  obtain ⟨before, after, range⟩ := List.append_of_mem (List.mem_range.mpr k.isLt)
  have distinct := List.nodup_range (n := 8)
  rw [range, List.nodup_middle, List.nodup_cons, List.mem_append, not_or] at distinct
  obtain ⟨⟨notBefore, notAfter⟩, -⟩ := distinct
  rw [range, List.foldl_append, List.foldl_cons]
  have first := State.tpDemands_keepsInput (tp := tp) notBefore (s := s)
  generalize before.foldl (State.tpDemand tp) s = v at first
  have rest := State.tpDemands_keepsInput (tp := tp) notAfter (s := v.tpDemand tp k)
  have step := v.tpDemand_keepsTrips tp k
  have acts := v.setInput_acts k fun x => { x with demand := true, highSince := none }
  have input := v.setInput_self k fun x => { x with demand := true, highSince := none }
  have demands : v.tpDemand tp k = (v.setInput k fun x => { x with demand := true, highSince := none }).inputTrip k false := by
    rw [State.tpDemand, at?_inputs, first.input, esd, fed, beq_self_eq_true]
    rfl
  obtain ⟨removes, latches, -⟩ := State.inputTrip_removes (s := v.setInput k fun x => { x with demand := true, highSince := none }) (i := k)
    false (by rw [input, first.input, esd]) (by rw [input, first.input, fresh])
  rw [← demands] at removes latches
  refine ⟨.of_acts (first.acts.trans acts) fun n enable => rest.removed n (removes n enable),
    (rest.tpFault.trans step.tpFault).trans first.tpFault, ?_, first.acts.trans (step.acts.trans rest.acts)⟩
  rw [rest.input, latches]

section
variable {s : State} {t : Nat} (on : Powered s)
include on

/-- A mismatch of a source is noted and reported. -/
def State.noteMismatch (s : State) (tp : Fin 4) : State :=
  State.raiseN { s with saf.tpFault := s.saf.tpFault.set tp true } 91 (0xF0 + tp) (some tp)

omit on in
theorem State.noteMismatch_saf (s : State) (tp : Fin 4) :
    (s.noteMismatch tp).saf = { s.saf with tpFault := s.saf.tpFault.set tp true } := (State.raiseN_frame _ _ _ _ _ _).saf

omit on in
theorem State.noteMismatch_acts (s : State) (tp : Fin 4) : SafActs s (s.noteMismatch tp) := SafActs.setSaf.trans SafActs.raiseN

theorem execTestPulseMismatch_demands {tp : Fin 4} (supplied : (at? (s.clock t).field.banks 0).uvlo = false)
    (first : (s.clock t).saf.tpFault[tp] = false) :
    execTestPulseMismatch t tp s = .next ((List.range 8).foldl (State.tpDemand tp) ((s.clock t).noteMismatch tp)) := by
  rw [execTestPulseMismatch, runPowered_next _ on]
  simp only [supplied, first, Bool.false_eq_true, if_false]
  rfl

/-! ## PATTERN_FAULT (R444) -/

/-- A pattern fault is noted in its input, and at its beginning counted and reported. -/
def State.notePattern (s : State) (i : Fin 8) : State :=
  let w := s.setInput i fun x => { x with patternFail := true, highSince := none }
  if s.saf.inputs[i].patternFail then w
  else State.raiseN { w with saf.patternFaults := sat32 s.saf.patternFaults } 91 (24 + i) (some s.saf.inputs[i].tp.toNat)

omit on in
theorem State.notePattern_saf (s : State) (i : Fin 8) :
    (s.notePattern i).saf.inputs[i] = { s.saf.inputs[i] with patternFail := true, highSince := none } := by
  unfold State.notePattern
  dsimp only
  split
  · exact s.setInput_self i _
  · exact (congrArg (fun x : SafState => x.inputs[i]) (State.raiseN_frame _ _ _ _ _ _).saf).trans (s.setInput_self i _)

omit on in
theorem State.notePattern_acts (s : State) (i : Fin 8) : SafActs s (s.notePattern i) :=
  SafActs.ite (s.setInput_acts i _) ((s.setInput_acts i _).trans (SafActs.setSaf.trans SafActs.raiseN))

theorem execPatternFault_trips {i : Fin 8} (used : (s.clock t).saf.inputs[i].function ≠ 0)
    (still : (s.clock t).saf.inputs[i].demand = false) (supplied : (at? (s.clock t).field.banks 0).uvlo = false) :
    execPatternFault t i s = .next (((s.clock t).notePattern i).inputTrip i true) := by
  rw [execPatternFault, runPowered_next _ on]
  simp only [used, still, supplied, decide_false, Bool.or_self, Bool.false_eq_true, if_false]
  rfl

/-! ## SF_CMD (R445), a self-test that fails (R450), CLOCK_LOSS (R39, R451) -/

theorem execSfCmd_trips (armed : (s.clock t).saf.cmdArmed = true) (judged : (s.clock t).saf.cmdFresh = false)
    (first : (s.clock t).saf.cmdTripped = false)
    (still : (s.clock t).cmdLimit * us * 100 ≤ ((s.clock t).now - (s.clock t).saf.cmdChangedAt) * 103) :
    execSfCmd t s = .next (State.safTrip { s.clock t with saf.cmdTripped := true, saf.cmdChanges := 0 } (s.clock t).enables
      (fun g => { g with cmd := true }) 90 (s.clock t).cmdLimit 0xFF) := by
  have passed : ringPassed (s.clock t).saf.cmdChangedAt ((s.clock t).cmdLimit * us) (s.clock t).now = true := decide_eq_true still
  rw [execSfCmd, runPowered_next _ on]
  simp only [armed, judged, first, passed, Bool.not_false, Bool.and_self, if_true]

/-- Every enable is removed for a cause of SAF's own, and its source reported. -/
def State.removeAll (s : State) (f : GateCauses → GateCauses) (source p0 p1 : Nat) : State :=
  ((s.setGates s.enables f).judgeAlone).raiseN source p0 (some p1)

omit on in
theorem State.removeAll_acts (s : State) (f source p0 p1) : SafActs s (s.removeAll f source p0 p1) :=
  SafActs.setSaf.trans (SafActs.judgeAlone.trans SafActs.raiseN)

omit on in
theorem State.removeAll_saf (s : State) (f source p0 p1) : (s.removeAll f source p0 p1).saf = (s.setGates s.enables f).saf :=
  (State.raiseN_frame _ _ _ _ _ _).saf.trans (State.judgeAlone_frame _).saf

omit on in
theorem State.removeAll_allRemoved {s : State} {f : GateCauses → GateCauses} (cause : ∀ g, (f g).any = true) (source p0 p1) :
    AllRemoved s (s.removeAll f source p0 p1) := (State.setGates_allRemoved cause).of_saf (s.removeAll_saf f source p0 p1)

theorem execSafPeriodicSelftest_fails {v : Fin 6} (failing : v ≠ 0) (first : (s.clock t).saf.selftestFail = false)
    (due : 10 * second * 100 ≤ ((s.clock t).now - (s.clock t).saf.testedAt) * 103) :
    execSafPeriodicSelftest t v s = .next (State.removeAll { s.clock t with saf.testedAt := (s.clock t).now, saf.selftestFail := true }
      (fun g => { g with selftest := true }) 93 v 0) := by
  have passed : ringPassed (s.clock t).saf.testedAt (10 * second) (s.clock t).now = true := decide_eq_true due
  rw [execSafPeriodicSelftest, runPowered_next _ on]
  simp only [passed, State.safTest, failing, first, if_true, if_false, Bool.false_eq_true]
  rfl

theorem execClockLoss_removes (first : (s.clock t).saf.clockLost = false) :
    execClockLoss t s = .next (State.removeAll { (s.clock t).captureHolds with
      saf.clockLost := true, saf.clockReleasable := false, saf.clockLostAt := (s.clock t).now }
        (fun g => { g with clock_ := true }) 94 0 0xFFFF) := by
  rw [execClockLoss, runPowered_next _ on]
  simp only [first, Bool.false_eq_true, if_false]
  rfl

end

/-- Settles O25: each cause is one of SAF's actions (`exec*`), and each of these removes every enable (`*_allRemoved`, `*_remove`). -/
theorem safetyFunctionsRemoveEveryEnable : Obligations.SafetyFunctionsRemoveEveryEnable := by
  unfold Obligations.SafetyFunctionsRemoveEveryEnable
  intro s t on
  refine ⟨fun i esd fresh low => ?demand, fun p i supplied first esd fed fresh => ?testPulse, fun i esd still fresh supplied => ?pattern,
    fun armed judged first still => ?command, fun v failing first due => ?selftest, fun first => ?clock⟩
  case demand =>
    have acts := (s.clock t).setInput_acts i SafInput.demanding
    have input := (s.clock t).setInput_self i SafInput.demanding
    obtain ⟨removes, latches, source, channel⟩ := State.inputTrip_removes (s := (s.clock t).setInput i SafInput.demanding) (i := i) false
      (by rw [input]; exact esd) (by rw [input]; exact fresh)
    refine ⟨_, execSafetyDemand_trips on low, removes.of_acts acts, by rw [latches], ?_, source, channel,
      (acts.trans (State.inputTrip_acts _ _ _)).frame⟩
    rw [latches, input, SafInput.demanding, esd]
    rfl
  case testPulse =>
    have acts := (s.clock t).noteMismatch_acts p
    have saf := (s.clock t).noteMismatch_saf p
    obtain ⟨removes, fault, latched, rest⟩ := State.tpDemands_remove (s := (s.clock t).noteMismatch p) (tp := p) (k := i)
      (by simpa only [saf] using esd) (by simpa only [saf] using fed) (by simpa only [saf] using fresh)
    refine ⟨_, execTestPulseMismatch_demands on supplied first, removes.of_acts acts, ?_, latched, (acts.trans rest).frame⟩
    simp only [fault, saf]
    exact Vector.getElem_set_self _
  case pattern =>
    have acts := (s.clock t).notePattern_acts i
    have input := (s.clock t).notePattern_saf i
    obtain ⟨removes, latches, -⟩ := State.inputTrip_removes (s := (s.clock t).notePattern i) (i := i) true (by rw [input]; exact esd)
      (by rw [input]; exact fresh)
    refine ⟨_, execPatternFault_trips on (by rw [esd]; decide) still supplied, removes.of_acts acts, ?_, by rw [latches],
      (acts.trans (State.inputTrip_acts _ _ _)).frame⟩
    rw [latches, input]
  case command =>
    have acts : SafActs (s.clock t) { s.clock t with saf.cmdTripped := true, saf.cmdChanges := 0 } := SafActs.setSaf
    have removes := State.safTrip_allRemoved (s := { s.clock t with saf.cmdTripped := true, saf.cmdChanges := 0 })
      (f := fun g => { g with cmd := true }) (fun g => by simp [GateCauses.any]) 90 (s.clock t).cmdLimit 0xFF
    refine ⟨_, execSfCmd_trips on armed judged first still, removes.of_acts acts, ?_, ?_,
      (acts.trans (State.safTrip_acts _ _ _ _ _ _)).frame⟩
    · rw [State.safTrip_saf]; rfl
    · rw [State.safTrip_saf]; rfl
  case selftest =>
    have acts : SafActs (s.clock t) { s.clock t with saf.testedAt := (s.clock t).now, saf.selftestFail := true } := SafActs.setSaf
    refine ⟨_, execSafPeriodicSelftest_fails on failing first due,
      AllRemoved.of_acts acts (State.removeAll_allRemoved (fun g => by simp [GateCauses.any]) _ _ _), ?_,
      (acts.trans (State.removeAll_acts _ _ _ _ _)).frame⟩
    rw [State.removeAll_saf]; rfl
  case clock =>
    have holds : SafActs (s.clock t) (s.clock t).captureHolds :=
      ⟨(State.captureHolds_frame _).mono (by decide), by rw [(State.captureHolds_frame _).group]⟩
    have acts := holds.trans (SafActs.setSaf (x := { (s.clock t).captureHolds.saf with
      clockLost := true, clockReleasable := false, clockLostAt := (s.clock t).now }))
    refine ⟨_, execClockLoss_removes on first,
      AllRemoved.of_acts acts (State.removeAll_allRemoved (fun g => by simp [GateCauses.any]) _ _ _), ?_, ?_, ?_,
      (acts.trans (State.removeAll_acts _ _ _ _ _)).frame⟩ <;> rw [State.removeAll_saf] <;> rfl

end Sys2Proof.Machine
end

section
/-! The checks of the enables (spec/12_safety_functions.md, R441, R447, R448, R450, R451) and their reset (R452). -/

namespace Sys2Proof.Machine
set_option Elab.async false

theorem at?_gates (s : State) (n : Fin 16) : at? s.saf.gates n = s.saf.gates[n] := at?_eq _ _ n.isLt

/-! ## A gate fault (R447, R448) -/

theorem State.gateFault_acts (s : State) (n kind) : SafActs s (s.gateFault n kind) :=
  SafActs.refl.ite (SafActs.setSaf.trans (SafActs.judgeAlone.trans SafActs.raiseN))

theorem State.gateFault_removes {s : State} {n : Fin 16} (kind : Nat) (first : s.saf.gates[n].gateFault = false) :
    (s.gateFault n kind).saf.gates[n].gateFault = true ∧ (s.gateFault n kind).saf.gates[n].removed = true := by
  have noted : s.gateFault n kind =
      ((s.setGates [n.val] fun g => { g with gateFault := true }).judgeAlone).raiseN 92 n (some kind) := by
    rw [State.gateFault, at?_gates, first, if_neg (by decide)]
  have saf : (s.gateFault n kind).saf = (s.setGates [n.val] fun g => { g with gateFault := true }).saf := by
    rw [noted, (State.raiseN_frame _ _ _ _ _ _).saf, (State.judgeAlone_frame _).saf]
  simp only [saf, State.setGates_gate, List.contains_cons, beq_self_eq_true, Bool.true_or, if_true, GateCauses.any, Bool.or_true,
    and_self]

/-- A gate that is held removed by a fault found before stays so. -/
theorem State.gateFault_again {s : State} {n : Fin 16} (kind : Nat) (before : s.saf.gates[n].gateFault = true) :
    s.gateFault n kind = s := by
  rw [State.gateFault, at?_gates, before, if_pos rfl]

section
variable {s : State} {t : Nat} (on : Powered s)
include on

/-! ## Inputs and the clock (R441, R451) -/

theorem execSafetyInputHealthy_next {i : Fin 8} :
    execSafetyInputHealthy t i s = .next ((s.clock t).setInput i fun x =>
      { x with raw := true, filtered := true, demand := false, highSince := some (s.clock t).now }) := runPowered_next _ on

theorem execClockLossRelease_releases (lost : (s.clock t).saf.clockLost = true)
    (long : (s.clock t).saf.clockLostAt + 10 * ms ≤ (s.clock t).now) :
    execClockLossRelease t s = .next { s.clock t with saf.clockReleasable := true } := by
  simp only [execClockLossRelease, runPowered_next _ on, lost, long, decide_true, Bool.and_self, if_true]

/-! ## DARK_PULSE (R447) -/

/-- A dark pulse is counted, and the next of this enable is the other's turn, gate or driver. -/
def State.countDark (s : State) (n : Fin 16) : State :=
  { s with saf.darkPulses := sat32 s.saf.darkPulses, saf.darkDriver := s.saf.darkDriver.set n (!s.saf.darkDriver[n]),
           saf.darkAt := s.saf.darkAt.set n (some s.now) }

theorem execDarkPulse_early {n : Fin 16} {fell : Bool} (early : (s.clock t).darkDue n = false) :
    execDarkPulse t n fell s = .next (s.clock t) := by
  simp only [execDarkPulse, runPowered_next _ on, early, Bool.not_false, Bool.or_true, if_true]

section
variable {n : Fin 16} (enable : (s.clock t).isEnable n = true) (closed : (s.clock t).saf.gates[n].removed = false)
  (drives : F32.le ((s.clock t).uValue n) 0 = false) (due : (s.clock t).darkDue n = true)
include enable closed drives due

theorem execDarkPulse_made (fell : Bool) : execDarkPulse t n fell s = .next (if fell then (s.clock t).countDark n
    else ((s.clock t).countDark n).gateFault n (if (s.clock t).saf.darkDriver[n] then 3 else 1)) := by
  simp only [execDarkPulse, runPowered_next _ on, enable, closed, drives, due, Bool.not_true, Bool.or_self, Bool.false_eq_true, if_false]
  rfl

/-- The output does not follow. -/
theorem execDarkPulse_fails (first : (s.clock t).saf.gates[n].gateFault = false) :
    ∃ u, execDarkPulse t n false s = .next u ∧ u.saf.gates[n].gateFault = true ∧ u.saf.gates[n].removed = true ∧
      SafActs (s.clock t) u := by
  have acts : SafActs (s.clock t) ((s.clock t).countDark n) := SafActs.setSaf
  have fault := State.gateFault_removes (s := (s.clock t).countDark n) (n := n) (if (s.clock t).saf.darkDriver[n] then 3 else 1) first
  exact ⟨_, execDarkPulse_made on enable closed drives due false, fault.1, fault.2, acts.trans (State.gateFault_acts _ _ _)⟩

end

/-! ## HELD_OFF_CHECK_FAIL (R448) -/

theorem execHeldOffCheckFail_faults {n : Fin 16} (enable : (s.clock t).isEnable n = true)
    (removed : (s.clock t).saf.gates[n].removed = true)
    (long : 150 * us * 100 ≤ ((s.clock t).now - (s.clock t).saf.gates[n].offSince) * 103) :
    ∃ u, execHeldOffCheckFail t n s = .next u ∧ u.saf.gates[n].gateFault = true ∧ u.saf.gates[n].removed = true ∧
      SafActs (s.clock t) u := by
  have passed : ringPassed (s.clock t).saf.gates[n].offSince (150 * us) (s.clock t).now = true := decide_eq_true long
  have next : execHeldOffCheckFail t n s = .next ((s.clock t).gateFault n 2) := by
    simp only [execHeldOffCheckFail, runPowered_next _ on, enable, removed, passed, Bool.and_self, if_true]
  refine ⟨_, next, ?_⟩
  cases before : (s.clock t).saf.gates[n].gateFault with
  | false =>
    obtain ⟨fault, off⟩ := State.gateFault_removes 2 before
    exact ⟨fault, off, State.gateFault_acts _ _ _⟩
  | true =>
    rw [State.gateFault_again 2 before]
    exact ⟨before, removed, .refl⟩

/-! ## Self-tests (R450, R455) -/

theorem execSafPeriodicSelftest_passes (due : 10 * second * 100 ≤ ((s.clock t).now - (s.clock t).saf.testedAt) * 103) :
    execSafPeriodicSelftest t 0 s = .next { s.clock t with
      saf.testedAt := (s.clock t).now, saf.selftestsPassed := sat32 (s.clock t).saf.selftestsPassed } := by
  have passed : ringPassed (s.clock t).saf.testedAt (10 * second) (s.clock t).now = true := decide_eq_true due
  simp only [execSafPeriodicSelftest, runPowered_next _ on, passed, State.safTest, if_true]

end

theorem State.hostSelftest_passes {w : State} (rests : w.modes.mode = .idle ∨ w.modes.mode = .test) :
    w.hostSelftest 0 = done { w with saf.selftestsPassed := sat32 w.saf.selftestsPassed } := by
  have allowed : (w.modes.mode == .idle || w.modes.mode == .test) = true := by
    rcases rests with mode | mode <;> rw [mode] <;> rfl
  rw [State.hostSelftest, if_pos allowed]
  rfl

/-! ## SAF_RESET (R452) -/

/-- The state that a reset leaves: every releasable cause is released, and a gate without a cause closes. -/
def State.released (w : State) : State := w.safReset.state

theorem State.released_frame (w : State) : FrameBut [.saf, .law] w w.released := by
  unfold State.released State.safReset
  dsimp only
  split <;> exact (frame_set_saf w _).append (State.judgeAlone_frame _)

theorem State.released_gate (w : State) (n : Fin 16) : w.released.saf.gates[n] =
    if w.isEnable n then { w.afterRelease w.saf.gates[n] with removed := (w.afterRelease w.saf.gates[n]).any } else w.saf.gates[n] := by
  have gates : w.released.saf.gates = w.saf.gates.mapIdx fun n g =>
      if w.isEnable n then { w.afterRelease g with removed := (w.afterRelease g).any } else g := by
    unfold State.released State.safReset
    dsimp only
    split <;> exact congrArg SafState.gates (State.judgeAlone_frame _).saf
  simp [gates]

theorem State.safWrite_reset (w : State) (c : WriteCtx) : w.safWrite c 0 2 [1] = w.safReset := by
  simp only [State.safWrite, checkValue, beq_self_eq_true, if_true]

section
variable {w : State} (ready : w.safReady = true)
include ready

theorem State.released_closes {n : Fin 16} (enable : w.isEnable n = true) : w.released.saf.gates[n].removed = false := by
  have held := List.all_eq_true.mp ready n (List.elem_iff.mp (State.mem_enables enable))
  rw [at?_gates, Bool.not_eq_true'] at held
  rw [State.released_gate, if_pos enable]
  exact held

/-- Where every cause is releasable the reset is answered OK. -/
theorem State.safReset_ready : w.safReset = done w.released := by
  have enables : w.released.enables = w.enables := by
    have frame := w.released_frame
    exact congrArg (fun f => (List.range 16).filter f) (funext fun n => State.isEnable_congr frame.image (by rw [frame.group]) n)
  have closed : (w.released.enables.all fun n => !(at? w.released.saf.gates n).removed) = true := by
    rw [enables, List.all_eq_true]
    intro n member
    obtain ⟨small, enable⟩ := List.mem_filter.mp member
    have closes := State.released_closes ready (n := ⟨n, List.mem_range.mp small⟩) enable
    have gate := at?_gates w.released ⟨n, List.mem_range.mp small⟩
    rw [← gate] at closes
    simp only [closes, Bool.not_false]
  unfold State.released State.safReset at closed ⊢
  dsimp only at closed ⊢
  split at closed
  next all => rw [if_pos all]; rfl
  next none => exact absurd closed none

end

/-- Settles O26: the checks are SAF's actions on one enable (`State.gateFault_removes`), and a reset closes every gate that holds no cause
any longer (`State.released_closes`). -/
theorem safetyChecksAndReset : Obligations.SafetyChecksAndReset := by
  unfold Obligations.SafetyChecksAndReset
  intro s t on
  refine ⟨fun i => execSafetyInputHealthy_next on, execClockLossRelease_releases on,
    fun n enable closed drives due => execDarkPulse_made on enable closed drives due true, fun n fell => execDarkPulse_early on,
    fun n enable closed drives due first => ?dark, fun n enable removed long => ?heldOff, execSafPeriodicSelftest_passes on,
    fun req ready rests => ?selftest, fun req ready releasable => ?reset⟩
  case dark =>
    obtain ⟨u, next, fault, removed, acts⟩ := execDarkPulse_fails on enable closed drives due first
    exact ⟨u, next, fault, removed, acts.frame⟩
  case heldOff =>
    obtain ⟨u, next, fault, off, acts⟩ := execHeldOffCheckFail_faults on enable removed long
    exact ⟨u, next, fault, off, acts.frame⟩
  case selftest =>
    rw [← (State.atWrite_frame ready).modes] at rests
    exact hostWrite_done ready (State.hostSelftest_passes rests)
  case reset =>
    have resets : (s.atWrite t req (objId 9 0 2) [1]).safWrite (s.hostCtx req) 0 2 [1] = done (s.atWrite t req (objId 9 0 2) [1]).released :=
      (State.safWrite_reset _ _).trans (State.safReset_ready releasable)
    refine ⟨_, hostWrite_done ready resets, Answered.respond _ _ _ _ _, fun n enable => ?_,
      ((State.released_frame _).mono (by decide)).trans ((State.respond_frame _ _ _ _ _).mono (by decide))⟩
    have saf : ((s.atWrite t req (objId 9 0 2) [1]).released.wrote req (objId 9 0 2)).saf =
        (s.atWrite t req (objId 9 0 2) [1]).released.saf := (State.respond_frame _ _ _ _ _).saf
    exact (congrArg (fun x : SafState => x.gates[n].removed) saf).trans (State.released_closes releasable enable)

end Sys2Proof.Machine
end

section
/-! The group's operations (spec/14_group_redundancy.md): links, peers, roles, and what each leaves alone. -/

namespace Sys2Proof.Machine
set_option Elab.async false

theorem at?_links (s : State) (l : Fin 2) : at? s.group.links l = s.group.links[l] := at?_eq _ _ l.isLt

theorem State.setPeer_frame (s : State) (m f) : FrameBut [.group] s (s.setPeer m f) := frame_set_group s _

theorem State.setLink_frame (s : State) (l f) : FrameBut [.group] s (s.setLink l f) := frame_set_group s _

theorem State.setInStep_frame (s : State) (m on) : FrameBut [.group] s (s.setInStep m on) := frame_set_group s _

theorem State.countGroup_frame (s : State) (i) : FrameBut [.group] s (s.countGroup i) := frame_set_group s _

/-! ## The in-step set (R490) -/

/-- A member that is taken out of the in-step set is not in it; the others are as they were. -/
theorem inStep_removed (x : BitVec 3) {m n : Nat} (small : n < 3) :
    (x &&& ~~~(1#3 <<< m)).getLsbD n = (x.getLsbD n && decide (n ≠ m)) := by
  rcases Nat.lt_trichotomy n m with below | rfl | above
  · simp [small, below, below.ne]
  · simp [small]
  · simp [small, above.ne', Nat.not_lt.mpr above.le]
    omega

/-! ## Changes of role (R490, R521) -/

theorem State.raiseCore_room {s : State} {n p0 p1 p2 p3 must} (off : (s.route n).fault = false) :
    (s.raiseCore n p0 p1 p2 p3 must).2 = false := by
  by_cases asserts : s.asserts n
  · exact (State.raiseCore_unrouted p0 p1 p2 p3 must asserts off).1
  · rw [State.raiseCore_silent asserts]

theorem State.setRoleCore_group (s : State) (r cause) : (s.setRoleCore r cause).1.group =
    { s.group with role := r, stepCount := 0, auth := if r = .resync then false else s.group.auth } := by
  unfold State.setRoleCore
  rw [(State.raiseCore_frame _ _ _ _ _ _ _).group]
  cases r <;> rfl

theorem State.setRoleCore_gcycle {s : State} {r} (cause) (other : r ≠ .resync) : (s.setRoleCore r cause).1.gcycle = s.gcycle := by
  unfold State.setRoleCore
  rw [(State.raiseCore_frame _ _ _ _ _ _ _).gcycle, if_neg (by simpa using other)]

theorem State.setRoleCore_copyApplied (s : State) (cause) : (s.setRoleCore .resync cause).1.gcycle.copyApplied = false := by
  have enters : (Role.resync == Role.resync) = true := rfl
  unfold State.setRoleCore
  rw [(State.raiseCore_frame _ _ _ _ _ _ _).gcycle, if_pos enters, (State.clearAuth_frame _).gcycle]

section
variable {s : State} (quiet : (s.route 107).fault = false)
include quiet

/-- Where source 107 is not with the fault handler, a change of role forces no SAFE. -/
theorem State.setRole_quiet (r cause) : s.setRole r cause = (s.setRoleCore r cause).1 := by
  have room : (s.setRoleCore r cause).2 = false := by
    unfold State.setRoleCore
    refine State.raiseCore_room ?_
    split
    · exact (congrArg Route.fault (route_of_events (State.clearAuth_frame _).events)).trans quiet
    · exact quiet
  simp [State.setRole, room]

theorem State.setRole_group (r cause) : (s.setRole r cause).group =
    { s.group with role := r, stepCount := 0, auth := if r = .resync then false else s.group.auth } := by
  rw [State.setRole_quiet quiet, State.setRoleCore_group]

theorem State.setRole_gcycle {r} (cause) (other : r ≠ .resync) : (s.setRole r cause).gcycle = s.gcycle := by
  rw [State.setRole_quiet quiet, State.setRoleCore_gcycle cause other]

/-- Any role but RESYNC: the group's part, and what the report of source 107 touches. -/
theorem State.setRole_quietFrame {r} (cause) (other : r ≠ .resync) : FrameBut ([.group] ++ quietParts) s (s.setRole r cause) := by
  rw [State.setRole_quiet quiet]
  unfold State.setRoleCore
  dsimp only
  rw [if_neg (by simpa using other)]
  exact ((frame_set_group s { s.group with role := r, stepCount := 0 }).mono (by decide)).trans
    ((State.raiseCore_frame _ _ _ _ _ _ _).mono (by decide))

end

/-! ## Requests for a copy (R514, R515) -/

theorem State.requestCopy_other {s : State} (other : s.group.role ≠ .resync) : s.requestCopy = s := by
  simp [State.requestCopy, other]

/-- What a request for a copy leaves of the group's part: a frame is handed to the links, and the request is counted. -/
theorem State.requestCopy_group (s : State) : s.requestCopy.group =
    { s.group with links := s.requestCopy.group.links, counters := s.requestCopy.group.counters } := by
  unfold State.requestCopy
  dsimp only
  split
  · rfl
  · split <;> split <;> rfl

theorem State.requestCopy_copyApplied (s : State) : s.requestCopy.gcycle.copyApplied = s.gcycle.copyApplied := by
  unfold State.requestCopy
  dsimp only
  split
  · rfl
  · split <;> split <;> rfl

theorem State.requestCopy_counter (s : State) {i : Fin 6} (other : i ≠ 3) : s.requestCopy.group.counters[i] = s.group.counters[i] := by
  have asked : (s.countGroup 3).group.counters[i] = s.group.counters[i] :=
    (getElem_upd _ _ _ _ i.isLt).trans (if_neg fun same => other (Fin.ext same.symm))
  unfold State.requestCopy
  dsimp only
  split
  · rfl
  · split
    next =>
      split
      · exact asked
      · rfl
    next => exact asked

section
variable {s : State} (quiet : (s.route 107).fault = false)
include quiet

/-- RESYNC is entered: out of authority, no copy applied, and the other counters as they were. -/
theorem State.toResync_enters (cause) :
    (s.toResync cause).group.role = .resync ∧ (s.toResync cause).group.auth = false ∧ (s.toResync cause).gcycle.copyApplied = false ∧
      (s.toResync cause).group.epoch = s.group.epoch ∧ (s.toResync cause).group.split = s.group.split ∧
      ∀ i : Fin 6, i ≠ 3 → (s.toResync cause).group.counters[i] = s.group.counters[i] := by
  have role := State.setRole_group quiet .resync cause
  have request := State.requestCopy_group (s.setRole .resync cause)
  refine ⟨?_, ?_, ?_, ?_, ?_, fun i other => ?_⟩
  · rw [State.toResync, request, role]
  · rw [State.toResync, request, role]; rfl
  · rw [State.toResync, State.requestCopy_copyApplied, State.setRole_quiet quiet, State.setRoleCore_copyApplied]
  · rw [State.toResync, request, role]
  · rw [State.toResync, request, role]
  · rw [State.toResync, State.requestCopy_counter _ other, role]

end

/-! ## What waits for the frame, and for Accept, where neither is due -/

theorem State.tryClose_other {s : State} (other : s.group.role ≠ .lead) : s.tryClose = s := by
  simp [State.tryClose, other]

theorem State.tryClose_done {s : State} (closed : s.gcycle.closeDone = true) : s.tryClose = s := by
  simp [State.tryClose, closed]

theorem State.tryComplete_unclosed {s : State} (open_ : s.gcycle.closed = none) : s.tryComplete = s := by
  rw [State.tryComplete, open_]

theorem State.compareCommit_early {s : State} (m : Nat) (early : s.gcycle.ownDigest = none) : s.compareCommit m = s := by
  rw [State.compareCommit, early]
  cases (at? s.group.peers m).commit <;> rfl

/-! ## Every valid frame (R486, R487) -/

/-- Whether a frame brings the link up: the tenth HELLO of a run does (R486). -/
def LinkState.rises (k : LinkState) (hello : Bool) : Bool :=
  !k.up && hello && decide (10 ≤ if hello then min 10 (k.helloRun + 1) else k.helloRun)

/-- A valid frame on a lane link: contact, and the link's count and run. -/
def State.noteFrame (s : State) (h : LlpHeader) (l : Fin 2) (hello : Bool) : State :=
  let k := at? s.group.links l
  (s.setLink l fun k' => { k'.quickReturn s.now with
      lastValid := some s.now, validFrames := sat32 k'.validFrames, peer := BitVec.ofNat 8 h.sender.val,
      helloRun := if k'.up then k'.helloRun else if hello then min 10 (k.helloRun + 1) else k.helloRun,
      up := k'.up || k.rises hello }).setPeer h.sender.val fun p =>
    { p with lastValid := some s.now, epoch := h.epoch, linkMask := p.linkMask ||| BitVec.ofNat 3 (2 ^ l.val) }

theorem State.noteFrame_frame (s : State) (h l hello) : FrameBut [.group] s (s.noteFrame h l hello) := frame_set_group s _

/-- What a peer's frame leaves of the group's part. -/
theorem State.noteFrame_group (s : State) (h l hello) : (s.noteFrame h l hello).group =
    { s.group with links := (s.noteFrame h l hello).group.links, peers := (s.noteFrame h l hello).group.peers } := rfl

theorem State.noteFrame_peer (s : State) (h l hello) : at? (s.noteFrame h l hello).group.peers h.sender.val =
    { at? s.group.peers h.sender.val with
      lastValid := some s.now, epoch := h.epoch,
      linkMask := (at? s.group.peers h.sender.val).linkMask ||| BitVec.ofNat 3 (2 ^ l.val) } :=
  at?_upd_self _ _ _ h.sender.isLt

theorem State.noteFrame_others (s : State) (h l hello) {m : Nat} (other : h.sender.val ≠ m) :
    at? (s.noteFrame h l hello).group.peers m = at? s.group.peers m := at?_upd_ne _ _ _ _ other

theorem State.noteFrame_validFrames (s : State) (h) (l : Fin 2) (hello) :
    (s.noteFrame h l hello).group.links[l].validFrames = sat32 s.group.links[l].validFrames :=
  congrArg LinkState.validFrames ((getElem_upd _ _ _ _ l.isLt).trans (if_pos rfl))

theorem State.heard_lane {s : State} {h : LlpHeader} {l : Fin 2} {hello : Bool} (lane : h.link = some l)
    (still : s.group.links[l].rises hello = false) : s.heard h hello = s.noteFrame h l hello := by
  rw [← at?_links] at still
  simp only [State.heard, lane]
  rw [if_neg (by simpa only [LinkState.rises, Bool.not_eq_true] using still)]
  rfl

/-- Only a HELLO brings a link up. -/
theorem State.heard_other {s : State} {h : LlpHeader} {l : Fin 2} (lane : h.link = some l) : s.heard h false = s.noteFrame h l false :=
  State.heard_lane lane (by simp [LinkState.rises])

section
variable {s : State} {h : LlpHeader} (f : State → State)

theorem State.judgeFrame_valid (sound : h.crcOk = true) (peer : h.sender.val ≠ s.me) : s.judgeFrame h f = f s := by
  simp [State.judgeFrame, sound, peer]

/-- A valid frame of a peer on a lane link. -/
theorem State.onFrame_valid {l : Fin 2} (sound : h.crcOk = true) (peer : h.sender.val ≠ s.me) (lane : h.link = some l) :
    s.onFrame h f = f (s.heard h false) := by
  rw [State.onFrame, State.judgeFrame_valid _ sound peer, lane]
  rfl

end

end Sys2Proof.Machine
end

section
/-! The writes of the group's objects (spec/14_group_redundancy.md, R484, R511, R515, R519). -/

namespace Sys2Proof.Machine
set_option Elab.async false

/-! ## A LEAD yields (R509, R511) -/

theorem LinkState.send_sent {l : LinkState} {now : Nat} {f : LlpSent} (goes : l.up = false ∨ l.mayGo f.frame = true) :
    f ∈ (l.send now f).sent := by
  have last : f ∈ (l.sent ++ [f]).drop (l.sent.length + 1 - 64) := by
    rw [List.drop_append_of_le_length (by omega)]
    exact List.mem_append_right _ (List.mem_singleton_self f)
  unfold LinkState.send
  dsimp only
  split
  · exact last
  · next up =>
    rcases goes with down | credit
    · simp [down] at up
    · rw [if_pos credit]
      exact last

/-- A yield takes one of the last credits (R489). -/
theorem LinkState.mayGo_yield {l : LinkState} (credit : 0 < l.credits) (instant next : Nat) : l.mayGo (.yield_ instant next) = true :=
  decide_eq_true credit

theorem State.sendLane_link (s : State) (f : LlpFrame) (l : Fin 2) : (s.sendLane f).group.links[l] =
    if s.group.links[l].up then s.group.links[l].send s.now (s.llp f) else s.group.links[l] := by
  simp [State.sendLane]

section
variable {s : State} (next instant : Nat)

theorem State.yieldTo_group : (s.yieldTo next instant).group =
    { s.group with yieldAt := some instant, links := (s.yieldTo next instant).group.links } := rfl

theorem State.yieldTo_sends {l : Fin 2} (up : s.group.links[l].up = true) (credit : 0 < s.group.links[l].credits) :
    ∃ f : LlpSent, f ∈ (s.yieldTo next instant).group.links[l].sent ∧ f.frame = .yield_ instant next := by
  refine ⟨State.llp { s with group.yieldAt := some instant } (.yield_ instant next), ?_, rfl⟩
  rw [State.yieldTo, State.sendLane_link, if_pos up]
  exact LinkState.send_sent (.inr (LinkState.mayGo_yield credit instant next))

section
variable (quiet : (s.route 107).fault = false)
include quiet

theorem State.yieldNow_group : (s.yieldNow next instant).group =
    { s.group with yieldAt := some instant, links := (s.yieldTo next instant).group.links, role := .alone, stepCount := 0 } :=
  State.setRole_group (s := s.yieldTo next instant) quiet .alone 3

theorem State.yieldNow_frame : FrameBut ([.group] ++ quietParts) s (s.yieldNow next instant) :=
  ((State.yieldTo_frame s next instant).mono (by decide)).trans
    (State.setRole_quietFrame (s := s.yieldTo next instant) quiet 3 (by decide))

end

end

/-! ## TRANSFER (R511, R519) -/

section
variable {w : State} {m : BitVec 8}

theorem State.transfer_yields (lead : w.group.role = .lead) (inStep : w.inStepPeers.contains m.toNat = true)
    (spare : (at? w.group.peers m.toNat).role = 1) : w.transfer [m] = done (w.yieldNow m.toNat w.yieldInstant) := by
  have value : beVal [m] = m.toNat := beVal_be8 m
  have notAlone : (Role.lead == .alone) = false := rfl
  simp only [State.transfer, value, lead, notAlone, Bool.false_and, inStep, spare, List.length_singleton, bne_self_eq_false, Bool.not_true,
    Bool.or_self, Bool.false_eq_true, if_false]

theorem State.transfer_spare (spare : w.group.role = .spare) : w.transfer [m] = refuse .notLead w := by
  rw [State.transfer, spare]
  rfl

/-! ## RESYNC and MEMBER_INDEX (R484, R515) -/

theorem State.writeResync_other (other : w.group.role ≠ .resync) : w.writeResync [1] =
    done { w with gcycle.resyncStopped := false, gcycle.resyncFailures := 0, gcycle.retryAt := none } := by
  rw [State.writeResync, checkValue, beq_self_eq_true, if_pos rfl, State.requestCopy_other]
  exact other

theorem State.writeIndex_config {c : WriteCtx} {v : BitVec 8} (host : c.load = false) (config : w.modes.mode = .config)
    (known : v.toNat ≤ 2) : w.writeIndex c [v] = done { w with group.memberIndex := v } := by
  have value : beVal [v] = v.toNat := beVal_be8 v
  have allowed : [Mode.config].contains (c.mode w) = true := by rw [WriteCtx.mode, host, if_neg (by decide), config]; rfl
  simp only [State.writeIndex, WriteCtx.onlyIn, checkValue, allowed, value, known, List.length_singleton, beq_self_eq_true, decide_true,
    Bool.and_self, if_true, BitVec.ofNat_toNat, BitVec.setWidth_eq]

end

/-- What a write leaves before its own effect touches no route. -/
theorem Ready.route {s : State} {t : Nat} {req : Request} {obj : Word} {v : List Byte} (ready : Ready s t req 0x11 (writeBody obj v))
    (n : Nat) : (s.atWrite t req obj v).route n = s.route n := by
  rw [State.atWrite, State.taken]
  dsimp only
  rw [State.recordCommand_route (route_of_events (s.clock_frame t).events ▸ ready.report)]
  exact route_of_events (s.clock_frame t).events

/-- Settles O38: each write is the lemma about the object it writes; what a LEAD that yields leaves is `State.yieldNow_group`. -/
theorem groupObjectsTakeWrites : Obligations.GroupObjectsTakeWrites := by
  unfold Obligations.GroupObjectsTakeWrites
  intro s t req
  refine ⟨fun m ready lead inStep spare quiet => ?yields, fun m ready spare => ?refused, fun ready other => ?resync,
    fun v ready config known => ?index⟩
  case yields =>
    have frame := State.atWrite_frame ready
    have peers : (s.atWrite t req (objId 0xB 0 6) [m]).inStepPeers = s.inStepPeers := by
      simp only [State.inStepPeers, State.me, frame.group]
    rw [← peers] at inStep
    rw [← frame.group] at lead spare
    have quietAt : ((s.atWrite t req (objId 0xB 0 6) [m]).route 107).fault = false := (congrArg Route.fault (ready.route 107)).trans quiet
    have group := State.yieldNow_group (s := s.atWrite t req (objId 0xB 0 6) [m]) m.toNat (State.yieldInstant (s.atWrite t req (objId 0xB 0 6) [m])) quietAt
    refine ⟨_, hostWrite_done (act := fun _ s => s.transfer [m]) ready (State.transfer_yields lead inStep spare), by rw [group], ?_, fun l up credit => ?_,
      State.yieldNow_frame _ _ quietAt⟩
    · rw [group]; rfl
    · rw [group]
      exact State.yieldTo_sends _ _ up credit
  case refused =>
    rw [← (State.atWrite_frame ready).group] at spare
    obtain ⟨u, next, answer, kept⟩ := hostWrite_refused (act := fun _ s => s.transfer [m]) (st := .notLead) ready (by decide)
      (State.transfer_spare spare)
    exact ⟨u, _, next, answer, kept⟩
  case resync =>
    rw [← (State.atWrite_frame ready).group] at other
    exact hostWrite_done ready (State.writeResync_other other)
  case index =>
    rw [← (State.atWrite_frame ready).modes] at config
    exact hostWrite_done (act := fun c s => s.writeIndex c [v]) ready (State.writeIndex_config rfl config known)

end Sys2Proof.Machine
end

section
/-! Supervision of the group: contact, links and takeover (spec/14_group_redundancy.md, R486, R489, R503, R508 to R510, R513). -/

namespace Sys2Proof.Machine
set_option Elab.async false

/-! ## Frames that are not heard (R488, R503), and links that go down (R486) -/

theorem State.judgeFrame_bad {s : State} {h : LlpHeader} {l : Fin 2} (f : State → State) (bad : h.crcOk = false) (lane : h.link = some l) :
    s.judgeFrame h f = { s with
      group.links := upd s.group.links l fun k => { k with crcFailures := sat32 k.crcFailures, helloRun := 0 } } := by
  simp only [State.judgeFrame, bad, Bool.not_false, if_true, State.badFrame, lane, State.setLink]

theorem State.judgeFrame_own {s : State} {h : LlpHeader} (f : State → State) (sound : h.crcOk = true) (own : h.sender.val = s.me)
    (alone : s.group.role = .alone) : s.judgeFrame h f = { s with group.clashAt := some s.now } := by
  have settled : (Role.alone != Role.alone) = false := rfl
  simp only [State.judgeFrame, sound, Bool.not_true, Bool.false_eq_true, if_false, own, if_true, State.indexClash, alone, settled,
    Bool.and_false]

/-! ## The successor takes over (R508, R509) -/

/-- The new LEAD's epoch, and what R510 needs of the old one. -/
def State.newEpoch (s : State) (old cause instant : Nat) : State :=
  { s with group.epoch := s.group.epoch + 1, group.lastTakeoverCause := BitVec.ofNat 8 cause, group.lastTakeoverAt := instant,
           gcycle.oldLead := BitVec.ofNat 8 old, gcycle.oldEpoch := s.group.epoch }

/-- What the takeover leaves before source 108 reports it: the old LEAD out of step, TAKEOVER sent. -/
def State.takingOver (s : State) (old cause instant : Nat) : State :=
  let s := (((s.newEpoch old cause instant).setInStep old false).setPeer old fun p => { p with role := 3 }).countGroup 0
  s.sendLane (.takeover s.group.epoch instant (BitVec.ofNat 8 cause))

section
variable (s : State) (old cause instant : Nat)

theorem State.takeover_eq : s.takeover old cause instant =
    (((s.takingOver old cause instant).raiseN 108 cause (some old)).setRole .lead 2).tryClose := rfl

theorem State.newEpoch_frame : FrameBut [.group, .gcycle] s (s.newEpoch old cause instant) := by
  intro p other
  cases p with
  | group | gcycle => exact absurd (by decide) other
  | _ => rfl

theorem State.takingOver_frame : FrameBut [.group, .gcycle] s (s.takingOver old cause instant) :=
  (s.newEpoch_frame old cause instant).trans <| .mono (.trans (State.setInStep_frame _ _ _) <| .trans (State.setPeer_frame _ _ _) <|
    .trans (State.countGroup_frame _ _) (State.sendLane_frame _ _)) (by decide)

theorem State.takingOver_closeDone : (s.takingOver old cause instant).gcycle.closeDone = s.gcycle.closeDone := rfl

theorem State.takingOver_group : (s.takingOver old cause instant).group = { s.group with
    epoch := s.group.epoch + 1, lastTakeoverCause := BitVec.ofNat 8 cause, lastTakeoverAt := instant,
    inStep := (s.takingOver old cause instant).group.inStep, peers := (s.takingOver old cause instant).group.peers,
    counters := (s.takingOver old cause instant).group.counters, links := (s.takingOver old cause instant).group.links } := rfl

end

section
variable {s : State} {old cause instant : Nat} (closed : s.gcycle.closeDone = true) (quiet : (s.route 107).fault = false)
  (reports : (s.route 108).fault = false)
include closed quiet reports

/-- The takeover's instants and epoch, where the cycle's frame is closed and no report is with the fault handler. -/
theorem State.takeover_leads :
    let u := s.takeover old cause instant
    u.group.role = .lead ∧ u.group.epoch = s.group.epoch + 1 ∧ u.group.lastTakeoverCause = BitVec.ofNat 8 cause ∧
      u.group.lastTakeoverAt = instant ∧ FrameBut ([.group, .gcycle] ++ quietParts) s u := by
  intro u
  have taking := State.takingOver_frame s old cause instant
  have off : ((s.takingOver old cause instant).route 108).fault = false :=
    (congrArg Route.fault (route_of_events taking.events)).trans reports
  have told := State.raiseN_quiet (p0 := cause) (p1 := some old) (p2 := none) (p3 := none) off
  have quietTold : (((s.takingOver old cause instant).raiseN 108 cause (some old)).route 107).fault = false :=
    (congrArg Route.fault ((State.route_of_routes (State.raise_routes off) 107).trans (route_of_events taking.events))).trans quiet
  have done : (((s.takingOver old cause instant).raiseN 108 cause (some old)).setRole .lead 2).gcycle.closeDone = true := by
    rw [State.setRole_gcycle quietTold 2 (by decide), told.gcycle]
    exact closed
  have led : u = ((s.takingOver old cause instant).raiseN 108 cause (some old)).setRole .lead 2 := State.tryClose_done done
  have group := State.setRole_group quietTold .lead 2
  rw [told.group, State.takingOver_group] at group
  rw [led, group]
  exact ⟨rfl, rfl, rfl, rfl, ((taking.mono (by decide)).trans (told.mono (by decide))).trans
    ((State.setRole_quietFrame quietTold 2 (by decide)).mono (by decide))⟩

end

/-- A grant that the backup path shows makes it a split: RESYNC is entered (R510). -/
theorem State.split_enters {s : State} (quiet : (s.route 107).fault = false) :
    let u := ({ s with group.split := true }.countGroup 5).toResync 10
    u.group.role = .resync ∧ u.group.split = true ∧ u.group.counters[5] = sat32 s.group.counters[5] ∧ u.group.epoch = s.group.epoch := by
  have kept : ({ s with group.split := true }.countGroup 5).events = s.events := rfl
  have still : (({ s with group.split := true }.countGroup 5).route 107).fault = false :=
    (congrArg Route.fault (route_of_events kept)).trans quiet
  obtain ⟨role, -, -, epoch, split, counters⟩ := State.toResync_enters still 10
  exact ⟨role, split, (counters 5 (by decide)).trans ((getElem_upd _ _ _ _ (by decide)).trans (if_pos rfl)), epoch⟩

section
variable {s : State} {t m : Nat} (lead : [0, 1, 2].find? (fun m => m != s.me && (at? s.group.peers m).role == 0) = some m)
include lead

/-- What MISSING_COMMIT does, once the missing LEAD is known. -/
theorem execMissingCommit_lead (start : State) (on : Running start) (now : start.clock t = s) :
    execMissingCommit t start = .next (
      if s.group.role != .spare || s.successor != some s.me || !s.cycle.ticking ||
          decide (s.tb3 + 20 * us < s.cycle.tk + s.cyc.commandAt) || ((at? s.group.peers m).commit.map (·.1)) == some s.cycle.count then s
      else if s.group.backupPort != 0xFF && (at? s.group.peers m).lastBackup.isSome &&
          decide (s.cycle.count ≤ (at? s.group.peers m).grantedBackup) then
        ({ s with group.split := true }.countGroup 5).toResync 10
      else { s.takeover m 2 (s.cycle.tk + s.cyc.commandAt) with
        gcycle.takeoverTest := some (s.cycle.tk + s.cyc.commandAt, s.cycle.count), group.split := false }) := by
  subst now
  refine (runRunning_next _ on).trans (congrArg Host.Outcome.next ?_)
  dsimp only
  rw [lead]

end

/-! ## Contact is lost (R513) -/

theorem at?_upd_congr {α β : Type} {k : Nat} [Inhabited α] (g : α → β) (v : Vector α k) (n m : Nat) (f : α → α)
    (same : ∀ x, g (f x) = g x) : g (at? (upd v n f) m) = g (at? v m) := by
  by_cases inside : m < k
  · rw [at?_eq _ _ inside, at?_eq _ _ inside, getElem_upd]
    split
    · next here => subst here; exact same _
    · rfl
  · simp [at?, inside]

/-- A peer that is out of contact is out of step, and on no link. -/
def State.losePeer (s : State) (m : Nat) : State :=
  if m = s.me || s.inContact m then s else (s.setInStep m false).setPeer m fun p => { p with linkMask := 0 }

theorem State.losePeer_frame (s : State) (m) : FrameBut [.group] s (s.losePeer m) :=
  .ite (.refl _ _) ((State.setInStep_frame _ _ _).trans (State.setPeer_frame _ _ _))

theorem State.losePeer_me (s : State) (m) : (s.losePeer m).me = s.me := by
  unfold State.losePeer
  split <;> rfl

theorem State.losePeer_role (s : State) (m) : (s.losePeer m).group.role = s.group.role := by
  unfold State.losePeer
  split <;> rfl

theorem State.losePeer_lastValid (s : State) (m n) : (at? (s.losePeer m).group.peers n).lastValid = (at? s.group.peers n).lastValid := by
  unfold State.losePeer
  split
  · rfl
  · exact at?_upd_congr Peer.lastValid _ _ _ _ fun _ => rfl

theorem State.losePeer_inContact (s : State) (m n) : (s.losePeer m).inContact n = s.inContact n := by
  have now : (s.losePeer m).now = s.now := by rw [State.now, State.now, (s.losePeer_frame m).time]
  rw [State.inContact, State.inContact, State.losePeer_me, State.losePeer_lastValid, now]

/-- A peer out of contact is taken out of the in-step set; every other member is in it as before. -/
theorem State.losePeer_inStep {s : State} {m : Nat} (peer : m ≠ s.me) (lost : s.inContact m = false) {n : Nat} (small : n < 3) :
    (s.losePeer m).group.inStep.getLsbD n = (s.group.inStep.getLsbD n && decide (n ≠ m)) := by
  rw [State.losePeer, if_neg (by simp [peer, lost])]
  exact inStep_removed _ small

/-- Every peer out of contact is lost. -/
def State.losePeers (s : State) : State := [0, 1, 2].foldl State.losePeer s

theorem State.losePeers_role (s : State) : s.losePeers.group.role = s.group.role := by
  simp only [State.losePeers, List.foldl_cons, List.foldl_nil, State.losePeer_role]

theorem State.losePeers_frame (s : State) : FrameBut [.group] s s.losePeers := .foldl State.losePeer_frame _ _

theorem State.contacts_nil {s : State} : s.contacts = [] ↔ ∀ m < 3, s.inContact m = false := by
  have members : [0, 1, 2] = List.range 3 := rfl
  simp only [State.contacts, members, List.filter_eq_nil_iff, List.mem_range, Bool.not_eq_true]

/-- Of members out of contact, those of the list are taken out of the in-step set. -/
theorem State.losePeer_foldl_inStep {n : Nat} (small : n < 3) : ∀ (l : List Nat) (s : State), n ≠ s.me → s.contacts = [] → (∀ m ∈ l, m < 3) →
    (l.foldl State.losePeer s).group.inStep.getLsbD n = (s.group.inStep.getLsbD n && decide (n ∉ l))
  | [], s, _, _, _ => by simp
  | m :: l, s, peer, lost, members => by
    have still : (s.losePeer m).contacts = [] := by
      rw [State.contacts_nil] at lost ⊢
      exact fun k small => (State.losePeer_inContact s m k).trans (lost k small)
    rw [List.foldl_cons, State.losePeer_foldl_inStep small l _ (by rwa [State.losePeer_me]) still fun k inside =>
      members k (List.mem_cons_of_mem _ inside)]
    by_cases own : m = s.me
    · have other : n ≠ m := own ▸ peer
      rw [State.losePeer, if_pos (by simp [own])]
      simp [other]
    · rw [State.losePeer_inStep own (State.contacts_nil.mp lost m (members m List.mem_cons_self)) small]
      simp [Bool.and_assoc]

section
variable {s : State} (lost : s.contacts = [])
include lost

theorem State.losePeers_contacts : s.losePeers.contacts = [] := by
  rw [State.contacts_nil] at lost ⊢
  intro m small
  simp only [State.losePeers, List.foldl_cons, List.foldl_nil, State.losePeer_inContact]
  exact lost m small

theorem State.losePeers_inStep {n : Nat} (small : n < 3) (peer : n ≠ s.me) : s.losePeers.group.inStep.getLsbD n = false := by
  have members : ∀ m ∈ [0, 1, 2], m < 3 := by decide
  have inside : n ∈ List.range 3 := List.mem_range.mpr small
  rw [State.losePeers, State.losePeer_foldl_inStep small _ s peer lost members]
  exact Bool.and_eq_false_imp.mpr fun _ => decide_eq_false fun out => out inside

end

section
variable {s : State} {t : Nat} (on : Powered s)
include on

theorem execContactLost_single (single : (s.clock t).cyc.groupSize ≤ 1) : execContactLost t s = .next (s.clock t) :=
  (runPowered_next _ on).trans (congrArg Host.Outcome.next (if_pos single))

/-- Every peer is lost: the member is ALONE (R513). -/
theorem execContactLost_every (grouped : 1 < (s.clock t).cyc.groupSize) (lost : (s.clock t).contacts = [])
    (role : (s.clock t).group.role ≠ .alone) : execContactLost t s = .next ((s.clock t).losePeers.setRole .alone 6) := by
  have leaves : ((s.clock t).losePeers.contacts.isEmpty && (s.clock t).losePeers.group.role != .alone) = true := by
    simpa [State.losePeers_contacts lost, State.losePeers_role] using role
  refine (runPowered_next _ on).trans (congrArg Host.Outcome.next ?_)
  dsimp only
  rw [if_neg (Nat.not_le.mpr grouped)]
  exact if_pos leaves

end

/-! ## The frames of each period (R489) -/

section
variable {s : State}

theorem State.sendHello_direct (direct : s.group.backupPort = 0xFF) : s.sendHello =
    { s with group.links := s.group.links.map fun l => l.send s.now (s.llp (.hello s.helloBody)) } := by
  unfold State.sendHello
  exact if_pos direct

end

section
variable {s : State} {t : Nat} (on : Powered s)
include on

theorem execLlpPeriodicSend_early {a : Nat} (last : (s.clock t).gcycle.periodicAt = some a) (early : (s.clock t).now < a + ms) :
    execLlpPeriodicSend t s = .next (s.clock t) := by
  refine (runPowered_next _ on).trans (congrArg Host.Outcome.next ?_)
  dsimp only
  rw [last]
  exact if_pos (by simp [Nat.not_le.mpr early])

theorem execLlpPeriodicSend_alone (alone : (s.clock t).cyc.groupSize ≤ 1) : execLlpPeriodicSend t s = .next (s.clock t) :=
  (runPowered_next _ on).trans (congrArg Host.Outcome.next (if_pos (by simp [alone])))

/-- HELLO and TIME on every link, where no port carries the backup path. -/
theorem execLlpPeriodicSend_sends (grouped : 1 < (s.clock t).cyc.groupSize) (direct : (s.clock t).group.backupPort = 0xFF)
    (due : ∀ a : Nat, (s.clock t).gcycle.periodicAt = some a → a + ms ≤ (s.clock t).now) :
    let c := s.clock t
    execLlpPeriodicSend t s = .next { c with
      gcycle.periodicAt := some c.now,
      group.links := c.group.links.map fun l =>
        let k := LinkState.send l c.now (c.llp (.hello c.helloBody))
        let stamps := k.lastTime.getD (0, 0)
        k.send c.now (c.llp (.time { tx := c.tb3, echoTx := stamps.1, echoRx := stamps.2 })) } := by
  intro c
  refine (runPowered_next _ on).trans (congrArg Host.Outcome.next ((if_neg ?_).trans ?_))
  · cases last : (s.clock t).gcycle.periodicAt with
    | none => simpa using grouped
    | some a => simpa [due a last] using grouped
  · rw [State.sendHello_direct (s := { s.clock t with gcycle.periodicAt := some (s.clock t).now }) direct]
    dsimp only
    rw [Vector.map_map]
    rfl

end

/-! ## What each command of the group's supervision does -/

theorem State.clock_me (s : State) (t : Nat) : (s.clock t).me = s.me := by rw [State.me, State.me, (s.clock_frame t).group]

/-- The takeover's test on the backup path is noted (R510). -/
theorem takeoverTest_frame (s : State) (test : Option (Nat × Nat)) :
    FrameBut [.group, .gcycle] s { s with gcycle.takeoverTest := test, group.split := false } := by
  intro p other
  cases p with
  | group | gcycle => exact absurd (by decide) other
  | _ => rfl

section
variable {s : State} {t : Nat}

theorem execLlpHello_bad (on : Powered s) {h : LlpHeader} {l : Fin 2} (b : Hello) (bad : h.crcOk = false) (lane : h.link = some l) :
    execLlpHello t h b s = .next { s.clock t with
      group.links := upd (s.clock t).group.links l fun k => { k with crcFailures := sat32 k.crcFailures, helloRun := 0 } } :=
  (runPowered_next _ on).trans (congrArg Host.Outcome.next (State.judgeFrame_bad _ bad lane))

theorem execLlpHello_own (on : Powered s) {h : LlpHeader} (b : Hello) (sound : h.crcOk = true) (own : h.sender.val = s.me)
    (alone : (s.clock t).group.role = .alone) :
    execLlpHello t h b s = .next { s.clock t with group.clashAt := some (s.clock t).now } :=
  (runPowered_next _ on).trans (congrArg Host.Outcome.next (State.judgeFrame_own _ sound (own.trans (s.clock_me t).symm) alone))

theorem execLinkDown_up (on : Powered s) {l : Fin 2} (up : (s.clock t).group.links[l].up = true) :
    execLinkDown t l s = .next (State.raiseN { s.clock t with
      group.links := upd (s.clock t).group.links l fun k => { k.refill (s.clock t).now with up := false, helloRun := 0 },
      group.peers := upd (s.clock t).group.peers (s.clock t).group.links[l].peer.toNat fun p =>
        { p with linkMask := p.linkMask &&& ~~~(BitVec.ofNat 3 (2 ^ l.val)) } } (104 + l.val) 0
        (some (s.clock t).group.links[l].peer.toNat)) := by
  refine (runPowered_next _ on).trans (congrArg Host.Outcome.next ((if_neg ?_).trans rfl))
  simpa using up

theorem execRoleElectionTimeout_settles (on : Running s) (open_ : (s.clock t).gcycle.roleSettled = false)
    (late : (s.clock t).gcycle.firstModeAt + 2 * second ≤ (s.clock t).now) :
    execRoleElectionTimeout t s = .next { s.clock t with gcycle.roleSettled := true } :=
  (runRunning_next _ on).trans (congrArg Host.Outcome.next (if_pos (by simp [open_, late])))

theorem execLnkCreditStall_raises (on : Powered s) {l : Fin 2} {a : Nat} (waits : (s.clock t).group.links[l].waitingSince = some a)
    (once : (s.clock t).group.links[l].stallRaised = false) (late : a + 10 * ms < (s.clock t).now) :
    execLnkCreditStall t l s = .next (State.raise { s.clock t with
      group.links := upd (s.clock t).group.links l fun k => { k with stallRaised := true } } 106) := by
  refine (runPowered_next _ on).trans (congrArg Host.Outcome.next ?_)
  dsimp only
  rw [waits]
  exact if_pos (by simpa [late] using once)

end

/-- Settles O37: each clause is the lemma about the command; the takeover's content is `State.takeover_leads`, and what a lost peer
leaves is `State.losePeers_inStep`. -/
theorem groupSupervision : Obligations.GroupSupervision := by
  unfold Obligations.GroupSupervision
  intro s t on c
  have powered := on.powered
  refine ⟨fun h l b bad lane => execLlpHello_bad powered b bad lane,
    fun h b sound own alone => execLlpHello_own powered b sound own alone,
    fun l up => execLinkDown_up powered up,
    fun m spare next ticking late direct lead missing closed quiet reports => ?takes,
    fun m spare next ticking late port lead missing seen granted quiet => ?split,
    fun m d lead there => ?there,
    fun grouped lost role quiet => ?lost,
    fun alone => execContactLost_single powered alone,
    fun open_ late => execRoleElectionTimeout_settles on open_ late,
    fun l a waits once late => execLnkCreditStall_raises powered waits once late,
    fun grouped direct due => execLlpPeriodicSend_sends powered grouped direct due,
    fun a last early => execLlpPeriodicSend_early powered last early,
    fun alone => execLlpPeriodicSend_alone powered alone⟩
  case takes =>
    obtain ⟨role, epoch, cause, instant, frame⟩ := State.takeover_leads (s := c) (old := m) (cause := 2)
      (instant := c.cycle.tk + c.cyc.commandAt) closed quiet reports
    refine ⟨_, (execMissingCommit_lead lead s on rfl).trans (congrArg Host.Outcome.next ((if_neg ?_).trans (if_neg ?_))),
      role, epoch, cause, instant, rfl, rfl, frame.trans ((takeoverTest_frame _ _).mono (by decide))⟩
    · simp [spare, next, ticking, missing, late]
    · simp [direct]
  case split =>
    refine ⟨_, (execMissingCommit_lead lead s on rfl).trans (congrArg Host.Outcome.next ((if_neg ?_).trans (if_pos ?_))),
      State.split_enters quiet⟩
    · simp [spare, next, ticking, missing, late]
    · simpa [seen, granted] using port
  case there =>
    refine (execMissingCommit_lead lead s on rfl).trans (congrArg Host.Outcome.next (if_pos ?_))
    simp [there]
  case lost =>
    have frame := c.losePeers_frame
    have quietLost : (c.losePeers.route 107).fault = false := (congrArg Route.fault (route_of_events frame.events)).trans quiet
    have group := State.setRole_group quietLost .alone 6
    refine ⟨_, execContactLost_every powered grouped lost role, by rw [group], fun m small peer => ?_,
      (frame.mono (by decide)).trans (State.setRole_quietFrame quietLost 6 (by decide))⟩
    rw [group]
    exact State.losePeers_inStep lost small peer

end Sys2Proof.Machine
end

section
/-! The copy of a member in RESYNC (spec/14_group_redundancy.md, R514, R515). -/

namespace Sys2Proof.Machine
set_option Elab.async false

/-! ## A copy is applied (R103, R514) -/

theorem State.adoptMode_frame (s : State) (m : Mode) : FrameBut [.servo, .field, .modes] s (s.adoptMode m) := by
  unfold State.adoptMode
  refine .ite (.refl _ _) (.trans (.trans ?_ ((frame_set_modes _ _).mono (by decide))) ((State.clearOverloads_frame _).mono (by decide)))
  have holds : FrameBut [.servo, .field, .modes] s { s.captureHolds with modes.gatheredHold := true } :=
    ((State.captureHolds_frame s).append (frame_set_modes _ _)).mono (by decide)
  have releases : FrameBut [.servo, .field, .modes] s { s.releaseAll with modes.gatheredHold := false } :=
    ((frame_set_servo s _).append (frame_set_modes s.releaseAll _)).mono (by decide)
  cases m with
  | idle | config | safe => exact holds
  | _ => exact .ite releases (.refl _ _)

theorem State.adoptMode_mode {s : State} (m : Mode) (out : s.modes.mode ≠ .safe) : (s.adoptMode m).modes.mode = m := by
  unfold State.adoptMode
  by_cases same : s.modes.mode = m
  · rw [if_pos (by simp [same])]
    exact same
  · rw [if_neg (by simp [same, out]), (State.clearOverloads_frame _).modes]

theorem State.applyCopy_eq (s : State) (x : Copy) (level : s.time.tb[3].remaining = 0) : s.applyCopy x =
    { (s.takeCopy x).adoptMode x.mode with
      group.epoch := x.epoch, group.inStep := x.inStep &&& ~~~(1#3 <<< (s.takeCopy x).me),
      gcycle.copyApplied := true, gcycle.copyBytes := [], gcycle.resyncFailures := 0 } := by
  have step : s.stepToLead = s := if_pos level
  rw [State.applyCopy, step]

/-! ## Frames of a peer on a lane link -/

theorem State.heard_frame {s : State} {h : LlpHeader} {l : Fin 2} (lane : h.link = some l) : FrameBut [.group] s (s.heard h false) := by
  rw [State.heard_other lane]
  exact State.noteFrame_frame _ _ _ _

theorem State.heard_group {s : State} {h : LlpHeader} {l : Fin 2} (lane : h.link = some l) : (s.heard h false).group =
    { s.group with links := (s.heard h false).group.links, peers := (s.heard h false).group.peers } := by
  rw [State.heard_other lane]
  rfl

theorem State.heard_role {s : State} {h : LlpHeader} {l : Fin 2} (lane : h.link = some l) :
    (s.heard h false).group.role = s.group.role := by rw [State.heard_group lane]

section
variable {s : State} {t : Nat} {h : LlpHeader} {l : Fin 2} (on : Running s) (sound : h.crcOk = true) (peer : h.sender.val ≠ s.me)
  (lane : h.link = some l)
include on sound peer lane

theorem runRunning_onFrame (f : State → State) :
    runRunning t s (fun s => s.onFrame h f) = .next (f ((s.clock t).heard h false)) :=
  (runRunning_next _ on).trans (congrArg Host.Outcome.next (State.onFrame_valid f sound
    (by rwa [State.me, (s.clock_frame t).group]) lane))

theorem runPowered_onFrame (f : State → State) :
    runPowered t s (fun s => s.onFrame h f) = .next (f ((s.clock t).heard h false)) :=
  (runPowered_next _ on.powered).trans (congrArg Host.Outcome.next (State.onFrame_valid f sound
    (by rwa [State.me, (s.clock_frame t).group]) lane))

/-! ## The LEAD plans, the member gathers (R514) -/

theorem execLlpResyncRequest_plans (lead : (s.clock t).group.role = .lead) (period : (s.clock t).cyc.period ≠ 0) :
    let c := s.clock t
    let v := c.heard h false
    let j := (c.tb3 + 2 * ms + c.cyc.period - 1) / c.cyc.period
    execLlpResyncRequest t h s = .next (State.sendLaneTo { v with gcycle.copyTo := some (j, h.sender.val) } h.sender
      (.copyPlan j (Config.copyEncode (v.copyNow true)).length)) := by
  intro c v j
  have heard := State.heard_frame (s := s.clock t) lane
  have leads : v.group.role = .lead := by rw [State.heard_group lane]; exact lead
  have cyc : v.cyc = c.cyc := by rw [State.cyc, State.cyc, heard.image]
  have tb3 : v.tb3 = c.tb3 := by rw [State.tb3, State.tb3, heard.time]
  refine (runRunning_onFrame on sound peer lane _).trans (congrArg Host.Outcome.next ((if_neg ?_).trans ?_))
  · simp [v, c, leads, cyc, period]
  · show State.sendLaneTo _ _ _ = _
    rw [cyc, tb3]

theorem execLlpCopyPlan_taken (j total : Nat) (resync : (s.clock t).group.role = .resync)
    (waits : (s.clock t).gcycle.copyApplied = false) :
    execLlpCopyPlan t h j total s =
      .next { (s.clock t).heard h false with gcycle.copyPlan := some (j, total), gcycle.copyBytes := [] } := by
  rw [← (State.heard_frame lane).gcycle] at waits
  rw [← State.heard_role lane] at resync
  refine (runRunning_onFrame on sound peer lane _).trans (congrArg Host.Outcome.next (if_pos ?_))
  simp [resync, waits]

end

/-! ## The chunks of a copy (R514, R515) -/

/-- What a chunk does, once the plan of the copy is known. -/
def State.gatherChunk (s : State) (j total offset : Nat) (data : List Byte) : State :=
  if decide (j < s.cycle.count) && s.gcycle.closed.isSome then s.copyFailed
  else
    let chunks := s.gcycle.copyBytes.filter (·.1 != offset) ++ [(offset, data)]
    let s := { s with gcycle.copyBytes := chunks }
    if (chunks.map (·.2.length)).sum < total then s
    else (Config.copyDecode ((chunks.mergeSort fun a b => decide (a.1 ≤ b.1)).flatMap (·.2))).elim s.copyFailed s.applyCopy

section
variable {s : State} {j total offset : Nat} {data : List Byte}

theorem State.gatherChunk_late (late : j < s.cycle.count) (closed : s.gcycle.closed.isSome = true) :
    s.gatherChunk j total offset data = s.copyFailed :=
  if_pos (by simp [late, closed])

section
variable (early : j < s.cycle.count → s.gcycle.closed = none)
include early

theorem State.gatherChunk_early : s.gatherChunk j total offset data =
    let chunks := s.gcycle.copyBytes.filter (·.1 != offset) ++ [(offset, data)]
    let w : State := { s with gcycle.copyBytes := chunks }
    if (chunks.map (·.2.length)).sum < total then w
    else (Config.copyDecode ((chunks.mergeSort fun a b => decide (a.1 ≤ b.1)).flatMap (·.2))).elim w.copyFailed w.applyCopy := by
  refine if_neg ?_
  simp only [Bool.and_eq_true, decide_eq_true_eq, not_and, Bool.not_eq_true, Option.isSome_eq_false_iff, Option.isNone_iff_eq_none]
  exact early

end

end

section
variable {s : State} {t : Nat} {h : LlpHeader} {l : Fin 2} (on : Running s) (sound : h.crcOk = true) (peer : h.sender.val ≠ s.me)
  (lane : h.link = some l)
include on sound peer lane

theorem execLlpCopyChunk_gathers {j total : Nat} (offset : Nat) (data : List Byte) (resync : (s.clock t).group.role = .resync)
    (waits : (s.clock t).gcycle.copyApplied = false) (plan : (s.clock t).gcycle.copyPlan = some (j, total)) :
    execLlpCopyChunk t h offset data s = .next (((s.clock t).heard h false).gatherChunk j total offset data) := by
  rw [← (State.heard_frame lane).gcycle] at waits plan
  rw [← State.heard_role lane] at resync
  refine (runRunning_onFrame on sound peer lane _).trans (congrArg Host.Outcome.next ?_)
  dsimp only
  nth_rw 1 [plan]
  dsimp only
  rw [if_neg (by simp [resync, waits])]
  refine if_congr Iff.rfl rfl ?_
  dsimp only
  refine if_congr Iff.rfl rfl ?_
  generalize Config.copyDecode _ = read
  cases read <;> rfl

end

/-! ## Attempts that fail, and the next one (R515) -/

theorem State.copyFailed_early {s : State} (early : s.gcycle.resyncFailures < 4) : s.copyFailed = { s with
    gcycle.copyPlan := none, gcycle.copyBytes := [], gcycle.requested := false,
    gcycle.resyncFailures := s.gcycle.resyncFailures + 1, gcycle.retryAt := some (s.cycle.count + 10),
    group.counters := upd s.group.counters 4 sat32 } :=
  if_neg (by omega)

section
variable {s : State} {t : Nat} (on : Running s)
include on

theorem execCopyFail_fails {j total : Nat} (plan : (s.clock t).gcycle.copyPlan = some (j, total))
    (resync : (s.clock t).group.role = .resync) (waits : (s.clock t).gcycle.copyApplied = false)
    (complete : j + 1 < (s.clock t).cycle.count ∨ (j + 1 = (s.clock t).cycle.count ∧
      ((s.clock t).gcycle.closed.isSome = true ∨ (s.clock t).exchangeLimit ≤ (s.clock t).tb3))) :
    execCopyFail t s = .next (s.clock t).copyFailed := by
  refine (runRunning_next _ on).trans (congrArg Host.Outcome.next ?_)
  dsimp only
  rw [plan]
  refine if_pos ?_
  simpa [resync, waits] using complete

theorem execResyncRetry_asks {k : Nat} (resync : (s.clock t).group.role = .resync) (due : (s.clock t).gcycle.retryAt = some k)
    (now : k ≤ (s.clock t).cycle.count) (once : (s.clock t).gcycle.requested = false)
    (goes : (s.clock t).gcycle.resyncStopped = false) (waits : (s.clock t).gcycle.copyApplied = false)
    (lead : (s.clock t).leadIndex ≠ 0xF) :
    let c := s.clock t
    execResyncRetry t s = .next (State.sendLaneTo { c with
      gcycle.requested := true, gcycle.retryAt := none, group.counters := upd c.group.counters 3 sat32 } c.leadIndex.toNat
        .resyncRequest) := by
  refine (runRunning_next _ on).trans (congrArg Host.Outcome.next ((if_pos (by rw [due]; rfl)).trans ?_))
  rw [State.requestCopy, if_neg (by simpa [resync, once, goes, waits] using lead), due]
  exact if_pos (decide_eq_true now)

/-! ## 50 matching cycles (R515) -/

theorem execStepDone_steps (resync : (s.clock t).group.role = .resync) (applied : (s.clock t).gcycle.copyApplied = true)
    (matched : 50 ≤ (s.clock t).group.stepCount) :
    execStepDone t s = .next { (s.clock t).setRole .spare 4 with group.stepCount := 50 } :=
  (runRunning_next _ on).trans (congrArg Host.Outcome.next (if_pos (by simp [resync, applied, matched])))

end

/-- Settles O36: each clause is the lemma about its command; what a copy brings is `State.applyCopy_eq`. -/
theorem resyncCopiesTheState : Obligations.ResyncCopiesTheState := by
  unfold Obligations.ResyncCopiesTheState
  intro s t on c
  refine ⟨fun h l sound peer lane => ⟨fun lead period => execLlpResyncRequest_plans on sound peer lane lead period,
      fun j total resync waits => execLlpCopyPlan_taken on sound peer lane j total resync waits,
      fun j total offset data resync waits plan late closed => ?late, fun j total offset data resync waits plan early => ?early⟩,
    fun x level => ?applied,
    fun j total plan resync waits complete first => (execCopyFail_fails on plan resync waits complete).trans
      (congrArg Host.Outcome.next (State.copyFailed_early first)),
    fun k resync due now once goes waits lead => execResyncRetry_asks on resync due now once goes waits lead,
    fun resync applied matched quiet => ⟨_, execStepDone_steps on resync applied matched, ?_, rfl, ?_⟩⟩
  case late =>
    have frame := State.heard_frame (s := c) lane
    rw [← frame.cycle] at late
    rw [← frame.gcycle] at closed
    exact (execLlpCopyChunk_gathers on sound peer lane offset data resync waits plan).trans
      (congrArg Host.Outcome.next (State.gatherChunk_late late closed))
  case early =>
    have frame := State.heard_frame (s := c) lane
    rw [← frame.cycle, ← frame.gcycle] at early
    have gathers := (execLlpCopyChunk_gathers on sound peer lane offset data resync waits plan).trans
      (congrArg Host.Outcome.next (State.gatherChunk_early early))
    dsimp only at gathers ⊢
    rw [← frame.gcycle]
    refine ⟨fun short => ?short, fun whole => ?whole⟩
    case short =>
      rw [if_pos short] at gathers
      exact gathers
    case whole =>
      rw [if_neg (Nat.not_lt.mpr whole)] at gathers
      refine gathers.trans (congrArg Host.Outcome.next ?_)
      generalize Config.copyDecode _ = read
      cases read <;> rfl
  case applied =>
    have frame := State.adoptMode_frame (c.takeCopy x) x.mode
    have role : ((c.takeCopy x).adoptMode x.mode).group.role = c.group.role := by rw [frame.group]; rfl
    intro u
    rw [show u = _ from State.applyCopy_eq c x level]
    exact ⟨frame.fusion, frame.obs, frame.law, frame.dyn, rfl, rfl, role,
      State.adoptMode_mode (s := c.takeCopy x) x.mode⟩
  · exact congrArg GroupState.role (State.setRole_group quiet .spare 4)
  · exact (State.setRole_quietFrame quiet 4 (by decide)).trans ((frame_set_group _ _).mono (by decide))

end Sys2Proof.Machine
end

section
/-! Valid frames of a peer (spec/14_group_redundancy.md, R487, R489, R493 to R497, R506, R509, R514). -/

namespace Sys2Proof.Machine
set_option Elab.async false

/-! ## LLP_HELLO of an in-step SPARE (R489) -/

/-- What a HELLO tells of its sender. -/
def State.noteHello (s : State) (h : LlpHeader) (b : Hello) : State :=
  s.setPeer h.sender.val fun p =>
    { p with role := b.role.setWidth 2, mode := b.mode.setWidth 4, digest := b.digest, versions := b.versions,
             options := b.options, serial := b.serial, epoch := h.epoch,
             versionBarred := (majorDiffers ownVersions b.versions).isSome,
             granted := max p.granted b.granted, grantedBackup := if h.link.isNone then b.granted else p.grantedBackup }

theorem State.noteHello_peer (s : State) (h : LlpHeader) (b : Hello) :
    let p := at? s.group.peers h.sender.val
    let q := at? (s.noteHello h b).group.peers h.sender.val
    q.role = b.role.setWidth 2 ∧ q.mode = b.mode.setWidth 4 ∧ q.digest = b.digest ∧ q.granted = max p.granted b.granted := by
  intro p q
  have told : q = _ := at?_upd_self s.group.peers h.sender.val _ h.sender.isLt
  rw [told]
  exact ⟨rfl, rfl, rfl, rfl⟩

/-- A SPARE's HELLO: its sender is known, and in step. -/
def State.hearSpare (s : State) (h : LlpHeader) (l : Fin 2) (b : Hello) : State :=
  ((s.noteFrame h l true).noteHello h b).setInStep h.sender.val true

section
variable (s : State) (h : LlpHeader) (l : Fin 2) (b : Hello)

theorem State.hearSpare_frame : FrameBut [.group] s (s.hearSpare h l b) :=
  (State.noteFrame_frame _ _ _ _).trans ((State.setPeer_frame _ _ _).trans (State.setInStep_frame _ _ _))

theorem State.hearSpare_role (lead : s.group.role = .lead) : (s.hearSpare h l b).group.role = .lead := lead

theorem State.hearSpare_settled (settled : s.gcycle.roleSettled = true) : (s.hearSpare h l b).gcycle.roleSettled = true := settled

theorem State.hearSpare_inStep : (s.hearSpare h l b).group.inStep = s.group.inStep ||| (1#3 <<< h.sender.val) := rfl

theorem State.hearSpare_peer {b : Hello} (spare : b.role = 1) :
    let q := at? (s.hearSpare h l b).group.peers h.sender.val
    q.role = 1 ∧ q.mode = b.mode.setWidth 4 ∧ q.digest = b.digest ∧
      q.granted = max (at? s.group.peers h.sender.val).granted b.granted := by
  obtain ⟨role, mode, digest, granted⟩ := State.noteHello_peer (s.noteFrame h l true) h b
  rw [spare] at role
  rw [State.noteFrame_peer] at granted
  exact ⟨role, mode, digest, granted⟩

end

/-- A LEAD whose peer is a SPARE changes nothing. -/
theorem State.ringmaster_lead {s : State} {m : Nat} (lead : s.group.role = .lead) (settled : s.gcycle.roleSettled = true)
    (spare : (at? s.group.peers m).role = 1) : s.ringmaster m = s := by
  simp only [State.ringmaster, lead, settled, spare, Bool.not_true, Bool.false_eq_true, if_false]
  split <;> rfl

section
variable {s : State} {t : Nat} {h : LlpHeader} {l : Fin 2} (on : Running s) (sound : h.crcOk = true) (peer : h.sender.val ≠ s.me)
  (lane : h.link = some l)
include on sound peer lane

/-- A SPARE's HELLO to a LEAD, on a link that is up: its sender is known, and in step. -/
theorem execLlpHello_spare {b : Hello} (lead : (s.clock t).group.role = .lead) (settled : (s.clock t).gcycle.roleSettled = true)
    (noTest : (s.clock t).gcycle.takeoverTest = none) (spare : b.role = 1) (up : (s.clock t).group.links[l].up = true) :
    execLlpHello t h b s =
      .next ((s.clock t).hearSpare h l b) := by
  have still : (s.clock t).group.links[l].rises true = false := by rw [LinkState.rises, up]; rfl
  have other : h.sender.val ≠ (s.clock t).me := by rwa [State.me, (s.clock_frame t).group]
  refine (runPowered_next _ on.powered).trans (congrArg Host.Outcome.next ((State.judgeFrame_valid _ sound other).trans ?_))
  dsimp only
  rw [State.heard_lane lane still]
  have inStep : (b.role == 0 || b.role == 1 || b.role == 2 && b.inStep.getLsbD h.sender.val) = true := by rw [spare]; rfl
  have notLead : (b.role == 0) = false := by rw [spare]; rfl
  rw [inStep, notLead, Bool.false_and, if_neg Bool.false_ne_true]
  refine (if_neg fun found => ?_).trans ((congrArg State.requestCopy ?_).trans (State.requestCopy_other ?_))
  · split at found
    · next test => exact absurd (noTest.symm.trans test) nofun
    · exact Bool.false_ne_true found
  · exact State.ringmaster_lead (State.hearSpare_role _ _ _ _ lead) (State.hearSpare_settled _ _ _ _ settled)
      (State.hearSpare_peer (s.clock t) h l spare).1
  · exact fun resync => absurd ((State.hearSpare_role _ _ _ _ lead).symm.trans resync) (by decide)

end

/-! ## The old LEADs of a TAKEOVER (R509) -/

/-- A TAKEOVER takes another LEAD that this member knows of out of step. -/
def State.depose (keep : Nat) (s : State) (m : Nat) : State :=
  if m != keep && (at? s.group.peers m).role == 0 then (s.setInStep m false).setPeer m fun p => { p with role := 3 } else s

/-- A member is known as ALONE and out of step. -/
def State.Deposed (s : State) (n : Nat) : Prop := (at? s.group.peers n).role = 3 ∧ s.group.inStep.getLsbD n = false

theorem State.depose_frame (keep : Nat) (s : State) (m : Nat) : FrameBut [.group] s (s.depose keep m) :=
  .ite (.trans (State.setInStep_frame _ _ _) (State.setPeer_frame _ _ _)) (.refl _ _)

theorem State.depose_other (keep : Nat) {s : State} {m n : Nat} (other : m ≠ n) :
    at? (s.depose keep m).group.peers n = at? s.group.peers n := by
  unfold State.depose
  split
  · exact at?_upd_ne _ _ _ _ other
  · rfl

theorem State.depose_inStep (keep : Nat) {s : State} {m n : Nat} (small : n < 3) (out : s.group.inStep.getLsbD n = false) :
    (s.depose keep m).group.inStep.getLsbD n = false := by
  unfold State.depose
  split
  · exact (inStep_removed _ small).trans (by rw [out]; rfl)
  · exact out

section
variable {keep n : Nat} (small : n < 3) (other : n ≠ keep)
include small

theorem State.Deposed.depose {s : State} (deposed : s.Deposed n) (m : Nat) : (s.depose keep m).Deposed n := by
  obtain ⟨role, out⟩ := deposed
  refine ⟨?_, State.depose_inStep keep small out⟩
  by_cases same : m = n
  · subst same
    rw [State.depose, if_neg (by simp [role])]
    exact role
  · rw [State.depose_other keep same]
    exact role

include other

theorem State.depose_deposed {s : State} (lead : (at? s.group.peers n).role = 0) : (s.depose keep n).Deposed n := by
  rw [State.depose, if_pos (by simp [other, lead])]
  exact ⟨congrArg Peer.role (at?_upd_self _ _ _ small), (inStep_removed _ small).trans (by simp)⟩

/-- Every LEAD of the list is deposed, but the one that is kept. -/
theorem State.depose_foldl : ∀ (l : List Nat) (s : State), s.Deposed n ∨ (n ∈ l ∧ (at? s.group.peers n).role = 0) →
    (l.foldl (State.depose keep) s).Deposed n
  | [], s, .inl deposed => deposed
  | m :: l, s, .inl deposed => State.depose_foldl l _ (.inl (deposed.depose small m))
  | m :: l, s, .inr ⟨inside, lead⟩ => by
    refine State.depose_foldl l _ ?_
    by_cases same : m = n
    · subst same
      exact .inl (State.depose_deposed small other lead)
    · have rest : n ∈ l := (List.mem_cons.mp inside).resolve_left (Ne.symm same)
      exact .inr ⟨rest, by rw [State.depose_other keep same]; exact lead⟩

end

/-! ## LLP_TIME (R90, R102) -/

/-- The stamps of a peer's TIME frame are kept for the next one to it. -/
def State.noteStamps (s : State) (l : Fin 2) (b : TimeBody) : State := s.setLink l fun k => { k with lastTime := some (b.tx, b.rx) }

/-- The LEAD's echo corrects TB3. -/
def State.followLead (s : State) (off : Int) : State := (s.setTb 3 fun b => { b with source := 3, sourced := true }).correct 3 off

/-- What the stamps of an echo measure, the link's asymmetry taken off. -/
def echoOffset (b : TimeBody) (asym : Int) : Int := ((b.echoRx - b.echoTx) + (b.tx - b.rx) - asym).tdiv 2

/-- Outside the positioning modes an offset above 100 us is the LEAD's step. -/
def State.followEcho (s : State) (off : Int) : State :=
  let x := s.followLead off
  if x.tb3Held || decide (off.natAbs ≤ 100000) then x else x.stepBase 3 off (if x.tb3 % second ≤ 2 * ms then x.tb3 % second else 0)

section
variable {s : State} {off : Int}

theorem State.followEcho_slews (near : (s.followLead off).tb3Held = true ∨ off.natAbs ≤ 100000) : s.followEcho off = s.followLead off :=
  if_pos (by simpa using near)

theorem State.followEcho_steps (free : (s.followLead off).tb3Held = false) (far : 100000 < off.natAbs) : s.followEcho off =
    (s.followLead off).stepBase 3 off (if (s.followLead off).tb3 % second ≤ 2 * ms then (s.followLead off).tb3 % second else 0) :=
  if_neg (by simpa [free] using far)

end

section
variable {s : State} {t : Nat} {h : LlpHeader} {l : Fin 2} (on : Running s) (sound : h.crcOk = true) (peer : h.sender.val ≠ s.me)
  (lane : h.link = some l)
include on sound peer lane

theorem execLlpTime_notes {b : TimeBody} (noTx : b.echoTx = 0) (noRx : b.echoRx = 0) :
    execLlpTime t h b s = .next (((s.clock t).heard h false).noteStamps l b) := by
  refine (runPowered_onFrame on sound peer lane _).trans (congrArg Host.Outcome.next ?_)
  dsimp only
  rw [lane]
  exact if_pos (by simp [noTx, noRx])

theorem execLlpTime_follows {b : TimeBody} (spare : (s.clock t).group.role = .spare)
    (lead : ((s.clock t).heard h false).leadIndex.toNat = h.sender.val) (echo : b.echoTx ≠ 0 ∨ b.echoRx ≠ 0) :
    execLlpTime t h b s = .next
      ((((s.clock t).heard h false).noteStamps l b).followEcho (echoOffset b (at? (s.clock t).time.linkAsym l))) := by
  have follows : (((s.clock t).heard h false).noteStamps l b).leadsTime = false := by
    show (((s.clock t).heard h false).group.role == .lead || ((s.clock t).heard h false).group.role == .alone) = false
    rw [State.heard_role lane, spare]
    rfl
  have led : (((s.clock t).heard h false).noteStamps l b).leadIndex.toNat = h.sender.val := lead
  have noEcho : (b.echoTx == 0 && b.echoRx == 0) = false := by
    rcases echo with tx | rx
    · simp [tx]
    · simp [rx]
  refine (runPowered_onFrame on sound peer lane _).trans (congrArg Host.Outcome.next ?_)
  dsimp only
  rw [lane]
  refine (if_neg ?_).trans ?_
  · show ¬ ((((s.clock t).heard h false).noteStamps l b).leadsTime ||
      (((s.clock t).heard h false).noteStamps l b).leadIndex.toNat != h.sender.val || (b.echoTx == 0 && b.echoRx == 0)) = true
    rw [follows, led, noEcho]
    simp
  · exact congrArg (fun tm : TimeState => (((s.clock t).heard h false).noteStamps l b).followEcho (echoOffset b (at? tm.linkAsym l)))
      (State.heard_frame lane).time

end

/-! ## LLP_SET and LLP_CLOSE (R493 to R495, R506) -/

theorem Mode.ofCode_of_code {n : Nat} (m : Mode) (same : n = m.code) : Mode.ofCode n = some m := by
  subst same
  cases m <;> rfl

/-- The set of a peer is held, and its credits return. -/
def State.keepSet (s : State) (now : Nat) (h : LlpHeader) (l : Fin 2) (x : ReleasedSet) : State :=
  (s.setLink l (·.refill now)).setPeer h.sender fun p => { p with set := some { x with member := h.sender } }

section
variable {s : State} {t : Nat} {h : LlpHeader} {l : Fin 2} (on : Running s) (sound : h.crcOk = true) (peer : h.sender.val ≠ s.me)
  (lane : h.link = some l)
include on sound peer lane

theorem execLlpSet_holds (x : ReleasedSet) (spare : (s.clock t).group.role = .spare) (open_ : (s.clock t).gcycle.closed = none) :
    execLlpSet t h x s = .next (((s.clock t).heard h false).keepSet (s.clock t).now h l x) := by
  rw [← State.heard_role lane] at spare
  rw [← (State.heard_frame lane).gcycle] at open_
  have now : ((s.clock t).heard h false).now = (s.clock t).now := by rw [State.now, State.now, (State.heard_frame lane).time]
  have other : (((s.clock t).heard h false).keepSet (s.clock t).now h l x).group.role ≠ .lead := by
    show ((s.clock t).heard h false).group.role ≠ _
    rw [spare]
    decide
  have unclosed : (((s.clock t).heard h false).keepSet (s.clock t).now h l x).gcycle.closed = none := open_
  refine (runRunning_onFrame on sound peer lane _).trans (congrArg Host.Outcome.next ?_)
  dsimp only
  rw [lane]
  dsimp only
  rw [now]
  exact (congrArg State.tryComplete (State.tryClose_other other)).trans (State.tryComplete_unclosed unclosed)

theorem execLlpClose_old (b : LlpClose) (old : h.epoch.toNat < (s.clock t).group.epoch.toNat) :
    execLlpClose t h b s = .next ((s.clock t).heard h false) := by
  have epoch : ((s.clock t).heard h false).group.epoch = (s.clock t).group.epoch := by rw [State.heard_group lane]
  rw [← epoch] at old
  exact (runRunning_onFrame on sound peer lane _).trans (congrArg Host.Outcome.next (if_pos (by simp [old])))

theorem execLlpClose_again (b : LlpClose) (closed : (s.clock t).gcycle.closed = some b) :
    execLlpClose t h b s = .next ((s.clock t).heard h false) := by
  rw [← (State.heard_frame lane).gcycle] at closed
  refine (runRunning_onFrame on sound peer lane _).trans (congrArg Host.Outcome.next ?_)
  dsimp only
  rw [closed, Option.map_some, beq_self_eq_true, if_pos rfl]
  exact ite_self _

section
variable {b : LlpClose} (current : (s.clock t).group.epoch.toNat ≤ h.epoch.toNat) (open_ : (s.clock t).gcycle.closed = none)
include current open_

theorem execLlpClose_resync (resync : (s.clock t).group.role = .resync) (waits : (s.clock t).gcycle.copyApplied = false) :
    execLlpClose t h b s = .next { (s.clock t).heard h false with gcycle.closed := some b } := by
  have epoch : ((s.clock t).heard h false).group.epoch = (s.clock t).group.epoch := by rw [State.heard_group lane]
  rw [← State.heard_role lane] at resync
  rw [← (State.heard_frame lane).gcycle] at open_ waits
  rw [← epoch] at current
  refine (runRunning_onFrame on sound peer lane _).trans (congrArg Host.Outcome.next
    ((if_neg ?_).trans ((if_neg ?_).trans (if_pos ?_))))
  · simpa [resync] using current
  · simp [open_]
  · show (!State.inStepSelf _) = true
    rw [State.inStepSelf, resync]
    simp [waits]

/-- A SPARE that the mask does not name is out of step. -/
theorem execLlpClose_unnamed (spare : (s.clock t).group.role = .spare) (none_ : b.writes = []) (out : (s.clock t).modes.mode ≠ .safe)
    (mode : b.mode.toNat = (s.clock t).modes.mode.code) (cycle : b.cycle = (s.clock t).cycle.count)
    (unnamed : b.mask.getLsbD (s.clock t).me = false) :
    execLlpClose t h b s = .next (State.toResync { (s.clock t).heard h false with
      group.epoch := h.epoch, gcycle.closed := some b, modes.pendingMode := none } 5) := by
  have epoch : ((s.clock t).heard h false).group.epoch = (s.clock t).group.epoch := by rw [State.heard_group lane]
  have me : ((s.clock t).heard h false).me = (s.clock t).me := by rw [State.me, State.me, State.heard_group lane]
  have frame := State.heard_frame (s := s.clock t) lane
  rw [← State.heard_role lane] at spare
  rw [← frame.gcycle] at open_
  rw [← epoch] at current
  rw [← me] at unnamed
  rw [← frame.cycle] at cycle
  rw [← frame.modes] at mode out
  have named := Mode.ofCode_of_code _ mode
  refine (runRunning_onFrame on sound peer lane _).trans (congrArg Host.Outcome.next
    ((if_neg ?_).trans ((if_neg ?_).trans ((if_neg ?_).trans ?_))))
  · simpa [spare] using current
  · simp [open_]
  · show ¬ (!State.inStepSelf _) = true
    rw [State.inStepSelf, spare]
    simp
  · rw [none_]
    dsimp only [List.foldl_nil]
    generalize (s.clock t).heard h false = v at *
    have leaves : (b.cycle == v.cycle.count && !b.mask.getLsbD v.me) = true := by simp [cycle, unnamed]
    rw [named]
    generalize was : v.modes.mode = m at *
    cases m with
    | safe => exact absurd rfl out
    | _ => exact if_pos leaves

end

end

section
variable {s : State} {t : Nat} {h : LlpHeader} {l : Fin 2} (on : Running s) (sound : h.crcOk = true) (peer : h.sender.val ≠ s.me)
  (lane : h.link = some l)
include on sound peer lane

/-! ## LLP_SOLVE_REPORT and LLP_COMMIT (R344, R496, R497) -/

theorem execLlpSolveReport_late (r : SolveReport) (other : h.cycle ≠ (s.clock t).cycle.count) :
    execLlpSolveReport t h r s = .next ((s.clock t).heard h false) := by
  rw [← (State.heard_frame lane).cycle] at other
  exact (runRunning_onFrame on sound peer lane _).trans (congrArg Host.Outcome.next (if_pos (by simp [other])))

theorem execLlpSolveReport_taken (r : SolveReport) (same : h.cycle = (s.clock t).cycle.count)
    (accepted : (s.clock t).cycle.acceptDone = true) :
    execLlpSolveReport t h r s = .next { (s.clock t).heard h false with
      sol.peers := ((s.clock t).heard h false).sol.peers.filter (fun (x : Nat × SolveReport) => x.1 != h.sender.val) ++
        [(h.sender.val, r)] } := by
  rw [← (State.heard_frame lane).cycle] at same accepted
  exact (runRunning_onFrame on sound peer lane _).trans (congrArg Host.Outcome.next
    ((if_neg (by simp [same])).trans (State.tryAccept_done accepted)))

/-- A COMMIT is kept. -/
def State.noteCommit (s : State) (h : LlpHeader) (d : Word) : State :=
  s.setPeer h.sender fun p => { p with commit := some (h.cycle, d) }

omit on sound peer lane in
theorem State.noteCommit_peer (s : State) (h : LlpHeader) (d : Word) : at? (s.noteCommit h d).group.peers h.sender.val =
    { at? s.group.peers h.sender.val with commit := some (h.cycle, d) } := at?_upd_self _ _ _ h.sender.isLt

omit on sound peer lane in
theorem State.noteCommit_frame (s : State) (h : LlpHeader) (d : Word) : FrameBut [.group] s (s.noteCommit h d) := State.setPeer_frame _ _ _

omit on sound peer lane in
theorem State.noteCommit_group (s : State) (h : LlpHeader) (d : Word) : (s.noteCommit h d).group =
    { s.group with peers := (s.noteCommit h d).group.peers } := rfl

/-- A COMMIT that is new is kept, compared and, where Accept is behind it, answered by a request alone. -/
theorem execLlpCommit_kept (d : Word) (r : BitVec 8) (new : (at? (s.clock t).group.peers h.sender.val).commit ≠ some (h.cycle, d)) :
    execLlpCommit t h d r s = .next
      ((((s.clock t).heard h false).noteCommit h d).compareCommit h.sender).tryAccept.requestCopy := by
  have told : (at? ((s.clock t).heard h false).group.peers h.sender.val).commit =
      (at? (s.clock t).group.peers h.sender.val).commit := by
    rw [State.heard_other lane, State.noteFrame_peer]
  rw [← told] at new
  exact (runRunning_onFrame on sound peer lane _).trans (congrArg Host.Outcome.next (if_neg (by simpa using new)))

/-! ## LLP_YIELD and LLP_TAKEOVER (R509) -/

theorem execLlpYield_other {n : BitVec 8} (i : Nat) (other : n.toNat ≠ (s.clock t).me) (accepted : (s.clock t).cycle.acceptDone = true) :
    execLlpYield t h i n s = .next { (s.clock t).heard h false with
      group.inStep := (s.clock t).group.inStep &&& ~~~(1#3 <<< h.sender.val),
      group.peers := upd ((s.clock t).heard h false).group.peers h.sender.val fun p => { p with role := 3 } } := by
  have me : ((s.clock t).heard h false).me = (s.clock t).me := by rw [State.me, State.me, State.heard_group lane]
  have inStep : ((s.clock t).heard h false).group.inStep = (s.clock t).group.inStep := by rw [State.heard_group lane]
  rw [← (State.heard_frame lane).cycle] at accepted
  rw [← me] at other
  rw [← inStep]
  exact (runPowered_onFrame on sound peer lane _).trans (congrArg Host.Outcome.next
    ((if_neg (by simp [State.setInStep, State.me] at other ⊢; simp [other])).trans (State.tryAccept_done accepted)))

end

/-- What a TAKEOVER leaves of the peers: every LEAD known of is deposed, and its sender leads. -/
def State.newLead (s : State) (lead : Nat) (e : Word) : State :=
  ([0, 1, 2].foldl (State.depose lead) s).setPeer lead fun p => { p with role := 0, epoch := e }

section
variable (s : State) (lead : Nat) (e : Word)

theorem State.newLead_frame : FrameBut [.group] s (s.newLead lead e) :=
  (FrameBut.foldl (State.depose_frame lead) _ _).trans (State.setPeer_frame _ _ _)

theorem State.depose_foldl_group : ∀ (l : List Nat) (s : State), (l.foldl (State.depose lead) s).group =
    { s.group with inStep := (l.foldl (State.depose lead) s).group.inStep, peers := (l.foldl (State.depose lead) s).group.peers }
  | [], _ => rfl
  | m :: l, s => by
    have step : (s.depose lead m).group =
        { s.group with inStep := (s.depose lead m).group.inStep, peers := (s.depose lead m).group.peers } := by
      unfold State.depose
      split <;> rfl
    have rest := State.depose_foldl_group l (s.depose lead m)
    rw [List.foldl_cons, rest, step]

theorem State.newLead_takeoverAt : (s.newLead lead e).group.takeoverAt = s.group.takeoverAt := by
  show ([0, 1, 2].foldl (State.depose lead) s).group.takeoverAt = _
  rw [State.depose_foldl_group]

theorem State.newLead_leads {lead : Nat} (small : lead < 3) :
    (at? (s.newLead lead e).group.peers lead).role = 0 ∧ (at? (s.newLead lead e).group.peers lead).epoch = e := by
  have told := at?_upd_self ([0, 1, 2].foldl (State.depose lead) s).group.peers lead
    (fun p => { p with role := 0, epoch := e }) small
  exact ⟨congrArg Peer.role told, congrArg Peer.epoch told⟩

theorem State.newLead_deposes {m : Nat} (small : m < 3) (other : m ≠ lead) (led : (at? s.group.peers m).role = 0) :
    (s.newLead lead e).Deposed m := by
  have inside : m ∈ List.range 3 := List.mem_range.mpr small
  obtain ⟨role, out⟩ := State.depose_foldl small other [0, 1, 2] s (.inr ⟨inside, led⟩)
  exact ⟨(congrArg Peer.role (at?_upd_ne _ _ _ _ other.symm)).trans role, out⟩

end

section
variable {s : State} {t : Nat} {h : LlpHeader} {l : Fin 2} (on : Running s) (sound : h.crcOk = true) (peer : h.sender.val ≠ s.me)
  (lane : h.link = some l)
include on sound peer lane

theorem execLlpTakeover_leads (e : Word) (i : Nat) (n : BitVec 8) (accepted : (s.clock t).cycle.acceptDone = true)
    (early : (s.clock t).gcycle.ownDigest = none) :
    execLlpTakeover t h e i n s = .next (
      let u := ((s.clock t).heard h false).newLead h.sender.val e
      if (s.clock t).group.epoch.toNat < e.toNat then { u with group.takeoverAt := some i } else u) := by
  have epoch : ((s.clock t).heard h false).group.epoch = (s.clock t).group.epoch := by rw [State.heard_group lane]
  have frame := (State.heard_frame (s := s.clock t) lane).trans (State.newLead_frame _ h.sender.val e)
  rw [← frame.cycle] at accepted
  rw [← frame.gcycle] at early
  rw [← epoch]
  refine (runPowered_onFrame on sound peer lane _).trans (congrArg Host.Outcome.next ?_)
  show (let u := ((s.clock t).heard h false).newLead h.sender.val e
    let u := if u.group.role == .spare then u.compareCommit h.sender.val else u
    if decide (((s.clock t).heard h false).group.epoch.toNat < e.toNat) = true then
      { u with group.takeoverAt := some i }.tryAccept else u.tryAccept) = _
  generalize ((s.clock t).heard h false).newLead h.sender.val e = u at *
  dsimp only
  rw [State.compareCommit_early _ early, ite_self]
  exact if_congr (by simp) (State.tryAccept_done accepted) (State.tryAccept_done accepted)

end

/-- A COMMIT of the LEAD that differs from the own digest takes the member out of step (R497). -/
theorem State.compareCommit_differs {s : State} {m k : Nat} {d e : Word} (spare : s.group.role = .spare)
    (lead : (at? s.group.peers m).role = 0) (told : (at? s.group.peers m).commit = some (k, d))
    (own : s.gcycle.ownDigest = some (k, e)) (differ : d ≠ e) :
    s.compareCommit m = (s.countGroup 2).setRole .resync 5 := by
  have inStep : s.inStepSelf = true := by rw [State.inStepSelf, spare]
  rw [State.compareCommit, told, own]
  exact (if_neg (by simp)).trans ((if_neg (by simp [spare])).trans ((if_pos (by simp [inStep, lead])).trans (if_neg (by simp [differ]))))

section
variable {s : State} {t : Nat} {h : LlpHeader} {l : Fin 2} (on : Running s) (sound : h.crcOk = true) (peer : h.sender.val ≠ s.me)
  (lane : h.link = some l)
include on sound peer lane

/-- A COMMIT is kept while the own digest is not there to compare it with. -/
theorem execLlpCommit_early (d : Word) (r : BitVec 8) (role : (s.clock t).group.role ≠ .resync)
    (accepted : (s.clock t).cycle.acceptDone = true) (early : (s.clock t).gcycle.ownDigest = none)
    (new : (at? (s.clock t).group.peers h.sender.val).commit ≠ some (h.cycle, d)) :
    execLlpCommit t h d r s = .next
      (((s.clock t).heard h false).noteCommit h d) := by
  have frame := (State.heard_frame (s := s.clock t) lane).trans (State.noteCommit_frame _ h d)
  have kept := execLlpCommit_kept on sound peer lane d r new
  have other : (((s.clock t).heard h false).noteCommit h d).group.role ≠ .resync := by
    rw [State.noteCommit_group]
    exact (State.heard_role lane).trans_ne role
  rw [← frame.gcycle] at early
  rw [← frame.cycle] at accepted
  rwa [State.compareCommit_early _ early, State.tryAccept_done accepted, State.requestCopy_other other] at kept

/-- A COMMIT of the LEAD that differs from the own digest: RESYNC is entered, and the difference counted. -/
theorem execLlpCommit_differs (d : Word) (r : BitVec 8) {e : Word} (spare : (s.clock t).group.role = .spare)
    (accepted : (s.clock t).cycle.acceptDone = true) (own : (s.clock t).gcycle.ownDigest = some (h.cycle, e)) (differ : d ≠ e)
    (lead : (at? (s.clock t).group.peers h.sender.val).role = 0)
    (new : (at? (s.clock t).group.peers h.sender.val).commit = none) :
    execLlpCommit t h d r s = .next
      (((((s.clock t).heard h false).noteCommit h d).countGroup 2).toResync 5) := by
  have frame := (State.heard_frame (s := s.clock t) lane).trans (State.noteCommit_frame _ h d)
  have kept := execLlpCommit_kept on sound peer lane d r (by rw [new]; nofun)
  have told := State.noteCommit_peer ((s.clock t).heard h false) h d
  have known : (at? ((s.clock t).heard h false).group.peers h.sender.val).role = 0 := by
    rw [State.heard_other lane, State.noteFrame_peer]
    exact lead
  have still : (((s.clock t).heard h false).noteCommit h d).group.role = .spare := by
    rw [State.noteCommit_group]
    exact (State.heard_role lane).trans spare
  rw [← frame.gcycle] at own
  rw [← frame.cycle] at accepted
  rwa [State.compareCommit_differs still ((congrArg Peer.role told).trans known) (congrArg Peer.commit told) own differ,
    State.tryAccept_done (by rw [(State.setRole_frame _ _ _).cycle]; exact accepted)] at kept

end

/-- Settles O35: each clause is the lemma about the frame; what a frame of a peer tells first is `State.noteFrame`. -/
theorem groupFramesAreTaken : Obligations.GroupFramesAreTaken := by
  unfold Obligations.GroupFramesAreTaken
  intro s t h l on sound peer lane c v
  have group : v.group = _ := State.heard_group (s := c) lane
  have known := State.noteFrame_peer c h l false
  have counts := State.noteFrame_validFrames c h l false
  rw [← State.heard_other lane] at known counts
  have frame : FrameBut [.group] c v := State.heard_frame lane
  refine ⟨congrArg Peer.lastValid known, congrArg Peer.epoch known, counts, frame,
    fun b lead settled noTest spare up => ?hello, fun b => ?time,
    fun x spare open_ => execLlpSet_holds on sound peer lane x spare open_,
    fun b _ old => execLlpClose_old on sound peer lane b old,
    fun b _ closed => execLlpClose_again on sound peer lane b closed,
    fun b resync waits current open_ => execLlpClose_resync on sound peer lane current open_ resync waits,
    fun b spare current none_ out open_ mode cycle unnamed =>
      execLlpClose_unnamed on sound peer lane current open_ spare none_ out mode cycle unnamed,
    fun r other => execLlpSolveReport_late on sound peer lane r other,
    fun r same accepted => execLlpSolveReport_taken on sound peer lane r same accepted,
    fun d r spare accepted early new => execLlpCommit_early on sound peer lane d r (by rw [spare]; decide) accepted early new,
    fun d e r spare accepted own differ lead new quiet => ?differs,
    fun i n other accepted => execLlpYield_other on sound peer lane i other accepted,
    fun e i n accepted early => ?takeover⟩
  case hello =>
    obtain ⟨role, mode, digest, granted⟩ := State.hearSpare_peer c h l spare
    exact ⟨_, execLlpHello_spare on sound peer lane lead settled noTest spare up, role, mode, digest, granted,
      State.hearSpare_inStep _ _ _ _, State.hearSpare_frame _ _ _ _⟩
  case time =>
    refine ⟨fun noTx noRx => execLlpTime_notes on sound peer lane noTx noRx, fun spare lead echo => ?_⟩
    have follows := execLlpTime_follows on sound peer lane spare lead echo
    exact ⟨fun near => follows.trans (congrArg Host.Outcome.next (State.followEcho_slews near)),
      fun free far => follows.trans (congrArg Host.Outcome.next (State.followEcho_steps free far))⟩
  case differs =>
    have noted := (frame.trans (v.noteCommit_frame h d)).trans (State.countGroup_frame _ 2)
    have quietThen : (((v.noteCommit h d).countGroup 2).route 107).fault = false :=
      (congrArg Route.fault (route_of_events noted.events)).trans quiet
    obtain ⟨role, auth, copy, -, -, counters⟩ := State.toResync_enters quietThen 5
    refine ⟨_, execLlpCommit_differs on sound peer lane d r spare accepted own differ lead new, role, auth, copy,
      (counters 2 (by decide)).trans ?_⟩
    have kept : v.group.counters = c.group.counters := by rw [group]
    rw [← kept]
    exact (getElem_upd _ _ _ _ (by decide)).trans (if_pos rfl)
  case takeover =>
    obtain ⟨role, epoch⟩ := v.newLead_leads e h.sender.isLt
    have exec := execLlpTakeover_leads on sound peer lane e i n accepted early
    have deposed : ∀ m < 3, m ≠ h.sender.val → (at? c.group.peers m).role = 0 → (v.newLead h.sender.val e).Deposed m := by
      intro m small other led
      refine v.newLead_deposes _ e small other ?_
      rw [show v = _ from State.heard_other lane, State.noteFrame_others _ _ _ _ other.symm]
      exact led
    have at_ : (v.newLead h.sender.val e).group.takeoverAt = c.group.takeoverAt := by rw [State.newLead_takeoverAt, group]
    have leads : FrameBut [.group] c (v.newLead h.sender.val e) := frame.trans (State.newLead_frame _ _ _)
    by_cases higher : c.group.epoch.toNat < e.toNat
    · rw [if_pos higher] at exec ⊢
      exact ⟨_, exec, role, epoch, rfl, deposed, leads.trans (frame_set_group _ _)⟩
    · rw [if_neg higher] at exec ⊢
      exact ⟨_, exec, role, epoch, at_, deposed, leads⟩

end Sys2Proof.Machine
end

section
/-! The switch (spec/15_networks.md, R524 to R528). -/

namespace Sys2Proof.Machine
set_option Elab.async false

/-! ## What the lines leave alone (R526) -/

theorem State.setPort_vlans (s : State) (n f) : (s.setPort n f).net.vlans = s.net.vlans := rfl

theorem State.transparent_vlans (s : State) (n f at_) : (s.transparent n f at_).2.net.vlans = s.net.vlans := by
  unfold State.transparent
  split
  · rfl
  · cases f.ptp with
    | sync twoStep _ => cases twoStep <;> rfl
    | _ => rfl

theorem State.egressFrom_vlans (n : Nat) : ∀ (fuel start : Nat) (s : State), (s.egressFrom n start fuel).net.vlans = s.net.vlans
  | 0, _, _ => rfl
  | fuel + 1, start, s => by
    unfold State.egressFrom
    cases nextEgress (at? s.net.ports n).queue with
    | none => rfl
    | some next =>
      obtain ⟨e, rest⟩ := next
      dsimp only
      split
      · rw [State.egressFrom_vlans n fuel, State.setPort_vlans, State.setPort_vlans, State.transparent_vlans]
      · rw [State.setPort_vlans, State.transparent_vlans]

theorem State.egress_vlans (s : State) (n : Nat) : (s.egress n).net.vlans = s.net.vlans := by
  unfold State.egress
  dsimp only
  split
  · split
    · exact (State.egressFrom_vlans _ _ _ _).trans (State.setPort_vlans _ _ _)
    · rfl
  · exact State.egressFrom_vlans _ _ _ _

theorem State.egressAll_vlans (s : State) : s.egressAll.net.vlans = s.net.vlans := by
  simp only [State.egressAll, forwarding, List.foldl_cons, List.foldl_nil, State.egress_vlans]

/-! ## A frame enters (R524, R525, R527, R528) -/

/-- The lines are as of now, and the port counts the frame. -/
abbrev State.countIngress (s : State) (n : Fin 7) : State := s.egressAll.setPort n fun p => { p with counters := upd p.counters 0 sat32 }

theorem State.countIngress_vlan? (s : State) (n : Fin 7) (vid : Nat) : (s.countIngress n).vlan? vid = s.vlan? vid := by
  have vlans : (s.countIngress n).net.vlans = s.net.vlans := (State.setPort_vlans _ _ _).trans s.egressAll_vlans
  rw [State.vlan?, State.vlan?, vlans]

theorem at?_ports (s : State) (n : Fin 7) : at? s.net.ports n = s.net.ports[n] := at?_eq _ _ n.isLt

section
variable {s : State} {t : Nat} {n : Fin 7} {f : SwitchFrame} (on : Powered s)
include on

theorem execSwitchFrameIngress_disabled (off : (s.clock t).net.ports[n].en = false) :
    execSwitchFrameIngress t n f s = .next (s.clock t) := by
  rw [← at?_ports] at off
  exact (runPowered_next _ on).trans (congrArg Host.Outcome.next (if_pos (by simp [off])))

section
variable (enabled : (s.clock t).net.ports[n].en = true)
include enabled

theorem execSwitchFrameIngress_bad (bad : f.crcOk = false) : execSwitchFrameIngress t n f s =
    .next (((s.clock t).countIngress n).setPort n fun p => { p with counters := upd p.counters 5 sat32 }) := by
  rw [← at?_ports] at enabled
  exact (runPowered_next _ on).trans (congrArg Host.Outcome.next ((if_neg (by simp [enabled])).trans (if_pos (by simp [bad]))))

section
variable (sound : f.crcOk = true)
include sound

theorem execSwitchFrameIngress_lane (lane : 5 ≤ n.val) : execSwitchFrameIngress t n f s = .next ((s.clock t).countIngress n) := by
  rw [← at?_ports] at enabled
  exact (runPowered_next _ on).trans (congrArg Host.Outcome.next ((if_neg (by simp [enabled])).trans
    ((if_neg (by simp [sound])).trans (if_pos lane))))

section
variable (eth : n.val < 5)
include eth

theorem execSwitchFrameIngress_long (long : 1522 < f.length) : execSwitchFrameIngress t n f s =
    .next (((s.clock t).countIngress n).setPort n fun p => { p with counters := upd p.counters 2 sat32 }) := by
  rw [← at?_ports] at enabled
  exact (runPowered_next _ on).trans (congrArg Host.Outcome.next ((if_neg (by simp [enabled])).trans
    ((if_neg (by simp [sound])).trans ((if_neg (by omega)).trans (if_pos long)))))

section
variable {vid pcp : Nat} (short : f.length ≤ 1522) (named : (s.clock t).net.ports[n].classify f = some (vid, pcp))
include short named

theorem execSwitchFrameIngress_foreign (out : ∀ e : VlanEntry, (s.clock t).vlan? vid = some e → e.members.getLsbD n = false) :
    execSwitchFrameIngress t n f s =
      .next (((s.clock t).countIngress n).setPort n fun p => { p with counters := upd p.counters 3 sat32 }) := by
  rw [← at?_ports] at enabled named
  refine (runPowered_next _ on).trans (congrArg Host.Outcome.next ((if_neg (by simp [enabled])).trans
    ((if_neg (by simp [sound])).trans ((if_neg (by omega)).trans ((if_neg (by omega)).trans ?_)))))
  have entry : (((s.clock t).countIngress n).vlan? vid).filter (fun e => e.members.getLsbD n) = none := by
    rw [State.countIngress_vlan?]
    exact Option.filter_eq_none_iff.mpr fun e vlan => by simp [out e vlan]
  rw [named]
  dsimp only
  rw [entry]

theorem execSwitchFrameIngress_member {e : VlanEntry} (vlan : (s.clock t).vlan? vid = some e) (inside : e.members.getLsbD n = true) :
    execSwitchFrameIngress t n f s = .next (
      if ((s.clock t).countIngress n |>.storm n f).1 then
        ((s.clock t).countIngress n |>.storm n f).2.forward n vid (framePriority f n pcp) e (tagFrame f vid pcp)
      else ((s.clock t).countIngress n |>.storm n f).2) := by
  rw [← State.countIngress_vlan? _ n] at vlan
  rw [← at?_ports] at enabled named
  refine (runPowered_next _ on).trans (congrArg Host.Outcome.next ((if_neg (by simp [enabled])).trans
    ((if_neg (by simp [sound])).trans ((if_neg (by omega)).trans ((if_neg (by omega)).trans ?_)))))
  have entry : (((s.clock t).countIngress n).vlan? vid).filter (fun e => e.members.getLsbD n) = some e := by
    rw [vlan, Option.filter_some, if_pos inside]
  rw [named]
  dsimp only
  rw [entry]
  dsimp only
  by_cases passes : (((s.clock t).countIngress n).storm n f).1 = true
  · rw [if_pos passes]
    exact if_neg (by simp [passes])
  · rw [if_neg passes]
    exact if_pos (by simpa using passes)

end

end

end

end

end

/-! ## The ports a frame leaves by (R524) -/

section
variable {s : State} {vid : Nat} {e : VlanEntry} {f : SwitchFrame} {n p : Nat}

/-- A frame leaves by enabled member ports, and never by its own. -/
theorem State.egressPorts_member (leaves : p ∈ s.egressPorts vid e f n) :
    p ≠ n ∧ e.members.getLsbD p = true ∧ (at? s.net.ports p).en = true := by
  have member : p ∈ forwarding.filter fun p => p != n && e.members.getLsbD p && (at? s.net.ports p).en := by
    unfold State.egressPorts at leaves
    dsimp only at leaves
    split at leaves
    · exact (List.mem_filter.mp leaves).1
    · exact leaves
  obtain ⟨-, holds⟩ := List.mem_filter.mp member
  simpa [and_assoc] using holds

/-- A group frame leaves by every other enabled member port. -/
theorem State.egressPorts_group (group : frameIsGroup f = true) (forwards : p ∈ forwarding) (other : p ≠ n)
    (member : e.members.getLsbD p = true) (enabled : (at? s.net.ports p).en = true) : p ∈ s.egressPorts vid e f n := by
  unfold State.egressPorts
  rw [group]
  exact List.mem_filter.mpr ⟨forwards, by simp [other, member, enabled]⟩

end

theorem State.storm_unicast {s : State} {n : Nat} {f : SwitchFrame} (unicast : frameIsGroup f = false) : s.storm n f = (true, s) :=
  if_pos (by simp [unicast])

/-- Settles O39: each clause is the lemma about the frame that it names. -/
theorem switchFiltersAndForwards : Obligations.SwitchFiltersAndForwards := by
  unfold Obligations.SwitchFiltersAndForwards
  intro s t n f on c v port
  refine ⟨fun off => execSwitchFrameIngress_disabled on off, fun enabled bad => execSwitchFrameIngress_bad on enabled bad,
    fun enabled sound lane => execSwitchFrameIngress_lane on enabled sound lane,
    fun enabled sound eth long => execSwitchFrameIngress_long on enabled sound eth long,
    fun vid pcp enabled sound eth short named => ⟨fun out => execSwitchFrameIngress_foreign on enabled sound eth short named out,
      fun e vlan inside => ?_⟩⟩
  have enters := execSwitchFrameIngress_member on enabled sound eth short named vlan inside
  exact ⟨fun passes => enters.trans (congrArg Host.Outcome.next (if_pos passes)),
    fun stops => enters.trans (congrArg Host.Outcome.next (if_neg (by rw [Bool.not_eq_true]; exact stops))), fun unicast => State.storm_unicast unicast,
    fun p leaves => State.egressPorts_member leaves,
    fun group p forwards other member enabled => State.egressPorts_group group forwards other member enabled⟩

end Sys2Proof.Machine
end

section
/-! Links, datagrams and the feedback of thrusters (spec/15_networks.md, R532, R536, R552, R554). -/

namespace Sys2Proof.Machine
set_option Elab.async false

theorem Running.clock {s : State} (on : Running s) (t : Nat) : Running (s.clock t) :=
  (congrArg ModeState.phase (s.clock_frame t).modes).trans on

/-! ## A datagram reaches the parser (R44, R532) -/

section
variable {s : State} {d : EthIn} (on : Running s)
include on

theorem State.ethArrives_whole (empty : s.net.ethWait = []) (whole : (s.takeEth d).1 = none) :
    s.ethArrives d = (s.takeEth d).2.tryRelease := by
  have runs : (!s.running) ≠ true := by simpa [State.running] using on
  rw [State.ethArrives, if_neg runs, empty]
  simp only [List.isEmpty_nil, if_true]
  rw [whole]

theorem State.ethArrives_waits (waiting : s.net.ethWait ≠ []) : s.ethArrives d = (s.storeEth d).tryRelease := by
  have runs : (!s.running) ≠ true := by simpa [State.running] using on
  have held : s.net.ethWait.isEmpty = false := by simpa using waiting
  rw [State.ethArrives, if_neg runs, held]
  rfl

end

/-- A datagram for points is taken whole, or waits whole. -/
theorem State.takeEth_datagram {s : State} {d : EthIn} {u : BitVec 16} (datagram : d.udp = some u)
    (goes : s.ethStops (s.ownPoints 10 d.port).length = false) : (s.takeEth d).1 = none := by
  rw [State.takeEth, datagram]
  simp only [goes, Bool.false_eq_true, if_false]

/-! ## What each input does -/

section
variable {s : State} {t : Nat}

section
variable (on : Powered s)
include on

theorem execEthLink_next (n : Fin 4) (v : BitVec 8) : execEthLink t n v s = .next (
    if (at? (s.clock t).net.ports n).status.getLsbD 0 != (v &&& 3).getLsbD 0 then
      ((s.clock t).setPort n fun p => { p with status := v &&& 3 }).raiseN 96 n (some (v &&& 3).toNat)
    else (s.clock t).setPort n fun p => { p with status := v &&& 3 }) :=
  runPowered_next _ on

variable {n : Fin 4} {dst : Addr} {u : BitVec 16} {stamp : Nat}

theorem execDatagramReceived_foreign (other : (at? (s.clock t).net.ports n).en = false ∨ (s.clock t).takesDestination dst = false)
    (x : Option (List Byte)) : execDatagramReceived t n dst u stamp x s = .next (s.clock t) := by
  refine (runPowered_next _ on).trans (congrArg Host.Outcome.next (if_pos ?_))
  simpa using other

theorem execIec450Datagram_foreign (b : List Byte)
    (other : (at? (s.clock t).net.ports n).en = false ∨ (s.clock t).takesGroup dst u = false) :
    execIec450Datagram t n dst u stamp b s = .next (s.clock t) := by
  refine (runPowered_next _ on).trans (congrArg Host.Outcome.next (if_pos ?_))
  simpa using other

section
variable (enabled : (at? (s.clock t).net.ports n).en = true) (mine : (s.clock t).takesDestination dst = true)
include enabled mine

theorem execDatagramReceived_fragment : execDatagramReceived t n dst u stamp none s =
    .next ((s.clock t).setPort n fun p => { p with counters := upd p.counters 14 sat32 }) :=
  (runPowered_next _ on).trans (congrArg Host.Outcome.next (if_neg (by simp [enabled, mine])))

variable (b : List Byte)

theorem execDatagramReceived_unwanted
    (none_ : (((s.clock t).ownPoints 10 n).filter fun p => p.period != 0 && p.selector == u.setWidth 32) = []) :
    execDatagramReceived t n dst u stamp (some b) s = .next (s.clock t) :=
  (runPowered_next _ on).trans (congrArg Host.Outcome.next ((if_neg (by simp [enabled, mine])).trans
    (if_pos (by rw [none_]; rfl))))

theorem execDatagramReceived_wanted
    (wanted : (((s.clock t).ownPoints 10 n).filter fun p => p.period != 0 && p.selector == u.setWidth 32) ≠ []) :
    execDatagramReceived t n dst u stamp (some b) s =
      .next ((s.clock t).ethArrives { port := n, stamp := stamp, udp := some u, payload := b }) :=
  (runPowered_next _ on).trans (congrArg Host.Outcome.next ((if_neg (by simp [enabled, mine])).trans
    (if_neg (by rwa [List.isEmpty_iff]))))

end

section
variable {b : List Byte} (enabled : (at? (s.clock t).net.ports n).en = true) (mine : (s.clock t).takesGroup dst u = true)
include enabled mine

theorem execIec450Datagram_unmarked (bad : b.take 6 ≠ [0x55, 0x64, 0x50, 0x62, 0x43, 0x00]) :
    execIec450Datagram t n dst u stamp b s =
      .next ((s.clock t).setPort n fun p => { p with counters := upd p.counters 15 sat32 }) :=
  (runPowered_next _ on).trans (congrArg Host.Outcome.next ((if_neg (by simp [enabled, mine])).trans
    (if_pos (by simpa using bad))))

theorem execIec450Datagram_marked (marked : b.take 6 = [0x55, 0x64, 0x50, 0x62, 0x43, 0x00]) :
    execIec450Datagram t n dst u stamp b s =
      .next ((s.clock t).ethArrives { port := n, stamp := stamp, lines := linesOf (b.drop 6) }) :=
  (runPowered_next _ on).trans (congrArg Host.Outcome.next ((if_neg (by simp [enabled, mine])).trans
    (if_neg (by simp [marked]))))

end

theorem execFeedbackTimeout_lost {n : Fin 16} {i : Structure} {p : PointRec} (loaded : (s.clock t).image.loaded = some i)
    (point : i.thrusterPoint n (s.clock t).me false = some p) (fresh : (s.clock t).net.feedbackLost[n] = false)
    (late : ((s.clock t).net.feedbackAt[n]).getD 0 + 3 * p.period ≤ (s.clock t).now) :
    execFeedbackTimeout t n s = .next (State.raiseN (State.judgeFeedback { s.clock t with
      net.feedbackLost := upd (s.clock t).net.feedbackLost n fun _ => true } n) 76 (n.val + 256) (some 0xFF)) := by
  have at_ : at? (s.clock t).net.feedbackAt n = (s.clock t).net.feedbackAt[n] := at?_eq _ _ n.isLt
  have lost : at? (s.clock t).net.feedbackLost n = (s.clock t).net.feedbackLost[n] := at?_eq _ _ n.isLt
  refine (runPowered_next _ on).trans (congrArg Host.Outcome.next ?_)
  rw [loaded, Option.bind_some, point]
  exact if_neg (by simpa [at_, lost, fresh] using late)

end

end

/-- Settles O40: each clause is the lemma about the input; what becomes of a datagram is `State.ethArrives_whole` or
`State.ethArrives_waits`. -/
theorem ethernetInputsAreTaken : Obligations.EthernetInputsAreTaken := by
  unfold Obligations.EthernetInputsAreTaken
  intro s t on c
  refine ⟨fun n v changes => (execEthLink_next on n v).trans (congrArg Host.Outcome.next (if_pos (by simpa using changes))),
    fun n v same => (execEthLink_next on n v).trans (congrArg Host.Outcome.next (if_neg (by simpa using same))),
    fun n dst u stamp b => ⟨fun other x => execDatagramReceived_foreign on other x, fun enabled mine => ?datagram⟩,
    fun n dst u stamp b => ⟨fun other => execIec450Datagram_foreign on b other, fun enabled mine => ?group⟩,
    fun n i p loaded point fresh late => execFeedbackTimeout_lost on loaded point fresh late⟩
  case datagram =>
    refine ⟨execDatagramReceived_fragment on (u := u) (stamp := stamp) enabled mine, fun none_ => execDatagramReceived_unwanted on enabled mine b none_,
      fun wanted runs empty goes => ?_, fun wanted runs waiting => ?_⟩
    · exact (execDatagramReceived_wanted on enabled mine b wanted).trans (congrArg Host.Outcome.next
        (State.ethArrives_whole (Running.clock runs t) empty (State.takeEth_datagram rfl goes)))
    · exact (execDatagramReceived_wanted on enabled mine b wanted).trans (congrArg Host.Outcome.next
        (State.ethArrives_waits (Running.clock runs t) waiting))
  case group =>
    refine ⟨fun bad => execIec450Datagram_unmarked on enabled mine bad, fun marked runs empty whole => ?_,
      fun marked runs waiting => ?_⟩
    · exact (execIec450Datagram_marked on enabled mine marked).trans (congrArg Host.Outcome.next
        (State.ethArrives_whole (Running.clock runs t) empty whole))
    · exact (execIec450Datagram_marked on enabled mine marked).trans (congrArg Host.Outcome.next
        (State.ethArrives_waits (Running.clock runs t) waiting))

end Sys2Proof.Machine
end

section
/-! The CAN controllers (spec/15_networks.md, R542 to R544). -/

namespace Sys2Proof.Machine
set_option Elab.async false

/-! ## One controller of the four -/

theorem at?_can (s : State) (n : Fin 4) : at? s.net.can n = s.net.can[n] := at?_eq _ _ n.isLt

theorem State.setCan_frame (s : State) (n f) : FrameBut [.net] s (s.setCan n f) := frame_set_net s _

theorem State.setCan_can (s : State) (n f) : (s.setCan n f).net.can = upd s.net.can n f := rfl

theorem State.setCan_self (s : State) (n : Fin 4) (f : CanController → CanController) :
    at? (s.setCan n f).net.can n = f (at? s.net.can n) := at?_upd_self _ _ _ n.isLt

theorem State.setCan_setCan (s : State) (n : Nat) (f g : CanController → CanController) :
    (s.setCan n f).setCan n g = s.setCan n fun k => g (f k) :=
  congrArg (fun v => { s with net.can := v }) (upd_upd _ _ _ _)

theorem State.setCan_congr {s : State} {n : Fin 4} {f g : CanController → CanController} (same : f s.net.can[n] = g s.net.can[n]) :
    s.setCan n f = s.setCan n g :=
  congrArg (fun v => { s with net.can := v }) (upd_congr _ _ _ _ fun _ => same)

/-- Fault confinement leaves an error-active controller whose counts stay below 128 (R542). -/
theorem State.confine_calm {s : State} {n : Nat} (on : (at? s.net.can n).busOff = false) (active : (at? s.net.can n).passive = false)
    (tec : (at? s.net.can n).tec < 128) (rec_ : (at? s.net.can n).recCount < 128) : s.confine n = s := by
  simp only [State.confine]
  rw [if_neg (by simp [on]), if_neg (by omega), if_pos (by simp [active]; omega)]

/-- After a change that leaves it so. -/
theorem State.confine_setCan {s : State} {n : Fin 4} {f : CanController → CanController} (on : (f s.net.can[n]).busOff = false)
    (active : (f s.net.can[n]).passive = false) (tec : (f s.net.can[n]).tec < 128) (rec_ : (f s.net.can[n]).recCount < 128) :
    (s.setCan n f).confine n = s.setCan n f := by
  have own : at? (s.setCan n f).net.can n = f s.net.can[n] := by rw [State.setCan_self, at?_can]
  exact State.confine_calm (by rw [own]; exact on) (by rw [own]; exact active) (by rw [own]; exact tec) (by rw [own]; exact rec_)

/-! ## CAN_FRAME_RECEIVED (R44, R544) -/

/-- A good frame that an error-active controller sees: REC falls. -/
def State.seeFrame (s : State) (n : Nat) : State := s.draw.2.setCan n fun k => { k with recCount := k.recCount - 1 }

theorem State.seeFrame_frame (s : State) (n : Nat) : FrameBut [.net, .free] s (s.seeFrame n) :=
  ((frame_set_free s _).mono (by decide)).trans ((State.setCan_frame _ n _).mono (by decide))

/-- What becomes of a good frame: the filter, the FIFO, the shadow, or an overrun; `c` is the controller as the frame found it. -/
def State.passFrame (s : State) (n : Nat) (c : CanController) (f : CanFrame) : State :=
  let key := BitVec.ofNat 32 (f.id.toNat + flagBit f.extended 31)
  if !(c.listenOnly || (s.canPoints n).any fun p => p.selector == key) then s
  else
    let s := s.setCan n fun c => { c with counters := upd c.counters 0 sat32 }
    if c.rx.length < 64 then
      let s := s.setCan n fun c => { c with rx := c.rx ++ [f], overrunRun := false }
      if s.running then (s.drainCan n 65).tryRelease else s
    else if c.locked && c.shadow.isNone then s.setCan n fun c => { c with shadow := some f, overrunRun := false }
    else (s.setCan n fun c => { c with counters := upd c.counters 2 sat32, overrunRun := true }).raiseN 100 n

section
variable {s : State} {n : Nat} {c : CanController} {f : CanFrame}

theorem State.passFrame_refused (filtered : c.listenOnly = false)
    (other : ∀ p ∈ s.canPoints n, p.selector ≠ BitVec.ofNat 32 (f.id.toNat + flagBit f.extended 31)) : s.passFrame n c f = s :=
  if_pos (by simpa [filtered] using other)

theorem State.passFrame_overrun (listens : c.listenOnly = true) (full : 64 ≤ c.rx.length) (unlocked : c.locked = false) :
    s.passFrame n c f = (s.setCan n fun k =>
      { k with counters := upd (upd k.counters 0 sat32) 2 sat32, overrunRun := true }).raiseN 100 n := by
  rw [State.passFrame, if_neg (by simp [listens]), if_neg (by omega), if_neg (by simp [unlocked]), State.setCan_setCan]

/-- While the parser is stopped, after the release, a frame waits in the FIFO, whose head is locked. -/
theorem State.passFrame_waits {n : Fin 4} (listens : c.listenOnly = true) (room : c.rx.length < 64) (stopped : s.cycle.stopped = true)
    (released : s.cycle.released = true) (on : Running s) : s.passFrame n c f = s.setCan n fun k =>
      { k with counters := upd k.counters 0 sat32, rx := k.rx ++ [f], overrunRun := false, locked := true } := by
  have runs (g : CanController → CanController) : (s.setCan n g).running = true := by simpa [State.running] using on
  have locks (g : CanController → CanController) (rx : (g (at? s.net.can n)).rx ≠ []) :
      (s.setCan n g).drainCan n 65 = s.setCan n fun k => { g k with locked := true } := by
    unfold State.drainCan
    cases queue : (at? (s.setCan n g).net.can n).rx with
    | nil => exact absurd ((congrArg CanController.rx (State.setCan_self s n g)).symm.trans queue) rx
    | cons f rest => exact (if_pos stopped).trans (State.setCan_setCan _ _ _ _)
  rw [State.passFrame, if_neg (by simp [listens]), if_pos room, State.setCan_setCan, if_pos (runs _), locks]
  · exact State.tryRelease_released released
  · exact List.append_ne_nil_of_right_ne_nil _ (List.cons_ne_nil _ _)

end

theorem at?_can_active {s : State} {n : Fin 4} (enabled : s.net.can[n].en = true) (joined : s.net.can[n].busOff = false) :
    (at? s.net.can n).active = true := by
  rw [at?_can, CanController.active, enabled, joined]
  rfl

section
variable {s : State} {t : Nat} {n : Fin 4} (on : Powered s) (enabled : (s.clock t).net.can[n].en = true)
  (joined : (s.clock t).net.can[n].busOff = false)
include on enabled joined

theorem execCanFrameReceived_passes {f : CanFrame} (format : f.fd = true → (s.clock t).net.can[n].fdEn = true)
    (rec_ : (s.clock t).net.can[n].recCount < 128) (tec : (s.clock t).net.can[n].tec < 128)
    (active : (s.clock t).net.can[n].passive = false) :
    execCanFrameReceived t n f s = .next (((s.clock t).seeFrame n).passFrame n (s.clock t).net.can[n] f) := by
  have kept : (s.clock t).draw.2.net = (s.clock t).net := rfl
  have falls : ((s.clock t).draw.2.setCan n fun c => { c with
      recCount := if 128 ≤ (at? (s.clock t).net.can n).recCount then 119 + (Config.canRecAfter (s.clock t).draw.1).val
        else (at? (s.clock t).net.can n).recCount - 1 }).confine n = (s.clock t).seeFrame n := by
    refine (State.confine_setCan joined active tec ?_).trans (State.setCan_congr ?_)
    · show (if _ then _ else _) < 128
      rw [if_neg (by rw [at?_can]; omega), at?_can]
      omega
    · rw [if_neg (by rw [at?_can]; omega), at?_can]
      rfl
  refine (runPowered_next _ on).trans (congrArg Host.Outcome.next ((if_neg ?_).trans ?_))
  · rw [← at?_can] at format
    simpa [at?_can_active enabled joined] using format
  · rw [← at?_can]
    exact congrArg (fun u => State.passFrame u n (at? (s.clock t).net.can n) f) falls

/-! ## CAN_FRAME_TRANSMITTED, and errors (R542, R543) -/

theorem execCanFrameTransmitted_goes {i : Nat} (head : (s.clock t).net.can[n].head = some i)
    (sends : (s.clock t).net.can[n].listenOnly = false) (tec : (s.clock t).net.can[n].tec ≤ 128)
    (rec_ : (s.clock t).net.can[n].recCount < 128) (active : (s.clock t).net.can[n].passive = false) :
    execCanFrameTransmitted t n s = .next ((s.clock t).setCan n fun k =>
      { k with tx := k.tx.eraseIdx i, tec := k.tec - 1, counters := upd k.counters 1 sat32 }) := by
  refine (runPowered_next _ on).trans (congrArg Host.Outcome.next ?_)
  rw [← at?_can] at head
  dsimp only
  rw [head]
  refine (if_neg ?_).trans (State.confine_setCan joined active ?_ rec_)
  · rw [← at?_can] at sends
    simp [at?_can_active enabled joined, sends]
  · show (s.clock t).net.can[n].tec - 1 < 128
    omega

theorem execCanRxError_counts {e : BitVec 4} (d : Bool) (error : e ≠ 0) (named : e.toNat ≤ 6)
    (rec_ : (s.clock t).net.can[n].recCount < 127) (tec : (s.clock t).net.can[n].tec < 128)
    (active : (s.clock t).net.can[n].passive = false) :
    execCanRxError t n e d s = .next ((s.clock t).setCan n fun k =>
      { k with lastError := e, dataPhase := d, recCount := k.recCount + 1 }) := by
  refine (runPowered_next _ on).trans (congrArg Host.Outcome.next ((if_neg ?_).trans
    ((State.confine_setCan joined active tec ?_).trans (State.setCan_congr ?_))))
  · simpa [at?_can_active enabled joined] using And.intro error named
  · show min 255 ((s.clock t).net.can[n].recCount + 1) < 128
    omega
  · rw [Nat.min_eq_right (by omega)]

/-- A lost arbitration: the frame is tried again, or abandoned after RETRY_LIMIT + 1 attempts. -/
theorem execCanTxAttemptFailed_lost {i : Nat} {x : CanTx} (d : Bool) (head : (s.clock t).net.can[n].head = some i)
    (pending : (s.clock t).net.can[n].tx[i]? = some x) (sends : (s.clock t).net.can[n].listenOnly = false) :
    execCanTxAttemptFailed t n 0 d s = .next ((s.clock t).setCan n fun k =>
      if (s.clock t).net.can[n].retryLimit.toNat ≤ x.attempts then { k with tx := k.tx.eraseIdx i, counters := upd k.counters 4 sat32 }
      else { k with tx := updL k.tx i fun x => { x with attempts := x.attempts + 1 } }) := by
  rw [← at?_can] at head sends pending
  refine (runPowered_next _ on).trans (congrArg Host.Outcome.next ?_)
  dsimp only
  rw [head]
  refine (if_neg ?_).trans ((if_pos rfl).trans (State.setCan_congr ?_))
  · simp [at?_can_active enabled joined, sends]
  · rw [pending, ← at?_can]
    simp only [Option.map_some, Option.getD_some, Nat.add_le_add_iff_right, decide_eq_true_eq]
    split <;> rfl

/-- What a transmit error leaves of a controller before its counts are judged. -/
def CanController.failed (k : CanController) (i : Nat) (e : BitVec 4) (d : Bool) : CanController :=
  let gone := decide (k.retryLimit.toNat + 1 ≤ ((k.tx[i]?).map (·.attempts)).getD 0 + 1)
  { k with tx := if gone then k.tx.eraseIdx i else updL k.tx i fun x => { x with attempts := x.attempts + 1 },
           counters := if gone then upd k.counters 4 sat32 else k.counters,
           lastError := e, dataPhase := d, tec := min 256 (k.tec + 8) }

theorem execCanTxAttemptFailed_error {i : Nat} {e : BitVec 4} (d : Bool) (head : (s.clock t).net.can[n].head = some i)
    (sends : (s.clock t).net.can[n].listenOnly = false) (error : e ≠ 0) (grows : e ≠ 3) (named : e.toNat ≤ 6) :
    execCanTxAttemptFailed t n e d s = .next (((s.clock t).setCan n fun k => k.failed i e d).confine n) := by
  rw [← at?_can] at head sends
  refine (runPowered_next _ on).trans (congrArg Host.Outcome.next ?_)
  dsimp only
  rw [head]
  refine (if_neg ?_).trans ((if_neg ?_).trans (congrArg (fun u => State.confine u n) ?_))
  · simpa [at?_can_active enabled joined, sends] using named
  · simpa using error
  · rw [State.setCan_setCan]
    refine State.setCan_congr ?_
    rw [at?_can, show (e == 3) = false by simpa using grows]
    rfl

end

/-! ## A controller leaves the bus (R542) -/

theorem State.canReport_quiet {s : State} {source : Nat} (n : Nat) (entry : Bool) (off : (s.route source).fault = false) :
    FrameBut quietParts s (s.canReport n source entry) := State.raise_quiet _ _ _ _ _ _ _ off

/-- An error-passive controller that leaves the bus is reported as active first. -/
def State.leavePassive (s : State) (n : Nat) : State :=
  if (at? s.net.can n).passive then (s.setCan n fun k => { k with passive := false }).canReport n 98 false else s

/-- What leaving the bus makes of a controller. -/
def CanController.leave (k : CanController) (now lost : Nat) : CanController :=
  { k with busOff := true, recovering := k.autoRecover, recoverAt := now, tx := [],
           counters := upd (upd k.counters 4 fun v => satAdd 0xFFFFFFFF v lost) 5 sat32 }

theorem getElem_can_other (v : Vector CanController 4) {n m : Fin 4} (f : CanController → CanController) (other : m ≠ n) :
    (upd v n f)[m] = v[m] :=
  (getElem_upd _ _ _ _ m.isLt).trans (if_neg fun same => other (Fin.ext same.symm))

theorem getElem_can_self (v : Vector CanController 4) (n : Fin 4) (f : CanController → CanController) : (upd v n f)[n] = f v[n] :=
  (getElem_upd _ _ _ _ n.isLt).trans (if_pos rfl)

section
variable {s : State} {n : Fin 4}

theorem State.confine_eq (joined : s.net.can[n].busOff = false) (tec : 255 < s.net.can[n].tec) :
    s.confine n = ((s.leavePassive n).setCan n fun k => k.leave (s.leavePassive n).now s.net.can[n].tx.length).canReport n 99 true := by
  rw [← at?_can] at *
  exact (if_neg (by simp [joined])).trans (if_pos tec)

section
variable (quiet : (s.route 98).fault = false)
include quiet

theorem State.leavePassive_frame : FrameBut ([.net] ++ quietParts) s (s.leavePassive n) :=
  .ite ((State.setCan_frame s n _).append (State.canReport_quiet (s := s.setCan n fun k => { k with passive := false }) n false quiet))
    (.refl _ _)

theorem State.leavePassive_routes : (s.leavePassive n).events.routes = s.events.routes := by
  unfold State.leavePassive
  split
  · exact State.raise_routes (s := s.setCan n fun k => { k with passive := false }) quiet
  · rfl

theorem State.leavePassive_can : (s.leavePassive n).net.can = upd s.net.can n fun k => { k with passive := false } := by
  unfold State.leavePassive
  split
  · exact congrArg NetState.can (State.canReport_quiet (s := s.setCan n fun k => { k with passive := false }) n false quiet).net
  · next active =>
    rw [at?_can, Bool.not_eq_true] at active
    refine Vector.ext fun i small => ?_
    rw [getElem_upd]
    split
    · next here =>
      subst here
      exact congrArg (fun b => { s.net.can[n] with passive := b }) active
    · rfl

end

/-- A TEC past 255: the controller is off the bus, nothing pends, and the other controllers are as they were. -/
theorem State.confine_leaves (joined : s.net.can[n].busOff = false) (tec : 255 < s.net.can[n].tec)
    (quiet : (s.route 98).fault = false) (reports : (s.route 99).fault = false) :
    ∃ now lost : Nat, now = s.now ∧ (s.confine n).net.can = upd s.net.can n (fun k => { k with passive := false }.leave now lost) ∧
      FrameBut ([.net] ++ quietParts) s (s.confine n) := by
  have leaves := State.leavePassive_frame (n := n) quiet
  have off : ((s.leavePassive n).route 99).fault = false :=
    (congrArg Route.fault (State.route_of_routes (State.leavePassive_routes quiet) 99)).trans reports
  have told := State.canReport_quiet (s := (s.leavePassive n).setCan n fun k => k.leave (s.leavePassive n).now s.net.can[n].tx.length)
    n true off
  have now : (s.leavePassive n).now = s.now := by rw [State.now, State.now, leaves.time]
  refine ⟨(s.leavePassive n).now, s.net.can[n].tx.length, now, ?_, ?_⟩
  · rw [State.confine_eq joined tec, told.net]
    rw [State.setCan_can, State.leavePassive_can quiet, upd_upd]
  · rw [State.confine_eq joined tec]
    exact leaves.trans ((State.setCan_frame _ _ _).append told)

end

/-- Settles O41: each clause is the lemma about its command; what leaving the bus does is `State.confine_leaves`. -/
theorem canControllersConfineFaults : Obligations.CanControllersConfineFaults := by
  unfold Obligations.CanControllersConfineFaults
  intro s t n on c k enabled joined
  refine ⟨fun f format rec_ tec active filtered other => ?refused, fun f format rec_ tec active listens full unlocked => ?overrun,
    fun f format rec_ tec active listens room stopped released runs => ?waits,
    fun i head sends tec rec_ active => execCanFrameTransmitted_goes on enabled joined head sends tec rec_ active,
    fun i x d head pending sends => ?lost,
    fun e d error named rec_ tec active => execCanRxError_counts on enabled joined d error named rec_ tec active,
    fun i e d head sends error grows named tec quiet reports => ?leaves⟩
  case refused =>
    exact (execCanFrameReceived_passes on enabled joined format rec_ tec active).trans
      (congrArg Host.Outcome.next (State.passFrame_refused filtered other))
  case overrun =>
    refine (execCanFrameReceived_passes on enabled joined format rec_ tec active).trans
      (congrArg Host.Outcome.next ((State.passFrame_overrun listens full unlocked).trans ?_))
    rw [State.seeFrame, State.setCan_setCan]
    rfl
  case waits =>
    have frame := c.seeFrame_frame n
    have still : Running (c.seeFrame n) := (congrArg ModeState.phase frame.modes).trans (Running.clock runs t)
    rw [← frame.cycle] at stopped released
    refine (execCanFrameReceived_passes on enabled joined format rec_ tec active).trans
      (congrArg Host.Outcome.next ((State.passFrame_waits listens room stopped released still).trans ?_))
    rw [State.seeFrame, State.setCan_setCan]
    rfl
  case lost =>
    have lost := execCanTxAttemptFailed_lost on enabled joined d head pending sends
    exact ⟨fun again => lost.trans (congrArg Host.Outcome.next (State.setCan_congr (if_neg (Nat.not_le.mpr again)))),
      fun abandoned => lost.trans (congrArg Host.Outcome.next (State.setCan_congr (if_pos abandoned)))⟩
  case leaves =>
    have own : (c.setCan n fun k => k.failed i e d).net.can[n] = k.failed i e d := getElem_can_self _ _ _
    have past : 255 < (c.setCan n fun k => k.failed i e d).net.can[n].tec := by
      rw [own]
      show 255 < min 256 (k.tec + 8)
      omega
    obtain ⟨now, lost, same, can, frame⟩ := State.confine_leaves (s := c.setCan n fun k => k.failed i e d) (n := n)
      ((congrArg CanController.busOff own).trans joined) past quiet reports
    have left : ((c.setCan n fun k => k.failed i e d).confine n).net.can[n] = { k.failed i e d with passive := false }.leave now lost := by
      rw [can, getElem_can_self, own]
    refine ⟨_, execCanTxAttemptFailed_error on enabled joined d head sends error grows named, congrArg CanController.busOff left,
      congrArg CanController.tx left, congrArg CanController.recovering left,
      (congrArg CanController.recoverAt left).trans same, congrArg CanController.lastError left, fun m other => ?_,
      ((State.setCan_frame c n _).mono (by decide)).trans frame⟩
    rw [can, getElem_can_other _ _ other]
    exact getElem_can_other _ _ other

end Sys2Proof.Machine
end

section
/-! The writes of the CAN controllers (spec/15_networks.md, R538 to R540, R542, R543, R545). -/

namespace Sys2Proof.Machine
set_option Elab.async false

/-! ## The bytes of a value -/

theorem sliceAt_between {a b : List Byte} (c : List Byte) {o n : Nat} (before : a.length = o) (len : b.length = n) :
    sliceAt (a ++ (b ++ c)) o n = b := by
  subst before len
  rw [← List.append_assoc]
  exact sliceAt_mid a b c

theorem sliceAt_prefix {a d : List Byte} {o n : Nat} (before : a.length = o) (short : n ≤ d.length) :
    sliceAt (a ++ d) o n = d.take n := by
  subst before
  have whole : n - (d.take n).length = 0 := by rw [List.length_take]; omega
  rw [sliceAt, List.drop_left, whole]
  exact List.append_nil _

theorem beVal_nat32 {n : Nat} (small : n < 2 ^ 32) : beVal (nat32 n) = n := by
  rw [nat32, beVal_be32, BitVec.toNat_ofNat, Nat.mod_eq_of_lt small]

theorem beVal_nat8 {n : Nat} (small : n < 2 ^ 8) : beVal (nat8 n) = n := by
  rw [nat8, beVal_be8, BitVec.toNat_ofNat, Nat.mod_eq_of_lt small]

/-! ## CAN_RECOVERY_DONE (R542) -/

theorem execCanRecoveryDone_joins {s : State} {t : Nat} {n : Fin 4} (on : Powered s) (enabled : (s.clock t).net.can[n].en = true)
    (left : (s.clock t).net.can[n].busOff = true) (recovers : (s.clock t).net.can[n].recovering = true)
    (late : (s.clock t).net.can[n].recoverAt + 1408 * (s.clock t).net.can[n].nbt.bitTime ≤ (s.clock t).now) :
    execCanRecoveryDone t n s = .next (((s.clock t).setCan n fun k =>
      { k with busOff := false, recovering := false, tec := 0, recCount := 0 }).canReport n 99 false) := by
  rw [← at?_can] at *
  exact (runPowered_next _ on).trans (congrArg Host.Outcome.next (if_neg (by simpa [enabled, left, recovers] using late)))

/-! ## CAN_RECOVER (R545) -/

/-- The fields of CAN_CONTROL, with RECOVER 1, are read back. -/
theorem controlWord_fields : ∀ (r : Fin 8) (auto fd brs listen en : Bool),
    let w := r.val * 32 + flagBit auto 4 + flagBit fd 3 + flagBit brs 2 + flagBit listen 1 + flagBit en 0 + 256
    w < 512 ∧ bitsOf w 5 3 = r.val ∧ bitOf w 4 = auto ∧ bitOf w 3 = fd ∧ bitOf w 2 = brs ∧ bitOf w 1 = listen ∧ bitOf w 0 = en ∧
      bitOf w 8 = true ∧ w % 256 = w - 256 := by
  decide

theorem CanController.recover_fields (k : CanController) :
    let w := k.word + 256
    w < 512 ∧ BitVec.ofNat 3 (bitsOf w 5 3) = k.retryLimit ∧ bitOf w 4 = k.autoRecover ∧ bitOf w 3 = k.fdEn ∧ bitOf w 2 = k.brsEn ∧
      bitOf w 1 = k.listenOnly ∧ bitOf w 0 = k.en ∧ bitOf w 8 = true ∧ w % 256 = k.word := by
  obtain ⟨small, retry, auto, fd, brs, listen, en, recover, low⟩ := controlWord_fields k.retryLimit.toFin k.autoRecover k.fdEn k.brsEn
    k.listenOnly k.en
  exact ⟨small, (congrArg (BitVec.ofNat 3) retry).trans (by simp), auto, fd, brs, listen, en, recover, low.trans (Nat.add_sub_cancel _ _)⟩

theorem State.canControl_recover {s : State} {c : WriteCtx} {n : Fin 4} (enabled : s.net.can[n].en = true)
    (fd : s.net.can[n].fdEn = true) :
    s.canControl c n (nat32 (s.net.can[n].word + 256)) = done (s.setCan n fun k =>
      { k with recovering := k.recovering || k.busOff, recoverAt := if k.busOff && !k.recovering then s.now else k.recoverAt }) := by
  obtain ⟨small, retry, auto, fdBit, brs, listen, en, recover, low⟩ := s.net.can[n].recover_fields
  have value : beVal (nat32 (s.net.can[n].word + 256)) = s.net.can[n].word + 256 := beVal_nat32 (by omega)
  refine (if_neg ?_).trans ((if_pos ?_).trans (congrArg done (State.setCan_congr ?_)))
  · rw [value, at?_can, low]
    simp
  · rw [value, en, fdBit, enabled, fd]
    simpa using small
  · rw [value, at?_can, retry, auto, fdBit, brs, listen, en, recover]
    cases off : s.net.can[n].busOff <;> cases recovers : s.net.can[n].recovering <;> simp [← recovers]

theorem execCanRecover_writes {s : State} {t : Nat} {req : Request} {n : Fin 4} {op : Nat} {body : List Byte}
    (ready : Ready s t req op body) : execCanRecover t req n s =
      runHost t s (fun u => u.hostWrite req (objId 0x0A (0x20 + n) 0) (nat32 (s.net.can[n].word + 256)) fun c u =>
        u.canControl c n (nat32 (s.net.can[n].word + 256))) := by
  have kept : at? (s.clock t).net.can n = s.net.can[n] := by rw [at?_can, (s.clock_frame t).net]
  rw [execCanRecover, runHost_next _ ready.running ready.started, runHost_next _ ready.running ready.started, kept]

/-! ## CAN_TX (R543) -/

/-- The value of CAN_TX for an ISO CAN FD frame. -/
def canTxValue (id : BitVec 29) (ext brs : Bool) (len : Nat) (data : List Byte) : List Byte :=
  nat32 (id.toNat + if ext then 2 ^ 31 else 0) ++ nat8 (if brs then 3 else 1) ++ nat8 len ++ zeros 2 ++ data

theorem identifier_fields (id : BitVec 29) (ext : Bool) :
    let w := id.toNat + if ext then 2 ^ 31 else 0
    w < 2 ^ 32 ∧ bitOf w 31 = ext ∧ bitsOf w 29 2 = 0 ∧ bitsOf w 0 29 = id.toNat ∧ BitVec.ofNat 29 w = id := by
  have small : id.toNat < 2 ^ 29 := id.isLt
  cases ext with
  | false =>
    refine ⟨by simp; omega, ?_, ?_, ?_, ?_⟩
    · simp [bitOf, Nat.testBit_eq_decide_div_mod_eq]; omega
    · simp [bitsOf, Nat.shiftRight_eq_div_pow]; omega
    · simp [bitsOf]; omega
    · simp
  | true =>
    refine ⟨by simp; omega, ?_, ?_, ?_, ?_⟩
    · simp [bitOf, Nat.testBit_eq_decide_div_mod_eq]; omega
    · simp [bitsOf, Nat.shiftRight_eq_div_pow]; omega
    · simp [bitsOf]; omega
    · refine BitVec.eq_of_toNat_eq ?_
      rw [BitVec.toNat_ofNat]
      simp
      omega

section
variable {id : BitVec 29} {ext brs : Bool} {len : Nat} {data : List Byte}

theorem canTxValue_id : fieldAt (canTxValue id ext brs len data) 0 4 = id.toNat + if ext then 2 ^ 31 else 0 := by
  have slice := sliceAt_between (a := []) (b := nat32 (id.toNat + if ext then 2 ^ 31 else 0))
    (nat8 (if brs then 3 else 1) ++ nat8 len ++ zeros 2 ++ data) (o := 0) rfl (n := 4) rfl
  rw [fieldAt, canTxValue]
  simp only [List.nil_append, List.append_assoc] at slice ⊢
  rw [slice, beVal_nat32 (identifier_fields id ext).1]

theorem canTxValue_flags : fieldAt (canTxValue id ext brs len data) 4 1 = if brs then 3 else 1 := by
  have slice := sliceAt_between (a := nat32 (id.toNat + if ext then 2 ^ 31 else 0)) (b := nat8 (if brs then 3 else 1))
    (nat8 len ++ zeros 2 ++ data) (o := 4) rfl (n := 1) rfl
  rw [fieldAt, canTxValue]
  simp only [List.append_assoc] at slice ⊢
  rw [slice]
  cases brs <;> rfl

theorem canTxValue_len (small : len ≤ 64) : fieldAt (canTxValue id ext brs len data) 5 1 = len := by
  have slice := sliceAt_between (a := nat32 (id.toNat + if ext then 2 ^ 31 else 0) ++ nat8 (if brs then 3 else 1)) (b := nat8 len)
    (zeros 2 ++ data) (o := 5) rfl (n := 1) rfl
  rw [fieldAt, canTxValue]
  simp only [List.append_assoc] at slice ⊢
  rw [slice, beVal_nat8 (by omega)]

theorem canTxValue_reserved : zeroAt (canTxValue id ext brs len data) 6 2 = true := by
  have slice := sliceAt_between (a := nat32 (id.toNat + if ext then 2 ^ 31 else 0) ++ nat8 (if brs then 3 else 1) ++ nat8 len)
    (b := zeros 2) data (o := 6) rfl (n := 2) rfl
  rw [zeroAt, canTxValue]
  simp only [List.append_assoc] at slice ⊢
  rw [slice]
  rfl

theorem canTxValue_data (short : len ≤ data.length) : sliceAt (canTxValue id ext brs len data) 8 len = data.take len :=
  sliceAt_prefix rfl short

theorem canTxValue_length (whole : data.length = 64) : (canTxValue id ext brs len data).length = 72 := by
  simp [canTxValue, nat8, be8, zeros, whole]

theorem canLengths_le (valid : canLengths.contains len = true) : len ≤ 64 := by
  have all : ∀ n ∈ canLengths, n ≤ 64 := by decide
  exact all len (by simpa using valid)

/-- A frame that is named within its format finds a free buffer. -/
theorem State.canTx_queues {s : State} {n : Fin 4} (whole : data.length = 64) (valid : canLengths.contains len = true)
    (named : ext = true ∨ id.toNat ≤ 0x7FF) (room : s.net.can[n].tx.length < 16) :
    s.canTx n (canTxValue id ext brs len data) = done (s.setCan n fun k =>
      { k with tx := k.tx ++ [{ frame := { id := id, extended := ext, fd := true, brs := brs && k.brsEn, data := data.take len } }] }) := by
  have short := canLengths_le valid
  obtain ⟨-, extended, high, low, same⟩ := identifier_fields id ext
  have flags : bitOf (if brs then 3 else 1) 0 = true ∧ bitOf (if brs then 3 else 1) 1 = brs ∧ (if brs then 3 else 1) < 4 := by
    cases brs <;> decide
  obtain ⟨fd, switch, few⟩ := flags
  refine (if_pos ?_).trans ((if_neg ?_).trans (congrArg done (State.setCan_congr ?_)))
  · rw [canTxValue_id, canTxValue_flags, canTxValue_len short, canTxValue_reserved, canTxValue_length whole, extended, high, low, fd, valid]
    simpa [few] using named
  · rw [at?_can]
    omega
  · rw [canTxValue_id, canTxValue_flags, canTxValue_len short, extended, same, fd, switch, canTxValue_data (by omega), at?_can]

end

/-! ## CAN_NBT (R538, R540) -/

theorem State.canTiming_nominal {s : State} {c : WriteCtx} {n : Fin 4} {v : Word} (host : c.load = false)
    (idle : s.modes.mode.positioning = false) (off : s.net.can[n].en = false) (reserved : v.getLsbD 0 = false)
    (ok : timingOk (nbtOf v.toNat) s.net.can[n].dbt = true) :
    s.canTiming c n false (be32 v) = done (s.setCan n fun k => { k with nbt := nbtOf v.toNat }) := by
  rw [← at?_can] at off ok
  refine (if_neg ?_).trans ((if_neg ?_).trans ((if_pos ?_).trans (congrArg done (State.setCan_congr ?_))))
  · simp [WriteCtx.mode, host, idle]
  · simp [off]
  · rw [beVal_be32]
    simp [ok, show bitOf v.toNat 0 = false from reserved]
  · rw [at?_can, beVal_be32]
    rfl

/-- Settles O42: each write is the lemma about its object. -/
theorem canObjectsTakeWrites : Obligations.CanObjectsTakeWrites := by
  unfold Obligations.CanObjectsTakeWrites
  intro s t n
  refine ⟨fun on enabled left recovers late => execCanRecoveryDone_joins on enabled left recovers late,
    fun req enabled fd => ?recover, fun req id ext brs len data whole valid named room => ?send,
    fun req v ready idle off reserved ok => ?timing⟩
  case recover =>
    intro v ready
    have net := (State.atWrite_frame ready).net
    rw [← net] at enabled fd
    have recovers := State.canControl_recover (c := s.hostCtx req) enabled fd
    rw [net] at recovers
    exact (execCanRecover_writes ready).trans (hostWrite_done (act := fun c s => s.canControl c n v) ready recovers)
  case send =>
    intro v ready
    rw [← (State.atWrite_frame ready).net] at room
    exact hostWrite_done (act := fun _ s => s.canTx n v) ready (State.canTx_queues whole valid named room)
  case timing =>
    have frame := State.atWrite_frame ready
    rw [← frame.net] at off ok
    rw [← frame.modes] at idle
    exact hostWrite_done (act := fun c s => s.canTiming c n false (be32 v)) ready (State.canTiming_nominal rfl idle off reserved ok)

end Sys2Proof.Machine
end

section
/-! Frames that arrive (spec/16_command_protocol.md, R559, R561 to R564, R566, R571). -/

namespace Sys2Proof.Machine
set_option Elab.async false

theorem beVal_lt (b : List Byte) : beVal b < 256 ^ b.length := by
  induction b using List.reverseRecOn with
  | nil => simp
  | append_singleton b x ih =>
    have byte : beVal [x] < 256 := by simpa [beVal] using x.isLt
    rw [beVal_append, List.length_append, List.length_singleton, pow_one, pow_succ]
    omega

theorem sliceAt_length (b : List Byte) (o n : Nat) : (sliceAt b o n).length = n := by
  simp [sliceAt, zeros]

theorem fieldAt_lt (b : List Byte) (o n : Nat) : fieldAt b o n < 256 ^ n := by
  have bound := beVal_lt (sliceAt b o n)
  rwa [sliceAt_length] at bound

/-! ## Step 1 (R562) -/

/-- The length, MAGIC, LENGTH and CRC-32C of a frame are right. -/
def FrameWhole (frame : List Byte) : Prop :=
  20 ≤ frame.length ∧ fieldAt frame 0 2 = 0x5158 ∧ fieldAt frame 12 4 = frame.length - 20 ∧
    (crc32c (frame.take (frame.length - 4))).toNat = fieldAt frame (frame.length - 4) 4

theorem frameIntact_iff (frame : List Byte) : frameIntact frame = true ↔ FrameWhole frame := by
  simp only [frameIntact, FrameWhole, Bool.and_eq_true, decide_eq_true_eq, beq_iff_eq, and_assoc]

/-- The request of a frame carries its SEQUENCE and its CRC. -/
def framedRequest (req : Request) (frame : List Byte) : Request :=
  { req with seq := BitVec.ofNat 32 (fieldAt frame 4 4), crc := BitVec.ofNat 32 (fieldAt frame (frame.length - 4) 4) }

theorem State.admitQcp_bad {s : State} {req : Request} {frame : List Byte} (bad : ¬ FrameWhole frame) :
    s.admitQcp req frame = { s with qcp.counters := upd s.qcp.counters 0 sat32 } := by
  rw [← frameIntact_iff] at bad
  exact if_pos (by simpa using bad)

theorem State.admitQcp_whole {s : State} {req : Request} {frame : List Byte} (whole : FrameWhole frame) :
    s.admitQcp req frame = s.takeFrame (framedRequest req frame) frame := by
  rw [← frameIntact_iff] at whole
  exact if_neg (by simp [whole])

/-! ## Replays and duplicates (R564) -/

/-- Is a cached response that of a request? -/
def State.replays (s : State) (req : Request) (e : CacheEntry) : Bool :=
  s.cacheLive e && e.resp.req.src == req.src && e.resp.req.port == req.port && e.resp.req.seq == req.seq && e.resp.req.crc == req.crc

/-- Two requests are the same command, sent again. -/
def sameCommand (x r : Request) : Prop := x.src = r.src ∧ x.port = r.port ∧ x.seq = r.seq ∧ x.crc = r.crc

theorem State.replays_iff (s : State) (req : Request) (e : CacheEntry) :
    s.replays req e = true ↔ s.now ≤ e.at_ + 2 * second ∧ sameCommand e.resp.req req := by
  simp only [State.replays, State.cacheLive, sameCommand, Bool.and_eq_true, decide_eq_true_eq, beq_iff_eq, and_assoc]

theorem State.isDeferred_iff (s : State) (req : Request) : s.isDeferred req = true ↔
    ∃ x ∈ s.qcp.deferredCommit.toList ++ s.qcp.deferredAttest.toList ++ s.qcp.abortSlot.toList ++ s.qcp.queue, sameCommand x.req req := by
  simp only [State.isDeferred, Bool.or_eq_true, Option.any_eq_true, List.any_eq_true, List.mem_append, Option.mem_toList, or_and_right,
    exists_or, sameCommand, Bool.and_eq_true, beq_iff_eq, and_assoc]

/-- What follows where a frame is neither known nor waits. -/
def State.checkFrame (s : State) (req : Request) (b : List Byte) : State :=
  let op := fieldAt b 8 2
  let body := sliceAt b 16 (b.length - 20)
  if fieldAt b 2 1 / 16 ≠ 3 then s.respond req op .version (nat8 s.qcpInUse)
  else if fieldAt b 3 1 ≠ 0 ∨ fieldAt b 11 1 ≠ 0 then s.respond req op .badValue []
  else if 0x80 ≤ op ∧ op ≤ 0x85 then { s with qcp.counters := upd s.qcp.counters 0 sat32 }
  else if portTakes op req.modPort = true ∧ bodyFits op body = some true ∧ reservedZero op body = true ∧ body.length ≤ bodyLimit req then
    s.queueCommand { req := req, opcode := BitVec.ofNat 16 op, body := body, at_ := s.tb3 }
  else s.respond req op .badValue []

section
variable {s : State} {req : Request} {b : List Byte}

theorem State.takeFrame_known {e : CacheEntry} (hit : s.qcp.cache.find? (s.replays req) = some e) : s.takeFrame req b =
    { s with qcp.responses := (if s.qcp.respondedAt < s.now then [] else s.qcp.responses) ++ [{ e.resp with req := req, replay := true }],
             qcp.respondedAt := s.now, qcp.counters := upd s.qcp.counters 4 sat32 } := by
  have found : s.qcp.cache.find? (fun e => s.cacheLive e && e.resp.req.src == req.src && e.resp.req.port == req.port &&
    e.resp.req.seq == req.seq && e.resp.req.crc == req.crc) = some e := hit
  rw [State.takeFrame, found]

section
variable (new : s.qcp.cache.find? (s.replays req) = none)
include new

theorem State.takeFrame_waits (waits : s.isDeferred req = true) :
    s.takeFrame req b = { s with qcp.counters := upd s.qcp.counters 5 sat32 } := by
  have found : s.qcp.cache.find? (fun e => s.cacheLive e && e.resp.req.src == req.src && e.resp.req.port == req.port &&
    e.resp.req.seq == req.seq && e.resp.req.crc == req.crc) = none := new
  rw [State.takeFrame, found]
  exact if_pos waits

theorem State.takeFrame_checked (free : s.isDeferred req = false) : s.takeFrame req b = s.checkFrame req b := by
  have found : s.qcp.cache.find? (fun e => s.cacheLive e && e.resp.req.src == req.src && e.resp.req.port == req.port &&
    e.resp.req.seq == req.seq && e.resp.req.crc == req.crc) = none := new
  rw [State.takeFrame, found]
  refine (if_neg (by simp [free])).trans (if_congr Iff.rfl rfl (if_congr Iff.rfl rfl (if_congr Iff.rfl rfl ?_)))
  dsimp only
  cases taken : portTakes (fieldAt b 8 2) req.modPort with
  | false => simp
  | true =>
    cases fits : bodyFits (fieldAt b 8 2) (sliceAt b 16 (b.length - 20)) with
    | none => simp
    | some ok => cases ok <;> simp

end

/-! ## Steps 3 to 6 (R562) -/

theorem State.checkFrame_version (other : fieldAt b 2 1 / 16 ≠ 3) :
    s.checkFrame req b = s.respond req (fieldAt b 8 2) .version (nat8 s.qcpInUse) := if_pos other

section
variable (version : fieldAt b 2 1 / 16 = 3) (named : fieldAt b 8 2 < 0x80 ∨ 0x85 < fieldAt b 8 2)
include version named

theorem State.checkFrame_refused (bad : fieldAt b 3 1 ≠ 0 ∨ fieldAt b 11 1 ≠ 0 ∨ portTakes (fieldAt b 8 2) req.modPort = false ∨
    bodyFits (fieldAt b 8 2) (sliceAt b 16 (b.length - 20)) ≠ some true ∨
    reservedZero (fieldAt b 8 2) (sliceAt b 16 (b.length - 20)) = false ∨ bodyLimit req < (sliceAt b 16 (b.length - 20)).length) :
    s.checkFrame req b = s.respond req (fieldAt b 8 2) .badValue [] := by
  rw [State.checkFrame, if_neg (not_not.mpr version)]
  by_cases flags : fieldAt b 3 1 ≠ 0 ∨ fieldAt b 11 1 ≠ 0
  · exact if_pos flags
  · refine (if_neg flags).trans ((if_neg (by omega)).trans (if_neg ?_))
    rintro ⟨port, fits, reserved, limit⟩
    rcases bad with bad | bad | bad | bad | bad | bad
    · exact flags (.inl bad)
    · exact flags (.inr bad)
    · exact Bool.false_ne_true (bad.symm.trans port)
    · exact bad fits
    · exact Bool.false_ne_true (bad.symm.trans reserved)
    · omega

theorem State.checkFrame_queued (flags : fieldAt b 3 1 = 0) (reserved : fieldAt b 11 1 = 0)
    (port : portTakes (fieldAt b 8 2) req.modPort = true)
    (fits : bodyFits (fieldAt b 8 2) (sliceAt b 16 (b.length - 20)) = some true)
    (zero : reservedZero (fieldAt b 8 2) (sliceAt b 16 (b.length - 20)) = true)
    (limit : (sliceAt b 16 (b.length - 20)).length ≤ bodyLimit req) :
    s.checkFrame req b = s.queueCommand
      { req := req, opcode := BitVec.ofNat 16 (fieldAt b 8 2), body := sliceAt b 16 (b.length - 20), at_ := s.tb3 } := by
  rw [State.checkFrame, if_neg (not_not.mpr version), if_neg (by simp [flags, reserved])]
  exact (if_neg (by omega)).trans (if_pos ⟨port, fits, zero, limit⟩)

end

/-! ## The queue (R563, R566, R571) -/

theorem opcode_toNat (b : List Byte) : (BitVec.ofNat 16 (fieldAt b 8 2)).toNat = fieldAt b 8 2 := by
  have small := fieldAt_lt b 8 2
  rw [BitVec.toNat_ofNat, Nat.mod_eq_of_lt (by omega)]

section
variable {c : Command} (on : Running s)
include on

section
variable (other : c.opcode.toNat ≠ 0x12)
include other

theorem State.queueCommand_joins (room : s.qcp.queue.length < 32) :
    s.queueCommand c = { s with qcp.queue := s.qcp.queue ++ [c], qcp.busyRun := false } := by
  have runs : (!s.running) ≠ true := by simpa [State.running] using on
  exact (if_neg runs).trans ((if_neg other).trans (if_neg (by omega)))

theorem State.queueCommand_busy (full : 32 ≤ s.qcp.queue.length) : s.queueCommand c = s.ownBusy c.req c.opcode.toNat := by
  have runs : (!s.running) ≠ true := by simpa [State.running] using on
  exact (if_neg runs).trans ((if_neg other).trans (if_pos full))

end

section
variable (abort : c.opcode.toNat = 0x12)
include abort

theorem State.queueCommand_abort (free : s.qcp.abortSlot = none) :
    s.queueCommand c = { s with qcp.abortSlot := some c, qcp.busyRun := false } := by
  have runs : (!s.running) ≠ true := by simpa [State.running] using on
  exact (if_neg runs).trans ((if_pos abort).trans (if_neg (by simp [free])))

theorem State.queueCommand_secondAbort (held : s.qcp.abortSlot.isSome = true) :
    s.queueCommand c = s.respond c.req c.opcode.toNat .busy [] := by
  have runs : (!s.running) ≠ true := by simpa [State.running] using on
  exact (if_neg runs).trans ((if_pos abort).trans (if_pos held))

end

end

end

/-! ## Ports, security modes and associations (R556, R586, R587) -/

section
variable {s : State} {t : Nat} {req : Request} (frame : List Byte) (on : Running s) (started : s.modes.report.tb0At ≤ t)
include on started

theorem execQcpFrameReceived_off (off : (at? (s.clock t).net.ports (req.ingress.toNat - 0x10)).en = false) :
    execQcpFrameReceived t req frame s = .next (s.clock t) :=
  (runHost_next _ on started).trans (congrArg Host.Outcome.next (if_pos (by simp [off])))

section
variable (enabled : (at? (s.clock t).net.ports (req.ingress.toNat - 0x10)).en = true)
include enabled

theorem execQcpFrameReceived_telemetry (port : req.modPort = 47001) : execQcpFrameReceived t req frame s =
    .next { s.clock t with qcp.counters := upd (s.clock t).qcp.counters 9 sat32 } :=
  (runHost_next _ on started).trans (congrArg Host.Outcome.next ((if_neg (by simp [enabled])).trans (if_pos port)))

section
variable (port : req.modPort = 47000 ∨ req.modPort = 47002)
include port

/-- What a frame of a host port meets: a plain frame falls at a port that takes records alone, a record at one that takes none, and one
of no association fails. -/
theorem execQcpFrameReceived_host :
    let c := s.clock t
    let security := c.portSecurity req.ingress
    (req.dtls = none → execQcpFrameReceived t req frame s = .next (
      if frameIntact frame && security == 2 then { c with qcp.counters := upd c.qcp.counters 1 sat32 } else c.admitQcp req frame)) ∧
    (∀ id : Nat, req.dtls = some id → execQcpFrameReceived t req frame s = .next (
      if security = 0 then { c with qcp.counters := upd c.qcp.counters 1 sat32 }
      else if c.qcp.associations.any fun a => a.id == id && a.src == req.src && a.port == req.port then
        State.admitQcp { c with
          qcp.associations := c.qcp.associations.map fun a => if a.id = id then { a with lastUsed := c.now } else a,
          qcp.dtlsFailRun := false } req frame
      else c.dtlsFailed req.ingress)) := by
  have other : req.modPort ≠ 47001 := by
    rcases port with p | p <;> simp [p]
  have admits {off telemetry foreign rest : State} :
      (if !(at? (s.clock t).net.ports (req.ingress.toNat - 0x10)).en then off
        else if req.modPort = 47001 then telemetry else if req.modPort ≠ 47000 ∧ req.modPort ≠ 47002 then foreign else rest) = rest :=
    (if_neg (by simp [enabled])).trans ((if_neg other).trans (if_neg (by tauto)))
  refine ⟨fun plain => ?_, fun id record => ?_⟩
  · refine (runHost_next _ on started).trans (congrArg Host.Outcome.next (admits.trans ?_))
    rw [plain]
  · refine (runHost_next _ on started).trans (congrArg Host.Outcome.next (admits.trans ?_))
    rw [record]

end

end

end

theorem State.portSecurity_clock (s : State) (t : Nat) (ingress : BitVec 8) :
    (s.clock t).portSecurity ingress = s.portSecurity ingress := by
  rw [State.portSecurity, State.portSecurity, (s.clock_frame t).qcp]

/-- Settles O44: the gates are `execQcpFrameReceived_host`; the checks of a plain frame are the lemmas about `State.takeFrame`,
`State.checkFrame` and `State.queueCommand`. -/
theorem arrivingFramesAreChecked : Obligations.ArrivingFramesAreChecked := by
  unfold Obligations.ArrivingFramesAreChecked
  intro s t req frame on started c n op body whole r same known hostPort waits
  have kept : c.qcp = s.qcp := (s.clock_frame t).qcp
  have security := s.portSecurity_clock t req.ingress
  have ports : c.net = s.net := (s.clock_frame t).net
  rw [← ports, ← security, ← kept]
  refine ⟨fun off => execQcpFrameReceived_off frame on started off, fun enabled =>
    ⟨fun port => execQcpFrameReceived_telemetry frame on started enabled port, fun port bad plain => ?bad,
    fun port sound plain records => ?recordsOnly, fun id port record => ?record, fun port sound plain open_ named => ?plain⟩⟩
  case bad =>
    refine ((execQcpFrameReceived_host frame on started enabled port).1 plain).trans
      (congrArg Host.Outcome.next ((if_neg ?_).trans (State.admitQcp_bad bad)))
    simp only [Bool.and_eq_true, frameIntact_iff]
    exact fun intact => bad intact.1
  case recordsOnly =>
    have intact : frameIntact frame = true := (frameIntact_iff frame).mpr sound
    exact ((execQcpFrameReceived_host frame on started enabled port).1 plain).trans
      (congrArg Host.Outcome.next (if_pos (by rw [intact, records]; rfl)))
  case record =>
    have host := (execQcpFrameReceived_host frame on started enabled port).2 id record
    refine ⟨fun none_ => host.trans (congrArg Host.Outcome.next (if_pos none_)),
      fun some_ unknown => host.trans (congrArg Host.Outcome.next ((if_neg some_).trans (if_neg ?_))),
      fun a held some_ id' src port' bad => host.trans (congrArg Host.Outcome.next
        ((if_neg some_).trans ((if_pos ?_).trans (State.admitQcp_bad bad))))⟩
    · simpa [and_assoc] using unknown
    · exact List.any_eq_true.mpr ⟨a, held, by simp [id', src, port']⟩
  case plain =>
    have taken : execQcpFrameReceived t req frame s = .next (c.takeFrame r frame) := by
      refine ((execQcpFrameReceived_host frame on started enabled port).1 plain).trans
        (congrArg Host.Outcome.next ((if_neg ?_).trans (State.admitQcp_whole sound)))
      simpa using fun _ => open_
    have new (fresh : ¬ known) : c.qcp.cache.find? (c.replays r) = none :=
      List.find?_eq_none.mpr fun e cached hit => fresh ⟨e, kept ▸ cached, (c.replays_iff r e).mp hit⟩
    refine ⟨fun hit => ?replay, fun fresh stays => ?waits, fun fresh free => ?checked⟩
    case replay =>
      obtain ⟨e, cached, live, again⟩ := hit
      rw [← kept] at cached
      have some_ : (c.qcp.cache.find? (c.replays r)).isSome = true :=
        List.find?_isSome.mpr ⟨e, cached, (c.replays_iff r e).mpr ⟨live, again⟩⟩
      obtain ⟨x, found⟩ := Option.isSome_iff_exists.mp some_
      refine ⟨_, x, taken.trans (congrArg Host.Outcome.next (State.takeFrame_known found)), List.mem_of_find?_eq_some found,
        ((c.replays_iff r x).mp (List.find?_some found)).2, List.getLast?_concat, rfl, rfl, frame_set_qcp _ _⟩
    case waits =>
      refine taken.trans (congrArg Host.Outcome.next (State.takeFrame_waits (new fresh) ((c.isDeferred_iff r).mpr ?_)))
      rw [kept]
      exact stays
    case checked =>
      have notHeld : c.isDeferred r = false := by
        rw [Bool.eq_false_iff]
        intro held
        have some_ := (c.isDeferred_iff r).mp held
        rw [kept] at some_
        exact free some_
      have checked := taken.trans (congrArg Host.Outcome.next (State.takeFrame_checked (new fresh) notHeld))
      have running : Running c := Running.clock on t
      refine ⟨fun other => checked.trans (congrArg Host.Outcome.next (State.checkFrame_version other)),
        fun version bad => checked.trans (congrArg Host.Outcome.next (State.checkFrame_refused version named bad)),
        fun version flags reserved port' fits zero limit other => ?_, fun version flags reserved port' len abort => ?_⟩
      · have queued := checked.trans (congrArg Host.Outcome.next
          (State.checkFrame_queued version named flags reserved port' fits zero limit))
        have code : (BitVec.ofNat 16 op).toNat ≠ 0x12 := by rw [opcode_toNat]; exact other
        refine ⟨fun room => queued.trans (congrArg Host.Outcome.next (State.queueCommand_joins running code room)),
          fun full => queued.trans (congrArg Host.Outcome.next ((State.queueCommand_busy running code full).trans ?_))⟩
        rw [opcode_toNat]
      · have named12 : fieldAt frame 8 2 = 0x12 := abort
        have limit : (sliceAt frame 16 (frame.length - 20)).length ≤ bodyLimit r := by
          rw [show _ = 4 from len, bodyLimit]
          split <;> decide
        have queued := checked.trans (congrArg Host.Outcome.next (State.checkFrame_queued version named flags reserved
          (by rw [named12, show r.modPort = 47000 from port']; rfl)
          (by rw [named12, bodyFits, show (sliceAt frame 16 (frame.length - 20)).length = 4 from len]; rfl)
          (by rw [named12]; rfl) limit))
        rw [named12] at queued
        refine ⟨fun free => queued.trans (congrArg Host.Outcome.next (State.queueCommand_abort running rfl free)),
          fun held => queued.trans (congrArg Host.Outcome.next (State.queueCommand_secondAbort running rfl held))⟩

end Sys2Proof.Machine
end

section
/-! Subscriptions, telemetry, associations and settings (spec/16_command_protocol.md, R576, R583, R586 to R588). -/

namespace Sys2Proof.Machine
set_option Elab.async false

/-! ## SUBSCRIBE and UNSUBSCRIBE (R576) -/

section
variable {s : State} {req : Request} {stream : BitVec 8} {port lease divider : BitVec 16} {select : List Byte}

/-- A subscription's key: its source, its DEST_PORT and its stream. -/
def subscriptionKey (req : Request) (stream : BitVec 8) (port : BitVec 16) (x : Subscription) : Bool :=
  x.src == req.src && x.port.toNat == port.toNat && x.stream.toNat == stream.toNat

/-- The subscription of a key that holds a handle. -/
def State.subscription (s : State) (req : Request) (stream : BitVec 8) (port lease divider : BitVec 16) (select : List Byte) (h : Nat) :
    Subscription :=
  { handle := h, stream := stream, dtls := req.dtls, ingress := req.ingress, src := req.src, port := port,
    expires := s.tb3 + lease.toNat * second, divider := divider.toNat, select := select }

/-- The first handle that no subscription holds. -/
def State.freeHandle (s : State) : Option Nat := (List.range 16).find? fun h => !s.qcp.subs.any (·.handle == h)

theorem State.freeHandle_eq_none : s.freeHandle = none ↔ ∀ h < 16, ∃ x ∈ s.qcp.subs, x.handle = h := by
  simp [State.freeHandle, List.find?_eq_none]

theorem State.freeHandle_some (room : s.qcp.subs.length < 16) : ∃ h < 16, (∀ x ∈ s.qcp.subs, x.handle ≠ h) ∧ s.freeHandle = some h := by
  cases found : s.freeHandle with
  | some h =>
    have free := List.find?_some found
    have small := List.mem_of_find?_eq_some found
    exact ⟨h, List.mem_range.mp small, fun x held same => by simp at free; exact free x held same, rfl⟩
  | none =>
    have all := State.freeHandle_eq_none.mp found
    have covered : List.range 16 ⊆ s.qcp.subs.map (·.handle) := fun h small =>
      List.mem_map.mpr (all h (List.mem_range.mp small))
    have many := (List.subperm_of_subset List.nodup_range covered).length_le
    rw [List.length_range, List.length_map] at many
    omega

section
variable (named : port ≠ 0) (long : 1 ≤ lease.toNat) (short : lease.toNat ≤ 600)
  (divides : stream = 2 ∨ (1 ≤ divider.toNat ∧ divider.toNat ≤ 1000)) (selects : s.selectOk req stream.toNat port.toNat select = true)
include named long short divides selects

theorem State.subscribe_inOrder : (port.toNat != 0 && decide (1 ≤ lease.toNat) && decide (lease.toNat ≤ 600) &&
    (stream.toNat == 2 || (decide (1 ≤ divider.toNat) && decide (divider.toNat ≤ 1000))) &&
    s.selectOk req stream.toNat port.toNat select) = true := by
  have number : port.toNat ≠ 0 := fun zero => named (BitVec.eq_of_toNat_eq zero)
  rcases divides with two | ⟨low, high⟩
  · subst two
    simpa [number, long, short] using selects
  · simp [number, long, short, selects, low, high]

/-- A request in order takes the handle of its key, or a free one. -/
theorem State.subscribe_handle {h : Nat}
    (handle : ((s.qcp.subs.find? (subscriptionKey req stream port)).map (·.handle) <|> s.freeHandle) = some h) :
    State.subscribe req stream.toNat port.toNat lease.toNat divider.toNat select s =
      { state := { s with qcp.subs := s.qcp.subs.filter (fun y => !subscriptionKey req stream port y) ++
          [s.subscription req stream port lease divider select h] },
        body := nat8 h ++ zeros 3 ++ nat64 (s.tb3 + lease.toNat * second) } := by
  refine (if_pos (State.subscribe_inOrder named long short divides selects)).trans ?_
  dsimp only
  rw [show ((s.qcp.subs.find? fun x => x.src == req.src && x.port.toNat == port.toNat && x.stream.toNat == stream.toNat).map (·.handle) <|>
      (List.range 16).find? fun h => !s.qcp.subs.any (·.handle == h)) = some h from handle]
  simp only [State.subscription, BitVec.ofNat_toNat, BitVec.setWidth_eq]
  rfl

theorem State.subscribe_full
    (handle : ((s.qcp.subs.find? (subscriptionKey req stream port)).map (·.handle) <|> s.freeHandle) = none) :
    State.subscribe req stream.toNat port.toNat lease.toNat divider.toNat select s = refuse .noSpace s := by
  refine (if_pos (State.subscribe_inOrder named long short divides selects)).trans ?_
  dsimp only
  rw [show ((s.qcp.subs.find? fun x => x.src == req.src && x.port.toNat == port.toNat && x.stream.toNat == stream.toNat).map (·.handle) <|>
      (List.range 16).find? fun h => !s.qcp.subs.any (·.handle == h)) = none from handle]

end

end

section
variable {s : State} {t : Nat} {req : Request} {stream : BitVec 8} {port lease divider : BitVec 16} {select : List Byte}

section
variable (ready : Ready s t req 0x20 (be8 stream ++ [0] ++ be16 port ++ be16 lease ++ be16 divider ++ select))
  (named : port ≠ 0) (long : 1 ≤ lease.toNat) (short : lease.toNat ≤ 600)
  (divides : stream = 2 ∨ (1 ≤ divider.toNat ∧ divider.toNat ≤ 1000))
include ready named long short divides

theorem execSubscribe_handle {w : State} (taken : (s.clock t).taken req 0x20 (some (stream.setWidth 32, [])) = w)
    (selects : w.selectOk req stream.toNat port.toNat select = true) {h : Nat}
    (handle : ((w.qcp.subs.find? (subscriptionKey req stream port)).map (·.handle) <|> w.freeHandle) = some h) :
    execSubscribe t req stream port lease divider select s = .next (State.respond { w with
      qcp.subs := w.qcp.subs.filter (fun y => !subscriptionKey req stream port y) ++
        [w.subscription req stream port lease divider select h] } req 0x20 .ok
      (nat8 h ++ zeros 3 ++ nat64 (w.tb3 + lease.toNat * second))) := by
  subst taken
  have hold := (State.taken_frame (s.clock t) req 0x20 (some (stream.setWidth 32, [])) ready.clock.report).group
  have subscribes := State.subscribe_handle named long short divides selects handle
  refine (runHost_next _ ready.running ready.started).trans (congrArg Host.Outcome.next
    ((State.serve_ok _ _ ready.clock (fun _ => by rw [hold]; exact ready.clock.version) ?_ ?_).trans ?_))
  · rw [subscribes]
  · rw [subscribes]
  · rw [subscribes]

theorem execSubscribe_full {w : State} (taken : (s.clock t).taken req 0x20 (some (stream.setWidth 32, [])) = w)
    (selects : w.selectOk req stream.toNat port.toNat select = true)
    (handle : ((w.qcp.subs.find? (subscriptionKey req stream port)).map (·.handle) <|> w.freeHandle) = none) :
    execSubscribe t req stream port lease divider select s =
      .next (((s.clock t).taken req 0x20 none).respond req 0x20 .noSpace []) := by
  subst taken
  have hold := (State.taken_frame (s.clock t) req 0x20 (some (stream.setWidth 32, [])) ready.clock.report).group
  have refuses := State.subscribe_full named long short divides selects handle
  refine (runHost_next _ ready.running ready.started).trans (congrArg Host.Outcome.next
    ((State.serve_refused _ _ ready.clock (fun _ => by rw [hold]; exact ready.clock.version) ?_ ?_ ?_).trans ?_))
  · rw [refuses]
    show Status.noSpace ≠ .ok
    decide
  · rw [refuses]
    rfl
  · rw [refuses]
    rfl
  · rw [refuses]
    rfl

end

theorem execUnsubscribe_drops (ready : Ready s t req 0x21 (be8 stream ++ be16 port ++ [0]))
    (known : stream = 0xFF ∨ (1 ≤ stream.toNat ∧ stream.toNat ≤ 6)) :
    execUnsubscribe t req stream port s = .next (State.respond
      (((s.clock t).taken req 0x21 (some (stream.setWidth 32, []))).dropSubs fun x =>
        x.src == req.src && x.port == port && (stream == 0xFF || x.stream == stream)) req 0x21 .ok []) := by
  have hold := (State.taken_frame (s.clock t) req 0x21 (some (stream.setWidth 32, [])) ready.clock.report).group
  have known' : (stream == 0xFF || (decide (1 ≤ stream.toNat) && decide (stream.toNat ≤ 6))) = true := by
    rcases known with all | ⟨low, high⟩
    · simp [all]
    · simp [low, high]
  have drops : (fun w : State => checkValue (stream == 0xFF || (decide (1 ≤ stream.toNat) && decide (stream.toNat ≤ 6))) w fun _ =>
      done (w.dropSubs fun x => x.src == req.src && x.port == port && (stream == 0xFF || x.stream == stream))) =
      fun w : State => done (w.dropSubs fun x => x.src == req.src && x.port == port && (stream == 0xFF || x.stream == stream)) :=
    funext fun _ => if_pos known'
  refine (runHost_next _ ready.running ready.started).trans (congrArg Host.Outcome.next ?_)
  rw [drops]
  exact State.serve_ok _ _ ready.clock (fun _ => by rw [hold]; exact ready.clock.version) rfl rfl

end

/-! ## Subscriptions end (R576, R583) -/

theorem State.dropSubs_frame (s : State) (gone) : FrameBut [.qcp] s (s.dropSubs gone) := frame_set_qcp s _

/-- No queued frame goes to a subscription that has ended. -/
theorem State.dropSubs_dest {s : State} {gone : Subscription → Bool} {f : TeleFrame} (queued : f ∈ (s.dropSubs gone).qcp.tele)
    {x : Subscription} (held : x ∈ s.qcp.subs) (ends : gone x = true) : x.handle ∉ f.dest := by
  obtain ⟨g, -, rfl⟩ := List.mem_map.mp queued
  have dropped : x.handle ∈ (s.qcp.subs.filter gone).map (·.handle) := List.mem_map_of_mem (List.mem_filter.mpr ⟨held, ends⟩)
  intro kept
  simpa [dropped] using (List.mem_filter.mp kept).2

theorem execLeaseExpiry_next {s : State} {t : Nat} (on : Powered s) (h : Fin 16) : execLeaseExpiry t h s =
    .next ((s.clock t).dropSubs fun x => x.handle == h.val && decide (x.expires ≤ (s.clock t).tb3)) := runPowered_next _ on

/-! ## TELEMETRY_SEND (R578, R583) -/

section
variable {s : State} {t : Nat} {f : TeleFrame} {rest : List TeleFrame} (on : Powered s) (queue : s.qcp.tele = f :: rest)
include on queue

theorem execTelemetrySend_next : execTelemetrySend t s = .next (
    let c := s.clock t
    if f.dest.isEmpty then { c with qcp.tele := rest }
    else { c with qcp.tele := rest, qcp.sentTele := (c.sealTele f).dest.map fun h => (h, (c.sealTele f).frame c.qcpInUse c.qcp.dropped),
                  qcp.dropped := 0 }) := by
  have queued : (s.clock t).qcp.tele = f :: rest := by rw [(s.clock_frame t).qcp, queue]
  refine (runPowered_next _ on).trans (congrArg Host.Outcome.next ?_)
  rw [queued]
  rfl

end

/-- Settles O47: each clause is the lemma about its command; a new key's handle is `State.freeHandle_some`. -/
theorem subscriptionsAndTelemetry : Obligations.SubscriptionsAndTelemetry := by
  unfold Obligations.SubscriptionsAndTelemetry
  intro s t c
  refine ⟨fun req stream port lease divider select ready => ?subscribe, fun req stream port ready known => execUnsubscribe_drops ready known,
    fun on h => execLeaseExpiry_next on h,
    fun gone => ⟨rfl, fun f queued x held ends => State.dropSubs_dest queued held ends, List.length_map _, State.dropSubs_frame _ _⟩,
    fun on f rest queue => ?send⟩
  case subscribe =>
    intro w mine entry held named long short divides selects
    refine ⟨fun x found => ?_, fun new room => ?_, fun new full => ?_⟩
    · exact execSubscribe_handle (w := w) ready named long short divides rfl selects
        (by rw [show w.qcp.subs.find? (subscriptionKey req stream port) = some x from found]; rfl)
    · obtain ⟨h, small, free, handle⟩ := State.freeHandle_some room
      have none_ : w.qcp.subs.find? (subscriptionKey req stream port) = none :=
        List.find?_eq_none.mpr fun x inside => Bool.eq_false_iff.mp (new x inside)
      exact ⟨h, small, free, execSubscribe_handle (w := w) ready named long short divides rfl selects (by rw [none_]; exact handle)⟩
    · have none_ : w.qcp.subs.find? (subscriptionKey req stream port) = none :=
        List.find?_eq_none.mpr fun x inside => Bool.eq_false_iff.mp (new x inside)
      exact execSubscribe_full (w := w) ready named long short divides rfl selects
        (by rw [none_]; exact State.freeHandle_eq_none.mpr full)
  case send =>
    have sends := execTelemetrySend_next (t := t) on queue
    refine ⟨fun dest other => sends.trans (congrArg Host.Outcome.next ((if_neg ?_).trans ?_)),
      fun dest event => sends.trans (congrArg Host.Outcome.next ((if_neg ?_).trans ?_)),
      fun nobody => sends.trans (congrArg Host.Outcome.next (if_pos (by simp [nobody])))⟩
    · simpa using dest
    · rw [State.sealTele, if_neg other]
    · simpa using dest
    · rw [State.sealTele, if_pos event]

end Sys2Proof.Machine
end

section
/-! DTLS associations, and the settings that take effect later (spec/16_command_protocol.md, R586 to R588). -/

namespace Sys2Proof.Machine
set_option Elab.async false

/-! ## DTLS_HANDSHAKE (R587) -/

/-- A fold that keeps what it has or takes the next finds an element of the list. -/
theorem foldl_chosen {α : Type} {f : Option α → α → Option α} (chooses : ∀ m a, f m a = some a ∨ f m a = m) :
    ∀ (l : List α) (m : Option α) {x : α}, l.foldl f m = some x → x ∈ l ∨ m = some x
  | [], _, _, found => .inr found
  | a :: l, m, x, found => by
    rcases foldl_chosen chooses l (f m a) found with inside | last
    · exact .inl (List.mem_cons_of_mem _ inside)
    · rcases chooses m a with taken | kept
      · exact .inl (List.mem_cons.mpr (.inl (Option.some.inj (taken.symm.trans last)).symm))
      · exact .inr (kept.symm.trans last)

section
variable {s : State} {t : Nat} {req : Request} (on : Powered s)
include on

theorem execDtlsHandshake_plainPort (ok : Bool) (plain : (s.clock t).portSecurity req.ingress = 0) : execDtlsHandshake t req ok s =
    .next { s.clock t with qcp.counters := upd (s.clock t).qcp.counters 1 sat32 } :=
  (runPowered_next _ on).trans (congrArg Host.Outcome.next (if_pos plain))

section
variable (secure : (s.clock t).portSecurity req.ingress ≠ 0)
include secure

theorem execDtlsHandshake_fails : execDtlsHandshake t req false s = .next ((s.clock t).dtlsFailed req.ingress) :=
  (runPowered_next _ on).trans (congrArg Host.Outcome.next ((if_neg secure).trans (if_pos rfl)))

theorem execDtlsHandshake_joins (room : (s.clock t).qcp.associations.length < 8) : execDtlsHandshake t req true s =
    .next { s.clock t with
      free := (s.clock t).free + 1,
      qcp.associations := (s.clock t).qcp.associations ++ [{ src := req.src, port := req.port, ingress := req.ingress,
                                                             lastUsed := (s.clock t).now, id := (s.clock t).free }],
      qcp.dtlsFailRun := false } := by
  refine (runPowered_next _ on).trans (congrArg Host.Outcome.next ((if_neg secure).trans ((if_neg (by decide)).trans ?_)))
  dsimp only
  rw [if_pos room]
  rfl

/-- A ninth, when every one has been used within 60 s, fails. -/
theorem execDtlsHandshake_full (full : 8 ≤ (s.clock t).qcp.associations.length)
    (used : ∀ a ∈ (s.clock t).qcp.associations, (s.clock t).now < a.lastUsed + 60 * second) :
    execDtlsHandshake t req true s = .next ((s.clock t).dtlsFailed req.ingress) := by
  refine (runPowered_next _ on).trans (congrArg Host.Outcome.next ((if_neg secure).trans ((if_neg (by decide)).trans ?_)))
  dsimp only
  rw [if_neg (Nat.not_lt.mpr full)]
  split
  · rfl
  · next idle =>
    split at idle
    · next a chosen =>
      rcases foldl_chosen (fun m a => by
        cases m with
        | none => exact .inl rfl
        | some b => exact ite_eq_or_eq _ _ _) _ _ chosen with held | none_
      · rw [if_neg (Nat.not_le.mpr (used a held))] at idle
        cases idle
      · cases none_
    · cases idle

end

end

theorem State.dtlsFailed_first {s : State} {ingress : BitVec 8} (first : s.qcp.dtlsFailRun = false) : s.dtlsFailed ingress =
    State.raiseN { s with qcp.counters := upd s.qcp.counters 8 sat32, qcp.dtlsFailRun := true } 110 ingress.toNat :=
  if_neg (by simp [first])

theorem State.dtlsFailed_again {s : State} {ingress : BitVec 8} (again : s.qcp.dtlsFailRun = true) : s.dtlsFailed ingress =
    { s with qcp.counters := upd s.qcp.counters 8 sat32 } :=
  if_pos again

/-! ## QCP_SETTING_EFFECT (R588) -/

/-- The address that was written takes effect when it is due. -/
def State.settleAddress (s : State) : State :=
  match s.qcp.addressNext with
  | some (at_, a) => if at_ ≤ s.now then { s with qcp.address := a, qcp.addressNext := none } else s
  | none => s

/-- The security modes that were written take effect when they are due; the plain subscriptions of a DTLS_ONLY port end. -/
def State.settleSecurity (s : State) : State :=
  match s.qcp.securityNext with
  | some (at_, v) =>
    if at_ ≤ s.now then
      let s := { s with qcp.security := v, qcp.securityNext := none }
      s.dropSubs fun x => x.dtls.isNone && s.portSecurity x.ingress == 2
    else s
  | none => s

theorem execQcpSettingEffect_next {s : State} {t : Nat} (on : Powered s) :
    execQcpSettingEffect t s = .next (s.clock t).settleAddress.settleSecurity := runPowered_next _ on

section
variable {s : State} {at_ : Nat}

theorem State.settleAddress_due {a : QcpAddress} (written : s.qcp.addressNext = some (at_, a)) (due : at_ ≤ s.now) :
    s.settleAddress = { s with qcp.address := a, qcp.addressNext := none } := by
  rw [State.settleAddress, written]
  exact if_pos due

theorem State.settleAddress_early (early : ∀ at_ a, s.qcp.addressNext = some (at_, a) → s.now < at_) : s.settleAddress = s := by
  unfold State.settleAddress
  split
  · next at_ a written => exact if_neg (Nat.not_le.mpr (early at_ a written))
  · rfl

theorem State.settleSecurity_due {v : BitVec 8} (written : s.qcp.securityNext = some (at_, v)) (due : at_ ≤ s.now) :
    s.settleSecurity = State.dropSubs { s with qcp.security := v, qcp.securityNext := none } fun x =>
      x.dtls.isNone && State.portSecurity { s with qcp.security := v, qcp.securityNext := none } x.ingress == 2 := by
  rw [State.settleSecurity, written]
  exact if_pos due

theorem State.settleSecurity_early (early : ∀ at_ v, s.qcp.securityNext = some (at_, v) → s.now < at_) : s.settleSecurity = s := by
  unfold State.settleSecurity
  split
  · next at_ v written => exact if_neg (Nat.not_le.mpr (early at_ v written))
  · rfl

end

/-- Settles O48: each clause is the lemma about the handshake or about the setting. -/
theorem associationsAndSettings : Obligations.AssociationsAndSettings := by
  unfold Obligations.AssociationsAndSettings
  intro s t on c fresh
  have kept : c.qcp = s.qcp := (s.clock_frame t).qcp
  have security (req : Request) := s.portSecurity_clock t req.ingress
  rw [← kept]
  simp only [← security]
  refine ⟨fun req ok plain => execDtlsHandshake_plainPort on ok plain,
    fun req secure => ⟨fun first => (execDtlsHandshake_fails on secure).trans (congrArg Host.Outcome.next (State.dtlsFailed_first first)),
      fun again => (execDtlsHandshake_fails on secure).trans (congrArg Host.Outcome.next (State.dtlsFailed_again again))⟩,
    fun req secure room => execDtlsHandshake_joins on secure room,
    fun req secure full used again => (execDtlsHandshake_full on secure full used).trans
      (congrArg Host.Outcome.next (State.dtlsFailed_again again)),
    fun at_ a written due alone => ?address, fun at_ v written due alone => ?security,
    fun address security => ?early⟩
  case address =>
    exact (execQcpSettingEffect_next on).trans (congrArg Host.Outcome.next
      ((congrArg State.settleSecurity (State.settleAddress_due written due)).trans
        (State.settleSecurity_early fun at_ v later => nomatch alone.symm.trans later)))
  case security =>
    have still : c.settleAddress = c := State.settleAddress_early fun at_ a later => nomatch alone.symm.trans later
    refine ⟨_, (execQcpSettingEffect_next on).trans (congrArg Host.Outcome.next
      ((congrArg State.settleSecurity still).trans (State.settleSecurity_due written due))), rfl, rfl, ?_, ?_, ?_⟩
    · rintro x held ⟨plain, records⟩
      have stays := (List.mem_filter.mp held).2
      simp [plain] at stays
      exact stays records
    · rintro x held stays
      refine List.mem_filter.mpr ⟨held, (Bool.not_eq_true' _).mpr (Bool.and_eq_false_iff.mpr ?_)⟩
      exact stays.imp Option.isNone_eq_false_iff.mpr beq_eq_false_iff_ne.mpr
    · exact (frame_set_qcp c _).trans (State.dropSubs_frame _ _)
  case early =>
    exact (execQcpSettingEffect_next on).trans (congrArg Host.Outcome.next
      ((congrArg State.settleSecurity (State.settleAddress_early address)).trans (State.settleSecurity_early security)))

end Sys2Proof.Machine
end

section
/-! Reads (spec/16_command_protocol.md): a READ that changes nothing is not recorded (R568), so what O45 says of READ of CAPm_DATA fails
for a capture unit that holds no stamp. -/

namespace Sys2Proof.Machine
set_option Elab.async false

/-! ## READ of CAPm_DATA where the unit is empty (R108, R568) -/

/-- The act of a READ of a capture unit. -/
def captureRead (req : Request) (m : Fin 16) (w : State) : Done :=
  w.readAct req (objId 2 (0x10 + m) 1) 0 (readLimit req) fun s => s.readCapture m

/-- A READ that leaves the unit as it is goes unrecorded. -/
theorem execCaptureDataRead_unrecorded {s : State} {t : Nat} {req : Request} {m : Fin 16}
    (ready : Ready s t req 0x10 (readBody (objId 2 (0x10 + m.val) 1) 0 (readLimit req)))
    (same : ((s.clock t).readCapture m).state = s.clock t) : execCaptureDataRead t req m s =
      .next ((s.clock t).serve req 0x10 (readBody (objId 2 (0x10 + m.val) 1) 0 (readLimit req)) none (captureRead req m)) := by
  unfold execCaptureDataRead State.hostRead
  rw [runHost_next _ ready.running ready.started, same, if_neg (by simp)]
  rfl

/-- A module that runs, as reset leaves everything else. -/
def idleModule : State := { State.reset with modes.phase := .running }

/-- A host's request, which no source of the table has made before. -/
def hostRequest : Request := { src := 1, port := 50000, seq := 7 }

theorem idleModule_ready :
    Ready idleModule 0 hostRequest 0x10 (readBody (objId 2 (0x10 + (0 : Fin 16).val) 1) 0 (readLimit hostRequest)) where
  running := rfl
  started := by decide +kernel
  port := by decide +kernel
  version := rfl
  first := fun c waits => nomatch waits
  room := by decide +kernel
  report := by decide +kernel

/-- Its capture unit is empty, and read without a change. -/
theorem idleModule_readCapture : ((idleModule.clock 0).readCapture (0 : Fin 16)).state = idleModule.clock 0 :=
  congrArg (fun c => { idleModule.clock 0 with field.captures := c })
    (show upd (idleModule.clock 0).field.captures 0 _ = (idleModule.clock 0).field.captures by decide +kernel)

/-- The module as SUP takes the READ, which it does not record. -/
def idleTaken : State := (idleModule.clock 0).taken hostRequest 0x10 none

/-- The READ is answered, and the table of sources stays empty. -/
theorem captureRead_idle : (captureRead hostRequest 0 idleTaken).status = .ok ∧ (captureRead hostRequest 0 idleTaken).deferred = false ∧
    (captureRead hostRequest 0 idleTaken).state.qcp.sources.length = 0 := by decide +kernel

/-- Refutes O45: a READ of a capture unit that holds no stamp changes nothing, so it is not recorded (R568) and gives its source no
index, as the clause of CAPm_DATA says of every READ. -/
theorem not_identityAndReadsAreAnswered : ¬ Obligations.IdentityAndReadsAreAnswered := by
  intro every
  obtain ⟨-, -, -, -, captures, -⟩ := every idleModule 0 hostRequest
  have ready := idleModule_ready
  obtain ⟨ok, now, unbound⟩ := captureRead_idle
  have answered := (execCaptureDataRead_unrecorded ready idleModule_readCapture).symm.trans (captures 0 ready (by decide +kernel))
  rw [State.serve_ok none _ ready.clock (fun changes => absurd changes (by decide)) ok now] at answered
  have bound : ((idleModule.clock 0).taken hostRequest 0x10 (some (objId 2 0x10 1, []))).qcp.sources.length = 1 := by decide +kernel
  have same := congrArg (fun s : State => s.qcp.sources.length) (Host.Outcome.next.inj answered)
  exact absurd (unbound.symm.trans (same.trans bound)) (by decide)

end Sys2Proof.Machine
end

section
/-! The panel (spec/19_front_panel_display.md): the objects a host writes (R656, R657, R659, R660), waveforms and rails (R646, R647, R650),
and what defers updates (R648, R652, R659). -/

namespace Sys2Proof.Machine
set_option Elab.async false

/-! ## The objects a host writes -/

/-- A panel object of a module with option P is judged by its own rule. -/
theorem State.pnlWrite_draw {w : State} {c : WriteCtx} {v : List Byte} (optP : w.factory.optP = true) :
    w.pnlWrite c 0 1 v = w.pnlDraw v := by
  rw [State.pnlWrite, if_neg (by simp [optP])]

theorem State.pnlWrite_vcom {w : State} {c : WriteCtx} {v : List Byte} (optP : w.factory.optP = true) :
    w.pnlWrite c 0 2 v = w.pnlVcom c v := by
  rw [State.pnlWrite, if_neg (by simp [optP])]

theorem State.pnlWrite_check {w : State} {c : WriteCtx} {v : List Byte} (optP : w.factory.optP = true) :
    w.pnlWrite c 0 3 v = w.pnlCheck v := by
  rw [State.pnlWrite, if_neg (by simp [optP])]

theorem State.pnlWrite_refresh {w : State} {c : WriteCtx} {v : List Byte} (optP : w.factory.optP = true) :
    w.pnlWrite c 0 6 v = w.pnlRefresh v := by
  rw [State.pnlWrite, if_neg (by simp [optP])]

theorem intAt_be16 (v : BitVec 16) : intAt (be16 v) 0 2 = v.toInt := by
  have field : fieldAt (be16 v) 0 2 = v.toNat := (congrArg beVal (sliceAt_all (be16 v))).trans (beVal_be16 v)
  have fits := v.isLt
  rw [intAt, field, BitVec.toInt_eq_toNat_cond]
  split <;> split <;> omega

section
variable {w : State}

/-- PNL_REFRESH queues both repaints (R657). -/
theorem State.pnlRefresh_one : w.pnlRefresh [1] = done { w with
    panel.repaintGrey := some repaintMain, panel.repaintMono := some repaintStrip, panel.repaintPending := true } := by
  rw [State.pnlRefresh, checkValue, beq_self_eq_true, if_pos rfl]
  rfl

/-- PNL_VCOM outside the positioning modes, in its range (R660). -/
theorem State.pnlVcom_ok {c : WriteCtx} {v : BitVec 16} (host : c.load = false)
    (mode : w.modes.mode = .idle ∨ w.modes.mode = .config ∨ w.modes.mode = .test) (low : -3000 ≤ v.toInt) (high : v.toInt ≤ 0)
    (steps : v.toInt % 10 = 0) : w.pnlVcom c (be16 v) = done { w with panel.vcomNext := some v.toInt } := by
  have allowed : [Mode.idle, .config, .test].contains (c.mode w) = true := by
    rw [WriteCtx.mode, host, if_neg (by decide)]
    rcases mode with m | m | m <;> rw [m] <;> rfl
  simp only [State.pnlVcom, checkValue, WriteCtx.onlyIn, intAt_be16, be16_length, allowed, low, high, steps, beq_self_eq_true, decide_true,
    Bool.and_self, if_true]

theorem State.pnlCheck_value (v : Word) : w.pnlCheck (be32 v) = done (w.askCheck (some v)) := by
  simp only [State.pnlCheck, checkValue, be32_length, beq_self_eq_true, if_true, beVal_be32, BitVec.ofNat_toNat, BitVec.setWidth_eq]

theorem State.panelChecks_busy (flies : w.panel.flight ≠ []) : w.panelChecks = w := by
  rw [State.panelChecks, if_neg (by rw [List.isEmpty_iff]; exact flies)]

/-- With no waveform in flight and no check waiting, a check that is asked for runs at once. -/
theorem State.askCheck_free (none_ : w.panel.flight = []) (first : w.panel.checkPending = []) (against : Option Word) :
    w.askCheck against = w.panelCheck against := by
  have empty : { w with panel.checkPending := [] } = w := by rw [← first]
  unfold State.askCheck State.panelChecks
  rw [if_pos (by rw [List.isEmpty_iff]; exact none_)]
  dsimp only
  rw [first, List.nil_append, List.foldl_cons, List.foldl_nil, empty]

/-- What a check leaves that finds `crc` where `value` is due (R659). -/
def State.panelChecked (w : State) (crc value : Word) : State :=
  let s := { w with panel.crcLast := crc, panel.crcCompared := value, panel.crcAt := w.tb3 }
  if crc == value then { s with panel.crcFail := false }
  else
    let s := { s with panel := { s.panel.setRepaint with crcFail := true, counters := upd s.panel.counters 4 sat32 } }
    s.raise 126 crc value

theorem State.panelCheck_eq (w : State) (against : Option Word) : w.panelCheck against =
    w.panelChecked (Memory.crc w.panel.frame) (against.getD (Memory.crc w.panel.image)) := rfl

/-- A check that agrees clears CRC_FAIL (R659). -/
theorem State.panelChecked_agrees (v : Word) : w.panelChecked v v =
    { w with panel.crcLast := v, panel.crcCompared := v, panel.crcAt := w.tb3, panel.crcFail := false } :=
  if_pos (beq_self_eq_true v)

theorem State.askCheck_agrees {v : Word} (none_ : w.panel.flight = []) (first : w.panel.checkPending = [])
    (agrees : Memory.crc w.panel.frame = v) : w.askCheck (some v) =
      { w with panel.crcLast := v, panel.crcCompared := v, panel.crcAt := w.tb3, panel.crcFail := false } := by
  rw [State.askCheck_free none_ first, State.panelCheck_eq, agrees, Option.getD_some]
  exact State.panelChecked_agrees v

/-- A check that differs queues a repaint and is reported by source 126 (R644, R659). -/
theorem State.panelChecked_differs {crc value : Word} (differs : crc ≠ value) : w.panelChecked crc value =
    State.raise { w with
      panel.crcLast := crc, panel.crcCompared := value, panel.crcAt := w.tb3, panel.repaintGrey := some repaintMain,
      panel.repaintMono := some repaintStrip, panel.repaintPending := true, panel.crcFail := true,
      panel.counters := upd w.panel.counters 4 sat32 } 126 (some crc) (some value) :=
  if_neg (by simpa using differs)

theorem replaceIn_other {r : PnlRequest} {queue : List PnlRequest} (other : ∀ q ∈ queue, q.sameRect r = false) :
    replaceIn r queue = none := by
  induction queue with
  | nil => rfl
  | cons q rest ih =>
    obtain ⟨here, later⟩ := List.forall_mem_cons.mp other
    rw [replaceIn, ih later]
    dsimp only
    rw [if_neg (by simp [here])]

/-- A request of a rectangle that nothing else has, outside the layout, joins the queue (R649, R656). -/
theorem State.pnlDraw_joins {v : List Byte} {r : PnlRequest} (spelled : drawRequest v = some r)
    (clear : ∀ l ∈ w.layout, (layoutRect l).overlaps r = false) (other : ∀ q ∈ w.panel.queue, q.sameRect r = false)
    (room : w.panel.queue.length < 16) : w.pnlDraw v = done { w with panel.queue := w.panel.queue ++ [r] } := by
  have outside : (w.layout.any fun l => (layoutRect l).overlaps r) = false := by
    rw [List.any_eq_false]
    exact fun l here => by simp [clear l here]
  have joins : w.panel.enqueue r = some { w.panel with queue := w.panel.queue ++ [r] } := by
    rw [PanelState.enqueue, replaceIn_other other]
    exact if_neg (by omega)
  unfold State.pnlDraw
  rw [spelled]
  dsimp only
  rw [outside, joins]
  rfl

end

/-- Settles O57: each write is the lemma about the object it writes. -/
theorem panelObjectsTakeWrites : Obligations.PanelObjectsTakeWrites := by
  unfold Obligations.PanelObjectsTakeWrites
  intro s t req optP
  refine ⟨fun ready => ?refresh, fun v ready mode low high steps => ?vcom, fun v ready flies => ?waits,
    fun v ready none_ first agrees => ?agrees, fun v r ready spelled clear other room => ?draw⟩
  case refresh =>
    have frame := State.atWrite_frame ready
    exact hostWrite_done (act := fun c s => s.pnlWrite c 0 6 [1]) ready
      ((State.pnlWrite_refresh (by rw [frame.factory]; exact optP)).trans State.pnlRefresh_one)
  case vcom =>
    have frame := State.atWrite_frame ready
    rw [← frame.modes] at mode
    exact hostWrite_done (act := fun c s => s.pnlWrite c 0 2 (be16 v)) ready
      ((State.pnlWrite_vcom (by rw [frame.factory]; exact optP)).trans (State.pnlVcom_ok rfl mode low high steps))
  case waits =>
    have frame := State.atWrite_frame ready
    rw [← frame.panel] at flies
    exact hostWrite_done (act := fun c s => s.pnlWrite c 0 3 (be32 v)) ready
      ((State.pnlWrite_check (by rw [frame.factory]; exact optP)).trans ((State.pnlCheck_value v).trans
        (congrArg done (State.panelChecks_busy flies))))
  case agrees =>
    have frame := State.atWrite_frame ready
    rw [← frame.panel] at none_ first agrees
    exact hostWrite_done (act := fun c s => s.pnlWrite c 0 3 (be32 v)) ready
      ((State.pnlWrite_check (by rw [frame.factory]; exact optP)).trans ((State.pnlCheck_value v).trans
        (congrArg done (State.askCheck_agrees none_ first agrees))))
  case draw =>
    have frame := State.atWrite_frame ready
    have layout : (s.atWrite t req (objId 0xF 0 1) v).layout = s.layout := by rw [State.layout, frame.image]; rfl
    rw [← layout] at clear
    rw [← frame.panel] at other room
    exact hostWrite_done (act := fun c s => s.pnlWrite c 0 1 v) ready
      ((State.pnlWrite_draw (by rw [frame.factory]; exact optP)).trans (State.pnlDraw_joins spelled clear other room))

end Sys2Proof.Machine
end

section
/-! The panel (spec/19_front_panel_display.md): waveforms and rails (R644, R646, R647, R650), and what defers updates (R648, R652, R659). -/

namespace Sys2Proof.Machine
set_option Elab.async false

/-! ## Waveforms and rails -/

theorem runPanel_next {s : State} {t : Nat} (f : State → State) (on : Powered s) (optP : s.factory.optP = true) :
    runPanel t s f = .next (f (s.clock t)) :=
  (runPowered_next _ on).trans (congrArg Host.Outcome.next (if_pos ((congrArg _ (s.clock_frame t).factory).trans optP)))

theorem PanelState.ready_iff (p : PanelState) (ahead : List PnlRequest) (r : PnlRequest) : p.ready ahead r = true ↔
    p.flight.length < 4 ∧ (∀ w ∈ p.flight, w.req.overlaps r = false) ∧ (∀ q ∈ ahead, q.overlaps r = false) ∧ p.deferred = false ∧
      (p.checkPending = [] ∨ p.flight ≠ []) := by
  simp [PanelState.ready, and_assoc]

section
variable {s : State} {t : Nat} (on : Powered s) (optP : s.factory.optP = true)
include on optP

theorem execWaveformStart_queued {i : Fin 18} {r : PnlRequest} (host : i.val < 16) (rails : s.panel.railsOn = true)
    (here : s.panel.queue[i.val]? = some r)
    (ready : s.panel.ready (s.panel.repaintGrey.toList ++ s.panel.repaintMono.toList ++ s.panel.queue.take i.val) r = true) :
    execWaveformStart t i s = .next { s.clock t with
      panel := { (s.clock t).panel.start (s.clock t).now r with queue := (s.clock t).panel.queue.eraseIdx i.val } } := by
  rw [← (s.clock_frame t).panel] at rails here ready
  refine (runPanel_next _ on optP).trans (congrArg Host.Outcome.next ?_)
  dsimp only
  rw [rails, Bool.not_true, if_neg (by decide)]
  split
  next main => omega
  next strip => omega
  next =>
    rw [here]
    exact if_pos ready

/-- The end of a waveform of a host or of the layout while another runs on. -/
theorem execWaveformEnd_other {i : Fin 4} {w : Waveform} (here : s.panel.flight[i.val]? = some w) (due : w.endsAt ≤ (s.clock t).now)
    (plain : w.req.repaint = false) (others : s.panel.flight.eraseIdx i.val ≠ []) :
    execWaveformEnd t i s = .next { s.clock t with
      panel.frame := Memory.paint (s.clock t).panel.frame w.req (fun _ j => w.req.level j),
      panel.image := Memory.paint (s.clock t).panel.image w.req (fun _ j => w.req.level j),
      panel.flight := (s.clock t).panel.flight.eraseIdx i.val, panel.idleSince := none,
      panel.counters := upd (s.clock t).panel.counters 0 sat32 } := by
  rw [← (s.clock_frame t).panel] at here others
  have flies : ((s.clock t).panel.flight.eraseIdx i.val).isEmpty = false := by
    rw [Bool.eq_false_iff, Ne, List.isEmpty_iff]
    exact others
  refine (runPanel_next _ on optP).trans (congrArg Host.Outcome.next ?_)
  dsimp only
  rw [here]
  dsimp only
  rw [if_neg (by omega), State.panelChecks_busy others]
  simp only [plain, flies, Bool.false_eq_true, if_false, Bool.false_and, Bool.not_false, Bool.and_true, Bool.true_or]

theorem execRailsOn_ready (off : s.panel.railsOn = false) (ready : s.panel.anyReady = true) : execRailsOn t s =
    .next { s.clock t with panel.railsOn := true, panel.vcom := (s.clock t).panel.vcomNext.getD (s.clock t).panel.vcom,
                           panel.vcomNext := none, panel.idleSince := some (s.clock t).now } := by
  rw [← (s.clock_frame t).panel] at off ready
  exact (runPanel_next _ on optP).trans (congrArg Host.Outcome.next (if_pos (by rw [off, ready]; rfl)))

theorem execRailsOff_idle {a : Nat} (rails : s.panel.railsOn = true) (none_ : s.panel.flight = []) (idle : s.panel.anyReady = false)
    (since : s.panel.idleSince = some a) (due : a + 100 * ms ≤ (s.clock t).now) :
    execRailsOff t s = .next { s.clock t with panel.railsOn := false, panel.idleSince := none } := by
  rw [← (s.clock_frame t).panel] at rails none_ idle since
  refine (runPanel_next _ on optP).trans (congrArg Host.Outcome.next ?_)
  dsimp only
  rw [since]
  exact if_pos (by simp [rails, none_, idle, due])

end

/-- Settles O58: a clause for each command, from its lemma. -/
theorem panelWaveformsStartAndEnd : Obligations.PanelWaveformsStartAndEnd := by
  unfold Obligations.PanelWaveformsStartAndEnd
  intro s t on optP
  refine ⟨fun i r host rails here room clear ahead runs checked => ?start, fun i w here due plain others => ?ends,
    fun off ready => ?on, fun a rails none_ idle since due => ?off⟩
  case start =>
    exact execWaveformStart_queued on optP host rails here
      ((PanelState.ready_iff _ _ _).mpr ⟨room, clear, ahead, runs, .inl checked⟩)
  case ends => exact execWaveformEnd_other on optP here due plain others
  case on => exact execRailsOn_ready on optP off ready
  case off => exact execRailsOff_idle on optP rails none_ idle since due

/-! ## Rail faults, temperature and the 60 s check -/

/-- What a rail fault leaves of the panel (R648), with the lock that it brings. -/
def PanelState.railFaulted (p : PanelState) (now : Nat) (locked : Bool) : PanelState :=
  { p.stopWaveforms.setRepaint with railFault := true, railFaultAt := some now, railLocked := locked, counters := upd p.counters 3 sat32 }

theorem PanelState.railFaulted_eq (p : PanelState) (now : Nat) (locked : Bool) : p.railFaulted now locked =
    { p with flight := [], railsOn := false, idleSince := none, repaintGrey := some repaintMain, repaintMono := some repaintStrip,
             repaintPending := true, railFault := true, railLocked := locked, railFaultAt := some now,
             counters := upd p.counters 3 sat32 } := rfl

section
variable {s : State} {t : Nat} (on : Powered s) (optP : s.factory.optP = true)
include on optP

theorem execRailFault_first (rails : s.panel.railsOn = true) (first : s.panel.railFaultAt = none) :
    execRailFault t s = .next (State.panelDeferred { s.clock t with
      panel := (s.clock t).panel.railFaulted (s.clock t).now (s.clock t).panel.railLocked } true 3) := by
  rw [← (s.clock_frame t).panel] at rails first
  refine (runPanel_next _ on optP).trans (congrArg Host.Outcome.next ?_)
  dsimp only
  rw [rails, Bool.not_true, if_neg (by decide), first]
  dsimp only
  rw [Bool.or_false]
  rfl

/-- A second rail fault within 60 s locks updates (R648). -/
theorem execRailFault_again {a : Nat} (rails : s.panel.railsOn = true) (last : s.panel.railFaultAt = some a)
    (within : (s.clock t).now < a + 60 * second) :
    execRailFault t s = .next (State.panelDeferred { s.clock t with
      panel := (s.clock t).panel.railFaulted (s.clock t).now true } true 3) := by
  rw [← (s.clock_frame t).panel] at rails last
  refine (runPanel_next _ on optP).trans (congrArg Host.Outcome.next ?_)
  dsimp only
  rw [rails, Bool.not_true, if_neg (by decide), last]
  dsimp only
  rw [decide_eq_true within, Bool.or_true]
  rfl

theorem execRailRetry_due {a : Nat} (fault : s.panel.railFault = true) (free : s.panel.railLocked = false)
    (last : s.panel.railFaultAt = some a) (due : a + second ≤ (s.clock t).now) :
    execRailRetry t s = .next (State.panelDeferred { s.clock t with panel.railFault := false } false 3) := by
  rw [← (s.clock_frame t).panel] at fault free last
  refine (runPanel_next _ on optP).trans (congrArg Host.Outcome.next ?_)
  dsimp only
  rw [last]
  exact if_pos (by simp [fault, free, due])

theorem execPanelTemperature_early {k : Int} (read : s.panel.tempRead = true) (early : (s.clock t).now < s.panel.tempAt + second) :
    execPanelTemperature t k s = .next (s.clock t) := by
  rw [← (s.clock_frame t).panel] at read early
  exact (runPanel_next _ on optP).trans (congrArg Host.Outcome.next (if_pos (by rw [read, decide_eq_true early]; rfl)))

theorem execPanelCrcCheck_early (early : (s.clock t).now / (60 * second) ≤ s.panel.crcPeriod) :
    execPanelCrcCheck t s = .next (s.clock t) := by
  rw [← (s.clock_frame t).panel] at early
  exact (runPanel_next _ on optP).trans (congrArg Host.Outcome.next (if_pos early))

/-- The check of each 60 s with none in flight (R659). -/
theorem execPanelCrcCheck_due (due : s.panel.crcPeriod < (s.clock t).now / (60 * second)) (none_ : s.panel.flight = [])
    (first : s.panel.checkPending = []) :
    execPanelCrcCheck t s = .next (State.panelChecked { s.clock t with panel.crcPeriod := (s.clock t).now / (60 * second) }
      (Memory.crc s.panel.frame) (Memory.crc s.panel.image)) := by
  rw [← (s.clock_frame t).panel] at due none_ first
  rw [← (s.clock_frame t).panel]
  refine (runPanel_next _ on optP).trans (congrArg Host.Outcome.next ?_)
  dsimp only
  rw [if_neg (by omega), State.askCheck_free (by exact none_) (by exact first), State.panelCheck_eq, Option.getD_none]

/-- A reading that is due enters the state; each limit it passes is reported (R652). -/
theorem execPanelTemperature_due {k : Int} {cold hot : Bool}
    (due : s.panel.tempRead = true → s.panel.tempAt + second ≤ (s.clock t).now)
    (isCold : (if (s.clock t).panel.deferredCold then decide (k < 100) else decide (k < 0)) = cold)
    (isHot : (if (s.clock t).panel.deferredHot then decide (4900 ≤ k) else decide (5000 ≤ k)) = hot)
    (stays : s.panel.flight ≠ [] ∨ (cold || hot || s.panel.railFault || s.panel.railLocked || s.panel.powerStopped) = false) :
    execPanelTemperature t k s = .next (
      let u := { s.clock t with panel.temp := k, panel.tempRead := true, panel.tempAt := (s.clock t).now, panel.deferredCold := cold,
                                panel.deferredHot := hot }
      let u := if cold != (s.clock t).panel.deferredCold then u.panelDeferred cold 1 else u
      if hot != (s.clock t).panel.deferredHot then u.panelDeferred hot 2 else u) := by
  rw [← (s.clock_frame t).panel] at due stays
  have lit : ((cold || hot || (s.clock t).panel.railFault || (s.clock t).panel.railLocked || (s.clock t).panel.powerStopped) &&
      (s.clock t).panel.flight.isEmpty) = false := by
    rw [Bool.and_eq_false_iff, List.isEmpty_eq_false_iff]
    exact stays.symm
  refine (runPanel_next _ on optP).trans (congrArg Host.Outcome.next ?_)
  dsimp only
  rw [if_neg (by simpa using due), isCold, isHot]
  simp only [PanelState.deferred, lit, Bool.false_eq_true, if_false]

end

/-- Settles O59: each command's lemma; a limit that a temperature does not pass leaves its flag as it was. -/
theorem panelSupervision : Obligations.PanelSupervision := by
  unfold Obligations.PanelSupervision
  intro s t on optP
  have panel : (s.clock t).panel = s.panel := (s.clock_frame t).panel
  refine ⟨fun rails first => ?first, fun a rails last within => ?again, fun a fault free last due => execRailRetry_due on optP fault free last due,
    fun k read early => execPanelTemperature_early on optP read early,
    fun due => ⟨fun k low high free => ?within, fun k low cold hot flies => ?cold, fun k above below cold hot flies => ?resumes,
      fun k high cold hot flies => ?hot⟩,
    fun early => execPanelCrcCheck_early on optP early, fun due none_ first differs => ?check⟩
  case first =>
    rw [← PanelState.railFaulted_eq]
    exact execRailFault_first on optP rails first
  case again =>
    rw [← PanelState.railFaulted_eq]
    exact execRailFault_again on optP rails last within
  case within =>
    simp only [PanelState.deferred, Bool.or_eq_false_iff] at free
    obtain ⟨⟨⟨⟨cold, hot⟩, fault⟩, locked⟩, stopped⟩ := free
    rw [← panel] at cold hot
    refine (execPanelTemperature_due on optP (cold := (s.clock t).panel.deferredCold) (hot := (s.clock t).panel.deferredHot) due ?_ ?_
      (.inr ?_)).trans ?_
    · simp [cold, low]
    · simp [hot, high]
    · simp [cold, hot, fault, locked, stopped]
    · simp only [bne_self_eq_false, Bool.false_eq_true, if_false]
  case cold =>
    rw [← panel] at cold hot
    refine (execPanelTemperature_due on optP (cold := true) (hot := (s.clock t).panel.deferredHot) due ?_ ?_ (.inl flies)).trans ?_
    · simp [cold, low]
    · simp only [hot]; simp; omega
    · simp only [bne_self_eq_false, cold, Bool.false_eq_true, if_false, Bool.bne_false, if_true]
  case resumes =>
    rw [← panel] at cold hot
    refine (execPanelTemperature_due on optP (cold := false) (hot := (s.clock t).panel.deferredHot) due ?_ ?_ (.inl flies)).trans ?_
    · simp [cold, above]
    · simp [hot, below]
    · simp only [bne_self_eq_false, cold, Bool.false_eq_true, if_false, Bool.bne_true, Bool.not_false, if_true]
  case hot =>
    rw [← panel] at cold hot
    refine (execPanelTemperature_due on optP (cold := (s.clock t).panel.deferredCold) (hot := true) due ?_ ?_ (.inl flies)).trans ?_
    · simp only [cold]; simp; omega
    · simp [hot, high]
    · simp only [bne_self_eq_false, hot, Bool.false_eq_true, if_false, Bool.bne_false, if_true]
  case check =>
    exact (execPanelCrcCheck_due on optP due none_ first).trans (congrArg Host.Outcome.next (State.panelChecked_differs differs))

end Sys2Proof.Machine
end

section
/-! Frame memory (spec/19_front_panel_display.md, R644, R645, R660): what a rectangle that is painted reads, and what the end of a waveform
leaves of both memories. -/

namespace Sys2Proof.Machine
set_option Elab.async false

/-! ## Writes at distinct addresses -/

/-- Of writes at distinct addresses of the panel, each is read back. -/
theorem Memory.get_foldl_written {level : Nat → Nat → Byte} {p : Nat × Nat} (inside : p.1 < panelPixels) :
    ∀ {ps : List (Nat × Nat)} {m : List Host.Cell}, Memory.wf m = true → (ps.map Prod.fst).Nodup → p ∈ ps →
      Memory.get (ps.foldl (fun m p => Memory.set m p.1 (level p.1 p.2)) m) p.1 = level p.1 p.2
  | q :: ps, m, canonical, distinct, written => by
    rw [List.map_cons, List.nodup_cons] at distinct
    obtain ⟨once, distinct⟩ := distinct
    rw [List.foldl_cons]
    rcases List.mem_cons.mp written with rfl | later
    · rw [Memory.get_foldl_other (Memory.set_wf _ _ canonical) fun q later same => once (List.mem_map.mpr ⟨q, later, same⟩),
        Memory.get_set _ _ inside canonical, if_pos rfl]
    · exact Memory.get_foldl_written inside (Memory.set_wf _ _ canonical) distinct later

/-! ## The addresses of a rectangle -/

section
variable {x y w h : Nat}

theorem mem_rectAddresses {a : Nat} (here : a ∈ rectAddresses x y w h) : ∃ i j, i < h ∧ j < w ∧ a = (y + i) * 400 + x + j := by
  obtain ⟨k, inside, rfl⟩ := List.mem_map.mp here
  rw [List.mem_range] at inside
  have wide : 0 < w := Nat.pos_of_mul_pos_right (Nat.zero_lt_of_lt inside)
  exact ⟨k / w, k % w, Nat.div_lt_of_lt_mul inside, Nat.mod_lt _ wide, rfl⟩

theorem rectAddresses_getElem? {i j : Nat} (row : i < h) (column : j < w) :
    (rectAddresses x y w h)[i * w + j]? = some ((y + i) * 400 + x + j) := by
  have inside : i * w + j < w * h := by
    calc i * w + j < i * w + w := by omega
      _ = (i + 1) * w := by ring
      _ ≤ h * w := Nat.mul_le_mul_right _ row
      _ = w * h := Nat.mul_comm _ _
  have rowOf : (i * w + j) / w = i := by
    rw [Nat.mul_comm, Nat.mul_add_div (by omega), Nat.div_eq_of_lt column, Nat.add_zero]
  have columnOf : (i * w + j) % w = j := by rw [Nat.mul_comm, Nat.mul_add_mod, Nat.mod_eq_of_lt column]
  rw [rectAddresses, List.getElem?_map, List.getElem?_range inside, Option.map_some, rowOf, columnOf]

/-- A rectangle inside the panel's width has no address twice. -/
theorem rectAddresses_nodup (fits : x + w ≤ 400) : (rectAddresses x y w h).Nodup := by
  refine List.nodup_range.map_on fun k inside k' inside' same => ?_
  rw [List.mem_range] at inside inside'
  have wide : 0 < w := Nat.pos_of_mul_pos_right (Nat.zero_lt_of_lt inside)
  have column := Nat.mod_lt k wide
  have column' := Nat.mod_lt k' wide
  have rows : k / w = k' / w := by omega
  have columns : k % w = k' % w := by omega
  rw [← Nat.div_add_mod k w, ← Nat.div_add_mod k' w, rows, columns]

end

/-! ## What is painted -/

section
variable {m : List Host.Cell} {r : PnlRequest} {level : Nat → Nat → Byte} (canonical : Memory.wf m = true)
include canonical

theorem Memory.get_paint_inside {i j : Nat} (width : r.x + r.w ≤ 400) (height : r.y + r.h ≤ 300) (row : i < r.h) (column : j < r.w) :
    Memory.get (Memory.paint m r level) ((r.y + i) * 400 + r.x + j) = level ((r.y + i) * 400 + r.x + j) (i * r.w + j) := by
  have distinct : (((rectAddresses r.x r.y r.w r.h).zipIdx).map Prod.fst).Nodup := by
    rw [List.zipIdx_map_fst]
    exact rectAddresses_nodup width
  exact Memory.get_foldl_written (p := ((r.y + i) * 400 + r.x + j, i * r.w + j)) (show _ < 120000 by dsimp only; omega) canonical distinct
    (List.mem_zipIdx_iff_getElem?.mpr (rectAddresses_getElem? row column))

theorem Memory.get_paint_outside {a : Nat} (outside : ∀ i j : Nat, i < r.h → j < r.w → a ≠ (r.y + i) * 400 + r.x + j) :
    Memory.get (Memory.paint m r level) a = Memory.get m a := by
  refine Memory.get_foldl_other canonical fun p written same => ?_
  obtain ⟨i, j, row, column, address⟩ := mem_rectAddresses (List.fst_mem_of_mem_zipIdx written)
  exact outside i j row column (same.symm.trans address)

end

/-! ## The end of a waveform -/

section
variable {s : State}

theorem State.panelChecked_memories (crc value : Word) :
    (s.panelChecked crc value).panel.frame = s.panel.frame ∧ (s.panelChecked crc value).panel.image = s.panel.image := by
  by_cases same : crc = value
  · subst same
    rw [State.panelChecked_agrees]
    exact ⟨rfl, rfl⟩
  · rw [State.panelChecked_differs same, (State.raise_frame _ _ _ _ _ _ _).panel]
    exact ⟨rfl, rfl⟩

theorem State.panelChecks_memories : s.panelChecks.panel.frame = s.panel.frame ∧ s.panelChecks.panel.image = s.panel.image := by
  have checks : ∀ (waiting : List (Option Word)) (w : State),
      (waiting.foldl State.panelCheck w).panel.frame = w.panel.frame ∧ (waiting.foldl State.panelCheck w).panel.image = w.panel.image := by
    intro waiting
    induction waiting with
    | nil => exact fun w => ⟨rfl, rfl⟩
    | cons against waiting ih =>
      intro w
      have here := State.panelChecked_memories (s := w) (Memory.crc w.panel.frame) (against.getD (Memory.crc w.panel.image))
      rw [← State.panelCheck_eq] at here
      exact ⟨(ih _).1.trans here.1, (ih _).2.trans here.2⟩
  unfold State.panelChecks
  split
  · exact checks _ _
  · exact ⟨rfl, rfl⟩

/-- Both memories of the panel are in canonical form. -/
def PanelState.Canonical (p : PanelState) : Prop := Memory.wf p.frame = true ∧ Memory.wf p.image = true

/-- What an effect of PNL keeps, its row keeps, with and without power and option P. -/
theorem runPanel_keeps {P : PanelState → Prop} {t : Nat} {f : State → State} (kept : ∀ u : State, P u.panel → P (f u).panel)
    (holds : P s.panel) : ∃ u : State, runPanel t s f = .next u ∧ P u.panel := by
  rw [← (s.clock_frame t).panel] at holds
  by_cases on : Powered s
  · refine ⟨_, runPowered_next _ on, ?_⟩
    split
    · exact kept _ holds
    · exact holds
  · exact ⟨_, runPowered_off _ on, holds⟩

theorem execWaveformEnd_canonical (t : Nat) (i : Fin 4) (canonical : s.panel.Canonical) :
    ∃ u : State, execWaveformEnd t i s = .next u ∧ u.panel.Canonical := by
  refine runPanel_keeps (fun u canonical => ?_) canonical
  dsimp only
  obtain ⟨frame, image⟩ := canonical
  split
  · exact ⟨frame, image⟩
  · split
    · exact ⟨frame, image⟩
    · unfold PanelState.Canonical
      rw [State.panelChecks_memories.1, State.panelChecks_memories.2]
      dsimp only
      refine ⟨Memory.paint_wf _ _ frame, ?_⟩
      split
      · exact image
      · exact Memory.paint_wf _ _ image

end

/-- Settles O60: a rectangle's addresses are distinct, so each pixel reads its own level, and two memories in canonical form that read alike
are equal. -/
theorem frameMemoryIsWrittenByRectangle : Obligations.FrameMemoryIsWrittenByRectangle := by
  unfold Obligations.FrameMemoryIsWrittenByRectangle
  intro m r level canonical width height
  refine ⟨Memory.paint_wf r level canonical, fun i j row column => Memory.get_paint_inside canonical width height row column,
    fun a outside => Memory.get_paint_outside canonical outside, fun m' canonical' same => Memory.ext_of_get canonical canonical' same,
    fun s t i frame image => ?_⟩
  obtain ⟨u, next, kept⟩ := execWaveformEnd_canonical t i ⟨frame, image⟩
  exact ⟨u, next, fun _ => kept⟩

end Sys2Proof.Machine
end

section
/-! Signing (spec/17_incident_recorder_and_trust.md, R602, R603, R612): the first unsigned seal, and none while the entropy source is failed. -/

namespace Sys2Proof.Machine
set_option Elab.async false

theorem beNat_length (n v : Nat) : (beNat n v).length = n := by
  rw [beNat, List.length_map, List.length_range]

theorem ecdsaSign_length (d : Nat) (hash : List Byte) (nonce : Nat → BitVec 384) (draws : Nat) :
    (ecdsaSign d hash nonce draws).length = 96 := by
  induction draws with
  | zero => exact zeros_length 96
  | succ n ih =>
    unfold ecdsaSign
    dsimp only
    split
    · exact ih
    · rw [List.length_append, beNat_length, beNat_length]

/-- The signature that the next draw gives a message's hash (R603, R611). -/
def State.signature (s : State) (hash : List Byte) : List Byte :=
  ecdsaSign s.factory.deviceSecret hash (Config.signNonce s.free) signDraws

theorem State.signature_length (s : State) (hash : List Byte) : (s.signature hash).length = 96 := ecdsaSign_length _ _ _ _

/-- A seal with its signature; one made before the last start is signed late. -/
def State.signed (s : State) (i : Nat) (b : Seal) : Seal :=
  { b with sig := s.signature (sha384 b.head), signState := if i < s.recorder.sealsAtStart then 2 else 1 }

/-- What signing a seal leaves, but for its report. -/
def State.withSigned (s : State) (i : Nat) (b : Seal) : State :=
  { s with free := s.free + 1, recorder.seals := s.recorder.seals.set i (s.signed i b),
           recorder.counters := if i < s.recorder.sealsAtStart then upd s.recorder.counters 3 sat32 else s.recorder.counters }

theorem State.withSigned_frame (s : State) (i : Nat) (b : Seal) : FrameBut [.recorder, .free] s (s.withSigned i b) := by
  intro p other
  cases p with
  | recorder | free => exact absurd (by decide) other
  | _ => rfl

theorem updL_of_getElem? {α : Type} {l : List α} {i : Nat} {x : α} (f : α → α) (here : l[i]? = some x) : updL l i f = l.set i (f x) := by
  rw [updL, List.modify_eq_set_getElem?, here]
  rfl

theorem State.signSeal_eq {s : State} {i : Nat} {b : Seal} (here : s.recorder.seals[i]? = some b) :
    s.signSeal i = (s.withSigned i b).raiseN 115 b.blockSeq := by
  unfold State.signSeal
  rw [here]
  dsimp only [State.draw]
  rw [updL_of_getElem? _ here]
  simp only [decide_eq_true_eq]
  rfl

section
variable {s : State} {t : Nat} (on : Powered s)
include on

/-- The first unsigned seal is the one that is signed. -/
theorem execSealSigned_first {i : Nat} {b : Seal} (entropy : s.trust.entropyFail = false) (still : s.recorder.geyserRunning = false)
    (writes : s.recorder.stopped = false) (here : s.recorder.seals[i]? = some b) (unsigned : b.signState = 0)
    (first : ∀ j < i, ∀ x, s.recorder.seals[j]? = some x → x.signState ≠ 0) :
    execSealSigned t s = .next (((s.clock t).withSigned i b).raiseN 115 b.blockSeq) := by
  have frame := s.clock_frame t
  rw [← frame.trust] at entropy
  rw [← frame.recorder] at still writes here first
  have found : (s.clock t).recorder.seals.findIdx? (fun b => b.signState == 0) = some i := by
    obtain ⟨inside, rfl⟩ := List.getElem?_eq_some_iff.mp here
    refine List.findIdx?_eq_some_iff_getElem.mpr ⟨inside, by simpa using unsigned, fun j before => ?_⟩
    simpa using first j before _ (List.getElem?_eq_getElem _)
  rw [execSealSigned, runPowered_next _ on]
  simp only [entropy, still, writes, found, Bool.or_self, Bool.false_eq_true, if_false]
  rw [State.signSeal_eq here]

theorem execSealSigned_none (signed : ∀ x ∈ s.recorder.seals, x.signState ≠ 0) : execSealSigned t s = .next (s.clock t) := by
  rw [← (s.clock_frame t).recorder] at signed
  have found : (s.clock t).recorder.seals.findIdx? (fun b => b.signState == 0) = none :=
    List.findIdx?_eq_none_iff.mpr fun x held => by simpa using signed x held
  rw [execSealSigned, runPowered_next _ on]
  simp only [found, ite_self]

theorem execSealSigned_barred (barred : s.trust.entropyFail = true ∨ s.recorder.geyserRunning = true ∨ s.recorder.stopped = true) :
    execSealSigned t s = .next (s.clock t) := by
  have frame := s.clock_frame t
  rw [← frame.trust, ← frame.recorder] at barred
  exact (runPowered_next _ on).trans (congrArg Host.Outcome.next (if_pos (by simpa [or_assoc] using barred)))

theorem execEntropyFail_next : execEntropyFail t s = .next { s.clock t with trust.entropyFail := true } := runPowered_next _ on

theorem execEntropyPass_next : execEntropyPass t s = .next { s.clock t with trust.entropyFail := false } := runPowered_next _ on

end

/-- Settles O50: what signing leaves is `State.withSigned`, whose signature has 96 bytes for every key and draw. -/
theorem sealsAreSignedInOrder : Obligations.SealsAreSignedInOrder := by
  unfold Obligations.SealsAreSignedInOrder
  intro s t on
  refine ⟨fun i b entropy still writes here unsigned first => ?_, execSealSigned_none on, execSealSigned_barred on,
    execEntropyFail_next on, execEntropyPass_next on⟩
  refine ⟨_, _, execSealSigned_first on entropy still writes here unsigned first, ?_, State.signature_length (s.clock t) (sha384 b.head), ?_,
    State.withSigned_frame _ _ _⟩
  · rw [← (s.clock_frame t).recorder]
    rfl
  · rw [← (s.clock_frame t).recorder]
    rfl

end Sys2Proof.Machine
end

section
/-! Flushes (spec/17_incident_recorder_and_trust.md, R595-R599, R602, R604): what copying RAM to the store and sealing its open block leave. -/

namespace Sys2Proof.Machine
set_option Elab.async false

/-! ## A WRITE that is refused, exactly -/

/-- A ready WRITE that its object refuses is answered, and nothing else happens. -/
theorem hostWrite_refused_next {s w : State} {t : Nat} {req : Request} {obj : Word} {v : List Byte} {act : WriteCtx → State → Done}
    {st : Status} {b : List Byte} (ready : Ready s t req 0x11 (writeBody obj v)) (no : st ≠ .ok)
    (refuses : act (s.hostCtx req) (s.atWrite t req obj v) = refuse st w b) :
    runHost t s (fun s => s.hostWrite req obj v act) = .next (((s.clock t).taken req 0x11 none).respond req 0x11 st
      (be32 obj ++ be32 ((s.atWrite t req obj v).refusalDetail st))) := by
  have unbarred := ready.unbarred
  have queue : (s.clock t).qcp = s.qcp := (s.clock_frame t).qcp
  have answer : State.writeAct req obj (fun c => act { c with arrived := (s.clock t).qcp.queue.head?.map (·.at_) }) (s.atWrite t req obj v) =
      refuse st w (be32 obj ++ be32 ((s.atWrite t req obj v).refusalDetail st)) := by
    unfold State.hostCtx at refuses
    rw [State.writeAct]
    simp only [unbarred, queue, refuses, Bool.false_eq_true, if_false]
    cases st with
    | ok => exact absurd rfl no
    | _ => rfl
  refine (runHost_next _ ready.running ready.started).trans (congrArg Host.Outcome.next ?_)
  unfold State.hostWrite
  unfold State.atWrite at answer unbarred
  rw [State.serve_refused (t := t) _ _ ready.clock (fun _ => unbarred) (by rw [answer]; exact no) (by rw [answer]; rfl)
    (by rw [answer]; rfl), answer]
  rfl

/-! ## The store -/

section
variable {r : RecorderState} {tb3 : Nat} {key : List Byte} {geyser : Bool} {x : Record}

theorem RecorderState.seal_openBlock : (r.seal tb3 key geyser).openBlock = [] := by
  unfold RecorderState.seal
  split
  next empty => exact empty
  next => rfl

theorem RecorderState.seal_stored : (r.seal tb3 key geyser).stored = r.stored := by
  unfold RecorderState.seal
  split
  · rfl
  · simp [RecorderState.stored]

theorem RecorderState.seal_lost : (r.seal tb3 key geyser).lost = r.lost := by
  unfold RecorderState.seal
  split <;> rfl

theorem RecorderState.seal_flushTail : (r.seal tb3 key geyser).flushTail = r.flushTail := by
  unfold RecorderState.seal
  split <;> rfl

theorem RecorderState.copy_full (full : r.full = true) : r.copy tb3 key geyser x = { r with lost := r.lost + 1 } := by
  rw [RecorderState.copy, if_pos full]

/-- A copy to a store that is not full, with the block it fills sealed. -/
theorem RecorderState.copy_room (room : r.full = false) : (r.copy tb3 key geyser x).stored = r.stored ++ [x] ∧
    (r.copy tb3 key geyser x).lost = r.lost := by
  rw [RecorderState.copy, if_neg (by simp [room])]
  dsimp only
  split
  · rw [RecorderState.seal_stored, RecorderState.seal_lost]
    exact ⟨(List.append_assoc _ _ _).symm, rfl⟩
  · exact ⟨(List.append_assoc _ _ _).symm, rfl⟩

/-- Blocks and open records together grow by one at most. -/
theorem RecorderState.copy_grows (room : r.full = false) (space : r.store.length + 1 < 8192) : (r.copy tb3 key geyser x).full = false ∧
    (r.copy tb3 key geyser x).store.length + (r.copy tb3 key geyser x).openBlock.length ≤ r.store.length + r.openBlock.length + 1 := by
  rw [RecorderState.copy, if_neg (by simp [room])]
  dsimp only
  split
  · unfold RecorderState.seal
    split
    next empty => exact absurd empty (by simp)
    next =>
      dsimp only
      rw [List.length_append, List.length_singleton, List.length_nil]
      exact ⟨decide_eq_false (by omega), by omega⟩
  · exact ⟨room, by simp; omega⟩

theorem RecorderState.copy_flushTail : (r.copy tb3 key geyser x).flushTail = r.flushTail := by
  unfold RecorderState.copy
  split
  · rfl
  · dsimp only
    split
    · exact RecorderState.seal_flushTail
    · rfl

end

/-- Records copied to the store, oldest first. -/
def RecorderState.copyAll (tb3 : Nat) (key : List Byte) (geyser : Bool) (l : List Record) (r : RecorderState) : RecorderState :=
  l.foldl (fun r x => r.copy tb3 key geyser x) r

section
variable {tb3 : Nat} {key : List Byte} {geyser : Bool} {l : List Record}

theorem RecorderState.copyAll_room {r : RecorderState} (room : r.full = false)
    (space : r.store.length + r.openBlock.length + l.length < 8192) :
    (copyAll tb3 key geyser l r).stored = r.stored ++ l ∧ (copyAll tb3 key geyser l r).lost = r.lost := by
  induction l generalizing r with
  | nil => exact ⟨(List.append_nil _).symm, rfl⟩
  | cons x l ih =>
    rw [List.length_cons] at space
    obtain ⟨stored, lost⟩ := r.copy_room (tb3 := tb3) (key := key) (geyser := geyser) (x := x) room
    obtain ⟨still, grows⟩ := r.copy_grows (tb3 := tb3) (key := key) (geyser := geyser) (x := x) room (by omega)
    obtain ⟨storedAll, lostAll⟩ := ih still (by omega)
    exact ⟨storedAll.trans (by rw [stored, List.append_assoc]; rfl), lostAll.trans lost⟩

theorem RecorderState.copyAll_full {r : RecorderState} (full : r.full = true) :
    (copyAll tb3 key geyser l r).lost = r.lost + l.length := by
  induction l generalizing r with
  | nil => rfl
  | cons x l ih =>
    rw [copyAll, List.foldl_cons, RecorderState.copy_full full]
    refine (ih (r := { r with lost := r.lost + 1 }) full).trans ?_
    rw [List.length_cons]
    dsimp only
    omega

theorem RecorderState.copyAll_kept {r : RecorderState} :
    (copyAll tb3 key geyser l r).ram = r.ram ∧ (copyAll tb3 key geyser l r).flushTail = r.flushTail := by
  induction l generalizing r with
  | nil => exact ⟨rfl, rfl⟩
  | cons x l ih => exact ⟨ih.1.trans RecorderState.copy_ram, ih.2.trans RecorderState.copy_flushTail⟩

end

/-! ## FLUSH_DONE -/

/-- Every record of RAM is in the store, and its block is sealed. -/
def State.allSealed (w : State) : State := (w.copyRam false).2.sealOpen false

/-- The recorder then. -/
def State.flushedRecorder (w : State) : RecorderState :=
  (RecorderState.copyAll w.tb3 w.factory.deviceKey false w.recorder.uncopied
    { w.recorder with ram := w.recorder.ram.map fun x => (x.1, true) }).seal w.tb3 w.factory.deviceKey false

theorem State.allSealed_eq (w : State) : w.allSealed = { w with recorder := w.flushedRecorder } := rfl

/-- What the end of a flush leaves, but for its report. -/
def State.flushed (w : State) (trigger : BitVec 8) (rest : List (BitVec 8)) : State :=
  { w.allSealed with
      recorder.flushing := rest, recorder.flushAt := w.allSealed.now, recorder.counters := upd w.allSealed.recorder.counters 0 sat32,
      recorder.window := if trigger == 1 && w.allSealed.recorder.flushTail * second != 0 then
        some (w.allSealed.now + w.allSealed.recorder.flushTail * second) else w.allSealed.recorder.window }

theorem State.flushed_frame (w : State) (trigger : BitVec 8) (rest : List (BitVec 8)) : FrameBut [.recorder] w (w.flushed trigger rest) :=
  frame_set_recorder w _

/-- Of the store, its counts and RAM the report of a flush finds what copying and sealing leave. -/
theorem State.flushed_recorder (w : State) (trigger : BitVec 8) (rest : List (BitVec 8)) :
    (w.flushed trigger rest).recorder.stored = w.flushedRecorder.stored ∧ (w.flushed trigger rest).recorder.lost = w.flushedRecorder.lost ∧
      (w.flushed trigger rest).recorder.ram = w.flushedRecorder.ram ∧
      (w.flushed trigger rest).recorder.openBlock = w.flushedRecorder.openBlock := ⟨rfl, rfl, rfl, rfl⟩

theorem State.flushed_ram (w : State) (trigger : BitVec 8) (rest : List (BitVec 8)) :
    (w.flushed trigger rest).recorder.ram = w.recorder.ram.map fun x => (x.1, true) :=
  RecorderState.seal_ram.trans RecorderState.copyAll_kept.1

/-- The end of an F1 flush opens the window (R597). -/
theorem State.flushed_window (w : State) (rest : List (BitVec 8)) (tail : w.recorder.flushTail ≠ 0) :
    (w.flushed 1 rest).recorder.window = some (w.now + w.recorder.flushTail * second) := by
  have kept : w.allSealed.recorder.flushTail = w.recorder.flushTail :=
    RecorderState.seal_flushTail.trans RecorderState.copyAll_kept.2
  have lasts : w.recorder.flushTail * second ≠ 0 := Nat.mul_ne_zero tail (by decide)
  rw [State.flushed, kept, if_pos (by simpa using lasts)]
  rfl

theorem State.flushed_room {w : State} (trigger : BitVec 8) (rest : List (BitVec 8)) (room : w.recorder.full = false)
    (space : w.recorder.store.length + w.recorder.openBlock.length + w.recorder.uncopied.length < 8192) :
    (w.flushed trigger rest).recorder.stored = w.recorder.stored ++ w.recorder.uncopied ∧
      (w.flushed trigger rest).recorder.lost = w.recorder.lost := by
  obtain ⟨stored, lost⟩ := RecorderState.copyAll_room (tb3 := w.tb3) (key := w.factory.deviceKey) (geyser := false)
    (r := { w.recorder with ram := w.recorder.ram.map fun x => (x.1, true) }) (l := w.recorder.uncopied) room space
  obtain ⟨storedHere, lostHere, -, -⟩ := w.flushed_recorder trigger rest
  rw [storedHere, lostHere]
  exact ⟨RecorderState.seal_stored.trans stored, RecorderState.seal_lost.trans lost⟩

theorem State.flushed_full {w : State} (trigger : BitVec 8) (rest : List (BitVec 8)) (full : w.recorder.full = true) :
    (w.flushed trigger rest).recorder.lost = w.recorder.lost + w.recorder.uncopied.length := by
  rw [(w.flushed_recorder trigger rest).2.1]
  exact RecorderState.seal_lost.trans (RecorderState.copyAll_full (r := { w.recorder with ram := w.recorder.ram.map fun x => (x.1, true) }) full)

theorem State.copyRam_count (w : State) (trigger : BitVec 8) (rest : List (BitVec 8)) :
    (w.copyRam false).1 = (w.flushed trigger rest).recorder.stored.length - w.recorder.stored.length :=
  congrArg (fun l : List Record => l.length - w.recorder.stored.length) RecorderState.seal_stored.symm

section
variable {s : State} {t : Nat} (on : Powered s)
include on

theorem execFlushDone_ends {trigger : BitVec 8} {rest : List (BitVec 8)} (flushes : s.recorder.flushing = trigger :: rest)
    (due : s.recorder.flushAt + 320 * s.recorder.uncopied.length ≤ (s.clock t).now) :
    execFlushDone t s = .next (State.raiseN ((s.clock t).flushed trigger rest) 112 trigger.toNat
      (some (((s.clock t).flushed trigger rest).recorder.stored.length - s.recorder.stored.length))) := by
  rw [← (s.clock_frame t).recorder] at flushes due ⊢
  refine (runPowered_next _ on).trans (congrArg Host.Outcome.next ?_)
  dsimp only
  rw [flushes]
  dsimp only
  rw [if_neg (by omega), State.copyRam_count _ trigger rest]
  generalize ((s.clock t).flushed trigger rest).recorder.stored.length - (s.clock t).recorder.stored.length = n
  exact congrArg (fun v : State => v.raiseN 112 trigger.toNat (some n)) rfl

theorem execFlushDone_none (none_ : s.recorder.flushing = []) : execFlushDone t s = .next (s.clock t) := by
  rw [← (s.clock_frame t).recorder] at none_
  refine (runPowered_next _ on).trans (congrArg Host.Outcome.next ?_)
  dsimp only
  rw [none_]

theorem execFlushDone_early (early : (s.clock t).now < s.recorder.flushAt + 320 * s.recorder.uncopied.length) :
    execFlushDone t s = .next (s.clock t) := by
  rw [← (s.clock_frame t).recorder] at early
  refine (runPowered_next _ on).trans (congrArg Host.Outcome.next ?_)
  dsimp only
  split
  · rfl
  · exact if_pos early

/-! ## FLUSH_WINDOW_END, REC_FULL and GEYSER_DONE -/

theorem execFlushWindowEnd_due {e : Nat} (opened : s.recorder.window = some e) (due : e ≤ (s.clock t).now) :
    execFlushWindowEnd t s = .next { State.sealOpen { s.clock t with recorder.window := none } false with
      hsk.geyserDepth := (s.clock t).hsk.depthNext.getD (s.clock t).hsk.geyserDepth, hsk.depthNext := none } := by
  rw [← (s.clock_frame t).recorder] at opened
  refine (runPowered_next _ on).trans (congrArg Host.Outcome.next ?_)
  dsimp only
  rw [opened]
  exact if_pos due

theorem execRecFull_raises (full : s.recorder.full = true) (once : s.recorder.fullRaised = false) :
    execRecFull t s = .next (State.raise { s.clock t with recorder.fullRaised := true } 113) := by
  rw [← (s.clock_frame t).recorder] at full once
  exact (runPowered_next _ on).trans (congrArg Host.Outcome.next (if_pos (by rw [full, once]; rfl)))

theorem execRecFull_silent (silent : s.recorder.full = false ∨ s.recorder.fullRaised = true) : execRecFull t s = .next (s.clock t) := by
  rw [← (s.clock_frame t).recorder] at silent
  exact (runPowered_next _ on).trans (congrArg Host.Outcome.next (if_neg (by rcases silent with h | h <;> rw [h] <;> simp)))

end

/-- The end of the geyser: its block is sealed, and REC writes no more. -/
def State.geyserSealed (w : State) : State :=
  { w.sealOpen true with
      recorder.geyserRunning := false, recorder.stopped := (w.sealOpen true).power.onHoldup,
      recorder.window := if (w.sealOpen true).power.onHoldup then some endless else none,
      recorder.counters := upd (w.sealOpen true).recorder.counters 0 sat32 }

/-- The seal that it made is signed. -/
def State.geyserSigned (w : State) : State :=
  if w.recorder.seals.length < w.geyserSealed.recorder.seals.length && !w.geyserSealed.trust.entropyFail then
    w.geyserSealed.signSeal w.recorder.seals.length
  else w.geyserSealed

/-- The header tells that the geyser has ended. -/
def State.geyserEnded (w : State) : State :=
  { w.geyserSigned with recorder.headerSeq := w.geyserSigned.recorder.nextSeq, recorder.headerGeyser := 2 }

theorem execGeyserDone_running {s : State} {t : Nat} (on : Powered s) (running : s.recorder.geyserRunning = true) :
    execGeyserDone t s = .next (State.raiseN (s.clock t).geyserEnded 112 2 (some (s.recorder.stored.length - s.recorder.geyserFrom))) := by
  rw [← (s.clock_frame t).recorder] at running ⊢
  refine (runPowered_next _ on).trans (congrArg Host.Outcome.next ?_)
  dsimp only
  rw [running, Bool.not_true, if_neg (by decide)]
  rfl

/-- REC writes no more, and no block is open. -/
structure RecorderState.Closed (r : RecorderState) : Prop where
  running : r.geyserRunning = false
  stopped : r.stopped = true
  openBlock : r.openBlock = []

theorem RecorderState.ageOut_openBlock {r : RecorderState} : r.ageOut.openBlock = r.openBlock := by
  unfold RecorderState.ageOut
  split <;> rfl

/-- A record that enters a stopped recorder stays in RAM. -/
theorem RecorderState.enter_openBlock {r : RecorderState} {tb3 depth : Nat} {key : List Byte} {x : Record} (stopped : r.stopped = true) :
    (r.enter tb3 key depth x).openBlock = r.openBlock := by
  unfold RecorderState.enter
  extract_lets live stamped numbered aged roomy entered
  have ram : live = false := by simp [live, stopped]
  have ages : aged.openBlock = r.openBlock := by
    unfold aged
    split
    · exact ageOut_openBlock
    · rfl
  have makesRoom : roomy.openBlock = aged.openBlock := by
    unfold roomy
    split
    · rfl
    · split
      · rfl
      · dsimp only
        split
        · rfl
        · split <;> rfl
  rw [ram, if_neg (by decide)]
  exact makesRoom.trans ages

theorem RecorderState.closed_kept : ReportKeeps RecorderState.Closed where
  enter {r} tb3 key depth x closed := by
    obtain ⟨running, stopped, openBlock⟩ := closed
    have same := r.enter_sameGeyser (tb3 := tb3) (key := key) (depth := depth) (x := x)
    exact ⟨same.running.trans running, same.stopped.trans stopped, (enter_openBlock stopped).trans openBlock⟩
  flush _ _ closed := ⟨closed.running, closed.stopped, closed.openBlock⟩

theorem ReportKeeps.raiseN {P : RecorderState → Prop} (kept : ReportKeeps P) {s : State} {n p0 p1 p2 p3} (h : P s.recorder) :
    P (s.raiseN n p0 p1 p2 p3).recorder := kept.raise h

theorem State.geyserEnded_closed {w : State} (holdup : w.power.onHoldup = true) : w.geyserEnded.recorder.Closed := by
  have sealed : w.geyserSealed.recorder.Closed := ⟨rfl, holdup, RecorderState.seal_openBlock⟩
  have signed : w.geyserSigned.recorder.Closed := by
    unfold State.geyserSigned
    split
    · cases here : w.geyserSealed.recorder.seals[w.recorder.seals.length]? with
      | none =>
        unfold State.signSeal
        rw [here]
        exact sealed
      | some b =>
        rw [State.signSeal_eq here]
        exact RecorderState.closed_kept.raiseN ⟨sealed.running, sealed.stopped, sealed.openBlock⟩
    · exact sealed
  exact ⟨signed.running, signed.stopped, signed.openBlock⟩

/-! ## REC_CONTROL (R598) -/

section
variable {w : State}

theorem State.recControl_flush (never : w.recorder.lastFlushWrite = none) (idle : w.recorder.flushing = [])
    (closed : w.recorder.window = none) :
    w.recControl [1] = done (State.startFlush { w with recorder.lastFlushWrite := some w.now } 3) := by
  simp only [State.recControl, checkValue, never, idle, closed]
  rfl

theorem State.recControl_busy {a : Nat} (last : w.recorder.lastFlushWrite = some a) (soon : w.now < a + 10 * second) :
    w.recControl [1] = refuse .busy w := by
  simp only [State.recControl, checkValue, last, soon, decide_true, if_true]
  rfl

end

/-- Settles O49: what copying leaves is `RecorderState.copyAll_room` and `RecorderState.copyAll_full`, and no report opens a block that the
geyser has sealed. -/
theorem flushesCopyAndSeal : Obligations.FlushesCopyAndSeal := by
  unfold Obligations.FlushesCopyAndSeal
  intro s t
  refine ⟨fun req ready => ⟨fun never idle closed => ?flush, fun a last soon => ?busy⟩, fun on => ⟨fun trigger rest flushes due => ?done_,
    fun e opened due => ?window, execFlushDone_none on, execFlushDone_early on, fun running holdup => ?geyser,
    execRecFull_raises on, execRecFull_silent on⟩⟩
  case flush => exact hostWrite_done (act := fun _ s => s.recControl [1]) ready (State.recControl_flush never idle closed)
  case busy =>
    exact hostWrite_refused_next (act := fun _ s => s.recControl [1]) (st := .busy) ready (by decide) (State.recControl_busy last soon)
  case done_ =>
    have frame := s.clock_frame t
    have ends := execFlushDone_ends on flushes due
    rw [← frame.recorder] at ends ⊢
    have ram := (s.clock t).flushed_ram trigger rest
    refine ⟨(s.clock t).flushed trigger rest, ends, State.flushed_room trigger rest, State.flushed_full trigger rest, fun x held => ?_, ?_,
      fun _ => ?_, rfl, fun f1 tail => ?_, State.flushed_frame _ _ _⟩
    · rw [ram] at held
      obtain ⟨y, -, rfl⟩ := List.mem_map.mp held
      rfl
    · rw [ram, List.map_map]
      rfl
    · obtain ⟨-, -, -, openBlock⟩ := (s.clock t).flushed_recorder trigger rest
      exact openBlock.trans RecorderState.seal_openBlock
    · subst f1
      exact State.flushed_window _ _ tail
  case window =>
    have frame := s.clock_frame t
    refine ⟨_, execFlushWindowEnd_due on opened due, ?_, RecorderState.seal_openBlock, ?_, ?_⟩
    · exact RecorderState.seal_sameGeyser.window
    · rw [← frame.recorder]
      exact RecorderState.seal_ram
    · exact ((frame_set_recorder _ _).append (frame_set_hsk _ _)).mono (by decide)
  case geyser =>
    have frame := s.clock_frame t
    rw [← frame.power] at holdup
    obtain ⟨stopped, closed, openBlock⟩ := State.geyserEnded_closed holdup
    exact ⟨_, execGeyserDone_running on running, stopped, closed, openBlock, rfl⟩

end Sys2Proof.Machine
end

section
/-! The store read and emptied (spec/17_incident_recorder_and_trust.md, R573, R604-R606), keys and attestation (R608, R609, R611, R565, R574). -/

namespace Sys2Proof.Machine
set_option Elab.async false

/-! ## Commands other than WRITE and READ, as SUP takes them (R563, R568) -/

section
variable {s u : State} {t op : Nat} {req : Request} {body b : List Byte} {r : Option (Word × List Byte)} {act : State → Done}
  (ready : Ready s t req op body)
include ready

theorem Ready.unbarredTaken : ((s.clock t).taken req op r).group.versionHold = false := by
  rw [(State.taken_frame (s.clock t) req op r ready.clock.report).group]
  exact ready.clock.version

theorem runHost_answered (answers : act ((s.clock t).taken req op r) = { state := u, body := b }) :
    runHost t s (fun s => s.serve req op body r act) = .next (u.respond req op .ok b) := by
  rw [runHost_next _ ready.running ready.started, State.serve_ok r act ready.clock (fun _ => ready.unbarredTaken) (by rw [answers])
    (by rw [answers]), answers]

theorem runHost_done (does : act ((s.clock t).taken req op r) = done u) :
    runHost t s (fun s => s.serve req op body r act) = .next (u.respond req op .ok []) := runHost_answered ready does

theorem runHost_refused {st : Status} (no : st ≠ .ok) (refuses : act ((s.clock t).taken req op r) = refuse st u b) :
    runHost t s (fun s => s.serve req op body r act) = .next (((s.clock t).taken req op none).respond req op st b) := by
  rw [runHost_next _ ready.running ready.started, State.serve_refused r act ready.clock (fun _ => ready.unbarredTaken)
    (by rw [refuses]; exact no) (by rw [refuses]; rfl) (by rw [refuses]; rfl), refuses]
  rfl

theorem runHost_deferred (defers : act ((s.clock t).taken req op r) = { state := u, deferred := true }) :
    runHost t s (fun s => s.serve req op body r act) = .next u := by
  rw [runHost_next _ ready.running ready.started, State.serve_deferred r act ready.clock ready.unbarredTaken (by rw [defers]), defers]

end

/-! ## REC_READ (R573, R606) -/

/-- The act of REC_READ. -/
def readRecords (req : Request) (first : Word) (count : BitVec 8) (s : State) : Done :=
  let limit := if req.dtls.isSome then 43 else 44
  checkValue (decide (1 ≤ count.toNat) && decide (count.toNat ≤ limit)) s fun _ =>
    let (head, tail) := s.recorder.headTail
    let from_ (x : Record) : Bool := decide ((first - head).toNat ≤ (x.seq - head).toNat)
    let xs := (s.recorder.stored.dropWhile fun x => !from_ x).take count.toNat
    { state := s, body := be32 head ++ be32 tail ++ nat32 s.recorder.lost ++ nat16 xs.length ++ zeros 2 ++ xs.flatMap Record.bytes }

/-- The records that a REC_READ answers. -/
def RecorderState.readFrom (r : RecorderState) (first : Word) (count : Nat) : List Record :=
  (r.stored.dropWhile fun x => decide ((x.seq - r.headTail.1).toNat < (first - r.headTail.1).toNat)).take count

/-- The body of its answer. -/
def RecorderState.readBody (r : RecorderState) (first : Word) (count : Nat) : List Byte :=
  be32 r.headTail.1 ++ be32 r.headTail.2 ++ nat32 r.lost ++ nat16 (r.readFrom first count).length ++ zeros 2 ++
    (r.readFrom first count).flatMap Record.bytes

section
variable {req : Request} {first : Word} {count : BitVec 8} {w : State}

theorem readRecords_ok (least : 1 ≤ count.toNat) (most : count.toNat ≤ if req.dtls.isSome then 43 else 44) :
    readRecords req first count w = { state := w, body := w.recorder.readBody first count.toNat } := by
  have before : (fun x : Record => !decide ((first - w.recorder.headTail.1).toNat ≤ (x.seq - w.recorder.headTail.1).toNat)) =
      fun x => decide ((x.seq - w.recorder.headTail.1).toNat < (first - w.recorder.headTail.1).toNat) := by
    funext x
    rw [← decide_not, decide_eq_decide, Nat.not_le]
  unfold readRecords checkValue
  rw [if_pos (by rw [decide_eq_true least, decide_eq_true most]; rfl)]
  dsimp only
  rw [before]
  rfl

theorem readRecords_refused (outside : count = 0 ∨ (if req.dtls.isSome then 43 else 44) < count.toNat) :
    readRecords req first count w = refuse .badValue w := by
  have no : (decide (1 ≤ count.toNat) && decide (count.toNat ≤ if req.dtls.isSome then 43 else 44)) = false := by
    rw [Bool.and_eq_false_iff, decide_eq_false_iff_not, decide_eq_false_iff_not]
    rcases outside with rfl | above
    · exact .inl (by decide)
    · exact .inr (by omega)
  exact if_neg (by rw [no]; exact Bool.false_ne_true)

end

/-! ## REC_REARM (R605) -/

/-- The store once it is emptied. -/
def State.rearmed (w : State) : State :=
  { w with recorder := { w.recorder with store := [], seals := [], openBlock := [], full := false, fullRaised := false, lost := 0,
                                         rearmFirst := true, rearms := w.recorder.rearms + 1, sealsAtStart := 0 },
           qcp.sources := [] }

theorem State.rearmed_frame (w : State) : FrameBut [.recorder, .qcp] w w.rearmed := by
  intro p other
  cases p with
  | recorder | qcp => exact absurd (by decide) other
  | _ => rfl

section
variable {w : State} {hash : List Byte} {newest : Seal}

theorem State.recRearm_empty (none_ : w.recorder.seals = []) : w.recRearm hash = refuse .badValue w := by
  unfold State.recRearm
  dsimp only
  rw [none_]
  rfl

theorem State.recRearm_other (last : w.recorder.seals.getLast? = some newest) (other : hash ≠ newest.hash) :
    w.recRearm hash = refuse .badValue w := by
  unfold State.recRearm checkValue
  dsimp only
  rw [last]
  exact if_neg (by simpa using other)

theorem State.unsigned_eq_zero (w : State) : w.unsigned = 0 ↔ ∀ x ∈ w.recorder.seals, x.signState ≠ 0 := by
  simp [State.unsigned]

theorem State.recRearm_busy (last : w.recorder.seals.getLast? = some newest) (known : hash = newest.hash)
    (busy : w.recorder.flushing ≠ [] ∨ w.recorder.window.isSome = true ∨ ∃ x ∈ w.recorder.seals, x.signState = 0) :
    w.recRearm hash = refuse .busy w := by
  have waits : (!w.recorder.flushing.isEmpty || w.recorder.window.isSome || w.unsigned != 0) = true := by
    rw [Bool.or_eq_true, Bool.or_eq_true, Bool.not_eq_true', List.isEmpty_eq_false_iff, or_assoc, bne_iff_ne, ne_eq w.unsigned,
      State.unsigned_eq_zero]
    push Not
    exact busy
  unfold State.recRearm checkValue
  dsimp only
  rw [last]
  dsimp only
  rw [if_pos (by simpa using known), if_pos waits]

theorem State.recRearm_empties (last : w.recorder.seals.getLast? = some newest) (known : hash = newest.hash)
    (idle : w.recorder.flushing = []) (closed : w.recorder.window = none) (signed : ∀ x ∈ w.recorder.seals, x.signState ≠ 0) :
    w.recRearm hash = done (State.startFlush (State.raise (w.rearmed.record 0x0004 0x0C
      (BitVec.ofNat 32 w.recorder.lost) (BitVec.ofNat 32 newest.blockSeq) (BitVec.ofNat 32 w.recorder.stored.length) 0 w.rearmed.tb3 true)
      114) 4) := by
  unfold State.recRearm checkValue
  dsimp only
  rw [last]
  dsimp only
  rw [if_pos (by simpa using known), if_neg (by simp [idle, closed, w.unsigned_eq_zero.mpr signed])]
  rfl

end

/-- Settles O51: REC_READ is `readRecords`, and REC_REARM the lemmas about `State.recRearm`. -/
theorem theStoreIsReadAndRearmed : Obligations.TheStoreIsReadAndRearmed := by
  unfold Obligations.TheStoreIsReadAndRearmed
  intro s t req
  refine ⟨fun first count ready => ⟨fun least most => ?read, fun outside => ?outside⟩, fun hash ready =>
    ⟨fun none_ => ?empty, fun newest last => ⟨fun other => ?other, fun known busy => ?busy, fun known idle closed signed => ?rearm⟩⟩⟩
  case read => exact runHost_answered (act := readRecords req first count) ready (readRecords_ok least most)
  case outside => exact runHost_refused (act := readRecords req first count) ready (by decide) (readRecords_refused outside)
  case empty =>
    exact hostWrite_refused_next (act := fun _ s => s.recRearm hash) (st := .badValue) ready (by decide) (State.recRearm_empty none_)
  case other =>
    exact hostWrite_refused_next (act := fun _ s => s.recRearm hash) (st := .badValue) ready (by decide) (State.recRearm_other last other)
  case busy =>
    exact hostWrite_refused_next (act := fun _ s => s.recRearm hash) (st := .busy) ready (by decide) (State.recRearm_busy last known busy)
  case rearm =>
    exact ⟨State.rearmed _, rfl, rfl, rfl, rfl, rfl, rfl, rfl, rfl, rfl, rfl, State.rearmed_frame _,
      hostWrite_done (act := fun _ s => s.recRearm hash) ready (State.recRearm_empties last known idle closed signed)⟩

end Sys2Proof.Machine
end

section
/-! Keys and attestation (spec/17_incident_recorder_and_trust.md, R608, R609, R611; spec/16_command_protocol.md, R565, R574). -/

namespace Sys2Proof.Machine
set_option Elab.async false

/-! ## ENROL of an owner key (R608, R609) -/

/-- The reserved fields and the count of a body that enrols an owner key. -/
structure EnrolFormed (w : State) (body : List Byte) : Prop where
  length : body.length = 252
  count : fieldAt body 104 4 = w.trust.enrolCount.toNat
  reserved : zeroAt body 1 3 = true ∧ zeroAt body 101 3 = true
  noImageKey : zeroAt body 108 48 = true

/-- The state with the owner key that is enrolled, and the record and report of it. -/
def State.withOwner (w : State) (op : Nat) (key : List Byte) : State :=
  let u : State := { w with trust.ownerKey := some key, trust.enrolCount := w.trust.enrolCount + 1 }
  let note := BitVec.ofNat 64 (fieldAt (sha384 key) 0 8)
  (u.record 0x0007 0x0D (BitVec.ofNat 32 op) (w.trust.enrolCount + 1) (note.extractLsb' 32 32) (note.extractLsb' 0 32) u.tb3).raise 117

theorem State.withOwner_trust (w : State) (op : Nat) (key : List Byte) : (w.withOwner op key).trust =
    { w.trust with ownerKey := some key, enrolCount := w.trust.enrolCount + 1 } := by
  unfold State.withOwner
  dsimp only
  rw [(State.raise_frame _ _ _ _ _ _ _).trust]
  rfl

/-- What an owner key brings that is enrolled. -/
def State.enrolOwner (w : State) (op : Nat) (key : List Byte) : Done :=
  { state := w.withOwner op key, body := sha384 key ++ be32 (w.trust.enrolCount + 1) }

section
variable {w : State} {body : List Byte}

theorem State.enrol_outside (mode : w.modes.mode ≠ .config) : w.enrol body = refuse .wrongMode w := by
  unfold State.enrol
  exact if_pos (bne_iff_ne.mpr mode)

theorem State.enrol_noEntropy (mode : w.modes.mode = .config) (failed : w.trust.entropyFail = true) : w.enrol body = refuse .busy w := by
  unfold State.enrol
  dsimp only
  rw [if_neg (by simp [mode]), if_pos failed]

variable (mode : w.modes.mode = .config) (entropy : w.trust.entropyFail = false) (formed : EnrolFormed w body)
include mode entropy formed

/-- The first owner key, with no signature: it is a point on the curve, or is refused. -/
theorem State.enrol_first (op : fieldAt body 0 1 = 1) (unsigned : zeroAt body 156 96 = true) (none_ : w.trust.ownerKey = none) :
    w.enrol body = if (curvePointOf (sliceAt body 4 97)).isSome then w.enrolOwner 1 (sliceAt body 4 97) else refuse .badValue w := by
  obtain ⟨length, count, ⟨r1, r2⟩, image⟩ := formed
  unfold State.enrol
  dsimp only
  rw [op, none_, if_neg (by simp [mode]), if_neg (by simp [entropy]), if_neg (by omega), if_neg (by decide)]
  cases curvePointOf (sliceAt body 4 97) with
  | none => rfl
  | some q =>
    rw [if_neg (by simp [count, r1, r2, image, unsigned])]
    rfl

/-- A change of owner: the new key is a point on the curve, and the owner has signed it, or it is refused. -/
theorem State.enrol_change {owner : List Byte} (op : fieldAt body 0 1 = 2) (held : w.trust.ownerKey = some owner) :
    w.enrol body = if (curvePointOf (sliceAt body 4 97)).isNone then refuse .badValue w
      else if ecdsaVerify owner (sha384 (body.take 156 ++ be64 w.factory.serial)) (sliceAt body 156 96) then
        w.enrolOwner 2 (sliceAt body 4 97)
      else refuse .notSigned w := by
  obtain ⟨length, count, ⟨r1, r2⟩, image⟩ := formed
  unfold State.enrol
  dsimp only
  rw [op, held, if_neg (by simp [mode]), if_neg (by simp [entropy]), if_neg (by omega), Option.isSome_some, if_neg (by decide)]
  cases curvePointOf (sliceAt body 4 97) with
  | none => rfl
  | some q =>
    rw [if_neg (by simp [count, r1, r2, image])]
    dsimp only
    by_cases signed : ecdsaVerify owner (sha384 (body.take 156 ++ be64 w.factory.serial)) (sliceAt body 156 96) = true
    · rw [if_neg (by simp [signed]), if_pos signed]
      rfl
    · rw [if_pos (by simp [signed]), if_neg signed]
      rfl

end

section
variable {s : State} {t : Nat} {req : Request} {body : List Byte} (ready : Ready s t req 0x33 body)
include ready

theorem execEnrol_refused {st : Status} (no : st ≠ .ok)
    (refuses : ((s.clock t).taken req 0x33 (some (0, []))).enrol body = refuse st ((s.clock t).taken req 0x33 (some (0, [])))) :
    execEnrol t req body s = .next (((s.clock t).taken req 0x33 none).respond req 0x33 st []) :=
  runHost_refused (act := State.enrol body) ready no refuses

theorem execEnrol_owner {op : Nat} {key : List Byte}
    (enrols : ((s.clock t).taken req 0x33 (some (0, []))).enrol body = ((s.clock t).taken req 0x33 (some (0, []))).enrolOwner op key) :
    ∃ u : State, execEnrol t req body s = .next u ∧
      Answered u req 0x33 .ok (sha384 key ++ be32 (((s.clock t).taken req 0x33 (some (0, []))).trust.enrolCount + 1)) ∧
      u.trust = { ((s.clock t).taken req 0x33 (some (0, []))).trust with
        ownerKey := some key, enrolCount := ((s.clock t).taken req 0x33 (some (0, []))).trust.enrolCount + 1 } := by
  refine ⟨State.respond (State.withOwner ((s.clock t).taken req 0x33 (some (0, []))) op key) req 0x33 .ok
    (sha384 key ++ be32 (((s.clock t).taken req 0x33 (some (0, []))).trust.enrolCount + 1)), ?_, Answered.respond _ _ _ _ _,
    (State.respond_frame _ _ _ _ _).trust.trans (State.withOwner_trust _ _ _)⟩
  exact runHost_answered (act := State.enrol body) ready enrols

end

/-! ## ATTEST and ATTEST_DONE (R565, R574, R611) -/

/-- The act of ATTEST. -/
def takeNonce (req : Request) (nonce : List Byte) (s : State) : Done :=
  checkValue (nonce.length == 32 && nonce.any (· != 0)) s fun _ =>
    if s.qcp.deferredAttest.isSome then refuse .busy s
    else { state := { s with qcp.deferredAttest := some { req := req, opcode := 0x32, body := nonce },
                             qcp.deferredAt := (s.qcp.deferredAt.1, s.now), qcp.deferredTb3 := (s.qcp.deferredTb3.1, s.tb3) },
           deferred := true }

/-- The signed report leaves the module, as its record tells. -/
def State.attested (w : State) (k : Command) : State :=
  let p (i : Nat) : Word := BitVec.ofNat 32 (fieldAt k.body (4 * i) 4)
  let u := { w with free := w.free + 1, qcp.deferredAttest := none }
  (u.record 0x0008 0x0D (p 0) (p 1) (p 2) (p 3) u.tb3).raise 116

/-- Deferred work that ends OK is recorded, and then answered. -/
theorem State.complete_ok {w : State} {req : Request} {op time : Nat} {p0 : Word} {body : List Byte} :
    w.complete req op p0 time .ok body = (w.recordCommand req op p0 [] time).respond req op .ok body := by
  rw [State.complete, beq_self_eq_true, if_pos rfl]

theorem State.attested_trust (w : State) (k : Command) : (w.attested k).trust = w.trust := (State.raise_frame _ _ _ _ _ _ _).trust

section
variable {s : State} {t : Nat} {req : Request} {nonce : List Byte}

theorem takeNonce_refused {w : State} (bad : nonce.length ≠ 32 ∨ nonce.all (· == 0) = true) : takeNonce req nonce w = refuse .badValue w := by
  refine if_neg fun good => ?_
  rw [Bool.and_eq_true, beq_iff_eq] at good
  obtain ⟨length, some_⟩ := good
  rcases bad with other | zero
  · exact other length
  · obtain ⟨x, held, nonzero⟩ := List.any_eq_true.mp some_
    have zero := List.all_eq_true.mp zero x held
    rw [bne_iff_ne] at nonzero
    exact nonzero (beq_iff_eq.mp zero)

theorem takeNonce_good {w : State} (length : nonce.length = 32) (some_ : nonce.any (· != 0) = true) : takeNonce req nonce w =
    if w.qcp.deferredAttest.isSome then refuse .busy w
    else { state := { w with qcp.deferredAttest := some { req := req, opcode := 0x32, body := nonce },
                             qcp.deferredAt := (w.qcp.deferredAt.1, w.now), qcp.deferredTb3 := (w.qcp.deferredTb3.1, w.tb3) },
           deferred := true } :=
  if_pos (by rw [length, some_]; rfl)

/-- The work that is due ends in a report that answers the command. -/
theorem execAttestDone_due {k : Command} (on : Running s) (waits : s.qcp.deferredAttest = some k) (entropy : s.trust.entropyFail = false)
    (inTime : (s.clock t).now ≤ s.qcp.deferredAt.2 + 100 * ms) : execAttestDone t s =
      .next (((s.clock t).attested k).complete k.req 0x32 0 (s.clock t).qcp.deferredTb3.2 .ok
        ((s.clock t).attestation k.body ++ (s.clock t).signature (sha384 ((s.clock t).attestation k.body)))) := by
  have frame := s.clock_frame t
  rw [← frame.qcp] at waits inTime
  rw [← frame.trust] at entropy
  refine (runRunning_next _ on).trans (congrArg Host.Outcome.next ?_)
  dsimp only
  rw [waits]
  dsimp only
  rw [if_neg (by simp [entropy]; omega)]
  rfl

end

/-- Settles O52: ENROL by the lemmas about `State.enrol`, ATTEST by those about `takeNonce`, ATTEST_DONE by `execAttestDone_due`. -/
theorem keysAndAttestation : Obligations.KeysAndAttestation := by
  unfold Obligations.KeysAndAttestation
  intro s t req
  refine ⟨fun body ready => ?enrol, fun nonce ready => ?attest, fun on k waits entropy inTime => ?done_⟩
  case enrol =>
    intro w no key formed enrolled
    refine ⟨fun mode => ?outside, fun mode failed => ?noEntropy, fun mode entropy op shape unsigned none_ => ?first, fun owner mode entropy op shape held => ?change⟩
    case outside => exact execEnrol_refused ready (by decide) (State.enrol_outside mode)
    case noEntropy => exact execEnrol_refused ready (by decide) (State.enrol_noEntropy mode failed)
    case first =>
      obtain ⟨length, count, r1, r2, image⟩ := shape
      have enrols := State.enrol_first mode entropy ⟨length, count, ⟨r1, r2⟩, image⟩ op unsigned none_
      split
      next onCurve => exact execEnrol_owner ready (enrols.trans (if_pos onCurve))
      next off => exact execEnrol_refused ready (by decide) (enrols.trans (if_neg off))
    case change =>
      obtain ⟨length, count, r1, r2, image⟩ := shape
      have enrols := State.enrol_change mode entropy ⟨length, count, ⟨r1, r2⟩, image⟩ op held
      split
      next off => exact execEnrol_refused ready (by decide) (enrols.trans (if_pos off))
      next onCurve =>
        rw [if_neg onCurve] at enrols
        split
        next signed => exact execEnrol_owner ready (enrols.trans (if_pos signed))
        next unsigned => exact execEnrol_refused ready (by decide) (enrols.trans (if_neg unsigned))
  case attest =>
    intro w
    have waiting : w.qcp.deferredAttest = s.qcp.deferredAttest := by
      rw [← (s.clock_frame t).qcp]
      rfl
    rw [← waiting]
    refine ⟨fun length some_ free => ?taken, fun bad => ?bad, fun length some_ busy => ?busy⟩
    case taken =>
      exact runHost_deferred (act := takeNonce req nonce) ready ((takeNonce_good length some_).trans (if_neg (Option.not_isSome_iff_eq_none.mpr free)))
    case bad => exact runHost_refused (act := takeNonce req nonce) ready (by decide) (takeNonce_refused bad)
    case busy =>
      exact runHost_refused (act := takeNonce req nonce) ready (by decide) ((takeNonce_good length some_).trans (if_pos busy))
  case done_ =>
    refine ⟨_, _, execAttestDone_due on waits entropy inTime, State.signature_length (s.clock t) (sha384 ((s.clock t).attestation k.body)), ?_, ?_⟩
    · rw [State.complete_ok]
      exact Answered.respond _ _ _ _ _
    · rw [State.complete_ok, (State.respond_frame _ _ _ _ _).trust, (State.recordCommand_frame _ _ _ _ _ _).trust, State.attested_trust,
        (s.clock_frame t).trust]

end Sys2Proof.Machine
end

section
/-! The ageing monitors (spec/18_ageing_and_field_update.md, R616, R617, R621, R626): a sample, the end of a day, and the refresh of the
recorder's store. -/

namespace Sys2Proof.Machine
set_option Elab.async false

/-! ## FUMAROLE_SAMPLE (R616, R617) -/

/-- Only the clock bins of HSK change, and what a report may touch. -/
structure BinsOnly (s u : State) : Prop where
  frame : FrameBut ([.hsk] ++ reportParts) s u
  hsk : ∃ bins, u.hsk = { s.hsk with bins := bins }

section
variable {s : State}

theorem BinsOnly.refl : BinsOnly s s := ⟨FrameBut.refl _ _, s.hsk.bins, rfl⟩

theorem BinsOnly.trans {u v : State} (h : BinsOnly s u) (k : BinsOnly u v) : BinsOnly s v := by
  obtain ⟨_, before⟩ := h.hsk
  obtain ⟨bins, after⟩ := k.hsk
  exact ⟨h.frame.trans k.frame, bins, by rw [after, before]⟩

theorem State.setBin_binsOnly {i : Nat} {f : ClockBin → ClockBin} : BinsOnly s (s.setBin i f) :=
  ⟨(frame_set_hsk s _).mono (by decide), _, rfl⟩

theorem BinsOnly.of_reports {u : State} (h : FrameBut reportParts s u) : BinsOnly s u :=
  ⟨h.mono (by decide), s.hsk.bins, h.hsk⟩

theorem State.binLimit_binsOnly {i : Nat} {crossed upper : Bool} : BinsOnly s (s.binLimit i crossed upper) := by
  unfold State.binLimit
  exact .of_reports (State.raise_frame _ _ _ _ _ _ _)

theorem BinsOnly.ite {p : Prop} [Decidable p] {u v : State} (h : BinsOnly s u) (k : BinsOnly s v) : BinsOnly s (if p then u else v) := by
  split
  · exact h
  · exact k

theorem State.settleBin_binsOnly {i : Nat} : BinsOnly s (s.settleBin i) := by
  unfold State.settleBin
  exact .ite State.setBin_binsOnly (.ite .refl (.ite State.setBin_binsOnly (.ite .refl
    (State.setBin_binsOnly.trans State.binLimit_binsOnly))))

/-- A slack that was read enters its bin, which settles in its envelope. -/
def State.enterSlack (reading : Nat → Option F32) (s : State) (i : Nat) : State :=
  let s := match reading i with
    | some v => s.setBin i fun b => b.measure s.now s.hsk.aEq v
    | none => s
  s.settleBin i

theorem State.enterSlack_binsOnly {reading : Nat → Option F32} {i : Nat} : BinsOnly s (s.enterSlack reading i) := by
  unfold State.enterSlack
  cases reading i with
  | none => exact State.settleBin_binsOnly
  | some v => exact State.setBin_binsOnly.trans State.settleBin_binsOnly

theorem State.enterSlacks_binsOnly {reading : Nat → Option F32} {l : List Nat} : BinsOnly s (l.foldl (State.enterSlack reading) s) := by
  induction l generalizing s with
  | nil => exact .refl
  | cons i l ih => exact State.enterSlack_binsOnly.trans ih

end

/-- The module is 60 s older. -/
def State.aged (w : State) : State :=
  { w with hsk.sampledAt := w.now / (60 * second), hsk.aEq := F64.add w.hsk.aEq (ageStep w.baseplate),
           hsk.poweredTime := w.hsk.poweredTime + 60, hsk.samples := w.hsk.samples + 1 }

/-- What a sample reads of monitor `n`: the oscillator counts only while TB2 is LOCKED. -/
def State.monitorReading (w : State) (slacks others : List (Option F32)) (n : Nat) : Option F32 :=
  if n = 0x17 then some (F64.to32 (inYears w.hsk.aEq))
  else if n = 0x10 && !(w.time.tb[2].state == 2) then none
  else if n < 12 then slacks.getD n none
  else others.getD (n - 12) none

/-- The monitors of an aged module with what a sample reads of them. -/
def State.withSamples (w : State) (reading : Nat → Option F32) : State :=
  { w with hsk.monitors := w.hsk.monitors.mapIdx fun n m => match reading n with | some v => m.sample w.now v | none => m }

/-- Each tenth reading of the oscillator is a point of the 600 s series (R621). -/
def State.withOscillator (w : State) (read : Option F32) : State :=
  match read with
  | some v => if w.hsk.samples % 10 = 0 then
      { w with hsk.oscPoints := (w.hsk.oscPoints ++ [v]).drop (w.hsk.oscPoints.length + 1 - 4320) } else w
  | none => w

/-- What a sample leaves. -/
def State.fumaroleSampled (w : State) (slacks others : List (Option F32)) : State :=
  (List.range 12).foldl (State.enterSlack (w.aged.monitorReading slacks others))
    ((w.aged.withSamples (w.aged.monitorReading slacks others)).withOscillator (w.aged.monitorReading slacks others 0x10))

theorem execFumaroleSample_early {s : State} {t : Nat} (on : Powered s) {slacks others : List (Option F32)}
    (early : (s.clock t).now / (60 * second) ≤ s.hsk.sampledAt) : execFumaroleSample t slacks others s = .next (s.clock t) := by
  rw [← (s.clock_frame t).hsk] at early
  exact (runPowered_next _ on).trans (congrArg Host.Outcome.next (if_pos early))

theorem execFumaroleSample_due {s : State} {t : Nat} (on : Powered s) {slacks others : List (Option F32)}
    (due : s.hsk.sampledAt < (s.clock t).now / (60 * second)) :
    execFumaroleSample t slacks others s = .next ((s.clock t).fumaroleSampled slacks others) := by
  rw [← (s.clock_frame t).hsk] at due
  refine (runPowered_next _ on).trans (congrArg Host.Outcome.next ?_)
  refine (if_neg (by omega)).trans ?_
  unfold State.fumaroleSampled
  rfl

section
variable {w : State} {slacks others : List (Option F32)}

theorem State.withOscillator_hsk (read : Option F32) : ∃ points,
    (w.withOscillator read).hsk = { w.hsk with oscPoints := points } ∧ (read = none → points = w.hsk.oscPoints) := by
  unfold State.withOscillator
  cases read with
  | none => exact ⟨_, rfl, fun _ => rfl⟩
  | some v =>
    dsimp only
    split
    · exact ⟨_, rfl, fun none_ => nomatch none_⟩
    · exact ⟨_, rfl, fun _ => rfl⟩

theorem State.withOscillator_frame (read : Option F32) : FrameBut [.hsk] w (w.withOscillator read) := by
  unfold State.withOscillator
  split
  · split
    · exact frame_set_hsk w _
    · exact FrameBut.refl _ _
  · exact FrameBut.refl _ _

/-- What a sample writes of HSK but for the clock bins and the oscillator's points. -/
theorem State.fumaroleSampled_hsk : ∃ points bins, (w.fumaroleSampled slacks others).hsk =
    { (w.aged.withSamples (w.aged.monitorReading slacks others)).hsk with oscPoints := points, bins := bins } ∧
      (w.aged.monitorReading slacks others 0x10 = none → points = w.hsk.oscPoints) := by
  obtain ⟨points, oscillator, kept⟩ := State.withOscillator_hsk (w := w.aged.withSamples (w.aged.monitorReading slacks others))
    (w.aged.monitorReading slacks others 0x10)
  obtain ⟨bins, settled⟩ := (State.enterSlacks_binsOnly (reading := w.aged.monitorReading slacks others) (l := List.range 12)
    (s := (w.aged.withSamples (w.aged.monitorReading slacks others)).withOscillator (w.aged.monitorReading slacks others 0x10))).hsk
  exact ⟨points, bins, settled.trans (by rw [oscillator]), kept⟩

theorem State.fumaroleSampled_frame : FrameBut ([.hsk] ++ reportParts) w (w.fumaroleSampled slacks others) :=
  (((frame_set_hsk w _).append ((frame_set_hsk w.aged _).append (State.withOscillator_frame _))).mono (by decide)).trans
    State.enterSlacks_binsOnly.frame

theorem State.withSamples_read {reading : Nat → Option F32} {n : Fin 24} {v : F32} (read : reading n = some v) :
    (w.withSamples reading).hsk.monitors[n] = w.hsk.monitors[n].sample w.now v := by
  refine (Vector.getElem_mapIdx ..).trans ?_
  rw [read]
  rfl

theorem State.withSamples_unread {reading : Nat → Option F32} {n : Fin 24} (none_ : reading n = none) :
    (w.withSamples reading).hsk.monitors[n] = w.hsk.monitors[n] := by
  refine (Vector.getElem_mapIdx ..).trans ?_
  rw [none_]
  rfl

/-- What a sample reads of a monitor that the rings or the others give, but for the oscillator and the age itself. -/
theorem State.monitorReading_given {n : Nat} (oscillator : n ≠ 0x10) (age : n ≠ 0x17) : w.monitorReading slacks others n =
    if n < 12 then slacks.getD n none else others.getD (n - 12) none := by
  rw [State.monitorReading, if_neg age, if_neg (by simp [oscillator])]

theorem State.monitorReading_none {n : Nat} (age : n ≠ 0x17)
    (none_ : (if n < 12 then slacks.getD n none else others.getD (n - 12) none) = none) : w.monitorReading slacks others n = none := by
  rw [State.monitorReading, if_neg age, none_, ite_self]

theorem State.monitorReading_unlocked (unlocked : w.time.tb[2].state ≠ 2) : w.monitorReading slacks others 0x10 = none := by
  rw [State.monitorReading, if_neg (by decide), if_pos (by rw [beq_eq_false_iff_ne.mpr unlocked]; rfl)]

end

/-! ## LEDGER_DAILY (R616, R621) -/

theorem Monitor.judge_today (m : Monitor) (n : Nat) (aEq rate : F64) : (m.judge n aEq rate).today = m.today := by
  unfold Monitor.judge
  split <;> rfl

theorem Monitor.endDay_today (m : Monitor) (n : Nat) (aEq powered : F64) : (m.endDay n aEq powered).today = [] := by
  unfold Monitor.endDay
  split
  next empty => exact List.isEmpty_iff.mp empty
  next =>
    dsimp only
    split <;> rfl

/-- What the day's plans leave of HSK: the monitors, the ages and the day. -/
structure LedgerKept (s u : State) : Prop where
  frame : FrameBut ([.hsk] ++ reportParts) s u
  day : u.hsk.dayAt = s.hsk.dayAt
  days : u.hsk.aEqDays = s.hsk.aEqDays
  monitors : u.hsk.monitors = s.hsk.monitors
  age : u.hsk.aEq = s.hsk.aEq
  powered : u.hsk.poweredTime = s.hsk.poweredTime

section
variable {s : State}

theorem LedgerKept.trans {u v : State} (h : LedgerKept s u) (k : LedgerKept u v) : LedgerKept s v :=
  ⟨h.frame.trans k.frame, k.day.trans h.day, k.days.trans h.days, k.monitors.trans h.monitors, k.age.trans h.age, k.powered.trans h.powered⟩

theorem LedgerKept.of_reports {u : State} (h : FrameBut reportParts s u) : LedgerKept s u :=
  ⟨h.mono (by decide), by rw [h.hsk], by rw [h.hsk], by rw [h.hsk], by rw [h.hsk], by rw [h.hsk]⟩

theorem LedgerKept.refl : LedgerKept s s := .of_reports (FrameBut.refl _ _)

theorem LedgerKept.ite {p : Prop} [Decidable p] {u v : State} (h : LedgerKept s u) (k : LedgerKept s v) :
    LedgerKept s (if p then u else v) := by
  split
  · exact h
  · exact k

theorem State.ageingMargin_kept {n : Nat} {old : BitVec 8} : LedgerKept s (s.ageingMargin n old) := by
  unfold State.ageingMargin
  exact .ite .refl (.of_reports (State.raise_frame _ _ _ _ _ _ _))

theorem State.ageingMargins_kept {olds : Vector (BitVec 8) 24} {l : List Nat} :
    LedgerKept s (l.foldl (fun s n => s.ageingMargin n (at? olds n)) s) := by
  induction l generalizing s with
  | nil => exact .refl
  | cons n l ih => exact State.ageingMargin_kept.trans ih

theorem State.planRefresh_kept : LedgerKept s s.planRefresh := by
  unfold State.planRefresh
  exact .ite .refl ⟨(frame_set_hsk s _).mono (by decide), rfl, rfl, rfl, rfl, rfl⟩

theorem LedgerKept.after {u v : State} (k : LedgerKept u v) (h : LedgerKept s u) : LedgerKept s v := h.trans k

theorem State.raiseN_kept {n p0 : Nat} {p1 p2 p3 : Option Nat} : LedgerKept s (s.raiseN n p0 p1 p2 p3) :=
  .of_reports (State.raiseN_frame _ _ _ _ _ _)

theorem LedgerKept.set_hsk {h : Housekeeping} (day : h.dayAt = s.hsk.dayAt) (days : h.aEqDays = s.hsk.aEqDays)
    (monitors : h.monitors = s.hsk.monitors) (age : h.aEq = s.hsk.aEq) (powered : h.poweredTime = s.hsk.poweredTime) :
    LedgerKept s { s with hsk := h } :=
  ⟨(frame_set_hsk s h).mono (by decide), day, days, monitors, age, powered⟩

/-- The plan of the holdup sets HSK's own numbers, and reports what changed. -/
theorem State.planHoldup_kept : LedgerKept s s.planHoldup :=
  .after (.ite State.raiseN_kept .refl) (.after (.ite State.raiseN_kept .refl) (.ite
    (.after State.raiseN_kept (.set_hsk rfl rfl rfl rfl rfl)) (.set_hsk rfl rfl rfl rfl rfl)))

end

/-- The day enters the ledger: means, fits, ages and coefficients. -/
def State.dayEnded (w : State) : State :=
  let coefficients := oscCoefficients w.hsk.oscPoints w.factory.oscF w.factory.oscA
  { w with hsk.dayAt := w.now / (86400 * second),
           hsk.monitors := w.hsk.monitors.mapIdx fun n (m : Monitor) =>
             (m.endDay n w.hsk.aEq (F64.ofNat w.hsk.poweredTime)).judge n w.hsk.aEq (yearRate w.hsk.aEqDays w.hsk.aEq),
           hsk.aEqDays := (w.hsk.aEq :: w.hsk.aEqDays).take 365, hsk.oscF := coefficients.1, hsk.oscA := coefficients.2 }

/-- What LEDGER_DAILY leaves. -/
def State.ledgered (w : State) : State :=
  ((List.range 24).foldl (fun s n => s.ageingMargin n (at? (w.hsk.monitors.map (·.state)) n)) w.dayEnded).planRefresh.planHoldup

theorem State.dayEnded_today (w : State) (n : Fin 24) : w.dayEnded.hsk.monitors[n].today = [] := by
  have entry : w.dayEnded.hsk.monitors[n] = (w.hsk.monitors[n].endDay n w.hsk.aEq (F64.ofNat w.hsk.poweredTime)).judge n w.hsk.aEq
      (yearRate w.hsk.aEqDays w.hsk.aEq) := Vector.getElem_mapIdx ..
  rw [entry, Monitor.judge_today, Monitor.endDay_today]

theorem State.ledgered_kept (w : State) : LedgerKept w.dayEnded w.ledgered :=
  (State.ageingMargins_kept.trans State.planRefresh_kept).trans State.planHoldup_kept

theorem execLedgerDaily_early {s : State} {t : Nat} (on : Powered s) (early : (s.clock t).now / (86400 * second) ≤ s.hsk.dayAt) :
    execLedgerDaily t s = .next (s.clock t) := by
  rw [← (s.clock_frame t).hsk] at early
  exact (runPowered_next _ on).trans (congrArg Host.Outcome.next (if_pos early))

theorem execLedgerDaily_due {s : State} {t : Nat} (on : Powered s) (due : s.hsk.dayAt < (s.clock t).now / (86400 * second)) :
    execLedgerDaily t s = .next (s.clock t).ledgered := by
  rw [← (s.clock_frame t).hsk] at due
  exact (runPowered_next _ on).trans (congrArg Host.Outcome.next (if_neg (by omega)))

/-! ## MRAM_REFRESH (R626) -/

/-- Nothing keeps the refresh from the store. -/
structure StoreFree (s : State) : Prop where
  writes : s.power.noNvWrites = false
  flushing : s.recorder.flushing = []
  geyser : s.recorder.geyserRunning = false

/-- The refresh of a free store: it begins where it is due, or the block in progress is complete. -/
def State.refreshStep (w : State) : State :=
  match w.hsk.mramBlock with
  | none => if w.refreshDue then { w with hsk.mramBlock := some 0, hsk.mramStart := some w.tb3, hsk.mramAt := w.now } else w
  | some b =>
    if w.now < w.hsk.mramAt + 10 * ms then w
    else if b + 1 < 8192 then { w with hsk.mramBlock := some (b + 1), hsk.mramAt := w.now }
    else { w with hsk.mramBlock := none, hsk.mramLast := w.tb3 }

section
variable {w : State}

theorem State.refreshStep_idle (idle : w.hsk.mramBlock = none) : w.refreshStep =
    if w.refreshDue then { w with hsk.mramBlock := some 0, hsk.mramStart := some w.tb3, hsk.mramAt := w.now } else w := by
  unfold State.refreshStep
  rw [idle]

theorem State.refreshStep_block {b : Nat} (block : w.hsk.mramBlock = some b) : w.refreshStep =
    if w.now < w.hsk.mramAt + 10 * ms then w
    else if b + 1 < 8192 then { w with hsk.mramBlock := some (b + 1), hsk.mramAt := w.now }
    else { w with hsk.mramBlock := none, hsk.mramLast := w.tb3 } := by
  unfold State.refreshStep
  rw [block]

theorem State.refreshDue_iff : w.refreshDue = true ↔ ∀ a : Nat, w.hsk.mramStart = some a → a + w.hsk.mramInterval * 86400 * second ≤ w.tb3 := by
  unfold State.refreshDue
  cases w.hsk.mramStart <;> simp

end

section
variable {s : State} {t : Nat} (on : Powered s)
include on

theorem execMramRefresh_barred (barred : s.power.noNvWrites = true ∨ s.recorder.flushing ≠ [] ∨ s.recorder.geyserRunning = true) :
    execMramRefresh t s = .next (s.clock t) := by
  have frame := s.clock_frame t
  rw [← frame.power, ← frame.recorder] at barred
  exact (runPowered_next _ on).trans (congrArg Host.Outcome.next (if_pos (by simpa [or_assoc] using barred)))

theorem execMramRefresh_free (writes : s.power.noNvWrites = false) (flushing : s.recorder.flushing = [])
    (geyser : s.recorder.geyserRunning = false) : execMramRefresh t s = .next (s.clock t).refreshStep := by
  have frame := s.clock_frame t
  rw [← frame.power] at writes
  rw [← frame.recorder] at flushing geyser
  exact (runPowered_next _ on).trans (congrArg Host.Outcome.next (if_neg (by simp [writes, flushing, geyser])))

end

/-- Settles O53: what a sample and a day leave of HSK is `State.fumaroleSampled_hsk` and `State.ledgered_kept`; the refresh is
`State.refreshStep`. -/
theorem monitorsAreSampled : Obligations.MonitorsAreSampled := by
  unfold Obligations.MonitorsAreSampled
  intro s t on
  have frame := s.clock_frame t
  refine ⟨fun slacks others early => ?early, fun slacks others due => ?sample, fun early => ?sameDay, fun due => ?day,
    fun writes flushing geyser => ?refresh, execMramRefresh_barred on⟩
  case early => exact execFumaroleSample_early on early
  case sample =>
    obtain ⟨points, bins, hsk, kept⟩ := State.fumaroleSampled_hsk (w := s.clock t) (slacks := slacks) (others := others)
    rw [← frame.hsk]
    refine ⟨_, execFumaroleSample_due on due, by rw [hsk]; rfl, by rw [hsk]; rfl, by rw [hsk]; rfl, fun n v oscillator age reads => ?_,
      fun n age reads => ?_, fun unlocked => ?_, State.fumaroleSampled_frame⟩
    · rw [hsk]
      exact State.withSamples_read (w := (s.clock t).aged) ((State.monitorReading_given oscillator age).trans reads)
    · rw [hsk]
      exact State.withSamples_unread (w := (s.clock t).aged) (State.monitorReading_none age reads)
    · have none_ := State.monitorReading_unlocked (w := (s.clock t).aged) (slacks := slacks) (others := others) unlocked
      rw [hsk]
      exact ⟨State.withSamples_unread (w := (s.clock t).aged) (n := 0x10) none_, kept none_⟩
  case sameDay => exact execLedgerDaily_early on early
  case day =>
    obtain ⟨reports, day, days, monitors, age, powered⟩ := (s.clock t).ledgered_kept
    rw [← frame.hsk]
    refine ⟨_, execLedgerDaily_due on due, day, days, fun n => ?_, age, powered,
      ((frame_set_hsk (s.clock t) _).mono (by decide)).trans reports⟩
    rw [monitors]
    exact State.dayEnded_today _ n
  case refresh =>
    have step := execMramRefresh_free (t := t) on writes flushing geyser
    rw [← frame.hsk]
    refine ⟨fun idle passed => ?_, fun a idle last early => ?_, fun b block early => ?_, fun b block due more => ?_, fun b block due last => ?_⟩ <;>
      refine step.trans (congrArg Host.Outcome.next ?_)
    · rw [State.refreshStep_idle idle, if_pos (State.refreshDue_iff.mpr passed)]
    · rw [State.refreshStep_idle idle, if_neg fun due => absurd (State.refreshDue_iff.mp due a last) (by omega)]
    · rw [State.refreshStep_block block, if_pos early]
    · rw [State.refreshStep_block block, if_neg (by omega), if_pos more]
    · rw [State.refreshStep_block block, if_neg (by omega), if_neg (by omega)]

end Sys2Proof.Machine
end

section
/-! Updates (spec/18_ageing_and_field_update.md): a transfer is queried (R634), and an activation is judged (R637, R638). -/

namespace Sys2Proof.Machine
set_option Elab.async false

section
variable {w : State} {id crc : Word}

/-! ## UPDATE_ACTIVATE of the image that is staged -/

/-- The staged image is the one the command names. -/
def State.Staged (w : State) (id crc : Word) : Prop := w.update.ext.state = 3 ∧ w.update.ext.id = id ∧ w.update.ext.crc = crc

theorem State.staged_iff : (w.update.ext.state == 3 && w.update.ext.id.toNat == id.toNat && w.update.ext.crc.toNat == crc.toNat) = true ↔
    w.Staged id crc := by
  simp only [State.Staged, Bool.and_eq_true, beq_iff_eq, BitVec.toNat_inj, and_assoc]

theorem State.updateActivate_unstaged {when_ : Nat} (unstaged : ¬ w.Staged id crc) :
    w.updateActivate 1 0 when_ id.toNat crc.toNat = refuse .badValue w := by
  unfold State.updateActivate
  dsimp only
  refine if_pos (.inr (.inr (.inr ?_)))
  rw [if_pos rfl, Bool.eq_false_iff.mpr (mt State.staged_iff.mp unstaged)]
  rfl

section
variable (staged : w.Staged id crc)
include staged

/-- At the next start (WHEN 1). -/
theorem State.updateActivate_start :
    w.updateActivate 1 0 1 id.toNat crc.toNat = done { w with update.activation := some (false, false) } := by
  obtain ⟨state, named, checked⟩ := staged
  unfold State.updateActivate
  dsimp only
  rw [if_neg (by simp [state, named, checked])]
  rfl

/-- An activation is withdrawn (WHEN 0), with no restart that waits for it. -/
theorem State.updateActivate_cancel (none_ : w.modes.restartPending ≠ some .update) :
    w.updateActivate 1 0 0 id.toNat crc.toNat = done { w with update.activation := none } := by
  obtain ⟨state, named, checked⟩ := staged
  unfold State.updateActivate
  dsimp only
  rw [if_neg (by simp [state, named, checked]), beq_eq_false_iff_ne.mpr none_]
  rfl

/-- During operation (WHEN 2): with a structure, every peer in contact in step, and an image that retains the state (R637, R638). -/
theorem State.updateActivate_now : w.updateActivate 1 0 2 id.toNat crc.toNat =
    if w.imageState ≠ 1 then refuse .wrongMode w
    else if w.contacts.any fun m => !(w.inStepPeers.contains m) then refuse .busy w
    else if !(ExtImage.bytes w.update.ext.image).retains then refuse .version w
    else done ({ w with update.activation := some (false, true) }.planRestart .update) := by
  have image : w.activationImage false = some (.bytes w.update.ext.image) := if_pos (beq_iff_eq.mpr staged.1)
  obtain ⟨state, named, checked⟩ := staged
  unfold State.updateActivate
  dsimp only
  rw [if_neg (by simp [state, named, checked]), show ((0 : Nat) == 1) = false from rfl, image]
  rfl

end

theorem inStep_any (inStep : ∀ m ∈ w.contacts, m ∈ w.inStepPeers) : (w.contacts.any fun m => !(w.inStepPeers.contains m)) = false := by
  rw [List.any_eq_false]
  exact fun m here => by simp [inStep m here]

/-! ## UPDATE_QUERY -/

theorem State.updateQuery_refused {target first : Nat} (bad : (target ≠ 1 ∧ target ≠ 2) ∨ first % 8 ≠ 0) :
    w.updateQuery target first = refuse .badValue w := if_pos bad

theorem State.updateQuery_ok {target first : Nat} (known : target = 1 ∨ target = 2) (aligned : first % 8 = 0) :
    w.updateQuery target first = { state := w, body :=
      (be32 (w.update.transfer target).id ++ nat32 (w.update.transfer target).length ++ be32 (w.update.transfer target).crc ++
        nat32 (w.update.transfer target).total ++ nat32 (w.update.transfer target).doneCount ++ nat8 (w.update.shown target) ++
        zeros 3 ++ nat32 first ++ (List.range (min 1024 (((w.update.transfer target).total - first + 7) / 8))).map fun i =>
          (w.update.transfer target).bitmapByte (first + 8 * i)) } := if_neg (by omega)

end

/-- Settles O56: UPDATE_QUERY by the lemmas about `State.updateQuery`, UPDATE_ACTIVATE by those about `State.updateActivate`. -/
theorem updatesAreQueriedAndActivated : Obligations.UpdatesAreQueriedAndActivated := by
  unfold Obligations.UpdatesAreQueriedAndActivated
  intro s t req
  refine ⟨fun target first ready => ⟨fun known aligned => ?query, fun bad => ?badQuery⟩, fun when_ id crc ready => ?activate⟩
  case query =>
    exact runHost_answered (act := State.updateQuery target.toNat first.toNat) ready
      (State.updateQuery_ok (by rcases known with rfl | rfl <;> decide) aligned)
  case badQuery =>
    refine runHost_refused (act := State.updateQuery target.toNat first.toNat) ready (by decide) (State.updateQuery_refused ?_)
    exact bad.imp_left fun other => ⟨fun one => other.1 (BitVec.eq_of_toNat_eq one), fun two => other.2 (BitVec.eq_of_toNat_eq two)⟩
  case activate =>
    intro w no staged
    refine ⟨fun unstaged => ?_, fun staged start => ?_, fun staged cancel none_ => ?_, fun staged now none_ => ?_,
      fun staged now structure_ inStep retains => ?_, fun staged now structure_ inStep forgets => ?_⟩
    · exact runHost_refused (act := State.updateActivate 1 0 when_.toNat id.toNat crc.toNat) ready (by decide)
        (State.updateActivate_unstaged unstaged)
    · subst start
      exact runHost_done (act := State.updateActivate 1 0 1 id.toNat crc.toNat) ready (State.updateActivate_start staged)
    · subst cancel
      exact runHost_done (act := State.updateActivate 1 0 0 id.toNat crc.toNat) ready (State.updateActivate_cancel staged none_)
    · subst now
      exact runHost_refused (act := State.updateActivate 1 0 2 id.toNat crc.toNat) ready (by decide)
        ((State.updateActivate_now staged).trans (if_pos none_))
    · subst now
      refine runHost_done (act := State.updateActivate 1 0 2 id.toNat crc.toNat) ready ((State.updateActivate_now staged).trans ?_)
      rw [if_neg (not_not.mpr structure_), inStep_any inStep, retains]
      rfl
    · subst now
      refine runHost_refused (act := State.updateActivate 1 0 2 id.toNat crc.toNat) (u := w) (st := .version) ready (by decide)
        ((State.updateActivate_now staged).trans ?_)
      rw [if_neg (not_not.mpr structure_), inStep_any inStep, forgets]
      rfl

end Sys2Proof.Machine
end

section
/-! Transfers (spec/18_ageing_and_field_update.md, R630-R633): one opens or is resumed, takes its chunks, and ends STAGED or CORRUPT. -/

namespace Sys2Proof.Machine
set_option Elab.async false

/-! ## UPDATE_OPEN (R630, R631) -/

section
variable {w : State} {id len crc : Word}

/-- What an open of the extension image's transfer is judged by, once its numbers are in range. -/
structure OpensExt (w : State) (id len : Word) : Prop where
  named : id ≠ 0
  some_ : len ≠ 0
  fits : len.toNat ≤ 32 * 2 ^ 20
  free : w.update.activation = none

theorem toNat_ne_zero {v : Word} (nonzero : v ≠ 0) : v.toNat ≠ 0 := fun zero => nonzero (BitVec.eq_of_toNat_eq zero)

theorem State.updateOpen_noSpace {target : Nat} (known : target = 1 ∨ target = 2) (named : id ≠ 0) (large : largestImage target < len.toNat) :
    w.updateOpen target id.toNat len.toNat crc.toNat = refuse .noSpace w := by
  have nonzero := toNat_ne_zero named
  unfold State.updateOpen
  dsimp only
  rw [if_neg (by omega), if_neg (by omega), if_pos large]

/-- The transfer that an open resumes is the one of these numbers, unless it is CORRUPT. -/
def Transfer.Same (x : Transfer) (id len crc : Word) : Prop := x.id = id ∧ x.length = len.toNat ∧ x.crc = crc ∧ x.state ≠ 4

theorem Transfer.same_iff {x : Transfer} :
    (x.id.toNat = id.toNat ∧ x.length = len.toNat ∧ x.crc.toNat = crc.toNat ∧ (x.state != 4) = true) ↔ x.Same id len crc := by
  simp only [Transfer.Same, BitVec.toNat_inj, bne_iff_ne]

theorem State.setTransfer_ext (w : State) (x : Transfer) : w.setTransfer 1 x = { w with update.ext := x } := if_pos rfl

/-- The transfer that begins anew. -/
def freshTransfer (id len crc : Word) : Transfer := { id := id, length := len.toNat, crc := crc, state := 1 }

/-- A transfer that was stopped is open again. -/
def Transfer.reopened (x : Transfer) : Transfer := if x.state = 2 then { x with state := 1 } else x

theorem Transfer.reopened_counts (x : Transfer) : x.reopened.total = x.total ∧ x.reopened.doneCount = x.doneCount := by
  unfold Transfer.reopened
  split <;> exact ⟨rfl, rfl⟩

/-- The state with a transfer that begins anew, which discards the fallback image. -/
def State.withFresh (w : State) (id len crc : Word) : State :=
  { w with update.ext := freshTransfer id len crc, update.area := w.update.area.filter (fun e => e.target != 1), update.fallback := none,
           update.activation := none }

variable (opens : OpensExt w id len)
include opens

/-- An open in range is judged by the transfer that there is. -/
theorem State.updateOpen_judged : w.updateOpen 1 id.toNat len.toNat crc.toNat =
    if w.update.ext.id.toNat = id.toNat ∧ w.update.ext.length = len.toNat ∧ w.update.ext.crc.toNat = crc.toNat ∧
        (w.update.ext.state != 4) = true then
      { state := { w with update.ext := w.update.ext.reopened },
        body := nat32 w.update.ext.reopened.total ++ nat32 w.update.ext.reopened.doneCount ++ [1] ++ zeros 3 }
    else
      { state := w.withFresh id len crc,
        body := nat32 (freshTransfer id len crc).total ++ nat32 0 ++ [0] ++ zeros 3 } := by
  obtain ⟨named, some_, fits, free⟩ := opens
  have nonzero := toNat_ne_zero named
  have length := toNat_ne_zero some_
  have again : (if w.update.ext.state == 2 then { w.update.ext with state := 1 } else w.update.ext) = w.update.ext.reopened := by
    simp only [Transfer.reopened, beq_iff_eq]
  unfold State.updateOpen
  dsimp only
  rw [if_neg (by omega), if_neg (by omega), if_neg (by rw [largestImage, if_pos rfl]; omega), if_neg (by simp [free]),
    BitVec.ofNat_toNat, BitVec.setWidth_eq, BitVec.ofNat_toNat, BitVec.setWidth_eq, if_pos rfl,
    show w.update.transfer 1 = w.update.ext from rfl, again, State.setTransfer_ext, State.setTransfer_ext]
  rfl

theorem State.updateOpen_resumes (same : w.update.ext.Same id len crc) : w.updateOpen 1 id.toNat len.toNat crc.toNat =
    { state := { w with update.ext := w.update.ext.reopened },
      body := nat32 ((len.toNat + 4095) / 4096) ++ nat32 w.update.ext.chunks.length ++ [1] ++ zeros 3 } := by
  obtain ⟨total, count⟩ := w.update.ext.reopened_counts
  have length : w.update.ext.total = (len.toNat + 4095) / 4096 := by rw [Transfer.total, same.2.1]; rfl
  rw [State.updateOpen_judged opens, if_pos (Transfer.same_iff.mpr same), total, length, count]
  rfl

theorem State.updateOpen_begins (other : ¬ w.update.ext.Same id len crc) : w.updateOpen 1 id.toNat len.toNat crc.toNat =
    { state := w.withFresh id len crc, body := nat32 ((len.toNat + 4095) / 4096) ++ nat32 0 ++ [0] ++ zeros 3 } := by
  rw [State.updateOpen_judged opens, if_neg (mt Transfer.same_iff.mp other)]
  rfl

end

/-! ## UPDATE_CHUNK (R632) -/

section
variable {w : State} {id chunk crc : Word} {data : List Byte}

/-- A part that is the whole of a chunk of the extension image's transfer. -/
structure WholeChunk (w : State) (id chunk : Word) (data : List Byte) : Prop where
  named : w.update.ext.id = id
  nonzero : id ≠ 0
  runs : w.update.ext.state ≠ 2
  inside : chunk.toNat < w.update.ext.total
  size : w.update.ext.sizeOf chunk.toNat = data.length
  least : 1 ≤ data.length
  most : data.length ≤ 1024

/-- The entry of the reassembly area that it makes. -/
def wholeEntry (w : State) (chunk crc : Word) (data : List Byte) : PartsEntry :=
  { target := 1, chunk := chunk.toNat, crc := crc, count := 1, parts := [(0, data)], startedAt := w.now }

/-- The answer to a chunk. -/
def chunkBody (id chunk : Word) (result : Byte) (done_ : Nat) : List Byte := be32 id ++ be32 chunk ++ [result] ++ zeros 3 ++ nat32 done_

theorem wholeEntry_whole : (wholeEntry w chunk crc data).whole = true := rfl

theorem wholeEntry_data : (wholeEntry w chunk crc data).data = data := List.append_nil data

/-- Entries of the area for the chunk. -/
def ofChunk (chunk : Word) (e : PartsEntry) : Bool := e.target == 1 && e.chunk == chunk.toNat

variable (whole : WholeChunk w id chunk data)
include whole

/-- A whole chunk is judged by what is written, and by its CRC. -/
theorem State.updateChunk_judged (first : w.update.ext.has chunk.toNat = false → w.update.area.any (ofChunk chunk) = false) :
    w.updateChunk id.toNat chunk.toNat 0 1 crc.toNat data =
      if w.update.ext.has chunk.toNat then { state := w, body := chunkBody id chunk 2 w.update.ext.chunks.length }
      else if crc32c data != crc then { state := w, body := chunkBody id chunk 3 w.update.ext.chunks.length }
      else
        { state := { w with update.area := (if w.update.area.length < 32 then w.update.area else w.update.area.drop 1) ++
                              [wholeEntry w chunk crc data] },
          body := chunkBody id chunk 1 (w.update.ext.chunks.length + 1) } := by
  obtain ⟨named, nonzero, runs, inside, size, least, most⟩ := whole
  have target : (if w.update.ext.id.toNat == id.toNat && w.update.ext.id != 0 then some 1
      else if w.update.struct.id.toNat == id.toNat && w.update.struct.id != 0 then some 2 else none) = some 1 := by
    rw [named, if_pos (by simpa using nonzero)]
  unfold State.updateChunk
  dsimp only
  rw [target]
  dsimp only
  rw [show w.update.transfer 1 = w.update.ext from rfl, if_neg (by simpa using runs), if_neg (by simp), if_neg (by omega), nat32_toNat,
    nat32_toNat]
  cases written : w.update.ext.has chunk.toNat with
  | true => rfl
  | false =>
    have none_ := first written
    have absent : w.update.area.find? (fun e => e.target == 1 && e.chunk == chunk.toNat) = none :=
      List.find?_eq_none.mpr fun e held => List.any_eq_false.mp none_ e held
    have kept : w.update.area.filter (fun e => !(e.target == 1 && e.chunk == chunk.toNat)) = w.update.area :=
      List.filter_eq_self.mpr fun e held =>
        (Bool.not_eq_true' _).mpr (Bool.eq_false_iff.mpr (List.any_eq_false.mp none_ e held))
    have count : (w.update.ext.sizeOf chunk.toNat + 1023) / 1024 = 1 := by omega
    rw [absent, kept, count, show (w.update.area.any fun e => e.target == 1 && e.chunk == chunk.toNat) = false from none_,
      BitVec.ofNat_toNat, BitVec.setWidth_eq]
    refine (if_neg Bool.false_ne_true).trans ?_
    change (if (!(wholeEntry w chunk crc data).whole) = true then _
      else if (crc32c (wholeEntry w chunk crc data).data != crc) = true then _ else _) = _
    rw [wholeEntry_whole, wholeEntry_data]
    rfl

end

/-! ## CHUNK_WRITTEN and CHUNK_PARTS_EXPIRY (R632, R633) -/

/-- The state once a chunk of the extension image is written and marked. -/
def State.withWritten (w : State) (chunk : Nat) (x : Transfer) : State :=
  { w with update.area := w.update.area.filter (fun e => !(e.target == 1 && e.chunk == chunk)), update.ext := x }

/-- The transfer with one more chunk. -/
def Transfer.withChunk (x : Transfer) (chunk : Nat) (data : List Byte) : Transfer := { x with chunks := x.chunks ++ [(chunk, data)] }

/-- The report of it, by source 118. -/
def State.reportWritten (w : State) (chunk : Nat) (x : Transfer) : State :=
  (w.withWritten chunk x).raiseN 118 1 (some chunk) (some x.chunks.length)

section
variable {s : State} {t chunk : Nat} (on : Running s)
include on

/-- A chunk that waits is written; the last one's image is judged by its CRC. -/
theorem execChunkWritten_ext {e : PartsEntry}
    (waits : (s.update.area.find? fun e => e.target == 1 && e.chunk == chunk && e.whole) = some e) (writes : s.power.noNvWrites = false)
    (runs : s.update.ext.state ≠ 2) : execChunkWritten t false chunk s = .next (
      let x := s.update.ext.withChunk chunk e.data
      let u := (s.clock t).reportWritten chunk x
      if x.chunks.length < x.total then u
      else if crc32c x.image == x.crc then
        State.raise { u with update.ext := { x with state := if crc32c x.image == x.crc then 3 else 4 } } 119
      else { u with update.ext := { x with state := if crc32c x.image == x.crc then 3 else 4 } }) := by
  have frame := s.clock_frame t
  rw [← frame.update] at waits runs ⊢
  rw [← frame.power] at writes
  refine (runRunning_next _ on).trans (congrArg Host.Outcome.next ?_)
  rw [if_neg Bool.false_ne_true]
  dsimp only
  rw [waits]
  dsimp only
  rw [show (s.clock t).update.transfer 1 = (s.clock t).update.ext from rfl, writes, beq_eq_false_iff_ne.mpr runs, Bool.or_self,
    if_neg Bool.false_ne_true, if_neg (by decide : ¬ (1 = 2)), State.setTransfer_ext, State.setTransfer_ext]
  rfl

theorem execChunkPartsExpiry_next : execChunkPartsExpiry t s = .next { s.clock t with
    update.area := (s.clock t).update.area.filter fun e => !(!e.whole && decide (e.startedAt + 60 * second ≤ (s.clock t).now)) } :=
  runRunning_next _ on

end

/-- Settles O55: UPDATE_OPEN is `State.updateOpen_judged`, UPDATE_CHUNK `State.updateChunk_judged`, CHUNK_WRITTEN `execChunkWritten_ext`. -/
theorem transfersTakeTheirChunks : Obligations.TransfersTakeTheirChunks := by
  unfold Obligations.TransfersTakeTheirChunks
  intro s t req
  refine ⟨fun id len crc ready some_ named fits => ⟨fun free i l c state => ?resumes, fun free other => ?begins⟩,
    fun target id len crc ready known named large => ?noSpace, fun id chunk crc data ready => ?chunk,
    fun on chunk e waits writes runs => ?written, execChunkPartsExpiry_next⟩
  case resumes =>
    exact runHost_answered (act := State.updateOpen 1 id.toNat len.toNat crc.toNat) ready
      (State.updateOpen_resumes ⟨named, some_, fits, free⟩ ⟨i, l, c, state⟩)
  case begins =>
    refine runHost_answered (act := State.updateOpen 1 id.toNat len.toNat crc.toNat) ready
      (State.updateOpen_begins ⟨named, some_, fits, free⟩ fun same => ?_)
    obtain ⟨i, l, c, state⟩ := same
    rcases other with h | h | h | h
    · exact h i
    · exact h l
    · exact h c
    · exact state h
  case noSpace =>
    exact runHost_refused (act := State.updateOpen target.toNat id.toNat len.toNat crc.toNat) ready (by decide)
      (State.updateOpen_noSpace (by rcases known with rfl | rfl <;> decide) named large)
  case chunk =>
    intro w x mine named nonzero runs inside size least most
    have judged := State.updateChunk_judged (crc := crc) ⟨named, nonzero, runs, inside, size, least, most⟩
    refine ⟨fun written => ?_, fun new first wrong => ?_, fun new first right room => ?_⟩
    · exact runHost_answered (act := State.updateChunk id.toNat chunk.toNat 0 1 crc.toNat data) ready
        ((judged fun new => absurd (written.symm.trans new) (by decide)).trans (if_pos written))
    · exact runHost_answered (act := State.updateChunk id.toNat chunk.toNat 0 1 crc.toNat data) ready
        ((judged fun _ => first).trans ((if_neg (by rw [new]; decide)).trans (if_pos (bne_iff_ne.mpr wrong))))
    · refine runHost_answered (act := State.updateChunk id.toNat chunk.toNat 0 1 crc.toNat data) ready
        ((judged fun _ => first).trans ((if_neg (by rw [new]; decide)).trans ((if_neg (by simp [right])).trans ?_)))
      rw [if_pos room]
      rfl
  case written =>
    intro x v
    have next := execChunkWritten_ext (t := t) on waits writes runs
    refine ⟨fun more => next.trans (congrArg Host.Outcome.next (if_pos more)), fun last => ?_⟩
    have judged := next.trans (congrArg Host.Outcome.next (if_neg (Nat.not_lt.mpr last)))
    refine ⟨fun right => ?_, fun wrong => ?_⟩
    · refine ⟨_, judged.trans (congrArg Host.Outcome.next (if_pos (beq_iff_eq.mpr right))), ?_⟩
      rw [(State.raise_frame _ _ _ _ _ _ _).update]
      exact congrArg (fun b : Bool => { x with state := if b then 3 else 4 }) (beq_iff_eq.mpr right)
    · exact ⟨_, judged.trans (congrArg Host.Outcome.next (if_neg (mt beq_iff_eq.mp wrong))),
        congrArg (fun b : Bool => { x with state := if b then 3 else 4 }) (beq_eq_false_iff_ne.mpr wrong)⟩

end Sys2Proof.Machine
end

section
/-! What a restart with state handover may touch on its way (spec/13_modes_and_start_up.md, R479, R481): nothing of its steps 4 to 6,
the entries it loads among them, starts or stops SUP again or marks another fault of the core pair. -/

namespace Sys2Proof.Machine
set_option Elab.async false

/-! ## What it is to leave the run of SUP alone -/

/-- SUP runs, or does not, as before, and the retained block tells of a fault of the core pair as before. -/
structure KeepsRun (s u : State) : Prop where
  phase : u.modes.phase = s.modes.phase
  supFault : u.retained.supFault = s.retained.supFault

theorem KeepsRun.refl {s : State} : KeepsRun s s := ⟨rfl, rfl⟩

/-- An operation that keeps it, after what led to the state it acts on. -/
theorem KeepsRun.after {s u v : State} (k : KeepsRun u v) (h : KeepsRun s u) : KeepsRun s v :=
  ⟨k.phase.trans h.phase, k.supFault.trans h.supFault⟩

theorem KeepsRun.of_frame {ps : List Part} {s u : State} (h : FrameBut ps s u)
    (other : (ps.contains .modes || ps.contains .retained) = false) : KeepsRun s u := by
  simp only [Bool.or_eq_false_iff, List.contains_eq_mem, decide_eq_false_iff_not] at other
  exact ⟨congrArg (·.phase) (h.modes other.1), congrArg (·.supFault) (h.retained other.2)⟩

/-- An operation whose report may enter SAFE: its frame leaves the retained block alone, and the phase is shown apart. -/
theorem KeepsRun.of_report {ps : List Part} {s u : State} (h : FrameBut ps s u) (other : ps.contains .retained = false)
    (phase : u.modes.phase = s.modes.phase) : KeepsRun s u := by
  simp only [List.contains_eq_mem, decide_eq_false_iff_not] at other
  exact ⟨phase, congrArg (·.supFault) (h.retained other)⟩

/-- An update of any other parts. -/
theorem KeepsRun.set {s w : State} {factory events cycle image time gnss ain fusion wind obs obsParams obsOut history law dyn sol res
    solParams servo field saf group gcycle net qcp recorder trust hsk update panel power free pending} (h : KeepsRun s w) :
    KeepsRun s { factory := factory, events := events, cycle := cycle, image := image, time := time, gnss := gnss, ain := ain,
                 fusion := fusion, wind := wind, obs := obs, obsParams := obsParams, obsOut := obsOut, history := history, law := law,
                 dyn := dyn, sol := sol, res := res, solParams := solParams, servo := servo, field := field, saf := saf,
                 modes := w.modes, retained := w.retained, group := group, gcycle := gcycle, net := net, qcp := qcp,
                 recorder := recorder, trust := trust, hsk := hsk, update := update, panel := panel, power := power, free := free,
                 pending := pending } :=
  ⟨h.phase, h.supFault⟩

theorem KeepsRun.ite {s a b : State} {c : Prop} {_ : Decidable c} (h : KeepsRun s a) (k : KeepsRun s b) :
    KeepsRun s (if c then a else b) := by
  split
  · exact h
  · exact k

theorem KeepsRun.foldl {α : Type} {f : State → α → State} {l : List α} {s a : State} (h : ∀ u, ∀ x ∈ l, KeepsRun u (f u x))
    (ha : KeepsRun s a) : KeepsRun s (l.foldl f a) := by
  induction l generalizing a with
  | nil => exact ha
  | cons x l ih =>
    exact ih (fun u y here => h u y (List.mem_cons_of_mem _ here)) ((h a x List.mem_cons_self).after ha)

/-- What a host command decides keeps it. -/
def DoneKeepsRun (s : State) (d : Done) : Prop := KeepsRun s d.state

theorem DoneKeepsRun.answer {s w : State} {st : Status} {b : List Byte} {keep deferred : Bool} {detail : Word} (h : KeepsRun s w) :
    DoneKeepsRun s { status := st, body := b, state := w, keep := keep, detail := detail, deferred := deferred } := h

theorem DoneKeepsRun.refuse {s w : State} {st : Status} {b : List Byte} (h : KeepsRun s w) : DoneKeepsRun s (refuse st w b) := h

theorem DoneKeepsRun.done {s w : State} (h : KeepsRun s w) : DoneKeepsRun s (done w) := h

theorem DoneKeepsRun.ite {s : State} {a b : Done} {c : Prop} {_ : Decidable c} (h : DoneKeepsRun s a) (k : DoneKeepsRun s b) :
    DoneKeepsRun s (if c then a else b) := by
  split
  · exact h
  · exact k

theorem DoneKeepsRun.checkValue {s w : State} {ok : Bool} {f : Unit → Done} (h : DoneKeepsRun s (f ())) (hw : KeepsRun s w) :
    DoneKeepsRun s (checkValue ok w f) :=
  .ite h (.refuse hw)

theorem DoneKeepsRun.notPositioning {s w : State} {c : WriteCtx} {f : Unit → Done} (h : DoneKeepsRun s (f ())) (hw : KeepsRun s w) :
    DoneKeepsRun s (c.notPositioning w f) :=
  .ite (.refuse hw) h

theorem DoneKeepsRun.onlyIn {s w : State} {c : WriteCtx} {ms : List Mode} {f : Unit → Done} (h : DoneKeepsRun s (f ()))
    (hw : KeepsRun s w) : DoneKeepsRun s (c.onlyIn w ms f) :=
  .ite h (.refuse hw)

/-! ## Reports, and entry to SAFE (R471) -/

theorem State.toSafe_phase (s : State) (bit) : (s.toSafe bit).modes.phase = s.modes.phase := by
  unfold State.toSafe
  dsimp only
  split
  · rfl
  · rw [(State.raiseCore_frame _ _ _ _ _ _ _).modes, (State.clearOverloads_frame _).modes]
    rfl

theorem State.enterSafe_phase (s : State) (bit) : (s.enterSafe bit).modes.phase = s.modes.phase := by
  unfold State.enterSafe
  split
  · exact State.toSafe_phase s bit
  · rw [State.safeRole_modes, State.toSafe_phase]

theorem State.enterSafe_keepsRun {s : State} {bit} : KeepsRun s (s.enterSafe bit) :=
  .of_report (State.enterSafe_frame _ _) rfl (State.enterSafe_phase s bit)

theorem State.raise_keepsRun {s : State} {n p0 p1 p2 p3 must} : KeepsRun s (s.raise n p0 p1 p2 p3 must) := by
  refine .of_report (State.raise_frame _ _ _ _ _ _ _) rfl ?_
  have core : (s.raiseCore n p0 p1 p2 p3 must).1.modes = s.modes := (State.raiseCore_frame s n p0 p1 p2 p3 must).modes
  cases overflow : (s.raiseCore n p0 p1 p2 p3 must).2 with
  | false => rw [State.raise_of_room overflow, core]
  | true => rw [State.raise_of_overflow overflow, State.enterSafe_phase, core]

theorem State.raiseN_keepsRun {s : State} {n p0 p1 p2 p3} : KeepsRun s (s.raiseN n p0 p1 p2 p3) :=
  State.raise_keepsRun

theorem State.setRole_keepsRun {s : State} {r cause} : KeepsRun s (s.setRole r cause) := by
  refine .of_report (State.setRole_frame _ _ _) rfl ?_
  unfold State.setRole
  dsimp only
  split
  · rw [State.enterSafe_phase, State.setRoleCore_modes]
  · rw [State.setRoleCore_modes]

theorem State.sendLaneTo_keepsRun {s : State} {m f} : KeepsRun s (s.sendLaneTo m f) :=
  .of_frame (State.sendLaneTo_frame _ _ _) rfl

theorem State.record_keepsRun {s : State} {code island p0 p1 p2 p3 time trigger} :
    KeepsRun s (s.record code island p0 p1 p2 p3 time trigger) :=
  .of_frame (State.record_frame _ _ _ _ _ _ _ _ _) rfl

/-! ## The writes of the islands that start again (R58) -/

/-! ### References, the observer, the law and the thrusters -/

theorem State.readmit_keepsRun {s : State} {r} : KeepsRun s (s.readmit r) :=
  .ite .refl <| State.raise_keepsRun.after <| .ite (.set <| .set .refl) (.set .refl)

theorem State.admitAgain_keepsRun {s : State} {r} : KeepsRun s (s.admitAgain r) :=
  .ite .refl <| .set <| .set .refl

theorem State.refWrite_keepsRun {s : State} {r num v} : KeepsRun s (s.refWrite r num v) := by
  unfold State.refWrite
  dsimp only
  split
  any_goals exact .set .refl
  · exact .ite (.set <| .set <| .set .refl) <| .ite (.set .refl) <| .set <| .set .refl
  · exact .ite (.set <| .set <| .set .refl) (.set .refl)
  · exact State.admitAgain_keepsRun.after <| .set .refl
  · exact State.admitAgain_keepsRun.after <| .set .refl

theorem State.obsWrite_keepsRun {s : State} {num v} : KeepsRun s (s.obsWrite num v) := by
  unfold State.obsWrite
  dsimp only
  split
  any_goals exact .set .refl
  any_goals exact .set <| .set .refl

theorem State.fusionWrite_keepsRun {s : State} {inst num v} : KeepsRun s (s.fusionWrite inst num v) := by
  unfold State.fusionWrite
  refine .ite State.obsWrite_keepsRun <| .ite ?_ ?_
  · split
    any_goals exact .set .refl
    · split
      · exact State.readmit_keepsRun
      · exact .refl
  · split
    · exact State.refWrite_keepsRun
    · exact .refl

theorem State.setpoint_keepsRun {s : State} {n e psi} : KeepsRun s (s.setpoint n e psi) :=
  State.raise_keepsRun.after <| .set .refl

theorem State.lawWrite_keepsRun {s : State} {num v} : KeepsRun s (s.lawWrite num v) := by
  unfold State.lawWrite
  dsimp only
  split
  any_goals exact .set .refl
  · exact State.setpoint_keepsRun
  · exact State.setpoint_keepsRun
  · exact State.setpoint_keepsRun
  · exact .ite (.set <| .set .refl) (.set .refl)

theorem State.thrWrite_keepsRun {s : State} {slice num v} : KeepsRun s (s.thrWrite slice num v) := by
  unfold State.thrWrite
  split
  · exact .set .refl
  · exact .set .refl
  · exact .refl

/-! ### The servo (0x07) -/

theorem State.writeCoeff_keepsRun {s : State} {n num v} : DoneKeepsRun s (s.writeCoeff n num v) := by
  unfold State.writeCoeff
  split
  · exact .done (.set .refl)
  · exact .refuse .refl

theorem State.writeHold_keepsRun {s : State} {n r count} : DoneKeepsRun s (s.writeHold n r count) :=
  .ite (.refuse .refl) <| .ite (.done (.set .refl)) <| .done (.set .refl)

theorem State.writeSlotSp_keepsRun {s : State} {c n r v} : DoneKeepsRun s (s.writeSlotSp c n r v) :=
  .ite (.refuse .refl) <| .ite (.refuse .refl) <| .done (.set .refl)

theorem State.slotWrite_keepsRun {s : State} {c n num v} : DoneKeepsRun s (s.slotWrite c n num v) := by
  unfold State.slotWrite
  split
  · exact .refuse .refl
  · exact .ite (.refuse .refl) <| .ite (.checkValue State.writeCoeff_keepsRun .refl) <|
      .ite (.checkValue State.writeHold_keepsRun .refl) <| .ite (.checkValue State.writeSlotSp_keepsRun .refl) <|
      .ite (.checkValue (.checkValue (.done (.set .refl)) .refl) .refl) (.refuse .refl)

theorem State.aimAxis_keepsRun {s : State} {r a target host} : KeepsRun s (s.aimAxis r a target host) :=
  .ite (.ite (State.raiseN_keepsRun.after <| .set .refl) (.set .refl)) (.set .refl)

theorem State.pgWrite_keepsRun {s : State} {c g num v} : DoneKeepsRun s (s.pgWrite c g num v) := by
  unfold State.pgWrite
  split
  · exact .refuse .refl
  · dsimp only
    split
    any_goals exact .refuse .refl
    any_goals exact .checkValue (.done (.set .refl)) .refl
    · exact .ite (.refuse .refl) <| .checkValue (.done State.aimAxis_keepsRun) .refl

theorem State.writeRatio_keepsRun {s : State} {g i v} : DoneKeepsRun s (s.writeRatio g i v) :=
  .checkValue (.done (.set .refl)) .refl

theorem State.gearWrite_keepsRun {s : State} {c g num v} : DoneKeepsRun s (s.gearWrite c g num v) :=
  .ite (.notPositioning (.checkValue (.done (.set .refl)) .refl) .refl) <| .ite (.notPositioning (.checkValue (.done
    (.set .refl)) .refl) .refl) <| .ite (.checkValue (.done (.set .refl)) .refl) <| .ite (.refuse .refl) <| .ite State.writeRatio_keepsRun <|
    .ite (.checkValue (.done (.set .refl)) .refl) <| .ite (.checkValue (.done (.set .refl)) .refl) (.refuse .refl)

theorem State.latchWrite_keepsRun {s : State} {c n num v} : DoneKeepsRun s (s.latchWrite c n num v) :=
  .ite (.notPositioning (.checkValue (.done (.set .refl)) .refl) .refl) <| .ite (.refuse .refl) (.refuse .refl)

theorem State.stpControl_keepsRun {s : State} {c d v} : DoneKeepsRun s (s.stpControl c d v) :=
  .ite (.refuse .refl) <| .ite (.onlyIn (.done (.set .refl)) .refl) <| .done (.set .refl)

theorem State.stpWrite_keepsRun {s : State} {c d num v} : DoneKeepsRun s (s.stpWrite c d num v) := by
  unfold State.stpWrite
  refine .ite (.refuse .refl) ?_
  dsimp only
  split
  any_goals exact .refuse .refl
  any_goals exact .checkValue (.done (.set .refl)) .refl
  · exact .checkValue State.stpControl_keepsRun .refl

theorem State.icWrite_keepsRun {s : State} {c num v} : DoneKeepsRun s (s.icWrite c num v) := by
  unfold State.icWrite
  dsimp only
  split
  any_goals exact .refuse .refl
  any_goals exact .checkValue (.done (.set .refl)) .refl
  · exact .ite (.refuse .refl) <| .ite (.refuse .refl) <| .ite (.done (.set .refl)) <| .done (.set .refl)
  · exact .ite (.refuse .refl) <| .ite (.done (.set .refl)) <| .done (.set .refl)

theorem State.srvWrite_keepsRun {s : State} {c inst num v} : DoneKeepsRun s (s.srvWrite c inst num v) :=
  .ite State.slotWrite_keepsRun <| .ite State.pgWrite_keepsRun <| .ite State.gearWrite_keepsRun <| .ite State.latchWrite_keepsRun <|
    .ite State.stpWrite_keepsRun <| .ite State.icWrite_keepsRun (.refuse .refl)

/-! ### GNSS (0x03) -/

theorem State.setSupply_keepsRun {s : State} {a status current} : KeepsRun s (s.setSupply a status current) :=
  .ite (.set .refl) <| State.raise_keepsRun.after <| .set .refl

theorem State.gnbRestart_keepsRun {s : State} {kind} : KeepsRun s (s.gnbRestart kind) :=
  .ite (.set <| .set .refl) <| .set <| .set .refl

theorem State.switchSupply_keepsRun {s : State} {a on_} : KeepsRun s (s.switchSupply a on_) :=
  .ite (.set <| State.setSupply_keepsRun.after <| .set .refl) <| .ite (.set .refl) <| .set <| State.setSupply_keepsRun.after <| .set .refl

theorem State.feWrite_keepsRun {s : State} {f num v} : DoneKeepsRun s (s.feWrite f num v) := by
  unfold State.feWrite
  dsimp only
  split
  any_goals exact .refuse .refl
  · exact .checkValue (.done (.set .refl)) .refl
  · exact .checkValue (.done (.set .refl)) .refl

theorem State.gnbWrite_keepsRun {s : State} {c inst num v} : DoneKeepsRun s (s.gnbWrite c inst num v) := by
  unfold State.gnbWrite
  refine .ite (.refuse .refl) ?_
  split
  any_goals exact .refuse .refl
  any_goals exact .checkValue (.done (.set .refl)) .refl
  any_goals exact .notPositioning (.checkValue (.done (.set .refl)) .refl) .refl
  · exact .notPositioning (.checkValue (.done State.gnbRestart_keepsRun) .refl) .refl
  · exact .checkValue (.done State.switchSupply_keepsRun) .refl
  · exact .checkValue (.done State.switchSupply_keepsRun) .refl
  · exact .ite State.feWrite_keepsRun (.refuse .refl)

/-! ### Group writes, of the estimator (0x05) and of the law and the solver (0x06) -/

theorem State.groupWrite_keepsRun {s : State} {c obj v now queue apply judge} (hn : ∀ u, KeepsRun u (now u))
    (hq : ∀ u w, KeepsRun u (queue u w)) (ha : ∀ u, KeepsRun u (apply u)) :
    DoneKeepsRun s (s.groupWrite c obj v now queue apply judge) := by
  unfold State.groupWrite
  refine .ite (.refuse .refl) ?_
  split
  · exact .ite (.done <| (ha _).after (hn _)) (.ite (.answer <| (hq _ _).after (hn _)) (.answer ⟨rfl, rfl⟩))
  · exact .refuse .refl

theorem State.estWrite_keepsRun {s : State} {c inst num v} : DoneKeepsRun s (s.estWrite c inst num v) := by
  unfold State.estWrite
  split
  · exact State.groupWrite_keepsRun (fun _ => .refl) (fun _ _ => .set .refl) fun _ => State.fusionWrite_keepsRun
  · exact .refuse .refl

theorem State.lawNow_keepsRun {s : State} {num} : KeepsRun s (s.lawNow num) := by
  unfold State.lawNow
  split
  · exact .set .refl
  · exact .set .refl
  · exact .refl

theorem State.checkStart_keepsRun {s : State} {c v} : DoneKeepsRun s (s.checkStart c v) :=
  .checkValue (.onlyIn (.ite (.refuse .refl) <| .done (.set .refl)) .refl) .refl

theorem State.thrObjectWrite_keepsRun {s : State} {c n num v} : DoneKeepsRun s (s.thrObjectWrite c n num v) := by
  unfold State.thrObjectWrite
  refine .ite (.refuse .refl) ?_
  dsimp only
  split
  any_goals exact .refuse .refl
  · exact .checkValue (State.groupWrite_keepsRun (fun _ => .refl) (fun _ _ => .set .refl) fun _ => State.thrWrite_keepsRun) .refl
  · exact .checkValue (State.groupWrite_keepsRun (fun _ => .refl) (fun _ _ => .set .refl) fun _ => State.thrWrite_keepsRun) .refl

theorem State.lawLoad_keepsRun {s : State} {num v} : KeepsRun s (s.lawLoad num v) :=
  State.lawWrite_keepsRun.after <| .ite (.set .refl) .refl

theorem State.solWrite_keepsRun {s : State} {c inst num v} : DoneKeepsRun s (s.solWrite c inst num v) := by
  unfold State.solWrite
  refine .ite (.ite State.checkStart_keepsRun ?_) <| .ite State.thrObjectWrite_keepsRun (.refuse .refl)
  split
  · exact State.groupWrite_keepsRun (fun _ => State.lawNow_keepsRun) (fun _ _ => .set .refl) fun _ => State.lawLoad_keepsRun
  · exact .refuse .refl

/-! ### The settings of GNSS at a start -/

theorem State.gnssSettings_keepsRun {s : State} : KeepsRun s s.gnssSettings := by
  unfold State.gnssSettings
  exact State.switchSupply_keepsRun.after <| State.switchSupply_keepsRun.after <| .set .refl

/-! ## The entries of the loaded structure (R58, R481) -/

/-- The islands that start again take their entries as a load gives them. -/
theorem State.loadEntry_keepsRun {s u : State} {long} {p : ParamRec} (restarted : objIsland p.object ∈ [0x03, 0x05, 0x06, 0x07])
    (h : s.loadEntry long p = .ok u) : KeepsRun s u := by
  have write {c v} : DoneKeepsRun s (s.writeObject c p.object v) := by
    simp only [List.mem_cons, List.not_mem_nil, or_false] at restarted
    unfold State.writeObject
    rcases restarted with gnb | est | sol | srv
    · simp only [gnb]; exact State.gnbWrite_keepsRun
    · simp only [est]; exact State.estWrite_keepsRun
    · simp only [sol]; exact State.solWrite_keepsRun
    · simp only [srv]; exact State.srvWrite_keepsRun
  unfold State.loadEntry at h
  split at h
  · cases h
  · dsimp only at h
    split at h
    · cases h
      exact write
    · cases h

theorem State.startIslands_keepsRun {s : State} : KeepsRun s s.startIslands := by
  unfold State.startIslands
  refine .set <| .set <| .foldl (fun u e here => ?_) <| .set <| .set <| .set <| .set <| .set <|
    State.gnbRestart_keepsRun.after <| State.gnssSettings_keepsRun.after <| .set .refl
  split at here
  · split
    · exact State.loadEntry_keepsRun (by simpa using (List.mem_filter.mp here).2) ‹_›
    · exact .refl
  · cases here

/-! ## The code, the copy, the mode and the role (R161, R400, R481, R522, R638, R639) -/

theorem State.activatePending_keepsRun {s : State} {handover} : KeepsRun s (s.activatePending handover) := by
  unfold State.activatePending
  split
  · exact .refl
  · split
    · exact .set .refl
    · split
      · exact .set .refl
      · exact State.raiseN_keepsRun.after <| .set .refl

theorem State.verifyActive_keepsRun {s : State} {handover} : KeepsRun s (State.verifyActive handover s).2 := by
  unfold State.verifyActive
  split
  · exact ⟨rfl, rfl⟩
  · dsimp only
    split
    · split
      · exact .set State.raiseN_keepsRun
      · dsimp only
        exact State.raiseN_keepsRun
    · dsimp only
      exact State.raiseN_keepsRun

theorem State.restoreServo_keepsRun {s : State} {c} : KeepsRun s (s.restoreServo c) :=
  .set <| .set <| .set <| State.gnbRestart_keepsRun.after <| .set .refl

theorem State.requestCopy_keepsRun {s : State} : KeepsRun s s.requestCopy :=
  .ite .refl <| .ite (State.sendLaneTo_keepsRun.after <| .set <| .set .refl) .refl

theorem State.toResync_keepsRun {s : State} {cause} : KeepsRun s (s.toResync cause) :=
  State.requestCopy_keepsRun.after State.setRole_keepsRun

theorem State.roleAfterRestart_keepsRun {s : State} {recorded} : KeepsRun s (s.roleAfterRestart recorded) :=
  .ite (.set .refl) <| .ite (.ite (State.requestCopy_keepsRun.after <| .set .refl) <| State.toResync_keepsRun.after <| .set .refl) <|
    .ite (.set .refl) <| State.setRole_keepsRun.after <| .set .refl

theorem State.adoptMode_keepsRun {s : State} {m} : KeepsRun s (s.adoptMode m) := by
  refine .of_report (State.adoptMode_frame s m) rfl ?_
  unfold State.adoptMode
  split
  · rfl
  · rw [(State.clearOverloads_frame _).modes]
    dsimp only
    split
    · rw [(State.captureHolds_frame _).modes]
    · rw [(State.captureHolds_frame _).modes]
    · rw [(State.captureHolds_frame _).modes]
    · split <;> rfl

end Sys2Proof.Machine
end

section
/-! Restarts (spec/13_modes_and_start_up.md, R474, R478-R481): a write or a fault of the SUP core pair asks for one, and one with state
handover ends with a report of its kind. -/

namespace Sys2Proof.Machine
set_option Elab.async false

/-! ## POWER_GOOD of a module that has power (R474) -/

theorem execPowerGood_powered {s : State} {t : Nat} (f : StartFacts) (on : Powered s) : execPowerGood t f s = .next (s.clock t) := by
  have powered : s.powered = true := by simpa [State.powered, Powered] using on
  exact if_pos powered

/-! ## RESTART 1: the answer, then the cold start -/

/-- The restart that a write of RESTART asks for waits in the state. -/
def State.asksRestart (w : State) (kind : RestartKind) : State := { w with modes.restartPending := some kind }

theorem State.restartWrite_cold {w : State} {c : WriteCtx} (host : c.load = false) (out : w.modes.mode.positioning = false) :
    w.restartWrite c [1] = done (w.asksRestart .cold) := by
  refine if_neg ?_
  simp [WriteCtx.mode, host, out]

/-- The answer leaves what was asked: a module that runs starts cold. -/
theorem State.beginCold_wrote {w : State} (f ends req obj) (on : w.modes.phase = .running) :
    ((w.asksRestart .cold).wrote req obj).beginCold f ends = ((w.asksRestart .cold).wrote req obj).restartNow f ends := by
  have modes : ((w.asksRestart .cold).wrote req obj).modes = (w.asksRestart .cold).modes := (State.respond_frame _ _ _ _ _).modes
  refine if_pos ?_
  rw [State.running, modes]
  simp [State.asksRestart, on]

theorem execRestartCold_next {s : State} {t : Nat} {req : Request} (f : StartFacts) (ends : Nat)
    (ready : Ready s t req 0x11 (writeBody (objId 1 0 0x33) [1])) (out : s.modes.mode.positioning = false) :
    execRestartCold t req f ends s =
      .next ((((s.atWrite t req (objId 1 0 0x33) [1]).asksRestart .cold).wrote req (objId 1 0 0x33)).restartNow f ends) := by
  have modes : (s.atWrite t req (objId 1 0 0x33) [1]).modes = s.modes := (State.atWrite_frame ready).modes
  have written := hostWrite_done (act := fun c s => s.restartWrite c [1]) ready
    (State.restartWrite_cold rfl (by rw [modes]; exact out))
  rw [runHost_next _ ready.running ready.started] at written
  rw [execRestartCold, runHost_next _ ready.running ready.started, Host.Outcome.next.inj written,
    State.beginCold_wrote _ _ _ _ (by rw [modes]; exact ready.running)]

/-! ## RESTART 2: the next command instant, for which a LEAD yields (R478, R511) -/

/-- A restart of `kind` is planned for the next command instant. -/
def State.plansRestart (w : State) (kind : RestartKind) : State :=
  { w with modes.restartPending := some kind, modes.restartInstant := w.commandInstantFrom (w.tb3 + 50 * us) }

theorem State.plansRestart_group (w : State) (kind) : (w.plansRestart kind).group = w.group := rfl

/-- The member to which a LEAD yields: none is asked of any other. -/
theorem yields_none {v : State} (stays : v.group.role ≠ .lead ∨ v.successor = none) :
    (if v.group.role == .lead then v.successor else none) = none := by
  rcases stays with other | alone
  · exact if_neg (by simpa using other)
  · rw [alone, ite_self]

theorem yields_some {v : State} {m : Nat} (lead : v.group.role = .lead) (next : v.successor = some m) :
    (if v.group.role == .lead then v.successor else none) = some m := by
  rw [if_pos (beq_iff_eq.mpr lead), next]

theorem State.planRestart_stays {w : State} {kind}
    (stays : (w.plansRestart kind).group.role ≠ .lead ∨ (w.plansRestart kind).successor = none) :
    w.planRestart kind = w.plansRestart kind := by
  have none_ := yields_none stays
  unfold State.plansRestart at none_ ⊢
  unfold State.planRestart
  dsimp only at none_ ⊢
  rw [none_]

theorem State.planRestart_yields {w : State} {kind} {m : Nat} (lead : (w.plansRestart kind).group.role = .lead)
    (next : (w.plansRestart kind).successor = some m) :
    w.planRestart kind = ((w.plansRestart kind).yieldTo m (w.commandInstantFrom (w.tb3 + 50 * us))).setRole .alone 3 := by
  have some_ := yields_some lead next
  unfold State.plansRestart at some_ ⊢
  unfold State.planRestart
  dsimp only at some_ ⊢
  rw [some_]

section
variable {s : State} {t : Nat} {req : Request} (ready : Ready s t req 0x11 (writeBody (objId 1 0 0x33) [2])) (active : s.imageState = 1)
include ready active

theorem execRestartWithHandover_next :
    execRestartWithHandover t req s =
      .next (((s.atWrite t req (objId 1 0 0x33) [2]).planRestart .handover).wrote req (objId 1 0 0x33)) := by
  have image : (s.atWrite t req (objId 1 0 0x33) [2]).imageState = 1 := by
    refine Eq.trans ?_ active
    rw [State.imageState, State.hasStructure, (State.atWrite_frame ready).image]
    rfl
  exact hostWrite_done (act := fun c s => s.restartWrite c [2]) ready (if_pos image)

theorem execRestartWithHandover_stays
    (stays : s.group.role ≠ .lead ∨ ((s.atWrite t req (objId 1 0 0x33) [2]).plansRestart .handover).successor = none) :
    execRestartWithHandover t req s =
      .next (((s.atWrite t req (objId 1 0 0x33) [2]).plansRestart .handover).wrote req (objId 1 0 0x33)) := by
  rw [execRestartWithHandover_next ready active, State.planRestart_stays]
  rwa [State.plansRestart_group, (State.atWrite_frame ready).group]

theorem execRestartWithHandover_yields {m : Nat} (lead : s.group.role = .lead)
    (next : ((s.atWrite t req (objId 1 0 0x33) [2]).plansRestart .handover).successor = some m) :
    let w := s.atWrite t req (objId 1 0 0x33) [2]
    execRestartWithHandover t req s = .next ((((w.plansRestart .handover).yieldTo m
      (w.commandInstantFrom (w.tb3 + 50 * us))).setRole .alone 3).wrote req (objId 1 0 0x33)) := by
  dsimp only
  rw [execRestartWithHandover_next ready active, State.planRestart_yields ?_ next]
  rwa [State.plansRestart_group, (State.atWrite_frame ready).group]

end

/-! ## A fault of the SUP core pair (R478, R481, R511) -/

section
variable {c : State} {source : Nat} (apart : ∀ a : Nat, c.modes.faultRestartAt = some a → a + 60 * second < c.now)
include apart

/-- Where no such fault caused a restart within the last 60 s, this one does, after what a LEAD yields. -/
theorem State.supFault_restarts : c.supFault source =
    let v := c.raise source (must := true)
    let y := match (if v.group.role == .lead then v.successor else none) with
      | some m => (v.yieldTo m (v.commandInstantFrom (v.tb3 + 50 * us))).setRole .alone 3
      | none => v
    { y.beginHandover true with modes.faultRestartAt := some y.now } := by
  unfold State.supFault
  dsimp only
  refine if_neg ?_
  split
  next a before => simpa using apart a before
  next => exact Bool.false_ne_true

theorem State.supFault_stays
    (stays : (c.raise source (must := true)).group.role ≠ .lead ∨ (c.raise source (must := true)).successor = none) :
    c.supFault source = { (c.raise source (must := true)).beginHandover true with
      modes.faultRestartAt := some (c.raise source (must := true)).now } := by
  rw [State.supFault_restarts apart]
  dsimp only
  rw [yields_none stays]

theorem State.supFault_yields {m : Nat} (lead : (c.raise source (must := true)).group.role = .lead)
    (next : (c.raise source (must := true)).successor = some m) :
    c.supFault source =
      let v := c.raise source (must := true)
      let y := (v.yieldTo m (v.commandInstantFrom (v.tb3 + 50 * us))).setRole .alone 3
      { y.beginHandover true with modes.faultRestartAt := some y.now } := by
  rw [State.supFault_restarts apart]
  dsimp only
  rw [yields_some lead next]

end

/-! ## The restart begins (R479) -/

theorem State.recordFaults_frame (s : State) : FrameBut [.recorder] s s.recordFaults :=
  FrameBut.foldl (fun u _ => State.record_frame u _ _ _ _ _ _ _ _) _ s

theorem State.beginHandover_frame (s : State) (fault : Bool) :
    FrameBut [.modes, .retained, .cycle, .field, .events, .image, .qcp, .recorder] s (s.beginHandover fault) := by
  refine (s.recordFaults_frame.mono (by decide)).trans ?_
  intro p other
  cases p <;> first | rfl | exact absurd (by decide) other

/-! ## It ends (R481) -/

/-- Step 4: whether an extension image can run, and what its verification left. -/
def State.restartCode (s : State) : Bool × State := (s.activatePending true).verifyActive true

/-- SUP runs again. -/
def State.supRuns (s : State) (f : StartFacts) : State :=
  { s with trust.extMeas := s.extMeasure, trust.entropyFail := !f.entropyOk, modes.phase := .running, retained.supFault := false }

/-- The copy that a code that passed its checks takes. -/
def State.copyTaken (s : State) (extOk codeOk : Bool) : Option Copy := if extOk && codeOk then s.goodCopy else none

/-- The islands take back what the copy holds, or start anew, and the cycle and the role resume. -/
def State.resumes (s : State) (copy : Option Copy) : State :=
  let s := { s with modes.discardUpTo := (copy.map fun (c : Copy) => c.tb3At).getD s.modes.discardUpTo }
  let recorded := match copy with | some c => c.role | none => .alone
  let s := match copy with
    | some c => { (((s.takeCopy c).restoreServo c).adoptMode c.mode) with obs.resume := true }
    | none => s.startIslands
  s.resumeCycle.roleAfterRestart recorded

/-- What the restart tells of itself, and the entry to SAFE that a missing code or copy causes. -/
def State.restartJudged (s : State) (fault extOk codeOk : Bool) (copy : Option Copy) : State :=
  let s := if fault then s.raise 13 (must := true) else s
  let s := { s with modes.startKind := if copy.isSome then 1 else 2 }
  if !extOk || !codeOk then s.enterSafe 7 else if copy.isNone then s.enterSafe 8 else s

/-- The report of a restart with state handover, and its record. -/
def State.restartReported (s : State) (outcome step : Nat) : State :=
  let duration := BitVec.ofNat 32 ((s.now - s.modes.restartAt) / 1000)
  let s := s.record 0x0005 0x01 (BitVec.ofNat 32 (65536 + outcome * 256 + step)) duration (BitVec.ofNat 32 s.unsigned) 0 s.tb3
  { s with modes.report := { kind := 1, outcome := BitVec.ofNat 8 outcome, step := BitVec.ofNat 8 step, duration := duration,
                             tb0At := s.now } }

/-- OUTCOME: 3 for a copy taken, 4 for a code without one, 2 for a code that failed. -/
def restartOutcome (copy : Option Copy) (extOk codeOk : Bool) : Nat := if copy.isSome then 3 else if extOk && codeOk then 4 else 2

theorem State.handoverReady_eq (s : State) (f : StartFacts) : s.handoverReady f =
    let v := s.restartCode.2.supRuns f
    let copy := v.copyTaken s.restartCode.1 f.codeOk
    ((v.resumes copy).restartJudged s.retained.supFault s.restartCode.1 f.codeOk copy).restartReported
      (restartOutcome copy s.restartCode.1 f.codeOk) (if !s.restartCode.1 then 4 else if !f.codeOk then 5 else 6) := rfl

theorem restartOutcome_known (copy extOk codeOk) :
    restartOutcome copy extOk codeOk = 2 ∨ restartOutcome copy extOk codeOk = 3 ∨ restartOutcome copy extOk codeOk = 4 := by
  unfold restartOutcome
  split
  · exact .inr (.inl rfl)
  · split
    · exact .inr (.inr rfl)
    · exact .inl rfl

theorem restartOutcome_failed (extOk) : restartOutcome none extOk false = 2 := by
  cases extOk <;> rfl

/-- A code that fails its check takes no copy. -/
theorem State.copyTaken_failed (s : State) (extOk : Bool) : s.copyTaken extOk false = none := if_neg (by simp)

theorem State.resumes_keepsRun {s : State} {copy} : KeepsRun s (s.resumes copy) := by
  have discards (n : Nat) : KeepsRun s { s with modes.discardUpTo := n } := ⟨rfl, rfl⟩
  refine State.roleAfterRestart_keepsRun.after <| .set ?_
  cases copy with
  | some c => exact .set <| State.adoptMode_keepsRun.after <| State.restoreServo_keepsRun.after <| .set <| discards _
  | none => exact State.startIslands_keepsRun.after <| discards _

theorem State.restartJudged_keepsRun {s : State} {fault extOk codeOk copy} : KeepsRun s (s.restartJudged fault extOk codeOk copy) := by
  have tells : KeepsRun s (if fault then s.raise 13 (must := true) else s) := .ite State.raise_keepsRun .refl
  have kind {u : State} (n) : KeepsRun u { u with modes.startKind := n } := ⟨rfl, rfl⟩
  exact .after (.ite State.enterSafe_keepsRun <| .ite State.enterSafe_keepsRun .refl) <| (kind _).after tells

/-- A code that fails its check enters SAFE. -/
theorem State.restartJudged_failed (s : State) (fault extOk copy) : (s.restartJudged fault extOk false copy).modes.mode = .safe := by
  unfold State.restartJudged
  dsimp only
  rw [if_pos (by simp)]
  exact (State.enterSafe_modes _ 7).1

theorem State.handoverReady_runs (s : State) (f : StartFacts) :
    (s.handoverReady f).modes.phase = .running ∧ (s.handoverReady f).retained.supFault = false := by
  rw [State.handoverReady_eq]
  dsimp only
  generalize (s.restartCode.2.supRuns f).copyTaken s.restartCode.1 f.codeOk = copy
  have kept : KeepsRun (s.restartCode.2.supRuns f)
      (((s.restartCode.2.supRuns f).resumes copy).restartJudged s.retained.supFault s.restartCode.1 f.codeOk copy) :=
    State.restartJudged_keepsRun.after State.resumes_keepsRun
  exact ⟨kept.phase, kept.supFault⟩

theorem State.handoverReady_reports (s : State) (f : StartFacts) : (s.handoverReady f).modes.report.kind = 1 ∧
    ((s.handoverReady f).modes.report.outcome = 2 ∨ (s.handoverReady f).modes.report.outcome = 3 ∨
      (s.handoverReady f).modes.report.outcome = 4) := by
  rw [State.handoverReady_eq]
  dsimp only
  generalize (s.restartCode.2.supRuns f).copyTaken s.restartCode.1 f.codeOk = copy
  exact ⟨rfl, (restartOutcome_known copy s.restartCode.1 f.codeOk).imp (congrArg (BitVec.ofNat 8))
    (Or.imp (congrArg (BitVec.ofNat 8)) (congrArg (BitVec.ofNat 8)))⟩

theorem State.handoverReady_failed (s : State) {f : StartFacts} (failed : f.codeOk = false) :
    (s.handoverReady f).modes.report.outcome = 2 ∧ (s.handoverReady f).modes.mode = .safe := by
  rw [State.handoverReady_eq, failed]
  dsimp only
  rw [State.copyTaken_failed]
  exact ⟨congrArg (BitVec.ofNat 8) (restartOutcome_failed _), State.restartJudged_failed _ _ _ _⟩

theorem execHandoverReady_next {s : State} {t : Nat} (f : StartFacts) (restarting : s.modes.phase = .restarting) :
    execHandoverReady t f s = .next ((s.clock t).handoverReady f) := by
  have on : Powered s := by simp [Powered, restarting]
  have still : ((s.clock t).modes.phase == .restarting) = true := by rw [(s.clock_frame t).modes, restarting]; rfl
  exact (runPowered_next _ on).trans (congrArg Host.Outcome.next (if_pos still))

/-! ## The statement -/

/-- Settles O31: what asks for a restart is the write (`execRestartCold_next`, `execRestartWithHandover_next`) or the fault
(`State.supFault_restarts`), and nothing between its steps and its report stops SUP again (`KeepsRun`). -/
theorem restartsBeginAndEnd : Obligations.RestartsBeginAndEnd := by
  unfold Obligations.RestartsBeginAndEnd
  intro s t
  refine ⟨?powerGood, ?cold, ?handover, ?lockstep, ?ecc, ?begins, ?ends⟩
  case powerGood => exact fun f on => execPowerGood_powered f on
  case cold => exact fun req f ends ready out => execRestartCold_next f ends ready out
  case handover =>
    intro req ready active
    exact ⟨fun stays => execRestartWithHandover_stays ready active stays,
      fun m lead next => execRestartWithHandover_yields ready active lead next⟩
  case lockstep =>
    intro on
    exact fun apart => ⟨fun stays => (execLockstepMismatch_next on).trans (congrArg Host.Outcome.next (State.supFault_stays apart stays)),
      fun m lead next => (execLockstepMismatch_next on).trans (congrArg Host.Outcome.next (State.supFault_yields apart lead next))⟩
  case ecc =>
    intro on
    exact fun apart => ⟨fun stays => (execSupRamEcc_next on).trans (congrArg Host.Outcome.next (State.supFault_stays apart stays)),
      fun m lead next => (execSupRamEcc_next on).trans (congrArg Host.Outcome.next (State.supFault_yields apart lead next))⟩
  case begins => exact fun b => ⟨rfl, rfl, rfl, State.beginHandover_frame s b⟩
  case ends =>
    intro f restarting
    obtain ⟨phase, supFault⟩ := (s.clock t).handoverReady_runs f
    obtain ⟨kind, outcome⟩ := (s.clock t).handoverReady_reports f
    exact ⟨_, execHandoverReady_next f restarting, phase, supFault, kind, outcome, fun failed => State.handoverReady_failed _ failed⟩

end Sys2Proof.Machine
end
